-- ==== Sys2Proof/Word.lean ====
section
/-! DEFINITION. The word type, sparse maps, and the operand records of the commands. -/

namespace Sys2Proof

/-- A 64-bit word: every register word, packet word and record word of the device (R373, R358). -/
abbrev Word := BitVec 64

/-- A sparse map: keys strictly rising, an absent key holding the map's default. -/
abbrev SMap (α : Type) := List (Nat × α)

/-- An Obsan command packet as the command engines take it (R367, R373), less the opcode and form, which the row gives.
`lane` is the host lane of arrival, `none` for the serial management port; `resv` is header bits [15:0]; `tick` is the
tick count at which the engines accept it (the present one when that is later). -/
structure Cmd where
  tick : Nat
  lane : Option Nat
  part : Nat
  tag : Nat
  resv : Nat
  params : List Word
  deriving DecidableEq, Repr

/-- Parameter word `i`, 0 where the packet has none. -/
def Cmd.par (c : Cmd) (i : Nat) : Word := c.params.getD i 0#64

/-- A link frame as the receiver holds it (R174, R175): the two sequence numbers, the kind, the data words, whether the sync header of
every block was valid, the CRC of its frame end, bits [35:0] of its frame start, and the valid bytes in the last data block. -/
structure Frame where
  seqStart : Nat
  seqEnd : Nat
  kind : Nat
  words : List Word
  blocksOk : Bool
  crc : Nat
  low : Nat := 0
  bytes : Nat := 8
  deriving DecidableEq, Repr

/-- The active taps, ring stages and trim DAC codes of an interpolator (R118, R120): 32 of the taps 0 to 39, a length 0 to 3 of each ring, and
the 7 codes. -/
structure Selection where
  taps : List Nat
  slowStage : Nat
  fastStage : Nat
  dacs : List Nat
  deriving DecidableEq, Repr

/-- What LOCK measures and sets (R118): the line bias, the widths of the 40 taps in 0.01 ps, the ring stages and the trim DAC codes. -/
structure LockMeasure where
  bias : Nat
  widths : List Nat
  slowStage : Nat
  fastStage : Nat
  dacs : List Nat
  deriving DecidableEq, Repr

/-- What calibration measures over a sample set besides the histogram (R112, R113, R119, R120): the span S in 0.01 ps, the
slow-ring period in 0.01 ps, the mean delay D_s in 1/1,024 fine LSB, the periods of the four lengths of the slow and of the fast ring in
0.01 ps, whether every bin lies within bin_trig after the taps and stages that R120 chooses, and codes of the trim DACs that bring
every quantity of R119 within its trigger where no choice of taps and stages does, none when there are none. -/
structure SetMeasure where
  span : Nat
  slowPeriod : Nat
  meanDelay : Nat
  slow : List Nat
  fast : List Nat
  binsOk : Bool
  dacs : Option (List Nat)
  deriving DecidableEq, Repr

/-- The result of one self-test (R470): test bit, the elements that failed, each as its fault source and the wire or block that R418 names within it,
else 0 (R431, R442), elements tested, run. -/
structure TestResult where
  bit : Nat
  failed : List (Nat × Nat)
  tested : Nat
  run : Bool
  deriving DecidableEq, Repr

end Sys2Proof
end

