-- ==== Sys2Proof/Syntax.lean ====
section
/-! DEFINITION. The commands of the block: one constructor per row of spec/opcode_table.json. A constructor with a
`Cmd` is an Obsan command; the others are frames, blocks, edges, expiries and upsets. Lanes are 0 to 1,023, comparators
`input × 2 + comparator`, interpolators the number of R32 (0 to 511) or 512 + lane, logical tiles `die × 64 + tile`,
fault sources the numbers of R418, times `t` tick counts since reset ended (1/100 fine LSB where said). -/

namespace Sys2Proof

/-- The commands. -/
inductive Instr where
  | nop (c : Cmd)
  | identify (c : Cmd)
  | status (c : Cmd)
  | partitionClaim (c : Cmd)
  | partitionRelease (c : Cmd)
  | partitionBind (c : Cmd)
  | partitionUnbind (c : Cmd)
  | readObjLive (c : Cmd)
  | readObjStaged (c : Cmd)
  | writeStaged (c : Cmd)
  | writeLive (c : Cmd)
  | cinch (c : Cmd)
  | discardStaged (c : Cmd)
  | refSelectAuto (c : Cmd)
  | refSelectForced (c : Cmd)
  | refSelectHoldover (c : Cmd)
  | refStatus (c : Cmd)
  | timeSet (c : Cmd)
  | ppsAlignMeasure (c : Cmd)
  | ppsAlignStep (c : Cmd)
  | calStartSweep (c : Cmd)
  | calStartRecover (c : Cmd)
  | calStatus (c : Cmd)
  | calLock (c : Cmd)
  | calLockRelease (c : Cmd)
  | calTableReadInForce (c : Cmd)
  | calTableReadWaiting (c : Cmd)
  | laneUp (c : Cmd)
  | laneDown (c : Cmd)
  | laneRetrain (c : Cmd)
  | laneGroupConfig (c : Cmd)
  | laneGroupWidth (c : Cmd)
  | laneTestStart (c : Cmd)
  | laneTestStop (c : Cmd)
  | laneTestRead (c : Cmd)
  | laneRetire (c : Cmd)
  | partnerRead (c : Cmd)
  | partnerWrite (c : Cmd)
  | partnerTxnStatus (c : Cmd)
  | trigArm (c : Cmd)
  | trigDisarm (c : Cmd)
  | trigForce (c : Cmd)
  | segRead (c : Cmd)
  | segRelease (c : Cmd)
  | segReleaseAll (c : Cmd)
  | statsGateStart (c : Cmd)
  | statsGateStop (c : Cmd)
  | statsReadLast (c : Cmd)
  | statsReadRunning (c : Cmd)
  | queueFlush (c : Cmd)
  | queueStatusIngress (c : Cmd)
  | queueStatusHost (c : Cmd)
  | queueStatusAnchor (c : Cmd)
  | faultRead (c : Cmd)
  | faultClear (c : Cmd)
  | faultHistory (c : Cmd)
  | awl (c : Cmd)
  | powerDomainOn (c : Cmd)
  | powerDomainOff (c : Cmd)
  | tileRetire (c : Cmd)
  | selftest (c : Cmd)
  | ergClear (c : Cmd)
  | fwUpdateBegin (c : Cmd)
  | fwUpdateData (c : Cmd)
  | fwUpdateEnd (c : Cmd)
  | laneStatusClr (c : Cmd) (lane : Nat)
  | laneTimingClr (c : Cmd) (lane : Nat)
  | precisionStatusClr (c : Cmd) (comparator : Nat)
  | chanStatusClr (c : Cmd) (channel : Nat)
  | filterStatusClr (c : Cmd) (channel : Nat)
  | groupMergeClr (c : Cmd) (lane : Nat)
  | tileMergeClr (c : Cmd) (tile : Nat)
  | tileHistoryClr (c : Cmd) (tile : Nat)
  | trigMissedClr (c : Cmd) (idx : Nat)
  | segStatusClr (c : Cmd) (partition : Nat)
  | queueIngressClr (c : Cmd) (lane : Nat)
  | queueIngressFlagClear (c : Cmd) (lane : Nat) (flags : Word)
  | queueHostClr (c : Cmd) (queue : Nat)
  | queueHostFlagClear (c : Cmd) (queue : Nat) (flags : Word)
  | queueAnchorClr (c : Cmd) (die : Nat)
  | partCountersClr (c : Cmd) (partition : Nat)
  | faultsrcGlobalClr (c : Cmd)
  | faultsrcSourceClr (c : Cmd) (source : Nat)
  | faultNSw (c : Cmd) (hold : Bool)
  | powerStatusClr (c : Cmd) (domain : Nat)
  | commandFrameReceive (lane : Nat) (f : Frame)
  | commandTake (lane : Option Nat) (t : Nat)
  | hostFrameReceive (lane : Nat) (f : Frame)
  | smpWriteTransfer (words : List Word) (crc : Option Word)
  | smpReadTransfer (complete : Bool)
  | lockstepMismatch (partition : Nat)
  | engineResyncComplete
  | cinchGo (t : Nat)
  | cinchCancel
  | cinchBoundary
  | writeLiveAdopt (die obj sel idx : Nat)
  | refEdgeLoss (ref t : Nat)
  | refFreqMeasure (ref : Nat) (dev word : Int) (t : Nat)
  | refMonitorSecond (warm : Bool) (t : Nat)
  | acquireLock (phase freq : Int) (t : Nat)
  | switchBuildOut (phase : Int)
  | switchComplete
  | waitToRestoreExpiry (ref : Nat)
  | coarseWrap
  | ppsEdge (falling : Bool) (t : Nat)
  | ppsAlignTimeout
  | timeSetBoundary
  | caravanBoundary (upset : List (Nat × Nat))
  | boundaryNotice (tile : Nat)
  | comparatorTransition (comparator : Nat) (rising : Bool) (edge : Nat)
  | overRateEnd (comparator : Nat)
  | overRateWindowEnd (comparator : Nat)
  | stampRelease (comparator : Nat)
  | conversionComplete (comparator slot code : Nat) (ok : Bool)
  | overdriveOnset (input t : Nat)
  | overdriveEnd (input t : Nat)
  | disturbedEnd (group : Nat)
  | totTimeout (comparator : Nat)
  | intervalTimeout (input : Nat)
  | randomSourceSample (interp code : Nat) (ok : Bool)
  | sampleSetComplete (interp : Nat) (m : SetMeasure)
  | tableInstall (interp : Nat)
  | lockSettled (interp : Nat) (m : LockMeasure)
  | lockTimeout (interp : Nat)
  | asideAbandon (interp : Nat)
  | asideReturn (interp : Nat)
  | lrefLoss (die : Nat)
  | lrefPresent (die : Nat)
  | signalDetect (lane : Nat)
  | signalLoss (lane : Nat)
  | capabilityBlockReceive (lane : Nat) (w : Word) (ppm : Int)
  | capExchTimeout (lane : Nat)
  | trainingNotReady (lane : Nat)
  | prbsWindowEnd (lane devErrors partnerErrors : Nat)
  | alignmentMarkerReceive (lane member count skew t : Nat)
  | alignmentMarkerSend (group : Nat)
  | alignTimeout (group : Nat)
  | blockReceive (lane : Nat) (headerOk : Bool) (filler : Bool) (payload : Option Word)
  | codewordDecode (lane errors : Nat) (aligned : Bool) (t : Nat)
  | linkRequestReceive (lane : Nat) (w : Word)
  | linkResponseReceive (lane : Nat) (w : Word)
  | linkRequestTimeout (group : Nat)
  | checkerLock (lane : Nat) (symbols : List Nat)
  | checkerLockLoss (lane bits errors : Nat)
  | errorInjection (lane : Nat)
  | beaconSend (lane edge code : Nat) (ok : Bool)
  | echoReceive (lane : Nat) (w : Word) (edge code : Nat) (ok : Bool)
  | echoFollowUpReceive (lane : Nat) (w : Word)
  | modelFitComplete (lane : Nat)
  | acquireTimeout (lane : Nat)
  | suspectTimeout (lane : Nat)
  | halfWrapLimit (lane : Nat)
  | hitFrameReceive (group : Nat) (f : Frame) (spillWaiting : Bool) (t : Nat)
  | hitConversion (group corrected : Nat) (badWord : Bool)
  | txnResponseReceive (group : Nat) (f : Frame)
  | txnTimeout (txn : Nat)
  | retryWaitTimeout (txn : Nat)
  | doneTimeout (txn : Nat)
  | quarantineTimeout (txn : Nat)
  | pauseRepeat (group : Nat)
  | tileHitArrival (tile src : Nat)
  | frameCommit (group : Nat)
  | commitToken (tile src : Nat) (escape : Bool)
  | frameRewind (group idx source : Nat)
  | caravanClose (tile : Nat) (ergBusy : Bool)
  | hostCaravanClose (queue : Nat)
  | shedLevelChange (tile : Nat)
  | linkShed (laneDie coreDie : Nat) (atLimit : Bool)
  | tileRemapAccept (tile : Nat)
  | tileRemapBoundary (tile : Nat)
  | heldRetirementRemap (tile : Nat)
  | gateStart (partition profile : Nat)
  | gateComplete (tile partition profile : Nat)
  | trigInEdge (pin t held : Nat) (high : Bool)
  | armBoundary (partition d : Nat)
  | disarmBoundary (partition d : Nat)
  | candidateForward (die partition d : Nat)
  | candidateJudge (partition d : Nat)
  | segmentBuild (desc : Nat)
  | oasisBufferGrant (desc tile : Nat)
  | oasisWaitTimeout (desc tile : Nat)
  | holdTimeout (desc : Nat)
  | hostRecordWrite (queue : Nat) (spillWaiting : Bool)
  | spillWrite (kind queue : Nat)
  | hostLaneSend (lane corrected : Nat) (badWord : Bool)
  | idleRecord (lane : Nat)
  | flushEffect (queue : Nat)
  | faultRaise (idx : Nat)
  | escalationExpiry (source : Nat)
  | causeEnd (source : Nat)
  | faultNPulseEnd
  | powerCycleComplete (domain : Nat)
  | retirementRecordWrite
  | scrubRead (place idx : Nat) (uncorrectable : Bool)
  | saddlePacketFail (rxDie txDie wire : Nat)
  | voteDisagreement (die : Nat)
  | supplyMonitor (die : Nat) (outside : Bool)
  | thermalShutdown (die : Nat)
  | thermalRecovery (die : Nat)
  | domainOffComplete (domain : Nat)
  | domainOnComplete (domain : Nat)
  | resetAssert (lowTicks : Nat)
  | pwrGoodFall (lowTicks : Nat)
  | resetRelease
  | startupPhase (railsOk : Nat)
  | imageReadyTimeout
  | directoryRewrite
  | fwSessionTimeout
  | testLogicReset
  | extest (cells : List Nat)
  | idcode
  | samplePreload (cells pins : List Nat)
  | clamp
  | highz
  | extestPulse
  | extestTrain
  | bypass
  | receiversReady (lane : Nat)
  | calSweepTimeout (partition : Nat)
  | selftestComplete (results : List TestResult)
  | ergClearComplete
  | fwImageWritten (ok : Bool)
  | cinchCheckEnd (t : Nat)
  deriving DecidableEq, Repr

end Sys2Proof
end

