-- ==== Sys2Proof/Machine/Bits.lean ====
section
/-! DEFINITION. Bit fields of words, signed readings, rounding, and the CRCs of R146 and R174. -/

namespace Sys2Proof.Machine

/-- The bits `hi` down to `lo` as a mask. -/
def fieldMask (hi lo : Nat) : Word := (BitVec.allOnes 64 >>> (63 - (hi - lo))) <<< lo

/-- The number held in bits `hi` down to `lo`. -/
def bits (w : Word) (hi lo : Nat) : Nat := ((w &&& fieldMask hi lo) >>> lo).toNat

/-- `w` with bits `hi` down to `lo` holding `v`, cut to the field's width. -/
def setBits (w : Word) (hi lo v : Nat) : Word :=
  (w &&& ~~~(fieldMask hi lo)) ||| ((BitVec.ofNat 64 v <<< lo) &&& fieldMask hi lo)

/-- One bit. -/
def bit (w : Word) (i : Nat) : Bool := w.getLsbD i

/-- `new` under `mask`, `old` elsewhere (R389). -/
def merge (old new mask : Word) : Word := (old &&& ~~~mask) ||| (new &&& mask)

/-- The number of a Bool field. -/
def b2n (b : Bool) : Nat := if b then 1 else 0

/-- The two's complement reading of a number of `w` bits. -/
def toSigned (w v : Nat) : Int := if v < 2 ^ (w - 1) then (v : Int) else (v : Int) - (2 : Int) ^ w

/-- The `w`-bit two's complement of an integer. -/
def ofSigned (w : Nat) (i : Int) : Nat := (i % (2 : Int) ^ w).toNat

/-- The `w`-bit two's complement of an integer held at the ends of its range. -/
def satSigned (w : Nat) (i : Int) : Nat :=
  ofSigned w (max (-(2 : Int) ^ (w - 1)) (min i ((2 : Int) ^ (w - 1) - 1)))

/-- `num / den` rounded to the nearest integer, halves towards +∞. -/
def roundHalfUp (num : Int) (den : Nat) : Int := (2 * num + (den : Int)) / (2 * (den : Int))

/-- The least `q` with `q × den ≥ num`. -/
def ceilDiv (num den : Nat) : Nat := (num + den - 1) / den

/-- One bit of a CRC of width `w` and polynomial `poly`, most significant bit first. -/
def crcBit (w poly crc : Nat) (b : Bool) : Nat :=
  let top := Nat.testBit crc (w - 1)
  let sh := (crc * 2) % 2 ^ w
  if top = b then sh else Nat.xor sh poly

/-- A CRC over the low `n` bits of `v`, bit `n - 1` first. -/
def crcBits (w poly : Nat) : Nat → Nat → Nat → Nat
  | 0, _, crc => crc
  | n + 1, v, crc => crcBits w poly n v (crcBit w poly crc (Nat.testBit v n))

/-- The CRC-32 of R174 running over a word. -/
def crc32Word (crc : Nat) (w : Word) : Nat := crcBits 32 0x04C11DB7 64 w.toNat crc

/-- The CRC-32 of R174 over words. -/
def crc32 (ws : List Word) : Nat := Nat.xor (ws.foldl crc32Word 0xFFFFFFFF) 0xFFFFFFFF

/-- Bits [55:0] of a frame start: seq, kind and bits [35:0] (R174). -/
def frameStart (seq kind low : Nat) : Nat := seq % 65536 * 2 ^ 40 + kind % 16 * 2 ^ 36 + low % 2 ^ 36

/-- The CRC of a frame: over its frame start content and its data words (R174). -/
def frameCrc (start : Nat) (ws : List Word) : Nat :=
  Nat.xor (ws.foldl crc32Word (crcBits 32 0x04C11DB7 56 start 0xFFFFFFFF)) 0xFFFFFFFF

/-- Bits [55:0] of the frame end of a frame whose last data block is whole (R174). -/
def frameEnd (start : Nat) (ws : List Word) : Nat := start / 2 ^ 40 * 2 ^ 40 + 8 * 2 ^ 32 + frameCrc start ws

/-- The CRC-16 of R146 over bits [63:16] of a capability block. -/
def crc16 (w : Word) : Nat := crcBits 16 0x1021 48 (bits w 63 16) 0xFFFF

/-- The whole part of the square root, by `n` halvings of the range. -/
def sqrtFuel : Nat → Nat → Nat → Nat
  | 0, _, r => r
  | n + 1, x, r => if (r + 2 ^ n) * (r + 2 ^ n) ≤ x then sqrtFuel n x (r + 2 ^ n) else sqrtFuel n x r

/-- The whole part of the square root of a number below 2^128. -/
def isqrt (x : Nat) : Nat := sqrtFuel 64 x 0

/-- The square root rounded to the nearest integer. -/
def sqrtRound (x : Nat) : Nat :=
  let r := isqrt x
  if r * r + r < x then r + 1 else r

/-- The whole part of the binary logarithm of a positive number, 0 for 0. -/
def ilog2 (x : Nat) : Nat := Nat.log2 x

/-- A word from a list of (high bit, low bit, value), every other bit 0. -/
def pack (fs : List (Nat × Nat × Nat)) : Word :=
  fs.foldl (fun w f => setBits w f.1 f.2.1 f.2.2) 0#64

end Sys2Proof.Machine
end

