-- ==== Sys2Proof/Machine/Fields.lean ====
section
/-! DEFINITION. The field maps of the register words: one constant per field of the tables of spec/, the access and range
of each field (R390), and the reset word of each word. Objects 0x20 and 0x21 stand for the words of REF_STATUS (R68)
and CAL_STATUS (R128), 0x22 for IDENTIFY (R8), which have no object number of R410. -/

namespace Sys2Proof.Machine

/-- A field of a register word: object and selector (R410), and its bits. -/
structure Field where
  obj : Nat
  sel : Nat
  hi : Nat
  lo : Nat
  deriving DecidableEq, Repr

/-- How a field is accessed: read only, staged, live, or write 1 to clear. -/
inductive Access where
  | ro | st | rw | w1c
  deriving DecidableEq, Repr

/-- A field with its access and its range of values. -/
structure Spec where
  hi : Nat
  lo : Nat
  acc : Access
  min : Nat
  max : Nat
  deriving DecidableEq, Repr

namespace F

/-! IDENTIFY reply, word 0 (R8) -/
def ident0_part_number : Field := ⟨34, 0, 63, 48⟩
def ident0_anchor_step : Field := ⟨34, 0, 47, 40⟩
def ident0_lane_step : Field := ⟨34, 0, 39, 32⟩
def ident0_core_step : Field := ⟨34, 0, 31, 24⟩
def ident0_package_rev : Field := ⟨34, 0, 23, 20⟩
def ident0_erg_stacks : Field := ⟨34, 0, 19, 16⟩
def ident0_host_lanes : Field := ⟨34, 0, 8, 0⟩
/-! IDENTIFY reply, word 1 (R8) -/
def ident1_fw_major : Field := ⟨34, 1, 63, 56⟩
def ident1_fw_minor : Field := ⟨34, 1, 55, 48⟩
def ident1_fw_patch : Field := ⟨34, 1, 47, 40⟩
def ident1_fw_image : Field := ⟨34, 1, 39, 32⟩
def ident1_serial : Field := ⟨34, 1, 31, 0⟩
/-! TILE object, map (R24) -/
def tileMap_state : Field := ⟨4, 0, 15, 14⟩
def tileMap_phys : Field := ⟨4, 0, 13, 9⟩
def tileMap_die : Field := ⟨4, 0, 8, 6⟩
def tileMap_logical : Field := ⟨4, 0, 5, 0⟩
/-! REFSEL word 0 (R66) -/
def refsel0_wtr_s : Field := ⟨9, 0, 55, 46⟩
def refsel0_revert : Field := ⟨9, 0, 45, 45⟩
def refsel0_mode : Field := ⟨9, 0, 44, 43⟩
def refsel0_forced : Field := ⟨9, 0, 42, 41⟩
def refsel0_prio_a : Field := ⟨9, 0, 40, 39⟩
def refsel0_prio_b : Field := ⟨9, 0, 38, 37⟩
def refsel0_prio_c : Field := ⟨9, 0, 36, 35⟩
def refsel0_ref_a_freq : Field := ⟨9, 0, 34, 33⟩
def refsel0_ref_b_freq : Field := ⟨9, 0, 32, 31⟩
def refsel0_refc_en : Field := ⟨9, 0, 30, 30⟩
def refsel0_refc_lane : Field := ⟨9, 0, 29, 20⟩
def refsel0_loop_bw : Field := ⟨9, 0, 19, 18⟩
def refsel0_warm_pin_en : Field := ⟨9, 0, 17, 17⟩
def refsel0_xmeas_en : Field := ⟨9, 0, 16, 16⟩
def refsel0_ens_en : Field := ⟨9, 0, 15, 15⟩
def refsel0_pps_en : Field := ⟨9, 0, 14, 14⟩
def refsel0_pps_pol : Field := ⟨9, 0, 13, 13⟩
/-! REFSEL word 1 (R66) -/
def refsel1_ens_min : Field := ⟨9, 1, 63, 56⟩
def refsel1_warm_persist : Field := ⟨9, 1, 55, 48⟩
def refsel1_warm_limit : Field := ⟨9, 1, 47, 32⟩
def refsel1_qual_s : Field := ⟨9, 1, 31, 24⟩
def refsel1_persist : Field := ⟨9, 1, 23, 16⟩
def refsel1_drift_limit : Field := ⟨9, 1, 15, 0⟩
/-! REFSEL word 2 (R66) -/
def refsel2_hold_avg_s : Field := ⟨9, 2, 23, 16⟩
def refsel2_range_ppm : Field := ⟨9, 2, 9, 0⟩
/-! REF_STATUS word 0 (R68) -/
def refst0_switch_count : Field := ⟨32, 0, 63, 48⟩
def refst0_wtr_left : Field := ⟨32, 0, 47, 38⟩
def refst0_wtr_ref : Field := ⟨32, 0, 33, 32⟩
def refst0_holdover_s : Field := ⟨32, 0, 31, 16⟩
def refst0_provisional : Field := ⟨32, 0, 10, 10⟩
def refst0_ambiguous : Field := ⟨32, 0, 9, 9⟩
def refst0_target : Field := ⟨32, 0, 7, 6⟩
def refst0_selected : Field := ⟨32, 0, 5, 4⟩
def refst0_sel_state : Field := ⟨32, 0, 2, 0⟩
/-! REF_STATUS per-reference word, first (R68) -/
def refy_y_tb : Field := ⟨32, 1, 63, 32⟩
def refy_y_dev : Field := ⟨32, 1, 31, 0⟩
/-! REF_STATUS per-reference word, second (R68) -/
def refs_state_s : Field := ⟨32, 2, 63, 48⟩
def refs_depart_s : Field := ⟨32, 2, 47, 32⟩
def refs_voter : Field := ⟨32, 2, 7, 7⟩
def refs_warm_pin : Field := ⟨32, 2, 6, 6⟩
def refs_state : Field := ⟨32, 2, 2, 0⟩
/-! REF_STATUS word 7 (R68) -/
def refpps_pps_count : Field := ⟨32, 7, 63, 48⟩
def refpps_ens_lanes : Field := ⟨32, 7, 47, 38⟩
def refpps_ens_voter : Field := ⟨32, 7, 37, 37⟩
def refpps_pps_valid : Field := ⟨32, 7, 36, 36⟩
def refpps_pps_offset : Field := ⟨32, 7, 31, 0⟩
/-! REF_STATUS word 8 (R68) -/
def refens_y_ens : Field := ⟨32, 8, 63, 32⟩
def refens_ens_spread : Field := ⟨32, 8, 31, 0⟩
/-! CHAN precision input (R105) -/
def pin_thr_hi : Field := ⟨3, 16, 63, 52⟩
def pin_thr_lo : Field := ⟨3, 16, 51, 40⟩
def pin_hyst : Field := ⟨3, 16, 39, 37⟩
def pin_term : Field := ⟨3, 16, 36, 36⟩
def pin_ival_en : Field := ⟨3, 16, 35, 35⟩
def pin_ival_stop_in : Field := ⟨3, 16, 34, 29⟩
def pin_ival_stop_cmp : Field := ⟨3, 16, 28, 28⟩
def pin_ival_start_cmp : Field := ⟨3, 16, 27, 27⟩
def pin_ival_timeout : Field := ⟨3, 16, 26, 11⟩
/-! CHAN precision comparator (R105) -/
def pcmp_en : Field := ⟨3, 17, 63, 63⟩
def pcmp_edge_fall : Field := ⟨3, 17, 62, 62⟩
def pcmp_tot_en : Field := ⟨3, 17, 61, 61⟩
def pcmp_pi_offset : Field := ⟨3, 17, 60, 45⟩
def pcmp_pool_live : Field := ⟨3, 17, 44, 41⟩
def pcmp_chan_id : Field := ⟨3, 17, 22, 0⟩
/-! CHAN precision status word A (R105) -/
def psta_coarse_only : Field := ⟨3, 19, 63, 32⟩
def psta_merged : Field := ⟨3, 19, 31, 0⟩
/-! CHAN precision status word B (R105) -/
def pstb_over_rate_windows : Field := ⟨3, 21, 63, 48⟩
def pstb_overdrive_events : Field := ⟨3, 21, 47, 32⟩
def pstb_ival_timeouts : Field := ⟨3, 21, 31, 16⟩
def pstb_late_trail : Field := ⟨3, 21, 15, 4⟩
def pstb_disturbed_now : Field := ⟨3, 21, 3, 3⟩
def pstb_overdrive_now : Field := ⟨3, 21, 2, 2⟩
def pstb_over_rate_now : Field := ⟨3, 21, 1, 1⟩
def pstb_clr : Field := ⟨3, 21, 0, 0⟩
/-! CALSET global (R126) -/
def calg_samples_log2 : Field := ⟨10, 0, 63, 59⟩
def calg_min_rate : Field := ⟨10, 0, 58, 48⟩
def calg_max_step : Field := ⟨10, 0, 47, 40⟩
def calg_reject_limit : Field := ⟨10, 0, 39, 36⟩
def calg_aside_en : Field := ⟨10, 0, 35, 35⟩
def calg_aside_rate : Field := ⟨10, 0, 34, 26⟩
def calg_chi2_limit : Field := ⟨10, 0, 25, 17⟩
def calg_span_trig : Field := ⟨10, 0, 16, 12⟩
def calg_bin_trig : Field := ⟨10, 0, 11, 6⟩
/-! CALSET comparator (R126) -/
def calc_live_mode : Field := ⟨10, 1, 63, 62⟩
def calc_locked : Field := ⟨10, 1, 61, 61⟩
/-! Calibration status word A (R128) -/
def cala_state : Field := ⟨33, 0, 63, 61⟩
def cala_q : Field := ⟨33, 0, 60, 53⟩
def cala_dnl_rms : Field := ⟨33, 0, 52, 45⟩
def cala_inl_pk : Field := ⟨33, 0, 44, 37⟩
def cala_span_dev : Field := ⟨33, 0, 36, 25⟩
def cala_age_s : Field := ⟨33, 0, 24, 9⟩
def cala_live_rejected : Field := ⟨33, 0, 8, 8⟩
def cala_dac_used : Field := ⟨33, 0, 7, 7⟩
def cala_locked : Field := ⟨33, 0, 6, 6⟩
def cala_reject_run : Field := ⟨33, 0, 5, 3⟩
def cala_last_result : Field := ⟨33, 0, 2, 0⟩
/-! Calibration status word B (R128) -/
def calb_sets_accepted : Field := ⟨33, 1, 63, 32⟩
def calb_sets_rejected : Field := ⟨33, 1, 31, 16⟩
def calb_spares_used : Field := ⟨33, 1, 15, 12⟩
def calb_slow_stage : Field := ⟨33, 1, 11, 10⟩
def calb_fast_stage : Field := ⟨33, 1, 9, 8⟩
def calb_lock_count : Field := ⟨33, 1, 7, 4⟩
def calb_aside_count : Field := ⟨33, 1, 3, 0⟩
/-! LANE configuration (R169) -/
def lane_en : Field := ⟨1, 0, 63, 63⟩
def lane_role : Field := ⟨1, 0, 62, 62⟩
def lane_auto_retrain : Field := ⟨1, 0, 61, 61⟩
def lane_uncorr_limit : Field := ⟨1, 0, 60, 53⟩
def lane_retrain_limit : Field := ⟨1, 0, 52, 49⟩
def lane_ppm_limit : Field := ⟨1, 0, 48, 41⟩
/-! LANE status word A (R169) -/
def lsa_state : Field := ⟨1, 1, 63, 60⟩
def lsa_rate : Field := ⟨1, 1, 59, 57⟩
def lsa_fec : Field := ⟨1, 1, 56, 55⟩
def lsa_width : Field := ⟨1, 1, 54, 53⟩
def lsa_fmt_p64 : Field := ⟨1, 1, 52, 52⟩
def lsa_echo : Field := ⟨1, 1, 51, 51⟩
def lsa_dual_thr : Field := ⟨1, 1, 50, 50⟩
def lsa_partner_role : Field := ⟨1, 1, 49, 48⟩
def lsa_partner_id : Field := ⟨1, 1, 47, 32⟩
def lsa_partner_member : Field := ⟨1, 1, 31, 29⟩
def lsa_ppm_offset : Field := ⟨1, 1, 28, 19⟩
def lsa_crossed_run : Field := ⟨1, 1, 18, 16⟩
def lsa_member_mismatch : Field := ⟨1, 1, 15, 15⟩
def lsa_role_mismatch : Field := ⟨1, 1, 14, 14⟩
def lsa_fec_sat : Field := ⟨1, 1, 13, 13⟩
/-! LANE status word B (R169) -/
def lsb_fec_corrected : Field := ⟨1, 2, 63, 32⟩
def lsb_fec_uncorr : Field := ⟨1, 2, 31, 16⟩
def lsb_retrains : Field := ⟨1, 2, 15, 8⟩
def lsb_lock_losses : Field := ⟨1, 2, 7, 0⟩
/-! LANE status word C (R169) -/
def lsc_elastic_overflows : Field := ⟨1, 3, 63, 48⟩
def lsc_cap_fails : Field := ⟨1, 3, 47, 32⟩
def lsc_train_fails : Field := ⟨1, 3, 31, 24⟩
def lsc_crossings : Field := ⟨1, 3, 23, 16⟩
def lsc_cmd_drops : Field := ⟨1, 3, 15, 8⟩
def lsc_clr : Field := ⟨1, 3, 0, 0⟩
/-! LANE test word (R169) -/
def ltest_tx_pattern : Field := ⟨1, 4, 63, 62⟩
def ltest_rx_pattern : Field := ⟨1, 4, 61, 60⟩
def ltest_test_rate : Field := ⟨1, 4, 59, 57⟩
def ltest_loopback : Field := ⟨1, 4, 56, 56⟩
def ltest_inject : Field := ⟨1, 4, 55, 53⟩
def ltest_burst_len : Field := ⟨1, 4, 52, 49⟩
def ltest_period_log2 : Field := ⟨1, 4, 48, 43⟩
/-! LANE test status word A (R169) -/
def lta_bit_errors : Field := ⟨1, 5, 63, 16⟩
def lta_locked : Field := ⟨1, 5, 15, 15⟩
def lta_sync_losses : Field := ⟨1, 5, 14, 0⟩
/-! LANE test status word B (R169) -/
def ltb_bits_checked : Field := ⟨1, 6, 63, 16⟩
def ltb_injections : Field := ⟨1, 6, 15, 0⟩
/-! GROUP word (R170) -/
def grp_width_cfg : Field := ⟨2, 0, 63, 62⟩
def grp_width_lim : Field := ⟨2, 0, 61, 60⟩
def grp_owner : Field := ⟨2, 0, 59, 52⟩
def grp_run_first : Field := ⟨2, 0, 51, 42⟩
def grp_aligned : Field := ⟨2, 0, 41, 41⟩
def grp_skew_max : Field := ⟨2, 0, 40, 33⟩
def grp_align_losses : Field := ⟨2, 0, 32, 25⟩
def grp_member : Field := ⟨2, 0, 24, 22⟩
def grp_run_valid : Field := ⟨2, 0, 21, 21⟩
/-! LANE timing configuration (R199) -/
def ltc_asym : Field := ⟨1, 7, 63, 40⟩
def ltc_fit_log2 : Field := ⟨1, 7, 39, 35⟩
def ltc_step_limit : Field := ⟨1, 7, 34, 24⟩
def ltc_distrust_limit : Field := ⟨1, 7, 23, 16⟩
def ltc_txn_timeout : Field := ⟨1, 7, 15, 8⟩
def ltc_mk_guard : Field := ⟨1, 7, 7, 4⟩
def ltc_iso_mode : Field := ⟨1, 7, 3, 3⟩
def ltc_timing_en : Field := ⟨1, 7, 2, 2⟩
/-! LANE timing status word A (R199) -/
def ltsa_offset : Field := ⟨1, 8, 63, 0⟩
/-! LANE timing status word B (R199) -/
def ltsb_rate : Field := ⟨1, 9, 63, 32⟩
def ltsb_resid_rms : Field := ⟨1, 9, 31, 16⟩
def ltsb_mstate : Field := ⟨1, 9, 15, 13⟩
def ltsb_fill_log2 : Field := ⟨1, 9, 12, 8⟩
def ltsb_isolated : Field := ⟨1, 9, 7, 7⟩
def ltsb_model_lane : Field := ⟨1, 9, 6, 6⟩
/-! LANE timing status word C (R199) -/
def ltsc_exch_lost : Field := ⟨1, 10, 63, 48⟩
def ltsc_outliers : Field := ⟨1, 10, 47, 32⟩
def ltsc_steps : Field := ⟨1, 10, 31, 24⟩
def ltsc_rtt : Field := ⟨1, 10, 23, 16⟩
def ltsc_mirage_lane : Field := ⟨1, 10, 15, 0⟩
/-! LANE timing status word D (R199) -/
def ltsd_frames_bad : Field := ⟨1, 11, 63, 48⟩
def ltsd_seq_gaps : Field := ⟨1, 11, 47, 32⟩
def ltsd_marker_back : Field := ⟨1, 11, 31, 24⟩
def ltsd_unsolicited : Field := ⟨1, 11, 23, 16⟩
def ltsd_late_echo : Field := ⟨1, 11, 15, 8⟩
def ltsd_clr : Field := ⟨1, 11, 0, 0⟩
/-! GROUP map (R238) -/
def gmap_valid : Field := ⟨2, 2, 63, 63⟩
def gmap_lch_base : Field := ⟨2, 2, 62, 45⟩
def gmap_count : Field := ⟨2, 2, 44, 26⟩
def gmap_stride2 : Field := ⟨2, 2, 25, 25⟩
def gmap_chan_base : Field := ⟨2, 2, 22, 0⟩
/-! GROUP merge (R238) -/
def gmrg_stale_run : Field := ⟨2, 1, 63, 56⟩
def gmrg_wait_en : Field := ⟨2, 1, 55, 55⟩
def gmrg_waited : Field := ⟨2, 1, 54, 54⟩
def gmrg_stale : Field := ⟨2, 1, 53, 53⟩
def gmrg_late_caravans : Field := ⟨2, 1, 47, 32⟩
def gmrg_replay_lost : Field := ⟨2, 1, 31, 24⟩
def gmrg_replays : Field := ⟨2, 1, 23, 8⟩
def gmrg_clr : Field := ⟨2, 1, 0, 0⟩
/-! TILE merge configuration (R239) -/
def tmc_close_timeout : Field := ⟨4, 1, 63, 55⟩
def tmc_shed_hi : Field := ⟨4, 1, 54, 49⟩
def tmc_shed_lo : Field := ⟨4, 1, 48, 43⟩
/-! TILE merge status word A (R239) -/
def tma_wadi_hits : Field := ⟨4, 2, 63, 32⟩
def tma_mirage_hits : Field := ⟨4, 2, 31, 0⟩
/-! TILE merge status word B (R239) -/
def tmb_shed_monitor : Field := ⟨4, 3, 63, 32⟩
def tmb_shed_stats : Field := ⟨4, 3, 31, 0⟩
/-! TILE merge status word C (R239) -/
def tmcs_shed_protected : Field := ⟨4, 4, 63, 32⟩
def tmcs_remap_lost : Field := ⟨4, 4, 31, 0⟩
/-! TILE merge status word D (R239) -/
def tmd_late_closes : Field := ⟨4, 5, 63, 48⟩
def tmd_discards : Field := ⟨4, 5, 47, 32⟩
def tmd_open_caravans : Field := ⟨4, 5, 31, 24⟩
def tmd_shed_level : Field := ⟨4, 5, 23, 22⟩
def tmd_remap_pending : Field := ⟨4, 5, 21, 21⟩
def tmd_clr : Field := ⟨4, 5, 0, 0⟩
/-! CHAN channel word (R242) -/
def chan_mode : Field := ⟨3, 0, 63, 61⟩
def chan_part : Field := ⟨3, 0, 60, 53⟩
def chan_queue : Field := ⟨3, 0, 52, 47⟩
def chan_gate_prof : Field := ⟨3, 0, 46, 43⟩
def chan_phase_mode : Field := ⟨3, 0, 42, 41⟩
def chan_hist : Field := ⟨3, 0, 40, 39⟩
def chan_hist_prof : Field := ⟨3, 0, 38, 35⟩
def chan_phase_ref : Field := ⟨3, 0, 22, 0⟩
/-! CHAN channel status (R242) -/
def chst_hits : Field := ⟨3, 1, 63, 16⟩
def chst_hist_slot : Field := ⟨3, 1, 15, 15⟩
def chst_clr : Field := ⟨3, 1, 0, 0⟩
/-! STATS gate profile (R275) -/
def gprof_length : Field := ⟨8, 0, 63, 32⟩
/-! STATS gate status word A (R275) -/
def gsta_gate_no : Field := ⟨8, 1, 63, 32⟩
def gsta_gstate : Field := ⟨8, 1, 31, 30⟩
def gsta_continuous : Field := ⟨8, 1, 29, 29⟩
def gsta_gates_left : Field := ⟨8, 1, 28, 0⟩
/-! STATS gate status word B (R275) -/
def gstb_start : Field := ⟨8, 2, 53, 0⟩
/-! STATS histogram (R275) -/
def hprof_lo : Field := ⟨8, 3, 63, 23⟩
def hprof_w : Field := ⟨8, 3, 22, 17⟩
/-! CHAN filter word (R277) -/
def filt_mask : Field := ⟨3, 2, 63, 63⟩
def filt_tot_min : Field := ⟨3, 2, 62, 51⟩
def filt_tot_max : Field := ⟨3, 2, 50, 39⟩
def filt_decim : Field := ⟨3, 2, 38, 23⟩
def filt_cond : Field := ⟨3, 2, 22, 20⟩
def filt_cond_prof : Field := ⟨3, 2, 19, 16⟩
def filt_cond_trig : Field := ⟨3, 2, 15, 13⟩
def filt_seg_mask : Field := ⟨3, 2, 12, 5⟩
/-! CHAN filter status (R277) -/
def fist_filtered : Field := ⟨3, 3, 63, 32⟩
def fist_cond_fired : Field := ⟨3, 3, 31, 1⟩
def fist_clr : Field := ⟨3, 3, 0, 0⟩
/-! TRIG global (R311) -/
def trigg_tin_pol : Field := ⟨6, 0, 63, 56⟩
def trigg_tin_filter : Field := ⟨6, 0, 55, 52⟩
/-! TRIG definition (R311) -/
def trig_tin_mask : Field := ⟨6, 1, 63, 56⟩
def trig_cond_src : Field := ⟨6, 1, 55, 55⟩
def trig_force_src : Field := ⟨6, 1, 54, 54⟩
def trig_rearm : Field := ⟨6, 1, 53, 38⟩
/-! TRIG condition (R311) -/
def cprof_lo : Field := ⟨6, 2, 63, 36⟩
def cprof_hi : Field := ⟨6, 2, 35, 8⟩
def cprof_unit : Field := ⟨6, 2, 7, 6⟩
def cprof_sense : Field := ⟨6, 2, 5, 5⟩
/-! TRIG status word A (R311) -/
def trsa_trig_no : Field := ⟨6, 3, 63, 32⟩
def trsa_tstate : Field := ⟨6, 3, 31, 30⟩
def trsa_continuous : Field := ⟨6, 3, 29, 29⟩
def trsa_left : Field := ⟨6, 3, 28, 0⟩
/-! TRIG status word B (R311) -/
def trsb_missed : Field := ⟨6, 4, 63, 16⟩
def trsb_clr : Field := ⟨6, 4, 0, 0⟩
/-! SEG global (R311) -/
def segg_oasis_gib : Field := ⟨7, 0, 63, 58⟩
/-! SEG partition (R311) -/
def segp_buf_quota : Field := ⟨7, 1, 63, 41⟩
def segp_desc_quota : Field := ⟨7, 1, 40, 20⟩
/-! SEG definition (R311) -/
def segd_pre : Field := ⟨7, 2, 63, 52⟩
def segd_post : Field := ⟨7, 2, 51, 40⟩
def segd_queue : Field := ⟨7, 2, 39, 34⟩
def segd_hold : Field := ⟨7, 2, 33, 33⟩
def segd_hold_ms : Field := ⟨7, 2, 32, 17⟩
/-! SEG status word A (R311) -/
def sega_desc_used : Field := ⟨7, 3, 63, 43⟩
def sega_held : Field := ⟨7, 3, 42, 22⟩
def sega_clr : Field := ⟨7, 3, 0, 0⟩
/-! SEG status word B (R311) -/
def segb_oasis_empty : Field := ⟨7, 4, 63, 32⟩
def segb_bufs_used : Field := ⟨7, 4, 31, 0⟩
/-! TILE history configuration (R312) -/
def thc_erg_ext : Field := ⟨4, 6, 63, 56⟩
/-! TILE history status word A (R312) -/
def tha_earliest : Field := ⟨4, 7, 63, 0⟩
/-! TILE history status word B (R312) -/
def thb_spill_skips : Field := ⟨4, 8, 63, 32⟩
def thb_needed_drops : Field := ⟨4, 8, 31, 16⟩
def thb_clr : Field := ⟨4, 8, 0, 0⟩
/-! QUEUE global (R352) -/
def qg_thr_pol : Field := ⟨5, 0, 63, 32⟩
/-! QUEUE ingress configuration (R352) -/
def qic_erg_quota : Field := ⟨5, 1, 63, 54⟩
def qic_mode : Field := ⟨5, 1, 53, 53⟩
def qic_hi : Field := ⟨5, 1, 52, 43⟩
def qic_lo : Field := ⟨5, 1, 42, 33⟩
def qic_pause_en : Field := ⟨5, 1, 32, 32⟩
def qic_pause_hold : Field := ⟨5, 1, 31, 16⟩
def qic_thr_en : Field := ⟨5, 1, 15, 15⟩
def qic_thr_pin : Field := ⟨5, 1, 14, 10⟩
def qic_attn_en : Field := ⟨5, 1, 9, 9⟩
def qic_press_en : Field := ⟨5, 1, 8, 8⟩
/-! QUEUE ingress status word A (R352) -/
def qia_drops : Field := ⟨5, 2, 63, 16⟩
def qia_full : Field := ⟨5, 2, 15, 15⟩
def qia_overrun : Field := ⟨5, 2, 14, 14⟩
def qia_ovr_quota : Field := ⟨5, 2, 13, 13⟩
def qia_ovr_bw : Field := ⟨5, 2, 12, 12⟩
def qia_paused : Field := ⟨5, 2, 11, 11⟩
def qia_attn : Field := ⟨5, 2, 10, 10⟩
def qia_ecc_sat : Field := ⟨5, 2, 9, 9⟩
def qia_pressure : Field := ⟨5, 2, 8, 8⟩
def qia_uncommitted : Field := ⟨5, 2, 6, 0⟩
/-! QUEUE ingress status word B (R352) -/
def qib_ecc_corr : Field := ⟨5, 3, 63, 32⟩
def qib_overrun_hits : Field := ⟨5, 3, 31, 0⟩
/-! QUEUE ingress status word C (R352) -/
def qis_fill : Field := ⟨5, 4, 63, 36⟩
def qis_frames_ecc : Field := ⟨5, 4, 35, 20⟩
def qis_pauses : Field := ⟨5, 4, 19, 1⟩
def qis_clr : Field := ⟨5, 4, 0, 0⟩
/-! QUEUE host configuration (R352) -/
def qhc_en : Field := ⟨5, 5, 63, 63⟩
def qhc_lane : Field := ⟨5, 5, 62, 53⟩
def qhc_quota : Field := ⟨5, 5, 52, 41⟩
def qhc_mode : Field := ⟨5, 5, 40, 40⟩
def qhc_hi : Field := ⟨5, 5, 39, 30⟩
def qhc_lo : Field := ⟨5, 5, 29, 20⟩
def qhc_weight : Field := ⟨5, 5, 19, 16⟩
def qhc_thr_en : Field := ⟨5, 5, 15, 15⟩
def qhc_thr_pin : Field := ⟨5, 5, 14, 10⟩
def qhc_attn_en : Field := ⟨5, 5, 9, 9⟩
/-! QUEUE host status word A (R352) -/
def qha_fill : Field := ⟨5, 6, 63, 38⟩
def qha_full : Field := ⟨5, 6, 37, 37⟩
def qha_overrun : Field := ⟨5, 6, 36, 36⟩
def qha_paused : Field := ⟨5, 6, 35, 35⟩
def qha_attn : Field := ⟨5, 6, 34, 34⟩
def qha_ecc_sat : Field := ⟨5, 6, 33, 33⟩
def qha_ecc_corr : Field := ⟨5, 6, 31, 0⟩
/-! QUEUE host status word B (R352) -/
def qhb_rec_dropped : Field := ⟨5, 7, 63, 32⟩
def qhb_flushed : Field := ⟨5, 7, 31, 0⟩
/-! QUEUE host status word C (R352) -/
def qhs_caravans_lost : Field := ⟨5, 8, 63, 48⟩
def qhs_level_crossings : Field := ⟨5, 8, 47, 32⟩
def qhs_rec_ecc : Field := ⟨5, 8, 31, 16⟩
def qhs_clr : Field := ⟨5, 8, 0, 0⟩
/-! QUEUE anchor (R352) -/
def qan_prec_drops : Field := ⟨5, 9, 63, 16⟩
def qan_fill : Field := ⟨5, 9, 15, 3⟩
def qan_clr : Field := ⟨5, 9, 0, 0⟩
/-! PART word 0 (R382) -/
def part0_claimed : Field := ⟨12, 0, 63, 63⟩
def part0_claimant : Field := ⟨12, 0, 62, 31⟩
def part0_claim_lane : Field := ⟨12, 0, 30, 21⟩
def part0_busy_op : Field := ⟨12, 0, 20, 13⟩
def part0_busy_sys : Field := ⟨12, 0, 12, 12⟩
def part0_claim_smp : Field := ⟨12, 0, 11, 11⟩
/-! PART word 3 (R382) -/
def part3_accepted : Field := ⟨12, 3, 63, 32⟩
def part3_busy_replies : Field := ⟨12, 3, 31, 16⟩
def part3_not_owner : Field := ⟨12, 3, 15, 1⟩
def part3_clr : Field := ⟨12, 3, 0, 0⟩
/-! FAULTSRC global configuration (R442) -/
def fgc_pulse_us : Field := ⟨11, 64, 63, 56⟩
def fgc_window : Field := ⟨11, 64, 55, 44⟩
def fgc_slot_limit : Field := ⟨11, 64, 43, 39⟩
def fgc_fault_n_sw : Field := ⟨11, 64, 38, 38⟩
/-! FAULTSRC global status (R442) -/
def fgs_accepted_all : Field := ⟨11, 65, 63, 32⟩
def fgs_next_seq : Field := ⟨11, 65, 31, 13⟩
def fgs_hist_fill : Field := ⟨11, 65, 12, 7⟩
def fgs_fault_n : Field := ⟨11, 65, 6, 6⟩
def fgs_held : Field := ⟨11, 65, 5, 5⟩
def fgs_clr : Field := ⟨11, 65, 0, 0⟩
/-! FAULTSRC configuration (R442) -/
def fsc_sev : Field := ⟨11, 0, 63, 62⟩
def fsc_pulse_en : Field := ⟨11, 0, 61, 61⟩
def fsc_retire_en : Field := ⟨11, 0, 60, 60⟩
def fsc_esc_ms : Field := ⟨11, 0, 59, 48⟩
/-! FAULTSRC status word A (R442) -/
def fsa_state : Field := ⟨11, 1, 63, 62⟩
def fsa_sev_held : Field := ⟨11, 1, 61, 60⟩
def fsa_last_cause : Field := ⟨11, 1, 59, 52⟩
def fsa_counted : Field := ⟨11, 1, 51, 50⟩
def fsa_cause_now : Field := ⟨11, 1, 49, 49⟩
def fsa_retired : Field := ⟨11, 1, 48, 48⟩
def fsa_permanent : Field := ⟨11, 1, 47, 47⟩
def fsa_esc_left : Field := ⟨11, 1, 46, 35⟩
def fsa_accepted : Field := ⟨11, 1, 31, 0⟩
/-! FAULTSRC status word B (R442) -/
def fsb_last_time : Field := ⟨11, 2, 63, 0⟩
/-! FAULTSRC status word C (R442) -/
def fss_data_lost : Field := ⟨11, 3, 63, 32⟩
def fss_slots_retired : Field := ⟨11, 3, 31, 27⟩
def fss_clr : Field := ⟨11, 3, 0, 0⟩
/-! FAULTSRC retired-slot (R442) -/
def fsl_valid : Field := ⟨11, 4, 63, 63⟩
def fsl_slot : Field := ⟨11, 4, 13, 0⟩
/-! POWER domain word (R472) -/
def pwd_boot_on : Field := ⟨13, 0, 63, 63⟩
/-! POWER domain status (R472) -/
def pws_pstate : Field := ⟨13, 1, 63, 61⟩
def pws_rail_ok : Field := ⟨13, 1, 60, 60⟩
def pws_power : Field := ⟨13, 1, 59, 48⟩
def pws_temp : Field := ⟨13, 1, 47, 40⟩
def pws_switches : Field := ⟨13, 1, 39, 24⟩
def pws_cycles : Field := ⟨13, 1, 23, 16⟩
def pws_clr : Field := ⟨13, 1, 0, 0⟩
/-! POWER global status (R472) -/
def pwg_phase : Field := ⟨13, 2, 63, 60⟩
def pwg_fallback : Field := ⟨13, 2, 59, 59⟩
def pwg_slot_bad : Field := ⟨13, 2, 58, 57⟩
def pwg_rec_full : Field := ⟨13, 2, 56, 56⟩
def pwg_rec_entries : Field := ⟨13, 2, 55, 40⟩
def pwg_boot_ms : Field := ⟨13, 2, 39, 28⟩
def pwg_quad : Field := ⟨13, 2, 27, 27⟩
def pwg_avail_change : Field := ⟨13, 2, 26, 26⟩
def pwg_stacks : Field := ⟨13, 2, 25, 22⟩

end F

/-- The fields of the word ident0. -/
def spec_ident0 : List Spec := [⟨63, 48, .ro, 0, 65535⟩, ⟨47, 40, .ro, 0, 255⟩, ⟨39, 32, .ro, 0, 255⟩, ⟨31, 24, .ro, 0, 255⟩,
  ⟨23, 20, .ro, 0, 15⟩, ⟨19, 16, .ro, 0, 15⟩, ⟨8, 0, .ro, 0, 511⟩]
/-- The fields of the word ident1. -/
def spec_ident1 : List Spec := [⟨63, 56, .ro, 0, 255⟩, ⟨55, 48, .ro, 0, 255⟩, ⟨47, 40, .ro, 0, 255⟩, ⟨39, 32, .ro, 0, 255⟩,
  ⟨31, 0, .ro, 0, 4294967295⟩]
/-- The fields of the word tileMap. -/
def spec_tileMap : List Spec := [⟨15, 14, .ro, 0, 3⟩, ⟨13, 9, .ro, 0, 31⟩, ⟨8, 6, .ro, 0, 7⟩, ⟨5, 0, .ro, 0, 63⟩]
/-- The fields of the word refsel0. -/
def spec_refsel0 : List Spec := [⟨55, 46, .st, 0, 1023⟩, ⟨45, 45, .st, 0, 1⟩, ⟨44, 43, .ro, 0, 3⟩, ⟨42, 41, .ro, 0, 3⟩,
  ⟨40, 39, .st, 0, 3⟩, ⟨38, 37, .st, 0, 3⟩, ⟨36, 35, .st, 0, 3⟩, ⟨34, 33, .st, 0, 3⟩,
  ⟨32, 31, .st, 0, 3⟩, ⟨30, 30, .st, 0, 1⟩, ⟨29, 20, .st, 0, 1023⟩, ⟨19, 18, .st, 0, 3⟩,
  ⟨17, 17, .st, 0, 1⟩, ⟨16, 16, .st, 0, 1⟩, ⟨15, 15, .st, 0, 1⟩, ⟨14, 14, .st, 0, 1⟩,
  ⟨13, 13, .st, 0, 1⟩]
/-- The fields of the word refsel1. -/
def spec_refsel1 : List Spec := [⟨63, 56, .st, 1, 255⟩, ⟨55, 48, .st, 1, 255⟩, ⟨47, 32, .st, 100, 65535⟩, ⟨31, 24, .st, 1, 255⟩,
  ⟨23, 16, .st, 1, 255⟩, ⟨15, 0, .st, 100, 65535⟩]
/-- The fields of the word refsel2. -/
def spec_refsel2 : List Spec := [⟨23, 16, .st, 1, 255⟩, ⟨9, 0, .st, 1, 500⟩]
/-- The fields of the word refst0. -/
def spec_refst0 : List Spec := [⟨63, 48, .ro, 0, 65535⟩, ⟨47, 38, .ro, 0, 1023⟩, ⟨33, 32, .ro, 0, 3⟩, ⟨31, 16, .ro, 0, 65535⟩,
  ⟨10, 10, .ro, 0, 1⟩, ⟨9, 9, .ro, 0, 1⟩, ⟨7, 6, .ro, 0, 3⟩, ⟨5, 4, .ro, 0, 3⟩,
  ⟨2, 0, .ro, 0, 7⟩]
/-- The fields of the word refy. -/
def spec_refy : List Spec := [⟨63, 32, .ro, 0, 4294967295⟩, ⟨31, 0, .ro, 0, 4294967295⟩]
/-- The fields of the word refs. -/
def spec_refs : List Spec := [⟨63, 48, .ro, 0, 65535⟩, ⟨47, 32, .ro, 0, 65535⟩, ⟨7, 7, .ro, 0, 1⟩, ⟨6, 6, .ro, 0, 1⟩,
  ⟨2, 0, .ro, 0, 7⟩]
/-- The fields of the word refpps. -/
def spec_refpps : List Spec := [⟨63, 48, .ro, 0, 65535⟩, ⟨47, 38, .ro, 0, 1023⟩, ⟨37, 37, .ro, 0, 1⟩, ⟨36, 36, .ro, 0, 1⟩,
  ⟨31, 0, .ro, 0, 4294967295⟩]
/-- The fields of the word refens. -/
def spec_refens : List Spec := [⟨63, 32, .ro, 0, 4294967295⟩, ⟨31, 0, .ro, 0, 4294967295⟩]
/-- The fields of the word pin. -/
def spec_pin : List Spec := [⟨63, 52, .st, 0, 4095⟩, ⟨51, 40, .st, 0, 4095⟩, ⟨39, 37, .st, 0, 4⟩, ⟨36, 36, .st, 0, 1⟩,
  ⟨35, 35, .st, 0, 1⟩, ⟨34, 29, .st, 0, 63⟩, ⟨28, 28, .st, 0, 1⟩, ⟨27, 27, .st, 0, 1⟩,
  ⟨26, 11, .st, 2, 65535⟩]
/-- The fields of the word pcmp. -/
def spec_pcmp : List Spec := [⟨63, 63, .st, 0, 1⟩, ⟨62, 62, .st, 0, 1⟩, ⟨61, 61, .st, 0, 1⟩, ⟨60, 45, .st, 0, 65535⟩,
  ⟨44, 41, .ro, 0, 15⟩, ⟨22, 0, .st, 0, 5242879⟩]
/-- The fields of the word psta. -/
def spec_psta : List Spec := [⟨63, 32, .ro, 0, 4294967295⟩, ⟨31, 0, .ro, 0, 4294967295⟩]
/-- The fields of the word pstb. -/
def spec_pstb : List Spec := [⟨63, 48, .ro, 0, 65535⟩, ⟨47, 32, .ro, 0, 65535⟩, ⟨31, 16, .ro, 0, 65535⟩, ⟨15, 4, .ro, 0, 4095⟩,
  ⟨3, 3, .ro, 0, 1⟩, ⟨2, 2, .ro, 0, 1⟩, ⟨1, 1, .ro, 0, 1⟩, ⟨0, 0, .w1c, 0, 1⟩]
/-- The fields of the word calg. -/
def spec_calg : List Spec := [⟨63, 59, .st, 18, 24⟩, ⟨58, 48, .st, 0, 2047⟩, ⟨47, 40, .st, 1, 255⟩, ⟨39, 36, .st, 1, 15⟩,
  ⟨35, 35, .st, 0, 1⟩, ⟨34, 26, .st, 1, 511⟩, ⟨25, 17, .st, 32, 511⟩, ⟨16, 12, .st, 1, 19⟩,
  ⟨11, 6, .st, 16, 47⟩]
/-- The fields of the word calc. -/
def spec_calc : List Spec := [⟨63, 62, .st, 0, 1⟩, ⟨61, 61, .ro, 0, 1⟩]
/-- The fields of the word cala. -/
def spec_cala : List Spec := [⟨63, 61, .ro, 0, 7⟩, ⟨60, 53, .ro, 0, 255⟩, ⟨52, 45, .ro, 0, 255⟩, ⟨44, 37, .ro, 0, 255⟩,
  ⟨36, 25, .ro, 0, 4095⟩, ⟨24, 9, .ro, 0, 65535⟩, ⟨8, 8, .ro, 0, 1⟩, ⟨7, 7, .ro, 0, 1⟩,
  ⟨6, 6, .ro, 0, 1⟩, ⟨5, 3, .ro, 0, 7⟩, ⟨2, 0, .ro, 0, 7⟩]
/-- The fields of the word calb. -/
def spec_calb : List Spec := [⟨63, 32, .ro, 0, 4294967295⟩, ⟨31, 16, .ro, 0, 65535⟩, ⟨15, 12, .ro, 0, 15⟩, ⟨11, 10, .ro, 0, 3⟩,
  ⟨9, 8, .ro, 0, 3⟩, ⟨7, 4, .ro, 0, 15⟩, ⟨3, 0, .ro, 0, 15⟩]
/-- The fields of the word lane. -/
def spec_lane : List Spec := [⟨63, 63, .st, 0, 1⟩, ⟨62, 62, .st, 0, 1⟩, ⟨61, 61, .st, 0, 1⟩, ⟨60, 53, .st, 1, 255⟩,
  ⟨52, 49, .st, 1, 15⟩, ⟨48, 41, .st, 1, 255⟩]
/-- The fields of the word lsa. -/
def spec_lsa : List Spec := [⟨63, 60, .ro, 0, 15⟩, ⟨59, 57, .ro, 0, 7⟩, ⟨56, 55, .ro, 0, 3⟩, ⟨54, 53, .ro, 0, 3⟩,
  ⟨52, 52, .ro, 0, 1⟩, ⟨51, 51, .ro, 0, 1⟩, ⟨50, 50, .ro, 0, 1⟩, ⟨49, 48, .ro, 0, 3⟩,
  ⟨47, 32, .ro, 0, 65535⟩, ⟨31, 29, .ro, 0, 7⟩, ⟨28, 19, .ro, 0, 1023⟩, ⟨18, 16, .ro, 0, 7⟩,
  ⟨15, 15, .ro, 0, 1⟩, ⟨14, 14, .ro, 0, 1⟩, ⟨13, 13, .ro, 0, 1⟩]
/-- The fields of the word lsb. -/
def spec_lsb : List Spec := [⟨63, 32, .ro, 0, 4294967295⟩, ⟨31, 16, .ro, 0, 65535⟩, ⟨15, 8, .ro, 0, 255⟩, ⟨7, 0, .ro, 0, 255⟩]
/-- The fields of the word lsc. -/
def spec_lsc : List Spec := [⟨63, 48, .ro, 0, 65535⟩, ⟨47, 32, .ro, 0, 65535⟩, ⟨31, 24, .ro, 0, 255⟩, ⟨23, 16, .ro, 0, 255⟩,
  ⟨15, 8, .ro, 0, 255⟩, ⟨0, 0, .w1c, 0, 1⟩]
/-- The fields of the word ltest. -/
def spec_ltest : List Spec := [⟨63, 62, .rw, 0, 3⟩, ⟨61, 60, .rw, 0, 3⟩, ⟨59, 57, .rw, 0, 4⟩, ⟨56, 56, .rw, 0, 1⟩,
  ⟨55, 53, .rw, 0, 4⟩, ⟨52, 49, .rw, 2, 15⟩, ⟨48, 43, .rw, 10, 40⟩]
/-- The fields of the word lta. -/
def spec_lta : List Spec := [⟨63, 16, .ro, 0, 281474976710655⟩, ⟨15, 15, .ro, 0, 1⟩, ⟨14, 0, .ro, 0, 32767⟩]
/-- The fields of the word ltb. -/
def spec_ltb : List Spec := [⟨63, 16, .ro, 0, 281474976710655⟩, ⟨15, 0, .ro, 0, 65535⟩]
/-- The fields of the word grp. -/
def spec_grp : List Spec := [⟨63, 62, .ro, 0, 3⟩, ⟨61, 60, .ro, 0, 3⟩, ⟨59, 52, .st, 0, 255⟩, ⟨51, 42, .ro, 0, 1023⟩,
  ⟨41, 41, .ro, 0, 1⟩, ⟨40, 33, .ro, 0, 255⟩, ⟨32, 25, .ro, 0, 255⟩, ⟨24, 22, .ro, 0, 7⟩,
  ⟨21, 21, .ro, 0, 1⟩]
/-- The fields of the word ltc. -/
def spec_ltc : List Spec := [⟨63, 40, .st, 0, 16777215⟩, ⟨39, 35, .st, 10, 20⟩, ⟨34, 24, .st, 1, 2047⟩, ⟨23, 16, .st, 1, 255⟩,
  ⟨15, 8, .st, 1, 255⟩, ⟨7, 4, .st, 0, 15⟩, ⟨3, 3, .st, 0, 1⟩, ⟨2, 2, .st, 0, 1⟩]
/-- The fields of the word ltsa. -/
def spec_ltsa : List Spec := [⟨63, 0, .ro, 0, 18446744073709551615⟩]
/-- The fields of the word ltsb. -/
def spec_ltsb : List Spec := [⟨63, 32, .ro, 0, 4294967295⟩, ⟨31, 16, .ro, 0, 65535⟩, ⟨15, 13, .ro, 0, 7⟩, ⟨12, 8, .ro, 0, 31⟩,
  ⟨7, 7, .ro, 0, 1⟩, ⟨6, 6, .ro, 0, 1⟩]
/-- The fields of the word ltsc. -/
def spec_ltsc : List Spec := [⟨63, 48, .ro, 0, 65535⟩, ⟨47, 32, .ro, 0, 65535⟩, ⟨31, 24, .ro, 0, 255⟩, ⟨23, 16, .ro, 0, 255⟩,
  ⟨15, 0, .ro, 0, 65535⟩]
/-- The fields of the word ltsd. -/
def spec_ltsd : List Spec := [⟨63, 48, .ro, 0, 65535⟩, ⟨47, 32, .ro, 0, 65535⟩, ⟨31, 24, .ro, 0, 255⟩, ⟨23, 16, .ro, 0, 255⟩,
  ⟨15, 8, .ro, 0, 255⟩, ⟨0, 0, .w1c, 0, 1⟩]
/-- The fields of the word gmap. -/
def spec_gmap : List Spec := [⟨63, 63, .st, 0, 1⟩, ⟨62, 45, .st, 0, 262143⟩, ⟨44, 26, .st, 0, 262144⟩, ⟨25, 25, .st, 0, 1⟩,
  ⟨22, 0, .st, 0, 5242879⟩]
/-- The fields of the word gmrg. -/
def spec_gmrg : List Spec := [⟨63, 56, .st, 1, 255⟩, ⟨55, 55, .st, 0, 1⟩, ⟨54, 54, .ro, 0, 1⟩, ⟨53, 53, .ro, 0, 1⟩,
  ⟨47, 32, .ro, 0, 65535⟩, ⟨31, 24, .ro, 0, 255⟩, ⟨23, 8, .ro, 0, 65535⟩, ⟨0, 0, .w1c, 0, 1⟩]
/-- The fields of the word tmc. -/
def spec_tmc : List Spec := [⟨63, 55, .st, 3, 300⟩, ⟨54, 49, .st, 2, 63⟩, ⟨48, 43, .st, 1, 62⟩]
/-- The fields of the word tma. -/
def spec_tma : List Spec := [⟨63, 32, .ro, 0, 4294967295⟩, ⟨31, 0, .ro, 0, 4294967295⟩]
/-- The fields of the word tmb. -/
def spec_tmb : List Spec := [⟨63, 32, .ro, 0, 4294967295⟩, ⟨31, 0, .ro, 0, 4294967295⟩]
/-- The fields of the word tmcs. -/
def spec_tmcs : List Spec := [⟨63, 32, .ro, 0, 4294967295⟩, ⟨31, 0, .ro, 0, 4294967295⟩]
/-- The fields of the word tmd. -/
def spec_tmd : List Spec := [⟨63, 48, .ro, 0, 65535⟩, ⟨47, 32, .ro, 0, 65535⟩, ⟨31, 24, .ro, 0, 255⟩, ⟨23, 22, .ro, 0, 3⟩,
  ⟨21, 21, .ro, 0, 1⟩, ⟨0, 0, .w1c, 0, 1⟩]
/-- The fields of the word chan. -/
def spec_chan : List Spec := [⟨63, 61, .st, 0, 4⟩, ⟨60, 53, .st, 0, 255⟩, ⟨52, 47, .st, 0, 63⟩, ⟨46, 43, .st, 0, 15⟩,
  ⟨42, 41, .st, 0, 2⟩, ⟨40, 39, .st, 0, 2⟩, ⟨38, 35, .st, 0, 15⟩, ⟨22, 0, .st, 0, 5242879⟩]
/-- The fields of the word chst. -/
def spec_chst : List Spec := [⟨63, 16, .ro, 0, 281474976710655⟩, ⟨15, 15, .ro, 0, 1⟩, ⟨0, 0, .w1c, 0, 1⟩]
/-- The fields of the word gprof. -/
def spec_gprof : List Spec := [⟨63, 32, .st, 1600, 2147483648⟩]
/-- The fields of the word gsta. -/
def spec_gsta : List Spec := [⟨63, 32, .ro, 0, 4294967295⟩, ⟨31, 30, .ro, 0, 3⟩, ⟨29, 29, .ro, 0, 1⟩, ⟨28, 0, .ro, 0, 536870911⟩]
/-- The fields of the word gstb. -/
def spec_gstb : List Spec := [⟨53, 0, .ro, 0, 18014398509481983⟩]
/-- The fields of the word hprof. -/
def spec_hprof : List Spec := [⟨63, 23, .st, 0, 2199023255551⟩, ⟨22, 17, .st, 0, 40⟩]
/-- The fields of the word filt. -/
def spec_filt : List Spec := [⟨63, 63, .st, 0, 1⟩, ⟨62, 51, .st, 0, 4095⟩, ⟨50, 39, .st, 0, 4095⟩, ⟨38, 23, .st, 0, 65535⟩,
  ⟨22, 20, .st, 0, 4⟩, ⟨19, 16, .st, 0, 15⟩, ⟨15, 13, .st, 0, 7⟩, ⟨12, 5, .st, 0, 255⟩]
/-- The fields of the word fist. -/
def spec_fist : List Spec := [⟨63, 32, .ro, 0, 4294967295⟩, ⟨31, 1, .ro, 0, 2147483647⟩, ⟨0, 0, .w1c, 0, 1⟩]
/-- The fields of the word trigg. -/
def spec_trigg : List Spec := [⟨63, 56, .st, 0, 255⟩, ⟨55, 52, .st, 1, 15⟩]
/-- The fields of the word trig. -/
def spec_trig : List Spec := [⟨63, 56, .st, 0, 255⟩, ⟨55, 55, .st, 0, 1⟩, ⟨54, 54, .st, 0, 1⟩, ⟨53, 38, .st, 880, 65535⟩]
/-- The fields of the word cprof. -/
def spec_cprof : List Spec := [⟨63, 36, .st, 0, 268435455⟩, ⟨35, 8, .st, 1, 268435455⟩, ⟨7, 6, .st, 0, 2⟩, ⟨5, 5, .st, 0, 1⟩]
/-- The fields of the word trsa. -/
def spec_trsa : List Spec := [⟨63, 32, .ro, 0, 4294967295⟩, ⟨31, 30, .ro, 0, 3⟩, ⟨29, 29, .ro, 0, 1⟩, ⟨28, 0, .ro, 0, 536870911⟩]
/-- The fields of the word trsb. -/
def spec_trsb : List Spec := [⟨63, 16, .ro, 0, 281474976710655⟩, ⟨0, 0, .w1c, 0, 1⟩]
/-- The fields of the word segg. -/
def spec_segg : List Spec := [⟨63, 58, .st, 0, 32⟩]
/-- The fields of the word segp. -/
def spec_segp : List Spec := [⟨63, 41, .st, 0, 8388607⟩, ⟨40, 20, .st, 0, 1048576⟩]
/-- The fields of the word segd. -/
def spec_segd : List Spec := [⟨63, 52, .st, 0, 4095⟩, ⟨51, 40, .st, 0, 4095⟩, ⟨39, 34, .st, 0, 63⟩, ⟨33, 33, .st, 0, 1⟩,
  ⟨32, 17, .st, 0, 65535⟩]
/-- The fields of the word sega. -/
def spec_sega : List Spec := [⟨63, 43, .ro, 0, 2097151⟩, ⟨42, 22, .ro, 0, 2097151⟩, ⟨0, 0, .w1c, 0, 1⟩]
/-- The fields of the word segb. -/
def spec_segb : List Spec := [⟨63, 32, .ro, 0, 4294967295⟩, ⟨31, 0, .ro, 0, 4294967295⟩]
/-- The fields of the word thc. -/
def spec_thc : List Spec := [⟨63, 56, .st, 0, 255⟩]
/-- The fields of the word tha. -/
def spec_tha : List Spec := [⟨63, 0, .ro, 0, 18446744073709551615⟩]
/-- The fields of the word thb. -/
def spec_thb : List Spec := [⟨63, 32, .ro, 0, 4294967295⟩, ⟨31, 16, .ro, 0, 65535⟩, ⟨0, 0, .w1c, 0, 1⟩]
/-- The fields of the word qg. -/
def spec_qg : List Spec := [⟨63, 32, .st, 0, 4294967295⟩]
/-- The fields of the word qic. -/
def spec_qic : List Spec := [⟨63, 54, .st, 0, 1023⟩, ⟨53, 53, .st, 0, 1⟩, ⟨52, 43, .st, 1, 1023⟩, ⟨42, 33, .st, 0, 1022⟩,
  ⟨32, 32, .st, 0, 1⟩, ⟨31, 16, .st, 1, 65535⟩, ⟨15, 15, .st, 0, 1⟩, ⟨14, 10, .st, 0, 31⟩,
  ⟨9, 9, .st, 0, 1⟩, ⟨8, 8, .st, 0, 1⟩]
/-- The fields of the word qia. -/
def spec_qia : List Spec := [⟨63, 16, .ro, 0, 281474976710655⟩, ⟨15, 15, .ro, 0, 1⟩, ⟨14, 14, .w1c, 0, 1⟩, ⟨13, 13, .w1c, 0, 1⟩,
  ⟨12, 12, .w1c, 0, 1⟩, ⟨11, 11, .ro, 0, 1⟩, ⟨10, 10, .w1c, 0, 1⟩, ⟨9, 9, .ro, 0, 1⟩,
  ⟨8, 8, .ro, 0, 1⟩, ⟨6, 0, .ro, 0, 127⟩]
/-- The fields of the word qib. -/
def spec_qib : List Spec := [⟨63, 32, .ro, 0, 4294967295⟩, ⟨31, 0, .ro, 0, 4294967295⟩]
/-- The fields of the word qis. -/
def spec_qis : List Spec := [⟨63, 36, .ro, 0, 268435455⟩, ⟨35, 20, .ro, 0, 65535⟩, ⟨19, 1, .ro, 0, 524287⟩, ⟨0, 0, .w1c, 0, 1⟩]
/-- The fields of the word qhc. -/
def spec_qhc : List Spec := [⟨63, 63, .st, 0, 1⟩, ⟨62, 53, .st, 0, 1023⟩, ⟨52, 41, .st, 0, 4095⟩, ⟨40, 40, .st, 0, 1⟩,
  ⟨39, 30, .st, 1, 1023⟩, ⟨29, 20, .st, 0, 1022⟩, ⟨19, 16, .st, 1, 15⟩, ⟨15, 15, .st, 0, 1⟩,
  ⟨14, 10, .st, 0, 31⟩, ⟨9, 9, .st, 0, 1⟩]
/-- The fields of the word qha. -/
def spec_qha : List Spec := [⟨63, 38, .ro, 0, 67108863⟩, ⟨37, 37, .ro, 0, 1⟩, ⟨36, 36, .w1c, 0, 1⟩, ⟨35, 35, .ro, 0, 1⟩,
  ⟨34, 34, .w1c, 0, 1⟩, ⟨33, 33, .ro, 0, 1⟩, ⟨31, 0, .ro, 0, 4294967295⟩]
/-- The fields of the word qhb. -/
def spec_qhb : List Spec := [⟨63, 32, .ro, 0, 4294967295⟩, ⟨31, 0, .ro, 0, 4294967295⟩]
/-- The fields of the word qhs. -/
def spec_qhs : List Spec := [⟨63, 48, .ro, 0, 65535⟩, ⟨47, 32, .ro, 0, 65535⟩, ⟨31, 16, .ro, 0, 65535⟩, ⟨0, 0, .w1c, 0, 1⟩]
/-- The fields of the word qan. -/
def spec_qan : List Spec := [⟨63, 16, .ro, 0, 281474976710655⟩, ⟨15, 3, .ro, 0, 8191⟩, ⟨0, 0, .w1c, 0, 1⟩]
/-- The fields of the word part0. -/
def spec_part0 : List Spec := [⟨63, 63, .ro, 0, 1⟩, ⟨62, 31, .ro, 0, 4294967295⟩, ⟨30, 21, .ro, 0, 1023⟩, ⟨20, 13, .ro, 0, 255⟩,
  ⟨12, 12, .ro, 0, 1⟩, ⟨11, 11, .ro, 0, 1⟩]
/-- The fields of the word part3. -/
def spec_part3 : List Spec := [⟨63, 32, .ro, 0, 4294967295⟩, ⟨31, 16, .ro, 0, 65535⟩, ⟨15, 1, .ro, 0, 32767⟩, ⟨0, 0, .w1c, 0, 1⟩]
/-- The fields of the word fgc. -/
def spec_fgc : List Spec := [⟨63, 56, .st, 1, 255⟩, ⟨55, 44, .st, 1, 4095⟩, ⟨43, 39, .st, 1, 31⟩, ⟨38, 38, .rw, 0, 1⟩]
/-- The fields of the word fgs. -/
def spec_fgs : List Spec := [⟨63, 32, .ro, 0, 4294967295⟩, ⟨31, 13, .ro, 0, 524287⟩, ⟨12, 7, .ro, 0, 63⟩, ⟨6, 6, .ro, 0, 1⟩,
  ⟨5, 5, .ro, 0, 1⟩, ⟨0, 0, .w1c, 0, 1⟩]
/-- The fields of the word fsc. -/
def spec_fsc : List Spec := [⟨63, 62, .st, 0, 3⟩, ⟨61, 61, .st, 0, 1⟩, ⟨60, 60, .st, 0, 1⟩, ⟨59, 48, .st, 1, 4095⟩]
/-- The fields of the word fsa. -/
def spec_fsa : List Spec := [⟨63, 62, .ro, 0, 3⟩, ⟨61, 60, .ro, 0, 3⟩, ⟨59, 52, .ro, 0, 255⟩, ⟨51, 50, .ro, 0, 3⟩,
  ⟨49, 49, .ro, 0, 1⟩, ⟨48, 48, .ro, 0, 1⟩, ⟨47, 47, .ro, 0, 1⟩, ⟨46, 35, .ro, 0, 4095⟩,
  ⟨31, 0, .ro, 0, 4294967295⟩]
/-- The fields of the word fsb. -/
def spec_fsb : List Spec := [⟨63, 0, .ro, 0, 18446744073709551615⟩]
/-- The fields of the word fss. -/
def spec_fss : List Spec := [⟨63, 32, .ro, 0, 4294967295⟩, ⟨31, 27, .ro, 0, 31⟩, ⟨0, 0, .w1c, 0, 1⟩]
/-- The fields of the word fsl. -/
def spec_fsl : List Spec := [⟨63, 63, .ro, 0, 1⟩, ⟨13, 0, .ro, 0, 16383⟩]
/-- The fields of the word pwd. -/
def spec_pwd : List Spec := [⟨63, 63, .st, 0, 1⟩]
/-- The fields of the word pws. -/
def spec_pws : List Spec := [⟨63, 61, .ro, 0, 7⟩, ⟨60, 60, .ro, 0, 1⟩, ⟨59, 48, .ro, 0, 4095⟩, ⟨47, 40, .ro, 0, 255⟩,
  ⟨39, 24, .ro, 0, 65535⟩, ⟨23, 16, .ro, 0, 255⟩, ⟨0, 0, .w1c, 0, 1⟩]
/-- The fields of the word pwg. -/
def spec_pwg : List Spec := [⟨63, 60, .ro, 0, 15⟩, ⟨59, 59, .ro, 0, 1⟩, ⟨58, 57, .ro, 0, 3⟩, ⟨56, 56, .ro, 0, 1⟩,
  ⟨55, 40, .ro, 0, 65535⟩, ⟨39, 28, .ro, 0, 4095⟩, ⟨27, 27, .ro, 0, 1⟩, ⟨26, 26, .ro, 0, 1⟩,
  ⟨25, 22, .ro, 0, 15⟩]

/-- The fields of a word of R410, none for an undefined object or selector. The map words of a group are selectors 2 to
65, the comparator words of an input 17 to 22, the retired-slot words of a source 4 to 34. -/
def wordSpec (obj sel : Nat) : List Spec :=
  match obj, sel with
  | 4, 0 => spec_tileMap
  | 9, 0 => spec_refsel0
  | 9, 1 => spec_refsel1
  | 9, 2 => spec_refsel2
  | 3, 16 => spec_pin
  | 3, 17 => spec_pcmp
  | 3, 18 => spec_pcmp
  | 3, 19 => spec_psta
  | 3, 20 => spec_psta
  | 3, 21 => spec_pstb
  | 3, 22 => spec_pstb
  | 10, 0 => spec_calg
  | 10, 1 => spec_calc
  | 1, 0 => spec_lane
  | 1, 1 => spec_lsa
  | 1, 2 => spec_lsb
  | 1, 3 => spec_lsc
  | 1, 4 => spec_ltest
  | 1, 5 => spec_lta
  | 1, 6 => spec_ltb
  | 2, 0 => spec_grp
  | 1, 7 => spec_ltc
  | 1, 8 => spec_ltsa
  | 1, 9 => spec_ltsb
  | 1, 10 => spec_ltsc
  | 1, 11 => spec_ltsd
  | 2, 1 => spec_gmrg
  | 4, 1 => spec_tmc
  | 4, 2 => spec_tma
  | 4, 3 => spec_tmb
  | 4, 4 => spec_tmcs
  | 4, 5 => spec_tmd
  | 3, 0 => spec_chan
  | 3, 1 => spec_chst
  | 8, 0 => spec_gprof
  | 8, 1 => spec_gsta
  | 8, 2 => spec_gstb
  | 8, 3 => spec_hprof
  | 3, 2 => spec_filt
  | 3, 3 => spec_fist
  | 6, 0 => spec_trigg
  | 6, 1 => spec_trig
  | 6, 2 => spec_cprof
  | 6, 3 => spec_trsa
  | 6, 4 => spec_trsb
  | 7, 0 => spec_segg
  | 7, 1 => spec_segp
  | 7, 2 => spec_segd
  | 7, 3 => spec_sega
  | 7, 4 => spec_segb
  | 4, 6 => spec_thc
  | 4, 7 => spec_tha
  | 4, 8 => spec_thb
  | 5, 0 => spec_qg
  | 5, 1 => spec_qic
  | 5, 2 => spec_qia
  | 5, 3 => spec_qib
  | 5, 4 => spec_qis
  | 5, 5 => spec_qhc
  | 5, 6 => spec_qha
  | 5, 7 => spec_qhb
  | 5, 8 => spec_qhs
  | 5, 9 => spec_qan
  | 12, 0 => spec_part0
  | 12, 3 => spec_part3
  | 11, 64 => spec_fgc
  | 11, 65 => spec_fgs
  | 11, 0 => spec_fsc
  | 11, 1 => spec_fsa
  | 11, 2 => spec_fsb
  | 11, 3 => spec_fss
  | 13, 0 => spec_pwd
  | 13, 1 => spec_pws
  | 13, 2 => spec_pwg
  | 12, 1 => [⟨63, 0, .ro, 0, 2 ^ 64 - 1⟩]
  | 12, 2 => [⟨63, 0, .ro, 0, 2 ^ 64 - 1⟩]
  | 2, _ => if sel ≤ 65 then spec_gmap else []
  | 11, _ => if 4 ≤ sel ∧ sel ≤ 34 then spec_fsl else []
  | _, _ => []

/-- The reset word of a word whose reset is the same in every place; the others are in `resetWord`. -/
def resetConst (obj sel : Nat) : Word :=
  match obj, sel with
  | 9, 0 => 0x004B20328007C000#64
  | 9, 1 => 0x083C27100A0A1388#64
  | 9, 2 => 0x00000000003C0064#64
  | 32, 0 => 0x00000003000000F0#64
  | 32, 1 => 0x8000000080000000#64
  | 32, 8 => 0x8000000000000000#64
  | 3, 16 => 0x2EE0FA3000320000#64
  | 3, 17 => 0x00001E0000000000#64
  | 3, 18 => 0x00001E0000000000#64
  | 10, 0 => 0xB00A103B20C8AA00#64
  | 1, 0 => 0x2209F40000000000#64
  | 1, 1 => 0x0E03000000000000#64
  | 1, 4 => 0x0004A00000000000#64
  | 1, 7 => 0x000000981A400A44#64
  | 1, 9 => 0x8000000000000000#64
  | 2, 1 => 0x1080000000000000#64
  | 4, 1 => 0x1461000000000000#64
  | 8, 0 => 0x5F5E100000000000#64
  | 8, 3 => 0x0000000000100000#64
  | 3, 2 => 0x0007FF8000000000#64
  | 6, 0 => 0x0020000000000000#64
  | 6, 1 => 0x0041900000000000#64
  | 6, 2 => 0x0000000000080000#64
  | 7, 2 => 0x1E07800000000000#64
  | 5, 1 => 0x0418040100400300#64
  | 5, 5 => 0x000000C020010200#64
  | 12, 0 => 0x00000000001FE000#64
  | 11, 64 => 0x0406480000000000#64
  | 11, 65 => 0x0000000000000040#64
  | 11, 0 => 0x300A000000000000#64
  | 13, 2 => 0x1000000000000000#64
  | _, _ => 0#64

end Sys2Proof.Machine
end

