-- ==== Sys2Proof/Machine/Maps.lean ====
section
/-! DEFINITION. Sparse maps in canonical form: keys strictly rising, and no entry equal to the map's default. -/

namespace Sys2Proof.Machine

/-- The entry of a key, if listed. -/
def mfind {α : Type} : SMap α → Nat → Option α
  | [], _ => none
  | (k', v) :: rest, k => if k' = k then some v else mfind rest k

/-- The value at a key: the listed one, or the default. -/
def mget {α : Type} (d : α) (m : SMap α) (k : Nat) : α := (mfind m k).getD d

/-- Lists `v` at `k`, keeping the keys rising. -/
def minsert {α : Type} : SMap α → Nat → α → SMap α
  | [], k, v => [(k, v)]
  | (k', v') :: rest, k, v =>
    if k < k' then (k, v) :: (k', v') :: rest
    else if k = k' then (k, v) :: rest
    else (k', v') :: minsert rest k v

/-- Unlists a key. -/
def merase {α : Type} : SMap α → Nat → SMap α
  | [], _ => []
  | (k', v') :: rest, k => if k' = k then merase rest k else (k', v') :: merase rest k

/-- Writes `v` at `k`: writing the default unlists the key. -/
def mset {α : Type} [DecidableEq α] (d : α) (m : SMap α) (k : Nat) (v : α) : SMap α :=
  if v = d then merase m k else minsert m k v

/-- Changes the value at a key. -/
def mmod {α : Type} [DecidableEq α] (d : α) (m : SMap α) (k : Nat) (f : α → α) : SMap α :=
  mset d m k (f (mget d m k))

/-- Changes every listed value. -/
def mall {α : Type} [DecidableEq α] (d : α) (m : SMap α) (f : α → α) : SMap α :=
  m.foldl (fun acc e => mset d acc e.1 (f e.2)) m

/-- Changes every listed value, knowing its key. -/
def malli {α : Type} [DecidableEq α] (d : α) (m : SMap α) (f : Nat → α → α) : SMap α :=
  m.foldl (fun acc e => mset d acc e.1 (f e.1 e.2)) m

/-- Every key of `m` is above `k`. -/
def mabove {α : Type} (k : Nat) : SMap α → Bool
  | [] => true
  | (k', _) :: rest => decide (k < k') && mabove k rest

/-- Keys strictly rising. -/
def msorted {α : Type} : SMap α → Bool
  | [] => true
  | (k, _) :: rest => mabove k rest && msorted rest

/-- No entry holds the default of its key. -/
def mnodef {α : Type} [DecidableEq α] (d : Nat → α) : SMap α → Bool
  | [] => true
  | (k, v) :: rest => !decide (v = d k) && mnodef d rest

/-- The canonical form. -/
def mwf {α : Type} [DecidableEq α] (d : Nat → α) (m : SMap α) : Bool := msorted m && mnodef d m

/-- A saturating sum at `2 ^ w - 1`. -/
def satAdd (w a b : Nat) : Nat := if a + b < 2 ^ w then a + b else 2 ^ w - 1

/-- The first `n` numbers from `a`. -/
def upTo (a n : Nat) : List Nat := (List.range n).map (a + ·)

/-- The sum of `f` over a list. -/
def sumOver {α : Type} (f : α → Nat) : List α → Nat
  | [] => 0
  | x :: rest => f x + sumOver f rest

/-- Insertion into a list kept in the order `le`. -/
def insertBy {α : Type} (le : α → α → Bool) (x : α) : List α → List α
  | [] => [x]
  | y :: rest => if le x y then x :: y :: rest else y :: insertBy le x rest

/-- A list put in the order `le`, equal elements kept in their order. -/
def sortBy {α : Type} (le : α → α → Bool) : List α → List α
  | [] => []
  | x :: rest => insertBy le x (sortBy le rest)

/-- Drops the repeats of a list of numbers, keeping the first of each. -/
def distinct : List Nat → List Nat
  | [] => []
  | x :: rest => x :: (distinct rest).filter (· ≠ x)

/-- Takes element `i` out of a list. -/
def pick {α : Type} : List α → Nat → Option (α × List α)
  | [], _ => none
  | x :: rest, 0 => some (x, rest)
  | x :: rest, i + 1 =>
    match pick rest i with
    | none => none
    | some (y, rest') => some (y, x :: rest')

end Sys2Proof.Machine
end

