-- ==== Sys2Proof/Config.lean ====
section
/-! DEFINITION. The constants of the device, and the values that are fused per device and that nothing here fixes. -/

namespace Sys2Proof.Config

/-- The package serial number, fused at test (R8). A free value: log 4. -/
opaque serial : BitVec 32

/-- The constant f of R112, fused per comparator (0 to 255) and per lane interpolator (256 + lane), in 1/1,024 fine LSB. A free value: log 4. -/
opaque fusedOffset : Nat → BitVec 15

/-- The temperature model's correction of a control word, in 10^-13 (R39). A free value: log 4. -/
opaque tempModel : Nat → Int

/-- The fixed delay of a beacon's departure (true) or an echo's arrival (false) between the land and the lane interpolator, fused per lane and
rate, as what removing it adds to the stamp, in fine LSB (R179). A free value: log 4. -/
opaque fusedDelay : Nat → Nat → Bool → Int

/-- The bit errors that the line makes while the checker compares bits (R164). A free value: log 4. -/
opaque lineErrors : Nat → Nat

/-- Whether a thing that a retired element held can still be read, by draw and by its place among the things held (R232, R268). A free value: log 4. -/
opaque readable : Nat → Nat → Bool

/-- A physical tile, by its fault source, failed production test and is fused as retired (R23, R24). -/
opaque fusedTile : Nat → Bool

/-- The place in the interleave over the powered HBM3 stacks of the first 4 KiB block of a tile's Erg extension, and of an Oasis buffer as it is granted
(R15). -/
opaque spillPlace : Nat → Nat

/-- The value a retained image word reads as where the spec states none (the size fields of an image not sent). -/
opaque freeValue : Nat → BitVec 64

/-- One caravan is 4,096 ticks (R215). -/
def caravan : Nat := 4096
/-- Ticks in one second of device time (R2). -/
def second : Nat := 1600000000
/-- Ticks in one millisecond. -/
def milli : Nat := 1600000
/-- Ticks in one microsecond. -/
def micro : Nat := 1600
/-- Fine LSB in one tick (R2). -/
def fine : Nat := 1024
/-- Edge-time units (1/100 fine LSB) in one tick. -/
def edgeTick : Nat := 102400
/-- The comparator pair resolution, 1.2 ns, in edge-time units (R80). -/
def pairRes : Nat := 196608
/-- The span of the coarse count (R3). -/
def coarseSpan : Nat := 2 ^ 54
/-- Lines of 512 bits in one MiB (R318). -/
def linesPerMiB : Nat := 16384
/-- The beacon period, 2,560 ticks (R179). -/
def beaconPeriod : Nat := 2560

end Sys2Proof.Config
end

