-- ==== Sys2Proof/Machine/State.lean ====
section
/-! DEFINITION. The state of the block as plain data. Every register word of R410, and the words of REF_STATUS (R68)
and CAL_STATUS (R128), are held in `regs`; the sub-structures hold the state behind the words, chapter by chapter.
Times named `tick` are ticks since reset ended (R38); times named `full` are epoch × 2^54 + coarse; times in fine LSB
are `full × 1,024 + fine`; edge times are 1/100 fine LSB. -/

namespace Sys2Proof.Machine

/-- No step of the block stops with a fault: a fault of the spec is a report to the fault collector (R417), which is
an effect on State. So there is no constructor, and nothing is unsafe. -/
inductive Fault
  deriving DecidableEq, Repr

/-- Why a command has no meaning in the model. -/
inductive Refusal where
  /-- Raised by `exec` for a row whose meaning is not written; safe, since the run stops. No row is left so. -/
  | notModelled (mnemonic : String)
  deriving DecidableEq, Repr

/-! ### Time base (02_time_base.md) -/

/-- A step of device time waiting for its caravan boundary (R62, R65): the boundary in the old full count, the count
it is to be given, and the command to answer. -/
structure StepPend where
  atFull : Nat
  newFull : Nat
  stamp : Nat
  pps : Bool
  cmd : Cmd
  deriving DecidableEq, Repr

/-- Device time (R3, R38, R59), the first caravan of the present count (R65), and the lane dies' own counts as differences from it (R18, R19). -/
structure TimeBase where
  tick : Nat
  epoch : BitVec 16
  coarse : BitVec 54
  base : Nat
  laneErr : SMap Nat
  laneAdopt : List Nat
  step : Option StepPend
  deriving DecidableEq, Repr

/-- The timers behind a reference's state (R46 to R48, R56). -/
structure RefX where
  okRun : Nat
  qualRun : Nat
  warmRun : Nat
  clearRun : Nat
  since : Nat
  wtr : Option Nat
  deriving DecidableEq, Repr

/-- REF_SELECT in progress (R58): 0 AUTO, 1 FORCED, 2 HOLDOVER. -/
structure SelPend where
  cmd : Cmd
  form : Nat
  ref : Nat
  started : Bool
  deriving DecidableEq, Repr

/-- PPS_ALIGN waiting for its edge (R64, R65). -/
structure PpsWait where
  cmd : Cmd
  step : Bool
  full : Nat
  deadline : Nat
  deriving DecidableEq, Repr

/-- The stamps of one routed reference that the reference monitor has taken in the running second (R42, R89): `next` numbers them, those
left out for DISTURBED too; the others give their count and the sums of k, k², t and k·t, with t in fine LSB after `base`. -/
structure RegSum where
  next : Nat
  base : Nat
  n : Nat
  k1 : Nat
  k2 : Nat
  t1 : Nat
  kt : Nat
  deriving DecidableEq, Repr

/-- The oscillator (R39, R54), control words in units of 10^-13 of its frequency: `log` holds the words the loop filter wrote, each with
its tick, the newest first; `held` is the word it is held at, none while the loop steers it; `wide` says that the loop runs at 100 Hz
instead of REFSEL.loop_bw. -/
structure Osc where
  log : List (Nat × Int)
  held : Option Int
  wide : Bool
  deriving DecidableEq, Repr

/-- References and selector behind the REF_STATUS words (R46 to R57). `pairRuns` holds, for each pair of voters, its
own run of seconds of disagreement (R49): pairs A-B, A-C, B-C, and A, B, C with the ensemble are 0 to 5. `lockFrom` and `lockTo` bound the
unbroken time within the lock limits (R52); `ambig` are the pairs behind the ambiguous flag (R50); `sums` are of REF_A, REF_B, REF_C and the holdover oscillator, whose last fractional frequency is
`holdY` (R42, R44); `devs` are the last measured deviations of the references from the others (R39). -/
structure RefSys where
  refs : SMap RefX
  pairRuns : SMap Nat
  calmRun : Nat
  ambig : List Nat
  switchAt : Option Nat
  buildOut : Option Int
  loopClosed : Bool
  holdAt : Option Nat
  osc : Osc
  lockFrom : Option Nat
  lockTo : Nat
  sums : SMap RegSum
  devs : SMap Int
  holdY : Option Int
  sel : Option SelPend
  pps : Option PpsWait
  ppsLast : Option Nat
  deriving DecidableEq, Repr

/-! ### Precision inputs (03_interpolators.md) -/

/-- What stands for a stamp's pulse in time-over-threshold mode (R90 to R92). -/
inductive Pulse where
  /-- no time over threshold is measured -/
  | none
  /-- the trailing edge has not come -/
  | opened
  /-- completed by the trailing stamp with this edge time -/
  | closed (edge : Nat)
  /-- no trailing edge within 32,760 fine LSB (R91) -/
  | timedOut
  /-- the trailing edge was merged (R92) -/
  | mergedTrail
  /-- not a stamp: the marker of an over-rate window with its count of raw transitions (R85) -/
  | marker (count : Nat)
  deriving DecidableEq, Repr

/-- A held stamp of a comparator (R75, R79, R86). `time` is none while its conversion runs in `slot`. -/
structure Stamp where
  edge : Nat
  time : Option Int
  slot : Nat
  lead : Bool
  pulse : Pulse
  coarseOnly : Bool
  disturbed : Bool
  overdrive : Bool
  merged : Bool
  deriving DecidableEq, Repr

/-- The raw transitions of an over-rate window and whether the comparator was over rate in it (R85). -/
structure Window where
  count : Nat
  overRate : Bool
  deriving DecidableEq, Repr

/-- A conversion in progress (R76): its device edge time, its edge time since reset, and whether it lies in a DISTURBED or over-rate
window, and so is no sample (R107). -/
structure InConv where
  edge : Nat
  raw : Nat
  disturbed : Bool
  deriving DecidableEq, Repr

/-- A comparator with its pool (R72, R78, R80, R84). `lastStamped` and `lastRaw` are edge times since reset; `held` is in
the order of edge times; `slots` gives the conversions of each slot whose results are still to come, oldest first; `recent` holds the ticks of the full-resolution edges
of the last millisecond (R109). -/
structure Comp where
  lastStamped : Option Nat
  lastTrail : Bool
  lastRaw : Option Nat
  run : Nat
  nextSlot : Nat
  windows : SMap Window
  held : List Stamp
  slots : SMap (List InConv)
  openPulse : Option Nat
  recent : List Nat
  deriving DecidableEq, Repr

/-- A start or a stop of interval mode (R93, R94): `time` is none while its conversion runs, `merged` is the PAIR_MERGED of its stamp,
`ended` marks not an edge but the moment at which over rate ends the interval (R96), `due` a start whose timeout has come (R95), `out` an edge in a
window that turned out over rate (R86). -/
structure IvEdge where
  start : Bool
  comp : Nat
  edge : Nat
  time : Option Int
  flags : Nat
  merged : Bool
  ended : Bool
  due : Bool := false
  out : Bool := false
  deriving DecidableEq, Repr

/-- An input: the full count at which its last overdrive ended (R87), the armed start, and the starts and stops that wait
for a conversion (R94). -/
structure Input where
  overTo : Option Nat
  armed : Option IvEdge
  wait : List IvEdge
  deriving DecidableEq, Repr

/-- A completed interval on its way to its channel's histogram (R94, R263): the stop's device time, the interval, and the
union of both stamps' flags, PAIR_MERGED apart; `ends` are the comparators and edges of both. -/
structure Ival where
  stop : Nat
  value : Nat
  flags : Nat
  merged : Bool
  ends : List (Nat × Nat)
  deriving DecidableEq, Repr

/-- A group of eight inputs: whether its DISTURBED window is open, and the full count at which it closes or closed last,
once no overdrive is left (R88). -/
structure PGroup where
  opened : Bool
  toFull : Option Nat
  deriving DecidableEq, Repr

/-! ### Calibration (04_calibration.md) -/

/-- A bin table: entries in 1/16 fine LSB, the histogram it came from, its samples, its pool offset in 1/1,024 fine LSB, and
its boundary, none while CAL_LOCK keeps it waiting, and whether it was built with the choices of an ASIDE (R111, R112, R116, R120,
R132). -/
structure BinTable where
  entries : List Nat
  hist : SMap Nat
  n : Nat
  d : Nat
  held : Bool
  full : Nat
  atTick : Nat
  aside : Bool := false
  deriving DecidableEq, Repr

/-- A sample that waits for the end of its over-rate window (R107): the tick of its edge in the full count, its raw code, and whether a
live edge gave it. -/
structure PendSample where
  full : Nat
  code : Nat
  live : Bool
  deriving DecidableEq, Repr

/-- An interpolator behind its status words (R107 to R122). `pend` are samples whose over-rate window has not ended (R107); `bias` is the line
bias and `widths` are the widths of the 40 taps measured in LOCK, in 0.01 ps (R118); `lockDacs` are the trim DAC codes set in LOCK (R128); `slowPeriod` is
the slow-ring period last measured in 0.01 ps (R76, R119); `need` is what the latest set measured, while it needs a correction (R119). -/
structure Interp where
  hist : SMap Nat
  n : Nat
  liveTaps : SMap Nat
  liveHist : SMap Nat
  liveN : Nat
  setMax : Nat
  setStep : Nat
  rejRun : Nat
  err : Nat
  inForce : Option BinTable
  prior : Option BinTable
  waiting : Option BinTable
  first : Option BinTable
  holdSets : Nat
  sel : Selection
  prevSel : Option Selection
  lockAt : Option Nat
  abandonAt : Option Nat
  meanDelay : Nat
  pend : List PendSample := []
  bias : Nat := 0
  widths : List Nat := []
  lockDacs : List Nat := []
  slowPeriod : Nat := 18000
  need : Option SetMeasure := none
  retired : Bool := false
  deriving DecidableEq, Repr

/-- A CAL_START in progress (R130, R131): targets still without a result, and the count rejected or retired. -/
structure CalOp where
  cmd : Cmd
  recover : Bool
  targets : List Nat
  bad : Nat
  deadline : Nat
  deriving DecidableEq, Repr

/-! ### Lanes and groups (05_lanes.md) -/

/-- A lane behind its status words. `locked` says that its receiver has block lock, `fill` is the elastic buffer in 1/2,000,000 block (R140),
`headers` the last sync headers, true for an invalid one (R154), `ucw` the ticks of uncorrectable codewords, `invalid` the blocks
still to come of such codewords (R136), `sent` the blocks sent since the last filler (R139), `trained` the rates passed. In a test `testAt` is the
tick of its start and `injected` the events of its periodic injection (R165). -/
structure LaneX where
  cap : Option Word
  capRun : Nat
  ackSeen : Bool
  capDone : Bool
  common : List Nat
  tryRate : Nat
  ready : Bool
  result : Option Bool
  enteredAt : Nat
  fill : Nat
  headers : List Bool
  ucw : List Nat
  mkCount : Option Nat
  mkTick : Nat
  mkSeen : Nat
  mkBad : Nat
  trained : List Nat
  retired : Bool
  locked : Bool := false
  invalid : Nat := 0
  sent : Nat := 0
  testAt : Nat := 0
  injected : Nat := 0
  deriving DecidableEq, Repr

/-- A link request (R173): kind 1 retrain, 2 width change to width code `width` from member `first`; `crossed` by a partner's
request (R157). -/
structure LinkReq where
  rn : Nat
  kind : Nat
  width : Nat
  first : Nat
  deadline : Nat
  crossed : Bool
  deriving DecidableEq, Repr

/-- The mode of an operating run (R150): rate code, FEC, width code, and the partner_id received on its first lane (R145). -/
structure RunMode where
  rate : Nat
  fec : Nat
  code : Nat
  pid : Option Nat
  deriving DecidableEq, Repr

/-- The marker period that a run is receiving (R144): each lane's marker, with its count and whether its member is right; the tick of the
first, and the periods in a row that did not agree. -/
structure MarkPeriod where
  marks : List (Nat × Nat × Bool)
  since : Nat
  bad : Nat
  deriving DecidableEq, Repr

/-- A group behind its words, held at its first configured lane. `dealt` is the place in the run of the next block it sends (R143), and `badBlock` says
that the frame being received has an invalid block (R136). `nextRun` is the run being aligned, or in UP the run of an
accepted width change (R156); `beacons` those sent since UP (R195); `recentTiles` the tick of the last hit sent to each tile (R347);
`staleTo` the caravan from which it is stale no longer, kept for the caravans before it (R217);
`mapAt` and `mapFrom` the full counts from which the present and the previous channel map hold (R202); `gaps` the caravans in which
the group lost what cannot be assigned to channels (R266). -/
structure GroupX where
  req : Option LinkReq
  waitReq : List LinkReq
  nextRn : Nat
  nextRun : Option (Nat × Nat)
  retrains : List Nat
  passed : List Nat
  crossedRun : Nat
  rxSeq : Option Nat
  txSeq : Nat
  mkTx : Nat
  beacons : Nat
  distrust : Nat
  distrustSec : Nat
  isolated : Bool
  lates : List Nat
  waitFrom : Option Nat
  markerUp : Bool
  lastMarker : Option Nat
  recentTiles : SMap Nat
  mapAt : Nat
  mapFrom : Nat
  gaps : List Nat
  mode : RunMode := { rate := 7, fec := 0, code := 0, pid := none }
  period : MarkPeriod := { marks := [], since := 0, bad := 0 }
  staleTo : Option Nat := none
  dealt : Nat := 0
  badBlock : Bool := false
  deriving DecidableEq, Repr

/-! ### Partner timing and transactions (06_partner_timing.md) -/

/-- A beacon waiting for its exchange (R179, R180): number, departure in fine LSB, coarse flag, and the tick at which it left. -/
structure Beacon where
  bn : Nat
  t1 : Nat
  coarse : Bool
  sent : Nat
  deriving DecidableEq, Repr

/-- An echo waiting for its follow-up (R180): beacon, t2 as it came, arrival t4, coarse flag. -/
structure Echo where
  beacon : Beacon
  t2 : Nat
  t4 : Nat
  coarse : Bool
  deriving DecidableEq, Repr

/-- A pair of the model in 1/16 fine LSB (R181), with the echo's arrival in fine LSB. -/
structure Pair where
  u : Int
  d : Int
  t4 : Nat
  deriving DecidableEq, Repr

/-- A lane's partner-time model (R185, R186): the line through (u, d), in 1/16 fine LSB, with rate term g in 2^-60. `sinceFit` counts the pairs
since a fit last fell due and `fitDue` is the window at that moment, `lastT2` is the latest unwrapped t2 with the t1 of its beacon, `lastAccept` the tick
of the last accepted exchange, `echoes` those that wait for their follow-ups, `beaconAt` the period of the last beacon, plus one, and `busyUntil` the edge time
from which the lane interpolator is free; `ended` are beacons whose exchange has ended (R180). -/
structure Model where
  u : Int
  d : Int
  g : Int
  fitted : Bool
  window : List Pair
  sinceFit : Nat
  fitDue : Option (List Pair)
  held : List Pair
  enteredAt : Nat
  lastT2 : Option (Nat × Nat)
  lastAccept : Option Nat
  beacons : List Beacon
  echoes : List Echo
  nextBn : Nat
  prevT1 : Nat
  busyUntil : Nat
  beaconAt : Nat := 0
  ended : List Beacon := []
  deriving DecidableEq, Repr

/-- The states of a transaction tag (R195). -/
inductive TxnState where
  | free | outstanding | retryWait | retrying | done | quarantine
  deriving DecidableEq, Repr

/-- A transaction tag (R193 to R195). `quar` is 0 none, 1 link, 2 timeout; `mate` is the tag a retry reports to, or
the wire tag of a retry. -/
structure Txn where
  st : TxnState
  group : Nat
  op : Nat
  len : Nat
  addr : Nat
  part : Nat
  deadline : Nat
  stat : Nat
  pstatus : Nat
  data : List Word
  quar : Nat
  isRetry : Bool
  mate : Option Nat
  deriving DecidableEq, Repr

/-! ### Ingress, tiles and merge (07_merge.md, 10_queues.md) -/

/-- A frame in a lane ingress queue (R320), numbered within its queue: `stage` 0 waiting, 1 converted and uncommitted; `all` are the
tiles that receive it. `fit` is the model's u, d and g at its mark and `mark` the last marker forwarded before it (R213); `lost`
hits and the shed hits `sheds` (channel, full count, level) are counted when it commits (R338). `start` is the word of its mark, counted as
the queue's `wp` (R320), and `p64` the format of its words (R150). -/
structure IFrame where
  seq : Nat
  words : List Word
  hits : Nat
  arrival : Nat
  stage : Nat
  rewinds : Nat
  all : List Nat
  reread : Bool
  fit : Option (Int × Int × Int)
  mark : Option Nat
  lost : Nat
  sheds : List (Nat × Nat × Nat)
  start : Nat := 0
  p64 : Bool := false
  deriving DecidableEq, Repr

/-- A lane ingress queue (R313, R334, R335) with its pause state (R348); `mid` lines are in its Erg middle (R314). `wp` is its write pointer:
the words written since reset, padding included (R319); `stalled` says that the spill write of its oldest tail line waits for the Erg (R327). -/
structure Ingress where
  frames : List IFrame
  next : Nat
  pausing : Bool
  repeatAt : Nat
  mid : Nat
  linesLost : Nat
  wp : Nat := 0
  stalled : Bool := false
  deriving DecidableEq, Repr

/-- A hit in device time (R178, R226) with the flags of HIT and HIT_X (R360). `mirage` is 0, or 1 + the reason code.
`src` is the group's first lane, 1,024 for a precision stamp. -/
structure THit where
  chan : Nat
  time : Nat
  tot : Nat
  flags : Nat
  merged : Bool
  overRate : Bool
  timeout : Bool
  transitions : Nat
  src : Nat
  frame : Nat
  mirage : Nat
  ref : Nat
  deriving DecidableEq, Repr

/-- What crosses the Saddle to a tile (R204). -/
inductive TItem where
  | hit (h : THit)
  | marker (src frame time : Nat)
  | token (src frame : Nat)
  deriving DecidableEq, Repr

/-- A tile-map change in progress (R229 to R232): the command to answer, the boundary once accepted, whether the fault collector
asked for it, and the map's new state and physical tile. -/
structure Remap where
  cmd : Option Cmd
  full : Option Nat
  fault : Bool
  state : Nat
  phys : Nat
  deriving DecidableEq, Repr

/-- A logical tile (R210, R219 to R226, R234, R295). `k0` counts from the first caravan of the present count; `prov` is held
provisionally, `hits` binned; `marks` are the latest markers by source; `late` and `shed` the notes of caravans (R236, R266, R303); `levels` the changes
of the shed level, the latest first, each with its frontier time in fine LSB (R236);
`closedAt` the full count at which a caravan closed in which a gate ends; `lastRemap` the boundaries of tile-map changes, true for the
fault collector's (R266, R303); `extOn` is the HBM3 stack of each line of the extension `ext` and `extAt` counts the lines ever written there (R15); `eh` is
E_h in fine LSB (R298). -/
structure Tile where
  prov : List TItem
  k0 : Nat
  notice : Nat
  marks : SMap Nat
  hits : List THit
  shed : SMap Nat
  late : SMap Nat
  closedAt : SMap Nat
  buf : Nat
  lastLevel : Option Nat
  ring : List THit
  ext : List THit
  extOn : List Nat := []
  extAt : Nat := 0
  eh : Nat
  holds : Bool
  frontier : Nat
  remap : Option Remap
  dead : Option Nat
  held : Bool
  lastRemap : List (Nat × Bool)
  levels : List (Nat × Nat) := []
  deriving DecidableEq, Repr

/-! ### Statistics (08_statistics.md) -/

/-- A gate of a profile: number, S in full ticks, length. -/
structure Gate where
  no : Nat
  s : Nat
  len : Nat
  deriving DecidableEq, Repr

/-- The sums of one channel over the gate of profile `prof` that starts at `gate` (R254), its last accumulated edge, its flags (R266) and histogram (R264).
Edges before the full count `resume` are not accumulated (R417). -/
structure Acc where
  gate : Nat
  n : Nat
  t1 : Nat
  t2 : Nat
  last : Option Nat
  flags : BitVec 16
  bins : SMap Nat
  resume : Nat := 0
  prof : Nat := 0
  deriving DecidableEq, Repr

/-! ### Triggers (09_triggers.md) -/

/-- A trigger candidate: time in fine LSB, source code (R360), the channel of a condition, and whether its core die's Stirrup has
already found it within the re-arm time (R289). -/
structure Cand where
  time : Nat
  source : Nat
  chan : Nat
  miss : Bool
  deriving DecidableEq, Repr

/-- An armed window of a trigger definition (R288), in fine LSB: where it begins and ends, and the triggers still to take, none when it was
armed with C = 0. -/
structure ArmWin where
  start : Nat
  stop : Option Nat
  left : Option Nat
  deriving DecidableEq, Repr

/-- A trigger definition behind its words (R288 to R293), times in fine LSB: its armed windows, the newest last, the window whose
misses are counted, the last taken trigger, and the misses since then. -/
structure TDef where
  wins : List ArmWin
  win : Nat
  last : Option Nat
  misses : Nat
  outstanding : Nat
  cands : List Cand
  deriving DecidableEq, Repr

/-- A definition at a core-die Stirrup (R289): candidates found and not yet forwarded, the last forwarded, and the full count
through which its conditions are reported complete. -/
structure CoreDef where
  found : List Cand
  lastFwd : Option Nat
  complete : Nat
  deriving DecidableEq, Repr

/-- A channel's condition (R285): leading times waiting, last hit, and whether the silence has fired. -/
structure CondX where
  wait : List Nat
  last : Option Nat
  fired : Bool
  deriving DecidableEq, Repr

/-- A segment (R300 to R306): `st` 0 taken, 1 placed and being delivered, 2 held. `tiles` contribute pieces; `need` and `left` give
for each tile the words of its piece and those not yet written (R306, R308), `bufOn` the HBM3 stacks of the buffers it took (R15); `toWrite` counts records to be written; `cuts` is the
window of each core die, where WRITE_LIVE has left it another (R301, R398). -/
structure Seg where
  part : Nat
  d : Nat
  trigNo : Nat
  time : Nat
  source : Nat
  misses : Nat
  pre : Nat
  post : Nat
  queue : Nat
  hold : Bool
  holdMs : Nat
  cuts : SMap (Nat × Nat)
  tiles : List Nat
  built : Bool
  flags : Nat
  eSeg : Nat
  missing : Nat
  hits : List THit
  st : Nat
  need : SMap Nat
  left : SMap Nat
  bufOn : SMap (List Nat) := []
  toWrite : Nat
  deadline : Option Nat
  deriving DecidableEq, Repr

/-- A piece waiting for buffers (R307): how many it holds, how many it lacks, and since when it waits. -/
structure PieceWait where
  desc : Nat
  tile : Nat
  has : Nat
  lacks : Nat
  since : Nat
  deriving DecidableEq, Repr

/-! ### Host queues (10_queues.md, 11_host_records.md) -/

/-- A record: its words, whether it begins and ends a unit (R329), the segment it belongs to, and, in a queue's tail, the word at which it
starts. -/
structure Rec where
  words : List Word
  first : Bool
  last : Bool
  seg : Option Nat
  start : Nat := 0
  deriving DecidableEq, Repr

/-- What waits to be placed after a caravan (R273, R304): order 0 gate mark, 1 STATS, 2 segment or TRIG_MISS; `a` and
`b` order it further. -/
structure Placed where
  caravan : Nat
  order : Nat
  a : Nat
  b : Nat
  recs : List Rec
  deriving DecidableEq, Repr

/-- A hit record on its way from a closed caravan of a tile into a host queue's caravan (R223). -/
structure QHit where
  caravan : Nat
  time : Nat
  chan : Nat
  words : List Word
  deriving DecidableEq, Repr

/-- What tiles report of a caravan they closed (R223, R360): late groups, early closure by a remap, shed level 3. -/
structure QClose where
  late : List Nat
  remap : Bool
  shed : Bool
  deriving DecidableEq, Repr

/-- A host queue behind its words. `hits` and `closes` come from tiles for caravans it has not closed. `incoming` is on its way to the tail; `recs` is held; `dropping` discards the rest
of a unit (R330); `mid` lines are in the Erg middle (R314); `crc`, `sent` and `lost` are of the caravan being written (R360). `epochDue` is an EPOCH record
that goes before the first record of the new epoch (R60, R365). -/
structure HQueue where
  hits : List QHit
  closes : SMap QClose
  incoming : List Rec
  recs : List Rec
  dropping : Bool
  inCaravan : Bool
  caravanLost : Bool
  crc : BitVec 32
  sent : Nat
  lost : Nat
  nextK : Option Nat
  seq : BitVec 32
  skip : Nat
  carried : Bool
  place : List Placed
  flush : Option Cmd
  flushing : Bool
  flushCount : Nat
  mid : Nat
  linesLost : Nat
  wp : Nat := 0
  stalled : Bool := false
  epochDue : Option Rec := none
  deriving DecidableEq, Repr

/-- A reply on its way to its lane or port: packets of words, header first (R374, R375). `frees` says that the
partition's channel is free when the last packet has left (R383); `flits` are the record flits its lane has sent since it became ready (R209). -/
structure Reply where
  part : Nat
  packets : List (List Word)
  frees : Bool
  flits : Nat := 0
  deriving DecidableEq, Repr

/-- A host lane: round-robin position, the tick of its last IDLE record, frame sequence, replies that wait, and the command receive
buffer (R322, R323, R369), with `heard` whether the lane was bound to the partition of each frame when it came (R378). In the turn of `queue`, `rest` is what is still to be sent of a record that did not fit in one frame, and `left` the records
still to be taken; `owed` says that the last frame was a reply's, so that records come next (R209, R322, R357). -/
structure HLane where
  turn : Nat
  idleAt : Option Nat
  txSeq : Nat
  replies : List Reply
  rx : List (List Word)
  heard : List Bool := []
  queue : Nat := 0
  rest : List Word := []
  left : Nat := 0
  owed : Bool := false
  deriving DecidableEq, Repr

/-- What has left the package, for the model's own record of its outputs (log 3): a frame on a host lane or to a partner, with the
contents of its frame start and frame end (R174, R357) and the place in the run of its first block (R143), a reply packet on the serial
management port, a control block, a capability block (R146), a command on the boot port with its address and how many bytes it moves (R497), and
what the test access port shifts out (R500). -/
inductive Out where
  | hostFrame (lane start : Nat) (words : List Word) (fin place : Nat)
  | smpReply (words : List Word)
  | block (lane type : Nat) (content : Nat)
  | frame (group start : Nat) (words : List Word) (fin place : Nat)
  | capability (lane : Nat) (word : Word)
  | boot (cmd address bytes : Nat)
  | tdo (length value : Nat)
  deriving DecidableEq, Repr

/-! ### Commands (12_commands.md) -/

/-- A staged copy that is pending for a partition (R391). -/
structure Staged where
  part : Nat
  word : Word
  deriving DecidableEq, Repr

/-- A word written by WRITE_LIVE with the bits written, the dies that have not adopted it yet, and those that found its group
inconsistent (R395, R398). -/
structure Written where
  word : Word
  mask : Word
  waiting : List Nat
  bad : List Nat
  deriving DecidableEq, Repr

/-- A word as one of several dies that use it holds it, with its earlier changes there, the latest first: the full count of each and the word
before it (R395, R407). -/
structure DieCopy where
  word : Word
  changes : List (Nat × Word)
  deriving DecidableEq, Repr

/-- The previous value of a word and the full count from which the present one holds (R407); `cinch` is the boundary at which a Cinch last
changed it (R402). `older` lists the earlier changes, the latest first: the full count of each and the word before it. -/
structure Prev where
  old : Word
  full : Nat
  cinch : Option Nat
  older : List (Nat × Word) := []
  deriving DecidableEq, Repr

/-- A CINCH being checked or distributed (R399 to R404); `spaced` says that R402 has made its boundary later. -/
structure CinchJob where
  cmd : Cmd
  words : SMap Word
  accepted : Nat
  chosen : Bool
  full : Nat
  attempts : Nat
  spaced : Bool := false
  deriving DecidableEq, Repr

/-- A CINCH for which GO has been sent (R403), and the command whose reply waits for its boundary (R402). -/
structure Gone where
  part : Nat
  words : SMap Word
  full : Nat
  reply : Option Cmd := none
  deriving DecidableEq, Repr

/-- A busy command channel (R383, R384): opcode and the tick of acceptance. -/
structure Busy where
  op : Nat
  since : Nat
  deriving DecidableEq, Repr

/-- A system-wide operation in progress (R386). -/
structure SysOp where
  op : Nat
  cmd : Cmd
  since : Nat
  deriving DecidableEq, Repr

/-- A FW_UPDATE session (R413); `erasing` while the flash may still erase the slot that BEGIN of a direct one named. -/
structure FwSession where
  slot : Nat
  length : Nat
  crc : Nat
  direct : Bool
  data : SMap Word
  next : Nat
  lastAt : Nat
  erasing : Bool := false
  deriving DecidableEq, Repr

/-- The command engines and their ports; `cinchAt` are the boundaries of the Cinches, the last one first (R233). `copies` are the words that
several dies use where WRITE_LIVE has written them, by word and die (R395). `binding` is the partition, lane and direction of a PARTITION_BIND whose reply has
not left, and `heard` says, while the engines take a frame from a buffer, whether its lane was bound to its partition when it came (R378). -/
structure CmdSys where
  chans : SMap Busy
  sysOp : Option SysOp
  smpIn : Option (List Word)
  smpOut : List Reply
  staged : SMap Staged
  written : SMap Written
  prev : SMap Prev
  cinches : List CinchJob
  gone : List Gone
  resync : Bool
  fw : Option FwSession
  cinchAt : List Nat := []
  copies : SMap (SMap DieCopy) := []
  binding : Option (Nat × Nat × Bool) := none
  heard : Option Bool := none
  deriving DecidableEq, Repr

/-! ### Faults (13_faults.md) -/

/-- A fault on its way to the collector (R417, R419, R436); it is timed at its acceptance (R422). -/
structure FaultRep where
  source : Nat
  cause : Nat
  sub : Nat
  injected : Bool
  deriving DecidableEq, Repr

/-- A source behind its words: the timer (R425), whether a monitor is outside its limit (R420), and the sub field and injection of the last
accepted fault (R436), and whether that fault's verdict has retired its element (R425, R432). -/
structure SrcX where
  timer : Option Nat
  present : Bool
  sub : Nat
  injected : Bool
  retired : Bool := false
  deriving DecidableEq, Repr

/-- An entry of a slot fault register (R433). -/
structure SlotEntry where
  slot : Nat
  times : List Nat
  deriving DecidableEq, Repr

/-- The fault collector. `ergReread` are the blocks of HBM3 stacks, stack × 2^22 + block, in which a word has failed and is to be read once again (R417). -/
structure FaultSys where
  inflight : List FaultRep
  srcs : SMap SrcX
  counted : SMap (List Nat)
  slotRegs : SMap (List SlotEntry)
  history : List (Word × Word)
  pulseEnd : Option Nat
  holders : List Nat
  awl : SMap Nat
  toRecord : List Word
  spares : SMap Nat
  saddleRun : SMap Nat
  ergReread : List Nat := []
  deriving DecidableEq, Repr

/-! ### Power, boot and pins (14_power_startup.md, 15_package_pins.md) -/

/-- A POWER_DOMAIN in progress (R450, R451): `until1` is the latest boundary of the Cinches replied before it, and `waits` says that it waits
for a power cycle to end (R453). -/
structure DomOp where
  cmd : Cmd
  on : Bool
  until1 : Nat
  waits : Bool
  deriving DecidableEq, Repr

/-- A power cycle by the collector: the domain it is for, and the domains that return to ON (R453). -/
structure Cycle where
  domain : Nat
  back : List Nat
  deriving DecidableEq, Repr

/-- The fields of the three words of a boot directory copy (R459). -/
structure Directory where
  magic : Nat
  seq : Nat
  quadByte : Nat
  mhz : Nat
  bootOn : BitVec 30
  crc : Nat
  deriving DecidableEq, Repr

/-- An image slot as its header and payload check (R461); `length` in bytes and `crc` of the payload. -/
structure Image where
  valid : Bool
  generation : Nat
  major : Nat
  minor : Nat
  patch : Nat
  minStep : Nat
  length : Nat := 0
  crc : Nat := 0
  deriving DecidableEq, Repr

/-- Power, boot flash and reset; `tapHold` says that start-up waits for the test access port (R502), `loadAt` is the tick at which an image was
loaded (R462), `stage` the stage of phase DOMAINS (R466), and `rails` has bit d set while every rail of domain d is supplied (R443, R445). -/
structure PowerSys where
  resetLow : Bool
  pwrGood : Bool
  ops : SMap DomOp
  cycles : List Cycle
  hot : List Nat
  hotAnchor : Bool
  tapHold : Bool
  stage : Nat
  loadAt : Nat
  slot : Nat
  tried : List Nat
  dirA : Directory
  dirB : Directory
  dirDirty : Bool
  recA : List Word
  recB : List Word
  slots : SMap Image
  rails : Nat := 0x3FFFFFFF
  deriving DecidableEq, Repr

/-- The test access port (R500 to R503): instruction register, boundary cells, and what the selected register has captured to shift out, the bit next to
TDO in bit 0. -/
structure Jtag where
  ir : Nat
  cells : SMap Nat
  shift : Nat := 0x15C205AF
  deriving DecidableEq, Repr

/-- The state of the block. -/
structure State where
  /-- Commands waiting, first in, first out (the block model's own). -/
  pending : List Instr
  /-- Register words in force, keyed by `wkey object selector number` (R410). -/
  regs : SMap Word
  tb : TimeBase
  rf : RefSys
  comps : SMap Comp
  inputs : SMap Input
  pgroups : SMap PGroup
  ivals : SMap (List Ival)
  anchorQ : SMap (List THit)
  interps : SMap Interp
  calOps : List CalOp
  lanes : SMap LaneX
  groups : SMap GroupX
  lref : SMap Nat
  models : SMap Model
  txns : SMap Txn
  ingress : SMap Ingress
  /-- What crosses the request channel of each lane-die-to-core-die link, in the order sent, each with its tile and source (R205). -/
  toTile : SMap (List (Nat × TItem))
  /-- Per core die, the latest boundary notice sent and the anchor's marker with it (R218, R219). -/
  notices : SMap (Nat × Nat)
  tiles : SMap Tile
  links : SMap Nat
  gates : SMap (List Gate)
  gateDone : SMap Nat
  accs : SMap (List Acc)
  lastStats : SMap (List Word)
  /-- The profile of the gate of each channel's latest STATS record, plus one (R274). -/
  statsFrom : SMap Nat
  defs : SMap TDef
  coreDefs : SMap CoreDef
  conds : SMap CondX
  decims : SMap Nat
  /-- The levels of the TRIG_IN pins as last sampled, bit p for pin p (R282). -/
  tin : Nat
  segs : SMap Seg
  pieces : List PieceWait
  hqs : SMap HQueue
  hlanes : SMap HLane
  cmd : CmdSys
  flt : FaultSys
  pw : PowerSys
  jtag : Jtag
  /-- At each arbiter, the waiting requesters with the grants that others have had since each began to wait (R22): arbiter 0 is of the command engines,
  1 of the fault collector, 2 + n of the writes of queues at stack n (R317), 8 + t of the links into tile t. -/
  grants : SMap (SMap Nat)
  /-- What has left the package, oldest first (the model's own, log 3). -/
  out : List Out
  /-- Free values drawn so far (the model's own, log 4). -/
  freeCount : Nat
  deriving DecidableEq, Repr

/-- The machine right after reset: RESET_N has risen and start-up is in phase FUSES (R59, R466, R472); every register
word at its reset word, every queue empty. -/
def State.reset : State where
  pending := []
  regs := []
  tb := { tick := 0, epoch := 0, coarse := 0, base := 0, laneErr := [], laneAdopt := [], step := none }
  rf := { refs := [], pairRuns := [], calmRun := 0, ambig := [], switchAt := none, buildOut := none, loopClosed := false, holdAt := none, osc := { log := [], held := none, wide := false }, lockFrom := none, lockTo := 0, sums := [], devs := [], holdY := none, sel := none, pps := none, ppsLast := none }
  comps := []
  inputs := []
  pgroups := []
  ivals := []
  anchorQ := []
  interps := []
  calOps := []
  lanes := []
  groups := []
  lref := []
  models := []
  txns := []
  ingress := []
  toTile := []
  notices := []
  tiles := []
  links := []
  gates := []
  gateDone := []
  accs := []
  lastStats := []
  statsFrom := []
  defs := []
  coreDefs := []
  conds := []
  decims := []
  tin := 0
  segs := []
  pieces := []
  hqs := []
  hlanes := []
  cmd := { chans := [], sysOp := none, smpIn := none, smpOut := [], staged := [], written := [], prev := [], cinches := [], gone := [], resync := false, fw := none }
  flt := { inflight := [], srcs := [], counted := [], slotRegs := [], history := [], pulseEnd := none, holders := [], awl := [], toRecord := [], spares := [], saddleRun := [] }
  pw := { resetLow := false, pwrGood := true, ops := [], cycles := [], hot := [], hotAnchor := false, tapHold := false, stage := 0, loadAt := 0, slot := 0, tried := [], dirA := { magic := 0x54534244, seq := 1, quadByte := 0, mhz := 13, bootOn := 0x3FFFFFFF#30, crc := 0x2B8EF9A8 }, dirB := { magic := 0x54534244, seq := 0, quadByte := 0, mhz := 13, bootOn := 0x3FFFFFFF#30, crc := 0xD98E53CE }, dirDirty := false, recA := [], recB := [], slots := [] }
  jtag := { ir := 1, cells := [] }
  grants := []
  out := []
  freeCount := 0

/-- What a command answers. -/
abbrev Res := Host.Outcome State Fault Refusal

end Sys2Proof.Machine
end

