-- ==== Sys2Proof/Machine/Regs.lean ====
section
/-! DEFINITION. The register words: their keys, their reset words, and reading and writing a field. -/

namespace Sys2Proof.Machine

/-- The key of a word in `State.regs`: object, selector, number (R410). -/
def wkey (obj sel idx : Nat) : Nat := (obj * 256 + sel) * 2 ^ 24 + idx

/-- The object of a key. -/
def keyObj (k : Nat) : Nat := k / 2 ^ 32
/-- The selector of a key. -/
def keySel (k : Nat) : Nat := k / 2 ^ 24 % 256
/-- The number of a key. -/
def keyIdx (k : Nat) : Nat := k % 2 ^ 24

/-- A lane is host-facing at reset (R29). -/
def hostAtReset (lane : Nat) : Bool := decide (lane % 256 < 8)

/-- The severity a source has at reset (R418): 0 NOTE, 1 CORRECTED, 2 DEGRADE, 3 FATAL. -/
def sevAtReset (src : Nat) : Nat :=
  if 0x0800 ≤ src ∧ src ≤ 0x0BFF then 2
  else if 0x1200 ≤ src ∧ src ≤ 0x17FF then 0
  else if 0x8000 ≤ src ∧ src ≤ 0x80FF then
    match src % 16 with
    | 0 => 0 | 4 => 2 | 6 => 3 | 7 => 3 | 8 => 2 | _ => 1
  else if src = 0x9000 ∨ src = 0x9003 then 2
  else if src = 0x9002 then 0
  else if src = 0x9001 then 1
  else 1

/-- The reset word of each word. -/
def resetWord (obj sel idx : Nat) : Word :=
  if obj = 1 ∧ sel = 0 then
    if hostAtReset idx then resetConst 1 0 ||| 0xC000000000000000#64 else resetConst 1 0
  else if obj = 4 ∧ sel = 0 then
    pack [(13, 9, idx % 16), (8, 6, idx / 64), (5, 0, idx % 64)]
  else if obj = 5 ∧ sel = 5 then
    if idx = 0 then resetConst 5 5 ||| pack [(63, 63, 1), (52, 41, 16)] else resetConst 5 5
  else if obj = 12 ∧ sel = 0 then
    if idx = 0 then resetConst 12 0 ||| 0x8000000000000000#64 else resetConst 12 0
  else if obj = 12 ∧ sel = 1 then
    if idx = 0 then 0x8000810082008300#64 else 0#64
  else if obj = 11 ∧ sel = 0 then
    setBits (resetConst 11 0) 63 62 (sevAtReset idx)
  else if obj = 13 ∧ sel = 0 then 0x8000000000000000#64
  else if obj = 2 ∧ 2 ≤ sel ∧ sel ≤ 65 then 0#64
  else if obj = 11 ∧ 4 ≤ sel ∧ sel ≤ 34 then 0#64
  else resetConst obj sel

/-- The reset word of a key. -/
def resetKey (k : Nat) : Word := resetWord (keyObj k) (keySel k) (keyIdx k)

/-- The word in force at a key. -/
def regGet (m : SMap Word) (k : Nat) : Word := mget (resetKey k) m k

/-- Writes the word in force at a key. -/
def regSet (m : SMap Word) (k : Nat) (w : Word) : SMap Word := mset (resetKey k) m k w

/-- The register store is in its canonical form: keys rising, and no word listed that holds its reset value. -/
def State.canon (s : State) : Bool := mwf resetKey s.regs

/-- The word in force. -/
def State.word (s : State) (obj sel idx : Nat) : Word := regGet s.regs (wkey obj sel idx)

/-- Puts a word in force. -/
def State.setWord (s : State) (obj sel idx : Nat) (w : Word) : State :=
  { s with regs := regSet s.regs (wkey obj sel idx) w }

/-- The number held in a field of instance `idx`. -/
def State.get (s : State) (f : Field) (idx : Nat) : Nat := bits (s.word f.obj f.sel idx) f.hi f.lo

/-- Writes a field of instance `idx`. -/
def State.put (s : State) (f : Field) (idx v : Nat) : State :=
  s.setWord f.obj f.sel idx (setBits (s.word f.obj f.sel idx) f.hi f.lo v)

/-- Reads a one-bit field. -/
def State.flag (s : State) (f : Field) (idx : Nat) : Bool := s.get f idx = 1

/-- Adds to a counter that holds at its maximum. -/
def State.satInc (s : State) (f : Field) (idx n : Nat) : State :=
  s.put f idx (satAdd (f.hi - f.lo + 1) (s.get f idx) n)

/-- Adds to a counter that wraps. -/
def State.wrapInc (s : State) (f : Field) (idx n : Nat) : State :=
  s.put f idx ((s.get f idx + n) % 2 ^ (f.hi - f.lo + 1))

/-- The field of the same place in another selector (comparator words 17 and 18, status words 19 to 22). -/
def Field.at (f : Field) (k : Nat) : Field := { f with sel := f.sel + k }

end Sys2Proof.Machine
end

