-- ==== Sys2Proof/Machine/Ops.lean ====
section
/-! DEFINITION. The named operations every family shares: device time, boundaries, records and events, faults on their
way to the collector, domains, groups, partitions, replies and the checks of a command (R377, R508). -/

namespace Sys2Proof.Machine

/-! ### Device time -/

/-- epoch × 2^54 + coarse (R3). -/
def State.full (s : State) : Nat := s.tb.epoch.toNat * 2 ^ 54 + s.tb.coarse.toNat

/-- The present device time in fine LSB, at the start of the tick. -/
def State.nowFine (s : State) : Nat := s.full * 1024

/-- The 64-bit word of a device time in fine LSB (R3). -/
def devWord (fine : Nat) : Word := BitVec.ofNat 64 fine

/-- The first multiple of 4,096 ticks after `f`. -/
def nextBoundary (f : Nat) : Nat := (f / 4096 + 1) * 4096

/-- The first caravan boundary at least `n` ticks after `f`. -/
def boundaryAfter (f n : Nat) : Nat := ceilDiv (f + n) 4096 * 4096

/-- A host queue is enabled. -/
def State.queueEn (s : State) (q : Nat) : Bool := s.flag F.qhc_en q

/-- The initial host queue. -/
def HQueue.init : HQueue :=
  { hits := [], closes := [], incoming := [], recs := [], dropping := false, inCaravan := false, caravanLost := false, crc := 0xFFFFFFFF#32, sent := 0, lost := 0, nextK := none, seq := 0, skip := 0, carried := false, place := [], flush := none, flushing := false, flushCount := 0, mid := 0, linesLost := 0 }

/-- A host queue. -/
def State.hq (s : State) (q : Nat) : HQueue := mget HQueue.init s.hqs q

/-- Changes a host queue. -/
def State.setHq (s : State) (q : Nat) (h : HQueue) : State := { s with hqs := mset HQueue.init s.hqs q h }

/-- Records on their way to a host queue, behind an EPOCH record that waits to go before them (R60). -/
def HQueue.take (h : HQueue) (rs : List Rec) : HQueue := { h with incoming := h.incoming ++ h.epochDue.toList ++ rs, epochDue := none }

/-- A record set on its way to a host queue; for a disabled queue it is discarded and counted (R332). -/
def emit (s : State) (q : Nat) (r : Rec) : State :=
  if s.queueEn q then s.setHq q ((s.hq q).take [r])
  else s.satInc F.qhb_rec_dropped q 1

/-- A record whose time lies at a full count: one of the epoch before goes ahead of an EPOCH record that waits (R60, R365). -/
def emitFor (s : State) (q full : Nat) (r : Rec) : State :=
  if s.queueEn q && decide (full / 2 ^ 54 < s.tb.epoch.toNat) then s.setHq q { s.hq q with incoming := (s.hq q).incoming ++ [r] }
  else emit s q r

/-- A record that is a unit of its own. -/
def single (ws : List Word) : Rec := { words := ws, first := true, last := true, seg := none }

/-- The host queues whose configuration word is listed and enabled, queue 0 among them while it is enabled. -/
def State.enabledQueues (s : State) : List Nat :=
  let listed := (s.regs.filter fun e => decide (e.1 / 2 ^ 24 = 5 * 256 + 5)).map fun e => keyIdx e.1
  (distinct (0 :: listed)).filter s.queueEn

/-- The EPOCH record (R360). -/
def epochRec (step : Bool) (oldEpoch newEpoch start old : Nat) : Rec :=
  single [pack [(63, 60, 0xC), (59, 59, b2n step), (31, 16, oldEpoch), (15, 0, newEpoch)],
    pack [(53, 0, start)], pack [(53, 0, old)]]

/-- One record to every enabled host queue. -/
def emitAll (s : State) (r : Rec) : State := s.enabledQueues.foldl (fun s q => emit s q r) s

/-- Puts device time at a full count. -/
def State.setFull (s : State) (f : Nat) : State :=
  { s with tb := { s.tb with epoch := BitVec.ofNat 16 (f / 2 ^ 54), coarse := BitVec.ofNat 54 f } }

/-- An EPOCH record waits at every enabled host queue to go before the first record of the new epoch: DESIGN CHOICE (log 32), R60 says no more than ahead of
every record that the new epoch concerns, and R365 dates a record that stands before it in the old epoch. -/
def epochAll (s : State) (r : Rec) : State :=
  s.enabledQueues.foldl (fun s q => s.setHq q { (s.hq q).take [] with epochDue := some r }) s

/-- Device time advances by `n` ticks (R38). When the coarse count wraps, the epoch increments and every enabled host
queue receives an EPOCH record (R60). -/
def advance (s : State) (n : Nat) : State :=
  let f := s.full + n
  let t := { (s.setFull f) with tb := { (s.setFull f).tb with tick := s.tb.tick + n } }
  if s.tb.coarse.toNat + n < 2 ^ 54 then t
  else epochAll t (epochRec false s.tb.epoch.toNat t.tb.epoch.toNat 0 0)

/-- Device time advances to a tick count, or stays when that has passed (log 2). -/
def advanceTo (s : State) (t : Nat) : State := if t ≤ s.tb.tick then s else advance s (t - s.tb.tick)

/-- Device time advances to a full count, or stays when that has passed. -/
def advanceFull (s : State) (f : Nat) : State := if f ≤ s.full then s else advance s (f - s.full)

/-! ### Events and faults -/

/-- The EVENT record (R360). -/
def eventRec (cls code stat subject : Nat) (time : Nat) (detail : List Word) : Rec :=
  single (pack [(63, 60, 0xB), (59, 57, detail.length), (56, 49, cls), (48, 41, code), (40, 33, stat), (31, 0, subject)]
    :: devWord time :: detail)

/-- An EVENT record to a partition's queue p × 64 (R359). -/
def event (s : State) (part cls code stat subject : Nat) (detail : List Word) : State :=
  emit s (part * 64) (eventRec cls code stat subject s.nowFine detail)

/-- An EVENT record to partition 0, and to `part` too when that is another (R155, R187, R197, R437). -/
def eventBoth (s : State) (part cls code stat subject : Nat) (detail : List Word) : State :=
  let s := event s 0 cls code stat subject detail
  if part = 0 then s else event s part cls code stat subject detail

/-- A domain is on: ON, or STOPPING and not yet switched off (R450); domain 26 always is (R443). -/
def State.domOn (s : State) (d : Nat) : Bool := d = 26 || s.get F.pws_pstate d = 3 || s.get F.pws_pstate d = 4

/-- The power domain of a lane (R443). -/
def laneDomain (lane : Nat) : Nat := lane / 64

/-- The power domain of a logical tile `die × 64 + t` (R443). -/
def tileDomain (tile : Nat) : Nat := 16 + 2 * (tile / 64) + tile % 64 / 32

/-- The logical tile that owns a channel (R23). -/
def chanTile (c : Nat) : Nat := c / 16384

/-- A core die is on while either of its domains is (R443). -/
def State.coreOn (s : State) (k : Nat) : Bool := s.domOn (16 + 2 * k) || s.domOn (17 + 2 * k)

/-- The lane die that carries a host queue by its configuration word (R31). -/
def homeOf (w : Word) : Nat := bits w 62 53 / 256

/-- The core dies whose Stirrup runs (R443). -/
def State.coreDies (s : State) : List Nat := (upTo 0 5).filter s.coreOn

/-- The dies with a block that uses a word, the one whose value the word in force shows first (R394, R398): those of a word used by a
block whose domain is off are none. -/
def State.wordDies (s : State) (obj sel idx : Nat) (w : Word) : List Nat :=
  let lane := fun (d : Nat) => if s.domOn d then [8 + d / 4] else []
  match obj with
  | 1 | 2 => lane (laneDomain idx)
  | 3 => if sel < 4 then [idx / 2 ^ 20] else if s.domOn 27 then [15] else []
  | 4 => [idx / 64]
  | 5 =>
    if 1 ≤ sel ∧ sel ≤ 4 then lane (laneDomain idx)
    else if 5 ≤ sel ∧ sel ≤ 8 then lane (4 * homeOf w) else [15]
  | 6 => if sel = 0 then [15] else if sel = 1 then 15 :: s.coreDies else s.coreDies
  | 7 => if sel = 2 then s.coreDies else [15]
  | 8 => s.coreDies
  | _ => [15]

/-- The stacks available (R444). -/
def State.stackOn (s : State) (n : Nat) : Bool := s.domOn (28 + n / 2) && s.domOn (4 * n)

/-- How many stacks are available. -/
def State.stacks (s : State) : Nat := ((List.range 4).filter s.stackOn).length

/-- The stack of the block at a place in the interleave of core-die spill (R15). -/
def State.stackAt (s : State) (place : Nat) : Nat :=
  let avail := (List.range 4).filter s.stackOn
  avail.getD (place % avail.length) 0

/-- The lane die that carries a host queue (R31). -/
def State.queueDie (s : State) (q : Nat) : Nat := s.get F.qhc_lane q / 256

/-- A number is a fault source (R418). -/
def isSource (n : Nat) : Bool :=
  if n ≤ 0x17FF then true
  else if n ≤ 0x1A7F then decide ((n - 0x1800) % 32 ≤ 16)
  else if 0x4000 ≤ n ∧ n ≤ 0x7FFF then true
  else if 0x8000 ≤ n ∧ n ≤ 0x80FF then
    let die := n / 16 % 16
    let k := n % 16
    if die ≤ 4 then decide (k = 0 ∨ k = 1 ∨ k = 2 ∨ k = 6)
    else if 8 ≤ die ∧ die ≤ 11 then decide (k ≤ 6)
    else if die = 15 then decide (k = 0 ∨ k = 1 ∨ k = 2 ∨ k = 6 ∨ k = 7 ∨ k = 8)
    else false
  else decide (0x9000 ≤ n ∧ n ≤ 0x9003)

/-- The switchable domains that hold a source's element (R426, R443); none for the always-on island. -/
def sourceDomains (n : Nat) : List Nat :=
  if n ≤ 0x0FFF then [n % 1024 / 64]
  else if n ≤ 0x13FF then [27]
  else if n ≤ 0x17FF then [n % 1024 / 64]
  else if n ≤ 0x1A7F then [16 + 2 * ((n - 0x1800) / 128) + (n - 0x1800) % 128 / 64]
  else if 0x8000 ≤ n ∧ n ≤ 0x80FF then
    let die := n / 16 % 16
    if die ≤ 4 then [16 + 2 * die, 17 + 2 * die]
    else if 8 ≤ die ∧ die ≤ 11 then
      if n % 16 = 5 then [28 + (die - 8) / 2] else [4 * (die - 8)]
    else []
  else []

/-- The domains of a source's element; those of a host queue are its home die's cluster 0. -/
def State.srcDomains (s : State) (n : Nat) : List Nat :=
  if 0x4000 ≤ n ∧ n ≤ 0x7FFF then [4 * s.queueDie (n - 0x4000)] else sourceDomains n

/-- An element whose domains are all off raises no fault (R430). -/
def State.srcOff (s : State) (n : Nat) : Bool :=
  let ds := s.srcDomains n
  !ds.isEmpty && ds.all fun d => !s.domOn d

/-- A fault on its way to the collector (R417, R422). -/
def raise (s : State) (source cause sub : Nat) (injected : Bool) : State :=
  if s.srcOff source then s
  else { s with flt := { s.flt with inflight := s.flt.inflight ++ [{ source := source, cause := cause, sub := sub, injected := injected }] } }

/-- A source at reset. -/
def SrcX.init : SrcX := { timer := none, present := false, sub := 0, injected := false }

/-- A die-level source (R418). -/
def dieSource (die k : Nat) : Nat := 0x8000 + die * 16 + k

/-- The Awl checker of a source checks a word: true while a count is pending, which falls by 1 (R440). -/
def awlTake (s : State) (source : Nat) : State × Bool :=
  match mget 0 s.flt.awl source with
  | 0 => (s, false)
  | n + 1 => ({ s with flt := { s.flt with awl := mset 0 s.flt.awl source n } }, true)

/-! ### Packets on the Saddle -/

/-- A packet passes its check on the link from one die into another, which ends the link's run of failures (R417). Entries of the run are
keyed (receiver × 16 + sender) × 1,024 + wire. -/
def linkDelivers (s : State) (rx tx : Nat) : State :=
  { s with flt := { s.flt with saddleRun := s.flt.saddleRun.filter fun e => e.1 / 1024 ≠ rx * 16 + tx } }

/-- The wires of a link with the most failures of its run (R417). -/
def worstWires (m : SMap Nat) (link : Nat) : List Nat :=
  let mine := m.filter fun e => e.1 / 1024 = link
  let most := mine.foldl (fun x e => max x e.2) 0
  (mine.filter fun e => e.2 = most).map fun e => e.1 % 1024

/-- A packet fails its check on a wire of the link from `tx` into `rx`, and is replayed; each run of 16 failures of one link raises a fault that names the
sending die and the wire that failed most often (R208, R417, R431). Of wires that failed equally often, which one is named is a free value. -/
def saddleFail (s : State) (rx tx wire : Nat) (injected : Bool) : State :=
  let link := rx * 16 + tx
  let run := mmod 0 s.flt.saddleRun (link * 1024 + wire) (· + 1)
  let total := sumOver (fun e => if e.1 / 1024 = link then e.2 else 0) run
  if total < 16 then { s with flt := { s.flt with saddleRun := run } }
  else
    let worst := worstWires run link
    let w := worst.getD ((Config.freeValue s.freeCount).toNat % worst.length) wire
    let s := { s with flt := { s.flt with saddleRun := run.filter fun e => e.1 / 1024 ≠ link }, freeCount := s.freeCount + 1 }
    raise s (dieSource rx 1) 0x05 (tx * 1024 + w) injected

/-- A packet from the die `tx` comes to the die `rx` and does `k` there, unless a count of Awl makes its check fail, on a wire that is a free value: then it
is replayed later (R208, R440). A packet that passes ends its link's run of failures. -/
def crosses (s : State) (rx tx : Nat) (k : State → State) : State :=
  if rx = tx then k s
  else
    let (t, bad) := awlTake s (dieSource rx 1)
    if bad then saddleFail { t with freeCount := t.freeCount + 1 } rx tx ((Config.freeValue s.freeCount).toNat % 1024) true
    else k (linkDelivers s rx tx)

/-- A word of the Erg of a stack is read, and once again if its check fails: true when both fail, as a count of Awl makes them (R417, R440). -/
def ergRead (s : State) (n : Nat) : State × Bool :=
  let (s, a) := awlTake s (dieSource (8 + n) 5)
  if a then awlTake s (dieSource (8 + n) 5) else (s, false)

/-- Hits or words lost by an element's uncorrectable errors (R442). -/
def dataLost (s : State) (source n : Nat) : State := s.satInc F.fss_data_lost source n

/-! ### Lanes, groups, partitions -/

/-- The initial lane. -/
def LaneX.init : LaneX :=
  { cap := none, capRun := 0, ackSeen := false, capDone := false, common := [], tryRate := 0, ready := false, result := none, enteredAt := 0, fill := 64000000, headers := [], ucw := [], mkCount := none, mkTick := 0, mkSeen := 0, mkBad := 0, trained := [], retired := false }

/-- The initial group. -/
def GroupX.init : GroupX :=
  { req := none, waitReq := [], nextRn := 0, nextRun := none, retrains := [], passed := [], crossedRun := 0, rxSeq := none, txSeq := 0, mkTx := 0, beacons := 0, distrust := 0, distrustSec := 0, isolated := false, lates := [], waitFrom := none, markerUp := false, lastMarker := none, recentTiles := [], mapAt := 0, mapFrom := 0, gaps := [] }

/-- The initial model. -/
def Model.init : Model :=
  { u := 0, d := 0, g := 0, fitted := false, window := [], sinceFit := 0, fitDue := none, held := [], enteredAt := 0, lastT2 := none, lastAccept := none, beacons := [], echoes := [], nextBn := 0, prevT1 := 0, busyUntil := 0 }

/-- A free transaction tag. -/
def Txn.init : Txn :=
  { st := .free, group := 0, op := 0, len := 0, addr := 0, part := 0, deadline := 0, stat := 0, pstatus := 0, data := [], quar := 0, isRetry := false, mate := none }

/-- An empty lane ingress queue. -/
def Ingress.init : Ingress := { frames := [], next := 0, pausing := false, repeatAt := 0, mid := 0, linesLost := 0 }

/-- A tile at reset. -/
def Tile.init : Tile :=
  { prov := [], k0 := 0, notice := 0, marks := [], hits := [], shed := [], late := [], closedAt := [], buf := 0, lastLevel := none, ring := [], ext := [], eh := 0, holds := false, frontier := 0, remap := none, dead := none, held := false, lastRemap := [] }

/-- A host lane at reset. -/
def HLane.init : HLane := { turn := 0, idleAt := none, txSeq := 0, replies := [], rx := [] }

/-- A lane behind its words. -/
def State.lane (s : State) (l : Nat) : LaneX := mget LaneX.init s.lanes l
/-- Changes a lane. -/
def State.setLane (s : State) (l : Nat) (x : LaneX) : State := { s with lanes := mset LaneX.init s.lanes l x }
/-- A group behind its words. -/
def State.group (s : State) (g : Nat) : GroupX := mget GroupX.init s.groups g
/-- Changes a group. -/
def State.setGroup (s : State) (g : Nat) (x : GroupX) : State := { s with groups := mset GroupX.init s.groups g x }
/-- A lane's model. -/
def State.model (s : State) (l : Nat) : Model := mget Model.init s.models l
/-- Changes a model. -/
def State.setModel (s : State) (l : Nat) (x : Model) : State := { s with models := mset Model.init s.models l x }
/-- A transaction tag. -/
def State.txn (s : State) (t : Nat) : Txn := mget Txn.init s.txns t
/-- Changes a tag. -/
def State.setTxn (s : State) (t : Nat) (x : Txn) : State := { s with txns := mset Txn.init s.txns t x }
/-- A group's lane ingress queue. -/
def State.ing (s : State) (g : Nat) : Ingress := mget Ingress.init s.ingress g
/-- Changes a lane ingress queue. -/
def State.setIng (s : State) (g : Nat) (x : Ingress) : State := { s with ingress := mset Ingress.init s.ingress g x }
/-- A logical tile. -/
def State.tile (s : State) (t : Nat) : Tile := mget Tile.init s.tiles t
/-- Changes a tile. -/
def State.setTile (s : State) (t : Nat) (x : Tile) : State := { s with tiles := mset Tile.init s.tiles t x }
/-- A host lane. -/
def State.hlane (s : State) (l : Nat) : HLane := mget HLane.init s.hlanes l
/-- Changes a host lane. -/
def State.setHlane (s : State) (l : Nat) (x : HLane) : State := { s with hlanes := mset HLane.init s.hlanes l x }

/-- LANE.state (R153). -/
def State.laneState (s : State) (l : Nat) : Nat := s.get F.lsa_state l
/-- A lane is host-facing. -/
def State.host (s : State) (l : Nat) : Bool := s.flag F.lane_role l
/-- The first configured lane of a lane's group (R170). -/
def State.groupOf (s : State) (l : Nat) : Nat := l - s.get F.grp_member l
/-- The configured width W (R142). -/
def State.groupWidth (s : State) (g : Nat) : Nat := 2 ^ s.get F.grp_width_cfg g
/-- The lanes of a group's span. -/
def State.span (s : State) (g : Nat) : List Nat := upTo g (s.groupWidth g)
/-- The group's operating run is UP. -/
def State.groupUp (s : State) (g : Nat) : Bool := s.flag F.grp_run_valid g
/-- The lanes of the operating run (R143). -/
def State.runLanes (s : State) (g : Nat) : List Nat :=
  if s.groupUp g then upTo (s.get F.grp_run_first g) (2 ^ (s.group g).mode.code) else []
/-- The partition that owns a group. -/
def State.groupOwner (s : State) (g : Nat) : Nat := s.get F.grp_owner g

/-- The lanes bound to a partition (R378, R382). -/
def State.bound (s : State) (part : Nat) : List Nat :=
  let slot := fun (w : Word) (i : Nat) => if bit w (16 * i + 15) then [bits w (16 * i + 9) (16 * i)] else []
  let w1 := s.word 12 1 part
  let w2 := s.word 12 2 part
  slot w1 3 ++ slot w1 2 ++ slot w1 1 ++ slot w1 0 ++ slot w2 3 ++ slot w2 2 ++ slot w2 1 ++ slot w2 0

/-- What leaves the package (log 3). -/
def send (s : State) (o : Out) : State := { s with out := s.out ++ [o] }

/-- A JTAG instruction that takes the pins (R501). -/
def takesPins (ir : Nat) : Bool := ir = 0x00 || ir = 0x03 || ir = 0x04 || ir = 0x05 || ir = 0x06

/-- The pins follow the boundary register (R502). -/
def State.tapDrives (s : State) : Bool := s.pw.resetLow && takesPins s.jtag.ir

/-- A cell of the boundary register. -/
def State.cell (s : State) (i : Nat) : Bool := mget 0 s.jtag.cells i = 1

/-- The boundary register leaves an open-drain pin high (R502, R503): its cell releases it, and HIGHZ releases every pin. -/
def State.tapReleases (s : State) (i : Nat) : Bool := s.jtag.ir = 0x04 || s.cell i

/-- The start-up phase (R466): 6 RUNNING, 7 RECOVERY. -/
def State.phase (s : State) : Nat := s.get F.pwg_phase 0

/-- The device drives its lane transmitters (R456): from RUNNING on; in RECOVERY no lane is on. -/
def State.drives (s : State) : Bool := !s.pw.resetLow && s.phase = 6

/-- What a lane sends, while the transmitters are driven. -/
def transmit (s : State) (o : Out) : State := if s.drives then send s o else s

/-- A lane sends `n` blocks; a filler goes among them where 1,024 blocks would have left without one (R139). A retired lane sends nothing
(R160). -/
def passBlocks (s : State) (l n : Nat) : State :=
  let x := s.lane l
  if s.laneState l = 10 || !s.drives then s
  else if 1024 ≤ x.sent + n then send (s.setLane l { x with sent := x.sent + n - 1023 }) (.block l 0x1E 0)
  else s.setLane l { x with sent := x.sent + n }

/-- A lane-local block leaves (R172). -/
def sendBlock (s : State) (l type content : Nat) : State :=
  if s.laneState l = 10 then s else transmit (passBlocks s l 1) (.block l type content)

/-- The blocks of `n` that lane `i` of a run of `w` lanes gets when they are dealt round-robin from a place in the run on (R143). -/
def dealtTo (w place i n : Nat) : Nat := (n + (w - 1) - (i + w - place % w) % w) / w

/-- A group sends `n` blocks of a frame, dealt round-robin to the lanes of its run, lowest lane first (R143). -/
def dealBlocks (s : State) (g n : Nat) : State :=
  let run := s.runLanes g
  let place := (s.group g).dealt
  let s := run.foldl (fun s l => passBlocks s l (dealtTo run.length place (l - run.headD 0) n)) s
  s.setGroup g { s.group g with dealt := (place + n) % run.length }

/-- A frame leaves on a host lane: kind, and bits [35:0] of its frame start content (R174, R355, R357). -/
def sendHost (s : State) (lane kind low : Nat) (ws : List Word) : State :=
  let h := s.hlane lane
  let g := s.groupOf lane
  let start := frameStart h.txSeq kind low
  let t := dealBlocks (s.setHlane lane { h with txSeq := (h.txSeq + 1) % 65536 }) g (ws.length + 2)
  transmit t (.hostFrame lane start ws (frameEnd start ws) (s.group g).dealt)

/-! ### Replies and command channels -/

/-- A free channel (R382: busy_op 0xFF). -/
def Busy.init : Busy := { op := 0xFF, since := 0 }

/-- A partition's command channel. -/
def State.chan (s : State) (p : Nat) : Busy := mget Busy.init s.cmd.chans p
/-- Sets a partition's command channel. -/
def State.setChan (s : State) (p : Nat) (b : Busy) : State :=
  { s with cmd := { s.cmd with chans := mset Busy.init s.cmd.chans p b } }
/-- Frees a partition's command channel: its reply has left, and a binding that waited for that holds from now on (R378). -/
def freeChan (s : State) (p : Nat) : State :=
  let t := s.setChan p Busy.init
  if p = 0 then { t with cmd := { t.cmd with binding := none } } else t
/-- A channel is busy, by its own command or by a system-wide operation (R383, R386). -/
def State.chanBusy (s : State) (p : Nat) : Bool := (s.chan p).op ≠ 0xFF || s.cmd.sysOp.isSome

/-- The status codes of R415. -/
def stOk : Nat := 0x00
def stBusy : Nat := 0x01
def stBadOpcode : Nat := 0x02
def stBadParam : Nat := 0x03
def stNotOwner : Nat := 0x04
def stStagedConflict : Nat := 0x05
def stLinkDown : Nat := 0x06
def stOutcomeUnknown : Nat := 0x07
def stNoResource : Nat := 0x08
def stRetired : Nat := 0x09
def stTimeout : Nat := 0x0A
def stCalRejected : Nat := 0x0B
def stCausePresent : Nat := 0x0C
def stInternal : Nat := 0x0F

/-- The reply header of R374. -/
def replyHeader (op part tag words stat more detail : Nat) : Word :=
  pack [(63, 56, op), (55, 48, part), (47, 32, tag), (31, 24, words), (23, 16, stat), (15, 15, more), (14, 0, detail)]

/-- The packets of a reply, at most 255 words each, every one but the last with more = 1 (R375). -/
def replyPackets (fuel op part tag stat detail : Nat) (ws : List Word) : List (List Word) :=
  match fuel with
  | 0 => []
  | n + 1 =>
    if ws.length ≤ 255 then [replyHeader op part tag ws.length stat 0 detail :: ws]
    else (replyHeader op part tag 255 stat 1 detail :: ws.take 255)
      :: replyPackets n op part tag stat detail (ws.drop 255)

/-- A lane can carry a reply: it is UP (R368). -/
def State.laneUp (s : State) (l : Nat) : Bool := s.laneState l = 5

/-- Queues a reply on the lane or port of arrival; a reply whose lane has left UP is discarded (R367, R368). -/
def sendReply (s : State) (c : Cmd) (op stat detail : Nat) (ws : List Word) (frees : Bool) : State :=
  let r : Reply := { part := c.part, packets := replyPackets (ws.length + 1) op c.part c.tag stat detail ws, frees := frees }
  match c.lane with
  | none => { s with cmd := { s.cmd with smpOut := s.cmd.smpOut ++ [r] } }
  | some l =>
    if s.laneUp l then s.setHlane l { s.hlane l with replies := (s.hlane l).replies ++ [r] }
    else if frees then freeChan s c.part else s

/-- Ends a command: its channel stays busy with it until the reply has left (R383). -/
def finish (s : State) (c : Cmd) (op stat detail : Nat) (ws : List Word) : State :=
  let since := if (s.chan c.part).op = 0xFF then s.tb.tick else (s.chan c.part).since
  sendReply (s.setChan c.part { op := op, since := since }) c op stat detail ws true

/-- What row 7 of R377 makes of a command. -/
inductive Result where
  /-- refused by a check, nothing changed -/
  | fail (stat detail : Nat) (words : List Word)
  /-- accepted and answered at once -/
  | done (s : State) (stat detail : Nat) (words : List Word)
  /-- accepted; the channel stays busy until a later step answers (R387) -/
  | later (s : State)
  /-- accepted; replies without busy (R388) -/
  | loose (s : State)
  /-- accepted as a system-wide operation: every channel is busy until a later step answers (R386) -/
  | system (s : State)

/-- The word of an ST_BUSY reply (R384). -/
def busyWord (s : State) (part : Nat) : Word :=
  match s.cmd.sysOp with
  | some o => pack [(63, 56, o.op), (55, 48, o.cmd.part), (47, 47, 1), (31, 0, min (2 ^ 32 - 1) ((s.tb.tick - o.since) / 1600))]
  | none => pack [(63, 56, (s.chan part).op), (55, 48, part), (31, 0, min (2 ^ 32 - 1) ((s.tb.tick - (s.chan part).since) / 1600))]

/-- Requesters that must each have a grant within so many can all have it (R22). -/
def canWait (rems : List Nat) : Bool :=
  ((sortBy (fun (a b : Nat) => decide (a ≤ b)) rems).zip (upTo 1 rems.length)).all fun e => decide (e.2 ≤ e.1)

/-- The requester that an arbiter of `n` grants of those that wait (R21, R22): the one named, unless another could not then have its grant within `n` of
the moment it began to wait. -/
def State.granted (s : State) (arbiter n : Nat) (waiting : List Nat) (named : Nat) : Nat :=
  let left := fun (r : Nat) => n - mget 0 (mget [] s.grants arbiter) r
  if canWait ((waiting.filter (· ≠ named)).map fun r => left r - 1) then named
  else waiting.foldl (fun m r => if left r < left m then r else m) named

/-- An arbiter has granted a requester: the others that wait have seen one more grant (R22). -/
def noteGrant (s : State) (arbiter : Nat) (waiting : List Nat) (got : Nat) : State :=
  let old := mget [] s.grants arbiter
  { s with grants := mset [] s.grants arbiter ((waiting.filter (· ≠ got)).foldl (fun m r => mset 0 m r (mget 0 old r + 1)) []) }

/-- The engines can take a command: the device runs, they are not resynchronising, and the lane is a host lane (R367, R369, R417,
R456). A frame taken from the buffer may have come on a lane that has left UP since. -/
def canArrive (s : State) (c : Cmd) : Bool :=
  (s.phase = 6 || (s.phase = 7 && c.lane.isNone)) && !s.pw.resetLow && !s.cmd.resync &&
    match c.lane with
    | none => true
    | some l => s.host l

/-- A lane is bound to a partition for commands that arrive now: a binding applies once the reply to its PARTITION_BIND has left (R378). -/
def State.boundNow (s : State) (p l : Nat) : Bool :=
  match s.cmd.binding with
  | some (q, m, on) => if q = p && m = l then !on else (s.bound p).contains l
  | none => (s.bound p).contains l

/-- The lane or port of arrival is bound to the partition (R370, R377 row 3). A frame from a lane's buffer is judged by the bindings at its
arrival (R378). -/
def isBound (s : State) (c : Cmd) : Bool :=
  match c.lane with
  | none => c.part = 0
  | some l => s.cmd.heard.getD (s.boundNow c.part l)

/-- The opcodes an unclaimed partition may use (R377 row 6). -/
def openOpcode (op : Nat) : Bool := op = 0x00 || op = 0x01 || op = 0x02 || op = 0x08

/-- The opcodes of recovery (R464). -/
def recoveryOpcode (op : Nat) : Bool := op = 0x00 || op = 0x01 || op = 0x02 || op = 0x70

/-- Gives effect to what row 7 answers (R377, R382, R383). -/
def settle (s : State) (c : Cmd) (op : Nat) (r : Result) : State :=
  match r with
  | .fail st d ws => finish (if st = stBusy then s.satInc F.part3_busy_replies c.part 1 else s) c op st d ws
  | .done t st d ws => finish (t.satInc F.part3_accepted c.part 1) c op st d ws
  | .later t => (t.satInc F.part3_accepted c.part 1).setChan c.part { op := op, since := s.tb.tick }
  | .loose t => t.satInc F.part3_accepted c.part 1
  | .system t =>
    let t := (t.satInc F.part3_accepted c.part 1).setChan c.part { op := op, since := s.tb.tick }
    { t with cmd := { t.cmd with sysOp := some { op := op, cmd := c, since := s.tb.tick } } }

/-- A compare of the engines' lockstep fails (R416, R417): the engines resynchronise, and a fault is raised. -/
def lockstepFault (s : State) (injected : Bool) : State :=
  raise { s with cmd := { s.cmd with resync := true } } (dieSource 15 7) 0x03 0 injected

/-- A command whose compare failed is answered ST_INTERNAL, which raises a fault of its own (R416). -/
def internalFault (s : State) (c : Cmd) (op : Nat) : State := raise (finish s c op stInternal 0 []) (dieSource 15 8) 0x15 0 false

/-- A command is taken by the engines: rows 3 to 6 of R377 in order, then row 7 (`body`). A count of Awl for the lockstep makes the compare of the next command
that reaches row 7 fail, so that it is abandoned (R416, R440). -/
def runCmd (op : Nat) (c : Cmd) (body : State → Result) (s : State) : State :=
  if !canArrive s c then s
  else
    let s := advanceTo s c.tick
    if !isBound s c then sendReply (s.satInc F.part3_not_owner c.part 1) c op stNotOwner 0 [] false
    else if s.chanBusy c.part then
      sendReply (s.satInc F.part3_busy_replies c.part 1) c op stBusy 0 [busyWord s c.part] false
    else if s.phase = 7 && !recoveryOpcode op then finish s c op stBadOpcode 0 []
    else if !(c.part = 0 || s.flag F.part0_claimed c.part || openOpcode op) then
      finish (s.satInc F.part3_not_owner c.part 1) c op stNotOwner 0 []
    else if (awlTake s (dieSource 15 7)).2 then internalFault (lockstepFault (awlTake s (dieSource 15 7)).1 true) c op
    else settle s c op (body s)

/-- Row 7, stages 1 and 3 of R508 for a command: partition 0 alone where `sys`, then the reserved header bits, and no fewer parameter words
than `count`; `noMore` follows the checks of the words, which have lower numbers than a surplus one. -/
def checked (c : Cmd) (sys : Bool) (count : Nat) (k : Result) : Result :=
  if sys && c.part ≠ 0 then .fail stNotOwner 0 []
  else if c.resv ≠ 0 then .fail stBadParam 0 []
  else if c.params.length < count then .fail stBadParam 0 []
  else k

/-- A parameter word has a 1 outside the given fields (R6). -/
def stray (w : Word) (fs : List (Nat × Nat)) : Bool :=
  w &&& ~~~(fs.foldl (fun m f => m ||| fieldMask f.1 f.2) 0#64) ≠ 0#64

/-- Refuses when a condition holds, otherwise goes on. -/
def refuseIf (b : Bool) (stat detail : Nat) (k : Result) : Result := if b then .fail stat detail [] else k

/-- A surplus parameter word, the last of the checks of stage 3 (R508). -/
abbrev noMore (c : Cmd) (count : Nat) (k : Result) : Result := refuseIf (decide (count < c.params.length)) stBadParam (count + 1) k

/-- The changes of a word, the latest first: the full count of each and the word before it. -/
def Prev.changes (p : Prev) : List (Nat × Word) := (p.full, p.old) :: p.older

/-- The value at a full count of a word that is `w` after its latest change. -/
def valueAt : List (Nat × Word) → Word → Nat → Word
  | [], w, _ => w
  | (f, b) :: rest, w, x => if f ≤ x then w else valueAt rest b x

/-- The value of a word that applies to a device time: an earlier one before its last change (R407). -/
def State.wordFor (s : State) (obj sel idx full : Nat) : Word :=
  match mfind s.cmd.prev (wkey obj sel idx) with
  | some p => valueAt p.changes (s.word obj sel idx) full
  | none => s.word obj sel idx

/-- The changes of a word, the latest first. -/
def State.changesOf (s : State) (obj sel idx : Nat) : List (Nat × Word) := ((mfind s.cmd.prev (wkey obj sel idx)).map fun p => p.changes).getD []

/-- A word with the given changes passes a test at some time from `a` through `b`. -/
def everIn (p : Word → Bool) (changes : List (Nat × Word)) (w : Word) (a b : Nat) : Bool :=
  p (valueAt changes w a) || changes.any fun e => decide (a < e.1) && decide (e.1 ≤ b) && p (valueAt changes w e.1)

/-- A word passes a test at some time from `a` through `b`. -/
def State.everWord (s : State) (obj sel idx a b : Nat) (p : Word → Bool) : Bool :=
  everIn p (s.changesOf obj sel idx) (s.word obj sel idx) a b

/-- A field of the word that applies to a device time. -/
def State.getFor (s : State) (f : Field) (idx full : Nat) : Nat :=
  bits (s.wordFor f.obj f.sel idx full) f.hi f.lo

/-- A die's own copy of a word that several dies use, where WRITE_LIVE has written it (R395). -/
def State.copyOf (s : State) (die obj sel idx : Nat) : Option DieCopy := mfind (mget [] s.cmd.copies (wkey obj sel idx)) die

/-- The word as a die holds it for a device time: each die keeps its own previous values (R395, R398, R405, R407). -/
def State.dieWord (s : State) (die obj sel idx full : Nat) : Word :=
  match s.copyOf die obj sel idx with
  | some c => valueAt c.changes c.word full
  | none => s.wordFor obj sel idx full

/-- A word as a die holds it passes a test at some time from `a` through `b`. -/
def State.dieEver (s : State) (die obj sel idx a b : Nat) (p : Word → Bool) : Bool :=
  match s.copyOf die obj sel idx with
  | some c => everIn p c.changes c.word a b
  | none => s.everWord obj sel idx a b p

/-- A field of the word as a die holds it for a device time. -/
def State.dieGet (s : State) (die : Nat) (f : Field) (idx full : Nat) : Nat :=
  bits (s.dieWord die f.obj f.sel idx full) f.hi f.lo

/-! ### Live, staged and latest copies -/

/-- The bits of a word's fields with one of the given accesses. -/
def maskOf (sp : List Spec) (acc : List Access) : Word :=
  sp.foldl (fun m f => if acc.contains f.acc then m ||| fieldMask f.hi f.lo else m) 0#64

/-- The staged bits of a word. -/
def stMask (obj sel : Nat) : Word := maskOf (wordSpec obj sel) [.st]

/-- The live copy of a word: as in force, or as WRITE_LIVE has left it (R389). -/
def State.liveCopy (s : State) (obj sel idx : Nat) : Word :=
  match mfind s.cmd.written (wkey obj sel idx) with
  | some w => merge (s.word obj sel idx) w.word (stMask obj sel)
  | none => s.word obj sel idx

/-- The words of the Cinches for which GO has been sent, the latest first (R394, R399). -/
def goneWord : List Gone → Nat → Option Word
  | [], _ => none
  | g :: rest, k =>
    match goneWord rest k with
    | some w => some w
    | none => mfind g.words k

/-- A word as it stands after every CINCH for which GO has been sent (R394). -/
def State.latest (s : State) (obj sel idx : Nat) : Word :=
  match goneWord s.cmd.gone (wkey obj sel idx) with
  | some w => merge (s.liveCopy obj sel idx) w (stMask obj sel)
  | none => s.liveCopy obj sel idx

/-- A field as it stands after every CINCH for which GO has been sent: in the checks of commands a word counts as changed from then on (R392). -/
def State.getLatest (s : State) (f : Field) (idx : Nat) : Nat := bits (s.latest f.obj f.sel idx) f.hi f.lo

/-- The partition that owns a group, for the checks of commands (R392). -/
def State.ownerOf (s : State) (g : Nat) : Nat := s.getLatest F.grp_owner g

/-- A lane is host-facing, for the checks of commands (R392). -/
def State.hostOf (s : State) (l : Nat) : Bool := s.getLatest F.lane_role l = 1

/-- The channel that a comparator is bound to while it is enabled, for the checks of commands (R97, R392). -/
def State.boundOf (s : State) (ci : Nat) : Option Nat :=
  if s.getLatest (F.pcmp_en.at (ci % 2)) (ci / 2) = 1 then some (s.getLatest (F.pcmp_chan_id.at (ci % 2)) (ci / 2)) else none

end Sys2Proof.Machine
end

