-- ==== Sys2Proof/Machine/Channel.lean ====
section
/-! DEFINITION. What a channel ID stands for at a device time: its words, its tile and slot, its shed class, and the
comparator bound to it (R23, R27, R97, R233, R235, R434). `full` is epoch × 2^54 + coarse of the hit's time. -/

namespace Sys2Proof.Machine

/-- CHAN.mode for hits of a device time (R246, R407). -/
def State.modeAt (s : State) (c full : Nat) : Nat := s.getFor F.chan_mode c full

/-- The host queue a channel's records go to. -/
def State.chanQueue (s : State) (c full : Nat) : Nat := s.getFor F.chan_part c full * 64 + s.getFor F.chan_queue c full

/-- A 23-bit number is a channel ID (R7). -/
def validChan (c : Nat) : Bool := c < 5 * 2 ^ 20

/-- The fault source of a physical tile (R418). -/
def physSource (die cluster phys : Nat) : Nat := 0x1800 + die * 128 + cluster * 32 + phys

/-- The map of a logical tile for a device time, state and physical tile: at or after the boundary of an accepted change the changed one (R26). -/
def State.mapFor (s : State) (tile full : Nat) : Nat × Nat :=
  let old := (s.getFor F.tileMap_state tile full, s.getFor F.tileMap_phys tile full)
  match (s.tile tile).remap with
  | some r =>
    match r.full with
    | some b => if b ≤ full then (r.state, r.phys) else old
    | none => old
  | none => old

/-- The fault source of the physical tile that serves a logical tile. -/
def State.tileSource (s : State) (tile full : Nat) : Nat :=
  physSource (tile / 64) (tile % 64 / 16) (s.mapFor tile full).2

/-- A logical tile is in state 0b10 (R27). -/
def State.tileGone (s : State) (tile full : Nat) : Bool := (s.mapFor tile full).1 = 2

/-- The slots retired on a physical tile (R434). -/
def State.retiredSlots (s : State) (src : Nat) : List Nat :=
  (upTo 4 31).filterMap fun sel =>
    let w := s.word 11 sel src
    if bit w 63 then some (bits w 13 0) else none

/-- The channel's slot is retired on the physical tile that serves it (R434). -/
def State.slotGone (s : State) (c full : Nat) : Bool :=
  (s.retiredSlots (s.tileSource (chanTile c) full)).contains (c % 16384)

/-- A channel is retired: its tile or its slot (R27, R434). -/
def State.chanGone (s : State) (c full : Nat) : Bool := s.tileGone (chanTile c) full || s.slotGone c full

/-- The shed class of a channel (R233): 0 monitor, 1 stats-only, 2 protected, by its words at the latest Cinch. -/
def State.shedClass (s : State) (c full : Nat) : Nat :=
  let b := (s.cmd.cinchAt.find? fun b => decide (b ≤ full)).getD 0
  if 2 ≤ s.getFor F.filt_decim c b then 0 else if s.modeAt c b = 3 then 1 else 2

/-- A tile's shed level was at least `level` at some moment of a caravan, by its frontier (R236): at the caravan's start, or after a change within
it. -/
def Tile.levelIn (x : Tile) (k level : Nat) : Bool :=
  (x.levels.any fun e => decide (e.1 / 4194304 = k) && decide (level ≤ e.2)) ||
    match x.levels.find? fun e => decide (e.1 ≤ k * 4194304) with
    | some e => decide (level ≤ e.2)
    | none => false

/-- Notes of a caravan at a tile (R236, R303): bit 0 its shed level was 2 or 3, bit 1 it was 3, bit 2 a protected hit was shed, bit 3 a hit was. -/
def noteShed (s : State) (tile k level bits : Nat) : State :=
  let x := s.tile tile
  s.setTile tile { x with shed := mset 0 x.shed k (Nat.lor (b2n (2 ≤ level) + 2 * b2n (3 ≤ level) + bits) (mget 0 x.shed k)) }

/-- Counts a shed hit in the tile's counter for its class (R235) and notes the caravan in which it fell, with the tile's own shed level (R236,
R303). -/
def countShed (s : State) (c full level : Nat) : State :=
  let tile := chanTile c
  let cls := s.shedClass c full
  let s := match cls with
    | 0 => s.satInc F.tmb_shed_monitor tile 1
    | 1 => s.satInc F.tmb_shed_stats tile 1
    | _ => s.satInc F.tmcs_shed_protected tile 1
  noteShed s tile (full / 4096) level (4 * b2n (cls = 2) + 8)

/-- The channel a comparator is bound to while it is enabled, for a device time (R97). -/
def State.boundChanAt (s : State) (ci full : Nat) : Option Nat :=
  if s.getFor (F.pcmp_en.at (ci % 2)) (ci / 2) full = 1 then some (s.getFor (F.pcmp_chan_id.at (ci % 2)) (ci / 2) full) else none

/-- The channel a comparator is bound to now. -/
def State.boundChan (s : State) (ci : Nat) : Option Nat := s.boundChanAt ci s.full

/-- At a full count an input is routed to a reference (R41). -/
def State.routed (s : State) (i full : Nat) : Bool := decide (60 ≤ i) && s.getFor F.refsel0_xmeas_en 0 full = 1

/-- The initial comparator. -/
def Comp.init : Comp :=
  { lastStamped := none, lastTrail := false, lastRaw := none, run := 0, nextSlot := 0, windows := [], held := [], slots := [], openPulse := none, recent := [] }
/-- A comparator. -/
def State.comp (s : State) (ci : Nat) : Comp := mget Comp.init s.comps ci
/-- Changes a comparator. -/
def State.setComp (s : State) (ci : Nat) (x : Comp) : State := { s with comps := mset Comp.init s.comps ci x }
/-- The initial input. -/
def Input.init : Input := { overTo := none, armed := none, wait := [] }
/-- An input. -/
def State.inp (s : State) (i : Nat) : Input := mget Input.init s.inputs i
/-- Changes an input. -/
def State.setInp (s : State) (i : Nat) (x : Input) : State := { s with inputs := mset Input.init s.inputs i x }
/-- A group of inputs. -/
def State.pgroup (s : State) (g : Nat) : PGroup := mget { opened := false, toFull := none } s.pgroups g
/-- Changes a group of inputs. -/
def State.setPgroup (s : State) (g : Nat) (x : PGroup) : State :=
  { s with pgroups := mset { opened := false, toFull := none } s.pgroups g x }

/-- The stamps of a reference at the start of a second. -/
def RegSum.init : RegSum := { next := 0, base := 0, n := 0, k1 := 0, k2 := 0, t1 := 0, kt := 0 }

/-- A stamp at `t` fine LSB joins the regression of its second, or is left out for DISTURBED and only numbered (R42, R89). -/
def RegSum.add (a : RegSum) (t : Nat) (skip : Bool) : RegSum :=
  let base := if a.next = 0 then t else a.base
  let d := t - base
  if skip then { a with next := a.next + 1, base := base }
  else { next := a.next + 1, base := base, n := a.n + 1, k1 := a.k1 + a.next, k2 := a.k2 + a.next * a.next, t1 := a.t1 + d, kt := a.kt + a.next * d }

/-- A stamp of a reference routed to the reference monitor (R41): REF_A, REF_B, REF_C and the holdover oscillator are 0 to 3. -/
def monitorStamp (s : State) (r t : Nat) (disturbed : Bool) : State :=
  { s with rf := { s.rf with sums := mmod RegSum.init s.rf.sums r fun a => a.add t disturbed } }

/-- Adds to the anchor precision drop count of a channel's core die (R333, R235, R244). -/
def dropPrec (s : State) (c : Nat) : State := s.satInc F.qan_prec_drops (c / 2 ^ 20) 1

/-- A precision hit leaves for its tile: mode off, a retired tile or slot, a tile whose domain is off, shedding, and a full
anchor precision queue discard and count it (R27, R81, R235, R244, R333, R434). -/
def sendPrec (s : State) (h : THit) : State :=
  let full := h.time / 1024
  let tile := chanTile h.chan
  let level := s.get F.tmd_shed_level tile
  let die := h.chan / 2 ^ 20
  let q := mget [] s.anchorQ die
  if s.modeAt h.chan full = 0 then dropPrec s h.chan
  else if s.chanGone h.chan full || !s.domOn (tileDomain tile) then dropPrec s h.chan
  else if s.shedClass h.chan full < level then dropPrec (countShed s h.chan full level) h.chan
  else if 4096 ≤ q.length then dropPrec s h.chan
  else ({ s with anchorQ := mset [] s.anchorQ die (q ++ [h]) }).put F.qan_fill die (q.length + 1)

end Sys2Proof.Machine
end

