-- ==== Sys2Proof/Machine/Precision.lean ====
section
/-! DEFINITION. Precision inputs and their pools (03_interpolators.md, R70 to R106). A comparator is `input × 2 + comparator`,
an interpolator `comparator × 4 + slot` (R32). Edge times since reset and in device time are 1/100 fine LSB. -/

namespace Sys2Proof.Machine

/-- The precision-input island is on (R74). -/
def State.inputLive (s : State) (_i : Nat) : Bool := s.domOn 27

/-- An interpolator is in service: calibration state TRACK (R122). -/
def State.inService (s : State) (n : Nat) : Bool := s.get F.cala_state n = 3

/-! ### Interpolators and samples -/

/-- The initial interpolator. -/
def Interp.init : Interp :=
  { hist := [], n := 0, liveTaps := [], liveHist := [], liveN := 0, setMax := 0, setStep := 0, rejRun := 0, err := 0, inForce := none, prior := none, waiting := none, first := none, holdSets := 0, sel := { taps := upTo 0 32, slowStage := 0, fastStage := 0, dacs := [] }, prevSel := none, lockAt := none, abandonAt := none, meanDelay := 0 }
/-- An interpolator. -/
def State.interp (s : State) (n : Nat) : Interp := mget Interp.init s.interps n
/-- Changes an interpolator. -/
def State.setInterp (s : State) (n : Nat) (x : Interp) : State := { s with interps := mset Interp.init s.interps n x }

/-- The samples of a set (R111): 2^CALSET.samples_log2 as it was when the set began (R127). -/
def State.setSize (s : State) (n : Nat) : Nat :=
  let x := s.interp n
  if x.n = 0 then 2 ^ s.get F.calg_samples_log2 0 else x.setMax

/-- Adds a sample of raw code `c` to the set in progress, unless the set is complete (R111). -/
def addSample (s : State) (n c : Nat) (live : Bool) : State :=
  let x := s.interp n
  let size := s.setSize n
  if size ≤ x.n then s
  else
    let step := if x.n = 0 then s.get F.calg_max_step 0 else x.setStep
    let x := { x with setMax := size, setStep := step, n := x.n + 1, hist := mmod 0 x.hist c (· + 1) }
    if live then s.setInterp n { x with liveN := x.liveN + 1, liveTaps := mmod 0 x.liveTaps (c / 32) (· + 1), liveHist := mmod 0 x.liveHist c (· + 1) }
    else s.setInterp n x

/-- The pending samples of a precision interpolator whose over-rate window has ended join the set, less those of a window that was over rate
(R85, R107) and live ones while the live part is held off (R110). -/
def flushSamples (s : State) (n : Nat) : State :=
  let x := s.interp n
  let done := fun (p : PendSample) => decide ((p.full / 256 + 1) * 256 ≤ s.full)
  let excl := fun (p : PendSample) => (mget { count := 0, overRate := false } (s.comp (n / 4)).windows (p.full / 256)).overRate
  let s := s.setInterp n { x with pend := x.pend.filter fun p => !done p }
  (x.pend.filter fun p => done p && !excl p && !(p.live && x.holdSets ≠ 0)).foldl (fun s p => addSample s n p.code p.live) s

/-- A sample of a precision interpolator waits for the end of its over-rate window (R107); those that no longer wait join the set. -/
def pendSample (s : State) (n full code : Nat) (live : Bool) : State :=
  let s := flushSamples s n
  s.setInterp n { s.interp n with pend := (s.interp n).pend ++ [{ full := full, code := code, live := live }] }

/-- The pending samples of a comparator's interpolators that a window excludes are discarded (R107). -/
def dropPend (s : State) (ci : Nat) (bad : Nat → Bool) : State :=
  (upTo (ci * 4) 4).foldl (fun s n => s.setInterp n { s.interp n with pend := (s.interp n).pend.filter fun p => !bad p.full }) s

/-! ### The pool -/

/-- The longest conversion, 7.0 ns, in edge-time units (R76). -/
def convMax : Nat := 1146880

/-- How long a conversion of raw code `c` keeps its interpolator busy, in edge-time units (R76): 1.24 ns and n = 32 − v slow-ring periods, the
period in 0.01 ps, and never more than 7.0 ns. -/
def convTime (c period : Nat) : Nat := min convMax ((124000 + (32 - c % 32) * period) * 16384 / 10000)

/-- A slot is free at an edge time since reset: no conversion runs in it whose result is still to come, and none runs longer than 7.0 ns
(R76). -/
def Comp.slotFree (x : Comp) (k raw : Nat) : Bool := (mget [] x.slots k).all fun c => decide (c.raw + convMax ≤ raw)

/-- The first free, in-service slot of a pool at an edge time since reset, searching upward with wrap-around from `nextSlot` (R78). -/
def State.freeSlot (s : State) (ci raw : Nat) : Option Nat :=
  let x := s.comp ci
  ((upTo 0 4).map fun k => (x.nextSlot + k) % 4).find? fun k => s.inService (ci * 4 + k) && x.slotFree k raw

/-- A field of a comparator's word for a device time. -/
def State.cmpFor (s : State) (f : Field) (ci full : Nat) : Nat := s.getFor (f.at (ci % 2)) (ci / 2) full

/-- A comparator converts for the foreground at a device time, so that its transitions count (R72). -/
def State.foreground (s : State) (ci full : Nat) : Bool := s.cmpFor F.pcmp_en ci full = 1

/-- CHAN.pi_offset of a comparator for a device time, in 1/16 fine LSB. -/
def State.piOffset (s : State) (ci full : Nat) : Int := toSigned 16 (s.cmpFor F.pcmp_pi_offset ci full)

/-- The stamp of an edge at a position in sixteenths of a fine LSB after its tick (R75): halves rounded up. -/
def State.stampAt (s : State) (ci full : Nat) (position : Nat) : Int :=
  roundHalfUp ((full : Int) * 16384 + position + s.piOffset ci full) 16

/-- A precision stamp's time as a device time. -/
def precTime (t : Int) : Nat := ofSigned 80 t

/-- The flags of a stamp as a HIT carries them (R360). -/
def Stamp.flags (x : Stamp) : Nat := 4 * b2n x.coarseOnly + 2 * b2n x.disturbed + b2n x.overdrive

/-! ### Interval mode -/

/-- The start comparator of an input in interval mode (R93). -/
def State.ivStart (s : State) (i full : Nat) : Nat := i * 2 + s.getFor F.pin_ival_start_cmp i full
/-- The stop comparator of an input in interval mode (R93). -/
def State.ivStop (s : State) (i full : Nat) : Nat :=
  s.getFor F.pin_ival_stop_in i full * 2 + s.getFor F.pin_ival_stop_cmp i full

/-- An armed interval ends in a TIMEOUT (R95, R96): a HIT_X with the start stamp on the start channel. -/
def ivTimeout (s : State) (i : Nat) (a : IvEdge) (t : Int) (overRate : Bool) : State :=
  let s := s.satInc (F.pstb_ival_timeouts.at (a.comp % 2)) (a.comp / 2) 1
  let s := s.setInp i { s.inp i with armed := none }
  match s.boundChanAt a.comp (precTime t / 1024) with
  | some c => sendPrec s { chan := c, time := precTime t, tot := 0, flags := a.flags, merged := a.merged, overRate := overRate, timeout := true, transitions := 0, src := 1024, frame := 0, mirage := 0, ref := 0 }
  | none => s

/-- An interval is complete (R94): it goes to the histogram of its start channel with the union of both stamps' flags (R263), unless an edge of it
lies in an over-rate window (R86). -/
def ivDone (s : State) (i : Nat) (a b : IvEdge) (ta tb : Int) : State :=
  let s := s.setInp i { s.inp i with armed := none }
  match if a.out || b.out then none else s.boundChanAt a.comp (precTime ta / 1024) with
  | some c => { s with ivals := mset [] s.ivals c (mget [] s.ivals c ++ [{ stop := precTime tb, value := (tb - ta).toNat, flags := Nat.lor a.flags b.flags, merged := a.merged || b.merged, ends := [(a.comp, a.edge), (b.comp, b.edge)] }]) }
  | none => s

/-- The last stamp with which a stop completes an interval: CHAN.ival_timeout ticks after the start stamp (R95). -/
def State.ivLimit (s : State) (i : Nat) (ta : Int) : Int := ta + s.getFor F.pin_ival_timeout i (precTime ta / 1024) * 1024

/-- Starts, stops and over rate act on interval mode in the order of their edges, once their stamps are known (R94 to R96). What comes after the
limit of R95 finds the interval ended in its timeout. -/
def ivSettle : Nat → State → Nat → State
  | 0, s, _ => s
  | n + 1, s, i =>
    let x := s.inp i
    match x.armed, x.wait with
    | none, [] => s
    | none, e :: rest =>
      if e.start then ivSettle n (s.setInp i { x with armed := some e, wait := rest }) i
      else ivSettle n (s.setInp i { x with wait := rest }) i
    | some a, w =>
      match a.time with
      | none => s
      | some ta =>
        match w with
        | [] => if a.due then ivTimeout s i a ta false else s
        | e :: rest =>
          match e.time with
          | none => s
          | some tb =>
            if s.ivLimit i ta < tb then ivSettle n (ivTimeout s i a ta false) i
            else
              let s := s.setInp i { x with wait := rest }
              if e.ended then ivSettle n (ivTimeout s i a ta true) i
              else if e.start || decide (tb < ta) then ivSettle n s i
              else ivSettle n (ivDone s i a e ta tb) i

/-- Settles every input with an interval in progress. -/
def ivSettleAll (s : State) : State :=
  s.inputs.foldl (fun s e => ivSettle (2 * e.2.wait.length + 3) s e.1) s

/-- A stamped leading edge is a start or a stop of each input in interval mode that names its comparator (R93). -/
def ivEdge (s : State) (ci full edge : Nat) (time : Option Int) (flags : Nat) : State :=
  (upTo 0 64).foldl (fun s i =>
    if s.getFor F.pin_ival_en i full = 1 then
      let add := fun (s : State) (start : Bool) =>
        s.setInp i { s.inp i with wait := (s.inp i).wait ++ [{ start := start, comp := ci, edge := edge, time := time, flags := flags, merged := false, ended := false }] }
      if s.ivStart i full = ci then add s true else if s.ivStop i full = ci then add s false else s
    else s) s

/-- The stamp of an edge has become known: interval mode learns its time. -/
def ivKnown (s : State) (ci edge : Nat) (time : Int) (flags : Nat) : State :=
  let upd := fun (e : IvEdge) => if e.comp = ci && e.edge = edge && !e.ended then { e with time := some time, flags := flags } else e
  { s with inputs := mall Input.init s.inputs fun x => { x with armed := x.armed.map upd, wait := x.wait.map upd } }

/-- What has become of a stamp after it was made reaches its start or stop in interval mode (R94): PAIR_MERGED, and the flags of `flag`. -/
def ivFlag (s : State) (ci : Nat) (at1 : Nat → Bool) (merged : Bool) (flag : Nat) : State :=
  let upd := fun (e : IvEdge) => if e.comp = ci && at1 e.edge then { e with merged := e.merged || merged, flags := Nat.lor e.flags flag } else e
  let done := fun (v : Ival) =>
    if v.ends.any (fun p => p.1 = ci && at1 p.2) then { v with merged := v.merged || merged, flags := Nat.lor v.flags flag } else v
  { s with
    inputs := mall Input.init s.inputs fun x => { x with armed := x.armed.map upd, wait := x.wait.map upd }
    ivals := mall [] s.ivals fun vs => vs.map done }

/-- A comparator becomes over rate with an edge: an armed interval that it starts or stops ends in a TIMEOUT there (R96). -/
def ivOverRate (s : State) (ci dev : Nat) : State :=
  let e : IvEdge := { start := false, comp := ci, edge := dev, time := some ((dev / 100 : Nat) : Int), flags := 0, merged := false, ended := true }
  ivSettleAll { s with inputs := malli Input.init s.inputs fun i x =>
    match x.armed with
    | some a => if a.comp = ci || s.ivStop i (dev / Config.edgeTick) = ci then { x with wait := x.wait ++ [e] } else x
    | none => x }

/-- The edges of a comparator in a window that was over rate enter no interval (R86). -/
def ivOut (s : State) (ci : Nat) (within : Nat → Bool) : State :=
  let upd := fun (e : IvEdge) => if e.comp = ci && within e.edge then { e with out := true } else e
  { s with
    inputs := mall Input.init s.inputs fun x => { x with armed := x.armed.map upd, wait := x.wait.map upd }
    ivals := mall [] s.ivals fun vs => vs.filter fun v => !(v.ends.any fun p => p.1 = ci && within p.2) }

/-! ### Edges -/

/-- The over-rate window of a device edge time (R85). -/
def windowOf (edge : Nat) : Nat := edge / (256 * Config.edgeTick)

/-- A raw transition in the run of R84 and in its window (R85). Over rate lasts until 1.2 ns after the last transition, so
every window it touches is marked. -/
def rawTransition (s : State) (ci raw dev : Nat) : State :=
  let x := s.comp ci
  let close := match x.lastRaw with
    | some r => decide (raw < r + Config.pairRes)
    | none => false
  let run := if close then x.run + 1 else 1
  let w := windowOf dev
  let n := mget { count := 0, overRate := false } x.windows w
  let kept := x.windows.filter fun e => e.2.overRate || decide (w ≤ e.1 + 1)
  let ws := mset { count := 0, overRate := false } kept w { n with count := n.count + 1 }
  let s := s.setComp ci { x with lastRaw := some raw, run := run, windows := ws }
  if run < 16 then s.put (F.pstb_over_rate_now.at (ci % 2)) (ci / 2) 0
  else
    let mark := fun (m : SMap Window) (k : Nat) => mset { count := 0, overRate := false } m k { mget { count := 0, overRate := false } m k with overRate := true }
    let s := s.setComp ci { s.comp ci with windows := mark (mark ws w) (windowOf (dev + Config.pairRes - 1)) }
    let s := s.put (F.pstb_over_rate_now.at (ci % 2)) (ci / 2) 1
    if run = 16 then ivOverRate s ci dev else s

/-- Changes the held stamp with a given edge. -/
def editStamp (x : Comp) (edge : Nat) (f : Stamp → Stamp) : Comp :=
  { x with held := x.held.map fun st => if st.edge = edge then f st else st }

/-- A merged edge (R80, R92): PAIR_MERGED on the last stamped stamp, or on the pulse that it completed (log 14); a merged
trailing edge gives its open pulse TOT 0. -/
def mergeEdge (s : State) (ci : Nat) (leading : Bool) (lastDev : Nat) : State :=
  let s := s.satInc (F.psta_merged.at (ci % 2)) (ci / 2) 1
  let s := ivFlag s ci (· = lastDev) true 0
  let x := s.comp ci
  let marked := { x with held := x.held.map fun st =>
    if st.edge = lastDev || st.pulse = .closed lastDev then { st with merged := true } else st }
  if leading then s.setComp ci marked
  else match x.openPulse with
    | some e => s.setComp ci { (editStamp marked e fun st => { st with pulse := .mergedTrail, merged := true }) with openPulse := none }
    | none => s.setComp ci marked

/-- How long after its leading edge a pulse waits for its trailing edge: 32,760 fine LSB, in edge-time units (R91). -/
def pulseLimit : Nat := 3276000

/-- A pulse whose trailing edge has not come in time is emitted with TOT 0xFFF (R91). -/
def Comp.timeOut (x : Comp) (e : Nat) : Comp := { (editStamp x e fun st => { st with pulse := .timedOut }) with openPulse := none }

/-- The pulse that is open ends in its timeout where an edge comes after its limit (R91). -/
def Comp.before (x : Comp) (dev : Nat) : Comp :=
  match x.openPulse with
  | some e => if e + pulseLimit < dev then x.timeOut e else x
  | none => x

/-- A stamped edge takes the first free interpolator, or is stamped COARSE_ONLY (R78, R79); a leading stamp is held and
opens a pulse when tot_en = 1, a trailing stamp completes the open pulse or is counted in late_trail (R90, R91, log 14). -/
def stampEdge (s : State) (ci raw dev : Nat) (leading : Bool) : State :=
  let full := dev / Config.edgeTick
  let i := ci / 2
  let x := (s.comp ci).before dev
  let slot := s.freeSlot ci raw
  let coarse := slot.isNone
  let time := if coarse then some (s.stampAt ci full 8192) else none
  let s := if coarse && s.foreground ci full then s.satInc (F.psta_coarse_only.at (ci % 2)) i 1 else s
  let od := s.flag (F.pstb_overdrive_now.at (ci % 2)) i || (s.inp i).overTo = some full
  let g := s.pgroup (i / 8)
  let dist := match g.toFull with
    | some e => decide (full ≤ e) && (g.opened || full = e)
    | none => g.opened
  let routed := s.routed i full
  let tot := s.cmpFor F.pcmp_tot_en ci full = 1 && !routed
  let st : Stamp := { edge := dev, time := time, slot := slot.getD 4, lead := leading, pulse := if leading && tot then .opened else .none, coarseOnly := coarse, disturbed := dist, overdrive := od, merged := false }
  let x := { x with lastStamped := some raw, lastTrail := !leading }
  let x := match slot with
    | some k => { x with nextSlot := (k + 1) % 4, slots := mset [] x.slots k (mget [] x.slots k ++ [({ edge := dev, raw := raw, disturbed := dist } : InConv)]) }
    | none => x
  if leading then
    let s := s.setComp ci { x with held := x.held ++ [st], openPulse := if tot then some dev else none }
    if routed then s else ivSettleAll (ivEdge s ci full dev time st.flags)
  else match x.openPulse with
    | some e =>
      if x.held.any fun h => h.edge = e then
        s.setComp ci { (editStamp x e fun h => { h with pulse := .closed dev }) with held := (editStamp x e fun h => { h with pulse := .closed dev }).held ++ [st], openPulse := none }
      else s.setComp ci { x with openPulse := none }
    | none => (s.setComp ci x).satInc (F.pstb_late_trail.at (ci % 2)) i 1

/-- The transitions that a comparator selects (R72): `some true` a leading one, `some false` a trailing one. Of an input routed to a reference
the rising transitions of comparator 0 are stamped, whatever the CHAN settings (R41). DESIGN CHOICE (log 54): which comparator and which
transition; with en = 0 each is stamped for the monitor and counts nowhere (R72). -/
def State.selects (s : State) (ci full : Nat) (rising : Bool) : Option Bool :=
  if s.routed (ci / 2) full then (if rising && ci % 2 = 0 then some true else none)
  else
    let leading : Bool := decide (b2n rising ≠ s.cmpFor F.pcmp_edge_fall ci full)
    if !s.foreground ci full || (!leading && s.cmpFor F.pcmp_tot_en ci full = 0) then none else some leading

/-- R72 to R84, R90 to R94: a transition of a comparator at edge time `edge` since reset. -/
def execComparatorTransition (comparator : Nat) (rising : Bool) (edge : Nat) (s : State) : Res :=
  let ci := comparator
  if 128 ≤ ci || !s.inputLive (ci / 2) then .next s
  else
    let s := advanceTo s (edge / Config.edgeTick)
    let raw := max edge (s.tb.tick * Config.edgeTick)
    let dev := s.full * Config.edgeTick + (raw - s.tb.tick * Config.edgeTick)
    match s.selects ci s.full rising with
    | none => .next s
    | some leading =>
      let counts := s.foreground ci s.full
      let s := if counts then rawTransition s ci raw dev else s
      match (s.comp ci).lastStamped with
      | some l => if counts && decide (raw < l + Config.pairRes) then .next (mergeEdge s ci leading (dev - (raw - l))) else .next (stampEdge s ci raw dev leading)
      | none => .next (stampEdge s ci raw dev leading)

/-- R84: over rate ends 1.2 ns after the last transition of the run. -/
def execOverRateEnd (comparator : Nat) (s : State) : Res :=
  let x := s.comp comparator
  match x.lastRaw with
  | some r =>
    if 16 ≤ x.run && comparator < 128 then
      let s := advanceTo s (ceilDiv (r + Config.pairRes) Config.edgeTick)
      .next ((s.setComp comparator { x with run := 0 }).put (F.pstb_over_rate_now.at (comparator % 2)) (comparator / 2) 0)
    else .next s
  | none => .next s

/-! ### Release -/

/-- A stamp is past its window's end and 1.2 ns past its edge (R86). -/
def State.pastHold (s : State) (edge : Nat) : Bool :=
  decide ((windowOf edge + 1) * 256 ≤ s.full) && decide (edge + Config.pairRes ≤ s.full * Config.edgeTick)

/-- The trailing stamp of a pulse. -/
def Comp.trail (x : Comp) (e : Nat) : Option Stamp := x.held.find? fun st => st.edge = e && !st.lead

/-- The window of an edge is not one whose stamps an OVER_RATE marker will replace (R85). -/
def Comp.clear (x : Comp) (edge : Nat) : Bool := !(mget { count := 0, overRate := false } x.windows (windowOf edge)).overRate

/-- A held leading stamp or marker may be released (R85, R86, R90). -/
def State.releasable (s : State) (x : Comp) (st : Stamp) : Bool :=
  match st.pulse with
  | .marker _ => s.pastHold st.edge
  | .opened => false
  | .closed e =>
    st.time.isSome && s.pastHold st.edge && s.pastHold e && x.clear st.edge && x.clear e &&
      (match x.trail e with
       | some tr => tr.time.isSome
       | none => false)
  | _ => st.time.isSome && s.pastHold st.edge && x.clear st.edge

/-- TOT of a pulse from its two stamps (R90). -/
def totOf (lead trail : Int) : Nat := min 4095 (roundHalfUp (trail - lead) 8).toNat

/-- The hit a held stamp or marker is delivered as, less its channel (R80, R85, R90 to R92). -/
def Stamp.hit (x : Comp) (st : Stamp) (c : Nat) : THit :=
  let t := st.time.getD 0
  let base : THit := { chan := c, time := precTime t, tot := 0, flags := st.flags, merged := st.merged, overRate := false, timeout := false, transitions := 0, src := 1024, frame := 0, mirage := 0, ref := 0 }
  match st.pulse with
  | .marker n => { base with time := st.edge / 100, flags := 0, merged := false, overRate := true, transitions := min 255 n }
  | .timedOut => { base with tot := 4095 }
  | .closed e =>
    match x.trail e with
    | some tr => { base with tot := totOf t (tr.time.getD 0), flags := Nat.lor st.flags tr.flags }
    | none => base
  | _ => base

/-- Releases the held stamps of a comparator, in the order of their edges, as far as they may go (R82, R86): to the channel it is bound to, or
to the reference monitor (R41). -/
def releaseHeld : Nat → State → Nat → State
  | 0, s, _ => s
  | n + 1, s, ci =>
    let x := s.comp ci
    match x.held with
    | [] => s
    | st :: rest =>
      if !st.lead then
        if rest.any (fun h => h.pulse = .closed st.edge) then s
        else releaseHeld n (s.setComp ci { x with held := rest }) ci
      else if s.releasable x st then
        let gone := match st.pulse with
          | .closed e => rest.filter fun h => !(h.edge = e && !h.lead)
          | _ => rest
        let s1 := s.setComp ci { x with held := gone }
        if s.routed (ci / 2) (st.edge / Config.edgeTick) then
          match st.time with
          | some t => releaseHeld n (monitorStamp s1 (ci / 2 - 60) (precTime t) st.disturbed) ci
          | none => releaseHeld n s1 ci
        else match s.boundChanAt ci (st.edge / Config.edgeTick) with
        | some c => releaseHeld n (sendPrec s1 (st.hit x c)) ci
        | none => releaseHeld n s1 ci
      else s

/-- The full count at which a stamp's hold ends (R86). -/
def holdEnd (edge : Nat) : Nat := max ((windowOf edge + 1) * 256) (ceilDiv (edge + Config.pairRes) Config.edgeTick)

/-- R86: the hold of the comparator's oldest held stamp ends, and every stamp that may go is released. -/
def execStampRelease (comparator : Nat) (s : State) : Res :=
  match (s.comp comparator).held with
  | [] => .next s
  | st :: _ =>
    let last := match st.pulse with
      | .closed e => holdEnd e
      | _ => holdEnd st.edge
    let s := advanceFull s (max last (holdEnd st.edge))
    .next (releaseHeld ((s.comp comparator).held.length + 1) s comparator)

/-- The comparator's oldest over-rate window. -/
def Comp.overWindow (x : Comp) : Option (Nat × Window) := x.windows.find? fun e => e.2.overRate

/-- R85, R92: at the end of an over-rate window its stamps are discarded, with the other stamp of each pulse, and one
OVER_RATE marker takes their place. -/
def execOverRateWindowEnd (comparator : Nat) (s : State) : Res :=
  let ci := comparator
  match (s.comp ci).overWindow with
  | none => .next s
  | some (w, win) =>
    let s := advanceFull s ((w + 1) * 256)
    let x := s.comp ci
    let inside := fun (st : Stamp) => windowOf st.edge = w
    let partner := fun (st : Stamp) => match st.pulse with
      | .closed e => windowOf e = w
      | _ => x.held.any fun h => h.pulse = .closed st.edge && inside h
    let kept := x.held.filter fun st => !(inside st || partner st)
    let mk : Stamp := { edge := w * 256 * Config.edgeTick, time := none, slot := 4, lead := true, pulse := .marker win.count, coarseOnly := false, disturbed := false, overdrive := false, merged := false }
    let held := insertBy (fun a b => decide (a.edge < b.edge)) mk kept
    let slots := mall [] x.slots fun cs => cs.map fun c => if windowOf c.edge = w then { c with disturbed := true } else c
    let s := dropPend (s.setComp ci { x with held := held, windows := merase x.windows w, slots := slots }) ci fun f => decide (f / 256 = w)
    let s := ivOut s ci fun e => decide (windowOf e = w)
    let s := s.satInc (F.pstb_over_rate_windows.at (ci % 2)) (ci / 2) 1
    .next (releaseHeld (held.length + 1) s ci)

/-! ### Conversion -/

/-- The bin table in force for a launching tick (R116). -/
def Interp.tableFor (x : Interp) (full : Nat) : Option BinTable :=
  match x.inForce with
  | some t => if t.full ≤ full then some t else x.prior
  | none => none

/-- A live full-resolution edge may be a sample (R107, R109): outside DISTURBED windows, of no reference, live_mode AUTO, the live part not
held off. Its over-rate window is judged when that has ended. -/
def State.liveSample (s : State) (ci n full : Nat) (disturbed : Bool) : Bool :=
  !disturbed && !s.routed (ci / 2) full && s.get F.calc_live_mode ci = 0 && (s.interp n).holdSets = 0 && s.get F.cala_state n = 3

/-- The live edges of the last millisecond of a comparator (R109). -/
def State.liveEdges (s : State) (ci : Nat) : Nat :=
  ((s.comp ci).recent.filter fun t => decide (s.tb.tick < t + Config.milli)).length

/-- A stamp's time is known: the held stamp takes it, and interval mode learns it. -/
def knowStamp (s : State) (ci edge : Nat) (t : Int) (coarse : Bool) : State :=
  let x := editStamp (s.comp ci) edge fun st => { st with time := some t, coarseOnly := coarse || st.coarseOnly }
  let s := s.setComp ci x
  let flags := match x.held.find? fun st => st.edge = edge with
    | some st => st.flags
    | none => 4 * b2n coarse
  ivSettleAll (ivKnown s ci edge t flags)

/-! ### Overdrive, time over threshold, intervals -/

/-- Sets the level bits of an input in the status words of both comparators (R105). -/
def putBoth (s : State) (f : Field) (i v : Nat) : State := (s.put f i v).put (f.at 1) i v

/-- Flags the stamps of an input whose tick is at or after `full`, in interval mode too; `flag` is the flag in the order of HIT (R360). -/
def flagHeld (s : State) (i full : Nat) (f : Stamp → Stamp) (flag : Nat) : State :=
  [2 * i, 2 * i + 1].foldl (fun s ci =>
    ivFlag (s.setComp ci { s.comp ci with held := (s.comp ci).held.map fun st => if full ≤ st.edge / Config.edgeTick then f st else st })
      ci (fun e => decide (full ≤ e / Config.edgeTick)) false flag) s

/-- A DISTURBED window opens at the present tick for an input: the conversions of its later edges are no samples (R88, R107). -/
def disturbInput (s : State) (i : Nat) : State :=
  let full := s.full
  let s := flagHeld (putBoth s F.pstb_disturbed_now i 1) i full (fun st => { st with disturbed := true }) 2
  [2 * i, 2 * i + 1].foldl (fun s ci =>
    let s := s.setComp ci { s.comp ci with slots := mall [] (s.comp ci).slots fun cs => cs.map fun c =>
      if full ≤ c.edge / Config.edgeTick then { c with disturbed := true } else c }
    dropPend s ci fun f => decide (full ≤ f)) s

/-- R87, R88, R89: the input's voltage exceeds 1.2 V; its group's DISTURBED window opens. -/
def execOverdriveOnset (input t : Nat) (s : State) : Res :=
  if 64 ≤ input || !s.domOn 27 || s.flag F.pstb_overdrive_now input then .next s
  else
    let s := advanceTo s t
    let g := input / 8
    let s := (s.satInc F.pstb_overdrive_events input 1).satInc (F.pstb_overdrive_events.at 1) input 1
    let s := putBoth s F.pstb_overdrive_now input 1
    let s := flagHeld s input s.full (fun st => { st with overdrive := true }) 1
    let s := s.setPgroup g { opened := true, toFull := none }
    .next ((upTo (8 * g) 8).foldl disturbInput s)

/-- R87, R88: 2 ticks below 1.1 V; when no overdrive is left in the group, the DISTURBED window has 80 ticks to run. -/
def execOverdriveEnd (input t : Nat) (s : State) : Res :=
  if 64 ≤ input || !s.flag F.pstb_overdrive_now input then .next s
  else
    let s := advanceTo s t
    let s := putBoth s F.pstb_overdrive_now input 0
    let s := s.setInp input { s.inp input with overTo := some s.full }
    if (upTo (input / 8 * 8) 8).any fun i => s.flag F.pstb_overdrive_now i then .next s
    else .next (s.setPgroup (input / 8) { opened := true, toFull := some (s.full + 80) })

/-- R88: the DISTURBED window of a group ends. -/
def execDisturbedEnd (group : Nat) (s : State) : Res :=
  match (s.pgroup group).opened, (s.pgroup group).toFull with
  | true, some e =>
    let s := advanceFull s e
    .next ((upTo (8 * group) 8).foldl (fun s i => putBoth s F.pstb_disturbed_now i 0) (s.setPgroup group { opened := false, toFull := some e }))
  | _, _ => .next s

/-- R91: 32,760 fine LSB after the leading edge without its trailing edge. -/
def execTotTimeout (comparator : Nat) (s : State) : Res :=
  match (s.comp comparator).openPulse with
  | none => .next s
  | some e =>
    let s := advanceFull s ((e + pulseLimit) / Config.edgeTick)
    .next (s.setComp comparator ((s.comp comparator).timeOut e))

/-- R95: no stop by CHAN.ival_timeout ticks after the start stamp. What came by then and still converts is judged first (log 48). -/
def execIntervalTimeout (input : Nat) (s : State) : Res :=
  match (s.inp input).armed with
  | none => .next s
  | some a =>
    let ta := a.time.getD (a.edge / 100 : Nat)
    let s := advanceFull s (ceilDiv (precTime (s.ivLimit input ta)) 1024)
    let s := s.setInp input { s.inp input with armed := some { a with due := true } }
    .next (ivSettle ((s.inp input).wait.length * 2 + 3) s input)

/-! ### Changes of setting -/

/-- R106: a change of setting ends the pulse and the interval in progress on a comparator, without a record, and discards
its raw-transition history. -/
def resetComparator (s : State) (ci : Nat) : State :=
  let x := s.comp ci
  let held := match x.openPulse with
    | some e => x.held.filter fun st => st.edge ≠ e
    | none => x.held
  let s := s.setComp ci { x with held := held, openPulse := none, lastRaw := none, run := 0 }
  let s := s.put (F.pstb_over_rate_now.at (ci % 2)) (ci / 2) 0
  { s with inputs := malli Input.init s.inputs fun i y =>
    match y.armed with
    | some a => if a.comp = ci || s.ivStop i s.full = ci then { y with armed := none, wait := [] } else y
    | none => y }

/-- What a changed precision word does when it takes effect (R72, R106): `old` and `new` are the words of selector 16, 17
or 18 of input `i`. DESIGN CHOICE (log 48): an interval that is armed when ival_en is cleared, or when its start comparator is disabled, stays
armed until a stop or its timeout, since R106 names neither field. -/
def precisionChange (s : State) (sel i : Nat) (old new : Word) : State :=
  let d := old ^^^ new
  if sel = 16 then
    let both := d &&& (fieldMask 39 37 ||| fieldMask 36 36) ≠ 0#64
    let s := if both || d &&& fieldMask 51 40 ≠ 0#64 then resetComparator s (2 * i) else s
    if both || d &&& fieldMask 63 52 ≠ 0#64 then resetComparator s (2 * i + 1) else s
  else
    let ci := 2 * i + (sel - 17)
    let s := if d &&& fieldMask 62 61 ≠ 0#64 then resetComparator s ci else s
    if bit new 63 && !bit old 63 then s.setComp ci { s.comp ci with lastRaw := none, lastStamped := none, run := 0 } else s

end Sys2Proof.Machine
end

