-- ==== Sys2Proof/Machine/Calibration.lean ====
section
/-! DEFINITION. Calibration in the background (04_calibration.md, R107 to R133) and its commands. Interpolators 0 to 511 are
the precision interpolators of R32, 512 + lane the lane interpolators. -/

namespace Sys2Proof.Machine

/-- A lane interpolator. -/
def isLaneInterp (n : Nat) : Bool := 512 ≤ n

/-- The power domain of an interpolator (R443). -/
def interpDomain (n : Nat) : Nat := if isLaneInterp n then laneDomain (n - 512) else 27

/-- The interpolator's fault source (R418). -/
def interpSource (n : Nat) : Nat := if isLaneInterp n then 0x0C00 + (n - 512) else 0x1000 + n

/-- The calibration fault source (R123, R418). -/
def calSource (n : Nat) : Nat := if isLaneInterp n then 0x1400 + (n - 512) else 0x1200 + n

/-- The partition that owns the channel bound to an interpolator's comparator, 0 for a lane interpolator or an unbound
comparator (R123). -/
def State.interpOwner (s : State) (n : Nat) : Nat :=
  if isLaneInterp n then 0
  else match s.boundChan (n / 4) with
    | some c => s.get F.chan_part c
    | none => 0

/-- The same for the checks of commands: by the words after every CINCH given GO (R392). -/
def State.interpHolder (s : State) (n : Nat) : Nat :=
  if isLaneInterp n then 0
  else match s.boundOf (n / 4) with
    | some c => s.getLatest F.chan_part c
    | none => 0

/-- The other interpolators of the pool, or none. -/
def poolMates (n : Nat) : List Nat := if isLaneInterp n then [] else (upTo (n / 4 * 4) 4).filter (· ≠ n)

/-- An interpolator takes a calibration state; its pool_live bit is 1 in TRACK alone (R122). -/
def putCalState (s : State) (n st : Nat) : State :=
  let s := s.put F.cala_state n st
  if isLaneInterp n then s
  else
    let f := F.pcmp_pool_live.at (n / 4 % 2)
    let old := s.get f (n / 8)
    let b := 2 ^ (n % 4)
    s.put f (n / 8) (old - old / b % 2 * b + (if st = 3 then b else 0))

/-- A sample set is abandoned. -/
def Interp.dropSet (x : Interp) : Interp := { x with hist := [], n := 0, liveTaps := [], liveHist := [], liveN := 0 }

/-- The figure a of R125: whole tens of seconds beyond the first ten. -/
def State.calAge (s : State) (x : Interp) : Nat :=
  match x.inForce with
  | some t => (s.tb.tick - t.atTick) / Config.second
  | none => 0

/-- Calibration status word A as it reads (R125, R128). -/
def State.calWordA (s : State) (n : Nat) : Word :=
  let x := s.interp n
  let age := s.calAge x
  let q := if s.get F.cala_state n = 3 then 255 - min 255 (x.err + (age - 10) / 10) else 0
  setBits (setBits (s.word 0x21 0 n) 60 53 q) 24 9 (min 65535 age)

/-- The EVENT record of R123. -/
def calEvent (s : State) (n : Nat) : State :=
  event s (s.interpOwner n) 0x02 (s.get F.cala_last_result n) stCalRejected
    (if isLaneInterp n then 2 ^ 31 + (n - 512) else n) [s.calWordA n]

/-- An interpolator fault of the table of R122, with its EVENT (R123). -/
def interpFault (s : State) (n cause : Nat) : State := calEvent (raise s (interpSource n) cause 0 false) n

/-- The reply of a CAL_START that has a result for every target (R130, R131). -/
def calReply (s : State) (o : CalOp) : State :=
  if o.bad = 0 then finish s o.cmd 0x28 stOk 0 [] else finish s o.cmd 0x28 stCalRejected o.bad []

/-- A target of a CAL_START of one form has its result. -/
def calResult (s : State) (recover : Bool) (n : Nat) (bad : Bool) : State :=
  let ops := s.calOps.map fun o => if o.recover = recover && o.targets.contains n then
    { o with targets := o.targets.filter (· ≠ n), bad := o.bad + b2n bad } else o
  let s := { s with calOps := ops.filter fun o => !o.targets.isEmpty }
  (ops.filter fun o => o.targets.isEmpty).foldl calReply s

/-- Entry into LOCK (R122). -/
def enterLock (s : State) (n : Nat) : State :=
  let x := { (s.interp n).dropSet with waiting := none, first := none, lockAt := some s.tb.tick, abandonAt := none, pend := [], need := none }
  (putCalState (s.setInterp n x) n 1).satInc F.calb_lock_count n 1

/-- An interpolator is retired (R122, R131). -/
def State.interpGone (s : State) (n : Nat) : Bool := (s.interp n).retired

/-- Shows CAL_LOCK in the status word and in CALSET.locked, which is 1 while any interpolator of the pool is held. -/
def putLocked (s : State) (n : Nat) (v : Bool) : State :=
  let s := s.put F.cala_locked n (b2n v)
  if isLaneInterp n then s
  else s.put F.calc_locked (n / 4) (b2n ((n :: poolMates n).any fun k => s.flag F.cala_locked k))

/-- An interpolator's domain goes off: UNCAL from every state, tables lost (R122). Its retirement is kept with the others (R435). -/
def calOff (s : State) (n : Nat) : State :=
  let x : Interp := { Interp.init with retired := (s.interp n).retired }
  putLocked (((putCalState (s.setInterp n x) n 0).setWord 0x21 0 n 0#64).setWord 0x21 1 n 0#64) n false

/-- An interpolator's domain comes on: UNCAL goes to LOCK, and a retired one to RETIRED again (R122, R435). -/
def calOn (s : State) (n : Nat) : State :=
  if s.interpGone n then putCalState s n 5 else if s.get F.cala_state n = 0 then enterLock s n else s

/-- A double-bit error in a bin table in force: out of service and to LOCK (R117); a retired interpolator stays as it is (R122). -/
def tableBad (s : State) (n : Nat) (injected : Bool) : State :=
  let s := s.setInterp n { s.interp n with inForce := none, prior := none }
  raise (if s.interpGone n then s else enterLock s n) (interpSource n) 0x01 0 injected

/-- A double-bit error in a waiting table, in the held first set of a confirmation, or in the histogram of the set in progress voids that
table or that set, without a rejection count (R117). -/
def setBad (s : State) (n : Nat) (f : Interp → Interp) : State := raise (s.setInterp n (f (s.interp n))) (interpSource n) 0x01 0 false

/-- The table in force is read; Awl may make a word of it uncorrectable (R440). -/
def tableCheck (s : State) (n : Nat) : State :=
  let (s, bad) := awlTake s (interpSource n)
  if bad then tableBad s n true else s

/-! ### Corrections -/

/-- A span lies within its trigger (R119). -/
def State.spanOk (s : State) (span : Nat) : Bool := decide (((span : Int) - 62500).natAbs * 10 ≤ s.get F.calg_span_trig 0 * 625)

/-- Correction is needed (R119), from a set's histogram `h` of `n` samples and what was measured beside it. -/
def State.needsCorrection (s : State) (h : SMap Nat) (n : Nat) (m : SetMeasure) : Bool :=
  !s.spanOk m.span || (h.any fun c => decide (s.get F.calg_bin_trig 0 * n < 1024 * 16 * c.2)) || decide (17980 < m.slowPeriod)

/-- R121: the conditions under which an interpolator goes ASIDE. -/
def State.asideAllowed (s : State) (n : Nat) : Bool :=
  s.flag F.calg_aside_en 0 && (poolMates n).all (fun k => s.inService k || s.interpGone k) &&
    (isLaneInterp n || decide (s.liveEdges (n / 4) < s.get F.calg_aside_rate 0 * 1000))

/-- The span of a choice of taps, from the widths last measured, in 0.01 ps. -/
def tapSpan (widths taps : List Nat) : Nat := sumOver (fun i => widths.getD i 0) taps

/-- How far that span lies from 625 ps. -/
def spanError (widths taps : List Nat) : Nat := ((tapSpan widths taps : Int) - 62500).natAbs

/-- The choices of taps that one exchange of an active tap for a spare makes. -/
def exchanges (taps : List Nat) : List (List Nat) :=
  taps.flatMap fun a => ((upTo 0 40).filter fun b => !taps.contains b).map fun b => taps.map fun x => if x = a then b else x

/-- The first of the choices whose span lies nearest 625 ps. -/
def nearest (widths : List Nat) : List (List Nat) → List Nat → List Nat
  | [], best => best
  | c :: rest, best => nearest widths rest (if spanError widths c < spanError widths best then c else best)

/-- Exchanges one at a time, each the one whose predicted span lies nearest 625 ps, while an exchange brings it nearer (R120). -/
def exchangeTaps (widths : List Nat) : Nat → List Nat → List Nat
  | 0, taps => taps
  | n + 1, taps =>
    let best := nearest widths (exchanges taps) taps
    if best = taps then taps else exchangeTaps widths n best

/-- The ring-stage pair that puts the slow ring at or below 179.8 ps and the ring difference nearest span / 1,024 (R120). -/
def ringPair (m : SetMeasure) (span : Nat) : Option (Nat × Nat) :=
  let pairs := (upTo 0 4).flatMap fun i => (upTo 0 4).map fun j => (i, j)
  let miss := fun (p : Nat × Nat) => (((m.slow.getD p.1 0 : Int) - m.fast.getD p.2 0) * 1024 - span).natAbs
  (sortBy (fun a b => decide (miss a ≤ miss b)) (pairs.filter fun p => decide (m.slow.getD p.1 0 ≤ 17980))).head?

/-- The choice of taps, ring stages and trim DAC codes of a correction, none when none meets R119 (R120): DACs move only when no choice of taps
and stages brings every quantity back within its trigger. -/
def State.correction (s : State) (n : Nat) (m : SetMeasure) : Option Selection :=
  let x := s.interp n
  let taps := exchangeTaps x.widths 32 x.sel.taps
  let span := tapSpan x.widths taps
  let pair := ringPair m span
  let sel : Selection := { taps := taps, slowStage := (pair.getD (x.sel.slowStage, 0)).1, fastStage := (pair.getD (0, x.sel.fastStage)).2, dacs := x.sel.dacs }
  if pair.isSome && s.spanOk span && m.binsOk then some sel else m.dacs.map fun ds => { sel with dacs := ds }

/-- Shows a choice of taps and stages in the status words (R128): the taps 32 to 39 are the spares of the line that LOCK first set (log 34), and
the DACs are compared with their codes set in LOCK. -/
def showSelection (s : State) (n : Nat) : State :=
  let x := s.interp n
  (((s.put F.calb_spares_used n (x.sel.taps.countP fun i => decide (32 ≤ i))).put F.calb_slow_stage n (x.sel.slowStage % 4)).put F.calb_fast_stage n
    (x.sel.fastStage % 4)).put F.cala_dac_used n (b2n (decide (x.sel.dacs ≠ x.lockDacs)))

/-- An interpolator goes ASIDE with a new choice, or to LOCK with a fault when no choice meets R119 (R120, R122). -/
def goAside (s : State) (n : Nat) (m : SetMeasure) : State :=
  let x := s.interp n
  let choice := s.correction n m
  let s := (putCalState s n 4).satInc F.calb_aside_count n 1
  match choice with
  | some sel => showSelection (s.setInterp n { x.dropSet with first := none, pend := [], need := none, prevSel := some x.sel, sel := sel }) n
  | none => enterLock (interpFault s n 0x0F) n

/-- An interpolator in TRACK that needs a correction goes ASIDE once R121 allows it and CAL_LOCK does not hold it (R122, R132). -/
def asideTry (s : State) (n : Nat) : State :=
  match (s.interp n).need with
  | some m => if s.get F.cala_state n = 3 && !s.flag F.cala_locked n && s.asideAllowed n then goAside s n m else s
  | none => s

/-- The pool's interpolators that wait for R121 are looked at again. -/
def asidePool (s : State) (n : Nat) : State := (n :: poolMates n).foldl asideTry s

/-- R75 to R77: the oldest conversion of a slot ends with raw code `code`, or fails its check; device time reaches its end. The failing edge is
delivered COARSE_ONLY and raises an interpolator fault. DESIGN CHOICE (log 48): a conversion with an unclean tap pattern stops its rings at the end
of the 32nd lap, as a missed catch does. -/
def execConversionComplete (comparator slot code : Nat) (ok : Bool) (s : State) : Res :=
  let ci := comparator
  let n := ci * 4 + slot
  match mget [] (s.comp ci).slots slot with
  | [] => .next s
  | v :: rest =>
    let edge := v.edge
    let full := edge / Config.edgeTick
    let s := advanceTo s ((v.raw + convTime (if ok then code else 0) (s.interp n).slowPeriod) / Config.edgeTick)
    let s := s.setComp ci { s.comp ci with slots := mset [] (s.comp ci).slots slot rest }
    let s := if ok && ((s.interp n).tableFor full).isSome then tableCheck s n else s
    match ok, (s.interp n).tableFor full with
    | true, some tab =>
      let c := code % 1024
      let keep := (s.comp ci).recent.filter fun t => decide (s.tb.tick < t + Config.milli)
      let s := s.setComp ci { s.comp ci with recent := keep ++ [v.raw / Config.edgeTick] }
      let s := if s.liveSample ci n full v.disturbed then pendSample s n full c true else s
      .next (asidePool (knowStamp s ci edge (s.stampAt ci full (tab.entries.getD c 0)) false) n)
    | _, _ =>
      let s := if s.foreground ci full then s.satInc (F.psta_coarse_only.at (ci % 2)) (ci / 2) 1 else s
      let s := knowStamp s ci edge (s.stampAt ci full 8192) true
      .next (if ok then s else raise s (0x1000 + n) 0x02 0 false)

/-- The collector retires an interpolator (R122, R131). -/
def calRetire (s : State) (n : Nat) : State :=
  let x := { (s.interp n).dropSet with waiting := none, first := none, lockAt := none, abandonAt := none, pend := [], need := none, retired := true }
  asidePool (calResult (putCalState (s.setInterp n x) n 5) true n true) n

/-- A retirement of an interpolator is reapplied at start-up (R435). -/
def calGone (s : State) (n : Nat) : State := putCalState (s.setInterp n { s.interp n with retired := true }) n 5

/-! ### Samples -/

/-- Outside the DISTURBED window of the group, and so far outside an over-rate window of the comparator (R107). -/
def State.cleanNow (s : State) (ci : Nat) : Bool :=
  !s.flag F.pstb_disturbed_now (ci / 2) && !(mget { count := 0, overRate := false } (s.comp ci).windows (s.full / 256)).overRate

/-- The internal source is offered to an interpolator (R109). -/
def State.sourceUsed (s : State) (n : Nat) : Bool :=
  if isLaneInterp n then true
  else
    let ci := n / 4
    if s.routed (ci / 2) s.full || s.get F.calc_live_mode ci = 1 || (s.interp n).holdSets ≠ 0 then true
    else !s.flag (F.pcmp_en.at (ci % 2)) (ci / 2) || decide (s.liveEdges ci < s.get F.calg_min_rate 0 * 100)

/-- An interpolator is free for a calibration conversion (R78, R108). -/
def State.interpIdle (s : State) (n : Nat) : Bool :=
  if isLaneInterp n then decide ((s.model (n - 512)).busyUntil ≤ s.tb.tick * Config.edgeTick)
  else (s.comp (n / 4)).slotFree (n % 4) (s.tb.tick * Config.edgeTick) && s.cleanNow (n / 4)

/-- R107 to R109: an edge of the internal random source is converted; a conversion that fails its check is no sample and
is an interpolator fault (R77). -/
def execRandomSourceSample (interp code : Nat) (ok : Bool) (s : State) : Res :=
  let st := s.get F.cala_state interp
  let takes := (st = 2 && (s.interp interp).waiting.isNone) || st = 3 || (st = 4 && (s.interp interp).abandonAt.isNone)
  if 1536 ≤ interp || !s.domOn (interpDomain interp) || !takes || !s.interpIdle interp || !s.sourceUsed interp then .next s
  else if ok then
    if isLaneInterp interp then .next (asideTry (addSample s interp (code % 1024) false) interp)
    else .next (asideTry (pendSample s interp s.full (code % 1024) false) interp)
  else .next (raise s (interpSource interp) 0x02 0 false)

/-! ### A complete set -/

/-- The counts of a histogram by raw code. -/
def histList (h : SMap Nat) : List Nat := (upTo 0 1024).map (mget 0 h)

/-- The doubled positions 2·Σ below + h of every code (R111). -/
def positions : List Nat → Nat → List Nat
  | [], _ => []
  | h :: rest, below => (2 * below + h) :: positions rest (below + h)

/-- The table entries of R111, in 1/16 fine LSB, for a pool offset in 1/1,024 fine LSB. -/
def tableEntries (h : SMap Nat) (n d : Nat) : List Nat :=
  (positions (histList h) 0).map fun p => (roundHalfUp ((8192 * 64 * p + d * n : Nat) : Int) (64 * n)).toNat

/-- The constant f of R112, 0 to 16 fine LSB, in 1/1,024 fine LSB: a free value within that range (log 4). -/
def fusedF (n : Nat) : Nat := (Config.fusedOffset n).toNat % 16385

/-- The pool offset d of R112 in 1/1,024 fine LSB. DEDUCED (log 34): the interpolator's own D_s counts in D_max when it is not in service itself,
because d is never negative. -/
def State.poolOffset (s : State) (n ds : Nat) : Nat :=
  if isLaneInterp n then fusedF (256 + (n - 512))
  else
    let dmax := ((poolMates n).filter s.inService).foldl (fun m k => max m (s.interp k).meanDelay) ds
    dmax - ds + fusedF (n / 4)

/-- The sum of two fractions. -/
def addFrac (a b : Nat × Nat) : Nat × Nat := (a.1 * b.2 + b.1 * a.2, a.2 * b.2)

/-- χ² of the live samples against the table in force, as a fraction (R110). -/
def chiSquare (x : Interp) : Nat × Nat :=
  let (h, n) := match x.inForce with
    | some t => (t.hist, t.n)
    | none => (([] : SMap Nat), 0)
  (upTo 0 32).foldl (fun acc j =>
    let hj := if n = 0 then 1 else sumOver (fun k => mget 0 h (32 * j + k)) (upTo 0 32)
    let nn := if n = 0 then 32 else n
    let d := ((mget 0 x.liveTaps j * nn : Nat) : Int) - (x.liveN * hj : Nat)
    if x.liveN * hj = 0 then acc else addFrac acc (d.natAbs * d.natAbs, nn * x.liveN * hj)) (0, 1)

/-- The live part of the set is correlated with the tick (R110); in BUILD every tap counts as 32 fine LSB wide. -/
def State.correlated (s : State) (n : Nat) : Bool :=
  let x := s.interp n
  let y := if s.get F.cala_state n = 2 then { x with inForce := none } else x
  let (num, den) := chiSquare y
  x.liveN ≠ 0 && decide (s.get F.calg_chi2_limit 0 * den < num)

/-- The live part is discarded, and live samples of the comparator's interpolators are held off for 8 sets, those that wait for their
window's end among them (R110). -/
def discardLive (s : State) (n : Nat) : State :=
  let x := s.interp n
  let hist := x.liveHist.foldl (fun h e => mset 0 h e.1 (mget 0 h e.1 - e.2)) x.hist
  let s := s.setInterp n { x with hist := hist, n := x.n - x.liveN, liveTaps := [], liveHist := [], liveN := 0 }
  (n :: poolMates n).foldl (fun s k => (s.setInterp k { s.interp k with holdSets := 8, pend := (s.interp k).pend.filter fun p => !p.live }).put F.cala_live_rejected k 1) s

/-- The largest difference of two entry lists. -/
def entryStep (a b : List Nat) : Nat := (List.zip a b).foldl (fun m e => max m (max (e.1 - e.2) (e.2 - e.1))) 0

/-- The first failing check of R113 and R114, as last_result; 1 when every check passes. `against` is the table in force, or
the first set of a confirmation, with the code of its failure. -/
def plausible (t : BinTable) (m : SetMeasure) (step : Nat) (against : Option (BinTable × Nat)) : Nat :=
  let hs := histList t.hist
  if m.span < 61250 || 63750 < m.span then 2
  else if hs.any fun h => decide (3 * t.n < 1024 * h) then 3
  else if hs.any fun h => h = 0 then 4
  else match against with
    | some (u, code) => if step < entryStep t.entries u.entries then code else 1
    | none => 1

/-- `round(256 × √(num / den))`, as the figures of R125 need it. -/
def scaledRoot (num den : Nat) : Nat := (isqrt (4 * 65536 * num / den) + 1) / 2

/-- The figures of R125 of a set against the table in force: (dnl², inl) as fractions of common form, from the counts. -/
def quality (set table : BinTable) : (Nat × Nat) × (Nat × Nat) :=
  let ws := List.zip (histList set.hist) (histList table.hist)
  let nm := set.n
  let nt := table.n
  let sq := sumOver (fun e : Nat × Nat => (((e.1 * nt : Nat) : Int) - (e.2 * nm : Nat)).natAbs ^ 2) ws
  let dnl := (1024 * sq - 1024 * nm * nt * (nm + nt), nm * nm * nt * nt)
  let ps := List.zip (positions (histList set.hist) 0) (positions (histList table.hist) 0)
  let inl := ps.foldl (fun mx e => max mx (((512 * 1024 * e.1 * nt + set.d * nm * nt : Nat) : Int) - (512 * 1024 * e.2 * nm + table.d * nm * nt : Nat)).natAbs) 0
  (dnl, (inl, 1024 * nm * nt))

/-- The quality fields after a complete set (R125, R128). -/
def putQuality (s : State) (n : Nat) (set : BinTable) : State :=
  match (s.interp n).inForce with
  | none => s
  | some t =>
    let (dnl, inl) := quality set t
    let e := scaledRoot (dnl.1 * (4 * inl.2 * inl.2) + inl.1 * inl.1 * dnl.2) (dnl.2 * (4 * inl.2 * inl.2))
    let s := s.setInterp n { s.interp n with err := e }
    (s.put F.cala_dnl_rms n (min 255 (scaledRoot dnl.1 dnl.2))).put F.cala_inl_pk n (min 255 (roundHalfUp (16 * inl.1 : Nat) inl.2).toNat)

/-- An accepted table waits for its boundary; one that CAL_LOCK holds in TRACK waits for the release (R115, R116, R132). -/
def acceptTable (s : State) (n : Nat) (t : BinTable) : State :=
  let hold := s.flag F.cala_locked n && s.get F.cala_state n = 3
  let t := { t with full := nextBoundary s.full, held := hold }
  let s := s.setInterp n { s.interp n with waiting := some t, first := none, rejRun := 0 }
  let s := (s.put F.cala_last_result n 1).put F.cala_reject_run n 0
  calResult (s.satInc F.calb_sets_accepted n 1) false n false

/-- A set is rejected (R113, R122, R123). -/
def rejectSet (s : State) (n code : Nat) : State :=
  let st := s.get F.cala_state n
  let x := s.interp n
  let s := s.setInterp n { x with first := none, rejRun := x.rejRun + 1 }
  let s := ((s.put F.cala_last_result n code).satInc F.cala_reject_run n 1).satInc F.calb_sets_rejected n 1
  let s := calEvent (raise s (calSource n) 0x0B 0 false) n
  let s := calResult s false n true
  if st = 2 then enterLock (interpFault s n 0x0D) n
  else if st = 3 && !s.flag F.cala_locked n && decide (s.get F.calg_reject_limit 0 ≤ x.rejRun + 1) then enterLock (interpFault s n 0x0E) n
  else s

/-- R110 to R115, R119 to R125: a complete sample set becomes a table and is checked. DESIGN CHOICE (log 34): where the live part of a set is
discarded the internal part stays, the set goes on, and its completion is the first of the 8 sets held off; a set that is rejected for the
last time that reject_limit allows sends the interpolator to LOCK also where it needs a correction that R121 allows (R122); span_dev stops at the ends of
its range (R128). -/
def execSampleSetComplete (interp : Nat) (m : SetMeasure) (s : State) : Res :=
  let n := interp
  let s := if isLaneInterp n then s else flushSamples s n
  let x := s.interp n
  let st := s.get F.cala_state n
  if x.n = 0 || x.n < s.setSize n || !(st = 2 || st = 3 || st = 4) then .next s
  else if s.correlated n then .next (discardLive s n)
  else
    let hold := x.holdSets - 1
    let s := s.put F.cala_live_rejected n (b2n (hold ≠ 0))
    let d := s.poolOffset n m.meanDelay
    let t : BinTable := { entries := tableEntries x.hist x.n d, hist := x.hist, n := x.n, d := d, held := false, full := 0, atTick := 0, aside := st = 4 }
    let correct := s.needsCorrection t.hist t.n m
    let s := s.setInterp n { x.dropSet with holdSets := hold, meanDelay := m.meanDelay, slowPeriod := m.slowPeriod, need := if correct then some m else none }
    let s := putQuality (s.put F.cala_span_dev n (satSigned 12 ((m.span : Int) - 62500))) n t
    let against := if st = 3 then x.inForce.map (·, 5) else x.first.map (·, 6)
    let code := plausible t m x.setStep against
    if code ≠ 1 then
      let s := rejectSet s n code
      if st = 4 && (s.correction n m).isNone then .next (enterLock (interpFault s n 0x0F) n)
      else .next (asideTry s n)
    else if st = 3 then .next (asideTry (acceptTable s n t) n)
    else if st = 4 && correct && (s.correction n m).isNone then .next (enterLock (interpFault s n 0x0F) n)
    else match x.first with
      | some _ => .next (acceptTable s n t)
      | none => .next (s.setInterp n { s.interp n with first := some t })

/-- R116: the waiting table comes into force at its boundary. BUILD ends in TRACK, and so does ASIDE when the table was built with its new
choices (R120, R122). -/
def execTableInstall (interp : Nat) (s : State) : Res :=
  let x := s.interp interp
  match x.waiting with
  | none => .next s
  | some t =>
    if t.held then .next s
    else
      let s := advanceFull s t.full
      let st := s.get F.cala_state interp
      let y := { x with prior := if st = 3 then x.inForce else none, inForce := some { t with atTick := s.tb.tick }, waiting := none }
      let y := if st = 4 && t.aside then { y with prevSel := none } else y
      let s := s.setInterp interp y
      if st = 2 || (st = 4 && t.aside) then .next (asidePool (calResult (putCalState s interp 3) true interp false) interp) else .next s

/-- The loop has settled (R118): the line bias puts the span of the active line within 0.5 ps of one tick, and all 40 taps are measured. -/
def Interp.settled (x : Interp) (m : LockMeasure) : Bool := m.widths.length = 40 && decide (spanError m.widths x.sel.taps ≤ 50)

/-- R118, R122: the loop settles within 1.0 ms; from here on the bias is held. -/
def execLockSettled (interp : Nat) (m : LockMeasure) (s : State) : Res :=
  let x := s.interp interp
  match x.lockAt with
  | some t0 =>
    if s.get F.cala_state interp = 1 && decide (s.tb.tick ≤ t0 + Config.milli) && x.settled m then
      let sel : Selection := { taps := x.sel.taps, slowStage := m.slowStage, fastStage := m.fastStage, dacs := m.dacs }
      let y := { x with sel := sel, bias := m.bias, widths := m.widths, lockDacs := m.dacs, lockAt := none }
      .next (showSelection (putCalState (s.setInterp interp y) interp 2) interp)
    else .next s
  | none => .next s

/-- R122: not settled within 1.0 ms: an interpolator fault, and LOCK again. -/
def execLockTimeout (interp : Nat) (s : State) : Res :=
  match (s.interp interp).lockAt with
  | some t0 =>
    if s.get F.cala_state interp = 1 then
      let s := advanceTo s (t0 + Config.milli)
      .next (enterLock (interpFault s interp 0x0C) interp)
    else .next s
  | none => .next s

/-- R121: the live rate has reached aside_rate: the correction is abandoned and the previous choices are restored. -/
def execAsideAbandon (interp : Nat) (s : State) : Res :=
  let x := s.interp interp
  if s.get F.cala_state interp = 4 && x.abandonAt.isNone && !isLaneInterp interp &&
      decide (s.get F.calg_aside_rate 0 * 1000 ≤ s.liveEdges (interp / 4)) then
    let old := x.prevSel.getD x.sel
    .next (showSelection (s.setInterp interp { x.dropSet with first := none, pend := [], waiting := x.waiting.filter fun t => !t.aside, sel := old, prevSel := none, abandonAt := some s.tb.tick }) interp)
  else .next s

/-- R121: 100 ns after the abandonment the interpolator returns to TRACK with the table it had. -/
def execAsideReturn (interp : Nat) (s : State) : Res :=
  let x := s.interp interp
  match x.abandonAt with
  | some t0 =>
    if s.get F.cala_state interp = 4 then
      let s := advanceTo s (t0 + 160)
      .next (asidePool (putCalState (s.setInterp interp { x with abandonAt := none }) interp 3) interp)
    else .next s
  | none => .next s

/-! ### Commands -/

/-- The interpolators of a scope, in order of precision number and then lane number (R412); none for a bad scope. -/
def scopeTargets (kind number : Nat) : Option (List Nat) :=
  match kind with
  | 0 => if number < 512 then some [number] else none
  | 1 => if number < 128 then some (upTo (number * 4) 4) else none
  | 2 => if number < 64 then some (upTo (number * 8) 8) else none
  | 3 => if number = 0 then some (upTo 0 512) else none
  | 4 => if number < 4 then some (upTo (512 + number * 256) 256) else none
  | 5 => if number = 0 then some (upTo 0 1536) else none
  | 6 => if number < 1024 then some [512 + number] else none
  | _ => none

/-- A partition may command every target (R129). -/
def State.calOwns (s : State) (part : Nat) (ts : List Nat) : Bool :=
  part = 0 || ts.all fun n => !isLaneInterp n && (s.boundOf (n / 4)).isSome && s.interpHolder n = part

/-- The checks of a calibration command that names targets (R129, R412, R508). `k` is given the targets that are powered. -/
def calChecked (c : Cmd) (s : State) (single : Bool) (k : Nat → List Nat → Result) : Result :=
  checked c false 1 <|
    let w := c.par 0
    let kind := bits w 63 61
    match scopeTargets kind (bits w 57 48) with
    | none => .fail stBadParam 1 []
    | some ts =>
      refuseIf (stray w [(63, 61), (57, 48)] || (single && kind ≠ 0 && kind ≠ 6)) stBadParam 1 <|
      noMore c 1 <|
      refuseIf (!s.calOwns c.part ts) stNotOwner 0 <|
      refuseIf ((kind = 0 || kind = 6) && ts.all s.interpGone) stRetired 0 <|
      let on := ts.filter fun n => s.domOn (interpDomain n)
      refuseIf on.isEmpty stNoResource 0 (k kind on)

/-- CAL_START: the operation in progress, its targets and its limit. -/
def calOpen (s : State) (c : Cmd) (recover : Bool) (ts : List Nat) : State :=
  { s with calOps := s.calOps ++ [{ cmd := c, recover := recover, targets := ts, bad := 0, deadline := s.tb.tick + 10 * Config.second }] }

/-- CAL_START SWEEP abandons the set in progress on each target, samples that wait for their window's end included; the held first set of a
confirmation is another set and stays (R114, R130). -/
def calStartSweep (c : Cmd) (s : State) : Result :=
  calChecked c s false fun _ ts =>
    .later (calOpen (ts.foldl (fun s n => s.setInterp n { (s.interp n).dropSet with pend := [] }) s) c false ts)

/-- CAL_START SWEEP. -/
def execCalStartSweep (c : Cmd) (s : State) : Res := .next (runCmd 0x28 c (calStartSweep c) s)

/-- CAL_START RECOVER sends each target that is not RETIRED to LOCK (R122, R131). -/
def calStartRecover (c : Cmd) (s : State) : Result :=
  calChecked c s false fun _ ts =>
    let s := ts.foldl (fun s n => if s.interpGone n then s else enterLock s n) (calOpen s c true ts)
    .later s

/-- CAL_START RECOVER; retired targets have their result at once. -/
def execCalStartRecover (c : Cmd) (s : State) : Res :=
  let t := runCmd 0x28 c (calStartRecover c) s
  .next ((t.calOps.flatMap fun o => if o.recover then o.targets.filter t.interpGone else []).foldl (fun s n => calResult s true n true) t)

/-- R130: a SWEEP of the partition has not completed within 10 s. -/
def execCalSweepTimeout (partition : Nat) (s : State) : Res :=
  match s.calOps.find? fun o => o.cmd.part = partition && !o.recover with
  | none => .next s
  | some o =>
    let s := advanceTo s o.deadline
    .next (finish { s with calOps := s.calOps.filter (· ≠ o) } o.cmd 0x28 stTimeout 0 [])

/-- CAL_STATUS, from every partition (R128, R412). -/
def calStatusBody (c : Cmd) (s : State) : Result :=
  checked c false 1 <|
    let w := c.par 0
    match scopeTargets (bits w 63 61) (bits w 57 48) with
    | none => .fail stBadParam 1 []
    | some ts =>
      let first := bits w 31 21
      let count := bits w 7 0
      refuseIf (stray w [(63, 61), (57, 48), (31, 21), (7, 0)] || count = 0 || decide (127 < count) || decide (ts.length < first + count)) stBadParam 1 <|
      noMore c 1 <|
      .done s stOk 0 (((ts.drop first).take count).flatMap fun n => [s.calWordA n, s.word 0x21 1 n])

/-- CAL_STATUS. -/
def execCalStatus (c : Cmd) (s : State) : Res := .next (runCmd 0x29 c (calStatusBody c) s)

/-- CAL_LOCK takes hold of one interpolator: in TRACK an accepted table that waits for its boundary waits for the release (R132). -/
def calHold (s : State) (n : Nat) : State :=
  let s := putLocked s n true
  match (s.interp n).waiting with
  | some t => if s.get F.cala_state n = 3 then s.setInterp n { s.interp n with waiting := some { t with held := true } } else s
  | none => s

/-- CAL_LOCK in lock form (R132). -/
def calLockBody (c : Cmd) (s : State) : Result :=
  calChecked c s false fun _ ts => .done (ts.foldl calHold s) stOk 0 []

/-- CAL_LOCK lock. -/
def execCalLock (c : Cmd) (s : State) : Res := .next (runCmd 0x2A c (calLockBody c) s)

/-- The release of one interpolator: its waiting table comes into force at the next boundary (R132). -/
def calRelease (s : State) (n : Nat) : State :=
  let s := putLocked s n false
  match (s.interp n).waiting with
  | some t => asideTry (if t.held then s.setInterp n { s.interp n with waiting := some { t with held := false, full := nextBoundary s.full } } else s) n
  | none => asideTry s n

/-- CAL_LOCK in release form (R132). -/
def calLockReleaseBody (c : Cmd) (s : State) : Result :=
  calChecked c s false fun _ ts => .done (ts.foldl calRelease s) stOk 0 []

/-- CAL_LOCK release. -/
def execCalLockRelease (c : Cmd) (s : State) : Res := .next (runCmd 0x2A c (calLockReleaseBody c) s)

/-- The 256 entry words of a table (R133). -/
def entryWords : List Nat → List Word
  | a :: b :: c :: d :: rest => pack [(63, 48, d), (47, 32, c), (31, 16, b), (15, 0, a)] :: entryWords rest
  | _ => []

/-- The 258 words of CAL_TABLE_READ (R133). -/
def tableWords (s : State) (n : Nat) (t : BinTable) (coarse : Nat) : List Word :=
  pack [(63, 63, b2n (isLaneInterp n)), (62, 53, if isLaneInterp n then n - 512 else n), (52, 50, s.get F.cala_state n)]
    :: pack [(53, 0, coarse)] :: entryWords t.entries

/-- CAL_TABLE_READ of one interpolator (R133). DESIGN CHOICE (log 34): a request for the table in force when there is none is answered
ST_NO_RESOURCE too. -/
def calTableRead (waiting : Bool) (c : Cmd) (s : State) : Result :=
  calChecked c s true fun _ ts =>
    let n := ts.headD 0
    match (if waiting then (s.interp n).waiting else (s.interp n).inForce) with
    | none => .fail stNoResource 0 []
    | some t => .done s stOk 0 (tableWords s n t (if waiting then 0 else t.full))

/-- CAL_TABLE_READ in force. -/
def execCalTableReadInForce (c : Cmd) (s : State) : Res := .next (runCmd 0x2B c (calTableRead false c) s)
/-- CAL_TABLE_READ waiting. -/
def execCalTableReadWaiting (c : Cmd) (s : State) : Res := .next (runCmd 0x2B c (calTableRead true c) s)

end Sys2Proof.Machine
end

