-- ==== Sys2Proof/Machine/TimeBase.lean ====
section
/-! DEFINITION. Time base, references, selector and device time (02_time_base.md, R34 to R69), with REF_SELECT,
REF_STATUS, TIME_SET and PPS_ALIGN; the step of device time itself is in TimeStep.lean. References are 0 REF_A, 1 REF_B, 2 REF_C; 3 is none. -/

namespace Sys2Proof.Machine

/-- A reference's timers at reset. -/
def RefX.init : RefX := { okRun := 0, qualRun := 0, warmRun := 0, clearRun := 0, since := 0, wtr := none }

/-- A reference's timers. -/
def State.refx (s : State) (r : Nat) : RefX := mget RefX.init s.rf.refs r
/-- Changes a reference's timers. -/
def State.setRefx (s : State) (r : Nat) (x : RefX) : State :=
  { s with rf := { s.rf with refs := mset RefX.init s.rf.refs r x } }

/-- The state code of a reference (R46). -/
def State.refState (s : State) (r : Nat) : Nat := s.get F.refs_state r
/-- The selector's state code (R51). -/
def State.selState (s : State) : Nat := s.get F.refst0_sel_state 0
/-- The selected reference, 3 none. -/
def State.selected (s : State) : Nat := s.get F.refst0_selected 0
/-- The target of the switch in progress, 3 none. -/
def State.target (s : State) : Nat := s.get F.refst0_target 0
/-- The mode set by REF_SELECT: 0 AUTO, 1 FORCED, 2 HOLDOVER. -/
def State.selMode (s : State) : Nat := s.get F.refsel0_mode 0

/-- A reference's priority, 3 never selected (R53). -/
def State.prio (s : State) (r : Nat) : Nat :=
  match r with
  | 0 => s.get F.refsel0_prio_a 0
  | 1 => s.get F.refsel0_prio_b 0
  | 2 => s.get F.refsel0_prio_c 0
  | _ => 3

/-- A candidate: GOOD, priority not 3, and in FORCED mode the forced reference alone (R51, R57). DESIGN CHOICE (log 53): in FORCED mode the
forced reference is a candidate whatever its priority. -/
def State.candidate (s : State) (r : Nat) : Bool :=
  s.refState r = 4 && (if s.selMode = 1 then s.get F.refsel0_forced 0 = r else s.prio r ≠ 3 && s.selMode = 0)

/-- A reference that serves a provisional lock: WARMING or QUALIFY, of priority 0 to 2 (R51). -/
def State.provisionalRef (s : State) (r : Nat) : Bool :=
  (s.refState r = 2 || s.refState r = 3) && s.prio r ≠ 3 && s.selMode = 0

/-- The first in order of priority, then REF_A, REF_B, REF_C, of the references that `ok` admits (R53). -/
def State.best (s : State) (ok : Nat → Bool) : Option Nat :=
  (sortBy (fun a b => decide (s.prio a * 4 + a ≤ s.prio b * 4 + b)) ([0, 1, 2].filter ok)).head?

/-- A reference comes before the selected one in the order of R53. -/
def State.better (s : State) (r : Nat) : Bool := decide (s.prio r * 4 + r < s.prio s.selected * 4 + s.selected)

/-- A reference's wait-to-restore timer has reached REFSEL.wtr_s (R56). -/
def State.wtrDue (s : State) (r : Nat) : Bool :=
  match (s.refx r).wtr with
  | some t0 => decide (t0 + s.get F.refsel0_wtr_s 0 * Config.second ≤ s.tb.tick)
  | none => false

/-- The reference whose wait-to-restore timer runs, and the seconds left (R68). DESIGN CHOICE (log 53): where several run the best reference is
shown, and the time left is rounded up to whole seconds. -/
def State.wtrRunning (s : State) : Option (Nat × Nat) :=
  match s.best fun r => s.candidate r && (s.refx r).wtr.isSome && s.selected < 3 && s.better r && !s.wtrDue r && s.flag F.refsel0_revert 0 with
  | some r => some (r, ceilDiv ((s.refx r).wtr.getD 0 + s.get F.refsel0_wtr_s 0 * Config.second - s.tb.tick) Config.second)
  | none => none

/-- Whole seconds since a tick, held at the field's maximum. -/
def secondsSince (s : State) (t0 w : Nat) : Nat := min (2 ^ w - 1) ((s.tb.tick - t0) / Config.second)

/-- REF_STATUS word 0 as it reads now (R68). -/
def State.selWord (s : State) : Word :=
  let w0 := s.word 0x20 0 0
  let w0 := match s.rf.holdAt with
    | some t0 => if s.selState = 4 then setBits w0 31 16 (secondsSince s t0 16) else w0
    | none => w0
  match s.wtrRunning with
  | some (r, n) => setBits (setBits w0 33 32 r) 47 38 (min 1023 n)
  | none => w0

/-- An EVENT of a reference or the selector (R69): class 0x01, with REF_STATUS word 0 (R360). -/
def refEvent (s : State) (subject code : Nat) : State := event s 0 0x01 code stOk subject [s.selWord]

/-- The selector enters a state, with its EVENT. -/
def setSel (s : State) (st : Nat) : State := refEvent (s.put F.refst0_sel_state 0 st) 3 st

/-- The control word in force from now on is noted; nothing older than the longest window of R39 is kept. -/
def noteWord (s : State) (w : Int) : State :=
  let log := (s.tb.tick, w) :: s.rf.osc.log.filter fun e => decide (s.tb.tick < e.1 + 260 * Config.second)
  { s with rf := { s.rf with osc := { s.rf.osc with log := log } } }

/-- The control words summed over the ticks from `a` to `b`, with the number of those ticks that the log covers. The words are listed newest
first, and the first lasts to `upto`. -/
def wordSum : List (Nat × Int) → Nat → Nat → Nat → Int × Nat
  | [], _, _, _ => (0, 0)
  | (t, w) :: rest, upto, a, b =>
    let n := min upto b - max t a
    ((wordSum rest t a b).1 + w * n, (wordSum rest t a b).2 + n)

/-- The mean control word over the REFSEL.hold_avg_s seconds that end 100 ms ago (R39), rounded half up; the latest word where the log covers
none of them. DESIGN CHOICE (log 53): the rounding, and the word of a window that is not covered. -/
def State.meanWord (s : State) : Int :=
  let b := s.tb.tick - 100 * Config.milli
  let sum := wordSum s.rf.osc.log s.tb.tick (b - s.get F.refsel2_hold_avg_s 0 * Config.second) b
  if sum.2 = 0 then (s.rf.osc.log.head?.map fun e => e.2).getD 0 else roundHalfUp sum.1 sum.2

/-- The oscillator is held as in R39: at the mean control word, corrected by the temperature model (a free value, log 4), and after a
DRIFTING verdict on the selected reference by that reference's last deviation from the majority. -/
def holdOsc (s : State) : State :=
  let corr := if s.refState s.selected = 5 then mget 0 s.rf.devs s.selected else 0
  let w := s.meanWord + Config.tempModel s.freeCount - corr
  let s := noteWord { s with freeCount := s.freeCount + 1 } w
  { s with rf := { s.rf with osc := { s.rf.osc with held := some w, wide := false }, loopClosed := false } }

/-- The bandwidth of the loop, coded as REFSEL.loop_bw: 100 Hz in the second half of a switch (R54). -/
def State.loopBw (s : State) : Nat := if s.rf.osc.wide then 3 else s.get F.refsel0_loop_bw 0

/-- The loop steers the oscillator from now on, at 100 Hz where `wide` (R54). -/
def closeLoop (s : State) (wide : Bool) : State :=
  { s with rf := { s.rf with osc := { s.rf.osc with held := none, wide := wide }, loopClosed := true } }

/-- A switch starts (R54): the loop opens, the oscillator is held as in R39, and the phase detector begins on the target. -/
def startSwitch (s : State) (r : Nat) : State :=
  let s := holdOsc (s.put F.refst0_target 0 r)
  let s := { s with rf := { s.rf with switchAt := some s.tb.tick, buildOut := none } }
  setSel s 3

/-- Holdover begins: the oscillator is held as R39 says. The entry is a fault source (R69). DESIGN CHOICE (log 53): in HOLDOVER REF_STATUS
shows no selected reference. -/
def enterHoldover (s : State) : State :=
  let s := holdOsc s
  let s := ((s.put F.refst0_target 0 3).put F.refst0_selected 0 3).put F.refst0_provisional 0 0
  let s := { s with rf := { s.rf with holdAt := some s.tb.tick, switchAt := none } }
  raise (setSel s 4) 0x9003 0x14 0 false

/-- ACQUIRE begins on a reference (R51): the loop steers towards it, and the 100 ms of R52 have not begun. DESIGN CHOICE (log 53): in
ACQUIRE REF_STATUS shows the target as the selected reference. -/
def startAcquire (s : State) (r : Nat) (provisional : Bool) : State :=
  let s := closeLoop s false
  let s := { s with rf := { s.rf with lockFrom := none, lockTo := 0 } }
  setSel ((s.put F.refst0_selected 0 r).put F.refst0_provisional 0 (b2n provisional)) 1

/-- The best of the better candidates whose own wait-to-restore timer has reached REFSEL.wtr_s (R56). -/
def State.revertTo (s : State) : Option Nat :=
  if s.selMode = 0 && s.flag F.refsel0_revert 0 && s.selected < 3 then
    s.best fun r => s.candidate r && s.better r && s.wtrDue r
  else none

/-- A reference is lost to the selector: ABSENT or OFF_FREQ. -/
def State.refLost (s : State) (r : Nat) : Bool := s.refState r = 0 || s.refState r = 1

/-- One transition of the selector's table (R51), if one is due. -/
def selOnce (s : State) : State :=
  match s.selState with
  | 0 =>
    match s.best s.candidate with
    | some r => startAcquire s r false
    | none =>
      match s.best s.provisionalRef with
      | some r => startAcquire s r true
      | none => s
  | 1 => if s.refLost s.selected then setSel ((s.put F.refst0_selected 0 3).put F.refst0_provisional 0 0) 0 else s
  | 2 =>
    let lost := s.refLost s.selected || (s.selMode = 0 && s.refState s.selected = 5)
    if lost then
      match (if s.selMode = 0 then s.best s.candidate else none) with
      | some r => startSwitch s r
      | none => enterHoldover s
    else if s.flag F.refst0_provisional 0 then
      match s.best s.candidate with
      | some r =>
        if r = s.selected then refEvent (s.put F.refst0_provisional 0 0) 3 2
        else startSwitch s r
      | none => s
    else
      match s.revertTo with
      | some r => startSwitch s r
      | none => s
  | 3 => if s.refLost s.target then enterHoldover s else s
  | _ =>
    match s.best s.candidate with
    | some r => startSwitch s r
    | none => s

/-- The selector reacts until no transition is due; it leaves FREE from phase ENGINES on (R466). -/
def selReact (s : State) : State := if s.phase < 4 then s else selOnce (selOnce (selOnce s))

/-- REF_SELECT replies when the selector is LOCKED or in HOLDOVER as requested (R58). -/
def selReply (s : State) : State :=
  match s.rf.sel with
  | none => s
  | some p =>
    let met := p.started && (match p.form with
      | 0 => s.selState = 2 || s.selState = 4
      | 1 => s.selState = 2 && s.selected = p.ref
      | _ => s.selState = 4)
    if met then finish { s with rf := { s.rf with sel := none } } p.cmd 0x20 stOk 0 [] else s

/-- REF_SELECT performs its own change once no switch is in progress (R57, R58). DESIGN CHOICE (log 53): FORCED and HOLDOVER accepted in
FREE or ACQUIRE act at once, and a forced reference that is no longer GOOD when the awaited switch ends is taken all the same. -/
def selPerform (s : State) : State :=
  match s.rf.sel with
  | none => s
  | some p =>
    if p.started || s.selState = 3 then s
    else
      let s := { s with rf := { s.rf with sel := some { p with started := true } } }
      let s := (s.put F.refsel0_mode 0 p.form).put F.refsel0_forced 0 p.ref
      match p.form with
      | 0 => selReact s
      | 1 =>
        if s.selState = 2 && s.selected = p.ref then s
        else if s.selState = 0 || s.selState = 1 then startAcquire s p.ref false
        else startSwitch s p.ref
      | _ => if s.selState = 4 then s else enterHoldover s

/-- Everything the selector does after a change of a reference or of its own state. DESIGN CHOICE (log 53): where the end of a switch lets
the selector start another one, by a reversion, from HOLDOVER, or away from a DRIFTING reference, while REF_SELECT waits, that switch starts first
and REF_SELECT waits for it too. -/
def selSettle (s : State) : State := selReply (selPerform (selReact s))

/-- A reference takes a state (R46): its timers restart, an EVENT is emitted (R69), its wait-to-restore timer runs
while it is GOOD (R56), and loss or drift of the selected reference, in LOCKED and during a switch away from it, is a fault (R69). -/
def setRef (s : State) (r st : Nat) : State :=
  if s.refState r = st then s
  else
    let x : RefX := { RefX.init with since := s.tb.tick, wtr := if st = 4 then some s.tb.tick else none }
    let s := (s.setRefx r x).put F.refs_state r st
    let s := refEvent s r st
    if s.selected = r && (s.selState = 2 || s.selState = 3) then
      if st = 0 || st = 1 then raise s 0x9000 0x11 0 false
      else if st = 5 then raise s 0x9001 0x12 0 false
      else s
    else s

/-- The state a reference enters from ABSENT or OFF_FREQ (R46). -/
def firstState (r : Nat) : Nat := if r = 0 then 2 else 3

/-- REF_C exists: enabled, its lane host-facing and UP at rate 2 or above (R35). -/
def State.refcExists (s : State) : Bool :=
  let l := s.get F.refsel0_refc_lane 0
  s.flag F.refsel0_refc_en 0 && s.host l && s.laneUp l && decide (2 ≤ s.get F.lsa_rate l ∧ s.get F.lsa_rate l ≤ 4)

/-- A lane leaves UP: REF_C, if it carries it, becomes ABSENT (R35). -/
def refcCheck (s : State) : State :=
  if s.refState 2 ≠ 0 && !s.refcExists then selSettle (setRef s 2 0) else s

/-- R36. -/
def execRefEdgeLoss (ref t : Nat) (s : State) : Res :=
  if ref < 3 then .next (selSettle (setRef (advanceTo s t) ref 0)) else .next s

/-- The frequency limit in units of 10^-9 (R37): REFSEL.range_ppm, widened by 5 ppm in FREE and ACQUIRE. -/
def State.freqLimit (s : State) : Nat :=
  s.get F.refsel2_range_ppm 0 * 100 + (if s.selState = 0 || s.selState = 1 then 5000 else 0)

/-- R37, R46: `dev` is the measured deviation in units of 10^-9, and `word` the control word that the loop filter has written by then (R39). -/
def execRefFreqMeasure (ref : Nat) (dev word : Int) (t : Nat) (s : State) : Res :=
  if 3 ≤ ref || (ref = 2 && !s.refcExists) then .next s
  else
    let s := advanceTo s t
    let s := if s.rf.osc.held.isNone then noteWord s word else s
    let x := s.refx ref
    if dev.natAbs > s.freqLimit then
      if s.refState ref = 0 then .next s
      else .next (selSettle ((setRef s ref 1).setRefx ref { (setRef s ref 1).refx ref with okRun := 0 }))
    else
      match s.refState ref with
      | 0 => .next (selSettle (setRef s ref (firstState ref)))
      | 1 =>
        if 100 ≤ x.okRun + 1 then .next (selSettle (setRef s ref (firstState ref)))
        else .next (s.setRefx ref { x with okRun := x.okRun + 1 })
      | _ => .next s

/-! ### The reference monitor -/

/-- The least-squares period of R258 as a fraction, of the stamps that R89 leaves in: (N·Σkt − Σk·Σt) over (N·Σk² − (Σk)²). -/
def slope (a : RegSum) : Int × Nat :=
  (((a.n * a.kt : Nat) : Int) - (a.k1 * a.t1 : Nat), a.n * a.k2 - a.k1 * a.k1)

/-- y = P_nom / P − 1 in units of 10^-13, P_nom = 1,600 ticks (R42); none when nothing was measured. -/
def yOf (a : RegSum) : Option Int :=
  let (num, den) := slope a
  if a.n < 2 || num ≤ 0 then none
  else some (roundHalfUp ((1638400 * (den : Int) - num) * 10000000000000) num.toNat)

/-- The number a measured y is held as: signed 32 bits, 0x8000_0000 when not measured (R68). DESIGN CHOICE (log 53): a value beyond the
field is held at ±2,147,483,647, so that none reads as not measured. -/
def yField (y : Option Int) : Nat :=
  match y with
  | none => 0x80000000
  | some v => ofSigned 32 (max (-2147483647) (min 2147483647 v))

/-- The median of a list (R43, R47, R48): the middle value. DESIGN CHOICE (log 53): of an even number of values it is the mean of the middle
two, rounded half up. -/
def median (ys : List Int) : Option Int :=
  let zs := sortBy (fun a b => decide (a ≤ b)) ys
  let n := zs.length
  if n = 0 then none
  else if n % 2 = 1 then zs[n / 2]?
  else some (roundHalfUp ((zs.getD (n / 2 - 1) 0) + (zs.getD (n / 2) 0)) 2)

/-- The rate terms of the lanes whose model is VALID, in 10^-13 (R43, R189). -/
def State.rateTerms (s : State) : List Int :=
  (s.models.filter fun e => s.get F.ltsb_mstate e.1 = 2).map fun e => toSigned 32 (s.get F.ltsb_rate e.1)

/-- The span of the middle half of the rate terms (R43). DESIGN CHOICE (log 53): the middle half of n values in order are those with index
n / 4 to n − 1 − n / 4. -/
def middleSpan (ys : List Int) : Nat :=
  let zs := sortBy (fun a b => decide (a ≤ b)) ys
  let n := zs.length
  if n = 0 then 0 else (zs.getD (n - 1 - n / 4) 0 - zs.getD (n / 4) 0).toNat

/-- The voters (R44) as (index, y): the routed references in QUALIFY, GOOD or DRIFTING, and 3 for the ensemble. -/
abbrev Voters := List (Nat × Int)

/-- The y of the voters other than `r`. -/
def others (vs : Voters) (r : Nat) : List Int := (vs.filter fun v => v.1 ≠ r).map fun v => v.2

/-- A voter departs (R48). -/
def departs (vs : Voters) (limit : Nat) (r : Nat) (y : Int) : Bool :=
  match median (others vs r) with
  | none => false
  | some m => decide (limit < (y - m).natAbs) &&
      decide (2 ≤ ((others vs r).filter fun z => decide ((z - m).natAbs ≤ limit)).length)

/-- What the monitor makes of one reference in a second (R46 to R48). While nothing is measured REF_A leaves WARMING on the pin alone
(R45, R452). -/
def monitorRef (s : State) (vs : Voters) (r : Nat) (y : Option Int) (disagree measured : Bool) : State :=
  let limit := s.get F.refsel1_drift_limit 0 * 10
  let persist := s.get F.refsel1_persist 0
  let x := s.refx r
  let m := median (others vs r)
  let d := match y, m with
    | some v, some w => some (v - w)
    | _, _ => none
  let dep := match y with
    | some v => (vs.any fun e => e.1 = r) && departs vs limit r v
    | none => false
  let s := (s.put F.refy_y_tb r (yField y)).put F.refy_y_dev r (yField d)
  let s := { s with rf := { s.rf with devs := match d with
    | some v => mset 0 s.rf.devs r v
    | none => s.rf.devs } }
  let run := if dep || disagree then satAdd 16 (s.get F.refs_depart_s r) 1 else 0
  let s := s.put F.refs_depart_s r run
  match s.refState r with
  | 2 =>
    let pin := s.flag F.refs_warm_pin 0 || !s.flag F.refsel0_warm_pin_en 0
    let settled := !measured || (others vs r).isEmpty ||
      (match d with
       | some v => decide (v.natAbs ≤ s.get F.refsel1_warm_limit 0 * 10)
       | none => false)
    let n := if pin && settled then x.warmRun + 1 else 0
    if s.get F.refsel1_warm_persist 0 ≤ n then setRef s r 3 else s.setRefx r { x with warmRun := n }
  | 3 =>
    let gone := if dep then x.okRun + 1 else 0
    let n := if dep then 0 else x.qualRun + 1
    if persist ≤ gone then setRef s r 5
    else if s.get F.refsel1_qual_s 0 ≤ n then setRef s r 4
    else s.setRefx r { x with qualRun := n, okRun := gone }
  | 4 =>
    let gone := if dep then x.okRun + 1 else 0
    if persist ≤ gone then setRef s r 5 else s.setRefx r { x with okRun := gone }
  | 5 =>
    let n := if dep then 0 else x.clearRun + 1
    if persist ≤ n then setRef s r 3 else s.setRefx r { x with clearRun := n }
  | _ => s

/-- The pairs of voters, each with its number. -/
def voterPairs : List (Nat × Nat × Nat) := [(0, 0, 1), (1, 0, 2), (2, 1, 2), (3, 0, 3), (4, 1, 3), (5, 2, 3)]

/-- A voter's y. -/
def voterY (vs : Voters) (r : Nat) : Option Int := (vs.find? fun v => v.1 = r).map fun v => v.2

/-- Two voters differ by more than the limit. -/
def differ (vs : Voters) (limit a b : Nat) : Bool :=
  match voterY vs a, voterY vs b with
  | some x, some y => decide (limit < (x - y).natAbs)
  | _, _ => false

/-- The EVENT of the ambiguous flag (R49, R360 class 0x0A). -/
def ambiguousEvent (s : State) (code : Nat) : State := event s 0 0x0A code stOk 3 [s.selWord]

/-- The ambiguous flag (R49, R50). Each pair of voters has its own run of seconds of disagreement; `drifted` are the references declared
DRIFTING in this second. The flag is that of the pairs that R49 found: it clears when each of them has a reference declared DRIFTING. -/
def ambiguity (s : State) (vs : Voters) (drifted : List Nat) : State :=
  let limit := s.get F.refsel1_drift_limit 0 * 10
  let persist := s.get F.refsel1_persist 0
  let runs := voterPairs.foldl (fun m p =>
    mset 0 m p.1 (if differ vs limit p.2.1 p.2.2 then mget 0 m p.1 + 1 else 0)) s.rf.pairRuns
  let any := voterPairs.any fun p => differ vs limit p.2.1 p.2.2
  let calm := if any then 0 else s.rf.calmRun + 1
  let dep := fun (r : Nat) => match voterY vs r with
    | some y => departs vs limit r y
    | none => false
  let found := (voterPairs.filter fun p => decide (persist ≤ mget 0 runs p.1) && !dep p.2.1 && !dep p.2.2).map fun p => p.1
  let left := s.rf.ambig.filter fun n => voterPairs.any fun p => p.1 = n && !drifted.contains p.2.1 && !drifted.contains p.2.2
  let verdict := left.isEmpty && found.isEmpty
  let s := { s with rf := { s.rf with pairRuns := runs, calmRun := calm, ambig := left ++ found.filter fun n => !left.contains n } }
  if !s.flag F.refst0_ambiguous 0 then
    if !found.isEmpty then raise (ambiguousEvent (s.put F.refst0_ambiguous 0 1) 1) 0x9002 0x13 0 false else s
  else if decide (persist ≤ calm) || verdict then
    ambiguousEvent ({ s with rf := { s.rf with ambig := [] } }.put F.refst0_ambiguous 0 0) 0
  else s

/-- Once per second (R42 to R50), from the stamps that the monitor has taken; `warm` is the level of REF_A_WARM, and `t` the tick. -/
def execRefMonitorSecond (warm : Bool) (t : Nat) (s : State) : Res :=
  let s := advanceTo s t
  let s := s.put F.refs_warm_pin 0 (b2n warm)
  let measured := s.flag F.refsel0_xmeas_en 0 && s.domOn 27
  let sums := s.rf.sums
  let y := fun (r : Nat) => if measured then yOf (mget RegSum.init sums r) else none
  let s := { s with rf := { s.rf with sums := [], holdY := y 3 } }
  let terms := s.rateTerms
  let spread := middleSpan terms
  let yE := median terms
  let ens := s.flag F.refsel0_ens_en 0 && decide (s.get F.refsel1_ens_min 0 ≤ terms.length) && !terms.isEmpty &&
    decide (spread ≤ s.get F.refsel1_drift_limit 0 * 10)
  let s := ((s.put F.refpps_ens_lanes 0 (min 1023 terms.length)).put F.refpps_ens_voter 0 (b2n ens)).put F.refens_y_ens 0 (yField yE)
  let s := s.put F.refens_ens_spread 0 (min (2 ^ 32 - 1) spread)
  let refVoters : Voters := [0, 1, 2].filterMap fun r =>
    match y r with
    | some v => if s.refState r = 3 || s.refState r = 4 || s.refState r = 5 then some (r, v) else none
    | none => none
  let vs : Voters := refVoters ++ (match ens, yE with
    | true, some v => [(3, v)]
    | _, _ => [])
  let limit := s.get F.refsel1_drift_limit 0 * 10
  let dis := fun (r : Nat) => voterPairs.any fun p => (p.2.1 = r || p.2.2 = r) && differ vs limit p.2.1 p.2.2
  let y0 := y 0
  let y1 := y 1
  let y2 := y 2
  let d0 := dis 0
  let d1 := dis 1
  let d2 := dis 2
  let before := [0, 1, 2].filter fun r => s.refState r != 5
  let s := monitorRef (monitorRef (monitorRef s vs 0 y0 d0 measured) vs 1 y1 d1 measured) vs 2 y2 d2 measured
  .next (selSettle (ambiguity s vs (before.filter fun r => s.refState r = 5)))

/-! ### Selector events -/

/-- A phase error in ps and a fractional frequency error in 10^-12 within the lock limits of R52. -/
def lockOk (phase freq : Int) : Bool := decide (phase.natAbs ≤ 250) && decide (freq.natAbs ≤ 1000)

/-- R52: the largest phase error in ps, and the fractional frequency error in 10^-12, of the 10 ms that end at tick `t`. The selector enters
LOCKED when both limits have held without a break for 100 ms; a break restarts them. -/
def execAcquireLock (phase freq : Int) (t : Nat) (s : State) : Res :=
  if s.selState = 1 then
    let s := advanceTo s t
    let t := s.tb.tick
    if lockOk phase freq then
      let from1 := match s.rf.lockFrom with
        | some f => if t ≤ s.rf.lockTo + 10 * Config.milli then f else t - 10 * Config.milli
        | none => t - 10 * Config.milli
      let s := { s with rf := { s.rf with lockFrom := some from1, lockTo := t } }
      if from1 + 100 * Config.milli ≤ t then .next (selSettle (setSel s 2)) else .next s
    else .next { s with rf := { s.rf with lockFrom := none, lockTo := t } }
  else .next s

/-- R54: at 1.0 ms the build-out register is loaded with the measured phase and the loop closes at 100 Hz. -/
def execSwitchBuildOut (phase : Int) (s : State) : Res :=
  match s.selState, s.rf.switchAt with
  | 3, some t0 =>
    let s := advanceTo s (t0 + Config.milli)
    .next (closeLoop { s with rf := { s.rf with buildOut := some phase } } true)
  | _, _ => .next s

/-- R54: at 2.0 ms the bandwidth returns to REFSEL.loop_bw and the selector is LOCKED on the target, with an EVENT to partition 0. -/
def execSwitchComplete (s : State) : Res :=
  match s.selState, s.rf.switchAt with
  | 3, some t0 =>
    let s := advanceTo s (t0 + 2 * Config.milli)
    let r := s.target
    let s := ((s.put F.refst0_selected 0 r).put F.refst0_target 0 3).put F.refst0_provisional 0 0
    let s := s.satInc F.refst0_switch_count 0 1
    let s := closeLoop { s with rf := { s.rf with switchAt := none, holdAt := none } } false
    .next (selSettle (setSel s 2))
  | _, _ => .next s

/-- R56: the timer of a better candidate reaches REFSEL.wtr_s. -/
def execWaitToRestoreExpiry (ref : Nat) (s : State) : Res :=
  match (s.refx ref).wtr with
  | some t0 =>
    if ref < 3 && s.refState ref = 4 then
      .next (selSettle (advanceTo s (t0 + s.get F.refsel0_wtr_s 0 * Config.second)))
    else .next s
  | none => .next s

/-- REF_SELECT in one of its forms (R57, R58). -/
def refSelect (form : Nat) (c : Cmd) (s : State) : Result :=
  checked c true 1 <|
    let w := c.par 0
    let r := bits w 1 0
    refuseIf (stray w [(1, 0)] || (form ≠ 1 && r ≠ 0) || (form = 1 && r = 3)) stBadParam 1 <|
    noMore c 1 <|
    refuseIf (form = 1 && s.refState r ≠ 4) stBadParam 1 <|
    .later { s with rf := { s.rf with sel := some { cmd := c, form := form, ref := r, started := false } } }

/-- REF_SELECT AUTO. -/
def execRefSelectAuto (c : Cmd) (s : State) : Res := .next (selSettle (runCmd 0x20 c (refSelect 0 c) s))
/-- REF_SELECT FORCED. -/
def execRefSelectForced (c : Cmd) (s : State) : Res := .next (selSettle (runCmd 0x20 c (refSelect 1 c) s))
/-- REF_SELECT HOLDOVER. -/
def execRefSelectHoldover (c : Cmd) (s : State) : Res := .next (selSettle (runCmd 0x20 c (refSelect 2 c) s))

/-- A reference counts as a voter (R44, R68): routed, measured in the last second, and in QUALIFY, GOOD or DRIFTING. -/
def State.votes (s : State) (r : Nat) : Bool :=
  s.flag F.refsel0_xmeas_en 0 && s.get F.refy_y_tb r ≠ 0x80000000 && (s.refState r = 3 || s.refState r = 4 || s.refState r = 5)

/-- The nine words of REF_STATUS (R68). -/
def refStatusWords (s : State) : List Word :=
  let two := fun (r : Nat) => [s.word 0x20 1 r, setBits (setBits (s.word 0x20 2 r) 63 48 (secondsSince s (s.refx r).since 16)) 7 7 (b2n (s.votes r))]
  let recent := match s.rf.ppsLast with
    | some t0 => decide (s.tb.tick ≤ t0 + 1500 * Config.milli)
    | none => false
  [s.selWord] ++ two 0 ++ two 1 ++ two 2 ++ [setBits (s.word 0x20 7 0) 36 36 (b2n recent), s.word 0x20 8 0]

/-- REF_STATUS, from every partition (R68). -/
def refStatusBody (c : Cmd) (s : State) : Result := checked c false 0 (noMore c 0 (.done s stOk 0 (refStatusWords s)))

/-- REF_STATUS. -/
def execRefStatus (c : Cmd) (s : State) : Res := .next (runCmd 0x21 c (refStatusBody c) s)

/-! ### Device time -/

/-- A word is a CHAN channel word with a mode other than off. -/
def modeOn (k : Nat) (w : Word) : Bool := k / 2 ^ 24 = 3 * 256 && bits w 63 61 ≠ 0

/-- The device is quiescent (R61): mode off in every live channel word and in every value given GO. DESIGN CHOICE (log 53): while a WRITE_LIVE
waits for its adoption, both the word in force and the written one count as live copies. -/
def State.quiescent (s : State) : Bool :=
  !(s.regs.any fun e => modeOn e.1 e.2) && !(s.cmd.written.any fun e => modeOn e.1 e.2.word) &&
    !(s.cmd.gone.any fun g => decide (s.full < g.full) && g.words.any fun e => modeOn e.1 e.2)

/-- TIME_SET (R61, R62): partition, parameters, then quiescence. -/
def timeSetBody (c : Cmd) (s : State) : Result :=
  checked c true 2 <|
    refuseIf (stray (c.par 0) [(15, 0)]) stBadParam 1 <|
    refuseIf (stray (c.par 1) [(53, 0)] || bits (c.par 1) 11 0 ≠ 0) stBadParam 2 <|
    noMore c 2 <|
    refuseIf (!s.quiescent) stBadParam 0 <|
    .later { s with tb := { s.tb with step := some { atFull := boundaryAfter s.full 4096, newFull := bits (c.par 0) 15 0 * 2 ^ 54 + bits (c.par 1) 53 0, stamp := 0, pps := false, cmd := c } } }

/-- TIME_SET. -/
def execTimeSet (c : Cmd) (s : State) : Res := .next (runCmd 0x22 c (timeSetBody c) s)

/-- PPS_ALIGN (R61, R64): the STEP form is checked for quiescence last. -/
def ppsAlignBody (step : Bool) (c : Cmd) (s : State) : Result :=
  checked c true 2 <|
    refuseIf (stray (c.par 0) [(15, 0)]) stBadParam 1 <|
    refuseIf (stray (c.par 1) [(53, 0)]) stBadParam 2 <|
    noMore c 2 <|
    refuseIf (step && !s.quiescent) stBadParam 0 <|
    .later { s with rf := { s.rf with pps := some { cmd := c, step := step, full := bits (c.par 0) 15 0 * 2 ^ 54 + bits (c.par 1) 53 0, deadline := s.tb.tick + 1500 * Config.milli } } }

/-- PPS_ALIGN MEASURE. -/
def execPpsAlignMeasure (c : Cmd) (s : State) : Res := .next (runCmd 0x23 c (ppsAlignBody false c) s)
/-- PPS_ALIGN STEP. -/
def execPpsAlignStep (c : Cmd) (s : State) : Res := .next (runCmd 0x23 c (ppsAlignBody true c) s)

/-- R60: device time reaches the wrap of the coarse count. -/
def execCoarseWrap (s : State) : Res := .next (advance s (2 ^ 54 - s.tb.coarse.toNat))

/-- The signed ticks from the nearest whole second of device time (R68). DESIGN CHOICE (log 53): whole seconds are counted on the full count with
its epoch, and a stamp half a second from both is taken after the earlier. -/
def ppsOffset (full : Nat) : Int :=
  let r := full % Config.second
  if 2 * r ≤ Config.second then (r : Int) else (r : Int) - (Config.second : Int)

/-- The reply of PPS_ALIGN: the stamp S, and V − S in ticks (R64, R411). -/
def ppsReply (sFull vFull : Nat) : List Word :=
  [pack [(53, 0, sFull)], BitVec.ofNat 64 (ofSigned 64 ((vFull : Int) - (sFull : Int)))]

/-- R64: an edge of the selected polarity is stamped with the first tick at or after it and completes a waiting
PPS_ALIGN; in STEP form the new count is given to the first boundary at least 4,096 ticks later (R65). -/
def execPpsEdge (falling : Bool) (t : Nat) (s : State) : Res :=
  let s := advanceTo s t
  if s.flag F.refsel0_pps_en 0 && s.flag F.refsel0_pps_pol 0 = falling then
    let s := (s.wrapInc F.refpps_pps_count 0 1).put F.refpps_pps_offset 0 (ofSigned 32 (ppsOffset s.full))
    let s := { s with rf := { s.rf with ppsLast := some s.tb.tick } }
    match s.rf.pps with
    | none => .next s
    | some p =>
      if p.deadline < s.tb.tick then .next s
      else
        let s1 := { s with rf := { s.rf with pps := none } }
        if p.step then
          let b := boundaryAfter s.full 4096
          .next { s1 with tb := { s1.tb with step := some { atFull := b, newFull := ofSigned 70 ((b : Int) + (p.full : Int) - (s.full : Int)), stamp := s.full, pps := true, cmd := p.cmd } } }
        else .next (finish s1 p.cmd 0x23 stOk 0 (ppsReply s.full p.full))
  else .next s

/-- R64: no edge within 1.5 s. -/
def execPpsAlignTimeout (s : State) : Res :=
  match s.rf.pps with
  | none => .next s
  | some p =>
    let s := advanceTo s p.deadline
    .next (finish { s with rf := { s.rf with pps := none } } p.cmd 0x23 stTimeout 0 [])

/-- The earliest time, in fine LSB, of a precision stamp for a core die still held or queued at the anchor (R218). -/
def State.earliestStamp (s : State) (die : Nat) : Option Nat :=
  let held := s.comps.filterMap fun e =>
    match s.boundChan e.1 with
    | some ch => if ch / 2 ^ 20 = die then ((e.2.held.filter fun st => st.lead && !s.routed (e.1 / 2) (st.edge / Config.edgeTick)).map fun st => (st.time.getD (st.edge / 100 : Nat)).toNat).min? else none
    | none => none
  let queued := ((mget [] s.anchorQ die).map fun h => h.time)
  (held ++ queued).min?

/-- The anchor's marker for a core die with the notice of boundary `b` (R218). -/
def State.anchorMark (s : State) (die b : Nat) : Nat :=
  let m := (b - 512) * 1024
  match s.earliestStamp die with
  | some t => min m (t - 1)
  | none => m

/-- A lane die's check of its count at a boundary (R19): a disagreeing die raises a fault and adopts the anchor's count
from the next boundary; one that agrees again by then has nothing to adopt. -/
def laneDieCheck (s : State) (n : Nat) : State :=
  if mget 0 s.tb.laneErr n = 0 then { s with tb := { s.tb with laneAdopt := s.tb.laneAdopt.filter (· ≠ n) } }
  else if s.tb.laneAdopt.contains n then
    { s with tb := { s.tb with laneErr := merase s.tb.laneErr n, laneAdopt := s.tb.laneAdopt.filter (· ≠ n) } }
  else raise { s with tb := { s.tb with laneAdopt := s.tb.laneAdopt ++ [n] } } (dieSource (8 + n) 3) 0x09 0 false

end Sys2Proof.Machine
end

