-- ==== Sys2Proof/Machine/Link.lean ====
section
/-! DEFINITION. What lanes, groups, partner time, transactions and lane ingress queues share: frames to a partner, drop counts,
watermarks and pause (R315, R342 to R348), distrust and isolation (R197), model states (R186) and transaction tags (R195).
A group is named by its first configured lane. -/

namespace Sys2Proof.Machine

/-! ### Frames and lane ingress queues -/

/-- A frame leaves for the partner (R174, R175). -/
def sendFrame (s : State) (g kind : Nat) (ws : List Word) : State :=
  let x := s.group g
  let start := frameStart x.txSeq kind 0
  let t := dealBlocks (s.setGroup g { x with txSeq := (x.txSeq + 1) % 65536 }) g (ws.length + 2)
  transmit t (.frame g start ws (frameEnd start ws) x.dealt)

/-- Adds to the drop count of a group (R338). -/
def dropGroup (s : State) (g n : Nat) : State := s.satInc F.qia_drops g n

/-- A group loses what cannot be assigned to channels (R266, GAP): the first and the last such moment of each caravan are kept, as
long as a gate could span them. -/
def gapNote (s : State) (g : Nat) : State :=
  let f := s.full
  let x := s.group g
  let old := x.gaps.filter fun e => decide (f < e + 2 ^ 32)
  let gaps := match old with
    | a :: b :: rest => if a / 4096 = f / 4096 && b / 4096 = f / 4096 then f :: b :: rest else f :: old
    | _ => f :: old
  s.setGroup g { x with gaps := gaps }

/-- The lines of a queue's registers: 16 less those retired (R313, R418). -/
def regLines (lost : Nat) : Nat := 16 - min 14 lost

/-- The capacity of a lane ingress queue in lines (R315). -/
def State.ingCapacity (s : State) (g : Nat) : Nat :=
  regLines (s.ing g).linesLost + Config.linesPerMiB * sumOver (fun l => s.get F.qic_erg_quota l) (s.span g)

/-- The lines from the one that holds the word `start` to the tail line after `wp` words, a partly written one included (R315, R318). -/
def linesFrom (start wp : Nat) : Nat := ceilDiv wp 8 - start / 8

/-- A 512-bit line of at most eight words: the first in bits [511:448], zero words past the last (R318, R319). -/
def packLine (ws : List Word) : BitVec 512 :=
  BitVec.ofNat 512 ((ws ++ List.replicate (8 - ws.length) 0#64).foldl (fun n w => n * 2 ^ 64 + w.toNat) 0)

/-- The tag of a line: its count of valid bytes (R318). -/
def lineTag (ws : List Word) : Nat := 8 * ws.length

/-- The lines of words written from the word `start` on, each with its tag: a line ends at a multiple of eight words (R318). The words before `start`
in its line, read or released already, count in its tag and are shown as zero. -/
def linesOf (start : Nat) : Nat → List Word → List (BitVec 512 × Nat)
  | 0, _ => []
  | n + 1, ws =>
    if ws.isEmpty then []
    else
      let line := List.replicate (start % 8) 0#64 ++ ws.take (8 - start % 8)
      (packLine line, lineTag line) :: linesOf 0 n (ws.drop (8 - start % 8))

/-- The lines of a queue's pieces of data, each with the word at which it starts, oldest first: runs that end where a tail line was closed and
padded, and what follows them (R318, R319). -/
def tableOf (pieces : List (Nat × List Word)) : List (BitVec 512 × Nat) :=
  let runs := pieces.foldl (fun (m : List (Nat × List Word)) r =>
    match m with
    | (a, ws) :: rest => if a + ws.length = r.1 then (a, ws ++ r.2) :: rest else r :: m
    | [] => [r]) []
  runs.reverse.flatMap fun e => linesOf e.1 (e.2.length + 1) e.2

/-- The write pointer once a reader has read through the word `e`: a partly written tail line that it reaches is closed and padded (R319). -/
def closeTail (wp e : Nat) : Nat := if wp / 8 * 8 < e then ceilDiv wp 8 * 8 else wp

/-- The lines of a lane ingress queue with `n` more words written (R315, R334, R336): from the release pointer, at the oldest frame's mark,
to the write pointer. -/
def Ingress.lines (x : Ingress) (n : Nat) : Nat := linesFrom ((x.frames.head?.map fun f => f.start).getD x.wp) (x.wp + n)

/-- The write pointer once the whole queue has been read. -/
def Ingress.closed (x : Ingress) : Ingress := { x with wp := ceilDiv x.wp 8 * 8 }

/-- The lines of a lane ingress queue, each with its tag (R318, R319). -/
def Ingress.lineTable (x : Ingress) : List (BitVec 512 × Nat) := tableOf (x.frames.map fun f => (f.start, f.words))

/-- The lines in the Erg middle after words have been taken back off the tail, which leaves `new` lines (R328, R330): the tail's own lines go first. -/
def midBack (new mid : Nat) : Nat := min mid (new - 8)

/-- The lines in the Erg middle after the fill has gone from `old` to `new` lines: the head refills from the middle first (R314),
and what the registers cannot hold has been spilled. -/
def midAfter (lost old new mid : Nat) : Nat :=
  if new < old then (new - 8) - (old - min 8 old - mid) else max mid (new - regLines lost)

/-- The words that a queue's reader corrects (R324): the counter saturates and says so. -/
def countEcc (s : State) (corr sat : Field) (i n : Nat) : State :=
  let s := if s.get corr i + n < 2 ^ 32 - 1 then s else s.put sat i 1
  s.satInc corr i n

/-- A fill is at or above a watermark (R342). -/
def atMark (w capacity fill : Nat) : Bool := decide (ceilDiv (w * capacity) 1024 ≤ fill)

/-- PAUSED after a change of fill in HYST mode (R343). -/
def hystPaused (hi lo capacity fill : Nat) (paused : Bool) : Bool :=
  if atMark hi capacity fill then true else if fill ≤ lo * capacity / 1024 then false else paused

/-- Tile pressure on a group (R347). -/
def State.pressed (s : State) (g : Nat) : Bool :=
  s.flag F.qic_press_en g && (s.group g).recentTiles.any fun e =>
    decide (s.tb.tick ≤ e.2 + 4096) && decide (s.get F.tmc_shed_lo e.1 * 128 ≤ (s.tile e.1).buf)

/-- A flow-control frame (R348): 1 pause, 2 resume. -/
def pauseFrame (s : State) (g op : Nat) : State :=
  sendFrame s g 4 [pack [(63, 56, op), (55, 40, s.get F.qic_pause_hold g)]]

/-- Begins or ends the pause of a group (R347, R348). -/
def pauseSettle (s : State) (g : Nat) : State :=
  let press := s.pressed g
  let s := s.put F.qia_pressure g (b2n press)
  let want := s.groupUp g && !s.host g && ((s.flag F.qia_paused g && s.flag F.qic_pause_en g) || press)
  let x := s.ing g
  if want && !x.pausing then
    let s := (pauseFrame s g 1).satInc F.qis_pauses g 1
    s.setIng g { x with pausing := true, repeatAt := s.tb.tick + s.get F.qic_pause_hold g * 1280 }
  else if !want && x.pausing then
    let s := if s.groupUp g then pauseFrame s g 2 else s
    s.setIng g { x with pausing := false }
  else s

/-- A lane ingress queue can hold `n` more words: within its capacity, and with no more lines than head and tail hold beside its middle while the
spill write of its oldest tail line waits (R315, R327). -/
def State.ingRoom (s : State) (g n : Nat) : Bool :=
  let x := s.ing g
  decide (x.lines n ≤ s.ingCapacity g) && (!x.stalled || decide (x.lines n ≤ x.mid + regLines x.linesLost))

/-- Brings the status words of a lane ingress queue up to date after a change of its contents: fill, full, uncommitted
frames, PAUSED or a level crossing, and the pause (R327, R335, R342 to R347). A queue is full when its next word would not be written: a partly written
last line of the tail still takes words. -/
def ingSettle (s : State) (g : Nat) : State :=
  let cap := s.ingCapacity g
  let old := s.get F.qis_fill g
  let fill := (s.ing g).lines 0
  let hi := s.get F.qic_hi g
  let x := { s.ing g with mid := midAfter (s.ing g).linesLost old fill (s.ing g).mid }
  let s := s.setIng g x
  let s := (s.put F.qis_fill g fill).put F.qia_full g (b2n !(s.ingRoom g 1))
  let s := s.put F.qia_uncommitted g (min 127 ((s.ing g).frames.filter fun f => f.stage = 1).length)
  let s :=
    if s.flag F.qic_mode g then
      let s := s.put F.qia_paused g 0
      if atMark hi cap fill && !atMark hi cap old && !s.flag F.qia_attn g then
        event (s.put F.qia_attn g 1) (s.groupOwner g) 0x06 0 stOk g [BitVec.ofNat 64 fill]
      else s
    else s.put F.qia_paused g (b2n (hystPaused hi (s.get F.qic_lo g) cap fill (s.flag F.qia_paused g)))
  pauseSettle s g

/-- The words of a frame that is discarded while it is written are taken back off the tail (R328): the contents are those of `x` again. -/
def ingBack (s : State) (g : Nat) (x : Ingress) : State :=
  let fill := x.lines 0
  let y := s.ing g
  ingSettle ((s.setIng g { y with frames := x.frames, next := x.next, wp := x.wp, mid := midBack fill y.mid }).put F.qis_fill g fill) g

/-- Data words of a frame as hit and marker words: 64 bits under P64; under P48 packed without gaps, most significant bit
first (R176). -/
def unpack48 : List Word → List Nat
  | a :: b :: c :: rest =>
    bits a 63 16 :: (bits a 15 0 * 2 ^ 32 + bits b 63 32) :: (bits b 31 0 * 2 ^ 16 + bits c 63 48) :: bits c 47 0 :: unpack48 rest
  | [a, b] => [bits a 63 16, bits a 15 0 * 2 ^ 32 + bits b 63 32]
  | [a] => [bits a 63 16]
  | [] => []

/-- The hit and marker words of a frame. -/
def frameWords (p64 : Bool) (ws : List Word) : List Nat := if p64 then ws.map BitVec.toNat else unpack48 ws

/-- The valid bytes of a frame's data blocks (R174). -/
def frameBytes (f : Frame) : Nat := 8 * (f.words.length - 1) + min 8 f.bytes

/-- The first `k` bits of a frame's data, what follows them being zero. -/
def keepBits : List Word → Nat → List Word
  | [], _ => []
  | w :: ws, k => BitVec.ofNat 64 (w.toNat / 2 ^ (64 - k) * 2 ^ (64 - k)) :: keepBits ws (k - 64)

/-- The data blocks of a hit frame, null past the last word that its valid bytes hold whole (R174, R176). -/
def validData (p64 : Bool) (f : Frame) : List Word :=
  keepBits f.words (if p64 then frameBytes f / 8 * 64 else frameBytes f / 6 * 48)

/-- The kind of a hit or marker word: 0 null, 1 hit, 2 marker, 3 reserved (R176). -/
def wordKind (p64 : Bool) (w : Nat) : Nat := if p64 then w / 2 ^ 62 else w / 2 ^ 46

/-- The hit words of a frame (R320). -/
def hitCount (p64 : Bool) (ws : List Word) : Nat := ((frameWords p64 ws).filter fun w => wordKind p64 w = 1).length

/-- The marker words of a frame (R188). -/
def markCount (p64 : Bool) (ws : List Word) : Nat := ((frameWords p64 ws).filter fun w => wordKind p64 w = 2).length

/-- The format of a group's frames: that of its operating run (R150). -/
def State.isP64 (s : State) (g : Nat) : Bool := s.flag F.lsa_fmt_p64 (s.get F.grp_run_first g)

/-- An item belongs to a frame of a source. -/
def TItem.inFrame (src frame : Nat) : TItem → Bool
  | .hit h => h.src = src && h.frame = frame
  | .marker a b _ => a = src && b = frame
  | .token a b => a = src && b = frame

/-- A hit of a source. -/
def TItem.hitOf (src : Nat) : TItem → Bool
  | .hit h => h.src = src
  | _ => false

/-- What the tiles and the Saddle hold of uncommitted frames of a group is discarded with them (R210). -/
def purge (s : State) (g : Nat) (fs : List IFrame) : State :=
  let keep := fun (it : TItem) => !fs.any fun f => TItem.inFrame g f.seq it
  { s with
    toTile := mall [] s.toTile fun its => its.filter fun e => keep e.2
    tiles := mall Tile.init s.tiles fun x =>
      { x with prov := x.prov.filter keep, buf := x.buf - (x.prov.filter fun it => it.hitOf g && !keep it).length } }

/-- Every frame of a lane ingress queue is discarded with its hit words counted (R337). -/
def dropIngress (s : State) (g : Nat) : State :=
  let x := s.ing g
  let n := sumOver (fun (f : IFrame) => f.hits) x.frames
  let s := purge s g (x.frames.filter fun f => f.stage = 1)
  ingSettle (dropGroup (s.setIng g { x.closed with frames := [] }) g n) g

/-! ### Waiting for a group (R216, R217) -/

/-- A group is stale for a caravan (R217): until the first one that starts after its next marker, whenever the earlier ones close. -/
def State.staleFor (s : State) (g k : Nat) : Bool :=
  match (s.group g).staleTo with
  | some n => decide (k < n)
  | none => s.flag F.gmrg_stale g

/-- A group that is UP has promised to cover a caravan (R216, R217): it is not isolated, not stale, and has forwarded a marker since it entered
UP, before the caravan began. -/
def State.covering (s : State) (g k : Nat) : Bool :=
  let x := s.group g
  s.groupUp g && !x.isolated && !s.staleFor g k && x.markerUp && match x.waitFrom with
    | some w => decide (w ≤ k)
    | none => false

/-- Shows whether a group is waited for in the present caravan. -/
def showWaited (s : State) (g : Nat) : State :=
  s.put F.gmrg_waited g (b2n (s.flag F.gmrg_wait_en g && s.covering g (s.full / 4096)))

/-! ### Distrust and isolation -/

/-- Isolation of a group (R197). -/
def isolate (s : State) (g count : Nat) : State :=
  let s := s.setGroup g { s.group g with isolated := true }
  let s := (s.span g).foldl (fun s l => s.put F.ltsb_isolated l 1) s
  let s := showWaited s g
  let s := raise s (0x0800 + g) 0x10 0 false
  eventBoth s (s.groupOwner g) 0x09 0 stOk g [BitVec.ofNat 64 count]

/-- The distrust events a group has counted in the present second of device time (R197). -/
def State.distrustNow (s : State) (g : Nat) : Nat :=
  let x := s.group g
  if x.distrustSec = s.full / Config.second then x.distrust else 0

/-- Distrust events of a partner-facing group (R197). -/
def distrust (s : State) (g n : Nat) : State :=
  if n = 0 || s.host g then s
  else
    let count := s.distrustNow g + n
    let s := s.setGroup g { s.group g with distrust := count, distrustSec := s.full / Config.second }
    if !(s.group g).isolated && decide (s.get F.ltc_distrust_limit g < count) then isolate s g count else s

/-! ### Partner-time models -/

/-- The lowest lane of the operating run whose model is VALID (R189). -/
def State.modelLane (s : State) (g : Nat) : Option Nat := (s.runLanes g).find? fun l => s.get F.ltsb_mstate l = 2

/-- Shows which lane's model converts the group's hits (R189, R199). -/
def showModelLane (s : State) (g : Nat) : State :=
  let m := s.modelLane g
  (s.span g).foldl (fun s l => s.put F.ltsb_model_lane l (b2n (m = some l))) s

/-- A model takes a state (R186). -/
def putMstate (s : State) (l st : Nat) : State :=
  showModelLane ((s.put F.ltsb_mstate l st).setModel l { s.model l with enteredAt := s.tb.tick }) (s.groupOf l)

/-- floor(log2) of the pairs in the window (R199). -/
def fillLog2 (n : Nat) : Nat := ilog2 n

/-- The rate term g, held in 2^-60, as LANE.rate shows it: units of 10^-13, saturating above 0x8000_0000. -/
def rateField (g : Int) : Nat :=
  let r := roundHalfUp (g * 10000000000000) (2 ^ 60)
  ofSigned 32 (max (-2147483647) (min 2147483647 r))

/-- Shows a lane's fit: offset, rate and the fill of the window (R199). -/
def showFit (s : State) (l : Nat) : State :=
  let m := s.model l
  let s := s.put F.ltsb_fill_log2 l (min 31 (fillLog2 m.window.length))
  if m.fitted then
    (s.put F.ltsa_offset l (ofSigned 64 (roundHalfUp (m.d - m.u) 16))).put F.ltsb_rate l (rateField m.g)
  else (s.put F.ltsa_offset l 0).put F.ltsb_rate l 0x80000000

/-- A model with an empty window: no fit of it is due. -/
def Model.cleared (m : Model) : Model := { m with window := [], sinceFit := 0, fitDue := none, held := [] }

/-- A model without window and fit; what concerns beacons stays. -/
def Model.emptied (m : Model) : Model := { m.cleared with u := 0, d := 0, g := 0, fitted := false }

/-- ACQUIRE with an empty window (R186); a prior fit still predicts for the unwrap (R182). -/
def modelAcquire (s : State) (l : Nat) : State :=
  putMstate (showFit (s.setModel l (s.model l).cleared) l) l 1

/-- NONE: the next exchange starts a new unwrap (R182, R186). -/
def modelNone (s : State) (l : Nat) : State :=
  let s := s.setModel l { (s.model l).emptied with lastT2 := none, lastAccept := none }
  (putMstate (showFit s l) l 0).put F.ltsb_resid_rms l 0

/-- A lane may keep a model: timing on and the partner answers beacons (R186, R188). -/
def State.timed (s : State) (l : Nat) : Bool := s.flag F.ltc_timing_en l && s.flag F.lsa_echo l

/-- NONE while the group is UP with timing on becomes ACQUIRE at once (R186). -/
def modelStart (s : State) (l : Nat) : State :=
  if s.get F.ltsb_mstate l = 0 && s.timed l && !s.host l && (s.runLanes (s.groupOf l)).contains l then
    let s := modelAcquire s l
    s.setModel l { s.model l with lastAccept := some s.tb.tick }
  else s

/-- Beacons without an accepted exchange are counted (R180). -/
def loseBeacons (s : State) (l : Nat) : State :=
  let m := s.model l
  (s.satInc F.ltsc_exch_lost l m.beacons.length).setModel l { m with beacons := [], echoes := [], ended := m.ended ++ m.beacons }

/-- The group of a lane leaves UP (R186): HOLD, or NONE when the lane has entered DOWN. -/
def modelLeave (s : State) (l : Nat) : State :=
  let s := loseBeacons s l
  let st := s.get F.ltsb_mstate l
  if s.laneState l = 0 then (if st = 0 then s else modelNone s l)
  else if st = 1 || st = 2 || st = 3 || st = 5 then putMstate (s.setModel l { s.model l with held := [] }) l 4
  else s

/-- The group of a lane of the run enters UP (R186). -/
def modelEnter (s : State) (l : Nat) : State :=
  let st := s.get F.ltsb_mstate l
  if st ≠ 0 && !s.timed l then modelNone s l
  else if st = 4 then putMstate s l 5
  else modelStart s l

/-! ### Transactions -/

/-- The lowest free tag (R194): the first number that is not listed. -/
def firstGap {α : Type} : SMap α → Nat → Nat
  | [], n => n
  | (k, _) :: rest, n => if k = n then firstGap rest (n + 1) else n

/-- The lowest free tag, if any (R194). -/
def State.freeTag (s : State) : Option Nat :=
  let n := firstGap s.txns 0
  if n < 4096 then some n else none

/-- A group's tags outstanding (R194). -/
def State.outstanding (s : State) (g : Nat) : Nat :=
  (s.txns.filter fun e => e.2.st = .outstanding && e.2.group = g).length

/-- A tag is FREE. -/
def freeTxn (s : State) (t : Nat) : State := s.setTxn t Txn.init

/-- The EVENT of a transition into DONE (R196, R360). -/
def txnEvent (s : State) (t : Nat) : State :=
  let x := s.txn t
  event s x.part 0x05 x.pstatus x.stat t []

/-- A tag alone enters DONE (R195): the result is kept for 100 ms. -/
def txnDoneOne (s : State) (t stat pstatus : Nat) (data : List Word) (quar : Nat) : State :=
  let x := s.txn t
  txnEvent (s.setTxn t { x with st := .done, stat := stat, pstatus := pstatus, data := data, quar := quar, deadline := s.tb.tick + 100 * Config.milli }) t

/-- A tag enters DONE; the read that waits for a retry gets the retry's status and data (R195). -/
def txnDone (s : State) (t stat pstatus : Nat) (data : List Word) (quar : Nat) : State :=
  let x := s.txn t
  let s := txnDoneOne s t stat pstatus data quar
  match x.isRetry, x.mate with
  | true, some m => if (s.txn m).st = .retrying then txnDoneOne s m stat pstatus data 0 else s
  | _, _ => s

/-- LANE.txn_timeout of a group in ticks (R195, R199). -/
def State.txnLimit (s : State) (g : Nat) : Nat := s.get F.ltc_txn_timeout g * 160000

/-- A tag's result is read or has lapsed: FREE, or QUARANTINE if so marked (R195). -/
def txnLeaveDone (s : State) (t : Nat) : State :=
  let x := s.txn t
  match x.quar with
  | 0 => freeTxn s t
  | 1 => s.setTxn t { x with st := .quarantine }
  | _ => s.setTxn t { x with st := .quarantine, deadline := s.tb.tick + s.txnLimit x.group }

/-- The group leaves UP (R195). -/
def txnDrop (s : State) (g : Nat) : State :=
  s.txns.foldl (fun s e =>
    let x := e.2
    if x.st = .outstanding && x.group = g then
      if x.op = 2 || x.isRetry then txnDone s e.1 stOutcomeUnknown 0 [] 1
      else s.setTxn e.1 { x with st := .retryWait, deadline := s.tb.tick + Config.second }
    else if x.st = .retryWait && x.group = g then s.setTxn e.1 { x with deadline := s.tb.tick + Config.second }
    else s) s

/-- Sends a transaction request (R193). -/
def sendRequest (s : State) (t : Nat) (data : List Word) : State :=
  let x := s.txn t
  sendFrame s x.group 2 (pack [(63, 52, t), (51, 50, x.op), (49, 42, x.len), (31, 0, x.addr)] :: data)

/-- The end of the quarantine that the link asked for (R195): tags in QUARANTINE (link) are FREE, and those in DONE go to FREE when they leave
it. -/
def txnUnlink (s : State) (g : Nat) : State :=
  s.txns.foldl (fun s e =>
    if e.2.quar = 1 && e.2.group = g then (if e.2.st = .quarantine then freeTxn s e.1 else s.setTxn e.1 { e.2 with quar := 0 }) else s) s

/-- The second beacon after UP departs (R195): the link's quarantine ends, then waiting reads are sent again. -/
def txnSecondBeacon (s : State) (g : Nat) : State :=
  let s := txnUnlink s g
  s.txns.foldl (fun s e =>
    let x := e.2
    if x.st = .retryWait && x.group = g then
      match s.freeTag with
      | none => txnDone s e.1 stOutcomeUnknown 0 [] 0
      | some t =>
        let s := s.setTxn e.1 { x with st := .retrying, mate := some t }
        let s := s.setTxn t { x with st := .outstanding, isRetry := true, mate := some e.1, deadline := s.tb.tick + s.txnLimit g }
        sendRequest s t []
    else s) s

/-! ### Retirement record, staged copies -/

/-- An entry of the retirement record (R465): kind 0 element, 1 channel slot, 2 queue line, 3 Saddle wire, 4 Erg block. -/
def retireEntry (source kind sub : Nat) : Word :=
  let w := pack [(63, 48, source), (47, 44, kind), (43, 22, sub)]
  let x := (upTo 1 7).foldl (fun acc i => Nat.xor acc (bits w (8 * i + 7) (8 * i))) 0
  setBits w 7 0 (255 - x)

/-- A retirement waits to be written to the record (R435). -/
def recordRetirement (s : State) (source kind sub : Nat) : State :=
  { s with flt := { s.flt with toRecord := s.flt.toRecord ++ [retireEntry source kind sub] } }

/-- Writes a field of a word among the words of a set. -/
def putInSet (ws : SMap Word) (k : Nat) (f : Field) (v : Nat) : SMap Word :=
  ws.map fun e => if e.1 = k then (e.1, setBits e.2 f.hi f.lo v) else e

/-- Writes a field in the live copy and, where a word is pending, or carried by a Cinch whose boundary has not come, in that copy too
(R168). -/
def putCopies (s : State) (f : Field) (idx v : Nat) : State :=
  let s := s.put f idx v
  let k := wkey f.obj f.sel idx
  let s := { s with cmd := { s.cmd with
    gone := s.cmd.gone.map fun (g : Gone) => { g with words := putInSet g.words k f v }
    cinches := s.cmd.cinches.map fun (j : CinchJob) => { j with words := putInSet j.words k f v } } }
  let s := match mfind s.cmd.written k with
    | some x =>
      let y := { x with word := setBits x.word f.hi f.lo v }
      { s with cmd := { s.cmd with written := minsert s.cmd.written k y } }
    | none => s
  match mfind s.cmd.staged k with
  | some x => { s with cmd := { s.cmd with staged := minsert s.cmd.staged k { x with word := setBits x.word f.hi f.lo v } } }
  | none => s

/-! ### A group leaves or enters UP -/

/-- The group's operating run is no longer UP (R155, R156, R186, R195, R217): its requests end, its transactions and models
follow the link, it is not waited for, and its pause ends. `run` are the lanes that were UP. -/
def groupDown (s : State) (g : Nat) (run : List Nat) : State :=
  let s := gapNote s g
  let s := (s.span g).foldl (fun s l => ((s.put F.grp_run_valid l 0).put F.grp_aligned l 0).put F.grp_run_first l 0) s
  let s := s.setGroup g { s.group g with req := none, waitReq := [], nextRun := none, rxSeq := none, txSeq := 0, beacons := 0, waitFrom := none, markerUp := false, badBlock := false, recentTiles := [] }
  if s.host g then s
  else
    let s := run.foldl modelLeave s
    pauseSettle (showWaited (txnDrop (showModelLane s g) g) g) g

/-- The group's operating run is UP (R144, R155, R186): `skew` in ns. -/
def groupUpNow (s : State) (g first : Nat) (run : List Nat) (skew : Nat) : State :=
  let s := (s.span g).foldl (fun s l =>
    (((s.put F.grp_run_valid l 1).put F.grp_aligned l 1).put F.grp_run_first l first).put F.grp_skew_max l (min 255 skew)) s
  let s := s.setGroup g { s.group g with nextRun := none, rxSeq := none, txSeq := 0, beacons := 0, waitFrom := none, markerUp := false, dealt := 0, period := { marks := [], since := s.tb.tick, bad := 0 } }
  if s.host g then s
  else pauseSettle (run.foldl modelEnter s) g

end Sys2Proof.Machine
end

