-- ==== Sys2Proof/Machine/Lanes.lean ====
section
/-! DEFINITION. Serial lanes, link training and lane testing (05_lanes.md, R134 to R170). Lane states are the codes of R153:
0 DOWN, 1 DETECT, 2 CAP_EXCH, 3 TRAIN, 4 ALIGN, 5 UP, 6 STANDBY, 7 RETRAIN, 8 TEST, 9 FAULTY, 10 RETIRED. -/

namespace Sys2Proof.Machine

/-! ### Fields of a capability block (R146) -/

/-- rates -/
def capRates (w : Word) : Nat := bits w 55 51
/-- fec -/
def capFec (w : Word) : Nat := bits w 50 49
/-- widths -/
def capWidths (w : Word) : Nat := bits w 48 45
/-- formats -/
def capFormats (w : Word) : Nat := bits w 44 43
/-- role -/
def capRole (w : Word) : Nat := bits w 40 39
/-- partner_id -/
def capPid (w : Word) : Nat := bits w 38 23
/-- member -/
def capMember (w : Word) : Nat := bits w 22 20

/-- The capability block that the device sends on a lane (R146). -/
def ownCap (l : Nat) (ack : Bool) : Word :=
  let w := pack [(63, 56, 1), (55, 51, 0x1F), (50, 49, 3), (48, 45, 0xF), (44, 43, 3), (42, 42, 1), (41, 41, 1), (40, 39, 0), (38, 23, Config.serial.toNat % 65536), (22, 20, l % 8), (19, 19, b2n ack)]
  setBits w 15 0 (crc16 w)

/-- A lane in CAP_EXCH sends its capability block, ack once it has received 3 identical ones (R146, R147). DESIGN CHOICE (log 19): of the blocks sent
continually the model sends one as the lane enters CAP_EXCH, one with each valid block received, and one as start-up reaches RUNNING. -/
def sendCap (s : State) (l : Nat) : State := transmit s (.capability l (ownCap l (decide (3 ≤ (s.lane l).capRun))))

/-- A valid block: version and CRC (R146, R147). -/
def capValid (w : Word) : Bool := bits w 63 56 = 1 && bits w 15 0 = crc16 w

/-- The common rates, highest first (R149); the device offers every rate and FEC code. -/
def commonRates (w : Word) : List Nat :=
  [4, 3, 2, 1, 0].filter fun r => Nat.testBit (capRates w) r && (r ≠ 4 || Nat.testBit (capFec w) 1)

/-- The capability block of a lane after a complete exchange. -/
def State.capOf (s : State) (l : Nat) : Option Word := if (s.lane l).capDone then (s.lane l).cap else none

/-! ### State changes of a lane -/

/-- The EVENT of R155. -/
def laneEvent (s : State) (l : Nat) : State :=
  eventBoth s (s.groupOwner (s.groupOf l)) 0x03 (s.laneState l) stOk l [s.word 1 1 l]

/-- A host-facing lane has left UP: the replies that wait on it are discarded (R368), and REF_C may be lost (R35). -/
def laneLeft (s : State) (l : Nat) : State :=
  if s.host l then
    let s := ((s.hlane l).replies.filter (·.frees)).foldl (fun s r => freeChan s r.part) s
    refcCheck (s.setHlane l { s.hlane l with replies := [], txSeq := 0 })
  else s

/-- A lane takes a state, with the EVENT of R155 and the fault of an entry into FAULTY. -/
def enterLane (s : State) (l st : Nat) : State :=
  let old := s.laneState l
  let s := (s.put F.lsa_state l st).setLane l { s.lane l with enteredAt := s.tb.tick }
  let s := if old ≠ st && (old = 5 || st = 5 || st = 9) then laneEvent s l else s
  let s := if st = 9 && old ≠ 9 then raise s l 0x06 0 false else s
  if old = 5 && st ≠ 5 then laneLeft s l else s

/-- What an exchange and a training leave is forgotten, and no mode is shown: rate code 7. -/
def clearMode (s : State) (l : Nat) : State :=
  let s := (((s.put F.lsa_rate l 7).put F.lsa_fec l 0).put F.lsa_width l 0).put F.lsa_fmt_p64 l 0
  s.setLane l { s.lane l with cap := none, capRun := 0, ackSeen := false, capDone := false, common := [], ready := false, result := none, locked := false, invalid := 0, headers := [], ucw := [], mkCount := none, mkSeen := 0, mkBad := 0 }

/-- DOWN. -/
def toDown (s : State) (l : Nat) : State :=
  let st := s.laneState l
  if st = 0 || st = 8 || st = 10 then s else enterLane (clearMode s l) l 0
/-- DETECT. -/
def toDetect (s : State) (l : Nat) : State := enterLane (clearMode s l) l 1
/-- CAP_EXCH: a new exchange begins, and the lane sends its block (R147). -/
def toCap (s : State) (l : Nat) : State := sendCap (enterLane (clearMode s l) l 2) l

/-- The lanes of a span in one of some states. -/
def State.lanesIn (s : State) (g : Nat) (sts : List Nat) : List Nat := (s.span g).filter fun l => sts.contains (s.laneState l)

/-- A lane may leave DOWN: en is 1, its domain is on, LREF is present, and it is not retired (R137, R153, R167). -/
def State.canDetect (s : State) (l : Nat) : Bool :=
  s.flag F.lane_en l && s.domOn (laneDomain l) && mget 0 s.lref (l / 256) = 0 && s.laneState l ≠ 10

/-- The group leaves UP if it was UP; `run` are the lanes that were. -/
def leaveIfUp (s : State) (g : Nat) (up : Bool) (run : List Nat) : State :=
  if up then groupDown s g run else s.setGroup g { s.group g with nextRun := none }

/-- The group has entered DOWN (R186, R337): models go to NONE and the ingress queue is emptied. -/
def groupIsDown (s : State) (g : Nat) : State :=
  if s.host g then s
  else dropIngress ((s.span g).foldl (fun s l => if s.get F.ltsb_mstate l = 0 then s else modelNone s l) s) g

/-- The span of a group goes to DOWN (R153, R168). -/
def groupToDown (s : State) (g : Nat) : State :=
  let run := s.runLanes g
  let up := s.groupUp g
  groupIsDown (leaveIfUp ((s.span g).foldl toDown s) g up run) g

/-- The group goes to DETECT (R154). -/
def groupToDetect (s : State) (g : Nat) : State :=
  let run := s.runLanes g
  let up := s.groupUp g
  leaveIfUp ((s.lanesIn g [3, 4, 5, 6, 7]).foldl toDetect s) g up run

/-- The group goes to CAP_EXCH (R153, R156, R161). -/
def groupToCap (s : State) (g : Nat) : State :=
  let run := s.runLanes g
  let up := s.groupUp g
  leaveIfUp ((s.lanesIn g [3, 4, 5, 6, 7]).foldl toCap s) g up run

/-- Every lane of the span goes to FAULTY (R153, R154, R157). -/
def groupToFaulty (s : State) (g : Nat) : State :=
  let run := s.runLanes g
  let up := s.groupUp g
  leaveIfUp ((s.lanesIn g [2, 3, 4, 5, 6, 7]).foldl (fun s l => enterLane (clearMode s l) l 9) s) g up run

/-! ### Link blocks (R172, R173) -/

/-- The lane that carries link requests and responses (R172): the first of the run; DESIGN CHOICE (log 16): the next one that is not retired,
since a retired lane sends nothing (R160). -/
def State.linkLane (s : State) (g : Nat) : Nat := ((s.runLanes g).find? fun l => decide (s.laneState l ≠ 10)).getD (s.get F.grp_run_first g)

/-- A link request leaves on the first lane of the run. -/
def requestBlock (s : State) (g rn kind width first : Nat) : State :=
  sendBlock s (s.linkLane g) 0x69 (rn * 2 ^ 48 + kind * 2 ^ 46 + width * 2 ^ 44 + first * 2 ^ 41)

/-- A link response leaves: 1 accept, 2 refuse, 3 seen. -/
def responseBlock (s : State) (g rn answer : Nat) : State :=
  sendBlock s (s.linkLane g) 0x96 (rn * 2 ^ 48 + answer * 2 ^ 46)

/-- Sends the next waiting request once none is outstanding (R156). -/
def nextRequest (s : State) (g : Nat) : State :=
  let x := s.group g
  match x.req, x.waitReq with
  | none, r :: rest =>
    if s.groupUp g then
      let r := { r with rn := x.nextRn, deadline := s.tb.tick + 10 * Config.milli, crossed := false }
      requestBlock (s.setGroup g { x with req := some r, waitReq := rest, nextRn := (x.nextRn + 1) % 256 }) g r.rn r.kind r.width r.first
    else s
  | _, _ => s

/-- The device asks for a retrain (kind 1) or a width change (kind 2) (R156). -/
def linkRequest (s : State) (g kind width first : Nat) : State :=
  let x := s.group g
  nextRequest (s.setGroup g { x with waitReq := x.waitReq ++ [{ rn := 0, kind := kind, width := width, first := first, deadline := 0, crossed := false }] }) g

/-! ### Training and the choice of mode -/

/-- The reference partner_id when a group is formed from capability exchange: that of the lowest lane of the span that
completed it (R145). -/
def State.refPid (s : State) (g : Nat) : Option Nat :=
  ((s.span g).find? fun l => (s.capOf l).isSome).bind fun l => (s.capOf l).map capPid

/-- A lane declares its member and the reference partner_id (R145). -/
def State.memberOk (s : State) (g l : Nat) (pid : Option Nat) : Bool :=
  match s.capOf l with
  | some w => capMember w = l - g && some (capPid w) = pid
  | none => false

/-- The FEC of step 2 of R150 for the lanes that train: 0 none, 1 RS(528,514), 2 RS(544,514). -/
def State.fecFor (s : State) (ls : List Nat) (rate : Nat) : Nat :=
  if rate = 4 then 2
  else if ls.all fun l => match s.capOf l with
      | some w => Nat.testBit (capFec w) 0
      | none => false then 1 else 0

/-- The errors allowed in a window of 2^32 bits (R134, R151). -/
def prbsLimit (fec : Nat) : Nat := match fec with
  | 0 => 0
  | 1 => 214748
  | _ => 1030792

/-- A run is allowed: width in both masks and under width_lim, within the span, every lane in `ok` (R143, R145). -/
def State.runOk (s : State) (g : Nat) (ok : List Nat) (first code : Nat) : Bool :=
  decide (code ≤ s.get F.grp_width_lim g) && decide (2 ^ code ≤ s.groupWidth g) &&
    (upTo first (2 ^ code)).all fun l => ok.contains l && match s.capOf l with
      | some w => Nat.testBit (capWidths w) code
      | none => false

/-- The widest run with the lowest first lane (R150, step 3), as first lane and width code. -/
def State.chooseRun (s : State) (g : Nat) (ok : List Nat) : Option (Nat × Nat) :=
  ([3, 2, 1, 0].flatMap fun code => (upTo 0 (s.groupWidth g / 2 ^ code)).map fun k => (g + k * 2 ^ code, code)).find? fun r =>
    s.runOk g ok r.1 r.2

/-- Lanes begin training at a rate, or retraining (R151, R152): a lane to which the rate is not common, or that fails R145, is
treated as failed. -/
def startRate (s : State) (g st rate : Nat) (ls : List Nat) : State :=
  let pid := s.refPid g
  ls.foldl (fun s l =>
    let ok := s.memberOk g l pid
    let s := (enterLane s l st).put F.lsa_member_mismatch l (b2n !ok)
    let s := s.put F.lsa_rate l rate
    let x := s.lane l
    s.setLane l { x with tryRate := rate, ready := false, result := if ok && x.common.contains rate then none else some false, locked := false, invalid := 0, headers := [], ucw := [] }) s

/-- The operating run chosen goes to ALIGN and the other lanes to STANDBY, in the mode of R150; a lane in RETRAIN that failed the rate goes to
CAP_EXCH (R153). -/
def toAlign (s : State) (g : Nat) (passed : List Nat) (rate fec first code : Nat) : State :=
  let run := upTo first (2 ^ code)
  let p64 := !s.host g && run.all fun l => match s.capOf l with
    | some w => Nat.testBit (capFormats w) 1
    | none => false
  let s := (s.lanesIn g [3, 5, 6, 7]).foldl (fun s l =>
    let s := (((s.put F.lsa_rate l rate).put F.lsa_fec l fec).put F.lsa_width l code).put F.lsa_fmt_p64 l (b2n p64)
    let x := s.lane l
    let s := s.setLane l { x with mkCount := none, mkSeen := 0, mkBad := 0, trained := if passed.contains l then distinct (x.trained ++ [rate]) else x.trained }
    if s.laneState l = 7 && !passed.contains l then toCap s l else enterLane s l (if run.contains l then 4 else 6)) s
  let pid := (s.capOf first).map capPid
  s.setGroup g { s.group g with passed := passed, nextRun := some (first, code), mode := { rate := rate, fec := fec, code := code, pid := pid } }

/-- The rate result of a span, once every lane that trains has its own (R150, R152, R153). DESIGN CHOICE (log 19): where lanes pass but R143 allows
no run of them, the next lower rate follows, as where no lane passes. -/
def rateResult : Nat → State → Nat → State
  | 0, s, _ => s
  | n + 1, s, g =>
    let ls := s.lanesIn g [3, 7]
    if ls.isEmpty || ls.any fun l => (s.lane l).result.isNone then s
    else
      let rate := (s.lane (ls.headD 0)).tryRate
      let passed := ls.filter fun l => (s.lane l).result = some true
      match s.chooseRun g passed with
      | some (first, code) => toAlign s g passed rate (s.fecFor ls rate) first code
      | none =>
        if ls.any fun l => s.laneState l = 7 then groupToCap s g
        else
          match [4, 3, 2, 1, 0].find? fun r => decide (r < rate) && ls.any fun l => (s.lane l).common.contains r with
          | some r => rateResult n (startRate s g 3 r ls) g
          | none => (s.lanesIn g [3, 6]).foldl (fun s l => toDetect (s.satInc F.lsc_train_fails l 1) l) s

/-- The entries into RETRAIN of the last second (R154). -/
def State.recentRetrains (s : State) (g : Nat) : List Nat :=
  (s.group g).retrains.filter fun t => decide (s.tb.tick < t + Config.second)

/-- The group enters RETRAIN at its current rate (R153, R154). -/
def startRetrain (s : State) (g : Nat) : State :=
  let run := s.runLanes g
  let up := s.groupUp g
  let s := s.setGroup g { s.group g with retrains := s.recentRetrains g ++ [s.tb.tick] }
  let ls := s.lanesIn g [4, 5, 6, 7]
  let s := ls.foldl (fun s l => s.satInc F.lsb_retrains l 1) s
  rateResult 6 (leaveIfUp (startRate s g 7 (s.group g).mode.rate ls) g up run) g

/-- A retrain trigger or an accepted retrain request: RETRAIN, or FAULTY at the retrain limit (R154). `notify` sends the request of R154. -/
def enterRetrain (s : State) (g : Nat) (notify : Bool) : State :=
  if s.get F.lane_retrain_limit g ≤ (s.recentRetrains g).length then groupToFaulty s g
  else
    let x := s.group g
    startRetrain (if notify && s.groupUp g then requestBlock (s.setGroup g { x with nextRn := (x.nextRn + 1) % 256 }) g x.nextRn 1 0 0 else s) g

/-- A retrain trigger (R154): RETRAIN or DETECT, as auto_retrain of the group's first lane says. -/
def retrainTrigger (s : State) (g : Nat) : State :=
  if s.flag F.lane_auto_retrain g then enterRetrain s g true else groupToDetect s g

/-- The group follows a lane that has gone: what trains may now have its rate result, and STANDBY lanes follow a group without
lanes in training or in its run (R153). -/
def groupFollow (s : State) (g : Nat) : State :=
  if !(s.lanesIn g [3, 7]).isEmpty then rateResult 6 s g
  else if (s.lanesIn g [4, 5]).isEmpty then (s.lanesIn g [6]).foldl toDetect s
  else s

/-- One lane leaves for DOWN (0) or DETECT (1). A run that loses a lane is a retrain trigger. -/
def laneLoss (s : State) (l st : Nat) : State :=
  let g := s.groupOf l
  let run := s.runLanes g
  let s := enterLane (clearMode s l) l st
  if (s.span g).all fun m => s.laneState m = 0 || s.laneState m = 10 then
    groupIsDown (leaveIfUp s g (!run.isEmpty) run) g
  else if run.contains l then
    if (s.lanesIn g [5, 6]).isEmpty then leaveIfUp s g true run else retrainTrigger s g
  else groupFollow s g

/-- LANE.en has changed (R153): 1 leaves DOWN for DETECT, 0 goes to DOWN. -/
def laneEnChange (s : State) (l : Nat) : State :=
  let st := s.laneState l
  if s.flag F.lane_en l then (if st = 0 && s.canDetect l then toDetect s l else s)
  else if st = 0 || st = 8 || st = 10 then s else laneLoss s l 0

/-- An accepted width change takes effect: ALIGN with the new run (R153, R156). -/
def applyWidth (s : State) (g first code : Nat) : State :=
  let run := s.runLanes g
  let x := s.group g
  let s := toAlign s g x.passed x.mode.rate x.mode.fec first code
  let t := groupDown s g run
  t.setGroup g { t.group g with nextRun := some (first, code) }

/-- The lanes that a width change may use: those that passed the current rate and are still in the group, and declare the partner_id of the
current run (R145, R158, R161). -/
def State.widthLanes (s : State) (g : Nat) : List Nat :=
  (s.group g).passed.filter fun l => (s.laneState l = 5 || s.laneState l = 6) && s.memberOk g l (s.group g).mode.pid

/-- An UP group asks for the run that R143 now gives, when that is another (R161, R168). DESIGN CHOICE (log 19): where R143 gives none after LANE_GROUP
WIDTH, the group goes to CAP_EXCH, as after a retirement. -/
def widthFollow (s : State) (g : Nat) : State :=
  if s.groupUp g then
    match s.chooseRun g (s.widthLanes g) with
    | some (first, code) =>
      if upTo first (2 ^ code) = s.runLanes g then s else linkRequest s g 2 code (first - g)
    | none => groupToCap s g
  else s

/-- A group that has entered UP asks for a narrower run still called for by width_lim or by a retirement (R156). -/
def widthStill (s : State) (g : Nat) : State :=
  if s.runOk g (s.widthLanes g) (s.get F.grp_run_first g) (s.group g).mode.code then s else widthFollow s g

/-- A lane is retired (R160, R161). -/
def retireLane (s : State) (l : Nat) : State :=
  let g := s.groupOf l
  let run := s.runLanes g
  let s := enterLane (clearMode s l) l 10
  let s := (s.setLane l { s.lane l with retired := true }).put F.fsa_retired l 1
  if (s.span g).all fun m => s.laneState m = 10 then txnUnlink (groupIsDown (leaveIfUp s g (!run.isEmpty) run) g) g
  else if (s.span g).all fun m => s.laneState m = 0 || s.laneState m = 10 then groupIsDown (leaveIfUp s g (!run.isEmpty) run) g
  else if run.contains l then widthFollow s g
  else groupFollow s g

/-- Bits per tick on the line at a rate, as a fraction (R134). -/
def bitsPerTick (rate : Nat) : Nat × Nat := match rate with
  | 0 => (825, 128)
  | 1 => (4125, 256)
  | 2 => (2125, 64)
  | 3 => (2125, 32)
  | _ => (2125, 16)

/-- Bits compared since the checker locked or was last counted, while the test runs. -/
def State.bitsSinceLock (s : State) (l : Nat) : Nat :=
  let f := bitsPerTick (s.get F.ltest_test_rate l)
  (s.tb.tick - (s.lane l).mkTick) * f.1 / f.2

/-- Bits and bit errors so far are counted while the checker is locked (R164). The errors that the line makes are a free value (log 4); in
loopback nothing is lost between transmitter and receiver (DESIGN CHOICE, log 19). -/
def testSettle (s : State) (l : Nat) : State :=
  if s.laneState l = 8 && s.flag F.lta_locked l then
    let n := s.bitsSinceLock l
    let e := if s.flag F.ltest_loopback l then 0 else min n (Config.lineErrors s.freeCount)
    let s := (s.satInc F.ltb_bits_checked l n).satInc F.lta_bit_errors l e
    { s.setLane l { s.lane l with mkTick := s.tb.tick } with freeCount := s.freeCount + 1 }
  else s

/-- The lanes of a power domain go to DOWN with it; a test that ends so keeps its test status words (R153, R167). -/
def lanesOff (s : State) (d : Nat) : State :=
  let s := (upTo (64 * d) 64).foldl (fun s l =>
    if s.laneState l = 8 then enterLane (testSettle s l) l 0 else s) s
  (distinct ((upTo (64 * d) 64).map s.groupOf)).foldl groupToDown s

/-- The lanes of a power domain follow LANE.en when it comes on (R167). -/
def lanesOn (s : State) (d : Nat) : State :=
  (upTo (64 * d) 64).foldl (fun s l => if s.laneState l = 0 && s.canDetect l then toDetect s l else s) s

/-! ### Events of lanes -/

/-- R137: no LREF edge for 1.0 µs; every lane of the die goes to DOWN, tests end, and the die raises a fault. -/
def execLrefLoss (die : Nat) (s : State) : Res :=
  if die < 4 then
    let s := { s with lref := mset 0 s.lref die 1 }
    let s := [0, 1, 2, 3].foldl (fun s c => lanesOff s (4 * die + c)) s
    .next (raise s (dieSource (8 + die) 4) 0x08 0 false)
  else .next s

/-- R137: LREF has been present for 10 ms. -/
def execLrefPresent (die : Nat) (s : State) : Res :=
  if die < 4 then
    let s := { s with lref := mset 0 s.lref die 0 }
    .next ([0, 1, 2, 3].foldl (fun s c => lanesOn s (4 * die + c)) s)
  else .next s

/-- R153: signal present for 10 µs. -/
def execSignalDetect (lane : Nat) (s : State) : Res :=
  if s.laneState lane = 1 then .next (toCap s lane) else .next s

/-- R153: no signal for 1 ms. -/
def execSignalLoss (lane : Nat) (s : State) : Res :=
  if 2 ≤ s.laneState lane && decide (s.laneState lane ≤ 7) then .next (laneLoss s lane 1) else .next s

/-- What the capability block shows in LANE status word A (R169). -/
def showCap (s : State) (l : Nat) (w : Word) (ppm : Int) : State :=
  let s := ((s.put F.lsa_partner_role l (capRole w)).put F.lsa_partner_id l (capPid w)).put F.lsa_partner_member l (capMember w)
  let s := (s.put F.lsa_echo l (bits w 42 42)).put F.lsa_dual_thr l (bits w 41 41)
  s.put F.lsa_ppm_offset l (satSigned 10 ppm)

/-- The exchange of a lane fails (R148, R153). -/
def capFail (s : State) (l : Nat) : State :=
  let s := toDetect (s.satInc F.lsc_cap_fails l 1) l
  groupFollow s (s.groupOf l)

/-- The role that the other end of a lane must declare (R148). -/
def State.roleOk (s : State) (l : Nat) (w : Word) : Bool := capRole w = if s.host l then 2 else 1

/-- What a lane has received fails its exchange (R141, R148, R149). `ppm` is in 0.5 ppm. -/
def State.capBad (s : State) (l : Nat) (w : Word) (ppm : Int) : Bool :=
  !s.roleOk l w || (!s.host l && capFormats w = 0) || (commonRates w).isEmpty || decide (2 * s.get F.lane_ppm_limit l < ppm.natAbs)

/-- The exchange of a lane is complete: it waits in STANDBY, or trains with the lanes of its span whose exchange completed at the same moment, at
the highest common rate (R150 to R153). -/
def capComplete (s : State) (l : Nat) (w : Word) : State :=
  let g := s.groupOf l
  let common := commonRates w
  let s := s.setLane l { s.lane l with cap := some w, capDone := true, common := common }
  let active := (s.lanesIn g [3, 4, 5, 7]).filter (· ≠ l)
  let fresh := active.all fun m => s.laneState m = 3 && (s.lane m).enteredAt = s.tb.tick && !(s.lane m).ready
  if !fresh then enterLane s l 6
  else
    let rate := active.foldl (fun r m => max r (s.lane m).tryRate) (common.headD 0)
    rateResult 6 (startRate s g 3 rate (active ++ [l])) g

/-- R146 to R148: a capability block arrives in CAP_EXCH; one with a bad CRC or an unknown version is ignored. Three identical ones are judged,
and with the other side's ack the exchange is complete. -/
def execCapabilityBlockReceive (lane : Nat) (w : Word) (ppm : Int) (s : State) : Res :=
  let x := s.lane lane
  if s.laneState lane = 2 && capValid w then
    let run := if 3 ≤ x.capRun then 3 else if x.cap = some w then x.capRun + 1 else 1
    let cap := if 3 ≤ x.capRun then x.cap else some w
    let ack := x.ackSeen || bit w 19
    let s := sendCap (s.setLane lane { x with cap := cap, capRun := run, ackSeen := ack }) lane
    if 3 ≤ run then
      let w := cap.getD w
      let s := (showCap s lane w ppm).put F.lsa_role_mismatch lane (b2n !s.roleOk lane w)
      if s.capBad lane w ppm then .next (capFail s lane)
      else if ack then .next (capComplete s lane w)
      else .next s
    else .next s
  else .next s

/-- R148: the exchange has not completed within 100 ms. -/
def execCapExchTimeout (lane : Nat) (s : State) : Res :=
  if s.laneState lane = 2 then .next (capFail (advanceTo s ((s.lane lane).enteredAt + 100 * Config.milli)) lane) else .next s

/-- A lane trains and has no result yet. -/
def State.trains (s : State) (l : Nat) : Bool := (s.laneState l = 3 || s.laneState l = 7) && (s.lane l).result.isNone

/-- R151: both receivers report ready, and the PRBS31 windows begin. -/
def execReceiversReady (lane : Nat) (s : State) : Res :=
  if s.trains lane then .next (s.setLane lane { s.lane lane with ready := true }) else .next s

/-- R151: a lane not ready within 500 ms fails the rate. -/
def execTrainingNotReady (lane : Nat) (s : State) : Res :=
  if s.trains lane && !(s.lane lane).ready then
    let s := advanceTo s ((s.lane lane).enteredAt + 500 * Config.milli)
    .next (rateResult 6 (s.setLane lane { s.lane lane with result := some false }) (s.groupOf lane))
  else .next s

/-- R151: the windows end; the lane passes when both counts are within the limit of R134. -/
def execPrbsWindowEnd (lane devErrors partnerErrors : Nat) (s : State) : Res :=
  let x := s.lane lane
  if s.trains lane && x.ready then
    let g := s.groupOf lane
    let limit := prbsLimit (s.fecFor (s.lanesIn g [3, 7]) x.tryRate)
    let s := s.setLane lane { x with result := some (decide (max devErrors partnerErrors ≤ limit)) }
    .next (rateResult 6 s g)
  else .next s

/-- The time of a block on the payload of R134 at a rate, as a fraction of nanoseconds. -/
def blockNs (rate : Nat) : Nat × Nat := match rate with
  | 0 => (64, 10)
  | 1 => (64, 25)
  | 2 => (66000, 53125)
  | 3 => (66000, 106250)
  | _ => (64, 200)

/-- A skew in blocks as whole nanoseconds, rounded up. -/
def skewNs (rate skew : Nat) : Nat := ceilDiv (skew * (blockNs rate).1) (blockNs rate).2

/-- Every lane of the run in ALIGN has confirmed its skew (R144). -/
def State.deskewed (s : State) (run : List Nat) : Bool :=
  run.all fun l => s.laneState l = 4 && decide (2 ≤ (s.lane l).mkSeen) && (s.lane l).mkCount = (s.lane (run.headD 0)).mkCount

/-- The run loses alignment: ALIGN again (R144, R153). -/
def alignLost (s : State) (g : Nat) : State :=
  applyWidth ((s.span g).foldl (fun s l => s.satInc F.grp_align_losses l 1) s) g (s.get F.grp_run_first g) (s.group g).mode.code

/-- A marker period, 16,384 blocks, in ticks (R144). -/
def markTicks (rate : Nat) : Nat := 16384 * (blockNs rate).1 * 8 / ((blockNs rate).2 * 5)

/-- A lane of an UP run has received a marker (R144): the periods in a row whose markers did not agree, before and with the present period once it
is whole. The markers of a period lie within half a period of its first; it agrees when every lane's marker came, with its member right and one count.
DESIGN CHOICE (log 19): a period that misses markers is known by the next marker. -/
def markTake (s : State) (g lane member count : Nat) : State × Bool :=
  let x := s.group g
  let p := x.period
  let run := s.runLanes g
  let again := p.marks.any fun m => m.1 = lane
  let len := markTicks x.mode.rate
  let stale := !p.marks.isEmpty && (again || decide (p.since + len / 2 < s.tb.tick))
  let opens := p.marks.isEmpty || stale
  let missed := if opens then (s.tb.tick - p.since + len / 2) / len - 1 else 0
  let bad := p.bad + b2n stale + missed
  let marks := (if stale then [] else p.marks) ++ [(lane, count, decide (member = lane - run.headD 0))]
  let whole := run.all fun l => marks.any fun m => m.1 = l
  let agrees := marks.all fun m => m.2.2 && m.2.1 = count
  let now := if whole then (if agrees then 0 else bad + 1) else bad
  (s.setGroup g { x with period := { marks := if whole then [] else marks, since := if opens then s.tb.tick else p.since, bad := now } }, decide (3 ≤ max bad now))

/-- The largest skew measured since UP (R170). -/
def showSkew (s : State) (g skew : Nat) : State :=
  let ns := skewNs (s.group g).mode.rate skew
  (s.span g).foldl (fun s l => s.put F.grp_skew_max l (max (s.get F.grp_skew_max l) (min 255 ns))) s

/-- A block arrives that shows block lock; a receiver that gains it sets its buffer to half (R140). DESIGN CHOICE (log 19): lock is gained with
the first valid block. -/
def gainLock (s : State) (l : Nat) : State :=
  if (s.lane l).locked then s else s.setLane l { s.lane l with locked := true, headers := [], fill := 64000000 }

/-- R144: an alignment marker arrives with its position in the run and its count; `skew` is the lane's skew in blocks. -/
def execAlignmentMarkerReceive (lane member count skew t : Nat) (s : State) : Res :=
  let s := gainLock (advanceTo s t) lane
  let g := s.groupOf lane
  let x := s.lane lane
  if s.laneState lane = 4 then
    match (s.group g).nextRun with
    | none => .next s
    | some (first, code) =>
      let run := upTo first (2 ^ code)
      let good := member = lane - first && decide (skew ≤ 128)
      let follows : Bool := match x.mkCount with
        | some c => (c + 1) % 65536 = count
        | none => false
      let seen := if !good then 0 else if follows then x.mkSeen + 1 else 1
      let s := s.setLane lane { x with mkCount := some count, mkSeen := seen, mkBad := skew, mkTick := s.tb.tick }
      if s.deskewed run then
        let rate := (s.group g).mode.rate
        let most := run.foldl (fun m l => max m (s.lane l).mkBad) 0
        let s := run.foldl (fun s l => enterLane (s.setLane l { s.lane l with mkBad := 0 }) l 5) s
        .next (widthStill (groupUpNow s g first run (skewNs rate most)) g)
      else .next s
  else if s.laneState lane = 5 && (s.runLanes g).contains lane then
    let (s, lost) := markTake (showSkew s g skew) g lane member count
    if decide (128 < skew) || lost then .next (alignLost s g) else .next s
  else .next s

/-- R144: alignment markers leave on every lane of the run; an accepted width change takes effect with them (R156). -/
def execAlignmentMarkerSend (group : Nat) (s : State) : Res :=
  let x := s.group group
  let run := if s.groupUp group then s.runLanes group else match x.nextRun with
    | some (first, code) => if s.laneState first = 4 then upTo first (2 ^ code) else []
    | none => []
  if run.isEmpty then .next s
  else
    let first := run.headD 0
    let s := run.foldl (fun s l => sendBlock s l 0x0F ((l - first) * 2 ^ 53 + x.mkTx * 2 ^ 37)) s
    let s := s.setGroup group { x with mkTx := (x.mkTx + 1) % 65536 }
    match s.groupUp group, x.nextRun with
    | true, some (f, code) => .next (applyWidth s group f code)
    | _, _ => .next s

/-- R153: a run not deskewed within 1 ms goes to RETRAIN; the retrain limit is tested for a trigger or an accepted request alone (R154). -/
def execAlignTimeout (group : Nat) (s : State) : Res :=
  match s.lanesIn group [4] with
  | [] => .next s
  | l :: _ => .next (startRetrain (advanceTo s ((s.lane l).enteredAt + Config.milli)) group)

/-- Whole blocks held in the elastic buffer. -/
def held (fill : Nat) : Nat := fill / 2000000

/-- Block lock is lost (R154). -/
def lockLost (s : State) (l : Nat) : State :=
  let s := s.satInc F.lsb_lock_losses l 1
  let s := s.setLane l { s.lane l with headers := [], locked := false }
  if s.laneState l = 5 then retrainTrigger s (s.groupOf l) else s

/-- The elastic buffer takes a block (R138, R140): the partner's rate offset fills it, fillers are deleted at 40 and inserted at
24, and a block that is no filler is lost when 64 are held. -/
def elastic (s : State) (l : Nat) (filler : Bool) : State :=
  let x := s.lane l
  let drift := toSigned 10 (s.get F.lsa_ppm_offset l)
  let fill := ((x.fill : Int) + drift).toNat
  if 40 ≤ held fill && filler then s.setLane l { x with fill := fill - 2000000 }
  else if held fill ≤ 24 then s.setLane l { x with fill := fill + 2000000 }
  else if 64 ≤ held fill then
    raise (gapNote ((s.setLane l { x with fill := fill - 2000000 }).satInc F.lsc_elastic_overflows l 1) (s.groupOf l)) l 0x07 0 false
  else s.setLane l { x with fill := fill }

/-- The control block types a partner may send (R171). -/
def partnerType (t : Nat) : Bool := [0x0F, 0xC3, 0xC5, 0x5A, 0xA5, 0x69, 0x96, 0x1E].contains t

/-- A block is part of a frame (R172): data, a frame start or a frame end. -/
def ofFrame : Option Word → Bool
  | none => true
  | some w => bits w 63 56 = 0x5A || bits w 63 56 = 0xA5

/-- A block that an uncorrectable codeword has marked, or whose sync header is invalid, is not read; as a part of a frame it makes the frame
invalid (R136, R175). -/
def badBlock (s : State) (l : Nat) (frame : Bool) : State :=
  let g := s.groupOf l
  if frame then s.setGroup g { s.group g with badBlock := true } else s

/-- An uncorrectable word in a lane's elastic buffer (R418, R442): the block is lost. -/
def elasticLost (s : State) (l : Nat) (injected : Bool) : State := raise (dataLost (gapNote s (s.groupOf l)) l 1) l 0x01 0 injected

/-- R138, R140, R154, R171: a block passes the receiver. `payload` is that of a control block other than a filler, none for data. -/
def execBlockReceive (lane : Nat) (headerOk : Bool) (filler : Bool) (payload : Option Word) (s : State) : Res :=
  let st := s.laneState lane
  if 2 ≤ st && decide (st ≤ 7) then
    let s := elastic s lane filler
    let (s, bad) := awlTake s lane
    let s := if bad then elasticLost s lane true else s
    let s := if headerOk then gainLock s lane else s
    let x := s.lane lane
    let hs := if x.locked then (x.headers ++ [!headerOk]).drop (x.headers.length + 1 - 64) else []
    let s := s.setLane lane { x with headers := hs, invalid := x.invalid - 1 }
    let s := if !headerOk || decide (0 < x.invalid) then badBlock s lane (!filler && ofFrame payload)
      else match payload with
        | some w => if !s.host lane && !partnerType (bits w 63 56) then distrust s (s.groupOf lane) 1 else s
        | none => s
    if 32 ≤ (hs.filter id).length then .next (lockLost s lane) else .next s
  else .next s

/-- The symbol errors a codeword can carry (R136). -/
def fecReach (fec : Nat) : Nat := if fec = 2 then 15 else 7

/-- R136, R154: a codeword with `errors` symbol errors is decoded; `aligned` is false when codeword alignment is lost. -/
def execCodewordDecode (lane errors : Nat) (aligned : Bool) (t : Nat) (s : State) : Res :=
  let s := advanceTo s t
  let fec := s.get F.lsa_fec lane
  let st := s.laneState lane
  if fec = 0 || !(st = 4 || st = 5 || st = 7) then .next s
  else if !aligned then .next (lockLost s lane)
  else if errors = 0 then .next s
  else if errors ≤ fecReach fec then
    let s := if s.get F.lsb_fec_corrected lane + 1 < 2 ^ 32 - 1 then s else s.put F.lsa_fec_sat lane 1
    .next (s.satInc F.lsb_fec_corrected lane 1)
  else
    let x := s.lane lane
    let s := s.satInc F.lsb_fec_uncorr lane 1
    let x := { x with invalid := x.invalid + 80 }
    let recent := (x.ucw.filter fun u => decide (s.tb.tick < u + Config.milli)) ++ [s.tb.tick]
    if st = 5 && decide (s.get F.lane_uncorr_limit lane < recent.length) then
      .next (retrainTrigger (s.setLane lane { x with ucw := [] }) (s.groupOf lane))
    else .next (s.setLane lane { x with ucw := recent })

/-! ### Link requests -/

/-- R157, R158, R172: a partner's link request. -/
def execLinkRequestReceive (lane : Nat) (w : Word) (s : State) : Res :=
  let g := s.groupOf lane
  if !(s.runLanes g).contains lane then .next s
  else
    let rn := bits w 55 48
    let kind := bits w 47 46
    let code := bits w 45 44
    let first := g + bits w 43 41
    let x := s.group g
    match x.req with
    | some r =>
      let s := responseBlock (s.satInc F.lsc_crossings lane 1) g rn 3
      if r.crossed then .next s
      else
        let n := x.crossedRun + 1
        let s := s.setGroup g { s.group g with req := some { r with crossed := true }, crossedRun := n }
        let s := (s.span g).foldl (fun s l => s.put F.lsa_crossed_run l (min 3 n)) s
        if 3 ≤ n then .next (groupToFaulty s g) else .next s
    | none =>
      if kind = 1 then .next (enterRetrain (responseBlock s g rn 1) g false)
      else if kind = 2 && decide ((first - g) % 2 ^ code = 0) && decide (first + 2 ^ code ≤ g + s.groupWidth g) &&
          s.runOk g (s.widthLanes g) first code then
        .next ((responseBlock s g rn 1).setGroup g { x with nextRun := some (first, code) })
      else .next (responseBlock s g rn 2)

/-- R156, R158, R172: a link response. -/
def execLinkResponseReceive (lane : Nat) (w : Word) (s : State) : Res :=
  let g := s.groupOf lane
  if !(s.runLanes g).contains lane then .next s
  else
    let rn := bits w 55 48
    let answer := bits w 47 46
    let x := s.group g
    match x.req with
    | none => .next (distrust s g 1)
    | some r =>
      if r.rn ≠ rn then .next (distrust s g 1)
      else if answer = 3 || answer = 0 then .next s
      else
        let s := if r.crossed then s.setGroup g { x with req := none }
          else (s.span g).foldl (fun s l => s.put F.lsa_crossed_run l 0) (s.setGroup g { x with req := none, crossedRun := 0 })
        if answer = 1 && r.kind = 1 then .next (enterRetrain s g false)
        else if answer = 1 then .next (nextRequest (s.setGroup g { s.group g with nextRun := some (g + r.first, r.width) }) g)
        else .next (nextRequest s g)

/-- R156: a request without response within 10 ms sends the group to CAP_EXCH. -/
def execLinkRequestTimeout (group : Nat) (s : State) : Res :=
  match (s.group group).req with
  | none => .next s
  | some r => .next (groupToCap (advanceTo s r.deadline) group)

/-! ### Testing -/

/-- The delays of a pattern's recurrence: the exponents of its polynomial (R163). -/
def prbsDelays (pattern : Nat) : List Nat := match pattern with
  | 1 => [6, 7]
  | 2 => [1, 2, 12, 13]
  | _ => [28, 31]

/-- The bits that seed a pattern: its polynomial's degree (R163, R164). -/
def prbsDegree (pattern : Nat) : Nat := match pattern with
  | 1 => 7
  | 2 => 13
  | _ => 31

/-- The next bit of a pattern after `past`, the newest first (R163). -/
def prbsNext (pattern : Nat) (past : List Bool) : Bool :=
  (prbsDelays pattern).foldl (fun b d => xor b (past.getD (d - 1) false)) false

/-- The generator: `n` bits after `past` (R163). -/
def prbsBits (pattern : Nat) : Nat → List Bool → List Bool
  | 0, _ => []
  | n + 1, past => prbsNext pattern past :: prbsBits pattern n (prbsNext pattern past :: past)

/-- The checker seeds itself from the first bits, and the next 64 come without error (R164). -/
def prbsLock (pattern : Nat) (received : List Bool) : Bool :=
  let n := prbsDegree pattern
  received.length = n + 64 && received.drop n == prbsBits pattern 64 (received.take n).reverse

/-- The bits of a line symbol at a rate: one at NRZ rates, and at PAM4 rates a pair, most significant bit first, Gray-coded (R163). PRESUMED
(log 19): levels 0 to 3 stand for 00, 01, 11 and 10. -/
def symbolBits (rate sym : Nat) : List Bool :=
  if rate < 2 then [decide (sym ≠ 0)] else [decide (2 ≤ sym), sym = 1 || sym = 2]

/-- R164: the symbols that arrive seed the checker, and 64 bits follow without error. In loopback they are the generator's (R166). -/
def execCheckerLock (lane : Nat) (symbols : List Nat) (s : State) : Res :=
  let rx := s.get F.ltest_rx_pattern lane
  let tx := s.get F.ltest_tx_pattern lane
  let received := (symbols.flatMap (symbolBits (s.get F.ltest_test_rate lane))).take (prbsDegree rx + 64)
  let fromTx := tx = rx && received.contains true
  if s.laneState lane = 8 && rx ≠ 0 && !s.flag F.lta_locked lane && prbsLock rx received && (fromTx || !s.flag F.ltest_loopback lane) then
    .next ((s.put F.lta_locked lane 1).setLane lane { s.lane lane with mkTick := s.tb.tick })
  else .next s

/-- R164: 16 or more errors within 64 bits; `bits` were compared and `errors` counted since the checker locked or was last counted,
injected ones seen through the loopback aside. -/
def execCheckerLockLoss (lane bits errors : Nat) (s : State) : Res :=
  if s.laneState lane = 8 && s.flag F.lta_locked lane then
    .next ((((s.satInc F.ltb_bits_checked lane bits).put F.lta_locked lane 0).satInc F.lta_bit_errors lane errors).satInc F.lta_sync_losses lane 1)
  else .next s

/-- The bits an injected event inverts (R165). -/
def State.burst (s : State) (l : Nat) : Nat :=
  if s.get F.ltest_inject l = 3 || s.get F.ltest_inject l = 4 then s.get F.ltest_burst_len l else 1

/-- The tick of the next event of a periodic injection: one every 2^period_log2 bits (R165). -/
def State.injectAt (s : State) (l : Nat) : Nat :=
  let f := bitsPerTick (s.get F.ltest_test_rate l)
  (s.lane l).testAt + ceilDiv (((s.lane l).injected + 1) * 2 ^ s.get F.ltest_period_log2 l * f.2) f.1

/-- R165: periodic injection at its time; in loopback a locked checker counts the inverted bits. -/
def execErrorInjection (lane : Nat) (s : State) : Res :=
  let m := s.get F.ltest_inject lane
  if s.laneState lane = 8 && (m = 2 || m = 4) then
    let s := advanceTo s (s.injectAt lane)
    let s := s.setLane lane { s.lane lane with injected := (s.lane lane).injected + 1 }
    let s := s.satInc F.ltb_injections lane 1
    if s.flag F.ltest_loopback lane && s.flag F.lta_locked lane then .next (s.satInc F.lta_bit_errors lane (s.burst lane)) else .next s
  else .next s

/-! ### Commands -/

/-- The checks of a command that names a lane in [9:0], that of its domain among them (R168, R508). -/
def laneChecked (c : Cmd) (s : State) (k : Nat → Result) : Result :=
  checked c false 1 <|
    let l := bits (c.par 0) 9 0
    refuseIf (stray (c.par 0) [(9, 0)]) stBadParam 1 <|
    noMore c 1 <|
    refuseIf (c.part ≠ 0 && (s.hostOf l || s.ownerOf (s.groupOf l) ≠ c.part)) stNotOwner 0 <|
    refuseIf (s.laneState l = 10) stRetired 0 <|
    refuseIf (!s.domOn (laneDomain l)) stNoResource 0 (k l)

/-- A host lane sends the next packet of the reply that has waited longest (R209, R375, R383). -/
def sendReplyFrame (s : State) (lane : Nat) : State :=
  let x := { s.hlane lane with owed := true }
  match x.replies with
  | r :: rest =>
    match r.packets with
    | p :: q :: ps => sendHost (s.setHlane lane { x with replies := { r with packets := q :: ps } :: rest }) lane 7 0 p
    | [p] =>
      let s := sendHost (s.setHlane lane { x with replies := rest }) lane 7 0 p
      if r.frees then freeChan s r.part else s
    | [] => s.setHlane lane { x with replies := rest }
  | [] => s

/-- The replies that wait on a host lane leave in the order in which they wait (R375). -/
def sendReplies : Nat → State → Nat → State
  | 0, s, _ => s
  | n + 1, s, l => if (s.hlane l).replies.isEmpty then s else sendReplies n (sendReplyFrame s l) l

/-- Sends the reply of a command before what it does to the lane that carries it (R159), behind the replies that wait there, and leaves the channel
free; a lane that is not UP carries none (R368). -/
def replyFirst (s : State) (c : Cmd) (op : Nat) : State :=
  match c.lane with
  | some l =>
    let s := sendReply s c op stOk 0 [] false
    sendReplies (sumOver (fun (r : Reply) => r.packets.length + 1) (s.hlane l).replies) s l
  | none => s

/-- A lane command that is done: when it came on a lane of the group it acts on, its reply leaves first. -/
def laneDone (s : State) (c : Cmd) (op g : Nat) (effect : State → State) : Result :=
  match c.lane with
  | some l => if s.groupOf l = g then .loose (effect (replyFirst s c op)) else .done (effect s) stOk 0 []
  | none => .done (effect s) stOk 0 []

/-- LANE_UP (R167, R168). -/
def laneUpBody (c : Cmd) (s : State) : Result :=
  laneChecked c s fun l =>
    let g := s.groupOf l
    let s := (s.span g).foldl (fun s m => putCopies s F.lane_en m 1) s
    .done ((s.span g).foldl (fun s m => if (s.laneState m = 0 || s.laneState m = 9) && s.canDetect m then toDetect s m else s) s) stOk 0 []

/-- LANE_UP. -/
def execLaneUp (c : Cmd) (s : State) : Res := .next (runCmd 0x30 c (laneUpBody c) s)

/-- LANE_DOWN (R168). -/
def laneDownBody (c : Cmd) (s : State) : Result :=
  laneChecked c s fun l =>
    let g := s.groupOf l
    laneDone s c 0x31 g fun s => groupToDown ((s.span g).foldl (fun s m => putCopies s F.lane_en m 0) s) g

/-- LANE_DOWN. -/
def execLaneDown (c : Cmd) (s : State) : Res := .next (runCmd 0x31 c (laneDownBody c) s)

/-- LANE_RETRAIN (R156, R168). -/
def laneRetrainBody (c : Cmd) (s : State) : Result :=
  laneChecked c s fun l =>
    let g := s.groupOf l
    refuseIf (!s.groupUp g) stLinkDown 0 <|
    laneDone s c 0x32 g fun s => linkRequest s g 1 0 0

/-- LANE_RETRAIN. -/
def execLaneRetrain (c : Cmd) (s : State) : Res := .next (runCmd 0x32 c (laneRetrainBody c) s)

/-- The words of LANE_GROUP in CONFIG form for one lane of the new span or of a group it cuts. -/
def putGroupLane (s : State) (l code member owner : Nat) : State :=
  let s := ((s.put F.grp_width_cfg l (if member = 0 then code else 0)).put F.grp_width_lim l (if member = 0 then code else 0)).put F.grp_member l member
  s.put F.grp_owner l owner

/-- LANE_GROUP CONFIG (R142, R168); the span may hold retired lanes, its first one among them (R155's example). -/
def laneGroupConfigBody (c : Cmd) (s : State) : Result :=
  checked c true 1 <|
    let w := c.par 0
    let code := bits w 11 10
    let f := bits w 9 0
    let new := upTo f (2 ^ code)
    let groups := distinct (new.map s.groupOf)
    let old := groups.flatMap s.span
    refuseIf (stray w [(11, 10), (9, 0)] || f % 2 ^ code ≠ 0) stBadParam 1 <|
    noMore c 1 <|
    refuseIf ((new ++ old).any fun l => !(s.laneState l = 0 || s.laneState l = 10)) stBadParam 1 <|
    refuseIf (new.any fun l => s.host l ≠ s.host f) stBadParam 1 <|
    let owner := fun (l : Nat) => if groups.contains l then s.groupOwner l else 0
    let t := groups.foldl txnUnlink s
    let t := (old.filter fun l => !new.contains l).foldl (fun t l => putGroupLane t l 0 0 (owner l)) t
    let t := new.foldl (fun t l => putGroupLane t l code (l - f) (if l = f then owner f else 0)) t
    let t := (distinct (new ++ old)).foldl (fun t l => t.put F.ltsb_isolated l (b2n (s.group (if new.contains l then f else l)).isolated)) t
    .done (t.setGroup f { t.group f with passed := [], nextRun := none }) stOk 0 []

/-- LANE_GROUP CONFIG. -/
def execLaneGroupConfig (c : Cmd) (s : State) : Res := .next (runCmd 0x33 c (laneGroupConfigBody c) s)

/-- LANE_GROUP WIDTH (R168). -/
def laneGroupWidthBody (c : Cmd) (s : State) : Result :=
  checked c true 1 <|
    let w := c.par 0
    let code := bits w 11 10
    let l := bits w 9 0
    let g := s.groupOf l
    refuseIf (stray w [(11, 10), (9, 0)]) stBadParam 1 <|
    noMore c 1 <|
    refuseIf (s.laneState l = 10) stRetired 0 <|
    refuseIf (s.get F.grp_width_cfg g < code) stBadParam 1 <|
    .done (widthFollow (s.put F.grp_width_lim g code) g) stOk 0 []

/-- LANE_GROUP WIDTH. -/
def execLaneGroupWidth (c : Cmd) (s : State) : Res := .next (runCmd 0x33 c (laneGroupWidthBody c) s)

/-- LANE_TEST start (R163 to R166): the test status words are cleared, and once mode injects its event. -/
def laneTestStartBody (c : Cmd) (s : State) : Result :=
  laneChecked c s fun l =>
    refuseIf (s.laneState l ≠ 0) stBadParam 1 <|
    let once := s.get F.ltest_inject l = 1 || s.get F.ltest_inject l = 3
    let s := ((s.setWord 1 5 l 0#64).setWord 1 6 l 0#64).put F.ltb_injections l (b2n once)
    .done (enterLane (s.setLane l { s.lane l with testAt := s.tb.tick, injected := 0 }) l 8) stOk 0 []

/-- LANE_TEST start. -/
def execLaneTestStart (c : Cmd) (s : State) : Res := .next (runCmd 0x34 c (laneTestStartBody c) s)

/-- LANE_TEST stop (R153). -/
def laneTestStopBody (c : Cmd) (s : State) : Result :=
  laneChecked c s fun l =>
    if s.laneState l = 8 then .done (enterLane ((testSettle s l).put F.lta_locked l 0) l 0) stOk 0 [] else .done s stOk 0 []

/-- LANE_TEST stop. -/
def execLaneTestStop (c : Cmd) (s : State) : Res := .next (runCmd 0x34 c (laneTestStopBody c) s)

/-- LANE_TEST read. -/
def laneTestReadBody (c : Cmd) (s : State) : Result :=
  laneChecked c s fun l => .done (testSettle s l) stOk 0 [(testSettle s l).word 1 5 l, (testSettle s l).word 1 6 l]

/-- LANE_TEST read. -/
def execLaneTestRead (c : Cmd) (s : State) : Res := .next (runCmd 0x34 c (laneTestReadBody c) s)

/-- The host-facing lanes in service (R162). -/
def State.hostLanes (s : State) : Nat := ((List.range 1024).filter fun l => s.host l && s.laneState l ≠ 10).length

/-- LANE_RETIRE (R160 to R162, R435). -/
def laneRetireBody (c : Cmd) (s : State) : Result :=
  checked c true 1 <|
    let l := bits (c.par 0) 9 0
    refuseIf (stray (c.par 0) [(9, 0)]) stBadParam 1 <|
    noMore c 1 <|
    refuseIf (s.laneState l = 10) stRetired 0 <|
    refuseIf (!s.domOn (laneDomain l)) stNoResource 0 <|
    refuseIf (s.host l && decide (s.hostLanes ≤ 8)) stBadParam 1 <|
    .done (recordRetirement (retireLane s l) l 0 0) stOk 0 []

/-- LANE_RETIRE. -/
def execLaneRetire (c : Cmd) (s : State) : Res := .next (runCmd 0x35 c (laneRetireBody c) s)

end Sys2Proof.Machine
end

