-- ==== Sys2Proof/Machine/Partner.lean ====
section
/-! DEFINITION. Partner timing and partner transactions (06_partner_timing.md, R171 to R199). Model states are the codes of R186:
0 NONE, 1 ACQUIRE, 2 VALID, 3 SUSPECT, 4 HOLD, 5 RESUME. Partner times are 64-bit, in partner fine LSB; the model's u and d
are in 1/16 fine LSB. -/

namespace Sys2Proof.Machine

/-! ### Frames from a partner or host (R175) -/

/-- The blocks of a frame have arrived on the run: the frame is invalid where one of them was, or where an uncorrectable codeword has marked
blocks of its lanes (R136, R143). DESIGN CHOICE (log 19): a lane's marked blocks are those of the frames that come next on it. -/
def frameBlocks (s : State) (g : Nat) (f : Frame) : State × Frame :=
  let run := s.runLanes g
  let seen := (s.group g).badBlock
  let bad := seen || run.any fun l => decide (0 < (s.lane l).invalid)
  let n := ceilDiv (f.words.length + 2) (max 1 run.length)
  let s := if seen then s else run.foldl (fun s l => s.setLane l { s.lane l with invalid := (s.lane l).invalid - n }) s
  (s.setGroup g { s.group g with badBlock := false }, { f with blocksOk := f.blocksOk && !bad })

/-- The CRC of a frame matches (R174, R175). -/
def frameCrcOk (f : Frame) : Bool := f.crc = frameCrc (frameStart f.seqStart f.kind f.low) f.words

/-- A frame passes R175 for the kinds a receiver accepts. -/
def frameOk (f : Frame) (kinds : List Nat) : Bool :=
  f.blocksOk && frameCrcOk f && f.seqStart = f.seqEnd && kinds.contains f.kind && decide (f.words.length ≤ 256) && !f.words.isEmpty

/-- An accepted frame's sequence number (R175): the frames missing before it are counted. -/
def frameSeq (s : State) (g : Nat) (f : Frame) : State :=
  let x := s.group g
  let d := match x.rxSeq with
    | some n => (f.seqStart + 65536 - n) % 65536
    | none => f.seqStart % 65536 + 1
  let s := (s.satInc F.ltsd_seq_gaps g (d - 1)).setGroup g { x with rxSeq := some (f.seqStart % 65536) }
  if d = 1 then s else gapNote s g

/-- A frame that fails R175 is discarded whole and counted; an unknown kind or an overlong frame is a distrust event. -/
def frameBad (s : State) (g : Nat) (f : Frame) (kinds : List Nat) : State :=
  let s := gapNote (s.satInc F.ltsd_frames_bad g 1) g
  if !kinds.contains f.kind || decide (256 < f.words.length) then distrust s g 1 else s

/-- The frame kinds a partner sends (R174). -/
def partnerKinds : List Nat := [1, 3]

/-! ### Stamps of a lane interpolator (R100 to R102) -/

/-- The full count as a lane's die keeps it, its own coarse count with the epoch (R18, R19). -/
def State.laneFull (s : State) (l : Nat) : Nat := s.full / 2 ^ 54 * 2 ^ 54 + (s.full + mget 0 s.tb.laneErr (l / 256)) % 2 ^ 54

/-- The stamp of an event at an edge time (1/100 fine LSB since reset) with raw code `code`, by its die's own count and the lane interpolator's
table in force for the launching tick (R19, R75, R100, R116): the device time in fine LSB, and whether it is coarse, with fine field 512. It is so
where the interpolator is busy with the other event (R76, R101), out of service (R102), without a table, or where the conversion fails its check, which
raises its fault (R77). -/
def laneStamp (s : State) (l edge code : Nat) (ok : Bool) : State × Nat × Bool :=
  let s := advanceTo s (edge / Config.edgeTick)
  let n := 512 + l
  let full := s.laneFull l
  let coarse := full * 1024 + 512
  let m := s.model l
  if !s.inService n || decide (edge < m.busyUntil) then (s, coarse, true)
  else
    let s := s.setModel l { m with busyUntil := edge + convTime (if ok then code else 0) (s.interp n).slowPeriod }
    match ok, (s.interp n).tableFor full with
    | true, some _ =>
      let t := tableCheck s n
      match (t.interp n).tableFor full with
      | some tab => (t, ofSigned 80 (roundHalfUp ((full : Int) * 16384 + tab.entries.getD (code % 1024) 0) 16), false)
      | none => (t, coarse, true)
    | true, none => (s, coarse, true)
    | false, _ => (raise s (interpSource n) 0x02 0 false, coarse, true)

/-- The stamp at the land: without the fixed delay between the land and the lane interpolator (R179). -/
def landTime (s : State) (l t : Nat) (departs : Bool) : Nat :=
  ofSigned 80 ((t : Int) + Config.fusedDelay l (s.group (s.groupOf l)).mode.rate departs)

/-- The lane whose beacons count for R195: the lowest of the run with timing on. -/
def State.beaconLane (s : State) (g : Nat) : Option Nat := (s.runLanes g).find? fun l => s.flag F.ltc_timing_en l

/-- A lane sends beacons (R160, R179). -/
def State.sendsBeacons (s : State) (l : Nat) : Bool :=
  !s.host l && s.flag F.ltc_timing_en l && (s.runLanes (s.groupOf l)).contains l && decide (s.laneState l ≠ 10)

/-- The lane's first block slot after a multiple of 2,560 ticks, one block long, in which no beacon has departed yet (R179). -/
def State.beaconDue (s : State) (l : Nat) : Bool :=
  let ns := blockNs (s.group (s.groupOf l)).mode.rate
  decide (s.laneFull l % Config.beaconPeriod ≤ ceilDiv (ns.1 * 8) (ns.2 * 5)) && decide ((s.model l).beaconAt ≠ s.laneFull l / Config.beaconPeriod + 1)

/-- A beacon has departed within the last 64 periods (R180). -/
def Beacon.recent (b : Beacon) (tick : Nat) : Bool := decide (tick ≤ b.sent + 64 * Config.beaconPeriod)

/-- A beacon's exchange is still possible: its echo may still arrive within 64 periods, or waits for its follow-up (R180). DESIGN CHOICE (log 20):
the 64 periods are counted in ticks, and a follow-up is waited for until the beacon's number is used again. -/
def State.beaconLive (s : State) (m : Model) (b : Beacon) : Bool :=
  b.recent s.tb.tick || (decide (b.bn ≠ m.nextBn) && m.echoes.any fun e => e.beacon = b)

/-- R179: a beacon departs at an edge time, in 1/100 fine LSB since reset, and its lane interpolator gives raw code `code`. Beacons older than 64
periods have no exchange (R180). At the second beacon after UP, tags quarantined by the link are freed and waiting reads are sent again (R195). -/
def execBeaconSend (lane edge code : Nat) (ok : Bool) (s : State) : Res :=
  let s := advanceTo s (edge / Config.edgeTick)
  if !s.sendsBeacons lane || !s.beaconDue lane then .next s
  else
    let g := s.groupOf lane
    let period := s.laneFull lane / Config.beaconPeriod + 1
    let (s, stamp, coarse) := laneStamp s lane edge code ok
    let dev := landTime s lane stamp true
    let m := s.model lane
    let live := m.beacons.filter (s.beaconLive m)
    let s := s.satInc F.ltsc_exch_lost lane (m.beacons.length - live.length)
    let s := sendBlock s lane 0x3C (m.nextBn * 2 ^ 48 + m.prevT1 % 2 ^ 48)
    let b : Beacon := { bn := m.nextBn, t1 := dev, coarse := coarse, sent := s.tb.tick }
    let s := s.setModel lane { m with beacons := live ++ [b], echoes := m.echoes.filter fun e => live.contains e.beacon, nextBn := (m.nextBn + 1) % 256, prevT1 := dev % 2 ^ 48, beaconAt := period, ended := m.ended.filter (·.recent s.tb.tick) }
    if s.beaconLane g = some lane then
      let n := (s.group g).beacons + 1
      let s := s.setGroup g { s.group g with beacons := n }
      if n = 2 then .next (txnSecondBeacon s g) else .next s
    else .next s

/-- A model without a beacon and its echo, whose exchange has ended. -/
def Model.without (m : Model) (b : Beacon) : Model :=
  { m with beacons := m.beacons.filter fun x => x ≠ b, echoes := m.echoes.filter fun e => e.beacon ≠ b, ended := m.ended ++ [b] }

/-- A pending exchange ends without being accepted (R180). -/
def exchangeLost (s : State) (l : Nat) (b : Beacon) : State :=
  (s.satInc F.ltsc_exch_lost l 1).setModel l ((s.model l).without b)

/-- R180: an echo arrives at an edge time, in 1/100 fine LSB since reset, with raw code `code`; one that answers no beacon of the last 64 periods is
late; an echo to a beacon whose exchange has ended within them changes nothing. -/
def execEchoReceive (lane : Nat) (w : Word) (edge code : Nat) (ok : Bool) (s : State) : Res :=
  if s.host lane || !(s.runLanes (s.groupOf lane)).contains lane then .next s
  else
    let (s, stamp, coarse) := laneStamp s lane edge code ok
    let m := s.model lane
    let answered := fun (b : Beacon) => b.bn = bits w 55 48 && b.recent s.tb.tick
    match m.beacons.find? answered with
    | none => .next (if m.ended.any answered then s else s.satInc F.ltsd_late_echo lane 1)
    | some b =>
      let e : Echo := { beacon := b, t2 := bits w 39 0, t4 := landTime s lane stamp false, coarse := coarse }
      .next (s.setModel lane { m with echoes := (m.echoes.filter fun x => x.beacon ≠ b) ++ [e] })

/-! ### The model -/

/-- The 64-bit partner time within ±2^39 of a prediction whose low 40 bits are `field` (R182). -/
def unwrap40 (field : Nat) (pred : Int) : Nat :=
  ofSigned 64 (pred + (((field : Int) - pred + 2 ^ 39) % 2 ^ 40) - 2 ^ 39)

/-- The partner time the model gives for a device time in 1/16 fine LSB, in 1/16 fine LSB, rounded down. -/
def Model.partnerAt (m : Model) (d16 : Int) : Int := m.u + ((d16 - m.d) * 2 ^ 60) / (2 ^ 60 + m.g)

/-- D(U) in 1/16 fine LSB times 2^60 (R185). -/
def Model.deviceAt (m : Model) (u16 : Int) : Int := m.d * 2 ^ 60 + (u16 - m.u) * (2 ^ 60 + m.g)

/-- The residual of a pair under the model in force, in 1/16 fine LSB (R185). -/
def Model.resid (m : Model) (p : Pair) : Int := p.d - roundHalfUp (m.deviceAt p.u) (2 ^ 60)

/-- The sums of the regression of R258 over pairs, with x = u − u0 and y = (d − d0) − x: n, Σx, Σy, Σxx, Σxy. -/
def fitSums (u0 d0 : Int) (ps : List Pair) : Nat × Int × Int × Int × Int :=
  ps.foldl (fun a p =>
    let x := p.u - u0
    let y := (p.d - d0) - x
    (a.1 + 1, a.2.1 + x, a.2.2.1 + y, a.2.2.2.1 + x * x, a.2.2.2.2 + x * y)) (0, 0, 0, 0, 0)

/-- A quotient rounded half up, for a positive divisor. -/
def quotient (num den : Int) : Int := roundHalfUp num den.toNat

/-- The least-squares fit of a window of pairs comes into force, with U_ref at its newest pair (R185, R258). -/
def fitWindow (s : State) (l : Nat) (ps : List Pair) : State :=
  let m := s.model l
  match ps.getLast? with
  | none => s
  | some p =>
    let (n, sx, sy, sxx, sxy) := fitSums p.u p.d ps
    let den := (n : Int) * sxx - sx * sx
    let f := if 0 < den then
        { m with u := p.u, d := p.d + quotient (sy * sxx - sx * sxy) den, g := quotient (((n : Int) * sxy - sx * sy) * 2 ^ 60) den }
      else { m with u := p.u, d := p.d + quotient sy n }
    let f := { f with fitted := true, fitDue := none }
    let sq := ps.foldl (fun a q => a + (f.resid q).natAbs * (f.resid q).natAbs) 0
    (showFit (s.setModel l f) l).put F.ltsb_resid_rms l (min 65535 ((isqrt (4 * sq / n) + 1) / 2))

/-- A pair joins the window, which keeps the newest 2^fit_log2; a fit of the window as it then stands falls due at 64, 256, 1,024 and 4,096 pairs
in the window, and after every further 4,096 (R185). DESIGN CHOICE (log 20): a fit that falls due takes the place of one not yet computed. -/
def joinWindow (s : State) (l : Nat) (p : Pair) : State :=
  let m := s.model l
  let size := 2 ^ s.get F.ltc_fit_log2 l
  let w := m.window ++ [p]
  let w := w.drop (w.length - size)
  let grown := decide (m.window.length < w.length)
  let due := (grown && (w.length = 64 || w.length = 256 || w.length = 1024 || w.length = 4096)) || decide (4096 ≤ m.sinceFit + 1)
  let s := s.setModel l { m with window := w, sinceFit := if due then 0 else m.sinceFit + 1, fitDue := if due then some w else m.fitDue }
  s.put F.ltsb_fill_log2 l (min 31 (fillLog2 w.length))

/-- LANE.step_limit in 1/16 fine LSB. -/
def State.stepLimit (s : State) (l : Nat) : Nat := s.get F.ltc_step_limit l * 1024

/-- The STEP verdict (R187): D_ref and U_ref from the mean of the stepped pairs, g kept, the window refilled from them. -/
def modelStep (s : State) (l : Nat) (ps : List Pair) : State :=
  let m := s.model l
  let n : Int := ps.length
  let sum := fun (f : Pair → Int) => ps.foldl (fun a p => a + f p) 0
  let mean16 := quotient (sum m.resid) n
  let s := s.setModel l { m with u := quotient (sum (·.u)) n, d := quotient (sum (·.d)) n, window := ps, held := [], sinceFit := 0, fitDue := none }
  let s := putMstate (showFit (s.satInc F.ltsc_steps l 1) l) l 2
  let first := (ps.headD { u := 0, d := 0, t4 := 0 }).t4
  let last := (ps.getLastD { u := 0, d := 0, t4 := 0 }).t4
  eventBoth s (s.groupOwner (s.groupOf l)) 0x04 0 stOk l [devWord first, devWord last, BitVec.ofNat 64 (ofSigned 64 (roundHalfUp mean16 16))]

/-- What a pair does to its lane's model (R185 to R187). -/
def takePair (s : State) (l : Nat) (p : Pair) : State :=
  let m := s.model l
  let r := m.resid p
  let beyond := decide (s.stepLimit l < r.natAbs)
  match s.get F.ltsb_mstate l with
  | 1 =>
    let s := joinWindow s l p
    if 64 ≤ (s.model l).window.length then putMstate (fitWindow s l (s.model l).window) l 2 else s
  | 2 => if beyond then putMstate (s.setModel l { m with held := [p] }) l 3 else joinWindow s l p
  | 3 =>
    if !beyond then
      let s := (s.satInc F.ltsc_outliers l m.held.length).setModel l { m with held := [] }
      putMstate (joinWindow s l p) l 2
    else
      let same := match m.held.getLast? with
        | some q => decide ((0 ≤ m.resid q) = (0 ≤ r))
        | none => true
      let s := if same then s else s.satInc F.ltsc_outliers l m.held.length
      let ps := if same then m.held ++ [p] else [p]
      if 16 ≤ ps.length then modelStep s l ps else s.setModel l { s.model l with held := ps }
  | 5 =>
    if beyond || !m.fitted then modelAcquire s l
    else if 16 ≤ m.held.length + 1 then
      let s := (m.held ++ [p]).foldl (fun s q => joinWindow s l q) (s.setModel l { m with held := [] })
      putMstate s l 2
    else s.setModel l { m with held := m.held ++ [p] }
  | _ => s

/-- R180 to R187: the follow-up completes the exchange. -/
def execEchoFollowUpReceive (lane : Nat) (w : Word) (s : State) : Res :=
  let m := s.model lane
  if s.host lane || !(s.runLanes (s.groupOf lane)).contains lane then .next s
  else match m.echoes.find? fun e => e.beacon.bn = bits w 55 48 with
  | none => .next s
  | some e =>
      let g := s.groupOf lane
      let t1 := e.beacon.t1
      let t2 : Nat := match m.fitted, m.lastT2 with
        | true, _ => unwrap40 e.t2 (m.partnerAt ((t1 : Int) * 16) / 16)
        | false, some (u, d) => unwrap40 e.t2 ((u : Int) + ((t1 : Int) - d))
        | false, none => e.t2
      let t3 : Nat := unwrap40 (bits w 39 0) t2
      let turn : Int := (t3 : Int) - t2
      let rtt : Int := ((e.t4 : Int) - t1) - turn
      let s := s.setModel lane { m with lastT2 := some (t2, t1) }
      if turn < 0 || rtt < 0 then .next (distrust (exchangeLost s lane e.beacon) g 1)
      else if 16384000 < turn || e.coarse || e.beacon.coarse then .next (exchangeLost s lane e.beacon)
      else
        let p : Pair := { u := ((t2 : Int) + t3) * 8, d := ((t1 : Int) + e.t4) * 8 + roundHalfUp (toSigned 24 (s.get F.ltc_asym lane)) 2, t4 := e.t4 }
        let s := s.put F.ltsc_rtt lane (min 255 (rtt.toNat * 10 / 262144))
        let s := s.setModel lane { (s.model lane).without e.beacon with lastAccept := some s.tb.tick }
        .next (takePair s lane p)

/-- R185: a fit that was due comes into force: of the window as it stood when the fit fell due. -/
def execModelFitComplete (lane : Nat) (s : State) : Res :=
  match (s.model lane).fitDue with
  | some ps => .next (fitWindow s lane ps)
  | none => .next s

/-- The hit and marker words of a frame that R188 discards and counts. -/
def IFrame.discarded (f : IFrame) : Nat := f.hits + markCount f.p64 f.words

/-- The frames that wait for conversion are discarded and counted (R188). -/
def dropWaiting (s : State) (g : Nat) : State :=
  let x := s.ing g
  let gone := x.frames.filter fun f => f.stage = 0
  let n := sumOver IFrame.discarded gone
  let s := if n = 0 then s else gapNote s g
  ingSettle (dropGroup (s.setIng g { x.closed with frames := x.frames.filter fun f => f.stage ≠ 0 }) g n) g

/-- R186, R188: 10 ms in ACQUIRE; the blocks held for the group are discarded. -/
def execAcquireTimeout (lane : Nat) (s : State) : Res :=
  if s.get F.ltsb_mstate lane = 1 then
    let s := advanceTo s ((s.model lane).enteredAt + 10 * Config.milli)
    let g := s.groupOf lane
    let s := s.setModel lane { s.model lane with enteredAt := s.tb.tick }
    if (s.modelLane g).isNone && (s.runLanes g).head? = some lane then .next (dropWaiting s g) else .next s
  else .next s

/-- R186: 100 µs in SUSPECT without a verdict. -/
def execSuspectTimeout (lane : Nat) (s : State) : Res :=
  if s.get F.ltsb_mstate lane = 3 then
    .next (modelAcquire (advanceTo s ((s.model lane).enteredAt + 160000)) lane)
  else .next s

/-- R182, R186: no exchange accepted for 335.5 ms; NONE, and ACQUIRE at once while the group is UP with timing on. -/
def execHalfWrapLimit (lane : Nat) (s : State) : Res :=
  match (s.model lane).lastAccept with
  | some t0 =>
    if s.get F.ltsb_mstate lane = 0 then .next s
    else .next (modelStart (modelNone (advanceTo s (t0 + 536800000)) lane) lane)
  | none => .next s

/-- A change of the timing configuration word takes effect (R186, R199). -/
def timingChange (s : State) (l : Nat) (old new : Word) : State :=
  if !bit new 2 then (if s.get F.ltsb_mstate l = 0 then s else modelNone s l)
  else
    let s := if bits old 63 35 ≠ bits new 63 35 then
        if s.get F.ltsb_mstate l = 2 then modelAcquire s l
        else showFit (s.setModel l { s.model l with window := [], sinceFit := 0, fitDue := none }) l
      else s
    modelStart s l

/-! ### Transactions -/

/-- PARTNER_READ (op 1) and PARTNER_WRITE (op 2) (R194). -/
def partnerTxn (op : Nat) (c : Cmd) (s : State) : Result :=
  let w := c.par 0
  let len := bits w 53 46
  let g := bits w 63 54
  checked c false (if op = 2 then 1 + len else 1) <|
    refuseIf (stray w [(63, 54), (53, 46), (31, 0)] || len = 0 || decide (32 < len)) stBadParam 1 <|
    noMore c (if op = 2 then 1 + len else 1) <|
    refuseIf (s.groupOf g ≠ g || s.host g) stBadParam 1 <|
    refuseIf (c.part ≠ 0 && s.ownerOf g ≠ c.part) stNotOwner 0 <|
    refuseIf ((s.span g).all fun l => s.laneState l = 10) stRetired 0 <|
    refuseIf (!s.groupUp g) stLinkDown 0 <|
    match s.freeTag with
    | none => .fail stNoResource 0 []
    | some t =>
      refuseIf (16 * (s.runLanes g).length ≤ s.outstanding g) stNoResource 0 <|
      let s := s.setTxn t { Txn.init with st := .outstanding, group := g, op := op, len := len, addr := bits w 31 0, part := c.part, deadline := s.tb.tick + s.txnLimit g }
      .done (sendRequest s t (if op = 2 then c.params.drop 1 else [])) stOk 0 [BitVec.ofNat 64 t]

/-- PARTNER_READ. -/
def execPartnerRead (c : Cmd) (s : State) : Res := .next (runCmd 0x38 c (partnerTxn 1 c) s)
/-- PARTNER_WRITE. -/
def execPartnerWrite (c : Cmd) (s : State) : Res := .next (runCmd 0x39 c (partnerTxn 2 c) s)

/-- The code of a tag state in PARTNER_TXN_STATUS, in the order of R195. -/
def TxnState.code : TxnState → Nat
  | .free => 0 | .outstanding => 1 | .retryWait => 2 | .retrying => 3 | .done => 4 | .quarantine => 5

/-- PARTNER_TXN_STATUS (R195, R196). -/
def partnerTxnStatusBody (c : Cmd) (s : State) : Result :=
  checked c false 1 <|
    let t := bits (c.par 0) 11 0
    let x := s.txn t
    refuseIf (stray (c.par 0) [(11, 0)]) stBadParam 1 <|
    noMore c 1 <|
    refuseIf (x.st ≠ .free && x.part ≠ c.part) stNotOwner 0 <|
    refuseIf (x.st = .free || x.st = .quarantine) stBadParam 1 <|
    let head := pack [(63, 61, x.st.code), (55, 48, x.stat), (47, 40, x.pstatus), (39, 32, x.data.length)]
    .done (if x.st = .done then txnLeaveDone s t else s) stOk 0 (head :: x.data)

/-- PARTNER_TXN_STATUS. -/
def execPartnerTxnStatus (c : Cmd) (s : State) : Res := .next (runCmd 0x3A c (partnerTxnStatusBody c) s)

/-- R195: a transaction response; one that matches no OUTSTANDING tag of the group, or disagrees with it, is counted. -/
def execTxnResponseReceive (group : Nat) (f : Frame) (s : State) : Res :=
  if !s.groupUp group || s.host group then .next s
  else if f.kind = 1 then .next s
  else
    let (s, f) := frameBlocks s group f
    if !frameOk f partnerKinds then .next (frameBad s group f partnerKinds)
    else
    let s := frameSeq s group f
    let w := f.words.headD 0#64
    let t := bits w 63 52
    let x := s.txn t
    let data := (f.words.take (frameBytes f / 8)).drop 1
    let fits := x.st = .outstanding && x.group = group && x.op = bits w 51 50 && x.len = bits w 49 42 &&
      data.length = (if x.op = 1 then x.len else 0)
    if fits then .next (txnDone s t stOk (bits w 41 34) data 0)
    else .next (distrust (s.satInc F.ltsd_unsolicited group 1) group 1)

/-- R195: no response within LANE.txn_timeout. -/
def execTxnTimeout (txn : Nat) (s : State) : Res :=
  let x := s.txn txn
  if x.st = .outstanding then .next (txnDone (advanceTo s x.deadline) txn stTimeout 0 [] 2) else .next s

/-- R195: 1 s without the group in UP. -/
def execRetryWaitTimeout (txn : Nat) (s : State) : Res :=
  let x := s.txn txn
  if x.st = .retryWait && !s.groupUp x.group then .next (txnDone (advanceTo s x.deadline) txn stOutcomeUnknown 0 [] 0) else .next s

/-- R195: 100 ms in DONE. -/
def execDoneTimeout (txn : Nat) (s : State) : Res :=
  let x := s.txn txn
  if x.st = .done then .next (txnLeaveDone (advanceTo s x.deadline) txn) else .next s

/-- R195: LANE.txn_timeout more has elapsed in QUARANTINE (timeout). -/
def execQuarantineTimeout (txn : Nat) (s : State) : Res :=
  let x := s.txn txn
  if x.st = .quarantine && x.quar = 2 then .next (freeTxn (advanceTo s x.deadline) txn) else .next s

end Sys2Proof.Machine
end

