-- ==== Sys2Proof/Machine/Ingress.lean ====
section
/-! DEFINITION. From a partner's hit frame to the fate of its hits at their tiles: lane ingress queues and conversion (06, 07, 10:
R176, R183, R188 to R190, R200 to R214, R226 to R228, R325, R328, R334 to R336, R347, R348). Source 1,024 stands for the anchor die. -/

namespace Sys2Proof.Machine

/-! ### Reception -/

/-- The frame as it enters a lane ingress queue, with the first `n` of its words (R320). -/
def newFrame (s : State) (g : Nat) (ws : List Word) (n : Nat) : IFrame :=
  let x := s.ing g
  { seq := x.next, words := ws.take n, hits := hitCount (s.isP64 g) ws, arrival := s.nowFine, stage := 0, rewinds := 0, all := [], reread := false, fit := none, mark := none, lost := 0, sheds := [], start := x.wp, p64 := s.isP64 g }

/-- The PCS writes the first `n` words of a frame into its lane ingress queue (R328). -/
def writeFrame (s : State) (g : Nat) (ws : List Word) (n : Nat) : State :=
  let x := s.ing g
  ingSettle (s.setIng g { x with frames := x.frames ++ [newFrame s g ws n], wp := x.wp + min n ws.length }) g

/-- The words of a frame that a lane ingress queue takes before one finds it full, at most `n` (R328). -/
def State.ingTakes (s : State) (g : Nat) : Nat → Nat
  | 0 => 0
  | n + 1 => if s.ingRoom g (n + 1) then n + 1 else s.ingTakes g n

/-- R175, R313, R320, R327, R328: a hit frame is written word by word into the lane ingress queue, discarded as bad, or discarded with the words already
written when one finds the queue full. `spillWaiting` says that the spill write of the oldest tail line is waiting for the Erg. -/
def execHitFrameReceive (group : Nat) (f : Frame) (spillWaiting : Bool) (t : Nat) (s : State) : Res :=
  let g := group
  if !s.groupUp g || s.host g || f.kind = 3 then .next s
  else
    let (s, f) := frameBlocks (advanceTo s t) g f
    if !frameOk f partnerKinds then .next (frameBad s g f partnerKinds)
    else
      let s := frameSeq s g f
      let s := s.setIng g { s.ing g with stalled := spillWaiting }
      let ws := validData (s.isP64 g) f
      let n := s.ingTakes g ws.length
      let t := writeFrame s g ws n
      if n = ws.length then .next (t.setIng g { t.ing g with next := (t.ing g).next + 1 })
      else
        let hits := hitCount (s.isP64 g) ws
        let t := (dropGroup (ingBack t g (s.ing g)) g hits).satInc F.qib_overrun_hits g hits
        let t := t.put F.qia_overrun g 1
        .next (if s.ingCapacity g < (s.ing g).lines (n + 1) then t.put F.qia_ovr_quota g 1 else t.put F.qia_ovr_bw g 1)

/-- R347, R348: a pause frame is repeated every pause_hold / 2 while the pause lasts; a pause whose cases have both ended, tile pressure by the passing of
4,096 ticks too, ends. -/
def execPauseRepeat (group : Nat) (s : State) : Res :=
  if (s.ing group).pausing then
    let s := pauseSettle (advanceTo s (s.ing group).repeatAt) group
    if (s.ing group).pausing then
      let s := pauseFrame s group 1
      .next (s.setIng group { s.ing group with repeatAt := s.tb.tick + s.get F.qic_pause_hold group * 1280 })
    else .next s
  else .next s

/-! ### The channel map -/

/-- The channel that entry `i` of a group's map gives a local channel at a device time (R200). -/
def State.entryChan (s : State) (g lch full i : Nat) : Option Nat :=
  let w := s.wordFor 2 (2 + i) g full
  let base := bits w 62 45
  if bit w 63 && decide (base ≤ lch) && decide (lch < base + bits w 44 26) then
    some (bits w 22 0 + (lch - base) * (1 + b2n (bit w 25)))
  else none

/-- The channel that a group's map gives a local channel at a device time (R200, R202); none when it reaches none, or when the time
lies before the previous map. -/
def State.mapChan (s : State) (g lch full : Nat) : Option Nat :=
  if full < (s.group g).mapFrom then none else (upTo 0 64).findSome? (s.entryChan g lch full)

/-- The tiles a map word reaches (R216). -/
def mapTiles (w : Word) : List Nat :=
  let n := bits w 44 26
  if bit w 63 && n ≠ 0 then
    let a := bits w 22 0
    let b := a + (n - 1) * (1 + b2n (bit w 25))
    upTo (chanTile a) (chanTile b + 1 - chanTile a)
  else []

/-- The tiles a group's map reaches at a device time. -/
def State.groupTiles (s : State) (g full : Nat) : List Nat :=
  distinct ((upTo 0 64).flatMap fun i => mapTiles (s.wordFor 2 (2 + i) g full))

/-! ### Crossing the Saddle -/

/-- The classes of packets that cross the Saddle, those of the request channel and then those of the response channel (R207). -/
inductive PacketClass where
  | hit | marker | token | recordWrite | ergWrite | ergReadRequest | cinch | command | ergReadData | commitAck | creditReturn
  deriving DecidableEq, Repr

/-- The packet buffers that the receiver of each virtual channel holds in reserve as escape credits (R207). -/
def escapeCredits : Nat := 4

/-- A class may use an escape credit (R207). -/
def PacketClass.mayEscape : PacketClass → Bool
  | .hit | .marker | .ergReadRequest => false
  | .token | .recordWrite | .ergWrite | .cinch | .command | .ergReadData | .commitAck | .creditReturn => true

/-- The class of what crosses to a tile. -/
def TItem.packet : TItem → PacketClass
  | .hit _ => .hit
  | .marker _ _ _ => .marker
  | .token _ _ => .token

/-- The tile and the source of what crosses to a tile. -/
def linkKey (tile src : Nat) : Nat := tile * 2048 + src

/-- The link from a source's lane die to a tile's core die (R204). -/
def linkOf (tile src : Nat) : Nat := src / 256 * 8 + tile / 64

/-- Something is sent to a tile (R204, R205). -/
def toTile (s : State) (tile src : Nat) (it : TItem) : State :=
  let k := linkOf tile src
  { s with toTile := mset [] s.toTile k (mget [] s.toTile k ++ [(linkKey tile src, it)]) }

/-- The packet of a link that is delivered next to a tile from a source (R205, R207): the oldest of the link; or, with escape credits, one of a class that may
use them, past older packets of classes that may not. Those of its own class that stand before it for other tiles take a credit each. Answers the packet and
what stays on the link. -/
def linkTake (key : Nat) (escape : Bool) : Nat → List (Nat × TItem) → Option (TItem × List (Nat × TItem))
  | _, [] => none
  | credits, e :: rest =>
    if e.1 = key && (!escape || (e.2.packet.mayEscape && decide (0 < credits))) then some (e.2, rest)
    else if escape then
      (linkTake key escape (if e.2.packet.mayEscape then credits - 1 else credits) rest).map fun r => (r.1, e :: r.2)
    else none

/-- A shed class falls at a tile's level, raised by 1 while the link is at its limit (R235, R237). -/
def State.shedLevel (s : State) (g tile : Nat) : Nat :=
  min 3 (s.get F.tmd_shed_level tile + mget 0 s.links (g / 256 * 8 + tile / 64))

/-! ### Conversion -/

/-- What converting a frame carries along: the frame, whether its words are converted for the first time, and the fit. -/
structure Conv where
  s : State
  f : IFrame
  first : Bool
  m : Model
  lane : Nat
  uArr : Int

/-- A hit word of the frame is lost and counted when the frame commits; `n` distrust events. -/
def Conv.drop (c : Conv) (g n : Nat) : Conv :=
  { c with f := { c.f with lost := c.f.lost + 1 }, s := if c.first then distrust c.s g n else c.s }

/-- A hit leaves for its tile (R203, R204, R235, R244, R434): `full` is the device time used for lookups. -/
def Conv.send (c : Conv) (g : Nat) (h : THit) (full : Nat) : Conv :=
  let s := c.s
  let tile := chanTile h.chan
  if s.modeAt h.chan full = 0 || s.chanGone h.chan full || !s.domOn (tileDomain tile) then c.drop g 0
  else
    let level := s.shedLevel g tile
    if s.shedClass h.chan full < level then
      { c with f := { c.f with lost := c.f.lost + 1, sheds := c.f.sheds ++ [(h.chan, full, s.get F.tmd_shed_level tile)] } }
    else
      let s := toTile s tile g (.hit h)
      let s := s.setGroup g { s.group g with recentTiles := mset 0 (s.group g).recentTiles tile s.tb.tick }
      { c with s := s, f := { c.f with all := if c.f.all.contains tile then c.f.all else c.f.all ++ [tile] } }

/-- The partner time of a hit's field in (U_arr − W + F, U_arr + F] (R183). -/
def unwrapHit (p64 : Bool) (field : Nat) (uArr : Int) : Int :=
  let w : Int := if p64 then 2 ^ 30 else 2 ^ 26
  let top := uArr + w / 16
  top - (top - field) % w

/-- A device time in fine LSB from a partner time, rounded half up (R190). -/
def Model.fineAt (m : Model) (u : Int) : Int := roundHalfUp (m.deviceAt (u * 16)) (16 * 2 ^ 60)

/-- A hit word (R176, R178, R183, R188 to R190, R197), judged by the values that hold at its device time (R407). -/
def convertHit (c : Conv) (g : Nat) (p64 : Bool) (w : Nat) : Conv :=
  let lch := if p64 then w / 2 ^ 44 % 2 ^ 18 else w / 2 ^ 30 % 2 ^ 16
  let field := if p64 then w / 2 ^ 14 % 2 ^ 30 else w / 2 ^ 6 % 2 ^ 24 * 4
  let tot := if p64 then w / 4 % 4096 else if w / 2 % 32 = 31 then 0xFFF else w / 2 % 32 * 32
  let thr := if p64 then w / 2 % 2 else w % 2
  let coarse := if p64 then w % 2 else 0
  let s := c.s
  let iso := (s.group g).isolated
  if thr = 1 && !s.flag F.lsa_dual_thr c.lane then c.drop g 1
  else
    let u := unwrapHit p64 field c.uArr
    let t := ofSigned 80 (c.m.fineAt u)
    let future := decide (c.uArr + s.getFor F.ltc_step_limit c.lane (t / 1024) * 64 < u)
    let full := if future then s.full else t / 1024
    if iso && s.getFor F.ltc_iso_mode g (t / 1024) = 0 then c.drop g 0
    else match s.mapChan g lch full with
    | none => c.drop g 0
    | some c0 =>
      let base : THit := { chan := c0 + thr, time := t, tot := tot, flags := 4 * coarse, merged := false, overRate := false, timeout := false, transitions := 0, src := g, frame := c.f.seq, mirage := 0, ref := 0 }
      let mirage := fun (h : THit) (events : Nat) =>
        let s := if c.first then distrust (s.satInc F.ltsc_mirage_lane g 1) g events else s
        ({ c with s := s } : Conv).send g h full
      if future then mirage { base with time := ofSigned 64 u, mirage := 1, ref := ofSigned 64 c.uArr } 1
      else if iso then mirage { base with mirage := 2 } 0
      else c.send g base full

/-- A marker word (R190, R197, R216, R217); an isolated group's is not forwarded. -/
def convertMarker (c : Conv) (g w : Nat) : Conv :=
  let s := c.s
  let u : Int := min (unwrap40 (w % 2 ^ 40) c.uArr : Nat) c.uArr
  let d := c.m.fineAt u
  let t := ofSigned 80 (d - s.getFor F.ltc_mk_guard g (ofSigned 80 d / 1024) * 1024)
  let back := match (s.group g).lastMarker with
    | some p => decide (t ≤ p)
    | none => false
  if back then { c with s := if c.first then distrust (s.satInc F.ltsd_marker_back g 1) g 1 else s }
  else if (s.group g).isolated then c
  else
      let tiles := (s.groupTiles g s.full).filter fun x => !s.tileGone x s.full && s.domOn (tileDomain x)
      let s := tiles.foldl (fun s x => toTile s x g (.marker g c.f.seq t)) s
      let x := s.group g
      let next := s.full / 4096 + 1
      let s := s.setGroup g { x with lastMarker := some t, markerUp := true, waitFrom := some (x.waitFrom.getD next), staleTo := if s.flag F.gmrg_stale g then some (x.staleTo.getD next) else x.staleTo }
      { c with s := s, f := { c.f with all := distinct (c.f.all ++ tiles) } }

/-- One word of a frame (R176). -/
def convertWord (g : Nat) (p64 : Bool) (c : Conv) (w : Nat) : Conv :=
  match wordKind p64 w with
  | 0 => c
  | 1 => convertHit c g p64 w
  | 2 => convertMarker c g w
  | _ => if c.first then { c with s := distrust (dropGroup c.s g 1) g 1 } else c

/-- The conversion stage has read a frame: a partly written tail line that it reaches is closed (R319). -/
def readFrame (s : State) (g : Nat) (f : IFrame) : State :=
  s.setIng g { s.ing g with wp := closeTail (s.ing g).wp (f.start + f.words.length) }

/-- Changes the frame of a lane ingress queue with a given number. -/
def putFrame (s : State) (g : Nat) (f : IFrame) : State :=
  s.setIng g { s.ing g with frames := (s.ing g).frames.map fun h => if h.seq = f.seq then f else h }

/-- Takes a frame out of a lane ingress queue. -/
def takeFrame (s : State) (g : Nat) (f : IFrame) : State :=
  s.setIng g { s.ing g with frames := (s.ing g).frames.filter fun h => h.seq ≠ f.seq }

/-- A frame with an uncorrectable word is discarded and its hit words counted, those also lost by the element `source` (R325, R442). -/
def loseFrame (s : State) (g source : Nat) (f : IFrame) : State :=
  dataLost ((dropGroup (takeFrame s g f) g f.hits).satInc F.qis_frames_ecc g 1) source f.hits

/-- The same for a word of the queue itself, whose fault is raised. -/
def badFrame (s : State) (g : Nat) (f : IFrame) (injected : Bool) : State :=
  ingSettle (raise (loseFrame s g (0x0400 + g) f) (0x0400 + g) 0x01 0 injected) g

/-- The fit a frame is converted with: the one at its mark when it is replayed, else that of the group's model lane (R189, R213). -/
def State.fitFor (s : State) (g : Nat) (f : IFrame) : Option Model :=
  match f.fit with
  | some (u, d, r) => some { Model.init with u := u, d := d, g := r, fitted := true }
  | none => (s.modelLane g).map s.model

/-- R176, R188, R189, R320, R321, R324, R325, R335: the conversion stage reads the oldest frame that waits and converts its words.
`corrected` words of it read with a single-bit error; `badWord` says that one reads as uncorrectable. -/
def execHitConversion (group corrected : Nat) (badWord : Bool) (s : State) : Res :=
  let g := group
  match (s.ing g).frames.find? fun f => f.stage = 0 with
  | none => .next s
  | some f =>
    if 64 ≤ ((s.ing g).frames.filter fun h => h.stage = 1).length then .next s
    else
      let go : Bool := match s.fitFor g f, s.runLanes g with
        | some _, _ => true
        | none, l :: _ => s.get F.ltsb_mstate l = 0
        | none, [] => false
      if !go then .next s
      else
        let s := countEcc (readFrame s g f) F.qib_ecc_corr F.qia_ecc_sat g (min corrected f.words.length)
        let erg := dieSource (8 + g / 256) 5
        let (s, spilt) := if (s.ing g).mid = 0 then (s, false) else ergRead s (g / 256)
        let (s, inj) := if spilt then (s, false) else awlTake s (0x0400 + g)
        if spilt then .next (ingSettle (raise (loseFrame s g erg f) erg 0x01 0 true) g)
        else if badWord || inj then
          if !f.reread then .next (putFrame s g { f with reread := true })
          else
            .next (badFrame s g f inj)
        else match s.fitFor g f with
        | none => .next (ingSettle (gapNote (dropGroup (takeFrame s g f) g f.discarded) g) g)
        | some m =>
          let lane := (s.modelLane g).getD (s.get F.grp_run_first g)
          let uArr := m.partnerAt ((f.arrival : Int) * 16) / 16
          let f1 := { f with stage := 1, reread := false, fit := some (m.u, m.d, m.g), mark := if f.fit.isNone then (s.group g).lastMarker else f.mark, lost := 0, sheds := [], all := [] }
          let c0 : Conv := { s := s, f := f1, first := f.fit.isNone, m := m, lane := lane, uArr := uArr }
          let c := (frameWords f.p64 f.words).foldl (convertWord g f.p64) c0
          .next (ingSettle (putFrame c.s g c.f) g)

/-! ### Arrival at the tile -/

/-- The pause of every group that has lately sent hits to a tile follows its buffer (R347). -/
def pressTile (s : State) (tile : Nat) : State :=
  s.groups.foldl (fun s e => if (mfind e.2.recentTiles tile).isSome then pauseSettle s e.1 else s) s

/-- The oldest caravan not yet closed at a tile, by number of the device time. -/
def State.k0 (s : State) (tile : Nat) : Nat := s.tb.base + (s.tile tile).k0

/-- A WADI or MIRAGE record of a hit (R360). -/
def sideRec (h : THit) (reason : Option Nat) (ref : Nat) : Rec :=
  let prec := h.src = 1024
  let head := [(59, 37, h.chan), (36, 27, if prec then 0 else h.src), (23, 23, b2n prec), (14, 3, h.tot), (2, 0, h.flags)]
  match reason with
  | none => single [pack ((63, 60, 9) :: (26, 26, b2n h.merged) :: head), devWord h.time]
  | some r => single [pack ((63, 60, 10) :: (26, 24, r) :: head), devWord h.time, devWord ref]

/-- A gate that covers a tick. -/
def Gate.covers (g : Gate) (full : Nat) : Bool := decide (g.s ≤ full) && decide (full < g.s + g.len)

/-- The gate profile of a channel, by partition × 16 + profile, at a device time. -/
def State.profileOf (s : State) (c full : Nat) : Nat := s.getFor F.chan_part c full * 16 + s.getFor F.chan_gate_prof c full

/-- A channel is in mode 3 or 4 at a device time. -/
def State.statsOn (s : State) (c full : Nat) : Bool := s.modeAt c full = 3 || s.modeAt c full = 4

/-- The sums at the start of a gate. -/
def Acc.start (gate : Nat) (last : Option Nat) : Acc := { gate := gate, n := 0, t1 := 0, t2 := 0, last := last, flags := 0, bins := [] }

/-- A channel's sums. -/
def State.accList (s : State) (c : Nat) : List Acc := mget [] s.accs c

/-- The sums are of the gate of a profile that starts at `gate`. -/
def Acc.isOf (a : Acc) (pk gate : Nat) : Bool := a.prof = pk && a.gate = gate

/-- Changes a channel's sums of the gate of profile `pk` that starts at `gate`, beginning them where there are none. -/
def editAcc (s : State) (c pk gate : Nat) (f : Acc → Acc) : State :=
  let xs := s.accList c
  let ys := if xs.any fun a => a.isOf pk gate then xs.map fun a => if a.isOf pk gate then f a else a
    else xs ++ [f { Acc.start gate none with prof := pk }]
  { s with accs := mset [] s.accs c ys }

/-- Sets flags on a channel's gates that overlap `n` ticks from a device time on, if it has any (R266). -/
def flagGates (s : State) (c full n : Nat) (flag : BitVec 16) : State :=
  if s.statsOn c full then
    let pk := s.profileOf c full
    ((mget [] s.gates pk).filter fun g => decide (g.s < full + n) && decide (full < g.s + g.len)).foldl (fun s g =>
      editAcc s c pk g.s fun a => { a with flags := a.flags ||| flag }) s
  else s

/-- Sets flags on a channel's gate that covers a device time, if it has one (R266). -/
def flagGate (s : State) (c full : Nat) (flag : BitVec 16) : State := flagGates s c full 1 flag

/-- A hit goes to the Wadi (R227, R266 MISSED). -/
def toWadi (s : State) (tile : Nat) (h : THit) : State :=
  let full := h.time / 1024
  let s := s.satInc F.tma_wadi_hits tile 1
  flagGate (emitFor s (s.chanQueue h.chan full) full (sideRec h none 0)) h.chan full 0x0100#16

/-- A hit goes to the Mirage path (R227, R228): `reason` and `ref` as the MIRAGE record carries them. -/
def toMirage (s : State) (tile : Nat) (h : THit) (reason ref : Nat) : State :=
  let full := if reason = 0 then s.full else h.time / 1024
  let s := s.satInc F.tma_mirage_hits tile 1
  let s := emitFor s (s.chanQueue h.chan full) full (sideRec h (some reason) ref)
  let s := if reason = 0 then s else flagGate s h.chan full 0x0100#16
  if 2 ≤ reason && h.src < 1024 then distrust s h.src 1 else s

/-- The fate of a committed hit at its tile (R226, R232, R242): what is lost by an Awl word is a word of the caravan store (R417,
R440). -/
def hitFate (s : State) (tile : Nat) (h : THit) : State :=
  let x := s.tile tile
  let full := h.time / 1024
  let k := full / 4096
  let k0 := s.k0 tile
  let behind := match mfind x.marks h.src with
    | some m => if h.time ≤ m then some m else none
    | none => none
  if h.mirage ≠ 0 then toMirage s tile h (h.mirage - 1) h.ref
  else match behind with
  | some m => toMirage s tile h 2 m
  | none =>
    let remapping := match x.remap with
      | some r => r.fault && (match r.full with
        | some b => decide (full < b)
        | none => true)
      | none => false
    if k0 + 128 ≤ k then toMirage s tile h 3 ((k0 + 128) * 4096 * 1024)
    else if k < k0 || remapping then toWadi s tile h
    else
      let src := s.tileSource tile full
      let (s, bad) := awlTake s src
      if bad then raise (dataLost s src 1) src 0x01 0 true
      else
        let s := if h.overRate || h.timeout || s.modeAt h.chan full = 0 then s else s.wrapInc F.chst_hits h.chan 1
        s.setTile tile { s.tile tile with hits := (s.tile tile).hits ++ [h] }

/-- A marker takes effect at a tile (R211, R219). -/
def tileMark (s : State) (tile src time : Nat) : State :=
  let x := s.tile tile
  let old := mget 0 x.marks src
  s.setTile tile { x with marks := if old < time then minsert x.marks src time else x.marks, frontier := max x.frontier time }

/-- The words that a tile's hit input buffer can hold (R234). -/
def hitBuffer : Nat := 8192

/-- The head of a link into a tile, 0 to 3 from the lane dies and 4 from the anchor, is for the tile and finds room there: a hit waits while the input
buffer is full (R234). -/
def State.linkHead (s : State) (tile l : Nat) : Bool :=
  if l = 4 then (mget [] s.anchorQ (tile / 64)).head?.any fun h => chanTile h.chan = tile
  else (mget [] s.toTile (l * 8 + tile / 64)).head?.any fun e =>
    e.1 / 2048 = tile && (e.2.packet ≠ .hit || decide ((s.tile tile).buf < hitBuffer))

/-- The links whose heads wait for a tile (R22). -/
def State.linksWaiting (s : State) (tile : Nat) : List Nat := (upTo 0 5).filter (s.linkHead tile)

/-- A tile's arbiter can take a packet of a link now: no other link would then wait past its share (R22). -/
def State.linkGrants (s : State) (tile l : Nat) : Bool := s.granted (8 + tile) 5 (s.linksWaiting tile) l = l

/-- A boundary notice with the anchor's marker takes effect at a tile (R218, R219). -/
def noticeTake (s : State) (tile : Nat) : State :=
  match mfind s.notices (tile / 64) with
  | none => s
  | some (b, m) =>
    let s := tileMark s tile 1024 m
    let x := s.tile tile
    s.setTile tile { x with notice := max x.notice b, frontier := max x.frontier (b * 1024) }

/-- R205, R208, R210, R333: the oldest packet of a link, a hit or marker of a source, reaches its tile and is held provisionally; a precision stamp,
which is in no frame, meets its fate at once, behind the notices that the anchor sent before it. -/
def execTileHitArrival (tile src : Nat) (s : State) : Res :=
  let l := src / 256
  if !s.linkHead tile l || !s.linkGrants tile l then .next s
  else if src = 1024 then
    let die := tile / 64
    match mget [] s.anchorQ die with
    | [] => .next s
    | h :: rest =>
      .next (crosses s die 15 fun t =>
        let t := noteGrant (noticeTake t tile) (8 + tile) (s.linksWaiting tile) l
        hitFate (({ t with anchorQ := mset [] t.anchorQ die rest }).put F.qan_fill die rest.length) tile h)
  else
    let k := linkOf tile src
    match linkTake (linkKey tile src) false 0 (mget [] s.toTile k) with
    | none => .next s
    | some (it, rest) =>
      if it.packet = .token then .next s
      else .next (crosses s (tile / 64) (8 + src / 256) fun t =>
        let t := noteGrant { t with toTile := mset [] t.toTile k rest } (8 + tile) (s.linksWaiting tile) l
        let x := t.tile tile
        if it.packet = .hit then pressTile (t.setTile tile { x with prov := x.prov ++ [it], buf := x.buf + 1 }) tile
        else t.setTile tile { x with prov := x.prov ++ [it] })

/-- What a committed item does at its tile (R211). -/
def commitItem (tile : Nat) (s : State) (it : TItem) : State :=
  match it with
  | .hit h => hitFate (s.setTile tile { s.tile tile with buf := (s.tile tile).buf - 1 }) tile h
  | .marker src _ t => tileMark s tile src t
  | .token _ _ => s

/-- R205, R207, R211, R226 to R228: a commit token reaches its tile, past waiting hits and markers where it comes on an escape credit; the frame's hits get
their fates and its markers take effect, in the order in which they were sent. -/
def execCommitToken (tile src : Nat) (escape : Bool) (s : State) : Res :=
  let k := linkOf tile src
  match linkTake (linkKey tile src) escape escapeCredits (mget [] s.toTile k) with
  | some (.token a f, rest) =>
    if !s.linkGrants tile (src / 256) then .next s
    else .next (crosses s (tile / 64) (8 + src / 256) fun t =>
      let t := noteGrant { t with toTile := mset [] t.toTile k rest } (8 + tile) (s.linksWaiting tile) (src / 256)
      let x := t.tile tile
      let mine := x.prov.filter (TItem.inFrame a f)
      let t := t.setTile tile { x with prov := x.prov.filter fun it => !TItem.inFrame a f it }
      pressTile (mine.foldl (commitItem tile) t) tile)
  | _ => .next s

/-- Every tile holds the frame's items (R211). -/
def State.acked (s : State) (g : Nat) (f : IFrame) : Bool :=
  f.all.all fun t => !(mget [] s.toTile (linkOf t g)).any fun e => TItem.inFrame g f.seq e.2

/-- A lane die that holds a word of a Cinch still being distributed, and whose own count has reached B without GO or CANCEL, holds the frame: a hit of it
lies at or after B (R403, R406). -/
def State.heldAtB (s : State) (g : Nat) (f : IFrame) : Bool :=
  s.cmd.cinches.any fun j => j.chosen && decide (j.full ≤ s.laneFull g) &&
    (j.words.any fun e => (s.wordDies (keyObj e.1) (keySel e.1) (keyIdx e.1) e.2).contains (8 + g / 256)) && f.all.any fun t =>
    (s.tile t).prov.any fun it => match it with
      | .hit h => h.src = g && h.frame = f.seq && decide (j.full * 1024 ≤ h.time)
      | _ => false

/-- R207, R211, R212, R334, R336, R338: the oldest uncommitted frame commits, once the commit acknowledgements of its tiles have come: tokens go to its tiles, its space is released, and its discarded
hits are counted. -/
def execFrameCommit (group : Nat) (s : State) : Res :=
  let g := group
  match (s.ing g).frames with
  | f :: rest =>
    if f.stage = 1 && s.acked g f && !s.heldAtB g f then
      let commit := fun (s : State) =>
        let s := f.all.foldl (fun s t => toTile s t g (.token g f.seq)) (s.setIng g { s.ing g with frames := rest })
        let s := f.sheds.foldl (fun s e => countShed s e.1 e.2.1 e.2.2) (dropGroup s g f.lost)
        ingSettle s g
      .next (match distinct (f.all.map (· / 64)) with
        | [] => commit s
        | k :: ks => crosses s (8 + g / 256) k fun t => commit (ks.foldl (fun t d => linkDelivers t (8 + g / 256) d) t))
    else .next s
  | [] => .next s

/-- What a tile or the Saddle holds of a frame is discarded; the tile counts the frame (R213). -/
def dropItems (g : Nat) (f : IFrame) (s : State) (t : Nat) : State :=
  let k := linkOf t g
  let s := { s with toTile := mset [] s.toTile k ((mget [] s.toTile k).filter fun e => !(e.1 = linkKey t g && TItem.inFrame g f.seq e.2)) }
  let x := s.tile t
  let n := (x.prov.filter fun it => match it with
    | .hit h => h.src = g && h.frame = f.seq
    | _ => false).length
  pressTile ((s.setTile t { x with prov := x.prov.filter fun it => !TItem.inFrame g f.seq it, buf := x.buf - n }).satInc F.tmd_discards t 1) t

/-- The rewind of a lane ingress queue to frame `idx` of it (R213, R214, R336). -/
def rewind (s : State) (g idx : Nat) : State :=
  let fs := (s.ing g).frames
  match fs[idx]? with
  | none => s
  | some f =>
    if f.stage ≠ 1 then s
    else if 3 ≤ f.rewinds then
      let s := f.all.foldl (dropItems g f) (takeFrame s g f)
      ingSettle (gapNote ((dropGroup s g f.hits).satInc F.gmrg_replay_lost g 1) g) g
    else
      let later := (fs.drop idx).filter fun h => h.stage = 1
      let s := later.foldl (fun s h => h.all.foldl (dropItems g h) s) s
      let s := later.foldl (fun s h => putFrame s g { h with stage := 0, rewinds := h.rewinds + 1 }) s
      let s := s.setGroup g { s.group g with lastMarker := f.mark }
      ingSettle (s.satInc F.gmrg_replays g later.length) g

/-- R213, R214, R417: a fault is reported against an uncommitted frame by `source`, its element. -/
def execFrameRewind (group idx source : Nat) (s : State) : Res :=
  match (s.ing group).frames[idx]? with
  | some f =>
    if f.stage = 1 then
      let s := rewind s group idx
      .next (if isSource source then raise s source 0x01 0 false else s)
    else .next s
  | none => .next s

/-! ### Shedding -/

/-- R234: the shed level of a tile follows its input buffer, one step in 4,096 ticks of frontier time. -/
def execShedLevelChange (tile : Nat) (s : State) : Res :=
  let x := s.tile tile
  let level := s.get F.tmd_shed_level tile
  let free : Bool := match x.lastLevel with
    | some f => decide (f + 4096 * 1024 ≤ x.frontier)
    | none => true
  let up := decide (s.get F.tmc_shed_hi tile * 128 ≤ x.buf) && decide (level < 3)
  let down := decide (x.buf ≤ s.get F.tmc_shed_lo tile * 128) && decide (0 < level)
  let kept := x.levels.filter fun e => decide (x.frontier < e.1 + 600000 * 4194304)
  let change := fun (new : Nat) =>
    (s.setTile tile { x with lastLevel := some x.frontier, levels := (x.frontier, new) :: kept ++ (x.levels.drop kept.length).take 1 }).put F.tmd_shed_level tile new
  if free && up then .next (change (level + 1))
  else if free && down then .next (change (level - 1))
  else .next s

/-- R237: a link from a lane die to a core die reaches or leaves its limit of 12 Tbit/s of hits. -/
def execLinkShed (laneDie coreDie : Nat) (atLimit : Bool) (s : State) : Res :=
  if laneDie < 4 && coreDie < 5 then .next { s with links := mset 0 s.links (laneDie * 8 + coreDie) (b2n atLimit) }
  else .next s

/-- What the passing of a caravan boundary brings to a group: it is stale no longer, it is waited for, and its tile pressure lapses (R216, R217,
R347). -/
def groupBoundary (s : State) (g : Nat) : State :=
  let s := if s.flag F.gmrg_stale g && !s.staleFor g (s.full / 4096) then s.put F.gmrg_stale g 0 else s
  let s := if s.host g then s else showWaited s g
  if s.flag F.qia_pressure g then pauseSettle s g else s

/-- Tile pressure on a group that has lapsed ends (R347). -/
def pressLapse (s : State) : State := s.groups.foldl (fun s e => if s.flag F.qia_pressure e.1 then pauseSettle s e.1 else s) s

/-- R18, R19, R216 to R219: device time reaches the next caravan boundary; the lane dies check their counts, and every
core die that is on is sent a boundary notice with the anchor's marker. `upset` gives the ticks by which upsets have
moved lane dies' own counts. -/
def execCaravanBoundary (upset : List (Nat × Nat)) (s : State) : Res :=
  let s := advanceFull s (nextBoundary s.full)
  let b := s.full
  let s := upset.foldl (fun s u => if u.1 < 4 then
    { s with tb := { s.tb with laneErr := mset 0 s.tb.laneErr u.1 ((mget 0 s.tb.laneErr u.1 + u.2) % 2 ^ 54) } } else s) s
  let s := [0, 1, 2, 3].foldl laneDieCheck s
  let sent := ([0, 1, 2, 3, 4].filter s.coreOn).foldl (fun m k => mset (0, 0) m k (b, s.anchorMark k b)) s.notices
  let s := { s with notices := sent }
  .next (s.groups.foldl (fun s e => groupBoundary s e.1) s)

/-- R218, R219: a boundary notice with the anchor's marker reaches a tile. -/
def execBoundaryNotice (tile : Nat) (s : State) : Res :=
  .next (if 320 ≤ tile then s else crosses s (tile / 64) 15 fun t => noticeTake t tile)

end Sys2Proof.Machine
end

