-- ==== Sys2Proof/Machine/Stats.lean ====
section
/-! DEFINITION. Statistics (08_statistics.md, R242 to R276): gates, sums, histograms, STATS records, STATS_GATE and STATS_READ. A profile
is partition × 16 + number. A gate of length 0 in `State.gates` is one that waits for its start. -/

namespace Sys2Proof.Machine

/-! ### Channels and feeders of a tile -/

/-- The numbers of an object's selector that are listed, or were before their last change. -/
def State.listed (s : State) (obj sel : Nat) : List Nat :=
  let mine := fun (k : Nat) => decide (k / 2 ^ 24 = obj * 256 + sel)
  distinct (((s.regs.filter fun e => mine e.1).map fun e => keyIdx e.1) ++ ((s.cmd.prev.filter fun e => mine e.1).map fun e => keyIdx e.1))

/-- Numbers in ascending order. -/
def ascending (xs : List Nat) : List Nat := sortBy (fun a b => decide (a ≤ b)) xs

/-- The channels of a tile that have, or had, a channel or filter word of their own, ascending. -/
def State.tileChans (s : State) (tile : Nat) : List Nat :=
  ascending (distinct (((s.listed 3 0) ++ (s.listed 3 2)).filter fun c => chanTile c = tile))

/-- The groups that have, or had, a map word. A map is attached to a group's first configured lane (R238). -/
def State.mappedGroups (s : State) : List Nat :=
  (ascending (distinct ((upTo 2 64).flatMap fun sel => s.listed 2 sel))).filter fun g => s.groupOf g = g

/-- The group feeders of a tile for hits of a device time (R216). -/
def State.feeders (s : State) (tile full : Nat) : List Nat :=
  s.mappedGroups.filter fun g => !s.host g && (s.groupTiles g full).contains tile

/-- The anchor die is a feeder of a tile (R216). -/
def State.anchorFeeds (s : State) (tile full : Nat) : Bool :=
  (upTo 0 128).any fun ci => match s.boundChanAt ci full with
    | some c => chanTile c = tile
    | none => false

/-! ### Gates -/

/-- The gates of a profile. -/
def State.gateList (s : State) (pk : Nat) : List Gate := mget [] s.gates pk
/-- Changes the gates of a profile. -/
def State.setGates (s : State) (pk : Nat) (gs : List Gate) : State := { s with gates := mset [] s.gates pk gs }

/-- The end of a gate. -/
def Gate.stop (g : Gate) : Nat := g.s + g.len

/-- The profile returns to IDLE when its last gate has ended (R248, R250). -/
def gateSettle (s : State) (pk : Nat) : State :=
  let st := s.get F.gsta_gstate pk
  let last := st = 3 || (st = 2 && !s.flag F.gsta_continuous pk && s.get F.gsta_gates_left pk = 0)
  match (s.gateList pk).getLast? with
  | some g => if last && g.len ≠ 0 && decide (g.stop ≤ s.full) then (s.put F.gsta_gstate pk 0).put F.gsta_continuous pk 0 else s
  | none => s

/-- The full count nearest to the present that has a given coarse count. -/
def nearFull (s : State) (coarse : Nat) : Nat :=
  let d := (coarse + 2 ^ 54 - s.full % 2 ^ 54) % 2 ^ 54
  if d < 2 ^ 53 then s.full + d else s.full + d - 2 ^ 54

/-- STATS_GATE START (R248). -/
def statsGateStart (c : Cmd) (s : State) : Result :=
  checked c false 2 <|
    let pk := c.part * 16 + bits (c.par 0) 63 60
    let n := bits (c.par 0) 28 0
    let at1 := bits (c.par 1) 53 0
    let s := gateSettle s pk
    let start := if at1 = 0 then boundaryAfter s.full 8192 else nearFull s at1
    refuseIf (stray (c.par 0) [(63, 60), (28, 0)]) stBadParam 1 <|
    refuseIf (stray (c.par 1) [(53, 0)]) stBadParam 2 <|
    noMore c 2 <|
    refuseIf (s.get F.gsta_gstate pk ≠ 0) stBadParam 1 <|
    refuseIf (start < s.full + 8192) stBadParam 2 <|
    let s := s.setGates pk (s.gateList pk ++ [{ no := 0, s := start, len := 0 }])
    let s := ((s.put F.gsta_gstate pk 1).put F.gsta_continuous pk (b2n (n = 0))).put F.gsta_gates_left pk n
    .done (s.put F.gstb_start pk start) stOk 0 [pack [(53, 0, start)]]

/-- STATS_GATE STOP (R250). -/
def statsGateStop (c : Cmd) (s : State) : Result :=
  checked c false 1 <|
    let pk := c.part * 16 + bits (c.par 0) 63 60
    refuseIf (stray (c.par 0) [(63, 60), (28, 0)]) stBadParam 1 <|
    noMore c 1 <|
    let s := gateSettle s pk
    let idle := (s.put F.gsta_continuous pk 0).put F.gsta_gates_left pk 0
    match s.get F.gsta_gstate pk with
    | 1 => .done ((idle.put F.gsta_gstate pk 0).setGates pk ((s.gateList pk).filter fun g => g.len ≠ 0)) stOk 0 []
    | 2 => .done ((s.put F.gsta_gates_left pk 0).put F.gsta_gstate pk 3) stOk 0 []
    | _ => .done s stOk 0 []

/-- STATS_GATE START. -/
def execStatsGateStart (c : Cmd) (s : State) : Res := .next (runCmd 0x48 c (statsGateStart c) s)
/-- STATS_GATE STOP. -/
def execStatsGateStop (c : Cmd) (s : State) : Res := .next (runCmd 0x48 c (statsGateStop c) s)

/-- A gate starts (R248, R249, R251): `left` gates are still to start after it. -/
def beginGate (s : State) (pk no start left : Nat) : State :=
  let g : Gate := { no := no, s := start, len := s.getFor F.gprof_length pk start }
  let s := s.setGates pk ((s.gateList pk).filter (fun g => g.len ≠ 0) ++ [g])
  let s := ((s.put F.gsta_gate_no pk no).put F.gsta_gstate pk 2).put F.gsta_gates_left pk left
  s.put F.gstb_start pk start

/-- R248, R249, R251: the next gate of a profile starts at its S. -/
def execGateStart (partition profile : Nat) (s : State) : Res :=
  let pk := partition * 16 + profile
  let left := s.get F.gsta_gates_left pk
  match s.get F.gsta_gstate pk, (s.gateList pk).getLast? with
  | 1, some g => .next (beginGate (advanceFull s g.s) pk 0 g.s (left - 1))
  | 2, some g =>
    if s.flag F.gsta_continuous pk || decide (0 < left) then
      .next (beginGate (advanceFull s g.stop) pk ((g.no + 1) % 2 ^ 32) g.stop (left - 1))
    else .next (gateSettle (advanceFull s g.stop) pk)
  | 3, some g => .next (gateSettle (advanceFull s g.stop) pk)
  | _, _ => .next s

/-! ### Sums and histograms -/

/-- The bin of a value (R264). -/
def binOf (lo w v : Nat) : Nat := if v < lo then 0 else min 127 (1 + (v - lo) / 2 ^ w)

/-- A value is counted in a channel's histogram for a gate; a saturated bin sets HIST_SAT (R264, R276). -/
def countBin (s : State) (c full : Nat) (g : Gate) (bin : Nat → Nat → Nat) (a : Acc) : Acc :=
  let hp := s.getFor F.chan_part c full * 16 + s.getFor F.chan_hist_prof c full
  let b := bin (s.getFor F.hprof_lo hp g.s) (s.getFor F.hprof_w hp g.s)
  let n := mget 0 a.bins b
  if n + 1 < 2 ^ 32 then { a with bins := mset 0 a.bins b (n + 1) }
  else { a with bins := mset 0 a.bins b (2 ^ 32 - 1), flags := a.flags ||| 0x2000#16 }

/-- A channel is bound to the start comparator of an input in interval mode (R263). -/
def State.ivChannel (s : State) (c full : Nat) : Bool :=
  (upTo 0 64).any fun i => s.getFor F.pin_ival_en i full = 1 &&
    s.boundChanAt (i * 2 + s.getFor F.pin_ival_start_cmp i full) full = some c

/-- An edge is accumulated (R253 to R255, R262, R417). -/
def accEdge (s : State) (g : Gate) (h : THit) (a : Acc) : Acc :=
  let full := h.time / 1024
  if full < a.resume then a
  else if 2 ^ 32 - 1 ≤ a.n then { a with flags := a.flags ||| 0x0004#16 }
  else
    let t := h.time - g.s * 1024
    let b := { a with n := a.n + 1, t1 := a.t1 + t, t2 := a.t2 + a.n * t, last := some h.time }
    let b := if h.flags ≠ 0 then { b with flags := b.flags ||| 0x0002#16 } else b
    let b := if h.merged then { b with flags := b.flags ||| 0x0040#16 } else b
    match s.getFor F.chan_hist h.chan full with
    | 2 => countBin s h.chan full g (fun lo w => if h.tot = 0xFFF then 127 else binOf lo w (8 * h.tot)) b
    | 1 =>
      match a.last with
      | some p => if s.ivChannel h.chan full then b else countBin s h.chan full g (fun lo w => binOf lo w (h.time - p)) b
      | none => b
    | _ => b

/-- The last edge of a channel's sums, as the predecessor of the next gate's first edge (R262). -/
def Acc.carry (a : Acc) : Option Nat := if a.n = 0 then none else a.last

/-- The sums of a gate about to take an edge: before the first one, with the predecessor from the gate that ended at its S (R262). -/
def withCarry (s : State) (c : Nat) (g : Gate) (a : Acc) : Acc :=
  if a.n = 0 && a.last.isNone then
    match (s.gateList a.prof).find? fun p => p.len ≠ 0 && p.stop = g.s with
    | some p => match (s.accList c).find? fun b => b.isOf a.prof p.s with
      | some b => { a with last := b.carry }
      | none => a
    | none => a
  else a

/-- A binned hit that statistics may take (R253). -/
def accumulate (s : State) (h : THit) : State :=
  let full := h.time / 1024
  let pk := s.profileOf h.chan full
  match (s.gateList pk).find? fun g => g.covers full with
  | some g => editAcc s h.chan pk g.s fun a => accEdge s g h (withCarry s h.chan g a)
  | none => s

/-- The intervals of a channel that stopped before a full count are counted in its histogram (R263). -/
def accIntervals (s : State) (c before : Nat) : State :=
  let all := mget [] s.ivals c
  let mine := all.filter fun v => decide (v.stop / 1024 < before)
  let s := { s with ivals := mset [] s.ivals c (all.filter fun v => !decide (v.stop / 1024 < before)) }
  mine.foldl (fun s v =>
    let full := v.stop / 1024
    if s.statsOn c full && s.getFor F.chan_hist c full = 1 then
      match (s.gateList (s.profileOf c full)).find? fun g => g.covers full with
      | some g => editAcc s c (s.profileOf c full) g.s (countBin s c full g fun lo w => binOf lo w v.value)
      | none => s
    else s) s

/-- The gates of a channel's profile that are open at a boundary, begun before it. -/
def State.openGates (s : State) (pk full : Nat) : List Gate := (s.gateList pk).filter fun g => g.covers full && decide (g.s < full)

/-- Discards a channel's sums of the gates open at a boundary. -/
def discardOpen (s : State) (c pk full : Nat) : State :=
  let open1 := (s.openGates pk full).map fun g => g.s
  { s with accs := mset [] s.accs c (((s.accList c).filter fun a => !(a.prof = pk && open1.contains a.gate)).map fun a => { a with last := none }) }

/-- Marks a channel's gates open at a boundary, changing their sums by `f`. -/
def markOpen (s : State) (c pk full : Nat) (f : Acc → Acc) : State :=
  (s.openGates pk full).foldl (fun s g => editAcc s c pk g.s f) s

/-- LOST (R266). -/
def lostFlag : BitVec 16 := 0x0008#16

/-- PARTIAL (R266). -/
def Acc.partial1 (a : Acc) : Acc := { a with flags := a.flags ||| 0x0020#16 }

/-- What a channel's words that changed at a boundary do to its open gate (R269). -/
def statsChange (s : State) (c full : Nat) : State :=
  let was := s.wordFor 3 0 c (full - 1)
  let now := s.wordFor 3 0 c full
  let on := fun (w : Word) => bits w 63 61 = 3 || bits w 63 61 = 4
  let pkOf := fun (w : Word) => bits w 60 53 * 16 + bits w 46 43
  let s :=
    if on was && (!on now || pkOf was ≠ pkOf now) then discardOpen s c (pkOf was) full else s
  let s := if on was && on now && pkOf was = pkOf now && bits was 40 35 = bits now 40 35 then s
    else { s with accs := mset [] s.accs c ((s.accList c).map fun a => { a with last := none }) }
  let s :=
    if on now && (!on was || pkOf was ≠ pkOf now) then markOpen s c (pkOf now) full Acc.partial1
    else if on now && bits was 40 35 ≠ bits now 40 35 then
      markOpen s c (pkOf now) full fun a => { a.partial1 with bins := [], last := none }
    else s
  let fWas := s.wordFor 3 2 c (full - 1)
  let fNow := s.wordFor 3 2 c full
  if on now && bits fWas 63 39 ≠ bits fNow 63 39 then markOpen s c (pkOf now) full Acc.partial1 else s

/-- A channel's sums over a gate of a profile, empty where it has none. -/
def State.accOf (s : State) (c pk : Nat) (g : Gate) : Acc := ((s.accList c).find? fun a => a.isOf pk g.s).getD { Acc.start g.s none with prof := pk }

/-- Sums lost to an uncorrectable word (R266, R417): cleared with the histogram, with LOST and PARTIAL, until accumulation resumes. -/
def Acc.lost (resume : Nat) (a : Acc) : Acc := { Acc.start a.gate none with flags := a.flags ||| 0x0028#16, resume := resume, prof := a.prof }

/-- The gates of a channel that have begun and whose last caravan its tile has not closed. -/
def State.gatesOpen (s : State) (c : Nat) : List Gate :=
  (s.gateList (s.profileOf c s.full)).filter fun g => g.len ≠ 0 && decide (g.s ≤ s.full) && decide (s.k0 (chanTile c) * 4096 < g.stop)

/-- The sums of a channel's open gates are lost (R266, R417): accumulation resumes at the next caravan boundary. -/
def loseSums (s : State) (c : Nat) : State :=
  (s.gatesOpen c).foldl (fun s g => editAcc s c (s.profileOf c s.full) g.s (Acc.lost (nextBoundary s.full))) s

/-- The edges that the sums of a channel's open gates hold. -/
def State.sumEdges (s : State) (c : Nat) : Nat := sumOver (fun g => (s.accOf c (s.profileOf c s.full) g).n) (s.gatesOpen c)

/-! ### Results -/

/-- num and den of R256. -/
def gateNum (a : Acc) : Int := 12 * ((a.n : Int) * a.t2 - ((a.n * (a.n - 1) / 2 : Nat) : Int) * a.t1)
/-- The denominator of R256. -/
def gateDen (a : Acc) : Nat := a.n * a.n * (a.n * a.n - 1)
/-- The sums give a line (R256, R261). -/
def Acc.fits (a : Acc) : Bool := decide (2 ≤ a.n) && decide (gateNum a ≠ 0)

/-- The period P (R256). -/
def gateP (a : Acc) : Nat := if a.n < 2 then 0 else (roundHalfUp (gateNum a * 2 ^ 20) (gateDen a)).toNat % 2 ^ 64
/-- The fitted time A of R256 as a fraction of fine LSB. -/
def gateA (a : Acc) : Int × Nat := ((a.t1 : Int) * gateDen a - gateNum a * ((a.n * (a.n - 1) / 2 : Nat) : Int), a.n * gateDen a)
/-- The field A (R256). -/
def gateAField (a : Acc) : Nat := if a.n < 2 then 0 else ofSigned 64 (roundHalfUp ((gateA a).1 * 2 ^ 20) (gateA a).2)
/-- The frequency F (R256). -/
def gateF (a : Acc) : Nat :=
  if !a.fits then 0
  else min (2 ^ 64 - 1) (roundHalfUp (1638400000000 * 2 ^ 24 * (gateDen a : Int)) (gateNum a).toNat).toNat

/-- A fraction of a turn in 2^-32 (R259). -/
def turns (num : Int) (den : Nat) : Nat := (roundHalfUp ((num % (den : Int)) * 2 ^ 32) den).toNat % 2 ^ 32

/-- The phase of sums against the time base (R259). -/
def phaseBase (a : Acc) : Nat := turns (gateA a).1 (a.n * (gateNum a).toNat)
/-- The phase of sums against a reference's (R259). -/
def phaseRef (a r : Acc) : Nat :=
  let (x, dx) := gateA a
  let (y, dy) := gateA r
  turns ((x * dy - y * dx) * gateDen r) (dx * dy * (gateNum r).toNat)

/-- A caravan note in a gate's span. -/
def noteIn (m : SMap Nat) (g : Gate) (ok : Nat → Bool) : Bool :=
  m.any fun e => decide (g.s / 4096 ≤ e.1) && decide (e.1 ≤ (g.stop - 1) / 4096) && ok e.2

/-- The flags of a tile that concern each of its gates (R266, R267, R268). -/
def State.tileFlags (s : State) (tile : Nat) (g : Gate) : BitVec 16 :=
  let x := s.tile tile
  let closed := mget s.full x.closedAt ((g.stop - 1) / 4096)
  let gap := s.mappedGroups.any fun f => !s.host f && (s.group f).gaps.any fun t => decide (g.s ≤ t) && decide (t ≤ closed) && (s.groupTiles f t).contains tile
  let moved := x.lastRemap.filter fun e => decide (g.s < e.1) && decide (e.1 < g.stop)
  (if x.shed.any (fun e => decide (g.s / 4096 ≤ e.1) && decide (e.1 ≤ (g.stop - 1) / 4096) && Nat.testBit e.2 3 && (e.2 % 2 = 1 || x.levelIn e.1 2)) then 0x0800#16 else 0#16) |||
  (if noteIn x.late g (fun n => n ≠ 0) then 0x0400#16 else 0#16) |||
  (if gap then 0x0200#16 else 0#16) |||
  (if moved.isEmpty then 0#16 else 0x0010#16) |||
  (if moved.any (fun e => e.2) then 0x0008#16 else 0#16)

/-- The flags that mark a gate incomplete (R266). -/
def incomplete : BitVec 16 := 0x0FEC#16

/-- The reference of a channel's phase over a gate, if it is measured against one (R259, R269). -/
def State.refOf (s : State) (c : Nat) (g : Gate) : Option Nat :=
  if s.getFor F.chan_phase_mode c (g.stop - 1) = 2 then some (s.getFor F.chan_phase_ref c (g.stop - 1)) else none

/-- The words of a channel's STATS record for a gate of a profile (R261, R266, R271, R360). -/
def statsWords (s : State) (c pk : Nat) (g : Gate) : List Word :=
  let tile := chanTile c
  let a := s.accOf c pk g
  let fl := a.flags ||| s.tileFlags tile g
  let (phase, fl) := match s.refOf c g with
    | some r =>
      let b := s.accOf r pk g
      let fr := b.flags ||| s.tileFlags (chanTile r) g
      let fl := if fr &&& incomplete ≠ 0 then fl ||| 0x1000#16 else fl
      if a.fits && b.fits then (phaseRef a b, fl) else (0, fl ||| 0x0001#16)
    | none =>
      if !a.fits then (0, fl ||| 0x0001#16)
      else if s.getFor F.chan_phase_mode c (g.stop - 1) = 1 then (phaseBase a, fl) else (0, fl)
  [pack [(63, 60, 7), (59, 37, c), (36, 33, pk % 16), (32, 25, a.bins.length), (15, 0, fl.toNat)],
    pack [(63, 32, g.no), (31, 0, a.n)],
    BitVec.ofNat 64 a.t1,
    pack [(63, 48, a.t1 / 2 ^ 64), (47, 0, a.t2 / 2 ^ 64)],
    BitVec.ofNat 64 a.t2,
    BitVec.ofNat 64 (gateP a), BitVec.ofNat 64 (gateAField a), BitVec.ofNat 64 (gateF a),
    pack [(63, 32, phase)]] ++ a.bins.map fun e => pack [(38, 32, e.1), (31, 0, e.2)]

/-- The GATE_SUM record (R272, R360). -/
def gateSum (prof : Nat) (g : Gate) (count : Nat) : List Word :=
  [pack [(63, 60, 8), (59, 56, prof), (31, 0, g.no)], pack [(53, 0, g.s)], pack [(63, 32, g.len), (31, 0, count)]]

/-- The records of a gate that wait in a queue for their place (R273): the summary, then STATS records in channel order. A record is
given, or none for the summary alone. A disabled queue discards both and counts them, the summary where `head` says so (R332). -/
def placeGate (s : State) (q prof : Nat) (g : Gate) (head : Bool) (rec1 : Option (List Word)) : State :=
  let h := s.hq q
  let k := (g.stop - 1) / 4096
  let mine := fun (p : Placed) => p.order = 0 && p.caravan = k && p.a = prof && p.b = g.s
  let old := match h.place.find? mine with
    | some p => p.recs.drop 1
    | none => []
  let plain := fun (ws : List Word) => ({ words := ws, first := false, last := false, seg := none } : Rec)
  let chan := fun (r : Rec) => bits (r.words.headD 0#64) 59 37
  let recs := match rec1 with
    | some ws => insertBy (fun a b => decide (chan a ≤ chan b)) (plain ws) old
    | none => old
  let p : Placed := { caravan := k, order := 0, a := prof, b := g.s, recs := plain (gateSum prof g recs.length) :: recs }
  if s.queueEn q then s.setHq q { h with place := h.place.filter (fun p => !mine p) ++ [p] }
  else s.satInc F.qhb_rec_dropped q (b2n head + b2n rec1.isSome)

/-- The channels of a tile that a gate concerns: in mode 3 or 4 on the profile when it completes. -/
def State.gateChans (s : State) (tile pk : Nat) (g : Gate) : List Nat :=
  (s.tileChans tile).filter fun c => s.statsOn c (g.stop - 1) && s.profileOf c (g.stop - 1) = pk

/-- A channel is the lowest of those that a gate concerns and that name its host queue: the summary (R272) is counted with it. -/
def State.leads (s : State) (c pk : Nat) (g : Gate) : Bool :=
  let t := g.stop - 1
  !(s.listed 3 0).any fun d => decide (d < c) && s.statsOn d t && s.profileOf d t = pk && s.chanQueue d t = s.chanQueue c t && !s.tileGone (chanTile d) t

/-- The key of a tile's progress with a profile. -/
def doneKey (tile pk : Nat) : Nat := tile * 4096 + pk

/-- A tile has completed a gate. -/
def State.gateIsDone (s : State) (tile pk : Nat) (g : Gate) : Bool := decide (g.stop ≤ mget 0 s.gateDone (doneKey tile pk))

/-- The tiles that have channels on a profile. -/
def State.profileTiles (s : State) (pk : Nat) (g : Gate) : List Nat :=
  distinct ((s.listed 3 0).filter (fun c => s.statsOn c (g.stop - 1) && s.profileOf c (g.stop - 1) = pk && !s.tileGone (chanTile c) (g.stop - 1))
    |>.map chanTile)

/-- The gates of a profile that every tile has completed, but for the newest, are forgotten with the sums of their channels. -/
def pruneGates (s : State) (pk : Nat) : State :=
  let gs := s.gateList pk
  let keep := fun (g : Gate) => g.len = 0 || some g = gs.getLast? || (s.profileTiles pk g).any fun t => !s.gateIsDone t pk g
  let gone := (gs.filter fun g => !keep g).map fun g => g.s
  if gone.isEmpty then s
  else
    let t := s.setGates pk (gs.filter keep)
    { t with accs := mall [] s.accs fun xs =>
      if xs.any (fun a => a.prof = pk && gone.contains a.gate) then xs.filter (fun a => !(a.prof = pk && gone.contains a.gate)) else xs }

/-- The oldest gate of a profile that a tile has not completed and whose last caravan it has closed (R270). -/
def State.dueGate (s : State) (tile pk : Nat) : Option Gate :=
  (s.gateList pk).find? fun g => g.len ≠ 0 && !s.gateIsDone tile pk g && decide (g.stop ≤ s.k0 tile * 4096)

/-- A tile that has a phase reference of a gate has closed the gate's last caravan, or closes no more of them: it is retired, or its domain is off
(DESIGN CHOICE, log 25). -/
def State.refReady (s : State) (tile : Nat) (g : Gate) : Bool :=
  decide (g.stop ≤ s.k0 tile * 4096) || s.tileGone tile (g.stop - 1) || !s.domOn (tileDomain tile)

/-- A tile that completes a gate of a profile keeps the latest STATS record of the channels the gate concerns, and none of an earlier gate of the profile for
another channel (R274). -/
def dropLast (s : State) (tile pk : Nat) (chans : List Nat) : State :=
  let old := (s.statsFrom.filter fun e => chanTile e.1 = tile && e.2 = pk + 1 && !chans.contains e.1).map fun e => e.1
  { s with
    lastStats := s.lastStats.filter fun e => !old.contains e.1
    statsFrom := chans.foldl (fun m c => mset 0 m c (pk + 1)) (s.statsFrom.filter fun e => !old.contains e.1) }

/-- A gate completes at a tile for its channels `chans` (R256, R259, R261, R266 to R272, R274). -/
def completeGate (s : State) (tile pk : Nat) (g : Gate) (chans : List Nat) : State :=
  let s := chans.foldl (fun s c =>
    let q := s.chanQueue c (g.stop - 1)
    let head := s.leads c pk g
    if 1 ≤ (s.accOf c pk g).n then
      let ws := statsWords s c pk g
      let s := placeGate s q (pk % 16) g head (some ws)
      { s with lastStats := mset [] s.lastStats c ws }
    else
      let s := placeGate s q (pk % 16) g head none
      { s with lastStats := mset [] s.lastStats c [] }) s
  let s := dropLast s tile pk chans
  let s := chans.foldl (fun s c =>
    if (s.accList c).any (fun a => a.isOf pk g.stop) then editAcc s c pk g.stop (withCarry s c { g with s := g.stop })
    else { s with accs := mset [] s.accs c (s.accList c ++ [{ Acc.start g.stop (s.accOf c pk g).carry with prof := pk }]) }) s
  let s := { s with gateDone := mset 0 s.gateDone (doneKey tile pk) g.stop }
  gateSettle (pruneGates s pk) pk

/-- R236, R256, R259, R261, R266 to R272, R274: a gate completes at a tile. It waits for the tiles of its phase references. -/
def execGateComplete (tile partition profile : Nat) (s : State) : Res :=
  let pk := partition * 16 + profile
  match s.dueGate tile pk with
  | none => .next s
  | some g =>
    let chans := s.gateChans tile pk g
    let ready := chans.all fun c => match s.refOf c g with
      | some r => s.refReady (chanTile r) g
      | none => true
    .next (if ready then completeGate s tile pk g chans else s)

/-! ### STATS_READ -/

/-- The checks of a command that names a channel (R245, R434, R447, R508): range, access, retirement, domain. -/
def chanChecked (c : Cmd) (s : State) (ch word : Nat) (k : Result) : Result :=
  refuseIf (!validChan ch) stBadParam word <|
  refuseIf (c.part ≠ 0 && s.getLatest F.chan_part ch ≠ c.part) stNotOwner 0 <|
  refuseIf (s.chanGone ch s.full) stRetired 0 <|
  refuseIf (!s.domOn (tileDomain (chanTile ch))) stNoResource 0 k

/-- The open gate of a channel as of the latest caravan its tile has closed (R274). -/
def State.runningGate (s : State) (ch : Nat) : Option Gate :=
  let at1 := s.k0 (chanTile ch) * 4096
  ((s.gateList (s.profileOf ch s.full)).filter fun g => g.len ≠ 0 && decide (g.s ≤ at1) && decide (at1 < g.stop)).getLast?

/-- STATS_READ (R274): LAST or RUNNING. -/
def statsRead (running : Bool) (c : Cmd) (s : State) : Result :=
  checked c false 1 <|
    let ch := bits (c.par 0) 22 0
    refuseIf (stray (c.par 0) [(22, 0)] || !validChan ch) stBadParam 1 <|
    noMore c 1 <|
    chanChecked c s ch 1 <|
    refuseIf (!s.statsOn ch s.full) stBadParam 1 <|
    if running then
      match s.runningGate ch with
      | some g => .done s stOk 0 ((statsWords s ch (s.profileOf ch s.full) g).drop 1 |>.take 4)
      | none => .done s stOk 0 [pack [(63, 32, s.get F.gsta_gate_no (s.profileOf ch s.full))], 0#64, 0#64, 0#64]
    else
      match mget [] s.lastStats ch with
      | [] => .fail stNoResource 0 []
      | ws => .done s stOk 0 ws

/-- STATS_READ LAST. -/
def execStatsReadLast (c : Cmd) (s : State) : Res := .next (runCmd 0x49 c (statsRead false c) s)
/-- STATS_READ RUNNING. -/
def execStatsReadRunning (c : Cmd) (s : State) : Res := .next (runCmd 0x49 c (statsRead true c) s)

end Sys2Proof.Machine
end

