-- ==== Sys2Proof/Machine/Trigger.lean ====
section
/-! DEFINITION. The Stirrup (09_triggers.md): trigger definitions and candidates, segments and the Oasis (R281 to R293, R300 to R310).
A definition is partition × 8 + d here, partition × 16 + d in its words; times are in fine LSB. -/

namespace Sys2Proof.Machine

/-! ### Definitions -/

/-- A definition at reset. -/
def TDef.init : TDef := { wins := [], win := 0, last := none, misses := 0, outstanding := 0, cands := [] }
/-- A definition. -/
def State.tdef (s : State) (part d : Nat) : TDef := mget TDef.init s.defs (part * 8 + d)
/-- Changes a definition. -/
def State.setTdef (s : State) (part d : Nat) (x : TDef) : State := { s with defs := mset TDef.init s.defs (part * 8 + d) x }
/-- A definition at a core-die Stirrup, at reset. -/
def CoreDef.init : CoreDef := { found := [], lastFwd := none, complete := 0 }
/-- The key of a definition at a core die. -/
def coreKey (die part d : Nat) : Nat := die * 2048 + part * 8 + d
/-- A definition at a core die. -/
def State.coreDef (s : State) (die part d : Nat) : CoreDef := mget CoreDef.init s.coreDefs (coreKey die part d)
/-- Changes a definition at a core die. -/
def State.setCoreDef (s : State) (die part d : Nat) (x : CoreDef) : State :=
  { s with coreDefs := mset CoreDef.init s.coreDefs (coreKey die part d) x }

/-- A time lies in an armed window (R288). -/
def inWindow (time : Nat) (w : ArmWin) : Bool :=
  decide (w.start ≤ time) && match w.stop with
    | some e => decide (time < e)
    | none => true

/-- The armed window that holds a time. -/
def TDef.window (x : TDef) (time : Nat) : Option ArmWin := x.wins.find? (inWindow time)

/-- A window ends at a time, unless it ends earlier. -/
def ArmWin.endAt (w : ArmWin) (time : Nat) : ArmWin := { w with stop := some (min time (w.stop.getD time)) }

/-- The newest window ends at a time, unless it ends earlier. -/
def TDef.endAt (x : TDef) (time : Nat) : TDef :=
  match x.wins.reverse with
  | w :: rest => { x with wins := (w.endAt time :: rest).reverse }
  | [] => x

/-- The state of a definition follows its boundaries (R310). -/
def armSettle (s : State) (part d : Nat) : State :=
  let i := part * 16 + d
  match (s.tdef part d).wins.getLast? with
  | some w =>
    let s := if s.get F.trsa_tstate i = 1 && decide (w.start ≤ s.nowFine) then s.put F.trsa_tstate i 2 else s
    match w.stop with
    | some e => if s.get F.trsa_tstate i = 3 && decide (e ≤ s.nowFine) then
        ((s.put F.trsa_tstate i 0).put F.trsa_continuous i 0).put F.trsa_left i 0 else s
    | none => s
  | none => s

/-- The host queue of a definition at a time (R302). -/
def State.segQueue (s : State) (part d full : Nat) : Nat := part * 64 + s.getFor F.segd_queue (part * 16 + d) full

/-- Windows that ended more than 2^32 ticks ago are forgotten. -/
def freshWins (s : State) (ws : List ArmWin) : List ArmWin :=
  ws.filter fun w => match w.stop with
    | some e => decide (s.nowFine < e + 2 ^ 42)
    | none => true

/-- TRIG_ARM (R310). -/
def trigArmBody (c : Cmd) (s : State) : Result :=
  checked c false 1 <|
    let d := bits (c.par 0) 63 61
    let n := bits (c.par 0) 28 0
    let i := c.part * 16 + d
    let s := armSettle s c.part d
    let b := boundaryAfter s.full 8192
    refuseIf (stray (c.par 0) [(63, 61), (28, 0)]) stBadParam 1 <|
    noMore c 1 <|
    refuseIf (s.get F.trsa_tstate i ≠ 0) stBadParam 1 <|
    refuseIf (s.get F.segp_desc_quota (c.part * 16) = 0 || s.get F.segp_buf_quota (c.part * 16) = 0 || s.get F.segg_oasis_gib 0 = 0) stNoResource 0 <|
    let x := s.tdef c.part d
    let s := s.setTdef c.part d { x with wins := freshWins s x.wins ++ [{ start := b * 1024, stop := none, left := if n = 0 then none else some n }] }
    .done (((s.put F.trsa_tstate i 1).put F.trsa_continuous i (b2n (n = 0))).put F.trsa_left i n) stOk 0 [pack [(53, 0, b)]]

/-- TRIG_ARM. -/
def execTrigArm (c : Cmd) (s : State) : Res := .next (runCmd 0x40 c (trigArmBody c) s)

/-- R310: a definition becomes ARMED at its boundary. -/
def execArmBoundary (partition d : Nat) (s : State) : Res :=
  match (s.tdef partition d).wins.getLast? with
  | some w =>
    if s.get F.trsa_tstate (partition * 16 + d) = 1 then .next (armSettle (advanceFull s (w.start / 1024)) partition d) else .next s
  | none => .next s

/-- TRIG_DISARM (R310). -/
def trigDisarmBody (c : Cmd) (s : State) : Result :=
  checked c false 1 <|
    let d := bits (c.par 0) 63 61
    let i := c.part * 16 + d
    let s := armSettle s c.part d
    let b := boundaryAfter s.full 8192
    refuseIf (stray (c.par 0) [(63, 61)]) stBadParam 1 <|
    noMore c 1 <|
    let reply := [pack [(53, 0, b)]]
    if s.get F.trsa_tstate i = 1 || s.get F.trsa_tstate i = 2 then
      .done ((s.setTdef c.part d ((s.tdef c.part d).endAt (b * 1024))).put F.trsa_tstate i 3) stOk 0 reply
    else .done s stOk 0 reply

/-- TRIG_DISARM. -/
def execTrigDisarm (c : Cmd) (s : State) : Res := .next (runCmd 0x41 c (trigDisarmBody c) s)

/-- R310: a definition becomes DISARMED at its boundary. -/
def execDisarmBoundary (partition d : Nat) (s : State) : Res :=
  match (s.tdef partition d).wins.getLast? with
  | some w =>
    match w.stop with
    | some e => if s.get F.trsa_tstate (partition * 16 + d) = 3 then .next (armSettle (advanceFull s (e / 1024)) partition d) else .next s
    | none => .next s
  | none => .next s

/-! ### Candidates -/

/-- The order in which candidates are judged (R290); of equal ones the lower channel comes first (R289). -/
def Cand.before (a b : Cand) : Bool :=
  decide (a.time < b.time) || (a.time = b.time && (decide (a.source < b.source) || (a.source = b.source && decide (a.chan ≤ b.chan))))

/-- A candidate of a definition, if it lies in an armed window (R288). -/
def addCand (s : State) (part d : Nat) (x : Cand) : State :=
  let t := s.tdef part d
  if (t.window x.time).isSome then s.setTdef part d { t with cands := insertBy Cand.before x t.cands } else s

/-- The device time in fine LSB that a time word names, in the epoch nearest to the present. -/
def nearFine (s : State) (w : Nat) : Nat :=
  let d := (w + 2 ^ 64 - s.nowFine % 2 ^ 64) % 2 ^ 64
  if d < 2 ^ 63 then s.nowFine + d else s.nowFine + d - 2 ^ 64

/-- TRIG_FORCE (R283, R310). -/
def trigForceBody (c : Cmd) (s : State) : Result :=
  checked c false 2 <|
    let d := bits (c.par 0) 63 61
    let i := c.part * 16 + d
    let s := armSettle s c.part d
    let w := (c.par 1).toNat
    let t := if w = 0 then s.nowFine else nearFine s w
    refuseIf (stray (c.par 0) [(63, 61)]) stBadParam 1 <|
    noMore c 2 <|
    refuseIf (s.get F.trsa_tstate i ≠ 2 || !s.flag F.trig_force_src i) stBadParam 1 <|
    refuseIf (decide (t < s.nowFine)) stBadParam 2 <|
    .done (addCand s c.part d { time := t, source := 0, chan := 0, miss := false }) stOk 0 [devWord t]

/-- TRIG_FORCE. -/
def execTrigForce (c : Cmd) (s : State) : Res := .next (runCmd 0x42 c (trigForceBody c) s)

/-- A TRIG_IN pin is sampled at a level. -/
def sampleTin (s : State) (pin : Nat) (high : Bool) : State :=
  { s with tin := s.tin - b2n (Nat.testBit s.tin pin) * 2 ^ pin + b2n high * 2 ^ pin }

/-- An edge of a TRIG_IN pin, first sampled at a full count, is a candidate of every armed definition that it is a source of (R282, R288). -/
def tinCand (s : State) (pin full : Nat) : State :=
  let x : Cand := { time := full * 1024, source := 8 + pin, chan := 0, miss := false }
  s.defs.foldl (fun s e =>
    let i := e.1 / 8 * 16 + e.1 % 8
    if Nat.testBit (s.getFor F.trig_tin_mask i full) pin then addCand s (e.1 / 8) (e.1 % 8) x else s) s

/-- R282, R491: from tick `t` on, `held` samples of a TRIG_IN pin by the anchor die are at a level. It is an edge if it is a change to the level that
tin_pol selects and holds for tin_filter ticks after its first sample; a change to that level that does not hold leaves the pin as it was. An edge
of another pin first sampled while this one is judged keeps the tick of its own first sample. -/
def execTrigInEdge (pin t held : Nat) (high : Bool) (s : State) : Res :=
  if 8 ≤ pin then .next s
  else
    let n := s.getFor F.trigg_tin_filter 0 s.full
    let t1 := max t (s.tb.tick - n)
    let s := advanceTo s t1
    let full := s.full - (s.tb.tick - t1)
    if Nat.testBit s.tin pin = high || held = 0 then .next s
    else if Nat.testBit (s.getFor F.trigg_tin_pol 0 full) pin = high then .next (sampleTin s pin high)
    else
      let n := s.getFor F.trigg_tin_filter 0 full
      if held ≤ n then .next (advanceTo s (t1 + held - 1))
      else .next (tinCand (advanceTo (sampleTin s pin high) (t1 + n)) pin full)

/-- A channel has a condition, at a device time (R277, R285). -/
def State.hasCond (s : State) (c full : Nat) : Bool := s.getFor F.filt_cond c full ≠ 0 && s.modeAt c full ≠ 0

/-- A channel's condition feeds a definition, at a device time. -/
def State.feedsDef (s : State) (c part d full : Nat) : Bool :=
  s.hasCond c full && s.getFor F.chan_part c full = part && s.getFor F.filt_cond_trig c full = d

/-- A tile works: its domain is on and it is not in state 0b10. -/
def State.tileLive (s : State) (tile : Nat) : Bool := s.domOn (tileDomain tile) && !s.tileGone tile s.full

/-- The channels with a filter word of their own. -/
def State.condChans (s : State) : List Nat := ascending (s.listed 3 2)

/-- The tiles of a core die that hold a condition, for the caravan each is about to close (R289). -/
def State.condTiles (s : State) (die : Nat) : List Nat :=
  distinct ((s.condChans.filter fun c => c / 2 ^ 20 = die && s.tileLive (chanTile c) &&
    (s.hasCond c s.full || s.hasCond c (s.k0 (chanTile c) * 4096))).map chanTile)

/-- A channel's condition feeds a definition at some time from `a` through `b`: at `a`, at `b`, or at a change of its words between. -/
def State.everFeeds (s : State) (c part d a b : Nat) : Bool :=
  (a :: b :: ((s.changesOf 3 0 c ++ s.changesOf 3 2 c).map fun e => e.1).filter fun f => decide (a < f) && decide (f ≤ b)).any (s.feedsDef c part d)

/-- The core dies whose Stirrups must report for a definition (R290): those with a condition that feeds it, or with firings of one not
forwarded yet. -/
def State.feedDies (s : State) (part d : Nat) : List Nat :=
  [0, 1, 2, 3, 4].filter fun k => s.coreOn k && (!(s.coreDef k part d).found.isEmpty || s.condChans.any fun c =>
    c / 2 ^ 20 = k && s.tileLive (chanTile c) && s.everFeeds c part d (s.k0 (chanTile c) * 4096) s.full)

/-- How long a TRIG_IN edge of a definition at a full count may still be unknown, in ticks (R282). -/
def State.tinLag (s : State) (part d full : Nat) : Nat :=
  if s.getFor F.trig_tin_mask (part * 16 + d) full = 0 then 0 else s.getFor F.trigg_tin_filter 0 full

/-- The full count through which a core die has reported every condition candidate of a definition up to a full count (R289, R290): conditions
are no source of candidates with times at which cond_src is 0. -/
def State.reported (s : State) (k part d full : Nat) : Nat :=
  let i := part * 16 + d
  let c := (s.coreDef k part d).complete
  if s.dieEver k 6 1 i c full (fun w => bit w 55) then c else max c full

/-- The time before which every candidate of a definition is known. -/
def State.coverOf (s : State) (part d : Nat) : Nat :=
  (s.feedDies part d).foldl (fun m k => min m (s.reported k part d s.full * 1024)) ((s.full - s.tinLag part d s.full) * 1024)

/-- The time before which every candidate of a definition is judged. -/
def State.judgedTo (s : State) (part d : Nat) : Nat :=
  match (s.tdef part d).cands with
  | x :: _ => min x.time (s.coverOf part d)
  | [] => s.coverOf part d

/-- The re-arm time of a definition at a time, in fine LSB. -/
def State.rearm (s : State) (part d time : Nat) : Nat := s.getFor F.trig_rearm (part * 16 + d) (time / 1024) * 1024

/-- A candidate leaves its core die, or is missed there (R289). -/
def forwardOne (die part d : Nat) (s : State) (x : Cand) : State :=
  if ((s.tdef part d).window x.time).isNone then s
  else
    let k := s.coreDef die part d
    let near := match k.lastFwd with
      | some l => decide (x.time < l + s.rearm part d x.time)
      | none => false
    if near then addCand s part d { x with miss := true }
    else addCand (s.setCoreDef die part d { k with lastFwd := some x.time }) part d x

/-- The count through which the conditions of a core die are complete for a definition (R289): every tile with a condition, or with a
firing not forwarded yet, has closed the caravans before it. -/
def State.condDone (s : State) (die : Nat) (found : List Cand) : Option Nat :=
  match distinct (s.condTiles die ++ (found.map fun x => chanTile x.chan).filter s.tileLive) with
  | t :: ts => some (ts.foldl (fun m u => min m (s.k0 u)) (s.k0 t) * 4096)
  | [] => if found.isEmpty then none else some (s.full / 4096 * 4096)

/-- R289: a core-die Stirrup forwards the condition candidates of the caravans that every tile with a condition has closed, and
reports its conditions complete through them. -/
def execCandidateForward (die partition d : Nat) (s : State) : Res :=
  let k := s.coreDef die partition d
  match s.condDone die k.found with
  | none => .next s
  | some c =>
    if !s.coreOn die then .next s
    else
      let done := max k.complete c
      let now := sortBy Cand.before (k.found.filter fun x => decide (x.time < done * 1024))
      .next (crosses s 15 die fun s =>
        let s := s.setCoreDef die partition d { k with complete := done, found := k.found.filter fun x => !decide (x.time < done * 1024) }
        now.foldl (forwardOne die partition d) s)

/-- Something is placed in a host queue after a caravan (R304); for a disabled queue its records are discarded and counted (R332). -/
def place (s : State) (q : Nat) (p : Placed) : State :=
  if s.queueEn q then s.setHq q { s.hq q with place := (s.hq q).place ++ [p] }
  else s.satInc F.qhb_rec_dropped q p.recs.length

/-- A candidate is missed (R292, R293); the window began at `win`. -/
def missCand (s : State) (part d win : Nat) (x : Cand) (reason : Nat) : State :=
  let i := part * 16 + d
  let t := s.tdef part d
  let t := if t.win = win then t else { t with win := win, misses := 0 }
  let s := (s.wrapInc F.trsb_missed i 1).setTdef part d { t with misses := t.misses + 1 }
  if t.misses = 0 then
    let r := single [pack [(63, 60, 6), (59, 57, d), (56, 52, x.source), (51, 50, reason), (31, 0, s.get F.trsa_trig_no i)], devWord x.time]
    place s (s.segQueue part d (x.time / 1024)) { caravan := x.time / 1024 / 4096, order := 2, a := x.time, b := 2 ^ 20 + d, recs := [r] }
  else s

/-- The tiles that contribute to the segments of a definition, at a device time (R300). -/
def State.segTiles (s : State) (part d full : Nat) : List Nat :=
  ascending (distinct ((s.condChans.filter fun c => s.modeAt c full = 2 && s.getFor F.chan_part c full = part &&
    Nat.testBit (s.getFor F.filt_seg_mask c full) d && s.domOn (tileDomain (chanTile c)) && !s.tileGone (chanTile c) full).map chanTile))

/-- The lowest free descriptor, if the device and the partition have one left (R306). -/
def State.freeDesc (s : State) (part : Nat) : Option Nat :=
  let n := firstGap s.segs 0
  if n < 2 ^ 20 && decide (s.get F.sega_desc_used (part * 16) < s.get F.segp_desc_quota (part * 16)) then some n else none

/-- A segment. -/
def State.setSeg (s : State) (n : Nat) (g : Seg) : State := { s with segs := minsert s.segs n g }

/-- A window of a definition has taken one more trigger: it ends with the Cth (R288). -/
def ArmWin.take (w : ArmWin) (time : Nat) : ArmWin :=
  match w.left with
  | some n => if n ≤ 1 then { w.endAt time with left := some 0 } else { w with left := some (n - 1) }
  | none => w

/-- The status of a definition shows what its newest window has still to take, and DISARMED once that is nothing (R288, R310). -/
def showLeft (s : State) (part d : Nat) : State :=
  let i := part * 16 + d
  match (s.tdef part d).wins.getLast? with
  | some w =>
    match w.left with
    | some n =>
      if s.get F.trsa_tstate i = 0 then s
      else if n = 0 then (s.put F.trsa_left i 0).put F.trsa_tstate i 0
      else s.put F.trsa_left i n
    | none => s
  | none => s

/-- A candidate is taken (R288, R291, R292, R300, R306). -/
def takeCand (s : State) (part d : Nat) (x : Cand) (desc : Nat) : State :=
  let i := part * 16 + d
  let t := s.tdef part d
  let full := x.time / 1024
  let s := s.wrapInc F.trsa_trig_no i 1
  let tiles := s.segTiles part d full
  let w := s.wordFor 7 2 i full
  let cuts := (distinct (tiles.map fun u => u / 64)).foldl (fun m k =>
    let v := s.dieWord k 7 2 i full
    if bits v 63 40 = bits w 63 40 then m else minsert m k (bits v 63 52, bits v 51 40)) []
  let g : Seg := { part := part, d := d, trigNo := s.get F.trsa_trig_no i, time := x.time, source := x.source, misses := t.misses, pre := bits w 63 52, post := bits w 51 40, queue := part * 64 + bits w 39 34, hold := bit w 33, holdMs := bits w 32 17, cuts := cuts, tiles := tiles, built := false, flags := 0, eSeg := 0, missing := 0, hits := [], st := 0, need := [], left := [], toWrite := 0, deadline := none }
  let s := (s.setSeg desc g).wrapInc F.sega_desc_used (part * 16) 1
  let wins := t.wins.map fun (w : ArmWin) => if inWindow x.time w then w.take x.time else w
  let t := { t with last := some x.time, misses := 0, outstanding := t.outstanding + 1, wins := wins }
  showLeft (s.setTdef part d { t with cands := t.cands.filter fun y => (t.window y.time).isSome }) part d

/-- R290 to R293: the anchor Stirrup judges the first candidate of a definition, once every candidate before it is known. -/
def execCandidateJudge (partition d : Nat) (s : State) : Res :=
  let t := s.tdef partition d
  match t.cands with
  | [] => .next s
  | x :: rest =>
    let full := x.time / 1024
    let known := (s.feedDies partition d).all fun k => decide (x.time < s.reported k partition d (full + 1) * 1024)
    if !known || decide (s.full ≤ full + s.tinLag partition d full) then .next s
    else
      let s := s.setTdef partition d { t with cands := rest }
      match t.window x.time with
      | none => .next s
      | some w =>
        let win := w.start
        let near := match t.last with
          | some l => decide (x.time < l + s.rearm partition d x.time)
          | none => false
        if x.miss || near then .next (missCand s partition d win x 0)
        else if 256 ≤ t.outstanding then .next (missCand s partition d win x 1)
        else match s.freeDesc partition with
          | none => .next (missCand s partition d win x 2)
          | some n =>
            let t := s.tdef partition d
            let s := if t.win = win then s else s.setTdef partition d { t with win := win, misses := 0 }
            .next (takeCand s partition d x n)

/-! ### Segments -/

/-- The words of a hit's HIT or HIT_X record, its time relative to `base` in fine LSB (R360). -/
def hitWords (h : THit) (base : Nat) : List Word :=
  let x := h.merged || h.overRate || h.timeout
  let w := pack [(63, 60, if x then 4 else 1), (59, 37, h.chan), (36, 15, h.time - base), (14, 3, h.tot), (2, 0, h.flags)]
  if x then [w, pack [(63, 63, b2n h.merged), (62, 62, b2n h.overRate), (61, 61, b2n h.timeout), (47, 40, h.transitions)]] else [w]

/-- Hits in the order of time, then channel (R222). -/
def THit.le (a b : THit) : Bool := decide (a.time < b.time) || (a.time = b.time && decide (a.chan ≤ b.chan))

/-- The window of a segment at a tile, in fine LSB (R300, R301). -/
def Seg.cut (g : Seg) (tile : Nat) : Nat × Nat :=
  let (pre, post) := mget (g.pre, g.post) g.cuts (tile / 64)
  (g.time - pre * 1024, g.time + post * 1024)

/-- The base of a segment in ticks: the coarse count of t less pre (R300). -/
def Seg.base (g : Seg) : Nat := g.time / 1024 - g.pre

/-- A tile has closed the caravan that holds the end of a segment's window (R302). -/
def State.segClosed (s : State) (g : Seg) (tile : Nat) : Bool := decide ((g.cut tile).2 / 1024 / 4096 < s.k0 tile)

/-- The hits of a segment held in a tile's history (R300). -/
def State.piece (s : State) (g : Seg) (tile : Nat) : List THit :=
  let full := g.time / 1024
  let (a, b) := g.cut tile
  ((s.tile tile).ext ++ (s.tile tile).ring).filter fun h =>
    decide (max a g.eSeg ≤ h.time) && decide (h.time ≤ b) && s.modeAt h.chan full = 2 &&
      s.getFor F.chan_part h.chan full = g.part && Nat.testBit (s.getFor F.filt_seg_mask h.chan full) g.d

/-- The words of hits as records. -/
def hitsLen (hs : List THit) (base : Nat) : Nat := sumOver (fun h => (hitWords h base).length) hs

/-- A note of a tile lies in a caravan that overlaps a segment's window. -/
def noteOver (m : SMap Nat) (a b : Nat) (ok : Nat → Bool) : Bool :=
  m.any fun e => decide (a / 4194304 ≤ e.1) && decide (e.1 ≤ b / 4194304) && ok e.2

/-- The flags PARTIAL_PRE, REMAP, LATE and SHED of a segment (R303), as bits 5 to 2. -/
def State.segFlags (s : State) (g : Seg) : Nat :=
  let any1 := fun (f : Tile → Nat → Nat → Bool) => g.tiles.any fun u => f (s.tile u) (g.cut u).1 (g.cut u).2
  let remap := any1 fun x a b => x.lastRemap.any fun r => decide (a ≤ r.1 * 1024) && decide (r.1 * 1024 ≤ b)
  let late := any1 fun x a b => noteOver x.late a b fun n => n ≠ 0
  let shed := any1 fun x a b => noteOver x.shed a b fun n => Nat.testBit n 2
  32 * b2n (decide (g.time - g.pre * 1024 < g.eSeg)) + 16 * b2n remap + 8 * b2n late + 4 * b2n shed

/-- The SEG_HDR record of a segment (R303, R360): `held` sets HELD. -/
def segHeader (desc : Nat) (g : Seg) (held : Bool) : List Word :=
  [pack [(63, 60, 5), (59, 40, desc), (39, 37, g.d), (36, 32, g.source), (31, 0, g.trigNo)],
    devWord g.time,
    pack [(63, 58, g.flags + b2n held), (53, 0, g.base)],
    pack [(63, 37, g.hits.length), (36, 32, g.missing), (31, 0, min (2 ^ 32 - 1) g.misses)],
    if 32 ≤ g.flags then devWord g.eSeg else 0#64]

/-- The records of a segment as a unit (R329); `seg` names it for its delivery. -/
def segRecs (desc : Nat) (g : Seg) (held : Bool) (hits : List THit) (seg : Option Nat) : List Rec :=
  let n := hits.length
  let body := (hits.zip (upTo 1 n)).map fun e => ({ words := hitWords e.1 (g.base * 1024), first := false, last := e.2 = n, seg := seg } : Rec)
  { words := segHeader desc g held, first := true, last := n = 0, seg := seg } :: body

/-- Buffers of 4 KiB for a number of words (R306). -/
def bufsFor (words : Nat) : Nat := ceilDiv words 512

/-- The buffers in use by every partition. -/
def State.poolUsed (s : State) : Nat := sumOver (fun p => s.get F.segb_bufs_used (p * 16)) (upTo 0 256)

/-- The buffers that the pool and a partition's quota have left (R306); the Oasis has none without a powered stack. -/
def State.bufsFree (s : State) (part : Nat) : Nat :=
  if s.stacks = 0 then 0 else min (s.get F.segg_oasis_gib 0 * 2 ^ 18 - s.poolUsed) (s.get F.segp_buf_quota (part * 16) * 16 - s.get F.segb_bufs_used (part * 16))

/-- Adds to the buffers in use. -/
def useBufs (s : State) (part n : Nat) : State := s.put F.segb_bufs_used (part * 16) (s.get F.segb_bufs_used (part * 16) + n)
/-- Takes from the buffers in use. -/
def freeBufs (s : State) (part n : Nat) : State := s.put F.segb_bufs_used (part * 16) (s.get F.segb_bufs_used (part * 16) - n)

/-- The buffers a segment holds. -/
def Seg.bufs (g : Seg) : Nat := sumOver (fun e => bufsFor e.2) g.left

/-- A segment is no more: its descriptor and buffers are free (R308). -/
def freeSeg (s : State) (desc : Nat) (g : Seg) : State :=
  let s := freeBufs { s with segs := merase s.segs desc } g.part g.bufs
  s.put F.sega_desc_used (g.part * 16) (s.get F.sega_desc_used (g.part * 16) - 1)

/-- A segment has been delivered (R302, R305, R308). -/
def segDelivered (s : State) (desc : Nat) (g : Seg) : State :=
  let t := s.tdef g.part g.d
  let s := s.setTdef g.part g.d { t with outstanding := t.outstanding - 1 }
  if g.hold then
    let limit := if g.holdMs = 0 then none else some (s.tb.tick + g.holdMs * Config.milli)
    (s.setSeg desc { g with st := 2, deadline := limit }).wrapInc F.sega_held (g.part * 16) 1
  else freeSeg s desc g

/-- A record of a segment has been written into its queue's tail, or is not written at all (R302, R308, R330). -/
def segWritten (s : State) (r : Rec) : State :=
  match r.seg with
  | none => s
  | some n =>
    match mfind s.segs n with
    | none => s
    | some g =>
      if g.st ≠ 1 then s
      else
        let tile := chanTile (bits (r.words.headD 0#64) 59 37)
        let old := mget 0 g.left tile
        let now := if r.first then old else old - r.words.length
        let s := freeBufs s g.part (bufsFor old - bufsFor now)
        let g := { g with left := mset 0 g.left tile now, toWrite := g.toWrite - 1 }
        if g.toWrite = 0 then segDelivered s n g else s.setSeg n g

/-- A built segment is placed in its queue once no piece of it waits for buffers (R302, R304). -/
def segPlace (s : State) (desc : Nat) : State :=
  match mfind s.segs desc with
  | none => s
  | some g =>
    if !g.built || g.st ≠ 0 || s.pieces.any (fun p => p.desc = desc) then s
    else
      let recs := segRecs desc g g.hold (if g.hold then [] else g.hits) (some desc)
      let g := { g with st := 1, toWrite := recs.length }
      let s := place (s.setSeg desc g) g.queue { caravan := (g.time + g.post * 1024) / 1024 / 4096, order := 2, a := g.time, b := desc, recs := recs }
      if s.queueEn g.queue then s else recs.foldl segWritten s

/-- Buffers granted to a piece, each on the stack of its place in the Oasis, a free value (R15, R306, log 4). -/
def takeBufs (s : State) (desc part tile n : Nat) : State :=
  let on := (upTo s.freeCount n).map fun i => s.stackAt (Config.spillPlace (320 + i))
  let s := { useBufs s part n with freeCount := s.freeCount + n }
  match mfind s.segs desc with
  | some g => s.setSeg desc { g with bufOn := mset [] g.bufOn tile (mget [] g.bufOn tile ++ on) }
  | none => s

/-- A piece of a segment is dropped (R307): its hits and its buffers. -/
def Seg.dropPiece (g : Seg) (tile : Nat) : Seg :=
  { g with hits := g.hits.filter (fun h => chanTile h.chan ≠ tile), need := merase g.need tile, left := merase g.left tile, bufOn := merase g.bufOn tile, missing := Nat.lor g.missing (2 ^ (tile / 64)), flags := Nat.lor g.flags 2 }

/-- A piece asks for its buffers (R306, R307). -/
def askBufs (desc part : Nat) (s : State) (e : Nat × Nat) : State :=
  let need := bufsFor e.2
  let has := min need (s.bufsFree part)
  let s := takeBufs s desc part e.1 has
  if has = need then s
  else { s with pieces := s.pieces ++ [{ desc := desc, tile := e.1, has := has, lacks := need - has, since := s.tb.tick }] }

/-- R300 to R303, R306: every contributing tile has closed the caravan that holds t + post, and the pieces are read. A tile that has
lost its history to a domain switched off, or that is retired within the window, has no piece; its notes flag the segment all the same. -/
def execSegmentBuild (desc : Nat) (s : State) : Res :=
  match mfind s.segs desc with
  | none => .next s
  | some g =>
    let lost := g.tiles.filter fun u => !s.domOn (tileDomain u) || s.tileGone u ((g.cut u).2 / 1024)
    let tiles := g.tiles.filter fun u => !lost.contains u
    if g.built || g.st ≠ 0 || !(tiles.all fun u => s.segClosed g u) then .next s
    else
      let all := g.tiles
      let g := { g with tiles := tiles, eSeg := tiles.foldl (fun m u => max m (s.tile u).eh) 0 }
      let pieces := tiles.map fun u => (u, s.piece g u)
      let need := pieces.foldl (fun m e => mset 0 m e.1 (hitsLen e.2 (g.base * 1024))) []
      let missing := (distinct (lost.map fun u => u / 64)).foldl (fun m k => m + 2 ^ k) 0
      let flags := s.segFlags { g with tiles := all } + 2 * b2n (missing ≠ 0)
      let g := { g with built := true, need := need, left := need, missing := missing, flags := flags, hits := sortBy THit.le (pieces.flatMap fun e => e.2) }
      .next (segPlace (need.foldl (askBufs desc g.part) (s.setSeg desc g)) desc)

/-- R307: a piece that waits is granted a buffer, free in the pool and within its quota. -/
def execOasisBufferGrant (desc tile : Nat) (s : State) : Res :=
  match s.pieces.find? fun p => p.desc = desc && p.tile = tile, mfind s.segs desc with
  | some p, some g =>
    if s.bufsFree g.part = 0 then .next s
    else
      let s := takeBufs s desc g.part tile 1
      let others := s.pieces.filter fun q => !(q.desc = desc && q.tile = tile)
      if p.lacks = 1 then .next (segPlace { s with pieces := others } desc)
      else .next { s with pieces := others ++ [{ p with has := p.has + 1, lacks := p.lacks - 1, since := s.tb.tick }] }
  | _, _ => .next s

/-- R307: a piece still without a buffer 10 µs after it began to wait is dropped. -/
def execOasisWaitTimeout (desc tile : Nat) (s : State) : Res :=
  match s.pieces.find? fun p => p.desc = desc && p.tile = tile, mfind s.segs desc with
  | some p, some g =>
    let s := advanceTo s (p.since + 16000)
    let s := { s with pieces := s.pieces.filter fun q => !(q.desc = desc && q.tile = tile) }
    let s := (freeBufs s g.part p.has).satInc F.segb_oasis_empty (g.part * 16) 1
    .next (segPlace (s.setSeg desc (g.dropPiece tile)) desc)
  | _, _ => .next s

/-- A held segment is released (R305, R308). -/
def releaseSeg (s : State) (desc : Nat) : State :=
  match mfind s.segs desc with
  | none => s
  | some g =>
    let s := freeSeg s desc g
    s.put F.sega_held (g.part * 16) (s.get F.sega_held (g.part * 16) - 1)

/-- R305: a held segment's hold ends. -/
def execHoldTimeout (desc : Nat) (s : State) : Res :=
  match mfind s.segs desc with
  | some g =>
    match g.deadline with
    | some t => if g.st = 2 then .next (event (releaseSeg (advanceTo s t) desc) g.part 0x07 0 stOk desc []) else .next s
    | none => .next s
  | none => .next s

/-- The checks of SEG_READ and SEG_RELEASE: the owner, then that the segment is held (R305, R310, R508). -/
def segChecked (c : Cmd) (s : State) (desc : Nat) (k : Seg → Result) : Result :=
  match mfind s.segs desc with
  | none => .fail stBadParam 1 []
  | some g =>
    if c.part ≠ 0 && g.part ≠ c.part then .fail stNotOwner 0 []
    else if g.st ≠ 2 then .fail stBadParam 1 []
    else k g

/-- SEG_READ (R305). -/
def segReadBody (c : Cmd) (s : State) : Result :=
  checked c false 1 <|
    let n := bits (c.par 0) 19 0
    refuseIf (stray (c.par 0) [(19, 0)]) stBadParam 1 <|
    noMore c 1 <|
    segChecked c s n fun g =>
      .done (place s g.queue { caravan := (s.hq g.queue).nextK.getD s.tb.base, order := 2, a := g.time, b := n, recs := segRecs n g false g.hits none }) stOk 0 []

/-- SEG_READ. -/
def execSegRead (c : Cmd) (s : State) : Res := .next (runCmd 0x43 c (segReadBody c) s)

/-- SEG_RELEASE of one descriptor (R308). -/
def segReleaseBody (c : Cmd) (s : State) : Result :=
  checked c false 1 <|
    let n := bits (c.par 0) 19 0
    refuseIf (stray (c.par 0) [(19, 0)]) stBadParam 1 <|
    noMore c 1 <|
    segChecked c s n fun _ => .done (releaseSeg s n) stOk 1 []

/-- SEG_RELEASE of every held segment of the partition (R308). -/
def segReleaseAllBody (c : Cmd) (s : State) : Result :=
  checked c false 1 <|
    refuseIf (stray (c.par 0) [(63, 63), (19, 0)]) stBadParam 1 <|
    noMore c 1 <|
    let ns := (s.segs.filter fun e => e.2.part = c.part && e.2.st = 2).map fun e => e.1
    .done (ns.foldl releaseSeg s) stOk (min 32767 ns.length) []

/-- SEG_RELEASE, one descriptor. -/
def execSegRelease (c : Cmd) (s : State) : Res := .next (runCmd 0x44 c (segReleaseBody c) s)
/-- SEG_RELEASE, all of the partition. -/
def execSegReleaseAll (c : Cmd) (s : State) : Res := .next (runCmd 0x44 c (segReleaseAllBody c) s)

end Sys2Proof.Machine
end

