-- ==== Sys2Proof/Machine/Merge.lean ====
section
/-! DEFINITION. Closing caravans at tiles and at host queues, conditions, history, and tile-map changes (07_merge.md, 09_triggers.md,
11_host_records.md: R26, R27, R216 to R225, R229 to R232, R265, R269, R273, R278 to R280, R285 to R287, R295 to R299, R304, R361, R362). -/

namespace Sys2Proof.Machine

/-! ### Conditions -/

/-- A condition at the start of its history. -/
def CondX.init : CondX := { wait := [], last := none, fired := false }
/-- The condition of a channel. -/
def State.condx (s : State) (c : Nat) : CondX := mget CondX.init s.conds c
/-- Changes the condition of a channel. -/
def State.setCondx (s : State) (c : Nat) (x : CondX) : State := { s with conds := mset CondX.init s.conds c x }

/-- The unit of a condition profile word, in fine LSB (R311). -/
def profUnit (w : Word) : Nat :=
  match bits w 7 6 with
  | 0 => 8
  | 1 => 1024
  | _ => 1048576
/-- hi_f of a condition profile word (R285). -/
def profHi (w : Word) : Nat := bits w 35 8 * profUnit w

/-- The condition profile of a channel at a device time (R277). -/
def State.condIdx (s : State) (c full : Nat) : Nat := s.getFor F.chan_part c full * 16 + s.getFor F.filt_cond_prof c full

/-- The profile of a channel's condition for a candidate of time `time` (R285, R311): lo_f, hi_f, sense. -/
def State.condProf (s : State) (c full time : Nat) : Nat × Nat × Bool :=
  let w := s.dieWord (c / 2 ^ 20) 6 2 (s.condIdx c full) (time / 1024)
  (bits w 63 36 * profUnit w, profHi w, bit w 5)

/-- When a window of hi_f that begins at `time` ends. A profile gives the end where that end, a candidate's time, lies while the profile is in
force (R311); a window that a change of the profile leaves longer than its new hi_f ends at that change (log 27). `changes` are the ends of the
earlier profiles, the first one first, and `b` where the profile `w` or the first of them came into force. -/
def windowEnd : List (Nat × Word) → Word → Nat → Nat → Nat
  | [], w, b, time => max b (time + profHi w)
  | (e, v) :: rest, w, b, time =>
    if max b (time + profHi v) < e * 1024 then max b (time + profHi v) else windowEnd rest w (e * 1024) time

/-- When the window of a channel's condition that begins at `time` ends. -/
def State.condUntil (s : State) (c full time : Nat) : Nat :=
  let i := s.condIdx c full
  match s.copyOf (c / 2 ^ 20) 6 2 i, mfind s.cmd.prev (wkey 6 2 i) with
  | some x, _ => windowEnd x.changes.reverse x.word 0 time
  | none, some p => windowEnd p.changes.reverse (s.word 6 2 i) 0 time
  | none, none => windowEnd [] (s.word 6 2 i) 0 time

/-- A condition fires at a time (R277, R285, R289). `full` lies in the caravan that is closing. -/
def fire (s : State) (c full time : Nat) : State :=
  let s := s.satInc F.fist_cond_fired c 1
  let part := s.getFor F.chan_part c full
  let d := s.getFor F.filt_cond_trig c full
  if s.dieGet (c / 2 ^ 20) F.trig_cond_src (part * 16 + d) (time / 1024) = 1 then
    let k := s.coreDef (c / 2 ^ 20) part d
    s.setCoreDef (c / 2 ^ 20) part d { k with found := k.found ++ [{ time := time, source := 16 + c / 2 ^ 20, chan := c, miss := false }] }
  else s

/-- A hit at the low threshold, or the only one, of a channel with a condition (R285). -/
def condLow (s : State) (h : THit) : State :=
  let c := h.chan
  let full := h.time / 1024
  let x := s.condx c
  match s.getFor F.filt_cond c full with
  | 1 =>
    let w := if h.tot = 0xFFF then 32760 else 8 * h.tot
    let (lo, hi, sense) := s.condProf c full (h.time + w)
    let inside := h.tot ≠ 0xFFF && decide (lo ≤ w) && decide (w ≤ hi)
    if inside ≠ sense then fire s c full (h.time + w) else s
  | 3 =>
    let s := match x.last with
      | some p => if !x.fired && decide (s.condUntil c full p < h.time) then fire s c full (s.condUntil c full p) else s
      | none => s
    s.setCondx c { x with last := some h.time, fired := false }
  | 2 => s.setCondx c { x with wait := x.wait ++ [h.time] }
  | 4 => s.setCondx c { x with wait := x.wait ++ [h.time] }
  | _ => s

/-- A hit at the high threshold of a pair (R284, R285). -/
def condHigh (s : State) (h : THit) : State :=
  let full := h.time / 1024
  let c := h.chan - 1
  if h.chan % 2 = 0 || s.getFor F.chan_part c full ≠ s.getFor F.chan_part h.chan full || s.modeAt c full = 0 then s
  else
    let x := s.condx c
    match s.getFor F.filt_cond c full with
    | 2 => s.setCondx c { x with wait := x.wait.filter fun t => decide (s.condUntil c full t < h.time) }
    | 4 =>
      let (lo, hi, sense) := s.condProf c full h.time
      let hit := x.wait.filter fun t => decide (h.time ≤ t + hi)
      let rest := x.wait.filter fun t => !decide (h.time ≤ t + hi)
      let s := s.setCondx c { x with wait := rest }
      hit.foldl (fun s t => if (decide (lo ≤ h.time - t) && decide (h.time - t ≤ hi)) ≠ sense then fire s c full h.time else s) s
    | _ => s

/-- What a channel's condition still waits for is decided by the end of the caravan, `stop` in fine LSB (R286). -/
def condEnd (full stop : Nat) (s : State) (c : Nat) : State :=
  let x := s.condx c
  match s.getFor F.filt_cond c full with
  | 2 =>
    let late := x.wait.filter fun t => decide (s.condUntil c full t < stop)
    late.foldl (fun s t => fire s c full (s.condUntil c full t)) (s.setCondx c { x with wait := x.wait.filter fun t => !decide (s.condUntil c full t < stop) })
  | 4 =>
    let (_, hi, _) := s.condProf c full stop
    s.setCondx c { x with wait := x.wait.filter fun t => !decide (t + hi < stop) }
  | 3 =>
    match x.last with
    | some p => if !x.fired && decide (s.condUntil c full p < stop) then fire (s.setCondx c { x with fired := true }) c full (s.condUntil c full p) else s
    | none => s
  | _ => s

/-- A condition restarts at a boundary with no history (R287). -/
def condRestart (s : State) (c full : Nat) : State :=
  s.setCondx c (if s.getFor F.filt_cond c full = 3 && s.modeAt c full ≠ 0 then { CondX.init with last := some (full * 1024) } else CondX.init)

/-! ### History -/

/-- D_s of a tile (R296). -/
def State.segFrontier (s : State) (tile : Nat) : Nat :=
  let m := s.segs.foldl (fun m e => if !e.2.built && e.2.st = 0 && e.2.tiles.contains tile then min m e.2.time else m) s.nowFine
  s.defs.foldl (fun m e =>
    let part := e.1 / 8
    let d := e.1 % 8
    if (s.get F.trsa_tstate (part * 16 + d) ≠ 0 || !e.2.cands.isEmpty) && (s.segTiles part d s.full).contains tile then min m (s.judgedTo part d) else m) m

/-- P_max of a tile in fine LSB (R296). -/
def State.preMax (s : State) (tile full : Nat) : Nat :=
  let chans := (s.tileChans tile).filter fun c => s.modeAt c full = 2
  chans.foldl (fun m c => (upTo 0 8).foldl (fun m d =>
    if Nat.testBit (s.getFor F.filt_seg_mask c full) d then max m (s.getFor F.segd_pre (s.getFor F.chan_part c full * 16 + d) full * 1024) else m) m) 0

/-- E_h of a tile moves. -/
def putEh (s : State) (tile t : Nat) : State :=
  (s.setTile tile { s.tile tile with eh := t }).setWord 4 7 tile (devWord t)

/-- The time of a line's newest hit. -/
def newest (line : List THit) : Nat := line.foldl (fun m h => max m h.time) 0

/-- A line of history is dropped (R297, R298). -/
def dropLine (s : State) (tile : Nat) (line : List THit) (needed : Bool) : State :=
  let s := putEh s tile (max (s.tile tile).eh (newest line + 1))
  if needed then s.satInc F.thb_needed_drops tile 1 else s

/-- The extension drops its oldest lines until it fits (R297). -/
def trimExt : Nat → State → Nat → Nat → Nat → State
  | 0, s, _, _, _ => s
  | n + 1, s, tile, cap, floor =>
    let x := s.tile tile
    if x.ext.length ≤ cap then s
    else
      let line := x.ext.take 8
      trimExt n (dropLine (s.setTile tile { x with ext := x.ext.drop 8, extOn := x.extOn.drop 1 }) tile line (decide (floor ≤ newest line))) tile cap floor

/-- A line is written to a tile's Erg extension; 64 lines make a 4 KiB block (R15, R297). -/
def spillLine (s : State) (tile : Nat) (line : List THit) : State :=
  let x := s.tile tile
  s.setTile tile { x with ext := x.ext ++ line, extOn := x.extOn ++ [s.stackAt (Config.spillPlace tile + x.extAt / 64)], extAt := x.extAt + 1 }

/-- The ring spills or drops its oldest lines until it fits (R295 to R297). `busy` says that another Erg write of the core die waits. -/
def trimRing : Nat → State → Nat → Nat → Nat → Bool → State
  | 0, s, _, _, _, _ => s
  | n + 1, s, tile, cap, floor, busy =>
    let x := s.tile tile
    if x.ring.length ≤ 32768 then s
    else
      let line := x.ring.take 8
      let needed := decide (floor ≤ newest line)
      let s := s.setTile tile { x with ring := x.ring.drop 8 }
      let s :=
        if needed && cap ≠ 0 then
          if busy then (dropLine s tile line true).satInc F.thb_spill_skips tile 1
          else
            let s := spillLine s tile line
            trimExt ((s.tile tile).ext.length) s tile cap floor
        else dropLine s tile line needed
      trimRing n s tile cap floor busy

/-- The time from which a tile's history is needed, in fine LSB (R296). -/
def State.neededFrom (s : State) (tile full : Nat) : Nat := s.segFrontier tile - s.preMax tile full

/-- Hits are written into a tile's history ring (R295). -/
def writeRing (s : State) (tile full : Nat) (hs : List THit) (busy : Bool) : State :=
  let x := s.tile tile
  let s := s.setTile tile { x with ring := x.ring ++ hs }
  let cap := if s.stacks = 0 then 0 else s.getFor F.thc_erg_ext tile full * 131072
  trimRing (s.tile tile).ring.length s tile cap (s.neededFrom tile full) busy

/-! ### A tile closes a caravan -/

/-- A change of a word at a boundary (R407). -/
def State.changedAt (s : State) (obj sel idx full : Nat) : Option (Word × Word) :=
  match mfind s.cmd.prev (wkey obj sel idx) with
  | some p => (p.changes.find? fun e => e.1 = full).map fun e => (e.2, s.wordFor obj sel idx full)
  | none => none

/-- What words that changed at a caravan's start do at the tile, for one channel (R269, R280, R287). -/
def chanChange (full : Nat) (s : State) (c : Nat) : State :=
  let a := s.changedAt 3 0 c full
  let b := s.changedAt 3 2 c full
  if a.isNone && b.isNone then s
  else
    let s := statsChange s c full
    let s := match b with
      | some (o, w) => if bits o 38 23 ≠ bits w 38 23 then { s with decims := merase s.decims c } else s
      | none => s
    let mode : Bool := match a with
      | some (o, w) => bits o 63 61 ≠ bits w 63 61
      | none => false
    let cond : Bool := match b with
      | some (o, w) => bits o 22 16 ≠ bits w 22 16
      | none => false
    let s := if mode || cond then condRestart s c full else s
    if mode && c % 2 = 1 then condRestart s (c - 1) full else s

/-- After a remap by the fault collector the spare goes on with the old tile's sums and histograms of a channel where it can still read them, and with
its own alone where it cannot (R268); every gate whose sums are lost carries LOST, one that has ended and is not complete too (R266). Which of them those are is a
free value (log 4). -/
def sumsRead (s : State) (chans : List Nat) : State :=
  let s := { s with freeCount := s.freeCount + 1 }
  chans.foldl (fun s c =>
    if Config.readable (s.freeCount - 1) c then s
    else { s with accs := mset [] s.accs c ((s.accList c).map fun a =>
      { Acc.start a.gate none with flags := if a.n = 0 then a.flags else a.flags ||| lostFlag, prof := a.prof, resume := a.resume }) }) s

/-- A tile's history starts anew at a full count (R298, R299): the needed lines of the extension, and with `ring` those of the ring, are dropped and counted
(R312). -/
def clearHistory (s : State) (tile full : Nat) (ring : Bool) : State :=
  let x := s.tile tile
  let lines := fun (hs : List THit) => (upTo 0 (ceilDiv hs.length 8)).map fun i => (hs.drop (8 * i)).take 8
  let floor := s.neededFrom tile full
  let n := (lines x.ext ++ if ring then lines x.ring else []).countP fun l => decide (floor ≤ newest l)
  let s := s.setTile tile { x with ring := if ring then [] else x.ring, ext := [], extOn := [] }
  putEh (s.satInc F.thb_needed_drops tile n) tile (full * 1024)

/-- What happens at a tile at the boundary that starts a caravan (R267, R269, R280, R287, R298, R299). -/
def tileBoundary (s : State) (tile full : Nat) : State :=
  let chans := s.tileChans tile
  let s :=
    if (s.tile tile).lastRemap.any (fun e => e.1 = full) then
      let s := clearHistory s tile full true
      let s := if (s.tile tile).lastRemap.contains (full, true) then sumsRead s chans else s
      chans.foldl (fun s c => condRestart { s with accs := mset [] s.accs c ((s.accList c).map fun a => { a with last := none }) } c full) s
    else s
  let s := chans.foldl (chanChange full) s
  let holds := chans.any fun c => s.modeAt c full = 2
  let ext : Bool := match s.changedAt 4 6 tile full with
    | some (o, w) => bits o 63 56 ≠ bits w 63 56
    | none => false
  let s := if (holds && !(s.tile tile).holds) || ext then clearHistory s tile full false else s
  s.setTile tile { s.tile tile with holds := holds }

/-- A hit record leaves a tile for its host queue's caravan (R223); for a disabled queue it is discarded and counted (R332). -/
def toQueue (s : State) (k : Nat) (h : THit) : State :=
  let q := s.chanQueue h.chan (h.time / 1024)
  if s.queueEn q then
    s.setHq q { s.hq q with hits := (s.hq q).hits ++ [{ caravan := k, time := h.time, chan := h.chan, words := hitWords h (k * 4194304) }] }
  else s.satInc F.qhb_rec_dropped q 1

/-- A channel's caravan records are decimated (R280): true when this hit has one. -/
def decimate (s : State) (c full : Nat) : State × Bool :=
  let n := s.getFor F.filt_decim c full
  if n < 2 then (s, true)
  else
    let i := mget 0 s.decims c
    ({ s with decims := mset 0 s.decims c ((i + 1) % n) }, i = 0)

/-- A binned hit goes on to its filters, its channel's mode and its condition (R85, R242, R243, R278 to R280, R285, R295). -/
def binnedHit (k : Nat) (s : State) (h : THit) : State :=
  let c := h.chan
  let full := h.time / 1024
  let mode := s.modeAt c full
  if mode = 0 then s
  else if h.overRate || h.timeout then
    let s := if h.overRate then flagGates s c full 256 0x0080#16 else s
    if (mode = 1 || mode = 4) && s.getFor F.filt_mask c full = 0 then toQueue s k h else s
  else if s.getFor F.filt_mask c full = 1 then s.satInc F.fist_filtered c 1
  else
    let s := condHigh (condLow s h) h
    if h.tot < s.getFor F.filt_tot_min c full || s.getFor F.filt_tot_max c full < h.tot then s.satInc F.fist_filtered c 1
    else
      let s := if mode = 3 || mode = 4 then accumulate s h else s
      if mode = 1 || mode = 4 then
        let (s, keep) := decimate s c full
        if keep then toQueue s k h else s
      else s

/-- The binned hits that a tile's history takes (R278, R279, R295). -/
def State.ringHits (s : State) (hs : List THit) : List THit :=
  hs.filter fun h =>
    let full := h.time / 1024
    !h.overRate && !h.timeout && s.modeAt h.chan full = 2 && s.getFor F.filt_mask h.chan full = 0 &&
      decide (s.getFor F.filt_tot_min h.chan full ≤ h.tot) && decide (h.tot ≤ s.getFor F.filt_tot_max h.chan full)

/-- The host queues that a tile's channels name for a device time (R225). -/
def State.tileQueues (s : State) (tile full : Nat) : List Nat :=
  distinct (((s.tileChans tile).filter fun c => s.modeAt c full ≠ 0).map fun c => s.chanQueue c full)

/-- The consecutive caravans of a list from `k` on, upward or downward. -/
def runFrom (up : Bool) : Nat → List Nat → Nat → Nat
  | 0, _, _ => 0
  | n + 1, ks, k => if ks.contains k then 1 + (if up then runFrom up n ks (k + 1) else if k = 0 then 0 else runFrom up n ks (k - 1)) else 0

/-- The run of consecutive caravans of a list that holds `k`, itself in the list. -/
def runAt (ks : List Nat) (k : Nat) : Nat := runFrom true 256 ks k + runFrom false 256 ks k - 1

/-- A group was late for a caravan (R217, R221): counted once for a caravan, and stale after stale_run in a row, in whatever order tiles close them; a run
begins anew after the group was stale. -/
def lateGroup (k : Nat) (s : State) (g : Nat) : State :=
  let x := s.group g
  if x.lates.contains k then s
  else
    let lates := (k :: x.lates).take 256
    let s := (s.setGroup g { x with lates := lates }).satInc F.gmrg_late_caravans g 1
    let run := lates.filter fun n => decide (x.staleTo.getD 0 ≤ n)
    if run.contains k && decide (s.get F.gmrg_stale_run g ≤ runAt run k) then showWaited ((s.put F.gmrg_stale g 1).setGroup g { s.group g with staleTo := none }) g else s

/-- A tile's oldest caravan closes (R221 to R223, R236, R266, R286): the groups that are late, whether any feeder is, whether a remap
closes it, and whether another Erg write of the core die waits. -/
def closeOne (s : State) (tile : Nat) (late : List Nat) (anyLate remap busy : Bool) : State :=
  let k := s.k0 tile
  let full := k * 4096
  let s := tileBoundary s tile full
  let x := s.tile tile
  let mine := sortBy THit.le (x.hits.filter fun h => decide (h.time / 1024 / 4096 ≤ k))
  let shed3 := (Nat.testBit (mget 0 x.shed k) 1 || x.levelIn k 3) && Nat.testBit (mget 0 x.shed k) 3
  let ends := s.gates.any fun e => e.2.any fun g => g.len ≠ 0 && (g.stop - 1) / 4096 = k
  let keep := fun (m : SMap Nat) => m.filter fun e => decide (k < e.1 + 600000)
  let s := s.setTile tile { x with
    hits := x.hits.filter fun h => !decide (h.time / 1024 / 4096 ≤ k)
    k0 := x.k0 + 1
    late := if anyLate then mset 0 (keep x.late) k 1 else keep x.late
    shed := keep x.shed
    closedAt := if ends then mset 0 (keep x.closedAt) k s.full else keep x.closedAt }
  let s := mine.foldl (binnedHit k) s
  let s := (s.tileChans tile).foldl (fun s c => accIntervals s c (full + 4096)) s
  let s := ((s.conds.map fun e => e.1).filter fun c => chanTile c = tile).foldl (condEnd full ((full + 4096) * 1024)) s
  let s := writeRing s tile full (s.ringHits mine) busy
  let s := if anyLate then s.satInc F.tmd_late_closes tile 1 else s
  let s := late.foldl (lateGroup k) s
  if late.isEmpty && !remap && !shed3 then s
  else
    (s.tileQueues tile full).foldl (fun s q =>
      let h := s.hq q
      let old := mget { late := [], remap := false, shed := false } h.closes k
      let now : QClose := { late := ascending (distinct (old.late ++ late)), remap := old.remap || remap, shed := old.shed || shed3 }
      if s.queueEn q then s.setHq q { h with closes := minsert h.closes k now } else s) s

/-- The group feeders that a tile waits for, for a caravan (R216, R217). -/
def State.waitedFor (s : State) (tile k : Nat) : List Nat :=
  (s.feeders tile (k * 4096)).filter fun g => s.getFor F.gmrg_wait_en g (k * 4096) = 1 && s.covering g k

/-- A tile can close its oldest caravan: it works, and the caravan lies before the boundary at which it lost its last physical tile. -/
def State.canClose (s : State) (tile : Nat) : Bool :=
  s.domOn (tileDomain tile) && match (s.tile tile).dead with
    | some b => decide (s.k0 tile * 4096 < b)
    | none => true

/-- R220 to R222, R236, R286, R295: a tile closes its oldest caravan once every waited-for feeder has covered it or the close timeout
has passed at its frontier. `ergBusy` says that another Erg write of the core die waits. -/
def execCaravanClose (tile : Nat) (ergBusy : Bool) (s : State) : Res :=
  if 320 ≤ tile || !s.canClose tile then .next s
  else
    let k := s.k0 tile
    let stop := (k + 1) * 4194304
    let x := s.tile tile
    let covers := fun (f : Nat) => decide (stop ≤ mget 0 x.marks f + 1)
    let late := (s.waitedFor tile k).filter fun g => !covers g
    let anchor := s.anchorFeeds tile (k * 4096) && !covers 1024
    if late.isEmpty && !anchor && decide (stop ≤ x.frontier + 1) then .next (closeOne s tile [] false false ergBusy)
    else if stop + s.getFor F.tmc_close_timeout tile (k * 4096) * 1638400 ≤ x.frontier then
      .next (closeOne s tile (ascending late) (!late.isEmpty || anchor) false ergBusy)
    else .next s

/-! ### A host queue closes a caravan -/

/-- The tiles that hold a channel, in a mode other than off, that names a host queue (R225). -/
def State.chanTiles (s : State) (q full : Nat) : List Nat :=
  distinct (((s.listed 3 0).filter fun c => s.modeAt c full ≠ 0 && s.chanQueue c full = q && s.domOn (tileDomain (chanTile c)) &&
    !s.tileGone (chanTile c) full).map chanTile)

/-- The definitions not DISARMED whose segments go to a host queue (R225). -/
def State.queueDefs (s : State) (q full : Nat) : List Nat :=
  (s.defs.map fun e => e.1).filter fun e => s.get F.trsa_tstate (e / 8 * 16 + e % 8) ≠ 0 && s.segQueue (e / 8) (e % 8) full = q

/-- The tiles that contribute to a host queue's caravan (R225). -/
def State.queueTiles (s : State) (q full : Nat) : List Nat :=
  distinct (s.chanTiles q full ++ (s.queueDefs q full).flatMap fun e => s.segTiles (e / 8) (e % 8) full)

/-- A gate that ends before a full count, of a profile of a host queue's partition, still has a tile that has not completed it for
the queue (R273). -/
def State.gatesWait (s : State) (q full : Nat) : Bool :=
  s.gates.any fun e => e.1 / 16 = q / 64 && e.2.any fun g => g.len ≠ 0 && decide (g.stop ≤ full) &&
    (s.profileTiles e.1 g).any fun t => s.domOn (tileDomain t) && !s.gateIsDone t e.1 g &&
      (s.gateChans t e.1 g).any fun c => s.chanQueue c (g.stop - 1) = q

/-- A segment of a host queue whose place lies before a caravan is not in place yet (R304). -/
def State.segsWait (s : State) (q k : Nat) : Bool :=
  s.segs.any fun e => e.2.queue = q && e.2.st = 0 && decide ((e.2.time / 1024 + e.2.post) / 4096 < k)

/-- A candidate with a time before a full count is not judged yet, of a definition whose segments go to a host queue at that time (R304). -/
def State.candsWait (s : State) (q full : Nat) : Bool :=
  s.defs.any fun e =>
    let part := e.1 / 8
    part = q / 64 && e.2.wins.any fun w =>
      let from1 := max w.start (s.judgedTo part (e.1 % 8))
      let to1 := min (full * 1024) (w.stop.getD (full * 1024))
      decide (from1 < to1) && s.everWord 7 2 (part * 16 + e.1 % 8) (from1 / 1024) ((to1 - 1) / 1024) fun v => bits v 39 34 = q % 64

/-- The order of what is placed at one point: gates by profile and number, then segments and misses by time (R273, R304). -/
def Placed.before (a b : Placed) : Bool :=
  let key := fun (p : Placed) => [p.caravan, min p.order 1, p.a, p.b]
  decide ((List.lex (key a) (key b) (fun x y => decide (x < y))) = true ∨ key a = key b)

/-- The records of a unit that is placed, its ends marked (R329). -/
def Placed.unit (p : Placed) : List Rec :=
  if p.order = 0 then
    let n := p.recs.length
    (p.recs.zip (upTo 1 n)).map fun e => { e.1 with first := e.2 = 1, last := e.2 = n }
  else p.recs

/-- What waits for a place before a caravan is put there (R273, R304); before the first caravan of a new epoch its EPOCH record follows (R60). -/
def emitPlaced (s : State) (q k : Nat) : State :=
  let h := s.hq q
  let due := sortBy Placed.before (h.place.filter fun p => decide (p.caravan < k))
  let h := { h with place := h.place.filter (fun p => !decide (p.caravan < k)), incoming := h.incoming ++ due.flatMap Placed.unit }
  s.setHq q (if s.tb.epoch.toNat ≤ k / 2 ^ 42 then h.take [] else h)

/-- The words of a CARAVAN_CLOSE before its counts and CRC are known (R360). -/
def closeWords (seq : Nat) (c : QClose) : List Word :=
  let n := c.late.length
  let entry := fun (i : Nat) => match c.late[i]? with
    | some l => 0x8000 + l
    | none => 0
  [pack [(63, 60, 3), (59, 28, seq), (27, 17, n), (16, 16, b2n c.remap), (15, 15, b2n c.shed)], 0#64] ++
    ((upTo 0 (ceilDiv n 4)).map fun i => pack [(63, 48, entry (4 * i)), (47, 32, entry (4 * i + 1)), (31, 16, entry (4 * i + 2)), (15, 0, entry (4 * i + 3))]) ++ [0#64]

/-- A host queue carries a caravan (R361). -/
def State.carries (s : State) (q full : Nat) : Bool :=
  (s.listed 3 0).any fun c => (s.modeAt c full = 1 || s.modeAt c full = 4) && s.chanQueue c full = q

/-- The spans of caravans from `a` to before `b` that a host queue carries (R361): first and count. What it carries changes only with a channel word. -/
def State.carrySpans (s : State) (q a b : Nat) : List (Nat × Nat) :=
  let at1 := ((s.listed 3 0).flatMap fun c => (s.changesOf 3 0 c).map fun e => e.1 / 4096).filter fun k => decide (a < k) && decide (k < b)
  let ks := ascending (distinct (a :: at1))
  ((ks.zip (ks.drop 1 ++ [b])).filter fun e => decide (e.1 < e.2) && s.carries q (e.1 * 4096)).map fun e => (e.1, e.2 - e.1)

/-- The caravans from the next one to before `b` pass a host queue unwritten: those it carries advance its sequence number (R361). -/
def seqEnable (s : State) (q b : Nat) : State :=
  let h := s.hq q
  let a := h.nextK.getD s.tb.base
  if b ≤ a then s
  else s.setHq q { h with seq := h.seq + BitVec.ofNat 32 (sumOver (fun e => e.2) (s.carrySpans q a b)), nextK := some b }

/-- The same for a host queue that is disabled. -/
def seqPass (s : State) (b q : Nat) : State := if s.queueEn q then s else seqEnable s q b

/-- The host queues that a channel has named. -/
def State.namedQueues (s : State) : List Nat :=
  distinct ((s.listed 3 0).flatMap fun c =>
    (s.word 3 0 c :: (s.changesOf 3 0 c).map fun e => e.2).map fun w => bits w 60 53 * 64 + bits w 52 47)

/-- A host queue's caravan leaves for its tail, or is skipped (R222, R223, R225, R361, R362). -/
def emitCaravan (s : State) (q k : Nat) : State :=
  let h := s.hq q
  let mine := sortBy (fun (a b : QHit) => decide (a.time < b.time) || (a.time = b.time && decide (a.chan ≤ b.chan))) (h.hits.filter fun x => decide (x.caravan ≤ k))
  let cl := mget { late := [], remap := false, shed := false } h.closes k
  let h := { h with hits := h.hits.filter (fun x => !decide (x.caravan ≤ k)), closes := h.closes.filter (fun e => decide (k < e.1)), nextK := some (k + 1) }
  if !s.carries q (k * 4096) && mine.isEmpty then s.setHq q { h with carried := false, skip := 0 }
  else
    let empty := mine.isEmpty && cl.late.isEmpty && !cl.remap && !cl.shed
    let restart := !h.carried
    if empty && !restart && h.skip ≠ 255 then s.setHq q { h with seq := h.seq + 1, skip := h.skip + 1 }
    else
      let plain := fun (ws : List Word) => ({ words := ws, first := false, last := false, seg := none } : Rec)
      let first : Rec := { (plain [pack [(63, 60, 2), (53, 0, k * 4096)], pack [(63, 32, h.seq.toNat), (31, 24, if restart then 0 else h.skip), (23, 23, b2n restart), (15, 0, k * 4096 / 2 ^ 54)]]) with first := true }
      let last : Rec := { (plain (closeWords h.seq.toNat cl)) with last := true }
      s.setHq q { h with seq := h.seq + 1, skip := 0, carried := true, incoming := h.incoming ++ [first] ++ (mine.map fun x => plain x.words) ++ [last] }

/-- R223 to R225, R273, R304, R361, R362: an enabled host queue puts what belongs before its next caravan in place, and closes that
caravan when every contributing tile has. -/
def execHostCaravanClose (queue : Nat) (s : State) : Res :=
  let q := queue
  if !s.queueEn q then .next s
  else
    let k := (s.hq q).nextK.getD s.tb.base
    let full := k * 4096
    if s.gatesWait q full || s.segsWait q k || s.candsWait q full then .next s
    else
      let s := emitPlaced s q k
      let tiles := s.queueTiles q full
      let ready := if tiles.isEmpty then decide (full + 4096 ≤ s.full) else tiles.all fun t => decide (k < s.k0 t)
      if ready then .next (emitCaravan s q k) else .next s

/-! ### Tile-map changes -/

/-- The tiles of a logical tile's cluster. -/
def clusterOf (tile : Nat) : List Nat := upTo (tile / 16 * 16) 16

/-- A tile-map change is in progress in a logical tile's cluster (R229). -/
def State.remapping (s : State) (tile : Nat) : Bool := (clusterOf tile).any fun t => (s.tile t).remap.isSome

/-- The cluster's spare serves, or has been retired (R27). -/
def State.spareUsed (s : State) (tile : Nat) : Bool :=
  (clusterOf tile).any (fun t => s.get F.tileMap_state t = 1) ||
    s.flag F.fsa_retired (physSource (tile / 64) (tile % 64 / 16) 16)

/-- The map a logical tile takes when its physical tile is retired: state and physical tile (R24, R27). -/
def State.nextMap (s : State) (tile : Nat) : Nat × Nat := if s.spareUsed tile then (2, 0x1F) else (1, 16)

/-- The physical tile that serves a logical tile is retired, and the retirement waits to be recorded (R435). -/
def retirePhys (s : State) (tile : Nat) : State :=
  let src := s.tileSource tile s.full
  recordRetirement (s.put F.fsa_retired src 1) src 0 0

/-- TILE_RETIRE (R27, R229 to R231). -/
def tileRetireBody (c : Cmd) (s : State) : Result :=
  checked c true 1 <|
    let die := bits (c.par 0) 8 6
    let t := die * 64 + bits (c.par 0) 5 0
    refuseIf (stray (c.par 0) [(8, 0)] || decide (5 ≤ die)) stBadParam 1 <|
    noMore c 1 <|
    refuseIf (s.tileGone t s.full) stRetired 0 <|
    refuseIf (!s.domOn (tileDomain t)) stNoResource 0 <|
    refuseIf (s.remapping t) stNoResource 0 <|
    let m := s.nextMap t
    .later (retirePhys (s.setTile t { s.tile t with remap := some { cmd := some c, full := none, fault := false, state := m.1, phys := m.2 } }) t)

/-- TILE_RETIRE. -/
def execTileRetire (c : Cmd) (s : State) : Res := .next (runCmd 0x61 c (tileRetireBody c) s)

/-- Closes a tile's caravans up to a full count at once, as a remap (R232). -/
def closeUpTo : Nat → State → Nat → Nat → State
  | 0, s, _, _ => s
  | n + 1, s, tile, full =>
    if s.k0 tile * 4096 < full then closeUpTo n (closeOne s tile [] false true false) tile full else s

/-- R26, R230, R232: the spare holds the live configuration and the tile-map change is accepted, with the next caravan boundary as B. -/
def execTileRemapAccept (tile : Nat) (s : State) : Res :=
  match (s.tile tile).remap with
  | some r =>
    if r.full.isSome then .next s
    else
      let b := nextBoundary s.full
      let s := (s.setTile tile { s.tile tile with remap := some { r with full := some b, cmd := none } }).put F.tmd_remap_pending tile 1
      let s := if r.fault then closeUpTo (b / 4096 - s.k0 tile) s tile b else s
      match r.cmd with
      | some c => .next (finish s c 0x61 stOk 0 [pack [(53, 0, b)]])
      | none => .next s
  | none => .next s

/-- R25 to R27, R231, R299: a tile-map change reaches its boundary B. -/
def execTileRemapBoundary (tile : Nat) (s : State) : Res :=
  match (s.tile tile).remap with
  | some r =>
    match r.full with
    | none => .next s
    | some b =>
      let s := advanceFull s b
      let old := s.word 4 0 tile
      let w := setBits (setBits old 15 14 r.state) 13 9 r.phys
      let s := (s.setWord 4 0 tile w).put F.tmd_remap_pending tile 0
      let older := ((mfind s.cmd.prev (wkey 4 0 tile)).map fun p => p.changes).getD []
      let s := { s with cmd := { s.cmd with prev := minsert s.cmd.prev (wkey 4 0 tile) { old := old, full := b, cinch := none, older := older } } }
      let x := s.tile tile
      .next (s.setTile tile { x with remap := none, lastRemap := (x.lastRemap ++ [(b, r.fault)]).drop (x.lastRemap.length - 15), dead := if r.state = 2 then some b else x.dead })
  | none => .next s

/-- What a retired physical tile holds of its open caravans and can no longer be read is lost and counted (R232), and the gates that cover it carry LOST (R266). Which hits those are is a free
value (log 4). -/
def unreadable (s : State) (tile : Nat) : State :=
  let x := s.tile tile
  let kept := (x.hits.zipIdx.filter fun e => Config.readable s.freeCount e.2).map fun e => e.1
  let lost := (x.hits.zipIdx.filter fun e => !Config.readable s.freeCount e.2).map fun e => e.1
  let s := (s.setTile tile { x with hits := kept }).satInc F.tmcs_remap_lost tile lost.length
  let s := { s with freeCount := s.freeCount + 1 }
  lost.foldl (fun s h => flagGate s h.chan (h.time / 1024) lostFlag) s

/-- The frames of a group that are caught in a tile are rewound (R213, R232); where the oldest of them has had its rewinds and is discarded (R214), the next
one follows. -/
def rewindCaught : Nat → State → Nat → Nat → State
  | 0, s, _, _ => s
  | n + 1, s, g, tile =>
    match (s.ing g).frames.findIdx? (fun f => f.stage = 1 && f.all.contains tile) with
    | some i => rewindCaught n (rewind s g i) g tile
    | none => s

/-- The fault collector's change of a tile's map begins (R232): the old physical tile takes no more hits and closes its open caravans
with what can still be read, and the provisional frames caught in it are converted again. -/
def faultRemap (s : State) (tile : Nat) : State :=
  let m := s.nextMap tile
  let s := unreadable s tile
  let x := s.tile tile
  let open1 := x.hits.foldl (fun m h => max m (h.time / 1024 / 4096 + 1)) (s.full / 4096 + 1)
  let s := s.setTile tile { x with remap := some { cmd := none, full := none, fault := true, state := m.1, phys := m.2 } }
  let s := closeUpTo (open1 - s.k0 tile) s tile (open1 * 4096)
  (s.ingress.map fun e => e.1).foldl (fun s g => rewindCaught (s.ing g).frames.length s g tile) s

/-- The collector retires the physical tile that serves a logical tile (R229, R232, R435): held while the cluster has a change in
progress. -/
def retireTile (s : State) (tile : Nat) : State :=
  if s.tileGone tile s.full then s
  else
    let s := retirePhys s tile
    if s.remapping tile then s.setTile tile { s.tile tile with held := true } else faultRemap s tile

/-- The latest boundary of a tile-map change in a tile's cluster. -/
def State.lastMapChange (s : State) (tile : Nat) : Nat :=
  ((clusterOf tile).flatMap fun t => (s.tile t).lastRemap.map fun e => e.1).foldl max 0

/-- R229: a held retirement takes effect at the first caravan boundary after the pending change of its cluster has reached its own. -/
def execHeldRetirementRemap (tile : Nat) (s : State) : Res :=
  if (s.tile tile).held && !s.remapping tile then
    let s := advanceFull s (s.lastMapChange tile + 4096)
    .next (faultRemap (s.setTile tile { s.tile tile with held := false }) tile)
  else .next s

end Sys2Proof.Machine
end

