-- ==== Sys2Proof/Machine/TimeStep.lean ====
section
/-! DEFINITION. A step of device time (02_time_base.md: R61 to R63, R65, R191, R252). What is dated in the old count and lives on moves by Δ
with it (log 15). -/

namespace Sys2Proof.Machine

/-- A number moved by a signed amount, 0 below 0. -/
def moved (dt : Int) (n : Nat) : Nat := ((n : Int) + dt).toNat

/-- A pair moved by `dt` ticks of device time (R191). -/
def Pair.shift (dt : Int) (p : Pair) : Pair := { p with d := p.d + dt * 16384, t4 := moved (dt * 1024) p.t4 }

/-- A beacon's departure moved with device time. -/
def Beacon.shift (dt : Int) (b : Beacon) : Beacon := { b with t1 := moved (dt * 1024) b.t1 }

/-- A model moved by `dt` ticks (R63, R191): D_ref and the D_k of every pair, with the stamps of exchanges in progress. -/
def Model.shift (dt : Int) (m : Model) : Model :=
  { m with
    d := if m.fitted then m.d + dt * 16384 else m.d
    window := m.window.map (Pair.shift dt)
    held := m.held.map (Pair.shift dt)
    lastT2 := m.lastT2.map fun p => (p.1, moved (dt * 1024) p.2)
    beacons := m.beacons.map (Beacon.shift dt)
    ended := m.ended.map (Beacon.shift dt)
    fitDue := m.fitDue.map (·.map (Pair.shift dt))
    echoes := m.echoes.map fun e => { e with beacon := e.beacon.shift dt, t4 := moved (dt * 1024) e.t4 }
    prevT1 := moved (dt * 1024) m.prevT1
    beaconAt := 0 }

/-- A hit on its way moved with device time; a FUTURE hit carries partner time (R360). -/
def THit.shift (dt : Int) (h : THit) : THit := if h.mirage = 1 then h else { h with time := moved (dt * 1024) h.time }

/-- What crosses the Saddle moved with device time. -/
def TItem.shift (dt : Int) : TItem → TItem
  | .hit h => .hit (h.shift dt)
  | .marker a b t => .marker a b (moved (dt * 1024) t)
  | .token a b => .token a b

/-- A frame moved with device time. -/
def IFrame.shift (dt : Int) (f : IFrame) : IFrame :=
  { f with
    arrival := moved (dt * 1024) f.arrival
    fit := f.fit.map fun p => (p.1, p.2.1 + dt * 16384, p.2.2)
    mark := f.mark.map (moved (dt * 1024))
    sheds := f.sheds.map fun e => (e.1, moved dt e.2.1, e.2.2) }

/-- A candidate moved with device time. -/
def Cand.shift (dt : Int) (x : Cand) : Cand := { x with time := moved (dt * 1024) x.time }

/-- A sample that waits moved with device time. -/
def PendSample.shift (dt : Int) (p : PendSample) : PendSample := { p with full := moved dt p.full }

/-- A bin table's boundary moved with device time. -/
def BinTable.shift (dt : Int) (b : BinTable) : BinTable := { b with full := moved dt b.full }

/-- A stamp and its conversion moved with device time; `dt` in ticks. -/
def Stamp.shift (dt : Int) (st : Stamp) : Stamp :=
  { st with edge := moved (dt * Config.edgeTick) st.edge, time := st.time.map fun t => t + dt * 1024 }

/-- A comparator of an input routed to a reference at a step of device time: its stamps for the reference monitor go on in the new count
(R41). -/
def Comp.shift (dt : Int) (x : Comp) : Comp :=
  { x with
    held := x.held.map (Stamp.shift dt)
    slots := mall [] x.slots fun cs => cs.map fun c => { c with edge := moved (dt * Config.edgeTick) c.edge }
    windows := []
    openPulse := none }

/-- The stamps held by the comparators at a step of device time: every channel is in mode off (R61), so each is
discarded and counted under R244, and the intervals in progress end with them (log 13); those of routed inputs are kept for the monitor (R41). -/
def dropHeld (s : State) (dt : Int) : State :=
  let routed := fun (ci : Nat) => s.routed (ci / 2) s.full
  let s := s.comps.foldl (fun s e => if routed e.1 then s else (e.2.held.filter (·.lead)).foldl (fun s _ =>
    match s.boundChan e.1 with
    | some c => dropPrec s c
    | none => s) s) s
  { s with
    comps := malli Comp.init s.comps fun ci x =>
      if routed ci then x.shift dt else { x with held := [], windows := [], openPulse := none, slots := [] }
    inputs := mall Input.init s.inputs fun x => { x with armed := none, wait := [] } }

/-- The caravans of a queue from its next one through `last` are closed. -/
def emitUpTo : Nat → State → Nat → Nat → State
  | 0, s, _, _ => s
  | n + 1, s, q, k => emitUpTo n (emitCaravan (emitPlaced s q k) q k) q (k + 1)

/-- The last caravan of which a queue holds anything. -/
def HQueue.lastK (h : HQueue) : Nat :=
  (h.hits.map (fun x => x.caravan) ++ h.closes.map (fun e => e.1) ++ h.place.map fun p => p.caravan).foldl max 0

/-- The gates of a profile that have ended complete at a tile that has closed their last caravans (R270). -/
def finishGates : Nat → State → Nat → Nat → State
  | 0, s, _, _ => s
  | n + 1, s, tile, pk =>
    match s.dueGate tile pk with
    | some g => if g.stop ≤ s.full then finishGates n (completeGate s tile pk g (s.gateChans tile pk g)) tile pk else s
    | none => s

/-- The last caravan that a gate which has ended needs of a tile, plus one (R252, R270). -/
def State.gatesEnd (s : State) (tile : Nat) : Nat :=
  s.gates.foldl (fun m e => (e.2.filter fun g => g.len ≠ 0 && decide (g.stop ≤ s.full) && !(s.gateChans tile e.1 g).isEmpty).foldl
    (fun m g => max m ((g.stop - 1) / 4096 + 1)) m) 0

/-- What the old count still holds is closed, built and sent before the step; gates that have ended complete first (R252, R270), and the caravans
that a host queue carries have their sequence numbers (R361). -/
def closeOld (s : State) : State :=
  let s := s.tiles.foldl (fun s e =>
    let a := e.2.hits.foldl (fun m h => max m (h.time / 4194304 + 1)) (s.gatesEnd e.1)
    let b := s.segs.foldl (fun m g => if g.2.tiles.contains e.1 && !g.2.built then max m ((g.2.cut e.1).2 / 4194304 + 1) else m) a
    if s.canClose e.1 then closeUpTo (b - s.k0 e.1) s e.1 (b * 4096) else s) s
  let s := s.gates.foldl (fun s e => (distinct (e.2.flatMap fun g => s.profileTiles e.1 g)).foldl (fun s t => finishGates e.2.length s t e.1) s) s
  let s := s.segs.foldl (fun s e => match execSegmentBuild e.1 s with
    | .next t => t
    | _ => s) s
  let last := s.full / 4096
  let s := s.namedQueues.foldl (seqPass · last ·) s
  s.enabledQueues.foldl (fun s q =>
    let h := s.hq q
    let k := h.nextK.getD s.tb.base
    let held := if h.hits.isEmpty && h.closes.isEmpty && h.place.isEmpty then k else h.lastK + 1
    let stop := (s.carrySpans q k last).foldl (fun m e => max m (e.1 + e.2)) held
    emitPlaced (emitUpTo (stop - k) s q k) q stop) s

/-- The step itself: everything dated in the old count moves by `dt` ticks, and caravans begin anew (R63, R65, R191). -/
def shiftAll (s : State) (dt : Int) (start : Nat) : State :=
  { s with
    models := malli Model.init s.models fun _ m => m.shift dt
    ingress := mall Ingress.init s.ingress fun x => { x with frames := x.frames.map (IFrame.shift dt) }
    toTile := mall [] s.toTile fun xs => xs.map fun e => (e.1, e.2.shift dt)
    anchorQ := mall [] s.anchorQ fun xs => xs.map (THit.shift dt)
    groups := mall GroupX.init s.groups fun x => { x with
      lastMarker := x.lastMarker.map (moved (dt * 1024))
      lates := []
      gaps := []
      mapAt := 0
      mapFrom := 0
      waitFrom := x.waitFrom.map fun _ => start / 4096
      staleTo := x.staleTo.map fun _ => start / 4096 }
    tiles := mall Tile.init s.tiles fun x => { x with
      prov := x.prov.map (TItem.shift dt)
      k0 := 0
      notice := 0
      marks := []
      frontier := 0
      hits := []
      late := []
      shed := []
      closedAt := []
      lastLevel := none
      levels := (x.levels.head?.map fun e => (0, e.2)).toList
      ring := []
      ext := []
      extOn := []
      eh := start * 1024
      remap := x.remap.map fun r => { r with full := r.full.map fun b => moved dt b }
      dead := x.dead.map fun _ => 0
      lastRemap := [] }
    hqs := mall HQueue.init s.hqs fun x => { x with hits := [], closes := [], nextK := none, place := x.place.map fun p => { p with caravan := 0 } }
    defs := mall TDef.init s.defs fun x => { x with
      wins := x.wins.map (fun w => { w with start := moved (dt * 1024) w.start, stop := w.stop.map (moved (dt * 1024)) })
      win := moved (dt * 1024) x.win
      last := x.last.map (moved (dt * 1024))
      cands := x.cands.map (Cand.shift dt) }
    coreDefs := mall CoreDef.init s.coreDefs fun x => { found := x.found.map (Cand.shift dt), lastFwd := x.lastFwd.map (moved (dt * 1024)), complete := moved dt x.complete }
    interps := mall Interp.init s.interps fun x => { x with
      inForce := x.inForce.map (BinTable.shift dt)
      prior := x.prior.map (BinTable.shift dt)
      waiting := x.waiting.map (BinTable.shift dt)
      first := x.first.map (BinTable.shift dt)
      pend := x.pend.map (PendSample.shift dt) }
    inputs := mall Input.init s.inputs fun x => { x with overTo := x.overTo.map (moved dt) }
    pgroups := mall { opened := false, toFull := none } s.pgroups fun x => { x with toFull := x.toFull.map (moved dt) }
    cmd := { s.cmd with
      prev := []
      copies := mall [] s.cmd.copies fun m => m.map fun x => (x.1, { x.2 with changes := [] })
      cinchAt := []
      cinches := s.cmd.cinches.map (fun j => { j with full := moved dt j.full })
      gone := s.cmd.gone.map (fun g => { g with full := moved dt g.full }) }
    rf := { s.rf with sums := mall RegSum.init s.rf.sums fun a => { a with base := moved (dt * 1024) a.base } }
    gates := []
    gateDone := []
    accs := []
    ivals := []
    conds := []
    notices := []
    tb := { s.tb with base := start / 4096, laneErr := [], laneAdopt := [] } }

/-- A step of device time (R63, R65, R191, R252): the old count is closed, every model moves by Δ, every enabled host queue gets an
EPOCH record marked as a step, every profile returns to IDLE, and the caravans begin anew at the next boundary of the new count. -/
def deviceTimeStep (s : State) (oldFull newFull : Nat) : State :=
  let dt : Int := (newFull : Int) - (oldFull : Int)
  let start := ceilDiv newFull 4096 * 4096
  let s := (closeOld (dropHeld s dt)).setFull (newFull + (s.full - oldFull))
  let s := emitAll s (epochRec true (oldFull / 2 ^ 54 % 2 ^ 16) (newFull / 2 ^ 54 % 2 ^ 16) start (ofSigned 54 ((start : Int) - dt)))
  let s := s.gates.foldl (fun s e => ((s.put F.gsta_gstate e.1 0).put F.gsta_continuous e.1 0).put F.gsta_gates_left e.1 0) s
  let s := shiftAll s dt start
  let s := s.tiles.foldl (fun s e => putEh s e.1 (start * 1024)) s
  s.models.foldl (fun s e => if e.2.fitted then s.put F.ltsa_offset e.1 (ofSigned 64 (roundHalfUp (e.2.d - e.2.u) 16)) else s) s

/-- R61, R62, R65: at the chosen boundary quiescence is tested again, and device time takes the new count or the step
is abandoned. -/
def execTimeSetBoundary (s : State) : Res :=
  match s.tb.step with
  | none => .next s
  | some p =>
    let op := if p.pps then 0x23 else 0x22
    let s := advanceFull s p.atFull
    let s := { s with tb := { s.tb with step := none } }
    if !s.quiescent then .next (finish s p.cmd op stBadParam 0 [])
    else
      let t := deviceTimeStep s p.atFull p.newFull
      let ws := if p.pps then
          ppsReply p.stamp (ofSigned 70 ((p.stamp : Int) + (p.newFull : Int) - (p.atFull : Int)))
        else [pack [(31, 16, p.atFull / 2 ^ 54), (15, 0, p.newFull / 2 ^ 54)], pack [(53, 0, p.newFull)], pack [(53, 0, p.atFull)]]
      .next (finish t p.cmd op stOk 0 ws)

end Sys2Proof.Machine
end

