-- ==== Sys2Proof/Machine/HostQueue.lean ====
section
/-! DEFINITION. Host queues and host lanes (10_queues.md, 11_host_records.md: R209, R314, R315, R318 to R332, R339 to R346, R355 to R363),
the spill writes of both kinds of queue, and the words their readers correct. -/

namespace Sys2Proof.Machine

/-- The words that records hold. -/
def recWords (rs : List Rec) : Nat := sumOver (fun (r : Rec) => r.words.length) rs

/-- The lines of a host queue with `n` more words written (R315). -/
def HQueue.lines (h : HQueue) (n : Nat) : Nat := linesFrom ((h.recs.head?.map fun r => r.start).getD h.wp) (h.wp + n)

/-- A record at the tail. -/
def HQueue.push (h : HQueue) (r : Rec) : HQueue := { h with recs := h.recs ++ [{ r with start := h.wp }], wp := h.wp + r.words.length }

/-- The lines of a host queue, each with its tag, the head first (R318, R319). -/
def HQueue.lineTable (h : HQueue) : List (BitVec 512 × Nat) := tableOf (h.recs.map fun r => (r.start, r.words))

/-- A queue left with some of its records, its lines without a gap. -/
def HQueue.repack (h : HQueue) (keep : List Rec) : HQueue :=
  keep.foldl HQueue.push { h with recs := [], wp := (keep.head?.map fun r => r.start).getD (ceilDiv h.wp 8 * 8) }

/-- A record lies in part in the Erg middle, behind the lines of the head (R314). -/
def HQueue.inMiddle (h : HQueue) (r : Rec) : Bool :=
  let low := (((h.recs.head?.map fun r => r.start).getD h.wp) / 8 + 8) * 8
  decide (r.start < low + 8 * h.mid) && decide (low < r.start + r.words.length)

/-- The records that stay where some are lost, each with the rest of its unit (R326); `cut` says that the unit being looked at is cut. -/
def keepUnits (lost : Rec → Bool) : Bool → List Rec → List Rec
  | _, [] => []
  | cut, r :: rest =>
    if (cut && !r.first) || lost r then keepUnits lost true rest else r :: keepUnits lost false rest

/-- The capacity of a host queue in lines (R315). -/
def State.hqCapacity (s : State) (q : Nat) : Nat :=
  regLines (s.hq q).linesLost + Config.linesPerMiB * s.get F.qhc_quota q

/-- A host queue can hold `n` more words, with `extra` lines of reserve: within its capacity, and with no more lines than head and tail hold beside
its middle while the spill write of its oldest tail line waits (R327, R330). -/
def State.hqRoom (s : State) (q extra n : Nat) : Bool :=
  let h := s.hq q
  decide (h.lines n ≤ s.hqCapacity q + extra) && (!h.stalled || decide (h.lines n ≤ h.mid + regLines h.linesLost + extra))

/-- Brings the status words of a host queue up to date after a change of its contents: fill, full, PAUSED or a level crossing (R315,
R327, R342 to R344). A queue is full when its next word would not be written. -/
def hqSettle (s : State) (q : Nat) : State :=
  let cap := s.hqCapacity q
  let old := s.get F.qha_fill q
  let fill := (s.hq q).lines 0
  let hi := s.get F.qhc_hi q
  let s := s.setHq q { s.hq q with mid := midAfter (s.hq q).linesLost old fill (s.hq q).mid }
  let s := (s.put F.qha_fill q fill).put F.qha_full q (b2n !(s.hqRoom q 0 1))
  if s.flag F.qhc_mode q then
    let s := s.put F.qha_paused q 0
    if atMark hi cap fill && !atMark hi cap old then
      let s := s.satInc F.qhs_level_crossings q 1
      if s.flag F.qha_attn q then s
      else event (s.put F.qha_attn q 1) (q / 64) 0x06 0 stOk (0x80000000 + q) [BitVec.ofNat 64 fill]
    else s
  else s.put F.qha_paused q (b2n (hystPaused hi (s.get F.qhc_lo q) cap fill (s.flag F.qha_paused q)))

/-! ### Writing a record -/

/-- The words of a record that a host queue takes before one finds it full, at most `n` (R330). -/
def State.hqTakes (s : State) (q extra : Nat) : Nat → Nat
  | 0 => 0
  | n + 1 => if s.hqRoom q extra (n + 1) then n + 1 else s.hqTakes q extra n

/-- A record finds room for all its words (R330). -/
def State.fits (s : State) (q extra : Nat) (r : Rec) : Bool := s.hqTakes q extra r.words.length = r.words.length

/-- Words are taken back off the tail of a host queue (R330, R331): its records are `recs` again, and its write pointer `wp`. -/
def hqBack (s : State) (q : Nat) (recs : List Rec) (wp : Nat) : State :=
  let h := { s.hq q with recs := recs, wp := wp }
  let fill := h.lines 0
  hqSettle ((s.setHq q { h with mid := midBack fill h.mid }).put F.qha_fill q fill) q

/-- The words of a record that found room before one did not are written and discarded again (R330): the queue's status follows its fill meanwhile. -/
def tryWords (s : State) (q extra : Nat) (r : Rec) : State :=
  let h := s.hq q
  hqBack (hqSettle (s.setHq q { h with wp := h.wp + s.hqTakes q extra r.words.length }) q) q h.recs h.wp

/-- A record enters the tail (R318, R319), and its words the CRC of the caravan (R360). -/
def putRec (s : State) (q : Nat) (r : Rec) : State :=
  let h := s.hq q
  let crc := if h.inCaravan then BitVec.ofNat 32 (r.words.foldl crc32Word h.crc.toNat) else h.crc
  segWritten (s.setHq q { (h.push r) with crc := crc }) r

/-- A record is not written (R330). -/
def dropRec (s : State) (q : Nat) (r : Rec) : State := segWritten (s.satInc F.qhb_rec_dropped q 1) r

/-- The records of a caravan still held are taken back, and the write pointer with them (R331). -/
def takeBack (s : State) (q : Nat) : State :=
  let h := s.hq q
  let keep := (h.recs.reverse.dropWhile fun r => !r.first).drop 1 |>.reverse
  hqBack s q keep (((h.recs.drop keep.length).head?.map fun r => r.start).getD h.wp)

/-- The CARAVAN_CLOSE with its counts and CRC (R330, R360). -/
def HQueue.closeRec (h : HQueue) (r : Rec) : Rec :=
  match r.words with
  | w0 :: _ :: rest =>
    let ws := setBits w0 14 14 (b2n (h.lost ≠ 0)) :: pack [(63, 32, h.sent), (31, 0, min (2 ^ 32 - 1) h.lost)] :: rest.dropLast
    let crc := Nat.xor (ws.foldl crc32Word h.crc.toNat) 0xFFFFFFFF
    { r with words := ws ++ [BitVec.ofNat 64 crc] }
  | _ => r

/-- A record of a caravan (R330, R331). -/
def writeCaravan (s : State) (q : Nat) (r : Rec) : State :=
  let h := s.hq q
  if r.first then
    if s.fits q 2 r then putRec (s.setHq q { h with inCaravan := true, caravanLost := false, dropping := false, crc := 0xFFFFFFFF#32, sent := 0, lost := 0 }) q r
    else
      let s := tryWords s q 2 r
      (s.setHq q { s.hq q with inCaravan := true, caravanLost := true }).satInc F.qhs_caravans_lost q 1
  else if r.last then
    let s := s.setHq q { h with inCaravan := false, caravanLost := false, dropping := false }
    if h.caravanLost then s
    else
      let c := h.closeRec r
      if s.fits q 2 c then s.setHq q ((s.hq q).push c)
      else
        let s := tryWords s q 2 c
        (takeBack s q).satInc F.qhs_caravans_lost q 1
  else if h.caravanLost then s
  else if h.dropping || !s.fits q 0 r then
    let s := if h.dropping then s else tryWords s q 0 r
    dropRec ((s.setHq q { s.hq q with dropping := true, lost := h.lost + 1 }).put F.qha_overrun q 1) q r
  else
    let s := putRec s q r
    s.setHq q { s.hq q with sent := h.sent + 1 }

/-- A record of another unit (R330). -/
def writePlain (s : State) (q : Nat) (r : Rec) : State :=
  let h := s.hq q
  if h.dropping && !r.first then dropRec (s.setHq q { h with dropping := !r.last }) q r
  else if s.fits q 0 r then putRec (s.setHq q { h with inCaravan := false, dropping := false }) q r
  else
    let s := tryWords s q 0 r
    dropRec ((s.setHq q { s.hq q with inCaravan := false, dropping := !r.last }).put F.qha_overrun q 1) q r

/-- A record for a disabled queue is discarded and counted (R332); what follows of its unit is discarded too, enabled or not. -/
def writeOff (s : State) (q : Nat) (r : Rec) : State :=
  dropRec (s.setHq q { s.hq q with inCaravan := false, caravanLost := false, dropping := !r.last }) q r

/-- The reply of QUEUE_FLUSH, once the discarding has ended (R341). -/
def flushDone (s : State) (q : Nat) : State :=
  let h := s.hq q
  match h.flush with
  | some c => sendReply (s.setHq q { h with flush := none, flushing := false, flushCount := 0 }) c 0x50 stOk 0 [BitVec.ofNat 64 h.flushCount] false
  | none => s

/-- A record of the unit that a flush found begun is discarded (R340); the flush has ended with the last of them (R341). -/
def flushRec (s : State) (q : Nat) (r : Rec) : State :=
  let h := s.hq q
  let s := if s.queueEn q then segWritten ((s.setHq q { h with flushCount := h.flushCount + 1 }).satInc F.qhb_flushed q 1) r
    else writeOff s q r
  if r.last then flushDone s q else s

/-- A record reaches a host queue whose home cluster is off (R16, R443): it is lost, with the rest of its unit. -/
def lostRec (s : State) (q : Nat) (r : Rec) : State :=
  segWritten (s.setHq q { s.hq q with inCaravan := false, caravanLost := false, dropping := !r.last }) r

/-- A record belongs to a caravan of its queue. -/
def HQueue.ofCaravan (h : HQueue) (r : Rec) : Bool :=
  if r.first then bits (r.words.headD 0#64) 63 60 = 2 else h.inCaravan

/-- The die that a record comes from over the Saddle (R31, R223): a record of a hit or of sums from its core die, EVENT, EPOCH and the summaries from the
anchor die; caravans are merged at the queue's `home`. -/
def Rec.sender (home : Nat) (r : Rec) : Nat :=
  let w := r.words.headD 0#64
  match bits w 63 60 with
  | 2 | 3 => home
  | 1 | 4 => if r.seg.isSome then bits w 59 37 / 2 ^ 20 else home
  | 7 | 9 | 10 => bits w 59 37 / 2 ^ 20
  | _ => 15

/-- R16, R327, R330 to R332, R340, R341: the next record on its way to a host queue reaches its tail. `spillWaiting` says that the spill write of the queue's
oldest tail line waits for the Erg. -/
def execHostRecordWrite (queue : Nat) (spillWaiting : Bool) (s : State) : Res :=
  let q := queue
  let die := s.queueDie q
  match (s.hq q).incoming with
  | [] => .next s
  | r :: rest =>
    let here := fun (s : State) => s.setHq q { s.hq q with incoming := rest, stalled := spillWaiting }
    if !s.domOn (4 * die) then .next (lostRec (here s) q r)
    else .next (crosses s (8 + die) (r.sender (8 + die)) fun s =>
      let s := here s
      let h := s.hq q
      if h.flushing && !r.first then hqSettle (flushRec s q r) q
      else
        let s := if h.flushing then flushDone s q else s
        if !s.queueEn q then hqSettle (writeOff s q r) q
        else hqSettle (if h.ofCaravan r then writeCaravan s q r else writePlain s q r) q)

/-- The spill write of a queue's oldest tail line can be made (R314, R327). -/
def spillable (fill lost mid quota : Nat) : Bool := decide (8 + mid < fill) && decide (mid < quota) && decide (8 ≤ fill) && decide (lost ≤ 14)

/-- A lane ingress queue asks the Erg for a spill write. -/
def State.ingSpills (s : State) (g : Nat) : Bool :=
  let x := s.ing g
  spillable (s.get F.qis_fill g) x.linesLost x.mid (s.ingCapacity g - regLines x.linesLost)

/-- A host queue asks the Erg for a spill write. -/
def State.hqSpills (s : State) (q : Nat) : Bool :=
  let h := s.hq q
  spillable (s.get F.qha_fill q) h.linesLost h.mid (s.hqCapacity q - regLines h.linesLost)

/-- The queues that ask the Erg of a stack for a spill write: 2g for the lane ingress queue of group g, 2q + 1 for host queue q. -/
def State.spillers (s : State) (n : Nat) : List Nat :=
  ((s.ingress.filter fun e => e.1 / 256 = n && s.ingSpills e.1).map fun e => 2 * e.1) ++
    ((s.hqs.filter fun e => s.queueDie e.1 = n && s.hqSpills e.1).map fun e => 2 * e.1 + 1)

/-- The queues that the Erg of a stack serves: 256 lane ingress queues, and the host queues homed beside it. -/
def State.spillPorts (s : State) (n : Nat) : Nat := 256 + (upTo 0 16384).countP fun q => s.queueDie q = n

/-- R22, R314, R317, R327: the oldest tail line of a queue is written to its Erg middle: kind 0 the lane ingress queue of a group, 1 a host
queue. The write is not made while another queue that has waited longer must go first. -/
def execSpillWrite (kind queue : Nat) (s : State) : Res :=
  let n := if kind = 0 then queue / 256 else s.queueDie queue
  let me := 2 * queue + kind
  let ws := s.spillers n
  if !(kind < 2) || !s.stackOn n || !ws.contains me || s.granted (2 + n) (s.spillPorts n) ws me ≠ me then .next s
  else
    let s := noteGrant s (2 + n) ws me
    if kind = 0 then
      let x := s.ing queue
      .next (ingSettle (s.setIng queue { x with mid := x.mid + 1, stalled := false }) queue)
    else
      let h := s.hq queue
      .next (hqSettle (s.setHq queue { h with mid := h.mid + 1, stalled := false }) queue)

/-! ### Host lanes -/

/-- A record frame of at most 16 flits leaves (R356, R357). -/
def sendRecords (lane queue : Nat) (s : State) (ws : List Word) : State :=
  let valid := ((ws.length - 1) % 4 + 1) * 8
  sendHost s lane 5 (queue * 2 ^ 22 + valid * 2 ^ 16) (ws ++ List.replicate (ceilDiv ws.length 4 * 4 - ws.length) 0#64)

/-- An enabled host queue of a lane holds a record. -/
def State.readable (s : State) (lane q : Nat) : Bool := s.queueEn q && s.get F.qhc_lane q = lane && !(s.hq q).recs.isEmpty

/-- The enabled host queues of a lane that hold a record, the next of the round robin first (R322). -/
def State.laneQueue (s : State) (lane : Nat) : Option Nat :=
  let qs := ascending (s.enabledQueues.filter (s.readable lane))
  match qs.find? fun q => decide ((s.hlane lane).turn ≤ q) with
  | some q => some q
  | none => qs.head?

/-- A record with an uncorrectable word of the element `source`, at a place in its queue, is discarded with the rest of its unit (R326). -/
def loseRecord (s : State) (q i source : Nat) : State :=
  let h := s.hq q
  match h.recs.drop i with
  | [] => s
  | r :: rest =>
    let held := rest.takeWhile fun x => !x.first
    let left := rest.dropWhile fun x => !x.first
    let more := left.isEmpty && !(match held.getLast? with
      | some x => x.last
      | none => r.last)
    let coming := if more then h.incoming.takeWhile (fun x => !x.first) else []
    let s := s.setHq q { h with recs := h.recs.take i ++ left, wp := closeTail h.wp ((r :: held).foldl (fun m x => max m (x.start + x.words.length)) 0), incoming := h.incoming.drop coming.length, inCaravan := h.inCaravan && !more }
    let s := coming.foldl segWritten s
    let n := 1 + held.length + coming.length
    let s := (s.satInc F.qhb_rec_dropped q n).satInc F.qhs_rec_ecc q 1
    dataLost s source (recWords (r :: held))

/-- The same, with the fault of the element. -/
def badRecord (s : State) (q i source sub : Nat) (injected : Bool) : State :=
  if i < (s.hq q).recs.length then raise (loseRecord s q i source) source 0x01 sub injected else s

/-- A record frame as it is filled: the state, its words, what is left over of its last record, and the records its turn still has. -/
structure Filled where
  s : State
  ws : List Word
  rest : List Word
  left : Nat

/-- A lane takes records of a queue, at most `n`, into a record frame with room for `room` words (R322, R357); `bad` says that a word of the first reads as
uncorrectable. -/
def fillFrame : Nat → State → Nat → Nat → Bool → List Word → Filled
  | 0, s, _, _, _, ws => { s := s, ws := ws, rest := [], left := 0 }
  | n + 1, s, q, room, bad, ws =>
    if room = 0 then { s := s, ws := ws, rest := [], left := n + 1 }
    else match (s.hq q).recs with
    | [] => { s := s, ws := ws, rest := [], left := 0 }
    | r :: rest =>
      let die := s.queueDie q
      let (s, spilt) := if (s.hq q).mid = 0 then (s, false) else ergRead s die
      let (s, inj) := if spilt then (s, false) else awlTake s (0x4000 + q)
      if spilt then { s := badRecord s q 0 (dieSource (8 + die) 5) 0 true, ws := ws, rest := [], left := n }
      else if bad || inj then { s := badRecord s q 0 (0x4000 + q) 0 inj, ws := ws, rest := [], left := n }
      else
        let s := s.setHq q { s.hq q with recs := rest, wp := closeTail (s.hq q).wp (r.start + r.words.length) }
        if r.words.length ≤ room then fillFrame n s q (room - r.words.length) false (ws ++ r.words)
        else { s := s, ws := ws ++ r.words.take room, rest := r.words.drop room, left := n }

/-- The queue that a host lane's next record frame is of, with the records left of its turn (R322, R357). -/
def State.turnOf (s : State) (lane : Nat) : Option (Nat × Nat) :=
  let x := s.hlane lane
  if !x.rest.isEmpty || (x.left ≠ 0 && s.readable lane x.queue) then some (x.queue, x.left)
  else (s.laneQueue lane).map fun q => (q, s.get F.qhc_weight q)

/-- A host lane sends a record frame with up to `room` words of a queue (R322, R324, R326, R356, R357). -/
def sendRecordFrame (s : State) (lane q left room corrected : Nat) (bad : Bool) : State :=
  let x := s.hlane lane
  let y := fillFrame left s q (room - x.rest.length) bad (x.rest.take room)
  let rest := if room < x.rest.length then x.rest.drop room else y.rest
  let n := ceilDiv y.ws.length 4
  let s := y.s.setHlane lane { x with turn := q + 1, queue := q, rest := rest, left := y.left, owed := x.owed && y.ws.isEmpty, replies := x.replies.map fun (r : Reply) => { r with flits := r.flits + n } }
  let s := countEcc s F.qha_ecc_corr F.qha_ecc_sat q (min corrected y.ws.length)
  hqSettle (if y.ws.isEmpty then s else sendRecords lane q s y.ws) q

/-- R209, R322, R324, R326, R355 to R357: a host lane sends a frame: a packet of a reply or records of one queue. Replies go first. While replies wait, records
have one flit after each reply frame, until a reply has waited for 16 flits. `corrected` words of the record frame read with a single-bit error; `badWord` says
that a word of the first record read reads as uncorrectable. -/
def execHostLaneSend (lane corrected : Nat) (badWord : Bool) (s : State) : Res :=
  if !s.host lane || !s.laneUp lane then .next s
  else
    let x := s.hlane lane
    let wait := !x.replies.isEmpty && (!x.owed || x.replies.any fun r => decide (16 ≤ r.flits))
    if wait then .next (sendReplyFrame s lane)
    else match s.turnOf lane with
    | some (q, left) => .next (sendRecordFrame s lane q left (if x.replies.isEmpty then 64 else 4) corrected badWord)
    | none => .next (sendReplyFrame s lane)

/-- R323: a host lane that has nothing to send sends an IDLE record, at most one in 4,096 ticks. -/
def execIdleRecord (lane : Nat) (s : State) : Res :=
  let x := s.hlane lane
  if !s.host lane || !s.laneUp lane || !x.replies.isEmpty || (s.turnOf lane).isSome then .next s
  else
    let s := match x.idleAt with
      | some t => advanceTo s (t + 4096)
      | none => s
    let s := s.setHlane lane { x with idleAt := some s.tb.tick }
    .next (sendHost s lane 5 (16 * 2 ^ 16 + 2 ^ 15) [pack [(15, 0, s.tb.epoch.toNat)], devWord s.nowFine, 0#64, 0#64])

/-! ### QUEUE_FLUSH and QUEUE_STATUS -/

/-- QUEUE_FLUSH (R339, R341, R388). -/
def queueFlushBody (c : Cmd) (s : State) : Result :=
  checked c false 1 <|
    let q := bits (c.par 0) 13 0
    refuseIf (stray (c.par 0) [(13, 0)]) stBadParam 1 <|
    noMore c 1 <|
    refuseIf (c.part ≠ 0 && c.part ≠ q / 64) stNotOwner 0 <|
    refuseIf (!s.domOn (4 * s.queueDie q)) stNoResource 0 <|
    refuseIf (s.hq q).flush.isSome stNoResource 0 <|
    .loose (s.setHq q { s.hq q with flush := some c, flushCount := 0 })

/-- QUEUE_FLUSH. -/
def execQueueFlush (c : Cmd) (s : State) : Res := .next (runCmd 0x50 c (queueFlushBody c) s)

/-- A record of a queue is partly sent on its lane (R340). -/
def State.midRecord (s : State) (q : Nat) : Bool :=
  let l := s.get F.qhc_lane q
  s.laneUp l && (s.hlane l).queue = q && !(s.hlane l).rest.isEmpty

/-- R340: a flush takes effect at a record boundary of the queue's lane: every record held is discarded, then each further record until
one begins a unit. -/
def execFlushEffect (queue : Nat) (s : State) : Res :=
  let q := queue
  let h := s.hq q
  if h.flush.isNone || h.flushing || s.midRecord q then .next s
  else
    let n := h.recs.length
    let going : Bool := match h.incoming with
      | r :: _ => !r.first
      | [] => false
    let s := (s.setHq q { h with recs := [], wp := ceilDiv h.wp 8 * 8, flushing := going, flushCount := n, inCaravan := h.inCaravan && !going, caravanLost := h.caravanLost && !going, dropping := h.dropping && !going }).satInc F.qhb_flushed q n
    let s := hqSettle s q
    .next (if going then s else flushDone s q)

/-- QUEUE_STATUS of a lane ingress queue (R352, R354). -/
def queueStatusIngressBody (c : Cmd) (s : State) : Result :=
  checked c false 1 <|
    let l := bits (c.par 0) 13 0
    refuseIf (stray (c.par 0) [(13, 0)] || decide (1024 ≤ l)) stBadParam 1 <|
    noMore c 1 <|
    refuseIf (c.part ≠ 0 && c.part ≠ s.ownerOf (s.groupOf l)) stNotOwner 0 <|
    let s := if s.flag F.qia_pressure l then pauseSettle s l else s
    .done s stOk 0 ([1, 2, 3, 4].map fun sel => s.word 5 sel l)

/-- QUEUE_STATUS of a host queue (R352, R354). -/
def queueStatusHostBody (c : Cmd) (s : State) : Result :=
  checked c false 1 <|
    let q := bits (c.par 0) 13 0
    refuseIf (stray (c.par 0) [(13, 0)]) stBadParam 1 <|
    noMore c 1 <|
    refuseIf (c.part ≠ 0 && c.part ≠ q / 64) stNotOwner 0 <|
    .done s stOk 0 ([5, 6, 7, 8].map fun sel => s.word 5 sel q)

/-- QUEUE_STATUS of an anchor precision queue (R352, R354). -/
def queueStatusAnchorBody (c : Cmd) (s : State) : Result :=
  checked c false 1 <|
    let k := bits (c.par 0) 13 0
    refuseIf (stray (c.par 0) [(13, 0)] || decide (5 ≤ k)) stBadParam 1 <|
    noMore c 1 <|
    .done s stOk 0 [s.word 5 9 k]

/-- QUEUE_STATUS, ingress. -/
def execQueueStatusIngress (c : Cmd) (s : State) : Res := .next (runCmd 0x52 c (queueStatusIngressBody c) s)
/-- QUEUE_STATUS, host. -/
def execQueueStatusHost (c : Cmd) (s : State) : Res := .next (runCmd 0x52 c (queueStatusHostBody c) s)
/-- QUEUE_STATUS, anchor. -/
def execQueueStatusAnchor (c : Cmd) (s : State) : Res := .next (runCmd 0x52 c (queueStatusAnchorBody c) s)

end Sys2Proof.Machine
end

