-- ==== Sys2Proof/Machine/Objects.lean ====
section
/-! DEFINITION. The objects of READ_OBJ, WRITE_STAGED and WRITE_LIVE (12_commands.md, R389 to R410): where a word lies, who may read and
write it, what a write may set, the dependent groups of R398, and a word taking effect. Die addresses are those of R12. -/

namespace Sys2Proof.Machine

/-! ### Where a word lies -/

/-- A number names a place of a word (R7, R410, R418). -/
def validPlace (obj sel idx : Nat) : Bool :=
  match obj with
  | 1 | 2 => decide (idx < 1024)
  | 3 => if sel < 4 then validChan idx else decide (idx < 64)
  | 4 => decide (idx < 320)
  | 5 => if sel = 0 then idx = 0 else if sel ≤ 4 then decide (idx < 1024) else if sel ≤ 8 then decide (idx < 16384) else decide (idx < 5)
  | 6 => if sel = 0 then idx = 0 else decide (idx < 4096) && (sel = 2 || decide (idx % 16 < 8))
  | 7 => if sel = 0 then idx = 0 else decide (idx < 4096) && (if sel = 2 then decide (idx % 16 < 8) else idx % 16 = 0)
  | 8 => decide (idx < 4096)
  | 9 => idx = 0
  | 10 => if sel = 0 then idx = 0 else decide (idx < 128)
  | 11 => if sel = 64 || sel = 65 then idx = 0 else isSource idx && (decide (sel ≤ 3) || decide (0x1800 ≤ idx ∧ idx ≤ 0x1A7F))
  | 12 => decide (idx < 256)
  | 13 => if sel = 2 then idx = 0 else decide (idx < 30)
  | _ => false

/-- The domain a word is held in, none for the always-on island (R446). -/
def State.wordDomain (s : State) (obj sel idx : Nat) : Option Nat :=
  match obj with
  | 1 => if sel = 0 || sel = 4 || sel = 7 then none else some (laneDomain idx)
  | 3 => if sel < 4 then some (tileDomain (chanTile idx)) else if 19 ≤ sel then some 27 else none
  | 4 => if sel = 0 then none else some (tileDomain idx)
  | 5 =>
    if 2 ≤ sel ∧ sel ≤ 4 then some (laneDomain idx)
    else if 6 ≤ sel ∧ sel ≤ 8 then some (4 * s.queueDie idx)
    else if sel = 9 then some 27 else none
  | _ => none

/-- A word is held in a domain that is off (R447). -/
def State.wordOff (s : State) (obj sel idx : Nat) : Bool :=
  match s.wordDomain obj sel idx with
  | some d => !s.domOn d
  | none => false

/-! ### What a write may set -/

/-- Every writable field that the mask touches is within its range (R390). -/
def inRange (obj sel : Nat) (mask w : Word) : Bool :=
  (wordSpec obj sel).all fun f =>
    f.acc = .ro || f.acc = .w1c || fieldMask f.hi f.lo &&& mask = 0#64 || decide (f.min ≤ bits w f.hi f.lo ∧ bits w f.hi f.lo ≤ f.max)

/-- The fields that change only through CINCH (R396). -/
def cinchOnly (obj sel : Nat) : Word :=
  match obj, sel with
  | 1, 0 => fieldMask 62 62
  | 2, 0 => fieldMask 59 52
  | 2, 1 => 0#64
  | 2, _ => BitVec.allOnes 64
  | 3, 0 => fieldMask 60 53
  | 4, 6 => fieldMask 63 56
  | 7, 0 => fieldMask 63 58
  | 5, 1 => fieldMask 63 54
  | 5, 5 => fieldMask 63 41
  | _, _ => 0#64

/-! ### Access -/

/-- The partition owns the channel that a comparator is bound to (R105). -/
def State.ownsCmp (s : State) (p ci : Nat) : Bool :=
  match s.boundOf ci with
  | some c => s.getLatest F.chan_part c = p
  | none => false

/-- Access of a partition other than 0 to the precision words of an input (R105). -/
def State.precAccess (s : State) (p sel i : Nat) (write : Bool) (mask new : Word) : Bool :=
  let holds := s.ownsCmp p (2 * i) || s.ownsCmp p (2 * i + 1)
  let all := fun (ci : Nat) => (s.boundOf ci).isNone || s.ownsCmp p ci
  if !holds then false
  else if !write then true
  else if sel = 16 then
    all (2 * i) && all (2 * i + 1) && (!bit mask 35 || !bit new 35 || all (2 * bits new 34 29 + bits new 28 28))
  else if sel = 17 || sel = 18 then s.ownsCmp p (2 * i + (sel - 17)) && mask &&& ~~~(fieldMask 62 45) = 0#64
  else 21 ≤ sel && mask = 1#64

/-- The partition that owns a fault source, given the owners of groups and interpolators (R418). -/
def sourceOwnerBy (s : State) (group interp : Nat → Nat) (n : Nat) : Nat :=
  if n ≤ 0x0BFF then group (s.groupOf (n % 1024))
  else if n ≤ 0x0FFF then 0
  else if n ≤ 0x13FF then interp (n % 512)
  else if 0x4000 ≤ n ∧ n ≤ 0x7FFF then (n - 0x4000) / 64
  else 0

/-- The partition that owns a fault source (R418). -/
def State.sourceOwner (s : State) (n : Nat) : Nat := sourceOwnerBy s s.groupOwner s.interpOwner n

/-- The partition that owns a fault source, for the checks of commands (R392, R418). -/
def State.sourceHolder (s : State) (n : Nat) : Nat := sourceOwnerBy s s.ownerOf s.interpHolder n

/-- A partition may read a word, or write it under a mask, by the owners after every CINCH given GO (R392; R24, R66, R105, R126, R169, R170, R199, R238, R239, R245, R275, R277, R311, R312,
R352, R382, R442, R472): `new` is the word it would make. -/
def State.access (s : State) (p obj sel idx : Nat) (write : Bool) (mask new : Word) : Bool :=
  let owner := s.ownerOf (s.groupOf idx) = p
  match obj with
  | 1 => p = 0 || (owner && (!write || sel = 4 || sel = 7 || (sel = 11 && mask = 1#64)))
  | 2 => p = 0 || (owner && (!write || sel ≠ 0))
  | 3 =>
    p = 0 ||
      (if sel < 4 then s.getLatest F.chan_part idx = p && (!write || sel ≠ 0 || mask &&& fieldMask 60 53 = 0#64)
      else s.precAccess p sel idx write mask new)
  | 4 | 9 => p = 0 || !write
  | 13 => p = 0 || !write
  | 5 => p = 0 || (if sel = 0 || sel = 9 then !write else if sel ≤ 4 then owner else idx / 64 = p)
  | 6 | 7 => p = 0 || (if sel = 0 then !write else idx / 16 = p)
  | 8 => p = 0 || idx / 16 = p
  | 10 => p = 0 || (if sel = 0 then !write else s.ownsCmp p idx)
  | 11 => p = 0 || !write || (sel = 3 && mask = 1#64 && s.sourceHolder idx = p)
  | 12 => idx = p || (idx = 0 && !write) || (p = 0 && write)
  | _ => false

/-! ### Live, staged and latest copies -/

/-- A way of looking at the words: object, selector, number. -/
abbrev View := Nat → Nat → Nat → Word

/-- A word as a partition's pending changes leave it (R394). -/
def State.stagedFor (s : State) (p obj sel idx : Nat) : Word :=
  match mfind s.cmd.staged (wkey obj sel idx) with
  | some x => if x.part = p then merge (s.latest obj sel idx) x.word (stMask obj sel) else s.latest obj sel idx
  | none => s.latest obj sel idx

/-- The places of a word that hold something other than its reset word in some copy. -/
def State.places (s : State) (obj sel : Nat) : List Nat :=
  let of := fun (ks : List Nat) => (ks.filter fun k => decide (k / 2 ^ 24 = obj * 256 + sel)).map keyIdx
  ascending (distinct (of (s.regs.map fun e => e.1) ++ of (s.cmd.written.map fun e => e.1) ++
    s.cmd.gone.flatMap (fun g => of (g.words.map fun e => e.1)) ++ of (s.cmd.staged.map fun e => e.1)))

/-! ### The dependent groups of R398 -/

/-- A word's own dependent group: its fields, all bits 0 where it has none. -/
def pairMask (obj sel : Nat) : Word :=
  match obj, sel with
  | 3, 16 => fieldMask 63 40
  | 3, 2 => fieldMask 62 39
  | 4, 1 => fieldMask 54 43
  | 6, 2 => fieldMask 63 8
  | 7, 2 => fieldMask 63 40
  | 5, 1 => fieldMask 53 33
  | 5, 5 => fieldMask 40 20
  | _, _ => 0#64

/-- A word's own dependent group is consistent (R73, R240, R279, R301, R311, R343). -/
def pairOk (obj sel : Nat) (w : Word) : Bool :=
  match obj, sel with
  | 3, 16 => decide (toSigned 12 (bits w 51 40) ≤ toSigned 12 (bits w 63 52))
  | 3, 2 => decide (bits w 62 51 ≤ bits w 50 39)
  | 4, 1 => decide (bits w 48 43 < bits w 54 49)
  | 6, 2 => decide (bits w 63 36 ≤ bits w 35 8)
  | 7, 2 => decide (bits w 63 52 + bits w 51 40 ≤ 4095)
  | 5, 1 => bit w 53 || decide (bits w 42 33 < bits w 52 43)
  | 5, 5 => bit w 40 || decide (bits w 29 20 < bits w 39 30)
  | _, _ => true

/-- R284: a runt or slew condition stands on an even channel, and the channel above it has the same partition and is not off. -/
def condOk (v : View) (c : Nat) : Bool :=
  let cond := bits (v 3 2 c) 22 20
  if cond = 2 || cond = 4 then
    c % 2 = 0 && bits (v 3 0 (c + 1)) 60 53 = bits (v 3 0 c) 60 53 && bits (v 3 0 (c + 1)) 63 61 ≠ 0
  else true

/-- R260: a phase reference is another channel of the die in mode 3 or 4 with the same partition and gate profile. -/
def phaseOk (v : View) (c : Nat) : Bool :=
  let w := v 3 0 c
  if bits w 42 41 = 2 then
    let r := bits w 22 0
    let x := v 3 0 r
    r ≠ c && r / 2 ^ 20 = c / 2 ^ 20 && (bits x 63 61 = 3 || bits x 63 61 = 4) && bits x 60 53 = bits w 60 53 && bits x 46 43 = bits w 46 43
  else true

/-- The channels whose phase reference a channel is. -/
def State.phaseUsers (s : State) (v : View) (c : Nat) : List Nat :=
  (s.places 3 0).filter fun x => bits (v 3 0 x) 42 41 = 2 && bits (v 3 0 x) 22 0 = c

/-- The fields of a word that lie in a dependent group which a view leaves inconsistent (R398): of a channel word its own phase_mode and phase_ref, its
mode, part and gate_prof as the phase reference of others, and its mode and part as the upper channel of a condition. -/
def State.brokenMask (s : State) (v : View) (obj sel idx : Nat) : Word :=
  let own := if pairOk obj sel (v obj sel idx) then 0#64 else pairMask obj sel
  if obj = 3 && sel = 2 then own ||| (if condOk v idx then 0#64 else fieldMask 22 20)
  else if obj = 3 && sel = 0 then
    let cond := idx % 2 = 0 || condOk v (idx - 1)
    let used := (s.phaseUsers v idx).all (phaseOk v)
    (if cond then 0#64 else fieldMask 63 53) ||| (if used then 0#64 else fieldMask 63 53 ||| fieldMask 46 43) |||
      (if phaseOk v idx then 0#64 else fieldMask 42 41 ||| fieldMask 22 0)
  else own

/-! ### A word takes effect -/

/-- A change at a full count of the masked bits, from `old` to `new` as the word now stands, enters the changes of a word. Where a later change is there already
(a tile behind the boundary of a Cinch adopts a WRITE_LIVE), the word before that one takes the fields written (R246, R395, R407). -/
def addChange : List (Nat × Word) → Nat → Word → Word → Word → List (Nat × Word)
  | [], full, old, _, _ => [(full, old)]
  | (f, b) :: rest, full, old, new, mask =>
    if f < full then (full, old) :: (f, b) :: rest
    else if f = full then (f, b) :: rest
    else (f, merge b new mask) :: addChange rest full b new mask

/-- The changes a word keeps when its masked bits change at a full count (R407, R408). -/
def prevOf (m : SMap Prev) (k : Nat) (old new mask : Word) (full : Nat) (cinch : Bool) : Prev :=
  let p := mfind m k
  let mark := if cinch then some full else p.bind fun q => q.cinch
  match addChange ((p.map fun q => q.changes).getD []) full old new mask with
  | (f, b) :: rest => { old := b, full := f, cinch := mark, older := rest }
  | [] => { old := old, full := full, cinch := mark }

/-- A host queue is enabled or disabled at a boundary (R225, R332): it closes its first caravan from there; what waited to be placed
in a queue no longer enabled is discarded. -/
def queueSwitch (s : State) (q full : Nat) (was : Bool) : State :=
  let now := s.queueEn q
  if now && !was then
    let s := seqEnable s q (full / 4096)
    s.setHq q { s.hq q with nextK := some (full / 4096), carried := false, skip := 0 }
  else if was && !now then
    let h := s.hq q
    let gone := (h.place.flatMap fun p => p.recs) ++ h.epochDue.toList
    gone.foldl segWritten ((s.setHq q { h with place := [], hits := [], closes := [], epochDue := none }).satInc F.qhb_rec_dropped q (h.hits.length + gone.length))
  else s

/-- What a word does as it takes effect at a full count: the word before it was `old`. -/
def wordEffect (s : State) (obj sel idx : Nat) (old : Word) (full : Nat) (cinch : Bool) : State :=
  let new := s.word obj sel idx
  let d := old ^^^ new
  if d = 0#64 then s
  else match obj, sel with
  | 1, 0 => refcCheck (if bit d 63 then laneEnChange s idx else s)
  | 1, 7 => timingChange s idx old new
  | 2, 0 => s
  | 2, 1 => showWaited s idx
  | 2, _ =>
    let x := s.group idx
    if x.mapAt = full then s else s.setGroup idx { x with mapFrom := x.mapAt, mapAt := full }
  | 3, 0 => s.put F.chst_hist_slot idx (b2n (bits new 40 39 ≠ 0 && (bits new 63 61 = 3 || bits new 63 61 = 4)))
  | 3, 16 => precisionChange s 16 idx old new
  | 3, 17 => precisionChange s 17 idx old new
  | 3, 18 => precisionChange s 18 idx old new
  | 4, 1 => pressTile s idx
  | 5, 1 => ingSettle s (s.groupOf idx)
  | 5, 5 => hqSettle (queueSwitch s idx full (bit old 63)) idx
  | 9, 0 =>
    let s := if d &&& fieldMask 34 33 = 0#64 then s else setRef s 0 0
    let s := if d &&& fieldMask 32 31 = 0#64 then s else setRef s 1 0
    let s := if d &&& fieldMask 30 20 = 0#64 then s else setRef s 2 0
    selSettle s
  | 10, 0 => s.interps.foldl (fun s e => asideTry s e.1) s
  | 13, 0 => if cinch then { s with pw := { s.pw with dirDirty := true } } else s
  | _, _ => s

/-- Puts the staged bits of a word in force from a full count on, of which a WRITE_LIVE wrote `mask` (R395, R405, R407). POWER.boot_on of domain 26 is
always 1 (R472). -/
def putInForce (s : State) (obj sel idx : Nat) (w mask : Word) (full : Nat) (cinch : Bool) : State :=
  let k := wkey obj sel idx
  let old := s.word obj sel idx
  let new := merge old w (stMask obj sel)
  let new := if obj = 13 && sel = 0 && idx = 26 then 0x8000000000000000#64 else new
  let p := prevOf s.cmd.prev k old new mask full cinch
  let s := { s with cmd := { s.cmd with prev := minsert s.cmd.prev k p } }
  wordEffect (s.setWord obj sel idx new) obj sel idx old full cinch

/-! ### WRITE_LIVE reaches a block -/

/-- A word as a die holds it now. -/
def State.held (s : State) (die obj sel idx : Nat) : Word :=
  match s.copyOf die obj sel idx with
  | some c => c.word
  | none => s.word obj sel idx

/-- The words as a die will hold them at the boundary it reaches next. -/
def State.dieView (s : State) (die : Nat) : View := fun obj sel idx =>
  match mfind s.cmd.written (wkey obj sel idx) with
  | some w => if w.waiting.contains die || w.bad.contains die then w.word else s.held die obj sel idx
  | none => s.held die obj sel idx

/-- Changes the copies that the dies hold of a word. -/
def State.setCopies (s : State) (k : Nat) (m : SMap DieCopy) : State := { s with cmd := { s.cmd with copies := mset [] s.cmd.copies k m } }

/-- Several dies use a word that WRITE_LIVE writes: each keeps a copy of its own from now on (R395). -/
def keepCopies (s : State) (obj sel idx : Nat) (dies : List Nat) : State :=
  if dies.length < 2 then s
  else
    let k := wkey obj sel idx
    let now : DieCopy := { word := s.word obj sel idx, changes := ((mfind s.cmd.prev k).map fun p => p.changes).getD [] }
    s.setCopies k (dies.foldl (fun m d => if (mfind m d).isSome then m else minsert m d now) (mget [] s.cmd.copies k))

/-- A die's copy of a word changes in its masked bits at a full count. -/
def DieCopy.change (mask w : Word) (full : Nat) (c : DieCopy) : DieCopy := { word := w, changes := addChange c.changes full c.word w mask }

/-- A die's own copy of a word takes a value at a full count; nothing where it keeps none. -/
def copyChange (s : State) (die k : Nat) (mask w : Word) (full : Nat) : State :=
  match mfind (mget [] s.cmd.copies k) die with
  | some c => s.setCopies k (minsert (mget [] s.cmd.copies k) die (c.change mask w full))
  | none => s

/-- A WRITE_LIVE's entry after a die has adopted its word, or found its group inconsistent; no entry once every die has it. -/
def noteAdopt (s : State) (k die : Nat) (w : Written) (ok : Bool) : State :=
  let bad := w.bad.filter (· ≠ die)
  let x : Written := { w with waiting := w.waiting.filter (· ≠ die), bad := if ok then bad else bad ++ [die] }
  let m := if x.waiting.isEmpty && x.bad.isEmpty then merase s.cmd.written k else minsert s.cmd.written k x
  { s with cmd := { s.cmd with written := m } }

/-- R246, R395, R398: a die reaches a boundary after a WRITE_LIVE and adopts the word; a dependent group that it finds inconsistent it keeps,
and raises CONFIG_MISMATCH. A tile reaches the end of its oldest open caravan, every other block the next caravan boundary. -/
def execWriteLiveAdopt (die obj sel idx : Nat) (s : State) : Res :=
  let k := wkey obj sel idx
  match mfind s.cmd.written k with
  | none => .next s
  | some w =>
    let users := s.wordDies obj sel idx w.word
    if !(w.waiting.contains die || w.bad.contains die) || !users.contains die then .next s
    else
      let tile := if obj = 3 && sel < 4 then some (chanTile idx) else if obj = 4 then some idx else none
      let at1 := match tile with
        | some t => (s.k0 t + 1) * 4096
        | none => nextBoundary s.full
      let s := if tile.isNone then advanceFull s at1 else s
      let broken := s.brokenMask (s.dieView die) obj sel idx
      let ok := broken = 0#64
      let s := copyChange s die k w.mask (merge w.word (s.held die obj sel idx) broken) at1
      let s := if users.head? = some die then putInForce s obj sel idx (merge w.word (s.word obj sel idx) broken) w.mask at1 false else s
      let s := noteAdopt s k die w ok
      .next (if ok || w.bad.contains die then s else raise s (dieSource die 0) 0x0A 0 false)

/-! ### A die loads from the configuration store -/

/-- A block of a die comes on and loads a word that WRITE_LIVE has written from the configuration store; of a group that WRITE_LIVE left
inconsistent it uses the reset values, and raises CONFIG_MISMATCH (R398, R451). -/
def loadWord (die obj sel : Nat) (s : State) (idx : Nat) : State :=
  let k := wkey obj sel idx
  let w := s.liveCopy obj sel idx
  let ok := pairOk obj sel w
  let use := if ok then w else merge w (resetWord obj sel idx) (pairMask obj sel)
  let s := if (mget [] s.cmd.copies k).isEmpty then s.setWord obj sel idx use
    else s.setCopies k (minsert (mget [] s.cmd.copies k) die { word := use, changes := [] })
  let s := match mfind s.cmd.written k with
    | some x => noteAdopt s k die x ok
    | none => s
  if ok then s else raise s (dieSource die 0) 0x0A 0 false

/-- The words written by WRITE_LIVE that a die has not adopted or keeps a copy of. -/
def State.toLoad (s : State) (die : Nat) : List Nat :=
  distinct ((s.cmd.written.filter fun e => e.2.waiting.contains die || e.2.bad.contains die).map (fun e => e.1) ++
    (s.cmd.copies.filter fun e => (mfind e.2 die).isSome).map fun e => e.1)

/-- A die loads the words of those of its blocks that have come on (R398, R451). -/
def loadDie (s : State) (die : Nat) (mine : Nat → Nat → Nat → Bool) : State :=
  ((s.toLoad die).filter fun k => mine (keyObj k) (keySel k) (keyIdx k)).foldl (fun s k => loadWord die (keyObj k) (keySel k) s (keyIdx k)) s

/-- What READ_OBJ returns of a word that several dies use is the copy of the first of them that is on (R394): it follows a change of that
die. -/
def followHome (s : State) : State :=
  s.cmd.copies.foldl (fun s e =>
    let obj := keyObj e.1
    let sel := keySel e.1
    let idx := keyIdx e.1
    match (s.wordDies obj sel idx (s.word obj sel idx)).head?.bind (mfind e.2) with
    | some c => if c.word = s.word obj sel idx then s else s.setWord obj sel idx c.word
    | none => s) s

end Sys2Proof.Machine
end

