-- ==== Sys2Proof/Machine/Power.lean ====
section
/-! DEFINITION. Power domains (14_power_startup.md, R443 to R453): what a domain holds, switching it, POWER_DOMAIN, the power cycle of the fault
collector, and thermal shutdown (R481). -/

namespace Sys2Proof.Machine

/-! ### Erg space -/

/-- The Erg space of each available stack holds the ingress and host quotas of its lane die, the reserve and its share of core-die spill
(R316); `v` gives the words and `avail` the available stacks. The stacks over which the rule fails. -/
def State.ergOver (s : State) (v : View) (avail : List Nat) : List Nat :=
  let spill := bits (v 7 0 0) 63 58 * 1024 + sumOver (fun t => bits (v 4 6 t) 63 56) (s.places 4 6)
  let host := fun (n : Nat) => sumOver (fun q => let w := v 5 5 q; if bit w 63 && homeOf w = n then bits w 52 41 else 0) (distinct (0 :: s.places 5 5))
  let lane := fun (n : Nat) => sumOver (fun l => if l / 256 = n then bits (v 5 1 l) 63 54 else 0) (s.places 5 1)
  let defLane := fun (n : Nat) => (256 - ((s.places 5 1).filter fun l => l / 256 = n).length) * bits (resetWord 5 1 0) 63 54
  if avail.isEmpty && spill ≠ 0 then [0] else avail.filter fun n => decide (16384 * avail.length < avail.length * (host n + lane n + defLane n + 1024) + spill)

/-- The stacks available while the given domains are on (R444). -/
def stacksOf (on : Nat → Bool) : List Nat := (List.range 4).filter fun n => on (28 + n / 2) && on (4 * n)

/-- Shows the available stacks (R472). -/
def showStacks (s : State) : State := s.put F.pwg_stacks 0 (sumOver (fun n => 2 ^ n) (stacksOf s.domOn))

/-- A channel is in mode 2 and its tile has an Erg extension, by the words in force (R448). -/
def State.extendsHistory (s : State) (c : Nat) : Bool :=
  s.modeAt c s.full = 2 && s.getFor F.thc_erg_ext (chanTile c) s.full ≠ 0

/-- Spill of the core dies is live (R448): a segment is outstanding, a trigger definition is not DISARMED by now, or a tile with an extension holds a
channel of mode 2. -/
def State.spillLive (s : State) : Bool :=
  !s.segs.isEmpty ||
    (s.defs.any fun e => (armSettle s (e.1 / 8) (e.1 % 8)).get F.trsa_tstate (e.1 / 8 * 16 + e.1 % 8) ≠ 0) ||
    (s.listed 3 0).any s.extendsHistory

/-! ### What is lost with a domain -/

/-- The words a domain holds are lost, with their pending staged values (R446). -/
def dropWords (s : State) (d : Nat) : State :=
  let keep := fun (k : Nat) => s.wordDomain (keyObj k) (keySel k) (keyIdx k) ≠ some d
  { s with
    regs := s.regs.filter fun e => keep e.1
    cmd := { s.cmd with
      staged := s.cmd.staged.filter fun e => keep e.1
      written := s.cmd.written.filter fun e => keep e.1
      copies := s.cmd.copies.filter fun e => keep e.1
      prev := s.cmd.prev.filter fun e => keep e.1 } }

/-- A tile without its contents. Its map and a tile-map change in progress stay (R446). -/
def Tile.emptied (x : Tile) (k0 : Nat) : Tile :=
  { Tile.init with k0 := k0, remap := x.remap, held := x.held, lastRemap := x.lastRemap, dead := x.dead }

/-- The tiles of a core-die domain. -/
def domainTiles (d : Nat) : List Nat := upTo ((d - 16) / 2 * 64 + (d - 16) % 2 * 32) 32

/-- A hit of a frame that is lost at its tile before it has met its fate counts in drops: with its frame's commit, or at once if that has been (R338). -/
def lostHit (s : State) (it : TItem) : State :=
  match it with
  | .hit h =>
    match (s.ing h.src).frames.find? fun f => f.seq = h.frame with
    | some f => putFrame s h.src { f with lost := f.lost + 1 }
    | none => dropGroup s h.src 1
  | _ => s

/-- What the tiles of a core-die domain hold of frames, and what is on its way to them, is lost (R338, R446). -/
def dropArrivals (s : State) (d : Nat) : State :=
  let mine := fun (t : Nat) => tileDomain t = d
  let held := (s.tiles.filter fun e => mine e.1).flatMap fun e => e.2.prov
  let sent := s.toTile.flatMap fun e => (e.2.filter fun x => mine (x.1 / 2048)).map fun x => x.2
  let s := (held ++ sent).foldl lostHit s
  { s with
    toTile := mall [] s.toTile fun xs => xs.filter fun x => !mine (x.1 / 2048)
    ingress := mall Ingress.init s.ingress fun x => { x with frames := x.frames.map fun (f : IFrame) => { f with all := f.all.filter fun t => !mine t } } }

/-- What the tiles of a core-die domain hold is lost (R446). -/
def dropTiles (s : State) (d : Nat) : State :=
  let s := s.namedQueues.foldl (seqPass · (s.full / 4096) ·) (dropArrivals s d)
  let mine := fun (t : Nat) => tileDomain t = d
  let chan := fun (c : Nat) => mine (chanTile c)
  let die := (d - 16) / 2
  { s with
    tiles := s.tiles.foldl (fun m e => if mine e.1 then mset Tile.init m e.1 (e.2.emptied 0) else m) s.tiles
    accs := s.accs.filter fun e => !chan e.1
    conds := s.conds.filter fun e => !chan e.1
    decims := s.decims.filter fun e => !chan e.1
    lastStats := s.lastStats.filter fun e => !chan e.1
    statsFrom := s.statsFrom.filter fun e => !chan e.1
    gateDone := s.gateDone.filter fun e => !mine (e.1 / 4096)
    coreDefs := if s.coreOn die then s.coreDefs else s.coreDefs.filter fun e => e.1 / 2048 ≠ die }

/-- A host queue loses what it holds (R446, R453): its records, and the rest of a unit that was coming in. -/
def dropQueue (s : State) (q : Nat) (r : List Rec) : State :=
  let h := s.hq q
  let s := s.setHq q { (h.repack r) with incoming := h.incoming.dropWhile fun x => !x.first, inCaravan := false, caravanLost := false, dropping := false, mid := 0 }
  let s := if h.flush.isSome && r.isEmpty then flushDone s q else s
  let gone := (h.incoming.takeWhile fun x => !x.first)
  gone.foldl segWritten s

/-- The host queues homed on a lane die that have a configuration of their own or hold something. -/
def State.homed (s : State) (n : Nat) : List Nat :=
  (distinct (0 :: s.places 5 5 ++ s.hqs.map fun e => e.1)).filter fun q => s.queueDie q = n

/-- The lines of a tile's Erg extension on a stack are lost, each dropped as under R297. -/
def dropExt (n : Nat) (s : State) (tile : Nat) : State :=
  let x := s.tile tile
  let lines := (upTo 0 x.extOn.length).map fun i => ((x.ext.drop (8 * i)).take 8, x.extOn.getD i 0)
  let stay := lines.filter fun e => e.2 ≠ n
  let floor := s.neededFrom tile s.full
  let s := s.setTile tile { x with ext := stay.flatMap fun e => e.1, extOn := stay.map fun e => e.2 }
  (lines.filter fun e => e.2 = n).foldl (fun s e => dropLine s tile e.1 (decide (floor ≤ newest e.1))) s

/-- The pieces of a segment with a buffer on a stack are dropped (R307). -/
def dropPieces (n : Nat) (s : State) (desc : Nat) : State :=
  match mfind s.segs desc with
  | some g =>
    if !g.built || g.st = 1 then s
    else
      let lost := g.bufOn.filter fun e => e.2.contains n
      let s := freeBufs s g.part (sumOver (fun e => e.2.length) lost)
      let g := lost.foldl (fun (g : Seg) e => g.dropPiece e.1) g
      segPlace { s.setSeg desc g with pieces := s.pieces.filter fun p => !(p.desc = desc && lost.any fun e => e.1 = p.tile) } desc
  | none => s

/-- The records of a host queue's Erg middle are lost, with the rest of their units (R326). -/
def dropMiddle (s : State) (q : Nat) : State :=
  let h := s.hq q
  if h.mid = 0 then s
  else
    let keep := keepUnits h.inMiddle false h.recs
    let s := (s.setHq q { h.repack keep with mid := 0 }).satInc F.qhb_rec_dropped q (h.recs.length - keep.length)
    hqSettle (s.satInc F.qhs_rec_ecc q (h.recs.filter h.inMiddle).length) q

/-- The frames of a lane ingress queue with words in its Erg middle that have not been converted. -/
def Ingress.midFrames (x : Ingress) : List IFrame :=
  let low := (((x.frames.head?.map fun f => f.start).getD x.wp) / 8 + 8) * 8
  if x.mid = 0 then []
  else x.frames.filter fun f => f.stage = 0 && decide (f.start < low + 8 * x.mid) && decide (low < f.start + f.words.length)

/-- The frames of a lane ingress queue's Erg middle that have not been converted are lost (R325). -/
def dropFrames (s : State) (g : Nat) : State :=
  let x := s.ing g
  if x.mid = 0 then s
  else
    let lost := x.midFrames
    let stay := x.frames.filter fun f => !lost.contains f
    let s := s.setIng g { x with frames := stay, mid := 0, wp := if stay.isEmpty then ceilDiv x.wp 8 * 8 else x.wp }
    let s := (dropGroup s g (sumOver (fun (f : IFrame) => f.hits) lost)).satInc F.qis_frames_ecc g lost.length
    ingSettle (gapNote s g) g

/-- The spill of a stack is lost (R15, R446, R453): the middles of the queues beside it and the blocks of core-die spill on it, each as its owner accounts for
an uncorrectable word; and a session of FW_UPDATE loses its image. -/
def dropStack (s : State) (n : Nat) : State :=
  let s := (s.tiles.map fun e => e.1).foldl (dropExt n) s
  let s := (s.segs.map fun e => e.1).foldl (dropPieces n) s
  let s := (s.homed n).foldl dropMiddle s
  let s := ((s.ingress.map fun e => e.1).filter fun g => g / 256 = n).foldl dropFrames s
  match s.cmd.fw with
  | some f => if f.direct then s else { s with cmd := { s.cmd with fw := none } }
  | none => s

/-- What a lane cluster holds is lost (R446): its lanes are DOWN already. -/
def dropLanes (s : State) (d : Nat) : State :=
  let ls := upTo (64 * d) 64
  let s := ls.foldl (fun s l => calOff (s.setLane l { LaneX.init with retired := (s.lane l).retired }) (512 + l)) s
  let s := ls.foldl (fun s l => s.setModel l Model.init) s
  let s := (s.ingress.filter fun e => laneDomain e.1 = d).foldl (fun s e => dropIngress s e.1) s
  if d % 4 = 0 then (s.homed (d / 4)).foldl (fun s q => dropQueue s q []) s else s

/-- What the precision-input island holds is lost (R446). -/
def dropPrecision (s : State) : State :=
  (upTo 0 512).foldl calOff { s with comps := [], inputs := [], pgroups := [], ivals := [], anchorQ := [] }

/-- A retired lane reads RETIRED (R160). -/
def keepRetired (s : State) (d : Nat) : State :=
  (upTo (64 * d) 64).foldl (fun s l => if (s.lane l).retired then s.put F.lsa_state l 10 else s) s

/-! ### Switching a domain -/

/-- A domain is stopped and switched off (R446, R450), and takes a state code. -/
def domainStop (s : State) (d code : Nat) : State :=
  let before := stacksOf s.domOn
  let s := if d < 16 then lanesOff s d else s
  let s := s.put F.pws_pstate d code
  let s := (before.filter fun n => !s.stackOn n).foldl dropStack s
  let s := if d < 16 then dropLanes s d else if d < 26 then dropTiles s d else if d = 27 then dropPrecision s else s
  let s := dropWords s d
  let s := if d < 16 then keepRetired s d else followHome s
  showStacks s

/-- A domain is ON: its words come from the configuration store, retirements are reapplied, and its blocks start (R398, R451). -/
def domainStart (s : State) (d : Nat) : State :=
  let was := s.coreOn ((d - 16) / 2)
  let s := showStacks (s.put F.pws_pstate d 3)
  if d < 16 then
    let s := (upTo (64 * d) 64).foldl (fun s l => calOn s (512 + l)) s
    let s := loadDie s (8 + d / 4) fun obj sel idx =>
      if obj = 5 && 5 ≤ sel then d % 4 = 0 && s.queueDie idx = d / 4 else obj ≤ 5 && laneDomain idx = d
    lanesOn s d
  else if d < 26 then
    let die := (d - 16) / 2
    let k0 := nextBoundary s.full / 4096 - s.tb.base
    let s := (domainTiles d).foldl (fun s t => s.setTile t ((s.tile t).emptied k0)) s
    if was then s
    else followHome (loadDie s die fun obj _ _ => decide (6 ≤ obj))
  else if d = 27 then
    let s := (upTo 0 512).foldl calOn s
    loadDie s 15 fun obj sel _ => obj = 3 && 4 ≤ sel
  else s

/-- The domains that need a domain on (R443). -/
def dependents (d : Nat) : List Nat := if d < 16 && d % 4 = 0 then [d + 1, d + 2, d + 3] else []

/-- The domain that a domain needs on (R443). -/
def neededBy (d : Nat) : List Nat := if d < 16 && d % 4 ≠ 0 then [d / 4 * 4] else []

/-- The die of a switchable domain lies among those whose sensors are above the limit (R481). -/
def State.hotDomain (s : State) (d : Nat) : Bool :=
  s.pw.hot.any fun die =>
    if die < 5 then d = 16 + 2 * die || d = 17 + 2 * die
    else if 8 ≤ die ∧ die ≤ 11 then (d < 16 && d / 4 = die - 8) || d = 28 + (die - 8) / 2
    else d = 27

/-- A switch of a domain changes the available stacks (R449, R472). -/
def State.changesStacks (s : State) (d : Nat) (on : Bool) : Bool :=
  stacksOf s.domOn ≠ stacksOf fun x => if x = d then on else s.domOn x

/-- A domain will return to ON from a power cycle (R453). -/
def State.cycling (s : State) (d : Nat) : Bool := s.get F.pws_pstate d = 5 && s.pw.cycles.any fun y => y.back.contains d

/-- Every domain that a domain needs is on (R16, R443). -/
def State.fed (s : State) (d : Nat) : Bool := (neededBy d).all s.domOn

/-- The checks of R449 that follow the first, for a domain whose state differs from the one asked for: the status of the first that fails.
A domain of a die that is too hot may not be switched on (R481). -/
def powerCheck (s : State) (d : Nat) (on : Bool) : Option Nat :=
  let avail := stacksOf fun x => if x = d then on else s.domOn x
  let chans := (s.places 3 0).filter fun c => tileDomain (chanTile c) = d
  let live := fun (c : Nat) =>
    bits (s.word 3 0 c) 63 61 ≠ 0 || bits (s.latest 3 0 c) 63 61 ≠ 0 ||
      match mfind s.cmd.staged (wkey 3 0 c) with
      | some x => bits x.word 63 61 ≠ 0
      | none => false
  let dies := if d = 28 then [0, 1] else if d = 29 then [2, 3] else []
  if on && (s.get F.pws_pstate d = 6 || !Nat.testBit s.pw.rails d) then some stNoResource
  else if on && s.hotDomain d then some stNoResource
  else if on && (neededBy d).any (fun x => !s.domOn x) then some stBadParam
  else if !on && (dependents d).any (fun x => s.domOn x || s.cycling x) then some stBadParam
  else if !on && d < 16 && d % 4 = 0 && s.enabledQueues.any (fun q => s.queueDie q = d / 4) then some stBadParam
  else if !on && 16 ≤ d && d < 26 && chans.any live then some stBadParam
  else if !on && dies.any (fun n => (upTo (256 * n) 256).any fun l => s.laneState l ≠ 0 && s.laneState l ≠ 10) then some stBadParam
  else if !on && s.enabledQueues.any (fun q => dies.contains (s.queueDie q)) then some stBadParam
  else if s.changesStacks d on && s.spillLive then some stBadParam
  else if s.changesStacks d on && !(s.ergOver s.liveCopy avail).isEmpty then some stNoResource
  else none

/-- A power cycle in progress changes the available stacks (R453, R472). -/
def State.cycleStacks (s : State) : Bool :=
  s.pw.cycles.any fun y => stacksOf s.domOn ≠ stacksOf fun d => s.domOn d || y.back.contains d

/-- An accepted POWER_DOMAIN begins (R450, R451): RAMP or STOPPING. -/
def powerBegin (s : State) (c : Cmd) (d : Nat) (on : Bool) : State :=
  let last := (s.cmd.gone.filter fun g => g.reply.isNone).foldl (fun m g => max m g.full) 0
  let op : DomOp := { cmd := c, on := on, until1 := last, waits := false }
  let s := if s.changesStacks d on then s.put F.pwg_avail_change 0 1 else s
  { (s.put F.pws_pstate d (if on then 1 else 4)) with pw := { s.pw with ops := minsert s.pw.ops d op } }

/-- A domain is in a power cycle (R453). -/
def State.inCycle (s : State) (d : Nat) : Bool := s.pw.cycles.any fun y => y.back.contains d || y.domain = d

/-- POWER_DOMAIN (R449 to R451, R453). -/
def powerBody (on : Bool) (c : Cmd) (s : State) : Result :=
  checked c true 1 <|
    let d := bits (c.par 0) 4 0
    refuseIf (stray (c.par 0) [(4, 0)] || decide (30 ≤ d) || d = 26) stBadParam 1 <|
    noMore c 1 <|
    if s.inCycle d then .later { s with pw := { s.pw with ops := minsert s.pw.ops d { cmd := c, on := on, until1 := 0, waits := true } } }
    else if s.domOn d = on then .done s stOk 0 []
    else match powerCheck s d on with
      | some st => .fail st 0 []
      | none => .later (powerBegin s c d on)

/-- POWER_DOMAIN, on. -/
def execPowerDomainOn (c : Cmd) (s : State) : Res := .next (runCmd 0x60 c (powerBody true c) s)
/-- POWER_DOMAIN, off. -/
def execPowerDomainOff (c : Cmd) (s : State) : Res := .next (runCmd 0x60 c (powerBody false c) s)

/-- A switch has ended: it is counted, no longer in progress, and answered. -/
def powerDone (s : State) (d : Nat) (op : DomOp) (stat : Nat) : State :=
  let s := { (s.put F.pwg_avail_change 0 (b2n s.cycleStacks)) with pw := { s.pw with ops := merase s.pw.ops d } }
  finish s op.cmd 0x60 stat 0 []

/-- R446, R450: once every CINCH replied before has reached its boundary, the domain is stopped, isolated and switched off, and POWER_DOMAIN
replies. -/
def execDomainOffComplete (domain : Nat) (s : State) : Res :=
  let d := domain
  match mfind s.pw.ops d with
  | some op =>
    if op.on || op.waits || s.cmd.gone.any (fun g => decide (g.full ≤ op.until1)) then .next s
    else if s.get F.pws_pstate d = 4 then
      .next (powerDone ((domainStop s d 0).satInc F.pws_switches d 1) d op stOk)
    else .next (powerDone s d op stOk)
  | none => .next s

/-- R446, R451: the ramped domain is initialised and loaded, and POWER_DOMAIN replies. A domain that a thermal shutdown has switched
off meanwhile stays off. -/
def execDomainOnComplete (domain : Nat) (s : State) : Res :=
  let d := domain
  match mfind s.pw.ops d with
  | some op =>
    if !op.on || op.waits then .next s
    else if (s.get F.pws_pstate d = 1 || s.get F.pws_pstate d = 2) && s.fed d then
      .next (powerDone ((domainStart s d).satInc F.pws_switches d 1) d op stOk)
    else .next (powerDone (if s.get F.pws_pstate d = 1 || s.get F.pws_pstate d = 2 then s.put F.pws_pstate d 0 else s) d op stNoResource)
  | none => .next s

/-! ### The collector's power cycle -/

/-- What the tiles of a core-die domain hold, counted as lost by each tile's element, with the sums of their channels' gates (R417, R453). -/
def loseTiles (s : State) (d : Nat) : State :=
  let tiles := (s.tiles.map fun e => e.1).filter fun t => tileDomain t = d
  let chans := (distinct (s.accs.map fun e => e.1)).filter fun c => tileDomain (chanTile c) = d
  let s := tiles.foldl (fun s t => dataLost s (s.tileSource t s.full) ((s.tile t).hits.length + (s.tile t).ring.length)) s
  chans.foldl (fun s c => dataLost s (s.tileSource (chanTile c) s.full) (s.sumEdges c)) s

/-- What the queues of a lane cluster hold, counted as lost by each queue's element, the words of elastic buffers by their lanes' (R325, R326, R453). -/
def loseQueues (s : State) (d : Nat) : State :=
  let s := (upTo (64 * d) 64).foldl (fun s l => dataLost s l (s.lane l).fill) s
  let s := (s.ingress.filter fun e => laneDomain e.1 = d).foldl (fun s e =>
    dataLost (s.satInc F.qis_frames_ecc e.1 e.2.frames.length) (0x0400 + e.1) (sumOver (fun (f : IFrame) => f.hits) e.2.frames)) s
  if d % 4 ≠ 0 then s
  else (s.homed (d / 4)).foldl (fun s q =>
    let rs := (s.hq q).recs
    dataLost ((s.satInc F.qhb_rec_dropped q rs.length).satInc F.qhs_rec_ecc q rs.length) (0x4000 + q) (recWords rs)) s

/-- What a stack holds of the core dies, and of queues whose domain stays on, counted as lost by the stack (R417, R453). -/
def loseStack (s : State) (n : Nat) : State :=
  let ext := sumOver (fun (e : Nat × Tile) => sumOver (fun i => if e.2.extOn.getD i 0 = n then ((e.2.ext.drop (8 * i)).take 8).length else 0) (upTo 0 e.2.extOn.length)) s.tiles
  let piece := fun (g : Seg) (t : Nat) => (g.hits.filter fun h => chanTile h.chan = t).length
  let pieces := sumOver (fun (e : Nat × Seg) =>
    if e.2.built && e.2.st ≠ 1 then sumOver (fun b => if b.2.contains n then piece e.2 b.1 else 0) e.2.bufOn else 0) s.segs
  let frames := sumOver (fun (e : Nat × Ingress) => if e.1 / 256 = n then sumOver (fun (f : IFrame) => f.hits) e.2.midFrames else 0) s.ingress
  let recs := sumOver (fun q => recWords ((s.hq q).recs.filter (s.hq q).inMiddle)) (s.homed n)
  dataLost s (dieSource (8 + n) 5) (ext + pieces + frames + recs)

/-- What a domain about to be cycled, and a stack that becomes unavailable with it, hold is lost: each owner accounts for it as for an uncorrectable
word (R453). -/
def cycleLoss (s : State) (d : Nat) : State :=
  let s := if d < 16 then loseQueues s d else if d < 26 then loseTiles s d
    else if d = 27 then s.anchorQ.foldl (fun s e => s.satInc F.qan_prec_drops e.1 e.2.length) s else s
  ((stacksOf s.domOn).filter fun n => d = 28 + n / 2).foldl loseStack s

/-- One domain of a power cycle is stopped (R453). One that is STOPPING goes off now, and stays off; the sums of a core die's open gates carry LOST and
PARTIAL. -/
def cycleStop (s : State) (d : Nat) : State :=
  let chans := if 16 ≤ d ∧ d < 26 then (s.listed 3 0).filter fun c => tileDomain (chanTile c) = d && s.statsOn c s.full else []
  let lost := chans.flatMap fun c => (s.gatesOpen c).map fun g => (c, s.profileOf c s.full, g.s)
  let s := cycleLoss s d
  let s := if s.get F.pws_pstate d = 4 then (domainStop s d 0).satInc F.pws_switches d 1 else (domainStop s d 5).satInc F.pws_cycles d 1
  lost.foldl (fun s e => editAcc s e.1 e.2.1 e.2.2 (Acc.lost (nextBoundary s.full))) s

/-- A FATAL expiry cycles domains and those that need them (R426, R453); each that was on returns to ON. -/
def powerCycle (s : State) (ds : List Nat) : State :=
  ds.foldl (fun s d =>
    let all := (d :: dependents d).filter s.domOn
    let back := all.filter fun x => s.get F.pws_pstate x ≠ 4
    let s : State := all.reverse.foldl cycleStop s
    if back.isEmpty then s
    else
      let s : State := { s with pw := { s.pw with cycles := s.pw.cycles ++ [{ domain := d, back := back }] } }
      if s.cycleStacks then s.put F.pwg_avail_change 0 1 else s) s

/-- A POWER_DOMAIN that waited for a cycle of its domain is checked (R449, R453). -/
def powerResume (s : State) (d : Nat) : State :=
  match mfind s.pw.ops d with
  | some op =>
    if !op.waits || s.inCycle d then s
    else if s.domOn d = op.on then powerDone s d op stOk
    else match powerCheck s d op.on with
      | some st => powerDone s d op st
      | none => powerBegin s op.cmd d op.on
  | none => s

/-- R453: a power cycle ends, and the domains that were on return to ON. -/
def execPowerCycleComplete (domain : Nat) (s : State) : Res :=
  match s.pw.cycles.find? fun y => y.domain = domain with
  | none => .next s
  | some y =>
    let s := { s with pw := { s.pw with cycles := s.pw.cycles.erase y } }
    let s := y.back.foldl (fun s d => if s.get F.pws_pstate d = 5 then (if s.hotDomain d || !s.fed d then s.put F.pws_pstate d 0 else domainStart s d) else s) s
    let s := if s.pw.ops.any fun e => !e.2.waits then s else s.put F.pwg_avail_change 0 (b2n s.cycleStacks)
    .next ((distinct (y.domain :: y.back)).foldl powerResume s)

/-! ### Monitors -/

/-- The switchable domains of a die, those that need one of them included (R481), in the order they go off. -/
def dieDomains (die : Nat) : List Nat :=
  if die < 5 then [16 + 2 * die, 17 + 2 * die]
  else if 8 ≤ die ∧ die ≤ 11 then [4 * (die - 8) + 3, 4 * (die - 8) + 2, 4 * (die - 8) + 1, 4 * (die - 8), 28 + (die - 8) / 2]
  else if die = 15 then [27] else []

/-- The monitored quantity of a die leaves or returns to its limits (R420, R480). -/
def setMonitor (s : State) (die : Nat) (outside : Bool) : State :=
  let n := dieSource die 6
  { s with flt := { s.flt with srcs := mmod SrcX.init s.flt.srcs n fun x => { x with present := outside } } }

/-- R480: a rail outside ±6 % for 1 ms, or a junction above 110 °C, raises a monitor fault; `outside` false is its end. -/
def execSupplyMonitor (die : Nat) (outside : Bool) (s : State) : Res :=
  if !isSource (dieSource die 6) then .next s
  else
    let s := setMonitor s die outside
    .next (if outside then raise s (dieSource die 6) 0x16 0 false else s)

/-- R481: a junction above 125 °C switches off every switchable domain of its die; on the anchor die FAULT_N is held low besides. -/
def execThermalShutdown (die : Nat) (s : State) : Res :=
  if !isSource (dieSource die 6) then .next s
  else
    let s := raise (setMonitor s die true) (dieSource die 6) 0x16 0 false
    let off := (dieDomains die).filter s.domOn
    let s := off.foldl (fun s d => (domainStop s d 0).satInc F.pws_switches d 1) s
    let s := (dieDomains die).foldl (fun s d => if [1, 2, 5].contains (s.get F.pws_pstate d) then s.put F.pws_pstate d 0 else s) s
    .next { s with pw := { s.pw with hot := distinct (s.pw.hot ++ [die]), hotAnchor := s.pw.hotAnchor || die = 15 } }

/-- R481: every sensor of a die reads below 100 °C. -/
def execThermalRecovery (die : Nat) (s : State) : Res :=
  .next { s with pw := { s.pw with hot := s.pw.hot.filter (· ≠ die), hotAnchor := s.pw.hotAnchor && die ≠ 15 } }

end Sys2Proof.Machine
end

