-- ==== Sys2Proof/Machine/Faults.lean ====
section
/-! DEFINITION. The fault collector (13_faults.md, R417 to R442): acceptance, verdicts, retirement, escalation, FAULT_N, the history,
scrubbing and Awl. -/

namespace Sys2Proof.Machine

/-! ### Sources -/

/-- A source behind its words. -/
def State.src (s : State) (n : Nat) : SrcX := mget SrcX.init s.flt.srcs n
/-- Changes a source. -/
def State.setSrc (s : State) (n : Nat) (x : SrcX) : State := { s with flt := { s.flt with srcs := mset SrcX.init s.flt.srcs n x } }

/-- A group isolation source (R418, R429). -/
def isIsolation (n : Nat) : Bool := decide (0x0800 ≤ n ∧ n ≤ 0x0BFF)

/-- A Saddle receiver source (R418). -/
def isSaddle (n : Nat) : Bool := decide (0x8000 ≤ n ∧ n ≤ 0x80FF) && n % 16 = 1

/-- The cause of a source's last accepted fault is present (R198, R420). -/
def State.causePresent (s : State) (n : Nat) : Bool :=
  let die := n / 16 % 16
  match s.get F.fsa_last_cause n with
  | 0x06 => s.laneState n = 9
  | 0x08 => mget 0 s.lref (die - 8) = 1
  | 0x0A => s.cmd.written.any fun e => e.2.bad.contains die
  | 0x10 => decide (s.get F.ltc_distrust_limit (n - 0x0800) < s.distrustNow (n - 0x0800))
  | 0x11 => s.selState ≠ 2 && s.selState ≠ 3
  | 0x12 => decide (s.selected < 3) && s.refState s.selected = 5
  | 0x13 => s.flag F.refst0_ambiguous 0
  | 0x14 => s.selState = 4
  | 0x16 => (s.src n).present
  | _ => false

/-- The element that a fault counts against (R431): its source's, or the wire of a Saddle receiver. -/
def elementKey (n sub : Nat) : Nat := if isSaddle n then 2 ^ 32 + n * 2 ^ 14 + sub else n

/-- The permanence window in ticks (R431, R442). -/
def State.faultWindow (s : State) : Nat := s.get F.fgc_window 0 * 16000000

/-- The times of the counted faults of the last accepted fault's element, oldest first (R431, R433). -/
def State.countedTimes (s : State) (n : Nat) : List Nat :=
  if s.get F.fsa_last_cause n = 0x17 then
    match (mget [] s.flt.slotRegs n).find? fun e => e.slot = (s.src n).sub with
    | some e => e.times
    | none => []
  else mget [] s.flt.counted (elementKey n (s.src n).sub)

/-- Status word A of a source as it reads (R442). -/
def State.fsaWord (s : State) (n : Nat) : Word :=
  let left := match (s.src n).timer with
    | some t => min 4095 (ceilDiv (t - s.tb.tick) Config.milli)
    | none => 0
  let counted := ((s.countedTimes n).filter fun t => decide (s.tb.tick ≤ t + s.faultWindow)).length
  setBits (setBits (setBits (s.word 11 1 n) 51 50 (min 3 counted)) 49 49 (b2n (s.causePresent n))) 46 35 left

/-! ### FAULT_N -/

/-- FAULT_N is high (R426, R427, R456, R464, R481, R502). -/
def State.faultN (s : State) : Bool :=
  if s.tapDrives then s.tapReleases 2161
  else if s.pw.resetLow then true
  else if s.phase = 7 then false
  else if s.phase < 6 then true
  else
    let pulse : Bool := match s.flt.pulseEnd with
      | some t => decide (s.tb.tick < t)
      | none => false
    !(pulse || !s.flt.holders.isEmpty || s.pw.hotAnchor || s.flag F.fgc_fault_n_sw 0)

/-- The global status word as it reads (R442). -/
def State.fgsWord (s : State) : Word :=
  setBits (setBits (s.word 11 65 0) 6 6 (b2n s.faultN)) 5 5 (b2n (!s.flt.holders.isEmpty))

/-- R427: the FAULT_N pulse ends pulse_us after the last acceptance. -/
def execFaultNPulseEnd (s : State) : Res :=
  match s.flt.pulseEnd with
  | some t =>
    let s := advanceTo s t
    .next { s with flt := { s.flt with pulseEnd := none } }
  | none => .next s

/-! ### History -/

/-- The sub field of a history entry (R436). -/
def subField (n cause sub : Nat) : Nat := if cause = 0x17 || isSaddle n then sub else 0

/-- A history entry and its EVENT records (R436, R437): the latest 32 entries are held. -/
def addEntry (s : State) (n sev cause action : Nat) (permanent injected : Bool) (sub : Nat) : State :=
  let seq := s.get F.fgs_next_seq 0
  let w := pack [(63, 48, n), (47, 46, sev), (45, 38, cause), (37, 35, action), (34, 34, b2n permanent), (33, 33, b2n injected), (32, 19, sub), (18, 0, seq)]
  let h := s.flt.history ++ [(w, devWord s.nowFine)]
  let s := { s with flt := { s.flt with history := h.drop (h.length - 32) } }
  let s := (s.put F.fgs_next_seq 0 ((seq + 1) % 2 ^ 19)).put F.fgs_hist_fill 0 (min 32 h.length)
  eventBoth s (s.sourceOwner n) 0x08 cause stOk n [w]

/-! ### Retirement -/

/-- The logical tile that a physical tile serves (R24). -/
def State.servedBy (s : State) (n : Nat) : Option Nat :=
  let die := (n - 0x1800) / 128
  let cluster := (n - 0x1800) % 128 / 32
  (upTo (die * 64 + cluster * 16) 16).find? fun t => s.get F.tileMap_phys t = n % 32 && s.get F.tileMap_state t ≠ 2

/-- What a block of a stack's Erg holds: 64 lines of the middle of a lane ingress queue or of a host queue from a given one on, lines of a tile's history
extension, a buffer of a segment's piece, or a part of the image of a FW_UPDATE session (R15, R413). -/
inductive ErgPart where
  | ingress (g line : Nat)
  | host (q line : Nat)
  | ext (tile : Nat) (lines : List Nat)
  | piece (desc tile : Nat)
  | image
  deriving DecidableEq, Repr

/-- Numbers in runs of at most 64. -/
def chunks : Nat → List Nat → List (List Nat)
  | 0, _ => []
  | n + 1, xs => if xs.isEmpty then [] else xs.take 64 :: chunks n (xs.drop 64)

/-- The blocks of a stack's Erg that hold something. -/
def State.ergParts (s : State) (n : Nat) : List ErgPart :=
  let blocks := fun (mid : Nat) => (upTo 0 (ceilDiv mid 64)).map (· * 64)
  ((s.ingress.filter fun e => e.1 / 256 = n).flatMap fun e => (blocks e.2.mid).map (.ingress e.1)) ++
    ((s.hqs.filter fun e => s.queueDie e.1 = n).flatMap fun e => (blocks e.2.mid).map (.host e.1)) ++
    (s.tiles.flatMap fun e =>
      let on := (upTo 0 e.2.extOn.length).filter fun i => e.2.extOn.getD i 0 = n
      (chunks on.length on).map (.ext e.1)) ++
    (s.segs.flatMap fun e => if !e.2.built || e.2.st = 1 then [] else (e.2.bufOn.filter fun b => b.2.contains n).map fun b => .piece e.1 b.1) ++
    match s.cmd.fw with
    | some f => if f.direct then [] else (upTo 0 (ceilDiv f.length 4096)).map fun _ => .image
    | none => []

/-- The frames of a lane ingress queue with words in a range of its middle lines are discarded (R325), their hits lost by `source`. -/
def loseFrames (s : State) (g line n source : Nat) : State :=
  let x := s.ing g
  let low := (((x.frames.head?.map fun f => f.start).getD x.wp) / 8 + 8 + line) * 8
  let lost := x.frames.filter fun f => decide (f.start < low + 8 * n) && decide (low < f.start + f.words.length)
  ingSettle (lost.foldl (fun s f => loseFrame (if f.stage = 1 then f.all.foldl (dropItems g f) s else s) g source f) s) g

/-- The records of a host queue with words in a range of its middle lines are discarded with the rest of their units (R326), the last first. -/
def loseRecs (s : State) (q line n source : Nat) : State :=
  let h := s.hq q
  let low := (((h.recs.head?.map fun r => r.start).getD h.wp) / 8 + 8 + line) * 8
  let at1 := (upTo 0 h.recs.length).filter fun i => match h.recs[i]? with
    | some r => decide (r.start < low + 8 * n) && decide (low < r.start + r.words.length)
    | none => false
  hqSettle (at1.reverse.foldl (fun s i => loseRecord s q i source) s) q

/-- A line of a tile's Erg extension is dropped as under R297, its hits taken to lie 1 fine LSB before the next readable line, and lost by `source`. -/
def loseExt (s : State) (tile line source : Nat) : State :=
  let x := s.tile tile
  let lost := (x.ext.drop (8 * line)).take 8
  let at1 := ((x.ext.drop (8 * line + 8) ++ x.ring).head?.map fun h => h.time).getD (newest lost + 1)
  let s := putEh (s.setTile tile { x with ext := x.ext.take (8 * line) ++ x.ext.drop (8 * line + 8), extOn := x.extOn.eraseIdx line }) tile (max x.eh at1)
  let s := if decide (s.neededFrom tile s.full ≤ newest lost) then s.satInc F.thb_needed_drops tile 1 else s
  dataLost s source lost.length

/-- A piece of a segment in the Oasis is dropped (R307), its hits lost by `source`. -/
def losePiece (s : State) (desc tile source : Nat) : State :=
  match mfind s.segs desc with
  | some g =>
    let lost := (g.hits.filter fun h => chanTile h.chan = tile).length
    let s := freeBufs s g.part (mget [] g.bufOn tile).length
    let s := { s.setSeg desc (g.dropPiece tile) with pieces := s.pieces.filter fun p => !(p.desc = desc && p.tile = tile) }
    segPlace (dataLost s source lost) desc
  | none => s

/-- What a block of a stack's Erg held is lost, all of it or the `word`-th of its lines, and handled as an uncorrectable word of its owner (R417, R435). -/
def losePart (s : State) (n : Nat) (word : Option Nat) (p : ErgPart) : State :=
  let source := dieSource (8 + n) 5
  let at1 := (word.map (· % 64)).getD 0
  let count := if word.isSome then 1 else 64
  match p with
  | .ingress g line => loseFrames s g (line + at1) count source
  | .host q line => loseRecs s q (line + at1) count source
  | .ext tile lines => ((if word.isSome then [lines.getD (at1 % lines.length) 0] else lines).reverse).foldl (fun s l => loseExt s tile l source) s
  | .piece desc tile => losePiece s desc tile source
  | .image => { s with cmd := { s.cmd with fw := none } }

/-- A block of a stack's Erg is lost, all of it or one of its lines. What a block holds, if anything, and which line it is, are free values (log 4). -/
def loseBlock (s : State) (n : Nat) (whole : Bool) : State :=
  let v := (Config.freeValue s.freeCount).toNat
  let s := { s with freeCount := s.freeCount + 1 }
  match (s.ergParts n)[v / 64 % 2 ^ 22]? with
  | some p => losePart s n (if whole then none else some (v % 64)) p
  | none => s

/-- The collector retires a physical tile (R435): the logical tile it serves moves, and a spare that serves none is only marked. -/
def retireSource (s : State) (n : Nat) : State :=
  match s.servedBy n with
  | some t => retireTile s t
  | none => recordRetirement (s.put F.fsa_retired n 1) n 0 0

/-- A register line of a queue is retired (R418): head lines first, one head and one tail line stay. -/
def retireLine (s : State) (n lost : Nat) : State := recordRetirement s n 2 (if lost < 7 then lost else lost + 1)

/-- The collector retires the element of a fault, when it can be retired (R418, R432, R434, R435): the state after it. -/
def retireElement (s : State) (n cause sub : Nat) : Option State :=
  let whole := fun (t : State) => if s.flag F.fsa_retired n then none else some (recordRetirement (t.put F.fsa_retired n 1) n 0 0)
  if n ≤ 0x03FF then whole (retireLane s n)
  else if n ≤ 0x07FF then
    let g := n - 0x0400
    let x := s.ing g
    if 14 ≤ x.linesLost then none
    else some (ingSettle (retireLine (s.setIng g { x with linesLost := x.linesLost + 1 }) n x.linesLost) g)
  else if n ≤ 0x0BFF then none
  else if n ≤ 0x0FFF then whole (calRetire s (512 + (n - 0x0C00)))
  else if n ≤ 0x11FF then whole (calRetire s (n - 0x1000))
  else if n ≤ 0x17FF then none
  else if n ≤ 0x1A7F then
    if cause = 0x17 then
      let k := s.get F.fss_slots_retired n
      if 31 ≤ k || (s.retiredSlots n).contains sub then none
      else
        let s := (s.setWord 11 (4 + k) n (pack [(63, 63, 1), (13, 0, sub)])).put F.fss_slots_retired n (k + 1)
        some (recordRetirement s n 1 sub)
    else if s.flag F.fsa_retired n then none
    else some (retireSource s n)
  else if n ≤ 0x7FFF then
    let q := n - 0x4000
    let h := s.hq q
    if 14 ≤ h.linesLost then none
    else some (hqSettle (retireLine (s.setHq q { h with linesLost := h.linesLost + 1 }) n h.linesLost) q)
  else if isSaddle n then
    let k := n * 16 + sub / 1024
    if 4 ≤ mget 0 s.flt.spares k then none
    else some (recordRetirement { s with flt := { s.flt with spares := mmod 0 s.flt.spares k (· + 1) } } n 3 sub)
  else if n ≤ 0x80FF && n % 16 = 5 then
    let k := n * 16
    if 4096 ≤ mget 0 s.flt.spares k then none
    else some (loseBlock (recordRetirement { s with flt := { s.flt with spares := mmod 0 s.flt.spares k (· + 1) } } n 4 sub) (n / 16 % 16 - 8) true)
  else none

/-- Retires an element and enters it in the history (R432, R436); a physical tile whose retired slots reach the limit follows at once
(R434). None when the element cannot be retired. -/
def retireNow (s : State) (n cause sub : Nat) (permanent : Bool) : Option State :=
  let sev := s.get F.fsa_sev_held n
  match retireElement s n cause sub with
  | none => none
  | some t =>
    let inj := (s.src n).injected
    let t := addEntry t n sev cause 2 permanent inj (subField n cause sub)
    if cause = 0x17 && decide (t.get F.fgc_slot_limit 0 ≤ t.get F.fss_slots_retired n) && !t.flag F.fsa_retired n then
      some (addEntry (retireSource t n) n sev 0x17 2 true inj 0)
    else some t

/-! ### Acceptance -/

/-- A counted fault of a channel slot enters the tile's slot fault register (R433): a new slot replaces the entry whose newest fault is
oldest. -/
def countSlot (es : List SlotEntry) (slot now : Nat) : List SlotEntry :=
  match es.find? fun e => e.slot = slot with
  | some e => es.map fun x => if x.slot = slot then { x with times := (e.times ++ [now]).drop (e.times.length - 2) } else x
  | none =>
    let new : SlotEntry := { slot := slot, times := [now] }
    if es.length < 8 then es ++ [new]
    else
      let newest := fun (e : SlotEntry) => e.times.getLast?.getD 0
      let oldest := es.foldl (fun m e => min m (newest e)) now
      match es.findIdx? fun e => newest e = oldest with
      | some i => (es.eraseIdx i) ++ [new]
      | none => es

/-- Counts an accepted fault against its element (R431, R433), keeping the latest three times. -/
def countFault (s : State) (n cause sub : Nat) : State :=
  let now := s.tb.tick
  if cause = 0x17 then { s with flt := { s.flt with slotRegs := mmod [] s.flt.slotRegs n fun es => countSlot es sub now } }
  else { s with flt := { s.flt with counted := mmod [] s.flt.counted (elementKey n sub) fun ts => (ts ++ [now]).drop (ts.length - 2) } }

/-- The causes with a first recovery in R417. -/
def firstRecovery (cause : Nat) : Bool := [0x01, 0x02, 0x03, 0x04, 0x05, 0x17].contains cause

/-- A fault of a source in CLEAR is accepted (R421, R424, R425, R427, R431, R432). -/
def acceptFault (s : State) (r : FaultRep) : State :=
  let n := r.source
  let sev := s.get F.fsc_sev n
  let s := s.setSrc n { s.src n with sub := r.sub, injected := r.injected, retired := false }
  let s := (s.put F.fsa_sev_held n sev).put F.fsa_last_cause n r.cause
  let s := (s.satInc F.fsa_accepted n 1).satInc F.fgs_accepted_all 0 1
  let s := s.setWord 11 2 n (devWord s.nowFine)
  let s := if s.flag F.fsc_pulse_en n then
      { s with flt := { s.flt with pulseEnd := some (s.tb.tick + s.get F.fgc_pulse_us 0 * Config.micro) } }
    else s
  let s := countFault s n r.cause r.sub
  let times := s.countedTimes n
  let permanent := times.length = 3 && decide (s.tb.tick ≤ times.headD 0 + s.faultWindow)
  let s := addEntry s n sev r.cause (b2n (firstRecovery r.cause)) permanent r.injected (subField n r.cause r.sub)
  let s := if permanent then
      let s := s.put F.fsa_permanent n 1
      match if s.flag F.fsc_retire_en n then retireNow s n r.cause r.sub true else none with
      | some t => t.setSrc n { t.src n with retired := true }
      | none => s
    else s
  if sev = 0 then s.put F.fsa_state n (b2n (s.causePresent n || isIsolation n))
  else (s.put F.fsa_state n 1).setSrc n { s.src n with timer := some (s.tb.tick + s.get F.fsc_esc_ms n * Config.milli) }

/-- The sources of R418. -/
def sourceCount : Nat := 22926

/-- The place of the fault that the collector takes when one is named (R22, R422): another source's first, where that can wait no longer. -/
def State.faultNext (s : State) (r : FaultRep) (idx : Nat) : Nat :=
  let n := s.granted 1 sourceCount (distinct (s.flt.inflight.map fun x => x.source)) r.source
  if n = r.source then idx else s.flt.inflight.findIdx fun x => x.source = n

/-- A fault on its way reaches the collector; one of a source that is not CLEAR is lost (R421). -/
def takeFault (s : State) (idx : Nat) : State :=
  match pick s.flt.inflight idx with
  | none => s
  | some (r, rest) =>
    let s := noteGrant s 1 (distinct (s.flt.inflight.map fun x => x.source)) r.source
    let s := { s with flt := { s.flt with inflight := rest } }
    if s.get F.fsa_state r.source = 0 then acceptFault s r else s

/-- The die on which a fault source lies (R418). -/
def State.sourceDie (s : State) (n : Nat) : Nat :=
  if n ≤ 0x0FFF ∨ (0x1400 ≤ n ∧ n ≤ 0x17FF) then 8 + n % 1024 / 256
  else if 0x1800 ≤ n ∧ n ≤ 0x1A7F then (n - 0x1800) / 128
  else if 0x4000 ≤ n ∧ n ≤ 0x7FFF then 8 + s.queueDie (n - 0x4000)
  else if 0x8000 ≤ n ∧ n ≤ 0x80FF then n / 16 % 16
  else 15

/-- R22, R421 to R425: a fault on its way reaches the collector, unless one that has waited longer must come first. -/
def execFaultRaise (idx : Nat) (s : State) : Res :=
  match s.flt.inflight[idx]? with
  | none => .next s
  | some r =>
    let at1 := s.faultNext r idx
    .next (crosses s 15 (s.sourceDie ((s.flt.inflight[at1]?.getD r).source)) fun s => takeFault s at1)

/-! ### Escalation -/

/-- The action of an escalation (R425, R426, R436). An element that the verdict on the same fault has retired is not retired again. -/
def escalate (s : State) (n sev : Nat) : State :=
  let cause := s.get F.fsa_last_cause n
  let sub := (s.src n).sub
  let entry := fun (s : State) (a : Nat) => addEntry s n sev cause a false (s.src n).injected (subField n cause sub)
  if sev = 2 then
    match if s.flag F.fsc_retire_en n && !(s.src n).retired then retireNow s n cause sub false else none with
    | some t => t
    | none => entry s 5
  else if (s.srcDomains n).isEmpty then
    entry { s with flt := { s.flt with holders := s.flt.holders ++ [n] } } 4
  else entry (powerCycle s (s.srcDomains n)) 3

/-- R425, R426: a source's escalation timer expires. -/
def execEscalationExpiry (source : Nat) (s : State) : Res :=
  let n := source
  match (s.src n).timer with
  | none => .next s
  | some t =>
    let s := advanceTo s t
    let s := s.setSrc n { s.src n with timer := none }
    let sev := s.get F.fsa_sev_held n
    if s.get F.fsa_state n ≠ 1 then .next s
    else if sev = 1 then .next (if s.causePresent n || isIsolation n then s else s.put F.fsa_state n 0)
    else if sev = 0 then .next s
    else .next (escalate (s.put F.fsa_state n 2) n sev)

/-- R420, R425, R429: the cause of an OPEN source without a timer has ended. -/
def execCauseEnd (source : Nat) (s : State) : Res :=
  let n := source
  if s.get F.fsa_state n = 1 && (s.src n).timer.isNone && !s.causePresent n && !isIsolation n then .next (s.put F.fsa_state n 0)
  else .next s

/-! ### Commands -/

/-- A source returns to CLEAR (R425, R426); the isolation of its group ends with it (R198, R429). -/
def clearSource (s : State) (n : Nat) : State :=
  let s := (s.setSrc n { s.src n with timer := none }).put F.fsa_state n 0
  let s := { s with flt := { s.flt with holders := s.flt.holders.filter (· ≠ n) } }
  if isIsolation n then
    let g := n - 0x0800
    let s := s.setGroup g { s.group g with isolated := false }
    showWaited ((s.span g).foldl (fun s l => s.put F.ltsb_isolated l 0) s) g
  else s

/-- FAULT_CLEAR (R428). -/
def faultClearBody (c : Cmd) (s : State) : Result :=
  checked c false 1 <|
    let n := bits (c.par 0) 15 0
    refuseIf (stray (c.par 0) [(15, 0)] || !isSource n) stBadParam 1 <|
    noMore c 1 <|
    refuseIf (c.part ≠ 0 && c.part ≠ s.sourceHolder n) stNotOwner 0 <|
    if s.get F.fsa_state n = 0 then .done s stOk 0 []
    else if s.causePresent n then .fail stCausePresent 0 []
    else .done (clearSource s n) stOk 0 []

/-- FAULT_READ (R442). -/
def faultReadBody (c : Cmd) (s : State) : Result :=
  checked c false 1 <|
    let n := bits (c.par 0) 15 0
    refuseIf (stray (c.par 0) [(15, 0)] || !isSource n) stBadParam 1 <|
    noMore c 1 <|
    .done s stOk 0 [s.word 11 0 n, s.fsaWord n, s.word 11 2 n, s.word 11 3 n]

/-- FAULT_HISTORY (R436). -/
def faultHistoryBody (c : Cmd) (s : State) : Result :=
  checked c false 0 (noMore c 0 (.done s stOk 0 (s.flt.history.flatMap fun e => [e.1, e.2])))

/-- A source has an Awl checker (R418). -/
def hasChecker (n : Nat) : Bool :=
  isSource n && (decide (n ≤ 0x07FF) || decide (0x0C00 ≤ n ∧ n ≤ 0x11FF) || decide (0x1800 ≤ n ∧ n ≤ 0x7FFF) ||
    (decide (0x8000 ≤ n ∧ n ≤ 0x80FF) && (n % 16 = 1 || n % 16 = 5 || n % 16 = 7)))

/-- AWL (R440, R441). -/
def awlBody (c : Cmd) (s : State) : Result :=
  checked c true 1 <|
    let n := bits (c.par 0) 63 48
    refuseIf (stray (c.par 0) [(63, 48), (15, 0)] || !hasChecker n) stBadParam 1 <|
    noMore c 1 <|
    refuseIf (s.flag F.fsa_retired n) stRetired 0 <|
    refuseIf (s.srcOff n) stNoResource 0 <|
    .done { s with flt := { s.flt with awl := mset 0 s.flt.awl n (bits (c.par 0) 15 0) } } stOk 0 []

/-- FAULT_CLEAR. -/
def execFaultClear (c : Cmd) (s : State) : Res := .next (runCmd 0x59 c (faultClearBody c) s)
/-- FAULT_READ. -/
def execFaultRead (c : Cmd) (s : State) : Res := .next (runCmd 0x58 c (faultReadBody c) s)
/-- FAULT_HISTORY. -/
def execFaultHistory (c : Cmd) (s : State) : Res := .next (runCmd 0x5A c (faultHistoryBody c) s)
/-- AWL. -/
def execAwl (c : Cmd) (s : State) : Res := .next (runCmd 0x5B c (awlBody c) s)

/-! ### Detections -/

/-- A die address names a die (R12). -/
def isDie (n : Nat) : Bool := decide (n < 5) || decide (8 ≤ n ∧ n < 12) || n = 15

/-- Two dies have a Saddle link: a lane die and a core die, or the anchor die and any other (R13, R14). -/
def isLink (a b : Nat) : Bool :=
  let pair := fun (x y : Nat) => (decide (8 ≤ x ∧ x < 12) && decide (y < 5)) || (x = 15 && (decide (y < 5) || decide (8 ≤ y ∧ y < 12)))
  pair a b || pair b a

/-- R208, R417, R431, R440: a Saddle packet fails its CRC on a wire and is replayed. -/
def execSaddlePacketFail (rxDie txDie wire : Nat) (s : State) : Res :=
  if !isLink rxDie txDie || decide (1024 ≤ wire) then .next s
  else
    let (s, inj) := awlTake s (dieSource rxDie 1)
    .next (saddleFail s rxDie txDie wire inj)

/-- R417: a disagreement of voted cells that survives two votes. -/
def execVoteDisagreement (die : Nat) (s : State) : Res :=
  .next (if isDie die then raise s (dieSource die 2) 0x04 0 false else s)

/-! ### Scrubbing -/

/-- An uncorrectable word in the accumulators of a channel (R417): the sums and the histogram of the open gate are cleared, and the gate
carries LOST and PARTIAL. Accumulation resumes at the next caravan boundary. The edges that the sums held are lost by the tile (R442). -/
def accLost (s : State) (c : Nat) : State :=
  let src := s.tileSource (chanTile c) s.full
  raise (dataLost (loseSums s c) src (s.sumEdges c)) src 0x17 (c % 16384) false

/-- An uncorrectable word in a line of a history ring (R297, R298, R417): the line is dropped, its hits taken to lie 1 fine LSB before the next
readable line. -/
def ringLost (s : State) (tile line : Nat) : State :=
  let x := s.tile tile
  let lost := (x.ring.drop (8 * line)).take 8
  let src := s.tileSource tile s.full
  if lost.isEmpty then s
  else
    let rest := x.ring.drop (8 * line + 8)
    let at1 := match rest with
      | h :: _ => h.time
      | [] => newest lost + 1
    let s := putEh (s.setTile tile { x with ring := x.ring.take (8 * line) ++ rest }) tile (max x.eh at1)
    let s := if decide (s.neededFrom tile s.full ≤ newest lost) then s.satInc F.thb_needed_drops tile 1 else s
    raise (dataLost s src lost.length) src 0x01 0 false

/-- An uncorrectable word in a line of a tile's Erg extension (R297, R298, R417): the line is dropped. -/
def extLost (s : State) (tile line : Nat) : State :=
  let x := s.tile tile
  let n := dieSource (8 + x.extOn.getD line 0) 5
  if ((x.ext.drop (8 * line)).take 8).isEmpty then s else raise (loseExt s tile line n) n 0x01 0 false

/-- An uncorrectable word in a piece that a segment holds in the Oasis (R307, R417): the piece is dropped. -/
def pieceLost (s : State) (desc tile : Nat) : State :=
  match mfind s.segs desc with
  | some g =>
    let on := mget [] g.bufOn tile
    let n := dieSource (8 + on.headD 0) 5
    if !g.built || g.st = 1 || on.isEmpty then s else raise (losePiece s desc tile n) n 0x01 0 false
  | none => s

/-- An uncorrectable word in a caravan store (R417): the hit is discarded and counted in data_lost. -/
def storeLost (s : State) (tile i : Nat) (injected : Bool) : State :=
  let x := s.tile tile
  let src := s.tileSource tile s.full
  raise (dataLost (s.setTile tile { x with hits := x.hits.eraseIdx i }) src 1) src 0x01 0 injected

/-- An uncorrectable word in the anchor precision queue of a core die: the stamp is discarded and counted in prec_drops. DESIGN CHOICE (log 37): the queue is no
element of R418, and its fault is one of the anchor die's logic. -/
def anchorLost (s : State) (die i : Nat) : State :=
  let q := (mget [] s.anchorQ die).eraseIdx i
  let s := (({ s with anchorQ := mset [] s.anchorQ die q }).put F.qan_fill die q.length).satInc F.qan_prec_drops die 1
  raise s (dieSource 15 2) 0x01 0 false

/-- A word in a block of a stack's Erg is uncorrectable: it is read once again, and what its second failure loses is handled by the owner of the word (R417). -/
def blockBad (s : State) (n block : Nat) (injected : Bool) : State :=
  let k := n * 2 ^ 22 + block
  if s.flt.ergReread.contains k then
    let s := loseBlock { s with flt := { s.flt with ergReread := s.flt.ergReread.erase k } } n false
    raise s (dieSource (8 + n) 5) 0x01 block injected
  else { s with flt := { s.flt with ergReread := s.flt.ergReread ++ [k] } }

/-- Changes a frame of a lane ingress queue by its place. -/
def putFrameAt (s : State) (g i : Nat) (f : IFrame → IFrame) : State :=
  match (s.ing g).frames[i]? with
  | some x => putFrame s g (f x)
  | none => s

/-- A scrubber finds an uncorrectable word in a frame of a lane ingress queue (R325): the word is read once again, and a frame whose word fails again is
discarded, with what tiles hold of it. -/
def scrubFrame (s : State) (g i : Nat) (injected : Bool) : State :=
  match (s.ing g).frames[i]? with
  | some f =>
    if f.reread then badFrame (if f.stage = 1 then f.all.foldl (dropItems g f) s else s) g f injected
    else putFrame s g { f with reread := true }
  | none => s

/-- A scrubber finds an uncorrectable word in a record of a host queue (R326). -/
def scrubRecord (s : State) (q i : Nat) (injected : Bool) : State := hqSettle (badRecord s q i (0x4000 + q) 0 injected) q

/-- A scrubber corrects a word: the queues count it (R324, R438). -/
def scrubCorrect (s : State) (place idx : Nat) : State :=
  match place with
  | 0 => putFrameAt (countEcc s F.qib_ecc_corr F.qia_ecc_sat (idx % 1024) 1) (idx % 1024) (idx / 1024) fun (f : IFrame) => { f with reread := false }
  | 1 => countEcc s F.qha_ecc_corr F.qha_ecc_sat (idx % 16384) 1
  | 7 => { s with flt := { s.flt with ergReread := s.flt.ergReread.erase idx } }
  | _ => s

/-- A place that a scrubber can read holds a word. -/
def State.scrubHolds (s : State) (place idx : Nat) : Bool :=
  let tile := idx / 2 ^ 24
  let x := s.tile tile
  let i := idx % 2 ^ 24
  match place with
  | 0 => decide (idx / 1024 < (s.ing (idx % 1024)).frames.length)
  | 1 => decide (idx / 16384 < (s.hq (idx % 16384)).recs.length)
  | 2 => decide (tile < 320) && (if i < 4096 then decide (8 * i < x.ring.length) else decide (8 * (i - 4096) < x.ext.length))
  | 3 => validChan idx && s.statsOn idx s.full
  | 4 => decide (tile < 320) && decide (i < x.hits.length)
  | 5 => decide (idx < 1536) && (s.interp idx).inForce.isSome
  | 6 => decide (idx < 1536) && (s.interp idx).waiting.isSome
  | 7 => decide (idx / 2 ^ 22 < 4) && s.stackOn (idx / 2 ^ 22)
  | 8 => decide (idx < 1536) && (s.interp idx).n ≠ 0
  | 9 => decide (idx < 1536) && (s.interp idx).first.isSome
  | 10 => (mfind s.segs (idx / 512)).isSome
  | 11 => decide (idx < 1024) && s.domOn (laneDomain idx) && decide (0 < (s.lane idx).fill)
  | 12 => decide (idx / 2 ^ 13 < 5) && decide (idx % 2 ^ 13 < (mget [] s.anchorQ (idx / 2 ^ 13)).length)
  | _ => false

/-- The source whose Awl checker checks the word of a place (R418, R440), none where the place has no checker. -/
def State.scrubSource (s : State) (place idx : Nat) : Option Nat :=
  match place with
  | 0 => some (0x0400 + idx % 1024)
  | 1 => some (0x4000 + idx % 16384)
  | 4 => some (s.tileSource (idx / 2 ^ 24) s.full)
  | 5 => some (interpSource idx)
  | 7 => some (dieSource (8 + idx / 2 ^ 22) 5)
  | 11 => some idx
  | _ => none

/-- A scrubber finds a word of a place uncorrectable: a fault of the word's element, as for a foreground read (R438). -/
def scrubBad (s : State) (place idx : Nat) (injected : Bool) : State :=
  let tile := idx / 2 ^ 24
  let i := idx % 2 ^ 24
  match place with
  | 0 => scrubFrame s (idx % 1024) (idx / 1024) injected
  | 1 => scrubRecord s (idx % 16384) (idx / 16384) injected
  | 2 => if i < 4096 then ringLost s tile i else extLost s tile (i - 4096)
  | 3 => accLost s idx
  | 4 => storeLost s tile i injected
  | 5 => tableBad s idx injected
  | 6 => setBad s idx fun x => { x with waiting := none }
  | 7 => blockBad s (idx / 2 ^ 22) (idx % 2 ^ 22) injected
  | 8 => setBad s idx Interp.dropSet
  | 9 => setBad s idx fun x => { x with first := none }
  | 10 => pieceLost s (idx / 512) (idx % 512)
  | 11 => elasticLost s idx injected
  | 12 => anchorLost s (idx / 2 ^ 13) (idx % 2 ^ 13)
  | _ => s

/-- R417, R438 to R440: a scrubber reads a word that is correctable or not; a count of Awl makes it uncorrectable. `place` is 0 a frame of the lane ingress
queue of a group (`position × 2^10 + group`), 1 a record of a host queue (`position × 2^14 + queue`), 2 a line of a tile's history ring,
or from 4,096 on of its Erg extension (`tile × 2^24 + line`), 3 the accumulators of a channel, 4 a hit in a tile's caravan store (`tile × 2^24 + position`), 5 the bin table in
force of an interpolator, 6 its waiting table, 7 a block of an HBM3 stack (`stack × 2^22 + block`), 8 the histogram of an interpolator's set
in progress, 9 the held first set of its confirmation, 10 a piece in the Oasis (`descriptor × 512 + tile`), 11 a lane's elastic buffer, 12 a stamp in a
core die's anchor precision queue (`die × 2^13 + position`). -/
def execScrubRead (place idx : Nat) (uncorrectable : Bool) (s : State) : Res :=
  if !s.scrubHolds place idx then .next s
  else
    let (s, injected) := match s.scrubSource place idx with
      | some n => awlTake s n
      | none => (s, false)
    .next (if uncorrectable || injected then scrubBad s place idx injected else scrubCorrect s place idx)

end Sys2Proof.Machine
end

