-- ==== Sys2Proof/Machine/ReadWrite.lean ====
section
/-! DEFINITION. READ_OBJ, WRITE_STAGED, WRITE_LIVE and the rows that are writes of one W1C or RW bit (12_commands.md, R389 to R398, R409,
R410, R508). -/

namespace Sys2Proof.Machine

/-! ### Object descriptors -/

/-- An object descriptor (R409). -/
structure Desc where
  obj : Nat
  sel : Nat
  idx : Nat
  count : Nat
  deriving DecidableEq, Repr

/-- Reads an object descriptor. -/
def descOf (w : Word) : Desc := { obj := bits w 63 58, sel := bits w 57 50, idx := bits w 49 26, count := bits w 25 18 }

/-- Writes an object descriptor. -/
def descWord (obj sel idx count : Nat) : Word := pack [(63, 58, obj), (57, 50, sel), (49, 26, idx), (25, 18, count)]

/-- The places a descriptor names. -/
def Desc.places (d : Desc) : List Nat := upTo d.idx d.count

/-- A descriptor is valid: reserved bits 0, a defined object and selector, a count of 1 to 253, and every place within its range (R6, R409,
R410). -/
def descOk (w : Word) : Bool :=
  let d := descOf w
  !stray w [(63, 18)] && 1 ≤ d.count && d.count ≤ 253 && !(wordSpec d.obj d.sel).isEmpty && d.places.all (validPlace d.obj d.sel)

/-- A command that names a retired channel's words is refused (R27, R434). -/
def State.placeGone (s : State) (obj sel idx : Nat) : Bool := obj = 3 && sel < 4 && s.chanGone idx s.full

/-! ### Reading -/

/-- The dies whose supply monitors watch the rails of a domain (R443, R480). -/
def railDies (d : Nat) : List Nat :=
  if d < 16 then [8 + d / 4] else if d < 26 then [(d - 16) / 2] else if d < 28 then [15] else [8 + (d - 28) * 2, 9 + (d - 28) * 2]

/-- The measured power and temperature of a domain are free values (R472, log 4). A supplied rail is within tolerance unless a monitor of its die is outside
its limits, which may be by a rail or by a temperature: then a free value says it. A domain that is RAMP may have come to INIT. -/
def domainRead (s : State) (d : Nat) : State :=
  let v := Config.freeValue s.freeCount
  let outside := (railDies d).any fun i => (s.src (dieSource i 6)).present
  let s := { s with freeCount := s.freeCount + 1 }
  let s := (s.put F.pws_power d (bits v 11 0)).put F.pws_temp d (bits v 19 12)
  let s := s.put F.pws_rail_ok d (b2n (Nat.testBit s.pw.rails d && (!outside || bit v 20)))
  if s.get F.pws_pstate d = 1 && bit v 21 then s.put F.pws_pstate d 2 else s

/-- Status that follows the passing of time is brought up to date before it is read: gates, armed definitions, the counts of a lane test, tile
pressure (R347), and what is measured of a domain (R164, R250, R310, R472). -/
def settleRead (s : State) (obj sel idx : Nat) : State :=
  if obj = 8 && (sel = 1 || sel = 2) then gateSettle s idx
  else if obj = 6 && (sel = 3 || sel = 4) then armSettle s (idx / 16) (idx % 16)
  else if obj = 1 && (sel = 5 || sel = 6) then testSettle s idx
  else if obj = 5 && sel = 2 && s.flag F.qia_pressure idx then pauseSettle s idx
  else if obj = 13 && sel = 1 then domainRead s idx
  else s

/-- PART word 0 as it reads while a command of a partition is executed (R382, R383, R386). -/
def State.partWord (s : State) (idx part op : Nat) : Word :=
  let busy := if idx = part then op else match s.cmd.sysOp with
    | some o => o.op
    | none => (s.chan idx).op
  setBits (setBits (s.word 12 0 idx) 20 13 busy) 12 12 (b2n s.cmd.sysOp.isSome)

/-- The caravans a tile holds open (R221, R239). -/
def State.openCaravans (s : State) (tile : Nat) : Nat :=
  if s.tileGone tile s.full then 0 else min 128 (s.full / 4096 + 1 - s.k0 tile)

/-- A word in force at the block that holds it (R394): a word of one tile as that tile applies it to the next caravan it closes; the reset
word in a domain that is off (R447). `part` and `op` are of the reading command. -/
def State.shown (s : State) (part op obj sel idx : Nat) : Word :=
  if s.wordOff obj sel idx then resetWord obj sel idx
  else match obj, sel with
    | 3, 0 => s.wordFor 3 0 idx (s.k0 (chanTile idx) * 4096)
    | 3, 2 => s.wordFor 3 2 idx (s.k0 (chanTile idx) * 4096)
    | 4, 1 => s.wordFor 4 1 idx (s.k0 idx * 4096)
    | 4, 6 => s.wordFor 4 6 idx (s.k0 idx * 4096)
    | 4, 5 => setBits (s.word 4 5 idx) 31 24 (s.openCaravans idx)
    | 11, 1 => s.fsaWord idx
    | 11, 65 => s.fgsWord
    | 12, 0 => s.partWord idx part op
    | _, _ => s.word obj sel idx

/-- A word in staged form (R394): its staged fields after every Cinch given GO and the partition's own pending changes. -/
def State.shownStaged (s : State) (part op obj sel idx : Nat) : Word :=
  if s.wordOff obj sel idx then resetWord obj sel idx
  else merge (s.shown part op obj sel idx) (s.stagedFor part obj sel idx) (stMask obj sel)

/-- READ_OBJ (R394, R409, R410). -/
def readBody (staged : Bool) (c : Cmd) (s : State) : Result :=
  checked c false 1 <|
    let d := descOf (c.par 0)
    refuseIf (!descOk (c.par 0)) stBadParam 1 <|
    noMore c 1 <|
    refuseIf (!(d.places.all fun i => s.access c.part d.obj d.sel i false 0#64 0#64)) stNotOwner 0 <|
    refuseIf (d.places.any fun i => s.placeGone d.obj d.sel i) stRetired 0 <|
    let t := d.places.foldl (fun s i => settleRead s d.obj d.sel i) s
    .done t stOk 0 (d.places.map fun i => if staged then t.shownStaged c.part 0x10 d.obj d.sel i else t.shown c.part 0x10 d.obj d.sel i)

/-- READ_OBJ, live. -/
def execReadObjLive (c : Cmd) (s : State) : Res := .next (runCmd 0x10 c (readBody false c) s)
/-- READ_OBJ, staged. -/
def execReadObjStaged (c : Cmd) (s : State) : Res := .next (runCmd 0x10 c (readBody true c) s)

/-! ### The rules of single words (R508, stages 8 and 9) -/

/-- A view in which the words of a write hold what it would make of them. -/
def viewWith (v : View) (obj sel first : Nat) (news : List Word) : View := fun o e i =>
  if o = obj && e = sel && first ≤ i then news.getD (i - first) (v o e i) else v o e i

/-- The channel IDs a valid map entry produces, the one-greater IDs of dual-threshold pairs among them, as first and past-the-last (R178,
R200, R201). -/
def entryIds (w : Word) : Nat × Nat :=
  let b := bits w 22 0
  (b, b + bits w 44 26 * (if bit w 25 then 2 else 1))

/-- Two ranges of numbers meet. -/
def meets (a b : Nat × Nat) : Bool := a.1 < b.2 && b.1 < a.2

/-- The local channels an entry reaches, as first and past-the-last: none unless it is valid (R200). -/
def entryLocals (w : Word) : Nat × Nat := if bit w 63 then (bits w 62 45, bits w 62 45 + bits w 44 26) else (0, 0)

/-- A map entry breaks R201 by itself. -/
def entryBad (w : Word) : Bool :=
  let ids := entryIds w
  decide (262144 < bits w 62 45 + bits w 44 26) || (decide (ids.1 < ids.2) && (ids.2 - 1) / 2 ^ 20 ≠ ids.1 / 2 ^ 20) ||
    !validChan ids.1 || (bit w 25 && bit w 0) || (bit w 63 && bits w 44 26 = 0)

/-- The other map words of a group whose local channels an entry reaches too (R201). -/
def entryTwins (v : View) (sel g : Nat) : List Nat :=
  (upTo 2 64).filter fun x => x ≠ sel && meets (entryLocals (v 2 sel g)) (entryLocals (v 2 x g))

/-- What a feeder of channels reaches: its key and its channel IDs (R97, R201), and whether it is a comparator or the map word of a lane that names a
group. -/
structure Feeder where
  obj : Nat
  sel : Nat
  idx : Nat
  ids : Nat × Nat
  named : Bool := true
  deriving DecidableEq, Repr

/-- The enabled comparators, those of the inputs of a write among them, and the valid stored entries of every lane. DEDUCED (log 47): R98's
"ever" holds over a regrouping too, so that a comparator is checked against the entries of lanes that name no group. -/
def State.chanFeeders (s : State) (v : View) (inputs : List Nat) : List Feeder :=
  let cmp := fun (sel : Nat) => (distinct (s.places 3 sel ++ inputs)).filterMap fun i =>
    let w := v 3 sel i
    if bit w 63 then some { obj := 3, sel := sel, idx := i, ids := (bits w 22 0, bits w 22 0 + 1) : Feeder } else none
  let map := (upTo 2 64).flatMap fun sel => (s.places 2 sel).filterMap fun g =>
    let w := v 2 sel g
    if bit w 63 then some { obj := 2, sel := sel, idx := g, ids := entryIds w, named := s.groupOf g = g : Feeder } else none
  cmp 17 ++ cmp 18 ++ map

/-- Two feeders that may not reach one channel ID: two comparators, a comparator and an entry, entries of two groups (R97, R98, R201). -/
def Feeder.clash (a b : Feeder) : Bool :=
  meets a.ids b.ids && (a.obj ≠ 2 || b.obj ≠ 2 || (a.idx ≠ b.idx && a.named && b.named)) && a ≠ b

/-- The slots for histograms that a tile needs (R265). -/
def State.histNeed (s : State) (v : View) (tile : Nat) (extra : List Nat) : List Nat :=
  (distinct (s.places 3 0 ++ extra)).filter fun c =>
    let w := v 3 0 c
    chanTile c = tile && bits w 40 39 ≠ 0 && (bits w 63 61 = 3 || bits w 63 61 = 4)

/-- The channels of a core die that measure phase against a named reference (R260). -/
def State.refUsers (s : State) (v : View) (die : Nat) (extra : List Nat) : List Nat :=
  (distinct (s.places 3 0 ++ extra)).filter fun c => c / 2 ^ 20 = die && bits (v 3 0 c) 42 41 = 2

/-- The references they name. -/
def refsNamed (v : View) (users : List Nat) : List Nat := distinct (users.map fun c => bits (v 3 0 c) 22 0)

/-- A write of an input's interval fields after which interval mode is on and its stop comparator is the start comparator, or is
disabled (R93). -/
def stopRefused (v : View) (i : Nat) (mask : Word) : Bool :=
  let w := v 3 16 i
  mask &&& fieldMask 35 27 ≠ 0#64 && bit w 35 &&
    ((bits w 34 29 = i && bits w 28 28 = bits w 27 27) || !bit (v 3 (17 + bits w 28 28) (bits w 34 29)) 63)

/-- A word breaks a rule of its own, so that its write is refused with ST_BAD_PARAM (R66, R93, R97, R170, R201, R238, R260, R284). -/
def State.wordRefused (s : State) (live : Bool) (v : View) (obj sel idx : Nat) (mask : Word) : Bool :=
  let w := v obj sel idx
  if obj = 9 && sel = 0 then bit w 30 && !s.host (bits w 29 20)
  else if obj = 2 && sel = 0 then s.groupOf idx ≠ idx || (s.host idx && bits w 59 52 ≠ 0)
  else if obj = 2 && 2 ≤ sel then s.host idx || entryBad w || !(entryTwins v sel idx).isEmpty
  else if obj = 3 && sel = 16 then stopRefused v idx mask
  else if obj = 3 && (sel = 17 || sel = 18) then bit w 63 && !validChan (bits w 22 0)
  else if obj = 3 && sel = 0 then !live && bits w 42 41 = 2 && bits w 22 0 = idx
  else if obj = 3 && sel = 2 then !live && mask &&& fieldMask 22 20 ≠ 0#64 && idx % 2 = 1 && (bits w 22 20 = 2 || bits w 22 20 = 4)
  else false

/-- A WRITE_LIVE of en or chan_id would make two feeders reach one channel ID (R97). -/
def State.liveClash (s : State) (v : View) (d : Desc) (idx : Nat) (mask : Word) : Bool :=
  let w := v d.obj d.sel idx
  if d.obj = 3 && (d.sel = 17 || d.sel = 18) && mask &&& (fieldMask 63 63 ||| fieldMask 22 0) ≠ 0#64 && bit w 63 then
    let me : Feeder := { obj := d.obj, sel := d.sel, idx := idx, ids := (bits w 22 0, bits w 22 0 + 1) }
    (s.chanFeeders v d.places).any me.clash
  else false

/-- A WRITE_LIVE would need more histogram slots or phase references than there are (R265, R260, R397). -/
def State.liveLacks (s : State) (v : View) (d : Desc) : Bool :=
  d.obj = 3 && d.sel = 0 && d.places.any fun c =>
    decide (128 < (s.histNeed v (chanTile c) d.places).length) || decide (64 < (refsNamed v (s.refUsers v (c / 2 ^ 20) d.places)).length)

/-! ### Writing -/

/-- The index of the first element for which a test holds. -/
def firstBad {α : Type} (p : α → Bool) : Nat → List α → Option Nat
  | _, [] => none
  | i, x :: rest => if p x then some i else firstBad p (i + 1) rest

/-- Refuses with ST_BAD_PARAM and the index of a data word (R390). -/
def refuseAt (i : Option Nat) (k : Result) : Result :=
  match i with
  | some i => .fail stBadParam (3 + i) []
  | none => k

/-- The counters that a word's clr bit clears (R105, R169, R199, R238, R239, R242, R277, R311, R312, R352, R382, R442, R472). -/
def clears (obj sel : Nat) : List Field :=
  match obj, sel with
  | 1, 3 => [F.lsb_fec_corrected, F.lsb_fec_uncorr, F.lsb_retrains, F.lsb_lock_losses, F.lsc_elastic_overflows, F.lsc_cap_fails, F.lsc_train_fails, F.lsc_crossings, F.lsc_cmd_drops, F.lsa_fec_sat]
  | 1, 11 => [F.ltsc_exch_lost, F.ltsc_outliers, F.ltsc_steps, F.ltsc_mirage_lane, F.ltsd_frames_bad, F.ltsd_seq_gaps, F.ltsd_marker_back, F.ltsd_unsolicited, F.ltsd_late_echo]
  | 3, 21 => [F.psta_coarse_only, F.psta_merged, F.pstb_over_rate_windows, F.pstb_overdrive_events, F.pstb_overdrive_events.at 1, F.pstb_ival_timeouts, F.pstb_late_trail]
  | 3, 22 => [F.psta_coarse_only.at 1, F.psta_merged.at 1, F.pstb_over_rate_windows.at 1, F.pstb_overdrive_events, F.pstb_overdrive_events.at 1, F.pstb_ival_timeouts.at 1, F.pstb_late_trail.at 1]
  | 3, 1 => [F.chst_hits]
  | 3, 3 => [F.fist_filtered, F.fist_cond_fired]
  | 2, 1 => [F.gmrg_late_caravans, F.gmrg_replay_lost, F.gmrg_replays]
  | 4, 5 => [F.tma_wadi_hits, F.tma_mirage_hits, F.tmb_shed_monitor, F.tmb_shed_stats, F.tmcs_shed_protected, F.tmcs_remap_lost, F.tmd_late_closes, F.tmd_discards]
  | 4, 8 => [F.thb_spill_skips, F.thb_needed_drops]
  | 6, 4 => [F.trsb_missed]
  | 7, 3 => [F.segb_oasis_empty]
  | 5, 4 => [F.qia_drops, F.qia_ecc_sat, F.qib_ecc_corr, F.qib_overrun_hits, F.qis_frames_ecc, F.qis_pauses]
  | 5, 8 => [F.qha_ecc_sat, F.qha_ecc_corr, F.qhb_rec_dropped, F.qhb_flushed, F.qhs_caravans_lost, F.qhs_level_crossings, F.qhs_rec_ecc]
  | 5, 9 => [F.qan_prec_drops]
  | 12, 3 => [F.part3_accepted, F.part3_busy_replies, F.part3_not_owner]
  | 11, 65 => [F.fgs_accepted_all]
  | 11, 3 => [F.fsa_accepted, F.fss_data_lost]
  | 13, 1 => [F.pws_switches, F.pws_cycles]
  | _, _ => []

/-- Clears fields of a place. -/
def clearFields (s : State) (fs : List Field) (idx : Nat) : State := fs.foldl (fun s f => s.put f idx 0) s

/-- W1C bits act: clr clears its counters, the flags of the QUEUE status words clear themselves (R352). -/
def w1cEffect (s : State) (obj sel idx : Nat) (b : Word) : State :=
  if obj = 5 && (sel = 2 || sel = 6) then s.setWord obj sel idx (s.word obj sel idx &&& ~~~b)
  else if bit b 0 then clearFields s (clears obj sel) idx else s

/-- A WRITE_LIVE of one word (R389, R395): W1C bits and RW fields act at once; ST fields wait for the boundary of each die that uses them. -/
def applyLive (s : State) (obj sel idx : Nat) (mask data : Word) : State :=
  let sp := wordSpec obj sel
  let s := w1cEffect s obj sel idx (mask &&& data &&& maskOf sp [.w1c])
  let s := s.setWord obj sel idx (merge (s.word obj sel idx) data (mask &&& maskOf sp [.rw]))
  let st := mask &&& maskOf sp [.st]
  if st = 0#64 then s
  else
    let new := merge (s.liveCopy obj sel idx) data st
    let waiting := s.wordDies obj sel idx new
    if waiting.isEmpty then putInForce s obj sel idx new st s.full false
    else
      let k := wkey obj sel idx
      let s := keepCopies s obj sel idx waiting
      let w : Written := match mfind s.cmd.written k with
        | some w => { word := new, mask := w.mask ||| st, waiting := waiting, bad := w.bad }
        | none => { word := new, mask := st, waiting := waiting, bad := [] }
      { s with cmd := { s.cmd with written := minsert s.cmd.written k w } }

/-- A WRITE_STAGED of one word (R389, R391). -/
def applyStaged (s : State) (part obj sel idx : Nat) (mask data : Word) : State :=
  let new := merge (s.stagedFor part obj sel idx) data mask
  { s with cmd := { s.cmd with staged := minsert s.cmd.staged (wkey obj sel idx) { part := part, word := new } } }

/-- The partition for which a word is pending, when that is not `part` (R391). -/
def State.stagedByOther (s : State) (part obj sel idx : Nat) : Option Nat :=
  match mfind s.cmd.staged (wkey obj sel idx) with
  | some x => if x.part = part then none else some x.part
  | none => none

/-- A word is pending for a partition, or changed by a Cinch given GO that has not reached its boundary (R392). -/
def State.inSet (s : State) (obj sel idx : Nat) : Bool :=
  (mfind s.cmd.staged (wkey obj sel idx)).isSome || (goneWord s.cmd.gone (wkey obj sel idx)).isSome

/-- The word a write would make of each word it names, over the copy it changes (R389). -/
def State.newWords (s : State) (live : Bool) (part : Nat) (d : Desc) (mask : Word) (data : List Word) : List Word :=
  (d.places.zip data).map fun x => merge (if live then s.liveCopy d.obj d.sel x.1 else s.stagedFor part d.obj d.sel x.1) x.2 mask

/-- Row 7 for WRITE_STAGED and WRITE_LIVE after the descriptor, in the stages of R508. -/
def writeChecks (live : Bool) (c : Cmd) (d : Desc) (mask : Word) (data : List Word) (s : State) (k : Result) : Result :=
  let sp := wordSpec d.obj d.sel
  let news := s.newWords live c.part d mask data
  let base : View := if live then s.latest else s.stagedFor c.part
  let v := viewWith base d.obj d.sel d.idx news
  let may := if live then maskOf sp [.st, .rw, .w1c] &&& ~~~(cinchOnly d.obj d.sel) else maskOf sp [.st]
  let w1c := mask &&& maskOf sp [.w1c]
  refuseAt (firstBad (fun w => !inRange d.obj d.sel mask w) 0 news) <|
  noMore c (d.count + 2) <|
  refuseIf (!((d.places.zip news).all fun x => s.access c.part d.obj d.sel x.1 true mask x.2)) stNotOwner 0 <|
  refuseIf (mask &&& ~~~may ≠ 0#64) stBadParam 2 <|
  refuseAt (firstBad (fun w => w1c &&& ~~~w ≠ 0#64) 0 data) <|
  refuseIf (d.places.any fun i => s.placeGone d.obj d.sel i) stRetired 0 <|
  refuseIf (d.places.any fun i => s.wordOff d.obj d.sel i) stNoResource 0 <|
  refuseAt (firstBad (fun i => s.wordRefused live v d.obj d.sel i mask || (live && s.liveClash v d i mask)) 0 d.places) <|
  refuseIf (live && s.liveLacks v d) stNoResource 0 <|
  if live then refuseIf (d.places.any fun i => s.inSet d.obj d.sel i) stStagedConflict 0 k
  else match d.places.findSome? fun i => s.stagedByOther c.part d.obj d.sel i with
    | some p => .fail stStagedConflict 0 [BitVec.ofNat 64 p]
    | none => k

/-- WRITE_STAGED and WRITE_LIVE: 2 + count parameter words (R390, R409, R411). -/
def writeBody (live : Bool) (c : Cmd) (s : State) : Result :=
  if c.resv ≠ 0 then .fail stBadParam 0 []
  else if c.params.length < 2 then .fail stBadParam 0 []
  else
    let d := descOf (c.par 0)
    let mask := c.par 1
    let data := c.params.drop 2
    refuseIf (!descOk (c.par 0)) stBadParam 1 <|
    refuseIf (decide (data.length < d.count)) stBadParam 0 <|
    writeChecks live c d mask data s <|
      let t := (d.places.zip data).foldl (fun s x => if live then applyLive s d.obj d.sel x.1 mask x.2 else applyStaged s c.part d.obj d.sel x.1 mask x.2) s
      .done t stOk 0 []

/-- WRITE_STAGED. -/
def execWriteStaged (c : Cmd) (s : State) : Res := .next (runCmd 0x11 c (writeBody false c) s)
/-- WRITE_LIVE. -/
def execWriteLive (c : Cmd) (s : State) : Res := .next (runCmd 0x12 c (writeBody true c) s)

/-- The WRITE_LIVE packet that writes `data` under `mask` to one word. -/
def liveCmd (c : Cmd) (obj sel idx : Nat) (mask data : Word) : Cmd := { c with params := [descWord obj sel idx 1, mask, data] }

/-- A WRITE_LIVE of one word. -/
def writeOne (c : Cmd) (obj sel idx : Nat) (mask data : Word) (s : State) : Res :=
  .next (runCmd 0x12 c (writeBody true (liveCmd c obj sel idx mask data)) s)

/-! ### The rows that are writes of one bit -/

/-- LANE status word C, clr (R169). -/
def execLaneStatusClr (c : Cmd) (lane : Nat) (s : State) : Res := writeOne c 1 3 lane 1#64 1#64 s
/-- LANE timing status word D, clr (R199). -/
def execLaneTimingClr (c : Cmd) (lane : Nat) (s : State) : Res := writeOne c 1 11 lane 1#64 1#64 s
/-- CHAN precision status word B of a comparator, clr (R105). -/
def execPrecisionStatusClr (c : Cmd) (comparator : Nat) (s : State) : Res := writeOne c 3 (21 + comparator % 2) (comparator / 2) 1#64 1#64 s
/-- CHAN channel status word, clr (R242). -/
def execChanStatusClr (c : Cmd) (channel : Nat) (s : State) : Res := writeOne c 3 1 channel 1#64 1#64 s
/-- CHAN filter status word, clr (R277). -/
def execFilterStatusClr (c : Cmd) (channel : Nat) (s : State) : Res := writeOne c 3 3 channel 1#64 1#64 s
/-- GROUP merge word, clr (R238). -/
def execGroupMergeClr (c : Cmd) (lane : Nat) (s : State) : Res := writeOne c 2 1 lane 1#64 1#64 s
/-- TILE merge status word D, clr (R239). -/
def execTileMergeClr (c : Cmd) (tile : Nat) (s : State) : Res := writeOne c 4 5 tile 1#64 1#64 s
/-- TILE history status word B, clr (R312). -/
def execTileHistoryClr (c : Cmd) (tile : Nat) (s : State) : Res := writeOne c 4 8 tile 1#64 1#64 s
/-- TRIG status word B, clr (R311). -/
def execTrigMissedClr (c : Cmd) (idx : Nat) (s : State) : Res := writeOne c 6 4 idx 1#64 1#64 s
/-- SEG status word A of a partition, clr (R311). -/
def execSegStatusClr (c : Cmd) (partition : Nat) (s : State) : Res := writeOne c 7 3 (partition * 16) 1#64 1#64 s
/-- QUEUE ingress status word C, clr (R352). -/
def execQueueIngressClr (c : Cmd) (lane : Nat) (s : State) : Res := writeOne c 5 4 lane 1#64 1#64 s
/-- QUEUE ingress status word A: W1C flags (R352). -/
def execQueueIngressFlagClear (c : Cmd) (lane : Nat) (flags : Word) (s : State) : Res := writeOne c 5 2 lane flags flags s
/-- QUEUE host status word C, clr (R352). -/
def execQueueHostClr (c : Cmd) (queue : Nat) (s : State) : Res := writeOne c 5 8 queue 1#64 1#64 s
/-- QUEUE host status word A: W1C flags (R352). -/
def execQueueHostFlagClear (c : Cmd) (queue : Nat) (flags : Word) (s : State) : Res := writeOne c 5 6 queue flags flags s
/-- QUEUE anchor word, clr (R352). -/
def execQueueAnchorClr (c : Cmd) (die : Nat) (s : State) : Res := writeOne c 5 9 die 1#64 1#64 s
/-- PART word 3, clr (R382). -/
def execPartCountersClr (c : Cmd) (partition : Nat) (s : State) : Res := writeOne c 12 3 partition 1#64 1#64 s
/-- FAULTSRC global status word, clr (R442). -/
def execFaultsrcGlobalClr (c : Cmd) (s : State) : Res := writeOne c 11 65 0 1#64 1#64 s
/-- FAULTSRC status word C of a source, clr (R442). -/
def execFaultsrcSourceClr (c : Cmd) (source : Nat) (s : State) : Res := writeOne c 11 3 source 1#64 1#64 s
/-- FAULTSRC.fault_n_sw holds FAULT_N low, or releases it (R427, R442). -/
def execFaultNSw (c : Cmd) (hold : Bool) (s : State) : Res := writeOne c 11 64 0 (fieldMask 38 38) (setBits 0#64 38 38 (b2n hold)) s
/-- POWER domain status word, clr (R472). -/
def execPowerStatusClr (c : Cmd) (domain : Nat) (s : State) : Res := writeOne c 13 1 domain 1#64 1#64 s

end Sys2Proof.Machine
end

