-- ==== Sys2Proof/Machine/Cinch.lean ====
section
/-! DEFINITION. CINCH and DISCARD_STAGED (12_commands.md, R393, R399 to R408): the checks of a set, the choice of its boundary, GO, CANCEL and
the boundary. -/

namespace Sys2Proof.Machine

/-! ### The set -/

/-- The words pending for a partition (R391). -/
def State.setOf (s : State) (p : Nat) : SMap Word :=
  s.cmd.staged.filterMap fun e => if e.2.part = p then some (e.1, e.2.word) else none

/-- Returns a partition's pending words to their live values (R380, R393). -/
def discard (s : State) (p : Nat) : State :=
  { s with cmd := { s.cmd with staged := s.cmd.staged.filter fun e => e.2.part ≠ p } }

/-- DISCARD_STAGED (R393). -/
def discardBody (c : Cmd) (s : State) : Result :=
  checked c false 0 (noMore c 0 (.done (discard s c.part) stOk (min 32767 (s.setOf c.part).length) []))

/-- DISCARD_STAGED. -/
def execDiscardStaged (c : Cmd) (s : State) : Res := .next (runCmd 0x14 c (discardBody c) s)

/-! ### The checks (R399): each gives the keys of the words that take part in it where it fails, of the keys it is given and of all that the
rule looks at beside them -/

/-- The words of the set of a given object and selector, by number. -/
def ofWord (ks : List Nat) (obj sel : Nat) : List Nat := (ks.filter fun k => decide (k / 2 ^ 24 = obj * 256 + sel)).map keyIdx

/-- Dependent groups held in one word (R73, R240, R279, R301, R311, R343, R398). -/
def failPairs (v : View) (ks : List Nat) : List Nat :=
  ks.filter fun k => !pairOk (keyObj k) (keySel k) (v (keyObj k) (keySel k) (keyIdx k))

/-- One channel ID reached twice, or an enabled comparator that names no channel (R97, R201). -/
def State.failReach (s : State) (v : View) : List Nat :=
  let fs := s.chanFeeders v []
  let bad := fs.filter fun a => (a.obj = 3 && !validChan a.ids.1) || fs.any a.clash
  bad.map fun a => wkey a.obj a.sel a.idx

/-- Map entries that break R201 within their group. -/
def failEntries (v : View) (ks : List Nat) : List Nat :=
  ks.flatMap fun k =>
    let sel := keySel k
    let g := keyIdx k
    if keyObj k = 2 && 2 ≤ sel then
      let twins := entryTwins v sel g
      (if entryBad (v 2 sel g) || !twins.isEmpty then [k] else []) ++ twins.map fun x => wkey 2 x g
    else []

/-- Role changes, the lane of REF_C, the number of host-facing lanes, and owners of host-facing groups (R66, R159, R170). -/
def State.failRoles (s : State) (v : View) (ks : List Nat) : List Nat :=
  let host := fun (l : Nat) => bit (v 1 0 l) 62
  let moved := (ofWord ks 1 0).filter fun l => host l ≠ bit (s.latest 1 0 l) 62
  let boundTo := fun (l : Nat) => (distinct (0 :: s.places 12 1 ++ s.places 12 2)).any fun p => (s.bound p).contains l
  let en := bit (v 9 0 0) 30
  let rl := bits (v 9 0 0) 29 20
  let count := (upTo 0 1024).countP host
  let lanes := moved.filter fun l => (s.laneState l ≠ 0 && s.laneState l ≠ 10) || boundTo l || (en && l = rl) || decide (count < 8) || decide (256 < count)
  let refc := en && (moved.contains rl || !host rl)
  let groups := (s.places 2 0).filter fun g => bits (v 2 0 g) 59 52 ≠ 0 && (s.span g).any host
  lanes.map (wkey 1 0) ++ (if refc then [wkey 1 0 rl, wkey 9 0 0] else []) ++
    groups.flatMap fun g => wkey 2 0 g :: ((s.span g).filter host).map (wkey 1 0)

/-- CHAN.part changed while the channel is not off, and conditions, phase references and histogram slots (R245, R260, R265, R284). -/
def State.failChans (s : State) (v : View) (ks : List Nat) : List Nat :=
  let cs := ofWord ks 3 0
  let tiles := distinct (cs.map chanTile)
  let dies := distinct (cs.map (· / 2 ^ 20))
  let live := fun (c : Nat) => bits (s.word 3 0 c) 63 61 ≠ 0 || bits (s.latest 3 0 c) 63 61 ≠ 0
  let part := cs.filter fun c => bits (v 3 0 c) 60 53 ≠ bits (s.latest 3 0 c) 60 53 && (live c || bits (v 3 0 c) 63 61 ≠ 0)
  let conds := (distinct (ofWord ks 3 2 ++ cs ++ (cs.filter fun c => c % 2 = 1).map (· - 1))).filter fun c => !condOk v c
  let users := (s.places 3 0).filter fun c => dies.contains (c / 2 ^ 20) && !phaseOk v c
  let full := dies.filter fun d => decide (64 < (refsNamed v (s.refUsers v d [])).length)
  let slots := tiles.filter fun t => decide (128 < (s.histNeed v t []).length)
  part.map (wkey 3 0) ++ conds.flatMap (fun c => [wkey 3 0 c, wkey 3 2 c, wkey 3 0 (c + 1)]) ++
    users.flatMap (fun c => [wkey 3 0 c, wkey 3 0 (bits (v 3 0 c) 22 0)]) ++
    full.flatMap (fun d => (s.refUsers v d []).map (wkey 3 0)) ++ slots.flatMap fun t => (s.histNeed v t []).map (wkey 3 0)

/-- No segment is outstanding and every definition is DISARMED (R309). -/
def State.triggersIdle (s : State) : Bool :=
  s.segs.isEmpty && (s.places 6 3).all fun i => (armSettle s (i / 16) (i % 16)).get F.trsa_tstate i = 0

/-- Erg space and queues (R309, R316, R353). -/
def State.failQueues (s : State) (v : View) (ks : List Nat) : List Nat :=
  let oasis := (ofWord ks 7 0).filter fun i => bits (v 7 0 i) 63 58 ≠ bits (s.latest 7 0 i) 63 58 && !s.triggersIdle
  let tight := s.ergOver v (stacksOf s.domOn)
  let qs := (distinct (0 :: s.places 5 5)).filter fun q => bit (v 5 5 q) 63
  let erg := if tight.isEmpty then []
    else wkey 7 0 0 :: (s.places 4 6).map (wkey 4 6) ++ ((s.places 5 1).filter fun l => tight.contains (l / 256)).map (wkey 5 1) ++
      (qs.filter fun q => tight.contains (homeOf (v 5 5 q))).map (wkey 5 5)
  let stray := qs.filter fun q =>
    let l := bits (v 5 5 q) 62 53
    !bit (v 1 0 l) 62 || !(s.bound (q / 64)).contains l
  let busy := (ofWord ks 5 5).filter fun q =>
    bit (s.latest 5 5 q) 63 && !(s.hq q).recs.isEmpty && bits (v 5 5 q) 62 41 ≠ bits (s.latest 5 5 q) 62 41
  let ingress := (ofWord ks 5 1).filter fun l =>
    bits (v 5 1 l) 63 54 ≠ bits (s.latest 5 1 l) 63 54 && !(s.ing (s.groupOf l)).frames.isEmpty
  oasis.map (wkey 7 0) ++ erg ++ stray.flatMap (fun q => [wkey 5 5 q, wkey 1 0 (bits (v 5 5 q) 62 53)]) ++
    busy.map (wkey 5 5) ++ ingress.map (wkey 5 1)

/-- The words that hold something other than their reset word in some copy. -/
def State.everyKey (s : State) (set : List Nat) : List Nat :=
  distinct (set ++ s.regs.map (fun e => e.1) ++ s.cmd.written.map (fun e => e.1) ++ s.cmd.gone.flatMap fun g => g.words.map fun e => e.1)

/-- The words that take part in a check which would fail after a partition's Cinch, the words of its set first, the lowest of them first
(R399, R400). DEDUCED (log 47): a check fails the set also when no word of the set takes part in it, and the lowest word that does is then
named. -/
def State.failing (s : State) (p : Nat) : List Nat :=
  let set := (s.setOf p).map fun e => e.1
  let ks := s.everyKey set
  let v : View := s.stagedFor p
  let all := ascending (distinct (failPairs v ks ++ s.failReach v ++ failEntries v ks ++ s.failRoles v ks ++ s.failChans v ks ++ s.failQueues v ks))
  all.filter set.contains ++ all.filter fun k => !set.contains k

/-! ### The boundary (R401, R402) -/

/-- The full count that a CINCH parameter names, in the epoch that puts it nearest to the count at acceptance (R401). -/
def placeNear (full coarse : Nat) : Nat :=
  let d := (coarse + 2 ^ 54 - full % 2 ^ 54) % 2 ^ 54
  if d < 2 ^ 53 then full + d else full + d - 2 ^ 54

/-- Two words for whose changes R402 keeps a distance: the same word, or map words of one group. -/
def spacedWith (a b : Nat) : Bool :=
  a = b || (keyObj a = 2 && keyObj b = 2 && 2 ≤ keySel a && 2 ≤ keySel b && keyIdx a = keyIdx b)

/-- The boundary is not earlier than 524,288 ticks after an earlier Cinch's change of a word or of a group's map (R402). -/
def State.spacing (s : State) (ks : List Nat) : Nat :=
  let past := s.cmd.prev.foldl (fun m e => match e.2.cinch with
    | some b => if ks.any (spacedWith e.1) then max m (b + 524288) else m
    | none => m) 0
  s.cmd.gone.foldl (fun m g => if g.words.any fun e => ks.any (spacedWith e.1) then max m (g.full + 524288) else m) past

/-- A Cinch with the boundary that R401 and R402 give from the present moment. -/
def State.chooseB (s : State) (j : CinchJob) : CinchJob :=
  let named := if j.cmd.par 0 = 0#64 then 0 else placeNear j.accepted (bits (j.cmd.par 0) 53 0)
  let first := ceilDiv (max (s.full + 8192) named) 4096 * 4096
  let b := max first (ceilDiv (s.spacing (j.words.map fun e => e.1)) 4096 * 4096)
  { j with chosen := true, full := b, spaced := decide (first < b) }

/-! ### The commands -/

/-- CINCH is accepted (R399, R401): the parameter is 0, or a multiple of 4,096 at most 2^32 ticks ahead. -/
def cinchBody (c : Cmd) (s : State) : Result :=
  checked c false 1 <|
    let w := c.par 0
    refuseIf (stray w [(53, 0)] || bits w 11 0 ≠ 0 || (w ≠ 0#64 && decide (s.full + 2 ^ 32 < placeNear s.full (bits w 53 0)))) stBadParam 1 <|
    noMore c 1 <|
    .later { s with cmd := { s.cmd with cinches := s.cmd.cinches ++ [{ cmd := c, words := [], accepted := s.full, chosen := false, full := 0, attempts := 0 }] } }

/-- CINCH. -/
def execCinch (c : Cmd) (s : State) : Res := .next (runCmd 0x13 c (cinchBody c) s)

/-- The Cinch at the head of the engines' queue ends: the next one is checked (R399). -/
def dropJob (s : State) : State := { s with cmd := { s.cmd with cinches := s.cmd.cinches.drop 1 } }

/-- Changes the Cinch at the head. -/
def setJob (s : State) (j : CinchJob) : State := { s with cmd := { s.cmd with cinches := j :: s.cmd.cinches.drop 1 } }

/-- R399 to R402: the check of the Cinch at the head ends at tick `t`: it fails with its first failing word, or its boundary is chosen and its
words go to the dies. -/
def execCinchCheckEnd (t : Nat) (s : State) : Res :=
  match s.cmd.cinches with
  | [] => .next s
  | j :: _ =>
    if j.chosen then .next s
    else
      let s := advanceTo s t
      match s.failing j.cmd.part with
      | k :: _ => .next (finish (dropJob s) j.cmd 0x13 stStagedConflict 0 [descWord (keyObj k) (keySel k) (keyIdx k) 1])
      | [] =>
        let j := { j with words := s.setOf j.cmd.part }
        .next (setJob s (s.chooseB j))

/-- The ST_OK reply of a CINCH: the count of its words, and B (R403). -/
def cinchReply (s : State) (c : Cmd) (words full : Nat) : State := finish s c 0x13 stOk (min 32767 words) [BitVec.ofNat 64 (full % 2 ^ 54)]

/-- R402, R403: the last acknowledgement arrives at tick `t`, before B - 2,048: GO is sent, the words are no longer pending, and ST_OK carries B; where R402 has
made B later, the reply waits for B. -/
def execCinchGo (t : Nat) (s : State) : Res :=
  match s.cmd.cinches with
  | [] => .next s
  | j :: _ =>
    let s := advanceTo s t
    if !j.chosen || decide (j.full ≤ s.full + 2048) then .next s
    else
      let from1 := distinct (j.words.flatMap fun e => s.wordDies (keyObj e.1) (keySel e.1) (keyIdx e.1) e.2)
      let s := from1.foldl (fun s d => if d = 15 then s else linkDelivers s 15 d) s
      let s := discard (dropJob s) j.cmd.part
      let g : Gone := { part := j.cmd.part, words := j.words, full := j.full, reply := if j.spaced then some j.cmd else none }
      let s := { s with cmd := { s.cmd with gone := s.cmd.gone ++ [g] } }
      .next (if j.spaced then s else cinchReply s j.cmd j.words.length j.full)

/-- R404: an acknowledgement is missing at B - 2,048: CANCEL and a new B, or ST_TIMEOUT after 8 attempts with every word still pending. -/
def execCinchCancel (s : State) : Res :=
  match s.cmd.cinches with
  | [] => .next s
  | j :: _ =>
    if !j.chosen then .next s
    else
      let s := advanceFull s (j.full - 2048)
      if 7 ≤ j.attempts then .next (finish (dropJob s) j.cmd 0x13 stTimeout 0 [])
      else .next (setJob s (s.chooseB { j with attempts := j.attempts + 1 }))

/-- One word of a set takes effect (R405, R407): a word changed by an earlier WRITE_LIVE takes the set's value on every die. A word whose
domain has gone off has been lost with it (R447). -/
def cinchWord (full : Nat) (s : State) (e : Nat × Word) : State :=
  let obj := keyObj e.1
  let sel := keySel e.1
  let idx := keyIdx e.1
  if s.wordOff obj sel idx then s
  else
    let s := { s with cmd := { s.cmd with written := merase s.cmd.written e.1 } }
    let all := BitVec.allOnes 64
    let m := mget [] s.cmd.copies e.1
    let s := if m.isEmpty then s else s.setCopies e.1 (m.map fun x => (x.1, x.2.change all (merge x.2.word e.2 (stMask obj sel)) full))
    putInForce s obj sel idx e.2 all full true

/-- The set given GO whose boundary comes next: the lowest, the first accepted of those with one boundary (R408). -/
def nextGone : List Gone → Option Gone
  | [] => none
  | g :: rest =>
    match nextGone rest with
    | some h => if g.full ≤ h.full then some g else some h
    | none => some g

/-- R402, R405, R407, R408: device time reaches the boundary of the next set, and its words take effect; a reply that waited for it is sent. -/
def execCinchBoundary (s : State) : Res :=
  match nextGone s.cmd.gone with
  | none => .next s
  | some g =>
    let s := advanceFull s g.full
    let s := { s with cmd := { s.cmd with gone := s.cmd.gone.erase g, cinchAt := g.full :: s.cmd.cinchAt } }
    let s := g.words.foldl (cinchWord g.full) s
    .next (match g.reply with
      | some c => cinchReply s c g.words.length g.full
      | none => s)

end Sys2Proof.Machine
end

