-- ==== Sys2Proof/Machine/Boot.lean ====
section
/-! DEFINITION. Reset, start-up, the boot flash, FW_UPDATE, SELFTEST and ERG_CLEAR (14_power_startup.md, R455 to R470; R413, R414, R493, R498). The
contents of a boot flash as shipped are in log 7. -/

namespace Sys2Proof.Machine

/-! ### Image slots -/

/-- An erased or broken slot. -/
def Image.bad : Image := { valid := false, generation := 0, major := 0, minor := 0, patch := 0, minStep := 0 }

/-- The firmware of the revision that the manual describes (R8). -/
def Image.shipped : Image := { valid := true, generation := 1, major := 3, minor := 2, patch := 0, minStep := 0xA0 }

/-- An image slot: as shipped, slot 0 holds the firmware and slot 1 nothing (log 7). -/
def State.image (s : State) (i : Nat) : Image := (mfind s.pw.slots i).getD (if i = 0 then Image.shipped else Image.bad)

/-- Writes an image slot. -/
def State.setImage (s : State) (i : Nat) (x : Image) : State := { s with pw := { s.pw with slots := minsert s.pw.slots i x } }

/-! ### Reset -/

/-- What a reset leaves (R455, R466): what lies outside the device's own state, the boot flash and the test access port. -/
def resetKeeping (s : State) (low : Bool) : State :=
  { State.reset with
    pending := s.pending
    jtag := s.jtag
    out := s.out
    freeCount := s.freeCount
    tin := s.tin
    pw := { State.reset.pw with
      resetLow := low
      pwrGood := !low || s.pw.pwrGood
      dirA := s.pw.dirA
      dirB := s.pw.dirB
      recA := s.pw.recA
      recB := s.pw.recB
      slots := s.pw.slots
      rails := s.pw.rails } }

/-- A low pulse of a length between the two limits resets the device or is ignored, a free choice (R493, log 4). -/
def pulse (lowTicks least sure : Nat) (s : State) (k : State → State) : State :=
  if lowTicks < least then s
  else if sure ≤ lowTicks then k s
  else
    let t := { s with freeCount := s.freeCount + 1 }
    if bit (Config.freeValue s.freeCount) 0 then k t else t

/-- R466, R502: RESET_N rises: device time starts and start-up is in phase FUSES; it waits while a JTAG instruction that takes the pins stands
in the instruction register. -/
def execResetRelease (s : State) : Res :=
  if !s.pw.resetLow then .next s
  else
    let t := resetKeeping s false
    .next { t with pw := { t.pw with pwrGood := true, tapHold := takesPins s.jtag.ir } }

/-! ### Boot directory (R459, R460) -/

/-- Words 0 and 1 of a directory copy (R459). -/
def Directory.body (d : Directory) : List Word :=
  [pack [(63, 32, d.magic), (31, 0, d.seq)], pack [(63, 56, d.quadByte), (55, 48, d.mhz), (29, 0, d.bootOn.toNat)]]

/-- The words of a directory copy (R459). -/
def Directory.words (d : Directory) : List Word := d.body ++ [BitVec.ofNat 64 d.crc]

/-- A directory copy is valid (R459): its magic, its fields and its CRC. -/
def Directory.valid (d : Directory) : Bool :=
  d.magic = 0x54534244 && decide (d.quadByte ≤ 1) && decide (13 ≤ d.mhz ∧ d.mhz ≤ 100) && d.crc = crc32 d.body

/-- The directory asks for quad mode (R459). -/
def Directory.quad (d : Directory) : Bool := d.quadByte = 1

/-- What a boot flash without a valid directory copy gives (R459): single mode and every boot_on bit 1. -/
def Directory.none : Directory := { magic := 0, seq := 0, quadByte := 0, mhz := 0, bootOn := 0x3FFFFFFF#30, crc := 0 }

/-- The clock of the boot port under a directory, in kHz (R459, R496). -/
def Directory.khz (d : Directory) : Nat := if d.valid then d.mhz * 1000 else 12500

/-- Copy A is the one used: it is valid, and copy B is not, or not higher. -/
def State.useA (s : State) : Bool := s.pw.dirA.valid && (!s.pw.dirB.valid || decide (s.pw.dirB.seq ≤ s.pw.dirA.seq))

/-- The directory in use. -/
def State.directory (s : State) : Directory :=
  if s.useA then s.pw.dirA else if s.pw.dirB.valid then s.pw.dirB else Directory.none

/-- The clock of the boot port in kHz: 12.5 MHz until the directory is read; writes run at 50 MHz at most (R459, R496, R497). -/
def State.bootKhz (s : State) (write : Bool) : Nat :=
  let k := if s.phase ≤ 2 then 12500 else s.directory.khz
  if write then min k 50000 else k

/-- BOOT_IO[3:2] are driven high by a command (R497): all but the quad read are sent in single mode. -/
def bootIoHigh (cmd : Nat) : Bool := cmd ≠ 0x6C

/-- Boot-port commands leave the package, in their order. -/
def sendBoot (s : State) (os : List Out) : State := { s with out := s.out ++ os }

/-- A read of the flash (R497), in the directory's mode once it is read. -/
def bootRead (quad : Bool) (address bytes : Nat) : Out := .boot (if quad then 0x6C else 0x13) address bytes

/-- `n` bytes from address `a` are programmed, page by page: each with a write enable before it and a poll of the status after it (R497). -/
def pageCmds (a n : Nat) : List Out :=
  (upTo (a / 256) (if n = 0 then 0 else ceilDiv (a + n) 256 - a / 256)).flatMap fun p =>
    [.boot 0x06 0 0, .boot 0x12 (max a (256 * p)) (min (a + n) (256 * (p + 1)) - max a (256 * p)), .boot 0x05 0 1]

/-- `n` sectors of `size` bytes from address `a` are erased (R497). -/
def eraseCmds (cmd a size n : Nat) : List Out := (upTo 0 n).flatMap fun i => [.boot 0x06 0 0, .boot cmd (a + size * i) 0, .boot 0x05 0 1]

/-- The addresses of directory copies A and B, of the retirement record copies and of the image slots (R458). -/
def dirBase (b : Bool) : Nat := if b then 0x00001000 else 0
/-- The address of a retirement record copy (R458). -/
def recBase (b : Bool) : Nat := if b then 0x00080000 else 0x00040000
/-- The address of an image slot (R458). -/
def slotBase (i : Nat) : Nat := 0x00100000 + 0x04000000 * i

/-- The copy that a rewrite makes: the boot_on bits in force, and seq one higher (R460). Without a valid copy before it takes single mode and 13 MHz, the
least that a copy can give (DESIGN CHOICE, log 7). -/
def State.nextDirectory (s : State) : Directory :=
  let d := s.directory
  let on := (upTo 0 30).foldl (fun m i => m ||| (BitVec.ofNat 30 (s.get F.pwd_boot_on i) <<< i)) 0#30
  let new : Directory := { d with magic := 0x54534244, mhz := max 13 d.mhz, seq := (d.seq + 1) % 2 ^ 32, bootOn := on }
  { new with crc := crc32 new.body }

/-- An entry is appended to copy A and then to copy B; a copy that holds 32,767 entries takes no more (R465). -/
def appendEntry (s : State) (w : Word) : State :=
  let room := fun (r : List Word) => decide (r.length < 32767)
  let cmds := fun (b : Bool) (r : List Word) => if room r then pageCmds (recBase b + 8 * (r.length + 1)) 8 else []
  let s := sendBoot s (cmds false s.pw.recA ++ cmds true s.pw.recB)
  let add := fun (r : List Word) => if room r then r ++ [w] else r
  let full := !(room s.pw.recA && room s.pw.recB)
  let s := { s with pw := { s.pw with recA := add s.pw.recA, recB := add s.pw.recB } }
  if full then s.put F.pwg_rec_full 0 1 else s

/-- Every retirement that is due is appended: appends go ahead of every other flash operation (R498). -/
def appendAll (s : State) : State := s.flt.toRecord.foldl appendEntry { s with flt := { s.flt with toRecord := [] } }

/-- R460, R497, R498: the older copy is rewritten with the boot_on bits in force and seq one higher, after the retirements that are due. -/
def execDirectoryRewrite (s : State) : Res :=
  if !s.pw.dirDirty then .next s
  else
    let s := appendAll s
    let new := s.nextDirectory
    let s := sendBoot s (eraseCmds 0x21 (dirBase s.useA) 4096 1 ++ pageCmds (dirBase s.useA) 24)
    .next { s with pw := { s.pw with dirDirty := false, dirA := if s.useA then s.pw.dirA else new, dirB := if s.useA then new else s.pw.dirB } }

/-! ### Retirement record (R465) -/

/-- An entry passes its check. -/
def entryOk (w : Word) : Bool := retireEntry (bits w 63 48) (bits w 47 44) (bits w 43 22) = w && isSource (bits w 63 48) && bits w 47 44 ≤ 4

/-- The entries that start-up applies: the union of both copies, each up to its first invalid entry. -/
def State.recordEntries (s : State) : List Word :=
  let a := s.pw.recA.takeWhile entryOk
  a ++ (s.pw.recB.takeWhile entryOk).filter fun w => !a.contains w

/-- One entry of the record is applied (R435, R465). -/
def applyEntry (s : State) (w : Word) : State :=
  let n := bits w 63 48
  let sub := bits w 43 22
  match bits w 47 44 with
  | 0 =>
    let t := s.put F.fsa_retired n 1
    if s.flag F.fsa_retired n then s
    else if n ≤ 0x03FF then (t.setLane n { t.lane n with retired := true }).put F.lsa_state n 10
    else if 0x0C00 ≤ n ∧ n ≤ 0x0FFF then calGone t (512 + (n - 0x0C00))
    else if 0x1000 ≤ n ∧ n ≤ 0x11FF then calGone t (n - 0x1000)
    else if 0x1800 ≤ n ∧ n ≤ 0x1A7F then
      match s.servedBy n with
      | some tile =>
        let m := s.nextMap tile
        t.setWord 4 0 tile (setBits (setBits (s.word 4 0 tile) 15 14 m.1) 13 9 m.2)
      | none => t
    else t
  | 1 =>
    let k := s.get F.fss_slots_retired n
    if 31 ≤ k || (s.retiredSlots n).contains (sub % 16384) then s
    else (s.setWord 11 (4 + k) n (pack [(63, 63, 1), (13, 0, sub % 16384)])).put F.fss_slots_retired n (k + 1)
  | 2 =>
    if n < 0x4000 then s.setIng (n - 0x0400) { s.ing (n - 0x0400) with linesLost := (s.ing (n - 0x0400)).linesLost + 1 }
    else s.setHq (n - 0x4000) { s.hq (n - 0x4000) with linesLost := (s.hq (n - 0x4000)).linesLost + 1 }
  | 3 => { s with flt := { s.flt with spares := mmod 0 s.flt.spares (n * 16 + sub / 1024) (· + 1) } }
  | _ => { s with flt := { s.flt with spares := mmod 0 s.flt.spares (n * 16) (· + 1) } }

/-! ### The layout of the flash (R458) -/

/-- What stands in the boot flash (R458): a directory copy or a retirement record copy, false for copy A, or an image slot. -/
inductive FlashPart where
  | directory (b : Bool)
  | record (b : Bool)
  | slot (i : Nat)
  deriving DecidableEq, Repr

/-- The part of the flash that holds a byte address, and the byte's place in it (R458). -/
def flashPart (a : Nat) : Option (FlashPart × Nat) :=
  if a < 0x00001000 then some (.directory false, a)
  else if a < 0x00002000 then some (.directory true, a - 0x00001000)
  else if a < 0x00040000 then none
  else if a < 0x00080000 then some (.record false, a - 0x00040000)
  else if a < 0x000C0000 then some (.record true, a - 0x00080000)
  else if a < 0x00100000 then none
  else if a < 0x04100000 then some (.slot 0, a - 0x00100000)
  else if a < 0x08100000 then some (.slot 1, a - 0x04100000)
  else none

/-- The header of a valid image slot (R461). -/
def Image.header (i : Image) : List Word :=
  let ws := [pack [(63, 32, 0x5453494D), (31, 0, i.generation)], pack [(63, 56, i.major), (55, 48, i.minor), (47, 40, i.patch), (39, 32, i.minStep)], pack [(31, 0, i.length)]]
  ws ++ [pack [(63, 32, crc32 ws), (31, 0, i.crc)]]

/-- The header and entries of a retirement record copy (R465). -/
def recordWords (es : List Word) : List Word := pack [(63, 32, 0x54535252)] :: es

/-- The word of the boot flash at a byte address, where State holds it (R458, R459, R461, R465): past the entries of a record the flash is erased. The
payload of an image and what stands in a damaged copy are not held. -/
def State.flashWord (s : State) (a : Nat) : Option Word :=
  match flashPart a with
  | some (.directory b, i) => let d := if b then s.pw.dirB else s.pw.dirA; if d.valid then d.words[i / 8]? else none
  | some (.record b, i) => some ((recordWords (if b then s.pw.recB else s.pw.recA)).getD (i / 8) (BitVec.allOnes 64))
  | some (.slot n, i) => if (s.image n).valid then (s.image n).header[i / 8]? else none
  | none => none

/-! ### Start-up (R462, R466) -/

/-- Start-up takes a phase. -/
def setPhase (s : State) (p : Nat) : State := s.put F.pwg_phase 0 p

/-- Neither slot runs: recovery (R462, R464). Only domain 26 is on. -/
def enterRecovery (s : State) : State := setPhase (s.put F.pws_pstate 26 3) 7

/-- A slot is loaded into both command engines. -/
def loadSlot (s : State) (i : Nat) : State :=
  let s := sendBoot s [bootRead (s.flag F.pwg_quad 0) (slotBase i) (32 + (s.image i).length)]
  setPhase { s with pw := { s.pw with slot := i, tried := s.pw.tried ++ [i], loadAt := s.tb.tick } } 4

/-- The slot that is tried first: the one with the higher generation, slot 0 when they are equal. -/
def State.firstSlot (s : State) : Nat := if (s.image 0).generation < (s.image 1).generation then 1 else 0

/-- Phase IMAGE ends (R461, R462): the slots found invalid are shown, and the first valid one is loaded. -/
def startImage (s : State) : State :=
  let bad := b2n (!(s.image 0).valid) + 2 * b2n (!(s.image 1).valid)
  let quad := s.flag F.pwg_quad 0
  let s := sendBoot s [bootRead quad (slotBase 0) 32, bootRead quad (slotBase 1) 32,
    bootRead quad (recBase false) (8 * (s.pw.recA.length + 2)), bootRead quad (recBase true) (8 * (s.pw.recB.length + 2))]
  let s := s.put F.pwg_slot_bad 0 bad
  let a := s.firstSlot
  if (s.image a).valid then loadSlot s a
  else if (s.image (1 - a)).valid then (loadSlot s (1 - a)).put F.pwg_fallback 0 1
  else enterRecovery s

/-- The fused tile retirements are applied (R23, R24, R466). -/
def applyFuses (s : State) : State :=
  ((upTo 0x1800 640).filter fun n => isSource n && Config.fusedTile n).foldl (fun s n => applyEntry s (retireEntry n 0 0)) s

/-- Phase ENGINES ends (R465, R466): fuses and the record are applied, boot_on comes from the directory, and the selector is free to leave FREE. -/
def startEngines (s : State) : State :=
  let es := s.recordEntries
  let s := es.foldl applyEntry (applyFuses s)
  let s := s.put F.pwg_rec_entries 0 (min 65535 es.length)
  let d := s.directory
  let s := (upTo 0 30).foldl (fun s i => s.put F.pwd_boot_on i (if i = 26 then 1 else b2n (d.bootOn.getLsbD i))) s
  selSettle (setPhase (s.put F.pws_pstate 26 3) 5)

/-- The stages of phase DOMAINS (R466). -/
def domainStage (i : Nat) : List Nat :=
  match i with
  | 0 => [0, 4, 8, 12]
  | 1 => [28, 29]
  | 2 => (upTo 0 16).filter fun d => d % 4 ≠ 0
  | 3 => upTo 16 10
  | _ => [27]

/-- A stage of phase DOMAINS (R466): its domains whose boot_on bit is 1 come on; one whose rail is absent (NO_RAIL) or whose needed domain is off stays
off. -/
def startDomains (s : State) (railsOk : Nat) : State :=
  let ds := domainStage s.pw.stage
  let want := ds.filter fun d => s.flag F.pwd_boot_on d
  let s := (ds.filter fun d => !Nat.testBit railsOk d).foldl (fun s d => s.put F.pws_pstate d 6) s
  let on := want.filter fun d => Nat.testBit railsOk d && !s.hotDomain d && (neededBy d).all s.domOn
  let s := on.foldl (fun s d => (domainStart s d).satInc F.pws_switches d 1) s
  let s := { s with pw := { s.pw with stage := s.pw.stage + 1 } }
  if s.pw.stage < 5 then s
  else
    let s := (setPhase s 6).put F.pwg_boot_ms 0 (min 4095 (s.tb.tick / Config.milli))
    ((upTo 0 1024).filter fun l => s.laneState l = 2).foldl sendCap s

/-- What start-up finds of the supplies: bit d of `railsOk` is 1 while every rail of domain d is within tolerance (R472). -/
def showRails (s : State) (railsOk : Nat) : State :=
  (upTo 0 30).foldl (fun s d => s.put F.pws_rail_ok d (b2n (Nat.testBit railsOk d))) { s with pw := { s.pw with rails := railsOk } }

/-- R459, R466, R502: the present phase completes, or a stage of phase DOMAINS; `railsOk` has bit d set while every rail of domain d is within
tolerance. -/
def execStartupPhase (railsOk : Nat) (s : State) : Res :=
  if s.pw.resetLow || s.pw.tapHold || !(1 ≤ s.phase && s.phase ≤ 5) then .next s
  else
    let s := showRails s railsOk
    match s.phase with
    | 1 => .next (setPhase s 2)
    | 2 =>
      let s := sendBoot s [bootRead false (dirBase false) 24, bootRead false (dirBase true) 24]
      .next (setPhase (s.put F.pwg_quad 0 (b2n s.directory.quad)) 3)
    | 3 => .next (startImage s)
    | 4 => .next (startEngines s)
    | 5 => .next (startDomains s railsOk)
    | _ => .next s

/-- R462: the engines report no ready state within 1 s of the load: the other slot is loaded if it is valid and has not been tried. -/
def execImageReadyTimeout (s : State) : Res :=
  if s.phase ≠ 4 || s.pw.resetLow then .next s
  else
    let s := advanceTo s (s.pw.loadAt + Config.second)
    let other := 1 - s.pw.slot
    if (s.image other).valid && !s.pw.tried.contains other then .next ((loadSlot s other).put F.pwg_fallback 0 1)
    else .next (enterRecovery s)

/-! ### System-wide operations (R386) -/

/-- A partition whose channel is busy, the lowest, for a system-wide operation that arrives (R386). -/
def State.busyPart (s : State) : Option Nat := (s.cmd.chans.find? fun e => e.2.op ≠ 0xFF).map fun e => e.1

/-- A system-wide operation that arrives while any channel is busy is answered ST_BUSY (R386). -/
def alone (s : State) (k : Result) : Result :=
  match s.busyPart with
  | some p => .fail stBusy 0 [busyWord s p]
  | none => k

/-- The device is quiescent, no host queue holds a record and no segment is outstanding (R414). -/
def State.ergIdle (s : State) : Bool :=
  s.quiescent && s.segs.isEmpty && s.hqs.all fun e => e.2.recs.isEmpty && e.2.incoming.isEmpty

/-- A system-wide operation ends and replies, and every channel is free of it (R386). -/
def sysDone (s : State) (o : SysOp) (stat : Nat) (ws : List Word) : State :=
  finish { s with cmd := { s.cmd with sysOp := none } } o.cmd o.op stat 0 ws

/-! ### FW_UPDATE (R413, R463) -/

/-- The session whose image END is writing to a slot. -/
def State.slotWriting (s : State) : Option FwSession :=
  match s.cmd.sysOp, s.cmd.fw with
  | some o, some f => if o.op = 0x70 && !f.direct then some f else none
  | _, _ => none

/-- The flash may have an erase or a write in progress or due (R498): the directory's rewrite, the slot that END writes, or the one that BEGIN of a direct
session erases. -/
def State.flashBusy (s : State) : Bool :=
  s.pw.dirDirty || s.slotWriting.isSome || match s.cmd.fw with
    | some f => f.erasing
    | none => false

/-- R435, R465, R498: the next retirement is appended to copy A and then to copy B; a copy that holds 32,767 entries takes no more. An erase in progress is
suspended and resumed; whether one is, or a page program that is waited for, is a free value (log 4). -/
def execRetirementRecordWrite (s : State) : Res :=
  match s.flt.toRecord with
  | [] => .next s
  | w :: rest =>
    let t : State := { s with flt := { s.flt with toRecord := rest } }
    if !s.flashBusy then .next (appendEntry t w)
    else
      let t := { t with freeCount := s.freeCount + 1 }
      if bit (Config.freeValue s.freeCount) 0 then .next (sendBoot (appendEntry (sendBoot t [.boot 0x75 0 0]) w) [.boot 0x7A 0 0])
      else .next (appendEntry t w)

/-- FW_UPDATE, BEGIN: the slot, the length and the CRC. A direct session erases the slot, after the retirements that are due (R498). -/
def fwBeginBody (c : Cmd) (s : State) : Result :=
  checked c true 3 <|
    let slot := bits (c.par 0) 0 0
    let len := bits (c.par 1) 31 0
    refuseIf (stray (c.par 0) [(0, 0)]) stBadParam 1 <|
    refuseIf (stray (c.par 1) [(31, 0)] || decide (64 * 2 ^ 20 < len)) stBadParam 2 <|
    refuseIf (stray (c.par 2) [(31, 0)]) stBadParam 3 <|
    noMore c 3 <|
    refuseIf (s.phase ≠ 7 && slot = s.pw.slot) stBadParam 1 <|
    let direct := s.phase = 7 || s.stacks = 0
    let f : FwSession := { slot := slot, length := len, crc := bits (c.par 2) 31 0, direct := direct, data := [], next := 0, lastAt := s.tb.tick }
    let f := { f with erasing := direct }
    let s := if direct then sendBoot ((appendAll s).setImage slot Image.bad) (eraseCmds 0xDC (slotBase slot) 65536 1024) else s
    .done { s with cmd := { s.cmd with fw := some f } } stOk 0 []

/-- FW_UPDATE, DATA: a byte offset and image words. -/
def fwDataBody (c : Cmd) (s : State) : Result :=
  if c.part ≠ 0 then .fail stNotOwner 0 []
  else if c.resv ≠ 0 || c.params.isEmpty then .fail stBadParam 0 []
  else
    let at1 := (c.par 0).toNat
    let ws := c.params.drop 1
    refuseIf (at1 % 8 ≠ 0 || decide (64 * 2 ^ 20 < at1 + 8 * ws.length)) stBadParam 1 <|
    match s.cmd.fw with
    | none => .fail stBadParam 0 []
    | some f =>
      refuseIf (f.direct && at1 ≠ f.next) stBadParam 1 <|
      let data := ((upTo (at1 / 8) ws.length).zip ws).foldl (fun m x => minsert m x.1 x.2) f.data
      let held := min (8 * ws.length) (32 - at1)
      let s := if f.direct then sendBoot s (pageCmds (slotBase f.slot + at1 + held) (8 * ws.length - held)) else s
      let f := { f with data := data, next := max f.next (at1 + 8 * ws.length), lastAt := s.tb.tick, erasing := false }
      .done { s with cmd := { s.cmd with fw := some f } } stOk 0 []

/-- FW_UPDATE, END: a system-wide operation. -/
def fwEndBody (c : Cmd) (s : State) : Result :=
  alone s <|
    checked c true 0 <|
    noMore c 0 <|
    refuseIf s.cmd.fw.isNone stBadParam 0 (.system s)

/-- FW_UPDATE, BEGIN. -/
def execFwUpdateBegin (c : Cmd) (s : State) : Res := .next (runCmd 0x70 c (fwBeginBody c) s)
/-- FW_UPDATE, DATA. -/
def execFwUpdateData (c : Cmd) (s : State) : Res := .next (runCmd 0x70 c (fwDataBody c) s)
/-- FW_UPDATE, END. -/
def execFwUpdateEnd (c : Cmd) (s : State) : Res := .next (runCmd 0x70 c (fwEndBody c) s)

/-- Word `i` of a session's image: a word that was never sent reads as erased flash, or as what the Erg reserve held, a free value (log 4). -/
def fwWord (f : FwSession) (k i : Nat) : Word :=
  match mfind f.data i with
  | some w => w
  | none => if f.direct then BitVec.allOnes 64 else Config.freeValue (k + i)

/-- The CRC-32 of R174 over `n` bytes of an image from word `i`. -/
def fwCrc (f : FwSession) (k i n : Nat) : Nat :=
  let crc := (upTo i (n / 8)).foldl (fun c j => crc32Word c (fwWord f k j)) 0xFFFFFFFF
  Nat.xor (crcBits 32 0x04C11DB7 (8 * (n % 8)) ((fwWord f k (i + n / 8)).toNat / 2 ^ (64 - 8 * (n % 8))) crc) 0xFFFFFFFF

/-- The slot as END leaves it (R461, R463): the header's generation is set and its CRC recomputed. -/
def State.fwImage (s : State) (f : FwSession) (k : Nat) : Image :=
  let w0 := fwWord f k 0
  let w1 := fwWord f k 1
  let len := bits (fwWord f k 2) 31 0
  let top := max (if (s.image 0).valid then (s.image 0).generation else 0) (if (s.image 1).valid then (s.image 1).generation else 0)
  let gen := if s.phase = 7 then top + 1 else (s.image s.pw.slot).generation + 1
  let ok := bits w0 63 32 = 0x5453494D && decide (len ≤ 64 * 2 ^ 20 - 32) && fwCrc f k 4 len = bits (fwWord f k 3) 31 0 && decide (bits w1 39 32 ≤ 0xB0)
  { valid := ok, generation := gen % 2 ^ 32, major := bits w1 63 56, minor := bits w1 55 48, patch := bits w1 47 40, minStep := bits w1 39 32, length := len, crc := bits (fwWord f k 3) 31 0 }

/-- What END sends the flash (R413, R497): it erases the sectors that the image covers and programs them, or in a direct session programs the four header
words, and reads the slot back. -/
def State.endCmds (s : State) (f : FwSession) : List Out :=
  let a := slotBase f.slot
  let write := if f.direct then pageCmds a 32 else eraseCmds 0xDC a 65536 (ceilDiv f.length 65536) ++ pageCmds a f.length
  write ++ [bootRead (s.flag F.pwg_quad 0) a f.length]

/-- R413, R463, R497, R498: END ends, after the retirements that are due by then. A wrong length or CRC writes nothing; `ok` says that the slot read back as written. The session closes. -/
def execFwImageWritten (ok : Bool) (s : State) : Res :=
  match s.cmd.sysOp with
  | none => .next s
  | some o =>
    if o.op ≠ 0x70 then .next s
    else match s.cmd.fw with
      | none => .next (raise (sysDone s o stInternal []) (dieSource 15 8) 0x15 0 false)
      | some f =>
        let k := s.freeCount
        let fits := f.next = 8 * ceilDiv f.length 8 && fwCrc f k 0 f.length = f.crc
        let s := if fits then sendBoot (appendAll s) (s.endCmds f) else s
        let s := { s with freeCount := s.freeCount + 2 ^ 23, cmd := { s.cmd with fw := none } }
        if fits && ok then .next (sysDone (s.setImage f.slot (s.fwImage f k)) o stOk [])
        else
          let s := if fits then s.setImage f.slot Image.bad else s
          .next (raise (sysDone s o stInternal []) (dieSource 15 8) 0x15 0 false)

/-! ### A reset during a flash operation (R457, R498, R499) -/

/-- The retirement record as a reset leaves it that meets the append of its next entry: nothing, part of an entry (a word that fails
its check), or the entry in copy A or in both. -/
def cutRecord (v : Word) (torn : Bool) (s : State) : State :=
  match s.flt.toRecord with
  | [] => s
  | w :: _ =>
    let first := bit v 2
    let a := s.pw.recA
    let b := s.pw.recB
    if torn then
      { s with pw := { s.pw with recA := if first then a ++ [0#64] else a ++ [w], recB := if first then b else b ++ [0#64] } }
    else { s with pw := { s.pw with recA := if bit v 3 then a ++ [w] else a, recB := if bit v 3 && bit v 4 then b ++ [w] else b } }

/-- The slot that END writes as a reset leaves it: as before, broken, or written. -/
def cutSlot (v : Word) (torn : Bool) (s : State) : State :=
  match s.slotWriting with
  | some f => if torn then s.setImage f.slot Image.bad else if bit v 5 then s.setImage f.slot (s.fwImage f s.freeCount) else s
  | none => s

/-- The older directory copy as a reset leaves it: as before, broken, or rewritten. -/
def cutDirectory (v : Word) (torn : Bool) (s : State) : State :=
  if !s.pw.dirDirty then s
  else
    let put := fun (d : Directory) => { s with pw := { s.pw with dirA := if s.useA then s.pw.dirA else d, dirB := if s.useA then d else s.pw.dirB } }
    if torn then put { s.nextDirectory with crc := (s.nextDirectory.crc + 1) % 2 ^ 32 } else if bit v 6 then put s.nextDirectory else s

/-- A reset cuts the flash operations that are due or running; a free choice says how far they had come, and at most one structure is
damaged (R499, log 52). -/
def flashCut (s : State) : State :=
  if s.flt.toRecord.isEmpty && s.slotWriting.isNone && !s.pw.dirDirty then s
  else
    let v := Config.freeValue s.freeCount
    let torn := bits v 1 0
    let t := { s with freeCount := s.freeCount + 1 }
    let t := cutRecord v (torn = 1) (cutSlot v (torn = 2) (cutDirectory v (torn = 3) t))
    { t with freeCount := s.freeCount + 1 + 2 ^ 23 }

/-- R455 to R457, R493: RESET_N is low for a time; less than 2 µs is ignored, 10 µs or more resets the device. -/
def execResetAssert (lowTicks : Nat) (s : State) : Res :=
  .next (pulse lowTicks 3200 16000 s fun s => resetKeeping (flashCut s) true)

/-- R455, R493: PWR_GOOD falls; less than 0.2 µs is ignored, 1 µs or more has the effect of RESET_N low. -/
def execPwrGoodFall (lowTicks : Nat) (s : State) : Res :=
  .next (pulse lowTicks 320 1600 s fun s =>
    let t := resetKeeping (flashCut s) true
    { t with pw := { t.pw with pwrGood := false } })

/-- R413: no DATA for 60 s of device time: the session closes unwritten, whatever else runs; one whose END is running is ended by it. -/
def execFwSessionTimeout (s : State) : Res :=
  match s.cmd.fw with
  | none => .next s
  | some f =>
    if s.cmd.sysOp.any fun o => o.op = 0x70 then .next s
    else
      let s := advanceTo s (f.lastAt + 60 * Config.second)
      .next { s with cmd := { s.cmd with fw := none } }

/-! ### SELFTEST (R467 to R470) -/

/-- SELFTEST (R467): a set of tests 0 to 5. Calibration sets in progress are abandoned (R468). -/
def selftestBody (c : Cmd) (s : State) : Result :=
  alone s <|
    checked c true 1 <|
    refuseIf (stray (c.par 0) [(5, 0)] || c.par 0 = 0#64) stBadParam 1 <|
    noMore c 1 <|
    refuseIf (!s.ergIdle) stBadParam 0 <|
    .system (s.interps.foldl (fun s e => s.setInterp e.1 (s.interp e.1).dropSet) s)

/-- SELFTEST. -/
def execSelftest (c : Cmd) (s : State) : Res := .next (runCmd 0x62 c (selftestBody c) s)

/-- An element may be tested: it is not in use, an interpolator is in service (R467), and its domain is on. -/
def State.testable (s : State) (n : Nat) : Bool :=
  if s.srcOff n then false
  else if n ≤ 0x07FF then s.laneState (n % 1024) = 0
  else if 0x0C00 ≤ n ∧ n ≤ 0x0FFF then s.inService (512 + (n - 0x0C00))
  else if 0x1000 ≤ n ∧ n ≤ 0x11FF then s.inService (n - 0x1000)
  else if 0x4000 ≤ n ∧ n ≤ 0x7FFF then s.laneState (s.get F.qhc_lane (n - 0x4000)) = 0
  else if 0x8000 ≤ n ∧ n ≤ 0x80FF ∧ n % 16 = 5 then
    s.stackOn (n / 16 % 16 - 8) && (upTo (256 * (n / 16 % 16 - 8)) 256).all fun l => s.laneState l = 0 || s.laneState l = 10
  else true

/-- The elements that a test covers, by their fault sources (R418, R467): queue lines and physical tiles, stacks, Saddle links, lanes, interpolators, and what has
a checker or a vote. -/
def covers (b n : Nat) : Bool :=
  let queue := decide (0x0400 ≤ n ∧ n ≤ 0x07FF) || decide (0x4000 ≤ n ∧ n ≤ 0x7FFF)
  let tile := decide (0x1800 ≤ n ∧ n ≤ 0x1A7F)
  let stack := decide (0x8000 ≤ n ∧ n ≤ 0x80FF ∧ n % 16 = 5)
  let interp := decide (0x0C00 ≤ n ∧ n ≤ 0x11FF)
  match b with
  | 0 => queue || tile
  | 1 => stack
  | 2 => isSaddle n
  | 3 => decide (n ≤ 0x03FF)
  | 4 => interp
  | _ => decide (n ≤ 0x03FF) || queue || tile || stack || interp || isSaddle n || decide (0x8000 ≤ n ∧ n ≤ 0x80FF ∧ n % 16 = 2) || n = dieSource 15 7

/-- The elements that a test tests (R467, R470). Of lanes and of interpolators they are those it does not skip. How many elements a stack, a link, an array
or a checker counts for is not stated: `told` is their number, none where every stack is skipped (log 43). -/
def State.testedCount (s : State) (b told : Nat) : Nat :=
  let mine := fun (a n : Nat) => ((upTo a n).filter s.testable).length
  match b with
  | 1 => if (upTo 0 4).any fun i => s.testable (dieSource (8 + i) 5) then told else 0
  | 3 => mine 0 1024
  | 4 => mine 0x0C00 1536
  | _ => told

/-- The arrays of the SRAM march are zero after it (R468). -/
def clearArrays (s : State) : State :=
  { s with
    tiles := s.tiles.foldl (fun m e => if s.domOn (tileDomain e.1) then mset Tile.init m e.1 { e.2 with hits := [], ring := [] } else m) s.tiles
    accs := s.accs.filter fun e => !s.domOn (tileDomain (chanTile e.1)) }

/-- Every available stack whose lane die is at rest holds zeros after the Erg test (R467, R468). -/
def clearStacks (s : State) (all : Bool) : State :=
  (stacksOf s.domOn).foldl (fun s n => if all || s.testable (dieSource (8 + n) 5) then dropStack s n else s) s

/-- R467 to R470: the tests end: the faults of the elements that failed, zeroed arrays and stacks, and one word per requested test. -/
def execSelftestComplete (results : List TestResult) (s : State) : Res :=
  match s.cmd.sysOp with
  | none => .next s
  | some o =>
    if o.op ≠ 0x62 then .next s
    else
      let asked := (upTo 0 6).filter (bit (o.cmd.par 0))
      let found := fun (b : Nat) => (results.find? fun r => r.bit = b).getD { bit := b, failed := [], tested := 0, run := false }
      let named := fun (e : Nat × Nat) => if isSaddle e.1 then e.2 % 16384 else if e.1 % 16 = 5 && decide (0x8000 ≤ e.1) then e.2 % 2 ^ 22 else 0
      let failed := fun (b : Nat) => distinct (((found b).failed.filter fun e => isSource e.1 && covers b e.1 && s.testable e.1 && (found b).run).map
        fun e => e.1 * 2 ^ 22 + named e)
      let word := fun (b : Nat) =>
        let res := if !(found b).run then 2 else b2n (!(failed b).isEmpty)
        pack [(63, 56, b), (55, 54, res), (53, 32, min (2 ^ 22 - 1) (failed b).length), (31, 0, if (found b).run then min (2 ^ 32 - 1) (s.testedCount b (found b).tested) else 0)]
      let ws := asked.map word
      let bad := asked.flatMap failed
      let s := if asked.contains 0 && (found 0).run then clearArrays s else s
      let s := if asked.contains 1 && (found 1).run then clearStacks s false else s
      let interp := fun (n : Nat) => decide (0x0C00 ≤ n ∧ n ≤ 0x11FF)
      let s := bad.foldl (fun s e => raise s (e / 2 ^ 22) (if interp (e / 2 ^ 22) then 0x02 else 0x01) (e % 2 ^ 22) false) s
      .next (sysDone s o stOk ws)

/-! ### ERG_CLEAR (R414) -/

/-- ERG_CLEAR: it closes any FW_UPDATE session. -/
def ergClearBody (c : Cmd) (s : State) : Result :=
  alone s <|
    checked c true 0 <|
    noMore c 0 <|
    refuseIf (!s.ergIdle) stBadParam 0 <|
    .system { s with cmd := { s.cmd with fw := none } }

/-- ERG_CLEAR. -/
def execErgClear (c : Cmd) (s : State) : Res := .next (runCmd 0x63 c (ergClearBody c) s)

/-- R414: every powered stack has been cleared, and ERG_CLEAR replies. -/
def execErgClearComplete (s : State) : Res :=
  match s.cmd.sysOp with
  | none => .next s
  | some o => if o.op ≠ 0x63 then .next s else .next (sysDone (clearStacks s true) o stOk [])

end Sys2Proof.Machine
end

