-- ==== Sys2Proof/Machine/Commands.lean ====
section
/-! DEFINITION. The command engines and their ports (12_commands.md, R367 to R388; R417): partitions, STATUS and IDENTIFY, command frames, the
serial management port, and the taking of a packet. -/

namespace Sys2Proof.Machine

/-! ### NOP, IDENTIFY, STATUS -/

/-- NOP (R411). -/
def nopBody (c : Cmd) (s : State) : Result := checked c false 0 (noMore c 0 (.done s stOk 0 []))

/-- NOP. -/
def execNop (c : Cmd) (s : State) : Res := .next (runCmd 0x00 c (nopBody c) s)

/-- IDENTIFY (R8): the identity of the revision, the host lanes, the running firmware and the serial number. -/
def identifyBody (c : Cmd) (s : State) : Result :=
  checked c false 0 <|
    noMore c 0 <|
    let w0 := pack [(63, 48, 0x5C20), (47, 40, 0xB0), (39, 32, 0xB0), (31, 24, 0xB1), (23, 20, 1), (19, 16, 4), (8, 0, (upTo 0 1024).countP s.host)]
    let i := s.image s.pw.slot
    let fw := if s.phase = 7 then [(39, 32, 0xFF)] else [(63, 56, i.major), (55, 48, i.minor), (47, 40, i.patch), (39, 32, s.pw.slot)]
    .done s stOk 0 [w0, pack ((31, 0, Config.serial.toNat) :: fw)]

/-- IDENTIFY. -/
def execIdentify (c : Cmd) (s : State) : Res := .next (runCmd 0x01 c (identifyBody c) s)

/-- STATUS (R411): device time and PART word 0. -/
def statusBody (c : Cmd) (s : State) : Result :=
  checked c false 0 (noMore c 0 (.done s stOk 0 [devWord s.nowFine, s.partWord c.part c.part 0x02]))

/-- STATUS. -/
def execStatus (c : Cmd) (s : State) : Res := .next (runCmd 0x02 c (statusBody c) s)

/-! ### Partitions -/

/-- PARTITION_CLAIM (R379). -/
def claimBody (c : Cmd) (s : State) : Result :=
  checked c false 1 <|
    let w := bits (c.par 0) 31 0
    refuseIf (stray (c.par 0) [(31, 0)]) stBadParam 1 <|
    noMore c 1 <|
    refuseIf (c.part = 0) stBadParam 0 <|
    if s.flag F.part0_claimed c.part && s.get F.part0_claimant c.part ≠ w then
      .fail stNotOwner 0 [BitVec.ofNat 64 (s.get F.part0_claimant c.part)]
    else
      let s := ((s.put F.part0_claimed c.part 1).put F.part0_claimant c.part w).put F.part0_claim_lane c.part (c.lane.getD 0)
      .done (s.put F.part0_claim_smp c.part (b2n c.lane.isNone)) stOk 0 []

/-- PARTITION_CLAIM. -/
def execPartitionClaim (c : Cmd) (s : State) : Res := .next (runCmd 0x08 c (claimBody c) s)

/-- A partition is released (R380): its claim ends and its pending words return to their live values. -/
def release (s : State) (p : Nat) : State :=
  discard ((((s.put F.part0_claimed p 0).put F.part0_claimant p 0).put F.part0_claim_lane p 0).put F.part0_claim_smp p 0) p

/-- PARTITION_RELEASE (R379, R380). -/
def releaseBody (c : Cmd) (s : State) : Result :=
  if c.resv ≠ 0 then .fail stBadParam 0 []
  else if c.part ≠ 0 then
    refuseIf (!c.params.isEmpty) stBadParam 1 (.done (release s c.part) stOk 0 [])
  else
    let p := bits (c.par 0) 7 0
    refuseIf c.params.isEmpty stBadParam 0 <|
    refuseIf (stray (c.par 0) [(7, 0)] || p = 0) stBadParam 1 <|
    noMore c 1 <|
    if (s.chan p).op ≠ 0xFF then .fail stBusy 0 [busyWord s p] else .done (release s p) stOk 0 []

/-- PARTITION_RELEASE. -/
def execPartitionRelease (c : Cmd) (s : State) : Res := .next (runCmd 0x09 c (releaseBody c) s)

/-- A binding slot of a partition (R382): the word's selector and the slot's lowest bit. -/
def bindSlot (i : Nat) : Nat × Nat := (1 + i / 4, 48 - 16 * (i % 4))

/-- What a binding slot holds. -/
def State.slotAt (s : State) (p i : Nat) : Nat := bits (s.word 12 (bindSlot i).1 p) ((bindSlot i).2 + 15) (bindSlot i).2

/-- Writes a binding slot. -/
def State.setSlot (s : State) (p i v : Nat) : State :=
  s.setWord 12 (bindSlot i).1 p (setBits (s.word 12 (bindSlot i).1 p) ((bindSlot i).2 + 15) (bindSlot i).2 v)

/-- PARTITION_BIND, both forms: partition 0, one parameter. -/
def bindChecked (c : Cmd) (k : Nat → Nat → Result) : Result :=
  checked c true 1 <|
    refuseIf (stray (c.par 0) [(17, 0)]) stBadParam 1 <| noMore c 1 (k (bits (c.par 0) 17 10) (bits (c.par 0) 9 0))

/-- A slot of a partition takes a binding or none; commands meet it once the reply has left (R378). -/
def State.rebind (s : State) (p i l : Nat) (on : Bool) : State :=
  let t := s.setSlot p i (if on then 32768 + l else 0)
  { t with cmd := { t.cmd with binding := some (p, l, on) } }

/-- PARTITION_BIND, bind (R378). -/
def bindBody (c : Cmd) (s : State) : Result :=
  bindChecked c fun p l =>
    refuseIf (!s.hostOf l || s.laneState l = 10) stBadParam 1 <|
    if (s.bound p).contains l then .done s stOk 0 []
    else match (upTo 0 8).find? fun i => decide (s.slotAt p i < 32768) with
      | some i => .done (s.rebind p i l true) stOk 0 []
      | none => .fail stNoResource 0 []

/-- A host queue of a partition is enabled on a lane, by the words after every CINCH given GO (R353, R392). -/
def State.queueNames (s : State) (p l : Nat) : Bool :=
  (distinct (0 :: s.places 5 5)).any fun q => q / 64 = p && s.getLatest F.qhc_en q = 1 && s.getLatest F.qhc_lane q = l

/-- PARTITION_BIND, unbind (R378, R353). DESIGN CHOICE (log 17): an unbind names a retired lane to end its use and is answered as R378 says, not
with the ST_RETIRED that R160 gives to commands naming a retired lane. -/
def unbindBody (c : Cmd) (s : State) : Result :=
  bindChecked c fun p l =>
    refuseIf (s.queueNames p l) stBadParam 1 <|
    match (upTo 0 8).find? fun i => s.slotAt p i = 32768 + l with
    | some i => .done (s.rebind p i l false) stOk 0 []
    | none => .done s stOk 0 []

/-- PARTITION_BIND, bind. -/
def execPartitionBind (c : Cmd) (s : State) : Res := .next (runCmd 0x0A c (bindBody c) s)
/-- PARTITION_BIND, unbind. -/
def execPartitionUnbind (c : Cmd) (s : State) : Res := .next (runCmd 0x0A c (unbindBody c) s)

/-! ### Command frames on host lanes -/

/-- A frame comes whole on a host-facing lane that is UP (R175, R355, R369): a command frame enters the receive buffer of 4, or is discarded
and counted; any other is discarded and counted in frames_bad of the group's first lane. -/
def hostFrame (s : State) (lane : Nat) (f : Frame) : State :=
  let g := s.groupOf lane
  let (s, f) := frameBlocks s g f
  if !frameOk f [6] then s.satInc F.ltsd_frames_bad g 1
  else
    let s := frameSeq s g f
    let x := s.hlane lane
    if 4 ≤ x.rx.length then s.satInc F.lsc_cmd_drops lane 1
    else
      let ws := f.words.take (max 1 (ceilDiv (frameBytes f) 8))
      s.setHlane lane { x with rx := x.rx ++ [ws], heard := x.heard ++ [s.boundNow (bits (ws.headD 0#64) 55 48) lane] }

/-- R355: a frame arrives whole on a host-facing lane. -/
def execHostFrameReceive (lane : Nat) (f : Frame) (s : State) : Res :=
  if s.host lane && s.laneUp lane then .next (hostFrame s lane f) else .next s

/-- R369: a command frame arrives on a host-facing lane. -/
def execCommandFrameReceive (lane : Nat) (f : Frame) (s : State) : Res :=
  if s.host lane && s.laneUp lane && f.kind = 6 then .next (hostFrame s lane f) else .next s

/-! ### Taking a packet -/

/-- The command of a packet on a lane or the serial management port (R373), taken at a tick. -/
def packetCmd (lane : Option Nat) (t : Nat) (h : Word) (ps : List Word) : Cmd :=
  { tick := t, lane := lane, part := bits h 55 48, tag := bits h 47 32, resv := bits h 15 0, params := ps }

/-- The opcodes that only partition 0 may use (R411). -/
def sysOnly (op : Nat) : Bool := [0x0A, 0x20, 0x22, 0x23, 0x33, 0x35, 0x5B, 0x60, 0x61, 0x62, 0x63, 0x70].contains op

/-- The opcodes of the table (R411). -/
def knownOp (op : Nat) : Bool :=
  [0x00, 0x01, 0x02, 0x08, 0x09, 0x0A, 0x10, 0x11, 0x12, 0x13, 0x14, 0x20, 0x21, 0x22, 0x23, 0x28, 0x29, 0x2A, 0x2B, 0x30, 0x31, 0x32, 0x33,
    0x34, 0x35, 0x38, 0x39, 0x3A, 0x40, 0x41, 0x42, 0x43, 0x44, 0x48, 0x49, 0x50, 0x52, 0x58, 0x59, 0x5A, 0x5B, 0x60, 0x61, 0x62, 0x63, 0x70].contains op

/-- An opcode that is not in the table: rows 3 and 4 of R377 come before it. -/
def runUnknown (op : Nat) (c : Cmd) (s : State) : State :=
  let s := advanceTo s c.tick
  if !isBound s c then sendReply (s.satInc F.part3_not_owner c.part 1) c op stNotOwner 0 [] false
  else if s.chanBusy c.part then sendReply (s.satInc F.part3_busy_replies c.part 1) c op stBusy 0 [busyWord s c.part] false
  else finish s c op stBadOpcode 0 []

/-- A form that is not listed for its opcode (R411, R508). -/
def formBody (op : Nat) (c : Cmd) (_s : State) : Result :=
  if sysOnly op && c.part ≠ 0 then .fail stNotOwner 0 [] else .fail stBadParam 0 []

/-- A packet whose opcode and form are no row of the command table is answered all the same (R377). -/
def packetOther (op : Nat) (c : Cmd) (s : State) : Res := .next (if knownOp op then runCmd op c (formBody op c) s else runUnknown op c s)

/-- The command of a header: commands 0x00 to 0x1F (R411). -/
def packetBasic (op form : Nat) (c : Cmd) (s : State) : Res :=
  match op, form with
  | 0x00, 0 => execNop c s
  | 0x01, 0 => execIdentify c s
  | 0x02, 0 => execStatus c s
  | 0x08, 0 => execPartitionClaim c s
  | 0x09, 0 => execPartitionRelease c s
  | 0x0A, 0 => execPartitionBind c s
  | 0x0A, 1 => execPartitionUnbind c s
  | 0x10, 0 => execReadObjLive c s
  | 0x10, 1 => execReadObjStaged c s
  | 0x11, 0 => execWriteStaged c s
  | 0x12, 0 => execWriteLive c s
  | 0x13, 0 => execCinch c s
  | 0x14, 0 => execDiscardStaged c s
  | _, _ => packetOther op c s

/-- The command of a header: commands 0x20 to 0x2F (R411). -/
def packetTime (op form : Nat) (c : Cmd) (s : State) : Res :=
  match op, form with
  | 0x20, 0 => execRefSelectAuto c s
  | 0x20, 1 => execRefSelectForced c s
  | 0x20, 2 => execRefSelectHoldover c s
  | 0x21, 0 => execRefStatus c s
  | 0x22, 0 => execTimeSet c s
  | 0x23, 0 => execPpsAlignMeasure c s
  | 0x23, 1 => execPpsAlignStep c s
  | 0x28, 0 => execCalStartSweep c s
  | 0x28, 1 => execCalStartRecover c s
  | 0x29, 0 => execCalStatus c s
  | 0x2A, 0 => execCalLockRelease c s
  | 0x2A, 1 => execCalLock c s
  | 0x2B, 0 => execCalTableReadInForce c s
  | 0x2B, 1 => execCalTableReadWaiting c s
  | _, _ => packetOther op c s

/-- The command of a header: commands 0x30 to 0x3F (R411). -/
def packetLink (op form : Nat) (c : Cmd) (s : State) : Res :=
  match op, form with
  | 0x30, 0 => execLaneUp c s
  | 0x31, 0 => execLaneDown c s
  | 0x32, 0 => execLaneRetrain c s
  | 0x33, 0 => execLaneGroupConfig c s
  | 0x33, 1 => execLaneGroupWidth c s
  | 0x34, 0 => execLaneTestStart c s
  | 0x34, 1 => execLaneTestStop c s
  | 0x34, 2 => execLaneTestRead c s
  | 0x35, 0 => execLaneRetire c s
  | 0x38, 0 => execPartnerRead c s
  | 0x39, 0 => execPartnerWrite c s
  | 0x3A, 0 => execPartnerTxnStatus c s
  | _, _ => packetOther op c s

/-- The command of a header: commands 0x40 to 0x57 (R411). -/
def packetData (op form : Nat) (c : Cmd) (s : State) : Res :=
  match op, form with
  | 0x40, 0 => execTrigArm c s
  | 0x41, 0 => execTrigDisarm c s
  | 0x42, 0 => execTrigForce c s
  | 0x43, 0 => execSegRead c s
  | 0x44, 0 => if bit (c.par 0) 63 then execSegReleaseAll c s else execSegRelease c s
  | 0x48, 0 => execStatsGateStart c s
  | 0x48, 1 => execStatsGateStop c s
  | 0x49, 0 => execStatsReadLast c s
  | 0x49, 1 => execStatsReadRunning c s
  | 0x50, 0 => execQueueFlush c s
  | 0x52, 0 => execQueueStatusIngress c s
  | 0x52, 1 => execQueueStatusHost c s
  | 0x52, 2 => execQueueStatusAnchor c s
  | _, _ => packetOther op c s

/-- The command of a header: commands 0x58 and above (R411). -/
def packetCare (op form : Nat) (c : Cmd) (s : State) : Res :=
  match op, form with
  | 0x58, 0 => execFaultRead c s
  | 0x59, 0 => execFaultClear c s
  | 0x5A, 0 => execFaultHistory c s
  | 0x5B, 0 => execAwl c s
  | 0x60, 0 => execPowerDomainOff c s
  | 0x60, 1 => execPowerDomainOn c s
  | 0x61, 0 => execTileRetire c s
  | 0x62, 0 => execSelftest c s
  | 0x63, 0 => execErgClear c s
  | 0x70, 0 => execFwUpdateBegin c s
  | 0x70, 1 => execFwUpdateData c s
  | 0x70, 2 => execFwUpdateEnd c s
  | _, _ => packetOther op c s

/-- The command of an opcode and form (R411). -/
def packetExec (op form : Nat) (c : Cmd) (s : State) : Res :=
  if op < 0x20 then packetBasic op form c s
  else if op < 0x30 then packetTime op form c s
  else if op < 0x40 then packetLink op form c s
  else if op < 0x58 then packetData op form c s
  else packetCare op form c s

/-- The engines check a packet (R377): row 2 first, then the command of its header. -/
def takePacket (lane : Option Nat) (t : Nat) (h : Word) (ps : List Word) (s : State) : Res :=
  let c := packetCmd lane t h ps
  if ps.length ≠ bits h 31 24 then .next (sendReply (advanceTo s t) c (bits h 63 56) stBadParam 0 [] false)
  else packetExec (bits h 63 56) (bits h 23 16) c s

/-- The requesters of the engines' arbiter: 0 the serial management port, l + 1 lane l. -/
def requester (lane : Option Nat) : Nat :=
  match lane with
  | none => 0
  | some l => l + 1

/-- The requesters whose packets the engines can take (R369, R385). -/
def State.takers (s : State) : List Nat :=
  let ok := fun (lane : Option Nat) => canArrive s (packetCmd lane 0 0 [])
  (if s.cmd.smpIn.isSome && ok none then [0] else []) ++
    ((s.hlanes.filter fun e => !e.2.rx.isEmpty && ok (some e.1)).map fun e => e.1 + 1)

/-- The requesters that the engines' arbiter serves: the host-facing lanes and the serial management port (R385). -/
def State.portCount (s : State) : Nat := (upTo 0 1024).countP s.host + 1

/-- The engines judge the next packet by the binding it met when it came, `none` outside the taking of one (R378). -/
def State.hear (s : State) (b : Option Bool) : State := { s with cmd := { s.cmd with heard := b } }

/-- The engines take the packet of a requester (R369, R377, R378). -/
def takeFrom (r t : Nat) (s : State) : Res :=
  match r with
  | l + 1 =>
    let x := s.hlane l
    match x.rx with
    | (h :: ps) :: rest =>
      match takePacket (some l) t h ps ((s.setHlane l { x with rx := rest, heard := x.heard.drop 1 }).hear x.heard.head?) with
      | .next u => .next (u.hear none)
      | r => r
    | _ => .next s
  | 0 =>
    match s.cmd.smpIn with
    | some (h :: ps) => takePacket none t h ps { s with cmd := { s.cmd with smpIn := none } }
    | _ => .next s

/-- R22, R369, R377, R385: free engines take the oldest frame of a lane's buffer, or the packet at the serial management port, unless a requester that has
waited longer must go first. -/
def execCommandTake (lane : Option Nat) (t : Nat) (s : State) : Res :=
  let ws := s.takers
  if !ws.contains (requester lane) then .next s
  else
    let r := s.granted 0 s.portCount ws (requester lane)
    takeFrom r t (noteGrant s 0 ws r)

/-! ### The serial management port -/

/-- The serial management port works: RESET_N is high and start-up has reached RUNNING or RECOVERY (R456). -/
def State.smpReady (s : State) : Bool := !s.pw.resetLow && decide (6 ≤ s.phase)

/-- R371, R372, R456, R495: a packet written over the port, with the word after it, `none` for one cut short. -/
def execSmpWriteTransfer (words : List Word) (crc : Option Word) (s : State) : Res :=
  match crc with
  | none => .next s
  | some w =>
    if !s.smpReady || words.isEmpty || bits w 31 0 ≠ crc32 words || !s.cmd.smpOut.isEmpty || s.cmd.smpIn.isSome then .next s
    else .next { s with cmd := { s.cmd with smpIn := some words } }

/-- R371, R383, R456, R495: a read over the port: the ready word, and with it the next reply packet and its CRC word. A read that is not
`complete` leaves the reply waiting. -/
def execSmpReadTransfer (complete : Bool) (s : State) : Res :=
  match s.smpReady, s.cmd.smpOut with
  | true, r :: rest =>
    let ready : Word := 0x8000000000000000#64
    match complete, r.packets with
    | false, _ => .next (send s (.smpReply [ready]))
    | true, p :: q :: ps =>
      let t := send s (.smpReply (ready :: p ++ [BitVec.ofNat 64 (crc32 p)]))
      .next { t with cmd := { t.cmd with smpOut := { r with packets := q :: ps } :: rest } }
    | true, ps =>
      let p := ps.headD []
      let t := send s (.smpReply (ready :: p ++ [BitVec.ofNat 64 (crc32 p)]))
      let t := { t with cmd := { t.cmd with smpOut := rest } }
      .next (if r.frees then freeChan t r.part else t)
  | _, _ => .next (send s (.smpReply [0#64]))

/-! ### Lockstep -/

/-- A POWER_DOMAIN is abandoned: its domain stays as it was. -/
def abandonPower (s : State) (e : Nat × DomOp) : State :=
  let t := { (s.put F.pwg_avail_change 0 (b2n s.cycleStacks)) with pw := { s.pw with ops := merase s.pw.ops e.1 } }
  if e.2.waits then t
  else if t.get F.pws_pstate e.1 = 4 then t.put F.pws_pstate e.1 3
  else if t.get F.pws_pstate e.1 = 1 || t.get F.pws_pstate e.1 = 2 then t.put F.pws_pstate e.1 0 else t

/-- The command that a reply answers, from the reply's header (R374). -/
def replyCmd (s : State) (lane : Option Nat) (r : Reply) : Cmd :=
  packetCmd lane s.tb.tick ((r.packets.headD []).headD 0#64 &&& ~~~(fieldMask 15 0)) []

/-- The reply that keeps a partition's channel busy is withdrawn: the command it answers, and the state without it. -/
def takeReply (s : State) (p : Nat) : Option (Cmd × State) :=
  let mine := fun (r : Reply) => r.frees && r.part = p
  match s.cmd.smpOut.find? mine with
  | some r => some (replyCmd s none r, { s with cmd := { s.cmd with smpOut := s.cmd.smpOut.filter fun x => !mine x } })
  | none => s.hlanes.findSome? fun e => (e.2.replies.find? mine).map fun r =>
      (replyCmd s (some e.1) r, s.setHlane e.1 { e.2 with replies := e.2.replies.filter fun x => !mine x })

/-- The command in progress that keeps a partition's channel busy, with its opcode, and the state in which it is no longer
pending (R387; log 18). -/
def inProgress (s : State) (p : Nat) : Option (Cmd × Nat × State) :=
  match s.cmd.sysOp with
  | some o =>
    if o.cmd.part = p then some (o.cmd, o.op, { s with cmd := { s.cmd with sysOp := none, fw := if o.op = 0x70 then none else s.cmd.fw } }) else none
  | none =>
    match (s.chan p).op with
    | 0x13 =>
      match s.cmd.cinches.find? fun j => j.cmd.part = p with
      | some j => some (j.cmd, 0x13, { s with cmd := { s.cmd with cinches := s.cmd.cinches.erase j } })
      | none => (s.cmd.gone.findSome? fun g => g.reply.filter fun c => c.part = p).map fun c =>
        (c, 0x13, { s with cmd := { s.cmd with gone := s.cmd.gone.map fun (g : Gone) => if g.reply = some c then { g with reply := none } else g } })
    | 0x20 => s.rf.sel.map fun x => (x.cmd, 0x20, { s with rf := { s.rf with sel := none } })
    | 0x22 => s.tb.step.map fun x => (x.cmd, 0x22, { s with tb := { s.tb with step := none } })
    | 0x23 =>
      match s.rf.pps with
      | some x => some (x.cmd, 0x23, { s with rf := { s.rf with pps := none } })
      | none => s.tb.step.map fun x => (x.cmd, 0x23, { s with tb := { s.tb with step := none } })
    | 0x28 => (s.calOps.find? fun o => o.cmd.part = p).map fun o => (o.cmd, 0x28, { s with calOps := s.calOps.erase o })
    | 0x60 => s.pw.ops.head?.map fun e => (e.2.cmd, 0x60, abandonPower s e)
    | 0x61 =>
      (s.tiles.find? fun e => (e.2.remap.bind fun r => r.cmd).isSome).bind fun e =>
        (e.2.remap.bind fun r => r.cmd).map fun c => (c, 0x61, s.setTile e.1 { e.2 with remap := none })
    | _ => none

/-- The command that keeps a partition's channel busy is abandoned: one in progress, or one whose reply has not left yet and is withdrawn (R383, R416). -/
def abandoned (s : State) (p : Nat) : Option (Cmd × Nat × State) :=
  match inProgress s p with
  | some x => some x
  | none => (takeReply s p).map fun r => (r.1, (s.chan p).op, r.2)

/-- R416, R417: the engines' compare fails over the command of a partition, which is abandoned with ST_INTERNAL; the engines resynchronise.
The mismatch and the ST_INTERNAL each raise a fault. -/
def execLockstepMismatch (partition : Nat) (s : State) : Res :=
  if s.cmd.resync || s.phase < 6 || s.pw.resetLow then .next s
  else
    let (s, inj) := awlTake s (dieSource 15 7)
    let s := lockstepFault s inj
    match abandoned s partition with
    | some (c, op, t) => .next (internalFault t c op)
    | none => .next s

/-- R417: the engines have resynchronised from voted state. -/
def execEngineResyncComplete (s : State) : Res := .next { s with cmd := { s.cmd with resync := false } }

end Sys2Proof.Machine
end

