-- ==== Sys2Proof/Machine/Pins.lean ====
section
/-! DEFINITION. The output pins and the test access port (15_package_pins.md, R490, R500 to R503; R345, R346, R427, R456, R464). -/

namespace Sys2Proof.Machine

/-! ### Pins -/

/-- The pins show what runs: RESET_N is high and start-up has reached RUNNING (R456, R464). -/
def State.pinsLive (s : State) : Bool := !s.pw.resetLow && s.phase = 6

/-- ATTN_N is high: no queue has attn and attn_en (R345), or the boundary register releases it (R502). -/
def State.attnN (s : State) : Bool :=
  let ing := (s.places 5 2).any fun l => s.flag F.qia_attn l && s.flag F.qic_attn_en l
  let host := (s.places 5 6).any fun q => s.flag F.qha_attn q && s.flag F.qhc_attn_en q
  if s.tapDrives then s.tapReleases 2162 else !(s.pinsLive && (ing || host))

/-- THROTTLE[p] is asserted (R346). -/
def State.throttled (s : State) (p : Nat) : Bool :=
  ((s.places 5 2).any fun l => s.flag F.qia_paused l && s.flag F.qic_thr_en l && s.get F.qic_thr_pin l = p) ||
    ((s.places 5 6).any fun q => s.flag F.qha_paused q && s.flag F.qhc_thr_en q && s.get F.qhc_thr_pin q = p)

/-- The level that the device gives THROTTLE[p]: low before RUNNING, then as QUEUE.thr_pol gives (R346, R456). -/
def State.throttle (s : State) (p : Nat) : Bool := s.pinsLive && (s.throttled p != Nat.testBit (s.get F.qg_thr_pol 0) p)

/-- The level of a pin that the boundary register drives, none while its driver is disabled (R503): by its control cell, or by HIGHZ, which releases
every pin. -/
def State.tapLevel (s : State) (i : Nat) (enabled : Bool) : Option Bool := if s.jtag.ir = 0x04 || !enabled then none else some (s.cell i)

/-- The level of a pin, none while nothing in the device drives it: the boundary register's while it acts (R502), else `own`. -/
def State.pinLevel (s : State) (i : Nat) (enabled : Bool) (own : Option Bool) : Option Bool := if s.tapDrives then s.tapLevel i enabled else own

/-- THROTTLE[p] (R490, R502, R503). -/
def State.throttlePin (s : State) (p : Nat) : Option Bool := s.pinLevel (2128 + p) (s.cell 2160) (some (s.throttle p))
/-- BOOT_CLK: low in reset and between transfers (R490, R496). -/
def State.bootClk (s : State) : Option Bool := s.pinLevel 2165 true (some false)
/-- BOOT_CS_N: high in reset and between transfers (R490). -/
def State.bootCsN (s : State) : Option Bool := s.pinLevel 2166 true (some true)
/-- BOOT_IO[k]: released in reset and between transfers (R490). -/
def State.bootIo (s : State) (k : Nat) : Option Bool := s.pinLevel (2168 + 3 * k) (s.cell (2169 + 3 * k)) none
/-- SMP_DIO: released in reset and between transfers (R490, R494). -/
def State.smpDio (s : State) : Option Bool := s.pinLevel 2182 (s.cell 2183) none

/-! ### The test access port -/

/-- The instruction register takes a code: start-up that waited for it goes on when the new one takes no pins (R502). -/
def loadIr (s : State) (ir : Nat) : State :=
  { s with jtag := { s.jtag with ir := ir }, pw := { s.pw with tapHold := s.pw.tapHold && takesPins ir } }

/-- The boundary register takes its cells, cell 0 first (R503). -/
def loadCells (s : State) (cells : List Nat) : State :=
  { s with jtag := { s.jtag with cells := ((upTo 0 2184).zip cells).foldl (fun m x => mset 0 m x.1 (x.2 % 2)) [] } }

/-- The identification register (R9). -/
def idcodeWord : BitVec 32 := 0x15C205AF#32

/-- The rails of a boundary cell's block are supplied (R443, R503): those of a lane are its die's, those of the EDGE block its island's, and every other pin's
the anchor's. -/
def State.cellFed (s : State) (i : Nat) : Bool :=
  if i < 2048 then Nat.testBit s.pw.rails (4 * (i / 512)) else if i < 2112 then Nat.testBit s.pw.rails 27 else true

/-- The level of the pin of a data cell as the device itself gives or holds it, none where the level is the board's (R503). -/
def State.cellLevel (s : State) (i : Nat) : Option Bool :=
  if i < 2048 then (if i % 2 = 0 then s.pinLevel i true none else none)
  else if 2120 ≤ i ∧ i < 2128 then some (Nat.testBit s.tin (i - 2120))
  else if 2128 ≤ i ∧ i < 2160 then s.throttlePin (i - 2128)
  else if i = 2161 then some s.faultN
  else if i = 2162 then some s.attnN
  else if i = 2163 then some (!s.pw.resetLow)
  else if i = 2164 then some s.pw.pwrGood
  else if i = 2165 then s.bootClk
  else if i = 2166 then s.bootCsN
  else if 2167 ≤ i ∧ i < 2179 then s.bootIo ((i - 2167) / 3)
  else if i = 2181 ∨ i = 2182 then s.smpDio
  else none

/-- The cells that enable a driver (R503): of THROTTLE, of BOOT_IO and of SMP_DIO. -/
def controlCell (i : Nat) : Bool := i = 2160 || i = 2183 || (decide (2167 ≤ i ∧ i < 2179) && (i - 2167) % 3 = 2)

/-- What a boundary cell captures (R501, R503): the level of its pin, a control cell whether its driver is enabled, and 0 where its block is not
supplied. `board` gives the levels of the pins that the device does not drive itself, by cell. -/
def State.captured (s : State) (board : Nat → Nat) (i : Nat) : Nat :=
  if !s.cellFed i then 0
  else if controlCell i then b2n (if s.tapDrives then s.cell i else i = 2160)
  else match s.cellLevel i with
    | some b => b2n b
    | none => board i

/-- The levels of pins that a command gives, by cell. -/
def levels (pins : List Nat) (i : Nat) : Nat := pins.getD i 0 % 2

/-- The length of the register between TDI and TDO (R9, R501 to R503): a code outside the table, and one that takes the pins while RESET_N is high, acts as
BYPASS. -/
def State.tapLength (s : State) : Nat :=
  if s.jtag.ir = 0x01 then 32
  else if s.jtag.ir = 0x02 || (s.pw.resetLow && [0x00, 0x05, 0x06].contains s.jtag.ir) then 2184
  else 1

/-- The selected register captures a value, which leaves on TDO, bit 0 first (R500, R501). -/
def capture (s : State) (v : Nat) : State := send { s with jtag := { s.jtag with shift := v } } (.tdo s.tapLength v)

/-- The boundary register captures the pins, cell 0 next to TDO (R503). -/
def capturePins (s : State) (board : Nat → Nat) : State := capture s (sumOver (fun i => s.captured board i * 2 ^ i) (upTo 0 2184))

/-- An instruction that takes the pins and selects the boundary register (R501, R502): while RESET_N is high it acts as BYPASS, which captures 0. What the board
drives on a pin, and what the test receiver of a lane finds (R500), are free values (log 4). -/
def boundaryTest (s : State) (ir : Nat) : State :=
  let s := loadIr s ir
  let k := s.freeCount
  if s.pw.resetLow then capturePins { s with freeCount := k + 35 } fun i => b2n (bit (Config.freeValue (k + i / 64)) (i % 64)) else capture s 0

/-- R9, R500, R502: Test-Logic-Reset loads IDCODE. -/
def execTestLogicReset (s : State) : Res := .next (capture (loadIr s 0x01) idcodeWord.toNat)
/-- R501 to R503: EXTEST captures the pins, and then the boundary register takes its cells; while RESET_N is high it acts as BYPASS. -/
def execExtest (cells : List Nat) (s : State) : Res :=
  .next (if s.pw.resetLow then loadCells (boundaryTest s 0x00) cells else boundaryTest s 0x00)
/-- R9, R501: IDCODE captures the identification register. -/
def execIdcode (s : State) : Res := .next (capture (loadIr s 0x01) idcodeWord.toNat)
/-- R501 to R503: SAMPLE/PRELOAD captures the pins and disturbs nothing; the boundary register takes its cells. -/
def execSamplePreload (cells pins : List Nat) (s : State) : Res := .next (loadCells (capturePins (loadIr s 0x02) (levels pins)) cells)
/-- R501, R502: CLAMP: the pins follow the boundary register, and BYPASS is selected. -/
def execClamp (s : State) : Res := .next (capture (loadIr s 0x03) 0)
/-- R501, R502: HIGHZ: the pins are released, and BYPASS is selected. -/
def execHighz (s : State) : Res := .next (capture (loadIr s 0x04) 0)
/-- R500 to R503: EXTEST_PULSE: the lanes' drivers send the pulse of IEEE 1149.6 from their cells, and the test receivers are captured. The command brings no
cells: those that SAMPLE/PRELOAD or EXTEST shifted in stay (DESIGN CHOICE, log 45). -/
def execExtestPulse (s : State) : Res := .next (boundaryTest s 0x05)
/-- R500 to R503: EXTEST_TRAIN, as EXTEST_PULSE with a train of pulses. -/
def execExtestTrain (s : State) : Res := .next (boundaryTest s 0x06)
/-- R501: BYPASS captures 0. -/
def execBypass (s : State) : Res := .next (capture (loadIr s 0xFF) 0)

end Sys2Proof.Machine
end

