-- ==== Sys2Proof/Machine/Dispatch.lean ====
section
/-! DEFINITION. The meaning of each command: one arm per constructor. -/

namespace Sys2Proof.Machine

def exec (i : Instr) (s : State) : Host.Outcome State Fault Refusal :=
  match i with
  | .nop c => Sys2Proof.Machine.execNop c s
  | .identify c => Sys2Proof.Machine.execIdentify c s
  | .status c => Sys2Proof.Machine.execStatus c s
  | .partitionClaim c => Sys2Proof.Machine.execPartitionClaim c s
  | .partitionRelease c => Sys2Proof.Machine.execPartitionRelease c s
  | .partitionBind c => Sys2Proof.Machine.execPartitionBind c s
  | .partitionUnbind c => Sys2Proof.Machine.execPartitionUnbind c s
  | .readObjLive c => Sys2Proof.Machine.execReadObjLive c s
  | .readObjStaged c => Sys2Proof.Machine.execReadObjStaged c s
  | .writeStaged c => Sys2Proof.Machine.execWriteStaged c s
  | .writeLive c => Sys2Proof.Machine.execWriteLive c s
  | .cinch c => Sys2Proof.Machine.execCinch c s
  | .discardStaged c => Sys2Proof.Machine.execDiscardStaged c s
  | .refSelectAuto c => Sys2Proof.Machine.execRefSelectAuto c s
  | .refSelectForced c => Sys2Proof.Machine.execRefSelectForced c s
  | .refSelectHoldover c => Sys2Proof.Machine.execRefSelectHoldover c s
  | .refStatus c => Sys2Proof.Machine.execRefStatus c s
  | .timeSet c => Sys2Proof.Machine.execTimeSet c s
  | .ppsAlignMeasure c => Sys2Proof.Machine.execPpsAlignMeasure c s
  | .ppsAlignStep c => Sys2Proof.Machine.execPpsAlignStep c s
  | .calStartSweep c => Sys2Proof.Machine.execCalStartSweep c s
  | .calStartRecover c => Sys2Proof.Machine.execCalStartRecover c s
  | .calStatus c => Sys2Proof.Machine.execCalStatus c s
  | .calLock c => Sys2Proof.Machine.execCalLock c s
  | .calLockRelease c => Sys2Proof.Machine.execCalLockRelease c s
  | .calTableReadInForce c => Sys2Proof.Machine.execCalTableReadInForce c s
  | .calTableReadWaiting c => Sys2Proof.Machine.execCalTableReadWaiting c s
  | .laneUp c => Sys2Proof.Machine.execLaneUp c s
  | .laneDown c => Sys2Proof.Machine.execLaneDown c s
  | .laneRetrain c => Sys2Proof.Machine.execLaneRetrain c s
  | .laneGroupConfig c => Sys2Proof.Machine.execLaneGroupConfig c s
  | .laneGroupWidth c => Sys2Proof.Machine.execLaneGroupWidth c s
  | .laneTestStart c => Sys2Proof.Machine.execLaneTestStart c s
  | .laneTestStop c => Sys2Proof.Machine.execLaneTestStop c s
  | .laneTestRead c => Sys2Proof.Machine.execLaneTestRead c s
  | .laneRetire c => Sys2Proof.Machine.execLaneRetire c s
  | .partnerRead c => Sys2Proof.Machine.execPartnerRead c s
  | .partnerWrite c => Sys2Proof.Machine.execPartnerWrite c s
  | .partnerTxnStatus c => Sys2Proof.Machine.execPartnerTxnStatus c s
  | .trigArm c => Sys2Proof.Machine.execTrigArm c s
  | .trigDisarm c => Sys2Proof.Machine.execTrigDisarm c s
  | .trigForce c => Sys2Proof.Machine.execTrigForce c s
  | .segRead c => Sys2Proof.Machine.execSegRead c s
  | .segRelease c => Sys2Proof.Machine.execSegRelease c s
  | .segReleaseAll c => Sys2Proof.Machine.execSegReleaseAll c s
  | .statsGateStart c => Sys2Proof.Machine.execStatsGateStart c s
  | .statsGateStop c => Sys2Proof.Machine.execStatsGateStop c s
  | .statsReadLast c => Sys2Proof.Machine.execStatsReadLast c s
  | .statsReadRunning c => Sys2Proof.Machine.execStatsReadRunning c s
  | .queueFlush c => Sys2Proof.Machine.execQueueFlush c s
  | .queueStatusIngress c => Sys2Proof.Machine.execQueueStatusIngress c s
  | .queueStatusHost c => Sys2Proof.Machine.execQueueStatusHost c s
  | .queueStatusAnchor c => Sys2Proof.Machine.execQueueStatusAnchor c s
  | .faultRead c => Sys2Proof.Machine.execFaultRead c s
  | .faultClear c => Sys2Proof.Machine.execFaultClear c s
  | .faultHistory c => Sys2Proof.Machine.execFaultHistory c s
  | .awl c => Sys2Proof.Machine.execAwl c s
  | .powerDomainOn c => Sys2Proof.Machine.execPowerDomainOn c s
  | .powerDomainOff c => Sys2Proof.Machine.execPowerDomainOff c s
  | .tileRetire c => Sys2Proof.Machine.execTileRetire c s
  | .selftest c => Sys2Proof.Machine.execSelftest c s
  | .ergClear c => Sys2Proof.Machine.execErgClear c s
  | .fwUpdateBegin c => Sys2Proof.Machine.execFwUpdateBegin c s
  | .fwUpdateData c => Sys2Proof.Machine.execFwUpdateData c s
  | .fwUpdateEnd c => Sys2Proof.Machine.execFwUpdateEnd c s
  | .laneStatusClr c lane => Sys2Proof.Machine.execLaneStatusClr c lane s
  | .laneTimingClr c lane => Sys2Proof.Machine.execLaneTimingClr c lane s
  | .precisionStatusClr c comparator => Sys2Proof.Machine.execPrecisionStatusClr c comparator s
  | .chanStatusClr c channel => Sys2Proof.Machine.execChanStatusClr c channel s
  | .filterStatusClr c channel => Sys2Proof.Machine.execFilterStatusClr c channel s
  | .groupMergeClr c lane => Sys2Proof.Machine.execGroupMergeClr c lane s
  | .tileMergeClr c tile => Sys2Proof.Machine.execTileMergeClr c tile s
  | .tileHistoryClr c tile => Sys2Proof.Machine.execTileHistoryClr c tile s
  | .trigMissedClr c idx => Sys2Proof.Machine.execTrigMissedClr c idx s
  | .segStatusClr c partition => Sys2Proof.Machine.execSegStatusClr c partition s
  | .queueIngressClr c lane => Sys2Proof.Machine.execQueueIngressClr c lane s
  | .queueIngressFlagClear c lane flags => Sys2Proof.Machine.execQueueIngressFlagClear c lane flags s
  | .queueHostClr c queue => Sys2Proof.Machine.execQueueHostClr c queue s
  | .queueHostFlagClear c queue flags => Sys2Proof.Machine.execQueueHostFlagClear c queue flags s
  | .queueAnchorClr c die => Sys2Proof.Machine.execQueueAnchorClr c die s
  | .partCountersClr c partition => Sys2Proof.Machine.execPartCountersClr c partition s
  | .faultsrcGlobalClr c => Sys2Proof.Machine.execFaultsrcGlobalClr c s
  | .faultsrcSourceClr c source => Sys2Proof.Machine.execFaultsrcSourceClr c source s
  | .faultNSw c hold => Sys2Proof.Machine.execFaultNSw c hold s
  | .powerStatusClr c domain => Sys2Proof.Machine.execPowerStatusClr c domain s
  | .commandFrameReceive lane f => Sys2Proof.Machine.execCommandFrameReceive lane f s
  | .commandTake lane t => Sys2Proof.Machine.execCommandTake lane t s
  | .hostFrameReceive lane f => Sys2Proof.Machine.execHostFrameReceive lane f s
  | .smpWriteTransfer words crc => Sys2Proof.Machine.execSmpWriteTransfer words crc s
  | .smpReadTransfer complete => Sys2Proof.Machine.execSmpReadTransfer complete s
  | .lockstepMismatch partition => Sys2Proof.Machine.execLockstepMismatch partition s
  | .engineResyncComplete => Sys2Proof.Machine.execEngineResyncComplete s
  | .cinchGo t => Sys2Proof.Machine.execCinchGo t s
  | .cinchCancel => Sys2Proof.Machine.execCinchCancel s
  | .cinchBoundary => Sys2Proof.Machine.execCinchBoundary s
  | .writeLiveAdopt die obj sel idx => Sys2Proof.Machine.execWriteLiveAdopt die obj sel idx s
  | .refEdgeLoss ref t => Sys2Proof.Machine.execRefEdgeLoss ref t s
  | .refFreqMeasure ref dev word t => Sys2Proof.Machine.execRefFreqMeasure ref dev word t s
  | .refMonitorSecond warm t => Sys2Proof.Machine.execRefMonitorSecond warm t s
  | .acquireLock phase freq t => Sys2Proof.Machine.execAcquireLock phase freq t s
  | .switchBuildOut phase => Sys2Proof.Machine.execSwitchBuildOut phase s
  | .switchComplete => Sys2Proof.Machine.execSwitchComplete s
  | .waitToRestoreExpiry ref => Sys2Proof.Machine.execWaitToRestoreExpiry ref s
  | .coarseWrap => Sys2Proof.Machine.execCoarseWrap s
  | .ppsEdge falling t => Sys2Proof.Machine.execPpsEdge falling t s
  | .ppsAlignTimeout => Sys2Proof.Machine.execPpsAlignTimeout s
  | .timeSetBoundary => Sys2Proof.Machine.execTimeSetBoundary s
  | .caravanBoundary upset => Sys2Proof.Machine.execCaravanBoundary upset s
  | .boundaryNotice tile => Sys2Proof.Machine.execBoundaryNotice tile s
  | .comparatorTransition comparator rising edge => Sys2Proof.Machine.execComparatorTransition comparator rising edge s
  | .overRateEnd comparator => Sys2Proof.Machine.execOverRateEnd comparator s
  | .overRateWindowEnd comparator => Sys2Proof.Machine.execOverRateWindowEnd comparator s
  | .stampRelease comparator => Sys2Proof.Machine.execStampRelease comparator s
  | .conversionComplete comparator slot code ok => Sys2Proof.Machine.execConversionComplete comparator slot code ok s
  | .overdriveOnset input t => Sys2Proof.Machine.execOverdriveOnset input t s
  | .overdriveEnd input t => Sys2Proof.Machine.execOverdriveEnd input t s
  | .disturbedEnd group => Sys2Proof.Machine.execDisturbedEnd group s
  | .totTimeout comparator => Sys2Proof.Machine.execTotTimeout comparator s
  | .intervalTimeout input => Sys2Proof.Machine.execIntervalTimeout input s
  | .randomSourceSample interp code ok => Sys2Proof.Machine.execRandomSourceSample interp code ok s
  | .sampleSetComplete interp m => Sys2Proof.Machine.execSampleSetComplete interp m s
  | .tableInstall interp => Sys2Proof.Machine.execTableInstall interp s
  | .lockSettled interp m => Sys2Proof.Machine.execLockSettled interp m s
  | .lockTimeout interp => Sys2Proof.Machine.execLockTimeout interp s
  | .asideAbandon interp => Sys2Proof.Machine.execAsideAbandon interp s
  | .asideReturn interp => Sys2Proof.Machine.execAsideReturn interp s
  | .lrefLoss die => Sys2Proof.Machine.execLrefLoss die s
  | .lrefPresent die => Sys2Proof.Machine.execLrefPresent die s
  | .signalDetect lane => Sys2Proof.Machine.execSignalDetect lane s
  | .signalLoss lane => Sys2Proof.Machine.execSignalLoss lane s
  | .capabilityBlockReceive lane w ppm => Sys2Proof.Machine.execCapabilityBlockReceive lane w ppm s
  | .capExchTimeout lane => Sys2Proof.Machine.execCapExchTimeout lane s
  | .trainingNotReady lane => Sys2Proof.Machine.execTrainingNotReady lane s
  | .prbsWindowEnd lane devErrors partnerErrors => Sys2Proof.Machine.execPrbsWindowEnd lane devErrors partnerErrors s
  | .alignmentMarkerReceive lane member count skew t => Sys2Proof.Machine.execAlignmentMarkerReceive lane member count skew t s
  | .alignmentMarkerSend group => Sys2Proof.Machine.execAlignmentMarkerSend group s
  | .alignTimeout group => Sys2Proof.Machine.execAlignTimeout group s
  | .blockReceive lane headerOk filler payload => Sys2Proof.Machine.execBlockReceive lane headerOk filler payload s
  | .codewordDecode lane errors aligned t => Sys2Proof.Machine.execCodewordDecode lane errors aligned t s
  | .linkRequestReceive lane w => Sys2Proof.Machine.execLinkRequestReceive lane w s
  | .linkResponseReceive lane w => Sys2Proof.Machine.execLinkResponseReceive lane w s
  | .linkRequestTimeout group => Sys2Proof.Machine.execLinkRequestTimeout group s
  | .checkerLock lane symbols => Sys2Proof.Machine.execCheckerLock lane symbols s
  | .checkerLockLoss lane bits errors => Sys2Proof.Machine.execCheckerLockLoss lane bits errors s
  | .errorInjection lane => Sys2Proof.Machine.execErrorInjection lane s
  | .beaconSend lane edge code ok => Sys2Proof.Machine.execBeaconSend lane edge code ok s
  | .echoReceive lane w edge code ok => Sys2Proof.Machine.execEchoReceive lane w edge code ok s
  | .echoFollowUpReceive lane w => Sys2Proof.Machine.execEchoFollowUpReceive lane w s
  | .modelFitComplete lane => Sys2Proof.Machine.execModelFitComplete lane s
  | .acquireTimeout lane => Sys2Proof.Machine.execAcquireTimeout lane s
  | .suspectTimeout lane => Sys2Proof.Machine.execSuspectTimeout lane s
  | .halfWrapLimit lane => Sys2Proof.Machine.execHalfWrapLimit lane s
  | .hitFrameReceive group f spillWaiting t => Sys2Proof.Machine.execHitFrameReceive group f spillWaiting t s
  | .hitConversion group corrected badWord => Sys2Proof.Machine.execHitConversion group corrected badWord s
  | .txnResponseReceive group f => Sys2Proof.Machine.execTxnResponseReceive group f s
  | .txnTimeout txn => Sys2Proof.Machine.execTxnTimeout txn s
  | .retryWaitTimeout txn => Sys2Proof.Machine.execRetryWaitTimeout txn s
  | .doneTimeout txn => Sys2Proof.Machine.execDoneTimeout txn s
  | .quarantineTimeout txn => Sys2Proof.Machine.execQuarantineTimeout txn s
  | .pauseRepeat group => Sys2Proof.Machine.execPauseRepeat group s
  | .tileHitArrival tile src => Sys2Proof.Machine.execTileHitArrival tile src s
  | .frameCommit group => Sys2Proof.Machine.execFrameCommit group s
  | .commitToken tile src escape => Sys2Proof.Machine.execCommitToken tile src escape s
  | .frameRewind group idx source => Sys2Proof.Machine.execFrameRewind group idx source s
  | .caravanClose tile ergBusy => Sys2Proof.Machine.execCaravanClose tile ergBusy s
  | .hostCaravanClose queue => Sys2Proof.Machine.execHostCaravanClose queue s
  | .shedLevelChange tile => Sys2Proof.Machine.execShedLevelChange tile s
  | .linkShed laneDie coreDie atLimit => Sys2Proof.Machine.execLinkShed laneDie coreDie atLimit s
  | .tileRemapAccept tile => Sys2Proof.Machine.execTileRemapAccept tile s
  | .tileRemapBoundary tile => Sys2Proof.Machine.execTileRemapBoundary tile s
  | .heldRetirementRemap tile => Sys2Proof.Machine.execHeldRetirementRemap tile s
  | .gateStart partition profile => Sys2Proof.Machine.execGateStart partition profile s
  | .gateComplete tile partition profile => Sys2Proof.Machine.execGateComplete tile partition profile s
  | .trigInEdge pin t held high => Sys2Proof.Machine.execTrigInEdge pin t held high s
  | .armBoundary partition d => Sys2Proof.Machine.execArmBoundary partition d s
  | .disarmBoundary partition d => Sys2Proof.Machine.execDisarmBoundary partition d s
  | .candidateForward die partition d => Sys2Proof.Machine.execCandidateForward die partition d s
  | .candidateJudge partition d => Sys2Proof.Machine.execCandidateJudge partition d s
  | .segmentBuild desc => Sys2Proof.Machine.execSegmentBuild desc s
  | .oasisBufferGrant desc tile => Sys2Proof.Machine.execOasisBufferGrant desc tile s
  | .oasisWaitTimeout desc tile => Sys2Proof.Machine.execOasisWaitTimeout desc tile s
  | .holdTimeout desc => Sys2Proof.Machine.execHoldTimeout desc s
  | .hostRecordWrite queue spillWaiting => Sys2Proof.Machine.execHostRecordWrite queue spillWaiting s
  | .spillWrite kind queue => Sys2Proof.Machine.execSpillWrite kind queue s
  | .hostLaneSend lane corrected badWord => Sys2Proof.Machine.execHostLaneSend lane corrected badWord s
  | .idleRecord lane => Sys2Proof.Machine.execIdleRecord lane s
  | .flushEffect queue => Sys2Proof.Machine.execFlushEffect queue s
  | .faultRaise idx => Sys2Proof.Machine.execFaultRaise idx s
  | .escalationExpiry source => Sys2Proof.Machine.execEscalationExpiry source s
  | .causeEnd source => Sys2Proof.Machine.execCauseEnd source s
  | .faultNPulseEnd => Sys2Proof.Machine.execFaultNPulseEnd s
  | .powerCycleComplete domain => Sys2Proof.Machine.execPowerCycleComplete domain s
  | .retirementRecordWrite => Sys2Proof.Machine.execRetirementRecordWrite s
  | .scrubRead place idx uncorrectable => Sys2Proof.Machine.execScrubRead place idx uncorrectable s
  | .saddlePacketFail rxDie txDie wire => Sys2Proof.Machine.execSaddlePacketFail rxDie txDie wire s
  | .voteDisagreement die => Sys2Proof.Machine.execVoteDisagreement die s
  | .supplyMonitor die outside => Sys2Proof.Machine.execSupplyMonitor die outside s
  | .thermalShutdown die => Sys2Proof.Machine.execThermalShutdown die s
  | .thermalRecovery die => Sys2Proof.Machine.execThermalRecovery die s
  | .domainOffComplete domain => Sys2Proof.Machine.execDomainOffComplete domain s
  | .domainOnComplete domain => Sys2Proof.Machine.execDomainOnComplete domain s
  | .resetAssert lowTicks => Sys2Proof.Machine.execResetAssert lowTicks s
  | .pwrGoodFall lowTicks => Sys2Proof.Machine.execPwrGoodFall lowTicks s
  | .resetRelease => Sys2Proof.Machine.execResetRelease s
  | .startupPhase railsOk => Sys2Proof.Machine.execStartupPhase railsOk s
  | .imageReadyTimeout => Sys2Proof.Machine.execImageReadyTimeout s
  | .directoryRewrite => Sys2Proof.Machine.execDirectoryRewrite s
  | .fwSessionTimeout => Sys2Proof.Machine.execFwSessionTimeout s
  | .testLogicReset => Sys2Proof.Machine.execTestLogicReset s
  | .extest cells => Sys2Proof.Machine.execExtest cells s
  | .idcode => Sys2Proof.Machine.execIdcode s
  | .samplePreload cells pins => Sys2Proof.Machine.execSamplePreload cells pins s
  | .clamp => Sys2Proof.Machine.execClamp s
  | .highz => Sys2Proof.Machine.execHighz s
  | .extestPulse => Sys2Proof.Machine.execExtestPulse s
  | .extestTrain => Sys2Proof.Machine.execExtestTrain s
  | .bypass => Sys2Proof.Machine.execBypass s
  | .receiversReady lane => Sys2Proof.Machine.execReceiversReady lane s
  | .calSweepTimeout partition => Sys2Proof.Machine.execCalSweepTimeout partition s
  | .selftestComplete results => Sys2Proof.Machine.execSelftestComplete results s
  | .ergClearComplete => Sys2Proof.Machine.execErgClearComplete s
  | .fwImageWritten ok => Sys2Proof.Machine.execFwImageWritten ok s
  | .cinchCheckEnd t => Sys2Proof.Machine.execCinchCheckEnd t s

end Sys2Proof.Machine
end

