-- ==== Sys2Proof/WellFormed.lean ====
section
/-! DEFINITION. Well-formed commands: every operand within the range that its place in the spec gives it. -/

namespace Sys2Proof

/-- A command packet as it can stand in a header (R373): partition, tag, reserved bits and 0 to 255 parameters, on a lane or the port. -/
def cmdOk (c : Cmd) : Bool :=
  decide (c.part < 256) && decide (c.tag < 65536) && decide (c.resv < 65536) && decide (c.params.length ≤ 255) &&
    match c.lane with
    | none => true
    | some l => decide (l < 1024)

/-- A frame as its blocks carry it (R174): 16-bit sequence numbers, a 4-bit kind, 36 further bits of its start, at least one data block, 1 to 8 valid
bytes in the last, a 32-bit CRC. -/
def frameWf (f : Frame) : Bool :=
  decide (f.seqStart < 65536) && decide (f.seqEnd < 65536) && decide (f.kind < 16) && decide (f.low < 2 ^ 36) && decide (f.crc < 2 ^ 32) &&
    decide (1 ≤ f.bytes) && decide (f.bytes ≤ 8) && !f.words.isEmpty

/-- A lane, or the serial management port. -/
def laneOpt : Option Nat → Bool
  | none => true
  | some l => decide (l < 1024)

/-- A die address (R12): core dies 0 to 4, lane dies 8 to 11, the anchor die 15. -/
def dieOk (die : Nat) : Bool := decide (die < 5) || (decide (8 ≤ die) && decide (die < 12)) || decide (die = 15)

/-- Two dies with a Saddle link (R13, R14): a lane die and a core die, or the anchor die and any other. -/
def linkOk (a b : Nat) : Bool :=
  dieOk a && dieOk b && a ≠ b && !(decide (a < 5) && decide (b < 5)) && !((decide (8 ≤ a) && decide (a < 12)) && (decide (8 ≤ b) && decide (b < 12)))

/-- A fault source number has 16 bits (R418). -/
def sourceOk (n : Nat) : Bool := decide (n < 65536)

/-- The boundary register has 2,184 one-bit cells (R503). -/
def cellsOk (cells : List Nat) : Bool := decide (cells.length = 2184) && cells.all fun c => decide (c < 2)

/-- Every operand of a command is within its range. -/
def wellFormed (i : Instr) : Bool :=
  match i with
  | .nop c => cmdOk c
  | .identify c => cmdOk c
  | .status c => cmdOk c
  | .partitionClaim c => cmdOk c
  | .partitionRelease c => cmdOk c
  | .partitionBind c => cmdOk c
  | .partitionUnbind c => cmdOk c
  | .readObjLive c => cmdOk c
  | .readObjStaged c => cmdOk c
  | .writeStaged c => cmdOk c
  | .writeLive c => cmdOk c
  | .cinch c => cmdOk c
  | .discardStaged c => cmdOk c
  | .refSelectAuto c => cmdOk c
  | .refSelectForced c => cmdOk c
  | .refSelectHoldover c => cmdOk c
  | .refStatus c => cmdOk c
  | .timeSet c => cmdOk c
  | .ppsAlignMeasure c => cmdOk c
  | .ppsAlignStep c => cmdOk c
  | .calStartSweep c => cmdOk c
  | .calStartRecover c => cmdOk c
  | .calStatus c => cmdOk c
  | .calLock c => cmdOk c
  | .calLockRelease c => cmdOk c
  | .calTableReadInForce c => cmdOk c
  | .calTableReadWaiting c => cmdOk c
  | .laneUp c => cmdOk c
  | .laneDown c => cmdOk c
  | .laneRetrain c => cmdOk c
  | .laneGroupConfig c => cmdOk c
  | .laneGroupWidth c => cmdOk c
  | .laneTestStart c => cmdOk c
  | .laneTestStop c => cmdOk c
  | .laneTestRead c => cmdOk c
  | .laneRetire c => cmdOk c
  | .partnerRead c => cmdOk c
  | .partnerWrite c => cmdOk c
  | .partnerTxnStatus c => cmdOk c
  | .trigArm c => cmdOk c
  | .trigDisarm c => cmdOk c
  | .trigForce c => cmdOk c
  | .segRead c => cmdOk c
  | .segRelease c => cmdOk c
  | .segReleaseAll c => cmdOk c
  | .statsGateStart c => cmdOk c
  | .statsGateStop c => cmdOk c
  | .statsReadLast c => cmdOk c
  | .statsReadRunning c => cmdOk c
  | .queueFlush c => cmdOk c
  | .queueStatusIngress c => cmdOk c
  | .queueStatusHost c => cmdOk c
  | .queueStatusAnchor c => cmdOk c
  | .faultRead c => cmdOk c
  | .faultClear c => cmdOk c
  | .faultHistory c => cmdOk c
  | .awl c => cmdOk c
  | .powerDomainOn c => cmdOk c
  | .powerDomainOff c => cmdOk c
  | .tileRetire c => cmdOk c
  | .selftest c => cmdOk c
  | .ergClear c => cmdOk c
  | .fwUpdateBegin c => cmdOk c
  | .fwUpdateData c => cmdOk c
  | .fwUpdateEnd c => cmdOk c
  | .laneStatusClr c lane => cmdOk c && decide (lane < 1024)
  | .laneTimingClr c lane => cmdOk c && decide (lane < 1024)
  | .precisionStatusClr c comparator => cmdOk c && decide (comparator < 128)
  | .chanStatusClr c channel => cmdOk c && decide (channel < 5242880)
  | .filterStatusClr c channel => cmdOk c && decide (channel < 5242880)
  | .groupMergeClr c lane => cmdOk c && decide (lane < 1024)
  | .tileMergeClr c tile => cmdOk c && decide (tile < 320)
  | .tileHistoryClr c tile => cmdOk c && decide (tile < 320)
  | .trigMissedClr c idx => cmdOk c && decide (idx < 4096)
  | .segStatusClr c partition => cmdOk c && decide (partition < 256)
  | .queueIngressClr c lane => cmdOk c && decide (lane < 1024)
  | .queueIngressFlagClear c lane _ => cmdOk c && decide (lane < 1024)
  | .queueHostClr c queue => cmdOk c && decide (queue < 16384)
  | .queueHostFlagClear c queue _ => cmdOk c && decide (queue < 16384)
  | .queueAnchorClr c die => cmdOk c && decide (die < 5)
  | .partCountersClr c partition => cmdOk c && decide (partition < 256)
  | .faultsrcGlobalClr c => cmdOk c
  | .faultsrcSourceClr c source => cmdOk c && sourceOk source
  | .faultNSw c _ => cmdOk c
  | .powerStatusClr c domain => cmdOk c && decide (domain < 30)
  | .commandFrameReceive lane f => decide (lane < 1024) && frameWf f
  | .commandTake lane _ => laneOpt lane
  | .hostFrameReceive lane f => decide (lane < 1024) && frameWf f
  | .smpWriteTransfer _ _ => true
  | .smpReadTransfer _ => true
  | .lockstepMismatch partition => decide (partition < 256)
  | .engineResyncComplete => true
  | .cinchGo _ => true
  | .cinchCancel => true
  | .cinchBoundary => true
  | .writeLiveAdopt die obj sel _ => dieOk die && decide (obj < 64) && decide (sel < 256)
  | .refEdgeLoss ref _ => decide (ref < 3)
  | .refFreqMeasure ref _ _ _ => decide (ref < 3)
  | .refMonitorSecond _ _ => true
  | .acquireLock _ _ _ => true
  | .switchBuildOut _ => true
  | .switchComplete => true
  | .waitToRestoreExpiry ref => decide (ref < 3)
  | .coarseWrap => true
  | .ppsEdge _ _ => true
  | .ppsAlignTimeout => true
  | .timeSetBoundary => true
  | .caravanBoundary _ => true
  | .boundaryNotice tile => decide (tile < 320)
  | .comparatorTransition comparator _ _ => decide (comparator < 128)
  | .overRateEnd comparator => decide (comparator < 128)
  | .overRateWindowEnd comparator => decide (comparator < 128)
  | .stampRelease comparator => decide (comparator < 128)
  | .conversionComplete comparator slot code _ => decide (comparator < 128) && decide (slot < 4) && decide (code < 1024)
  | .overdriveOnset input _ => decide (input < 64)
  | .overdriveEnd input _ => decide (input < 64)
  | .disturbedEnd group => decide (group < 8)
  | .totTimeout comparator => decide (comparator < 128)
  | .intervalTimeout input => decide (input < 64)
  | .randomSourceSample interp code _ => decide (interp < 1536) && decide (code < 1024)
  | .sampleSetComplete interp _ => decide (interp < 1536)
  | .tableInstall interp => decide (interp < 1536)
  | .lockSettled interp _ => decide (interp < 1536)
  | .lockTimeout interp => decide (interp < 1536)
  | .asideAbandon interp => decide (interp < 1536)
  | .asideReturn interp => decide (interp < 1536)
  | .lrefLoss die => decide (die < 4)
  | .lrefPresent die => decide (die < 4)
  | .signalDetect lane => decide (lane < 1024)
  | .signalLoss lane => decide (lane < 1024)
  | .capabilityBlockReceive lane _ _ => decide (lane < 1024)
  | .capExchTimeout lane => decide (lane < 1024)
  | .trainingNotReady lane => decide (lane < 1024)
  | .prbsWindowEnd lane _ _ => decide (lane < 1024)
  | .alignmentMarkerReceive lane member _ _ _ => decide (lane < 1024) && decide (member < 8)
  | .alignmentMarkerSend group => decide (group < 1024)
  | .alignTimeout group => decide (group < 1024)
  | .blockReceive lane _ _ _ => decide (lane < 1024)
  | .codewordDecode lane _ _ _ => decide (lane < 1024)
  | .linkRequestReceive lane _ => decide (lane < 1024)
  | .linkResponseReceive lane _ => decide (lane < 1024)
  | .linkRequestTimeout group => decide (group < 1024)
  | .checkerLock lane _ => decide (lane < 1024)
  | .checkerLockLoss lane _ _ => decide (lane < 1024)
  | .errorInjection lane => decide (lane < 1024)
  | .beaconSend lane _ code _ => decide (lane < 1024) && decide (code < 1024)
  | .echoReceive lane _ _ code _ => decide (lane < 1024) && decide (code < 1024)
  | .echoFollowUpReceive lane _ => decide (lane < 1024)
  | .modelFitComplete lane => decide (lane < 1024)
  | .acquireTimeout lane => decide (lane < 1024)
  | .suspectTimeout lane => decide (lane < 1024)
  | .halfWrapLimit lane => decide (lane < 1024)
  | .hitFrameReceive group f _ _ => decide (group < 1024) && frameWf f
  | .hitConversion group _ _ => decide (group < 1024)
  | .txnResponseReceive group f => decide (group < 1024) && frameWf f
  | .txnTimeout txn => decide (txn < 4096)
  | .retryWaitTimeout txn => decide (txn < 4096)
  | .doneTimeout txn => decide (txn < 4096)
  | .quarantineTimeout txn => decide (txn < 4096)
  | .pauseRepeat group => decide (group < 1024)
  | .tileHitArrival tile src => decide (tile < 320) && decide (src ≤ 1024)
  | .frameCommit group => decide (group < 1024)
  | .commitToken tile src _ => decide (tile < 320) && decide (src ≤ 1024)
  | .frameRewind group _ _ => decide (group < 1024)
  | .caravanClose tile _ => decide (tile < 320)
  | .hostCaravanClose queue => decide (queue < 16384)
  | .shedLevelChange tile => decide (tile < 320)
  | .linkShed laneDie coreDie _ => decide (laneDie < 4) && decide (coreDie < 5)
  | .tileRemapAccept tile => decide (tile < 320)
  | .tileRemapBoundary tile => decide (tile < 320)
  | .heldRetirementRemap tile => decide (tile < 320)
  | .gateStart partition profile => decide (partition < 256) && decide (profile < 16)
  | .gateComplete tile partition profile => decide (tile < 320) && decide (partition < 256) && decide (profile < 16)
  | .trigInEdge pin _ _ _ => decide (pin < 8)
  | .armBoundary partition d => decide (partition < 256) && decide (d < 8)
  | .disarmBoundary partition d => decide (partition < 256) && decide (d < 8)
  | .candidateForward die partition d => decide (die < 5) && decide (partition < 256) && decide (d < 8)
  | .candidateJudge partition d => decide (partition < 256) && decide (d < 8)
  | .segmentBuild desc => decide (desc < 1048576)
  | .oasisBufferGrant desc tile => decide (desc < 1048576) && decide (tile < 320)
  | .oasisWaitTimeout desc tile => decide (desc < 1048576) && decide (tile < 320)
  | .holdTimeout desc => decide (desc < 1048576)
  | .hostRecordWrite queue _ => decide (queue < 16384)
  | .spillWrite kind queue => decide (kind < 2) && decide (queue < 16384)
  | .hostLaneSend lane _ _ => decide (lane < 1024)
  | .idleRecord lane => decide (lane < 1024)
  | .flushEffect queue => decide (queue < 16384)
  | .faultRaise _ => true
  | .escalationExpiry source => sourceOk source
  | .causeEnd source => sourceOk source
  | .faultNPulseEnd => true
  | .powerCycleComplete domain => decide (domain < 30)
  | .retirementRecordWrite => true
  | .scrubRead place _ _ => decide (place < 11)
  | .saddlePacketFail rxDie txDie wire => linkOk rxDie txDie && decide (wire < 1024)
  | .voteDisagreement die => dieOk die
  | .supplyMonitor die _ => dieOk die
  | .thermalShutdown die => dieOk die
  | .thermalRecovery die => dieOk die
  | .domainOffComplete domain => decide (domain < 30)
  | .domainOnComplete domain => decide (domain < 30)
  | .resetAssert _ => true
  | .pwrGoodFall _ => true
  | .resetRelease => true
  | .startupPhase railsOk => decide (railsOk < 2 ^ 30)
  | .imageReadyTimeout => true
  | .directoryRewrite => true
  | .fwSessionTimeout => true
  | .testLogicReset => true
  | .extest cells => cellsOk cells
  | .idcode => true
  | .samplePreload cells pins => cellsOk cells && cellsOk pins
  | .clamp => true
  | .highz => true
  | .extestPulse => true
  | .extestTrain => true
  | .bypass => true
  | .receiversReady lane => decide (lane < 1024)
  | .calSweepTimeout partition => decide (partition < 256)
  | .selftestComplete _ => true
  | .ergClearComplete => true
  | .fwImageWritten _ => true
  | .cinchCheckEnd _ => true

end Sys2Proof
end

