-- ==== Sys2Proof/Certificates/Slice0/Obligations.lean ====
section
/-! DEFINITION. The statements for the provers, family by family, over the terms of the first section. -/

namespace Sys2Proof.Claims

open Sys2Proof.Machine

/-- The engines take a command, its checks up to row 6 of R377 pass in the state that device time has reached by then, and no count of Awl makes the
engines' compare fail (R440). -/
def passes (s : State) (c : Cmd) (op : Nat) : Bool :=
  let u := advanceTo s c.tick
  canArrive s c && isBound u c && !u.chanBusy c.part && !(u.phase = 7 && !recoveryOpcode op) &&
    (c.part = 0 || u.flag F.part0_claimed c.part || openOpcode op) && decide (mget 0 u.flt.awl (dieSource 15 7) = 0)

/-- The same, with the reserved header bits 0 and `n` parameter words. -/
def accepts (s : State) (c : Cmd) (op n : Nat) : Bool := passes s c op && decide (c.resv = 0) && decide (c.params.length = n)

/-- The same for a command of partition 0 alone. -/
def accepts0 (s : State) (c : Cmd) (op n : Nat) : Bool := accepts s c op n && decide (c.part = 0)

/-- The command is carried out: its effect leaves `v`, it counts as accepted, and its reply is queued with the channel busy until it has left. -/
def ends (i : Instr) (s : State) (c : Cmd) (op : Nat) (v : State) (st d : Nat) (ws : List Word) : Prop :=
  exec i s = .next (finish (v.satInc F.part3_accepted c.part 1) c op st d ws)

/-- The command is carried out, and its reply comes with a later step: until then its channel is busy with it. -/
def pends (i : Instr) (s : State) (c : Cmd) (op : Nat) (v : State) : Prop :=
  exec i s = .next ((v.satInc F.part3_accepted c.part 1).setChan c.part { op := op, since := v.tb.tick })

/-- Outside the register words, `v` is `u`. -/
def onlyRegs (u v : State) : Prop := v = { u with regs := v.regs }

/-- A counter of `s` after `n` more, held at its maximum. -/
def plus (s : State) (f : Field) (i n : Nat) : Nat := satAdd (f.hi - f.lo + 1) (s.get f i) n

/-- Every register word but those of `ks` is in `v` as in `u`. -/
def sameWords (u v : State) (ks : List Nat) : Prop := ∀ k, k ∉ ks → regGet v.regs k = regGet u.regs k

/-- The group that sent a hit exists. -/
def itemOk : TItem → Bool
  | .hit h => decide (h.src < 1024)
  | _ => true

/-- The tiles, groups, host queues and partitions that the state behind the words names exist. -/
def inRange (s : State) : Bool :=
  s.tiles.all (fun e => decide (e.1 < 320) && e.2.prov.all itemOk && e.2.remap.all fun r => decide (r.phys < 32)) && s.toTile.all (fun e => e.2.all fun x => itemOk x.2) &&
    s.hqs.all (fun e => decide (e.1 < 16384)) && s.segs.all fun e => decide (e.2.part < 256) && decide (e.2.queue < 16384)

end Sys2Proof.Claims

section

open Sys2Proof Sys2Proof.Machine Sys2Proof.Claims


/-! ### The queue, reset and the invariant -/

/-- For every command i and every queue rest, a step of a state whose queue is i followed by rest is exec of i on that state with the queue rest. -/
def Obligations.StepRunsFrontCommand : Prop :=
  ∀ (i : Instr) (rest : List Instr) (s : State), step { s with pending := i :: rest } = exec i { s with pending := rest }

/-- On an empty queue a step answers a next state in which one tick has passed and device time, epoch and coarse count together, is one more modulo 2^70; nothing but the time base changes while the coarse count does not wrap and no group is under tile pressure, which may lapse with the tick (R347). That an idle step is a tick is the model's choice (log 2). -/
def Obligations.IdleStepIsOneTick : Prop :=
  ∀ s : State, s.pending = [] → ∃ t, step s = .next t ∧ t.tb.tick = s.tb.tick + 1 ∧ t.full = (s.full + 1) % 2 ^ 70 ∧
    (s.tb.coarse.toNat + 1 < 2 ^ 54 → (∀ g, s.flag F.qia_pressure g = false) → t = { s with tb := t.tb } ∧ t.tb.epoch = s.tb.epoch ∧ t.tb.base = s.tb.base)

/-- Right after reset device time is 0, start-up is in phase FUSES, no command waits and no reply is due, every channel is free, every word reads its reset word; partition 0 is claimed and bound to lanes 0, 256, 512 and 768, no other partition is claimed or bound, lanes 0 to 7 of each lane die are host-facing and no other lane is, every lane is in DOWN, and partition 0 owns every group and every channel. -/
def Obligations.ResetState : Prop :=
  State.reset.full = 0 ∧ State.reset.tb.tick = 0 ∧ State.reset.phase = 1 ∧ State.reset.pending = [] ∧ State.reset.cmd.smpOut = [] ∧
  State.reset.cmd.smpIn = none ∧ State.reset.hlanes = [] ∧ State.reset.out = [] ∧
  (∀ p, State.reset.chanBusy p = false) ∧ (∀ k, regGet State.reset.regs k = resetKey k) ∧ State.reset.canon = true ∧
  (∀ p < 256, State.reset.flag F.part0_claimed p = decide (p = 0)) ∧
  State.reset.bound 0 = [0, 256, 512, 768] ∧ (∀ p, 0 < p → p < 256 → State.reset.bound p = []) ∧
  (∀ l < 1024, State.reset.host l = decide (l % 256 < 8)) ∧ (∀ l < 1024, State.reset.laneState l = 0) ∧
  (∀ g < 1024, State.reset.groupOwner g = 0) ∧ ∀ c < 5 * 2 ^ 20, State.reset.get F.chan_part c = 0

/-- Whatever command stands at the front of the queue, and on an empty queue, a step that answers a next state leaves the register store in its canonical form (keys rising, and no word listed that holds its reset value) when it was in that form before. -/
def Obligations.StepKeepsCanonicalRegisters : Prop :=
  ∀ s t : State, s.canon = true → step s = .next t → t.canon = true

/-- Every command answers a next state in every state, and so does a step: nothing a host, a partner, a pin or the passing of time can do ends a run. -/
def Obligations.EveryCommandCompletes : Prop :=
  (∀ (i : Instr) (s : State), ∃ t, exec i s = .next t) ∧ ∀ s : State, ∃ t, step s = .next t

/-- Writing a field of a register word makes it read as the written number cut to its width, leaves every field apart from it in the same word as it was, leaves every word of another place as it was, and changes nothing outside the register words. -/
def Obligations.FieldWriteReadsBack : Prop :=
  ∀ (s : State) (f : Field) (i v : Nat), f.lo ≤ f.hi → f.hi < 64 →
    (s.put f i v).get f i = v % 2 ^ (f.hi - f.lo + 1) ∧
    (∀ g : Field, g.obj = f.obj → g.sel = f.sel → g.lo ≤ g.hi → g.hi < 64 → f.hi < g.lo ∨ g.hi < f.lo → (s.put f i v).get g i = s.get g i) ∧
    sameWords s (s.put f i v) [wkey f.obj f.sel i] ∧ onlyRegs s (s.put f i v)


/-! ### The order of checks, replies, and the channel -/

namespace Sys2Proof.Claims

/-- The opcode, form and packet of a command that reaches the engines (R411). -/
def packet : Instr → Option (Nat × Nat × Cmd)
  | .nop c => some (0x00, 0, c)
  | .identify c => some (0x01, 0, c)
  | .status c => some (0x02, 0, c)
  | .partitionClaim c => some (0x08, 0, c)
  | .partitionRelease c => some (0x09, 0, c)
  | .partitionBind c => some (0x0A, 0, c)
  | .partitionUnbind c => some (0x0A, 1, c)
  | .readObjLive c => some (0x10, 0, c)
  | .readObjStaged c => some (0x10, 1, c)
  | .writeStaged c => some (0x11, 0, c)
  | .writeLive c => some (0x12, 0, c)
  | .cinch c => some (0x13, 0, c)
  | .discardStaged c => some (0x14, 0, c)
  | .refSelectAuto c => some (0x20, 0, c)
  | .refSelectForced c => some (0x20, 1, c)
  | .refSelectHoldover c => some (0x20, 2, c)
  | .refStatus c => some (0x21, 0, c)
  | .timeSet c => some (0x22, 0, c)
  | .ppsAlignMeasure c => some (0x23, 0, c)
  | .ppsAlignStep c => some (0x23, 1, c)
  | .calStartSweep c => some (0x28, 0, c)
  | .calStartRecover c => some (0x28, 1, c)
  | .calStatus c => some (0x29, 0, c)
  | .calLock c => some (0x2A, 1, c)
  | .calLockRelease c => some (0x2A, 0, c)
  | .calTableReadInForce c => some (0x2B, 0, c)
  | .calTableReadWaiting c => some (0x2B, 1, c)
  | .laneUp c => some (0x30, 0, c)
  | .laneDown c => some (0x31, 0, c)
  | .laneRetrain c => some (0x32, 0, c)
  | .laneGroupConfig c => some (0x33, 0, c)
  | .laneGroupWidth c => some (0x33, 1, c)
  | .laneTestStart c => some (0x34, 0, c)
  | .laneTestStop c => some (0x34, 1, c)
  | .laneTestRead c => some (0x34, 2, c)
  | .laneRetire c => some (0x35, 0, c)
  | .partnerRead c => some (0x38, 0, c)
  | .partnerWrite c => some (0x39, 0, c)
  | .partnerTxnStatus c => some (0x3A, 0, c)
  | .trigArm c => some (0x40, 0, c)
  | .trigDisarm c => some (0x41, 0, c)
  | .trigForce c => some (0x42, 0, c)
  | .segRead c => some (0x43, 0, c)
  | .segRelease c => some (0x44, 0, c)
  | .segReleaseAll c => some (0x44, 0, c)
  | .statsGateStart c => some (0x48, 0, c)
  | .statsGateStop c => some (0x48, 1, c)
  | .statsReadLast c => some (0x49, 0, c)
  | .statsReadRunning c => some (0x49, 1, c)
  | .queueFlush c => some (0x50, 0, c)
  | .queueStatusIngress c => some (0x52, 0, c)
  | .queueStatusHost c => some (0x52, 1, c)
  | .queueStatusAnchor c => some (0x52, 2, c)
  | .faultRead c => some (0x58, 0, c)
  | .faultClear c => some (0x59, 0, c)
  | .faultHistory c => some (0x5A, 0, c)
  | .awl c => some (0x5B, 0, c)
  | .powerDomainOn c => some (0x60, 1, c)
  | .powerDomainOff c => some (0x60, 0, c)
  | .tileRetire c => some (0x61, 0, c)
  | .selftest c => some (0x62, 0, c)
  | .ergClear c => some (0x63, 0, c)
  | .fwUpdateBegin c => some (0x70, 0, c)
  | .fwUpdateData c => some (0x70, 1, c)
  | .fwUpdateEnd c => some (0x70, 2, c)
  | _ => none

/-- What follows a command at once, whatever its answer: the selector settles after REF_SELECT (R51), and retired targets of CAL_START RECOVER
have their result (R131). -/
def settled (i : Instr) (t : State) : State :=
  match i with
  | .refSelectAuto _ => selSettle t
  | .refSelectForced _ => selSettle t
  | .refSelectHoldover _ => selSettle t
  | .calStartRecover _ =>
    (t.calOps.flatMap fun o => if o.recover then o.targets.filter t.interpGone else []).foldl (fun s n => calResult s true n true) t
  | _ => t

/-- The least number of parameter words of an opcode and form (R411). -/
def leastWords (op form : Nat) : Nat :=
  if [0x11, 0x12, 0x22, 0x23, 0x42].contains op then 2
  else if op = 0x48 then (if form = 0 then 2 else 1)
  else if op = 0x70 then (if form = 0 then 3 else if form = 1 then 1 else 0)
  else if [0x00, 0x01, 0x02, 0x09, 0x14, 0x21, 0x5A, 0x63].contains op then 0
  else 1

/-- An opcode and form without parameter words (R411). -/
def noWords (op form : Nat) : Bool := [0x00, 0x01, 0x02, 0x14, 0x21, 0x5A, 0x63].contains op || (op = 0x70 && form = 2)

/-- The fields of the one parameter word of some opcodes (R411). -/
def onlyFields (op : Nat) : Option (List (Nat × Nat)) :=
  if op = 0x0A then some [(17, 0)]
  else if [0x30, 0x31, 0x32, 0x34, 0x35].contains op then some [(9, 0)]
  else if op = 0x33 then some [(11, 10), (9, 0)]
  else if op = 0x3A then some [(11, 0)]
  else if op = 0x60 then some [(4, 0)]
  else if op = 0x61 then some [(8, 0)]
  else if op = 0x62 then some [(5, 0)]
  else none

end Sys2Proof.Claims

/-- For every command whose packet reaches the engines: a lane or port that is not bound to the partition is answered ST_NOT_OWNER, counted in not_owner, and the channel stays as it was; when it is bound but the partition's channel is busy, by its own command or by a system-wide one, the answer is ST_BUSY with the word of R384, counted in busy_replies; in RECOVERY an opcode outside NOP, IDENTIFY, STATUS and FW_UPDATE is answered ST_BAD_OPCODE; and an unclaimed partition other than 0 is answered ST_NOT_OWNER, counted, except for NOP, IDENTIFY, STATUS and PARTITION_CLAIM. Nothing else changes, but what follows at once whatever the answer, after REF_SELECT in the selector and after CAL_START RECOVER for targets that are retired. With a count of Awl pending for the lockstep, the command that has come this far is answered ST_INTERNAL, with the faults of R416 and R417. Of one that passes, the stages that all commands share come first, a system-wide operation that finds no channel busy among them: a partition other than 0 that sends a command of partition 0 alone is answered ST_NOT_OWNER; a reserved header bit that is 1, or fewer parameter words than the opcode and form have at least, ST_BAD_PARAM with detail 0; a surplus word after a form without words, and a 1 outside the fields of the one word of the opcodes of `onlyFields`, ST_BAD_PARAM with detail 1, and a surplus word after a good one of those with no other check of it, with detail 2. -/
def Obligations.EngineChecksInOrder : Prop :=
  ∀ (i : Instr) (op form : Nat) (c : Cmd) (s : State), packet i = some (op, form, c) → canArrive s c = true →
    let u := advanceTo s c.tick
    (isBound u c = false → exec i s = .next (settled i (sendReply (u.satInc F.part3_not_owner c.part 1) c op stNotOwner 0 [] false))) ∧
    (isBound u c = true → u.chanBusy c.part = true →
      exec i s = .next (settled i (sendReply (u.satInc F.part3_busy_replies c.part 1) c op stBusy 0 [busyWord u c.part] false))) ∧
    (isBound u c = true → u.chanBusy c.part = false → u.phase = 7 → recoveryOpcode op = false →
      exec i s = .next (settled i (finish u c op stBadOpcode 0 []))) ∧
    (isBound u c = true → u.chanBusy c.part = false → u.phase ≠ 7 → c.part ≠ 0 → u.flag F.part0_claimed c.part = false → openOpcode op = false →
      exec i s = .next (settled i (finish (u.satInc F.part3_not_owner c.part 1) c op stNotOwner 0 []))) ∧
    (isBound u c = true → u.chanBusy c.part = false → u.phase ≠ 7 → c.part = 0 → mget 0 u.flt.awl (dieSource 15 7) ≠ 0 →
      exec i s = .next (settled i (internalFault (lockstepFault (awlTake u (dieSource 15 7)).1 true) c op))) ∧
    (passes s c op = true → u.busyPart = none ∨ ¬ [0x62, 0x63, 0x70].contains op →
      let refused := fun (st d : Nat) => exec i s = .next (settled i (finish u c op st d []))
      (sysOnly op = true → c.part ≠ 0 → refused stNotOwner 0) ∧
      ((sysOnly op = true → c.part = 0) →
        (c.resv ≠ 0 ∨ c.params.length < leastWords op form → refused stBadParam 0) ∧
        (c.resv = 0 → noWords op form = true → c.params ≠ [] → refused stBadParam 1) ∧
        (∀ fs, c.resv = 0 → onlyFields op = some fs →
          (c.params.length = 1 → stray (c.par 0) fs = true → refused stBadParam 1) ∧
          (c.params.length = 2 → [0x0A, 0x30, 0x31, 0x32, 0x34, 0x35, 0x3A].contains op → stray (c.par 0) fs = false → refused stBadParam 2))))

/-- The word of an ST_BUSY reply holds in bits 63 to 56 the opcode in progress, in 55 to 48 its partition, in 47 whether it is system-wide, 0 in 46 to 32, and in 31 to 0 the whole microseconds (1,600 ticks each) since its acceptance, held at 2^32 - 1. -/
def Obligations.BusyWordFields : Prop :=
  ∀ (s : State) (p : Nat), p < 256 →
    let w := busyWord s p
    bits w 46 32 = 0 ∧
    (s.cmd.sysOp = none → bits w 63 56 = (s.chan p).op % 256 ∧ bits w 55 48 = p ∧ bits w 47 47 = 0 ∧
      bits w 31 0 = min (2 ^ 32 - 1) ((s.tb.tick - (s.chan p).since) / 1600)) ∧
    (∀ o, s.cmd.sysOp = some o → o.op < 256 → o.cmd.part < 256 → bits w 63 56 = o.op ∧ bits w 55 48 = o.cmd.part ∧ bits w 47 47 = 1 ∧
      bits w 31 0 = min (2 ^ 32 - 1) ((s.tb.tick - o.since) / 1600))

/-- A finished command on the serial management port leaves its channel busy with its opcode and queues one reply behind those that wait, and changes nothing else; on a lane that is UP it queues it on that lane; on a lane that has left UP the reply is discarded and the channel is free. Every packet of a reply carries the opcode, partition and tag of the command with the status, at most 255 words each, the packets together carry the reply's words, and every packet but the last has more = 1. -/
def Obligations.RepliesCarryTheCommand : Prop :=
  (∀ (s : State) (c : Cmd) (op st d : Nat) (ws : List Word), op ≠ 0xFF →
    let t := finish s c op st d ws
    let r : Reply := { part := c.part, packets := replyPackets (ws.length + 1) op c.part c.tag st d ws, frees := true }
    (c.lane = none → t.cmd.smpOut = s.cmd.smpOut ++ [r] ∧ (t.chan c.part).op = op ∧ t = { s with cmd := t.cmd }) ∧
    (∀ l, c.lane = some l → s.laneUp l = true →
      (t.hlane l).replies = (s.hlane l).replies ++ [r] ∧ (t.chan c.part).op = op ∧ t = { s with cmd := t.cmd, hlanes := t.hlanes }) ∧
    (∀ l, c.lane = some l → s.laneUp l = false → (t.chan c.part).op = 0xFF ∧ t = { s with cmd := t.cmd })) ∧
  (∀ (op part tag st d : Nat) (ws : List Word), op < 256 → part < 256 → tag < 65536 → st < 256 → d < 32768 →
    let ps := replyPackets (ws.length + 1) op part tag st d ws
    (ps.flatMap fun p => p.drop 1) = ws ∧
    ∀ k p, ps[k]? = some p → ∃ h body, p = h :: body ∧ body.length ≤ 255 ∧ bits h 63 56 = op ∧ bits h 55 48 = part ∧ bits h 47 32 = tag ∧
      bits h 31 24 = body.length ∧ bits h 23 16 = st ∧ bits h 14 0 = d ∧ bits h 15 15 = (if k + 1 = ps.length then 0 else 1))


namespace Sys2Proof.Claims

/-- The packet of a command, its header and parameters, is the oldest at its port; `rest` are the others of a lane's buffer. -/
def oldest (s : State) (c : Cmd) (h : Word) (rest : List (List Word)) : Prop :=
  match c.lane with
  | some l => (s.hlane l).rx = (h :: c.params) :: rest
  | none => s.cmd.smpIn = some (h :: c.params)

/-- That packet has left its place, its grant is noted, and its lane's binding is the one that it met when it came (R22, R369, R378). -/
def taken (s : State) (c : Cmd) (rest : List (List Word)) : State :=
  let v := noteGrant s 0 s.takers (requester c.lane)
  match c.lane with
  | some l => (v.setHlane l { s.hlane l with rx := rest, heard := (s.hlane l).heard.drop 1 }).hear (s.hlane l).heard.head?
  | none => { v with cmd := { s.cmd with smpIn := none } }

/-- The binding that a packet met is forgotten with its command. -/
def unheard (c : Cmd) (t : State) : State := if c.lane.isSome then t.hear none else t

end Sys2Proof.Claims

/-- When the engines can take it, the oldest packet of a lane's receive buffer, or the packet at the serial management port, leaves its place, its arbiter notes the grant for those that wait longer, and what follows is the command that its header names, with its partition, tag, reserved bits and parameters, judged on a lane by the bindings at its arrival; SEG_RELEASE is the form for all segments where parameter bit 63 says so. A packet whose number of words is not the one its header gives is answered ST_BAD_PARAM with detail 0. An opcode that is not in the table is answered ST_BAD_OPCODE after the checks of binding and channel, and a form that is not listed for its opcode ST_BAD_PARAM with detail 0, after the check that it is partition 0 which sends an opcode of partition 0 alone. The arbiter grants the requester named when it alone waits, and always one of those that wait. While the engines cannot take a packet (not RUNNING, resynchronising, RESET_N low) it waits, and no packet's command has an effect; REF_SELECT then only lets the selector settle, and CAL_START RECOVER gives retired targets their result. -/
def Obligations.EnginesTakePackets : Prop :=
  (∀ (op form : Nat) (c : Cmd) (h : Word) (rest : List (List Word)) (s : State),
    c.part = bits h 55 48 → c.tag = bits h 47 32 → c.resv = bits h 15 0 → bits h 63 56 = op → bits h 23 16 = form →
    canArrive s c = true → s.granted 0 s.portCount s.takers (requester c.lane) = requester c.lane → oldest s c h rest →
    let v := taken s c rest
    let u := advanceTo v c.tick
    let gives := fun (w : State) => exec (.commandTake c.lane c.tick) s = .next (unheard c w)
    (bits h 31 24 ≠ c.params.length → gives (sendReply u c op stBadParam 0 [] false)) ∧
    (bits h 31 24 = c.params.length →
      (∀ i, packet i = some (op, form, c) → (op = 0x44 → (bit (c.par 0) 63 = true ↔ i = .segReleaseAll c)) → ∃ w, exec i v = .next w ∧ gives w) ∧
      (knownOp op = false →
        (isBound u c = false → gives (sendReply (u.satInc F.part3_not_owner c.part 1) c op stNotOwner 0 [] false)) ∧
        (isBound u c = true → u.chanBusy c.part = true → gives (sendReply (u.satInc F.part3_busy_replies c.part 1) c op stBusy 0 [busyWord u c.part] false)) ∧
        (isBound u c = true → u.chanBusy c.part = false → gives (finish u c op stBadOpcode 0 []))) ∧
      ((∀ i, packet i ≠ some (op, form, c)) → knownOp op = true → passes v c op = true →
        gives (finish u c op (if sysOnly op && decide (c.part ≠ 0) then stNotOwner else stBadParam) 0 [])))) ∧
  (∀ (i : Instr) (op form : Nat) (c : Cmd) (s : State), packet i = some (op, form, c) → canArrive s c = false →
    exec i s = .next (settled i s) ∧ exec (.commandTake c.lane c.tick) s = .next s) ∧
  ∀ (lane : Option Nat) (s : State),
    (s.takers = [requester lane] → s.granted 0 s.portCount s.takers (requester lane) = requester lane) ∧
    (s.takers.contains (requester lane) = true → s.takers.contains (s.granted 0 s.portCount s.takers (requester lane)) = true)

/-- On a host-facing lane that is UP, a frame that passes R175, of kind 6 with no block marked by an uncorrectable codeword, enters the lane's receive buffer, cut to its valid words and with whether its lane is bound to its partition now, when that holds fewer than 4 frames, and is otherwise discarded and counted in cmd_drops; any other frame is discarded and counted in frames_bad of the group's first lane. In no case does another register word change but the sequence gaps of the group's first lane, and a frame on a lane that is not host-facing and UP has no effect. -/
def Obligations.CommandFramesAreBuffered : Prop :=
  ∀ (lane : Nat) (f : Frame) (s : State), lane < 1024 →
    let g := s.groupOf lane
    let kg := wkey F.ltsd_seq_gaps.obj F.ltsd_seq_gaps.sel g
    let marked := (s.group g).badBlock || (s.runLanes g).any fun l => decide (0 < (s.lane l).invalid)
    (s.host lane = true → s.laneUp lane = true → frameOk f [6] = true → marked = false →
      exec (.commandFrameReceive lane f) s = exec (.hostFrameReceive lane f) s ∧
      ∃ t, exec (.hostFrameReceive lane f) s = .next t ∧ (t.group g).rxSeq = some (f.seqStart % 65536) ∧
        ((s.hlane lane).rx.length < 4 →
          (t.hlane lane).rx = (s.hlane lane).rx ++ [f.words.take (max 1 ((frameBytes f + 7) / 8))] ∧
            (t.hlane lane).heard = (s.hlane lane).heard ++ [s.boundNow (bits (f.words.headD 0#64) 55 48) lane] ∧ sameWords s t [kg]) ∧
        (4 ≤ (s.hlane lane).rx.length → t.hlanes = s.hlanes ∧ sameWords s t [kg, wkey F.lsc_cmd_drops.obj F.lsc_cmd_drops.sel lane] ∧
          t.get F.lsc_cmd_drops lane = plus s F.lsc_cmd_drops lane 1)) ∧
    (s.host lane = true → s.laneUp lane = true → frameOk f [6] = false ∨ marked = true →
      ∃ t, exec (.hostFrameReceive lane f) s = .next t ∧ t.hlanes = s.hlanes ∧
        t.get F.ltsd_frames_bad g = plus s F.ltsd_frames_bad g 1 ∧ sameWords s t [wkey F.ltsd_frames_bad.obj F.ltsd_frames_bad.sel g]) ∧
    (s.host lane = false ∨ s.laneUp lane = false →
      exec (.hostFrameReceive lane f) s = .next s ∧ exec (.commandFrameReceive lane f) s = .next s)

/-- A packet written over the serial management port whose CRC word does not hold the CRC-32 of its words, and one written while a reply on the port is unread, changes nothing at all: no reply, no counter. -/
def Obligations.SmpDiscardsBadPackets : Prop :=
  ∀ (words : List Word) (crc : Option Word) (s : State),
    (∀ w, crc = some w → bits w 31 0 ≠ crc32 words → exec (.smpWriteTransfer words crc) s = .next s) ∧
    (s.cmd.smpOut ≠ [] → exec (.smpWriteTransfer words crc) s = .next s)

/-- While the port works, a packet with the right CRC and no reply unread waits for the engines, and nothing else changes. A complete read sends a ready word with bit 63, the oldest reply's next packet and its CRC word; the packet is then gone, and with the last packet of a reply the reply is gone and, where it keeps the channel, the partition's channel is free. A read cut short sends the ready word and leaves the reply; a read with no reply waiting, or before start-up has reached RUNNING or RECOVERY, sends a ready word of 0 and changes nothing else. -/
def Obligations.SmpTransfers : Prop :=
  (∀ (words : List Word) (w : Word) (s : State), s.smpReady = true → words ≠ [] → bits w 31 0 = crc32 words → s.cmd.smpOut = [] → s.cmd.smpIn = none →
    exec (.smpWriteTransfer words (some w)) s = .next { s with cmd := { s.cmd with smpIn := some words } }) ∧
  (∀ (r : Reply) (rest : List Reply) (p : List Word) (ps : List (List Word)) (s : State), s.smpReady = true → s.cmd.smpOut = r :: rest → r.packets = p :: ps →
    (∃ t, exec (.smpReadTransfer true) s = .next t ∧
      t.out = s.out ++ [.smpReply (0x8000000000000000#64 :: p ++ [BitVec.ofNat 64 (crc32 p)])] ∧ t = { s with cmd := t.cmd, out := t.out } ∧
      (ps ≠ [] → t.cmd.smpOut = { r with packets := ps } :: rest ∧ t.cmd.chans = s.cmd.chans) ∧
      (ps = [] → t.cmd.smpOut = rest ∧ (t.chan r.part).op = (if r.frees then 0xFF else (s.chan r.part).op) ∧ ∀ q, q ≠ r.part → t.chan q = s.chan q)) ∧
    exec (.smpReadTransfer false) s = .next { s with out := s.out ++ [.smpReply [0x8000000000000000#64]] }) ∧
  (∀ (complete : Bool) (s : State), s.smpReady = false ∨ s.cmd.smpOut = [] →
    exec (.smpReadTransfer complete) s = .next { s with out := s.out ++ [.smpReply [0#64]] })

/-- An accepted NOP answers ST_OK with no words; IDENTIFY answers the part number 0x5C20, the steppings, package revision 1 and 4 stacks, the number of host-facing lanes, the running firmware with its slot (0 and slot 0xFF in recovery) and the fused serial number; STATUS answers the device time in fine LSB and PART word 0 of its partition, whose claim fields are those in force and which shows STATUS itself on the channel. None of them changes anything but its own reply, channel and count. -/
def Obligations.NopIdentifyStatus : Prop :=
  ∀ (c : Cmd) (s : State),
    let u := advanceTo s c.tick
    (accepts s c 0x00 0 = true → ends (.nop c) s c 0x00 u stOk 0 []) ∧
    (accepts s c 0x01 0 = true → ∃ w0 w1, ends (.identify c) s c 0x01 u stOk 0 [w0, w1] ∧
      bits w0 63 48 = 0x5C20 ∧ bits w0 47 40 = 0xB0 ∧ bits w0 39 32 = 0xB0 ∧ bits w0 31 24 = 0xB1 ∧ bits w0 23 20 = 1 ∧ bits w0 19 16 = 4 ∧
      bits w0 15 9 = 0 ∧ bits w0 8 0 = ((List.range 1024).filter u.host).length % 512 ∧ bits w1 31 0 = Config.serial.toNat ∧
      (u.phase = 7 → bits w1 63 40 = 0 ∧ bits w1 39 32 = 0xFF) ∧
      (u.phase ≠ 7 → bits w1 63 56 = (u.image u.pw.slot).major % 256 ∧ bits w1 55 48 = (u.image u.pw.slot).minor % 256 ∧
        bits w1 47 40 = (u.image u.pw.slot).patch % 256 ∧ bits w1 39 32 = u.pw.slot % 256)) ∧
    (accepts s c 0x02 0 = true → ∃ w, ends (.status c) s c 0x02 u stOk 0 [BitVec.ofNat 64 (u.full * 1024), w] ∧
      bits w 63 21 = bits (u.word 12 0 c.part) 63 21 ∧ bits w 20 13 = 0x02 ∧ bits w 12 12 = 0 ∧ bits w 11 11 = u.get F.part0_claim_smp c.part)

/-- An accepted claim of a partition from 1 to 255 that is unclaimed, or claimed with the same word, answers ST_OK and records the claim, the claimant word and the lane or port of arrival in PART word 0, and changes no other word and nothing outside the words; a claim with another word answers ST_NOT_OWNER with the recorded claimant and changes nothing. A release by the partition itself, or by partition 0 naming another partition whose channel is free, answers ST_OK, clears the claim and takes away the partition's pending staged words, and only those; by partition 0 naming a busy partition it answers ST_BUSY, and naming partition 0 ST_BAD_PARAM. -/
def Obligations.PartitionClaimRelease : Prop :=
  ∀ (c : Cmd) (s : State),
    let u := advanceTo s c.tick
    let released := fun (p : Nat) (v : State) =>
      v.flag F.part0_claimed p = false ∧ v.get F.part0_claimant p = 0 ∧ v.get F.part0_claim_lane p = 0 ∧ v.get F.part0_claim_smp p = 0 ∧
        sameWords u v [wkey 12 0 p] ∧ v = { u with regs := v.regs, cmd := { u.cmd with staged := u.cmd.staged.filter fun e => e.2.part ≠ p } }
    (accepts s c 0x08 1 = true → c.part ≠ 0 → c.part < 256 → stray (c.par 0) [(31, 0)] = false →
      (u.flag F.part0_claimed c.part = false ∨ u.get F.part0_claimant c.part = bits (c.par 0) 31 0 →
        ∃ v, ends (.partitionClaim c) s c 0x08 v stOk 0 [] ∧ v.flag F.part0_claimed c.part = true ∧ v.get F.part0_claimant c.part = bits (c.par 0) 31 0 ∧
          v.flag F.part0_claim_smp c.part = c.lane.isNone ∧ (∀ l, c.lane = some l → v.get F.part0_claim_lane c.part = l % 1024) ∧
          sameWords u v [wkey 12 0 c.part] ∧ onlyRegs u v) ∧
      (u.flag F.part0_claimed c.part = true → u.get F.part0_claimant c.part ≠ bits (c.par 0) 31 0 →
        exec (.partitionClaim c) s = .next (finish u c 0x08 stNotOwner 0 [BitVec.ofNat 64 (u.get F.part0_claimant c.part)]))) ∧
    (accepts s c 0x09 0 = true → c.part ≠ 0 → ∃ v, ends (.partitionRelease c) s c 0x09 v stOk 0 [] ∧ released c.part v) ∧
    (accepts0 s c 0x09 1 = true → stray (c.par 0) [(7, 0)] = false →
      let p := bits (c.par 0) 7 0
      (p = 0 → exec (.partitionRelease c) s = .next (finish u c 0x09 stBadParam 1 [])) ∧
      (p ≠ 0 → (u.chan p).op = 0xFF → ∃ v, ends (.partitionRelease c) s c 0x09 v stOk 0 [] ∧ released p v) ∧
      (p ≠ 0 → (u.chan p).op ≠ 0xFF →
        exec (.partitionRelease c) s = .next (finish (u.satInc F.part3_busy_replies 0 1) c 0x09 stBusy 0 [busyWord u p])))

/-- Commands meet a binding only once the reply to its PARTITION_BIND has left and freed partition 0's channel. An accepted bind of a host-facing lane that is not RETIRED answers ST_OK; the lane is then in the partition's bound set, with every lane that was in it, and no other partition's set changes; being host-facing is judged by the role after every CINCH given GO; a lane already in the set changes nothing, and a full set of 8 answers ST_NO_RESOURCE. An accepted unbind of a lane that no host queue of the partition, enabled after every CINCH given GO, then names answers ST_OK, of a retired lane too (log 17), and a lane that was in the set no longer is. The serial management port stays bound to partition 0 and to no other. -/
def Obligations.PartitionBind : Prop :=
  ∀ (c : Cmd) (s : State),
    let u := advanceTo s c.tick
    let p := bits (c.par 0) 17 10
    let l := bits (c.par 0) 9 0
    let held := [wkey 12 1 p, wkey 12 2 p]
    (∀ (x : Cmd) (v : State), x.lane = none → isBound v x = decide (x.part = 0)) ∧
    (∀ v : State, (v.cmd.binding = none → v.boundNow p l = (v.bound p).contains l) ∧ (∀ on, v.cmd.binding = some (p, l, on) → v.boundNow p l = !on) ∧
      (freeChan v 0).cmd.binding = none) ∧
    (accepts0 s c 0x0A 1 = true → stray (c.par 0) [(17, 0)] = false →
      (u.hostOf l = true → u.laneState l ≠ 10 →
        (l ∈ u.bound p → ends (.partitionBind c) s c 0x0A u stOk 0 []) ∧
        (l ∉ u.bound p → (u.bound p).length < 8 → ∃ v, ends (.partitionBind c) s c 0x0A v stOk 0 [] ∧
          (∀ m, m ∈ v.bound p ↔ m = l ∨ m ∈ u.bound p) ∧ sameWords u v held ∧
          v = { u with regs := v.regs, cmd := { u.cmd with binding := some (p, l, true) } }) ∧
        (l ∉ u.bound p → (u.bound p).length = 8 → exec (.partitionBind c) s = .next (finish u c 0x0A stNoResource 0 []))) ∧
      (u.hostOf l = false ∨ u.laneState l = 10 → exec (.partitionBind c) s = .next (finish u c 0x0A stBadParam 1 [])) ∧
      (u.queueNames p l = false →
        (l ∉ u.bound p → ends (.partitionUnbind c) s c 0x0A u stOk 0 []) ∧
        ((u.bound p).count l = 1 → u.word 12 1 p &&& 0x7C007C007C007C00#64 = 0#64 → u.word 12 2 p &&& 0x7C007C007C007C00#64 = 0#64 →
          ∃ v, ends (.partitionUnbind c) s c 0x0A v stOk 0 [] ∧ (∀ m, m ∈ v.bound p ↔ m ≠ l ∧ m ∈ u.bound p) ∧ sameWords u v held ∧
            v = { u with regs := v.regs, cmd := { u.cmd with binding := some (p, l, false) } })) ∧
      (u.queueNames p l = true → exec (.partitionUnbind c) s = .next (finish u c 0x0A stBadParam 1 [])))

/-- A lockstep mismatch while start-up has reached RUNNING or RECOVERY, RESET_N is high and the engines are not resynchronising makes them resynchronise and raises fault cause 0x03 of the engines' lockstep source, marked injected where its Awl count was pending, which it uses up; where a command of the partition was in progress it is no longer pending, it is answered ST_INTERNAL, and the ST_INTERNAL source raises cause 0x15. A system-wide operation of the partition is such a command, and so is the first CINCH of the partition where no such operation is under way; a command whose reply waits at the serial management port loses it; with the channel free, no reply that keeps it and no system-wide operation there is none. That nothing remains of an abandoned command's effect, which R416 leaves open, is the model's choice (log 18). At any other time a mismatch changes nothing. Resynchronisation complete, the engines take commands again and nothing else changes. -/
def Obligations.LockstepAndResync : Prop :=
  (∀ (p : Nat) (s : State), s.cmd.resync = false → 6 ≤ s.phase → s.pw.resetLow = false →
    let pending := mget 0 s.flt.awl (dieSource 15 7)
    let mark : FaultRep := { source := dieSource 15 7, cause := 0x03, sub := 0, injected := decide (pending ≠ 0) }
    let note : FaultRep := { source := dieSource 15 8, cause := 0x15, sub := 0, injected := false }
    ∃ u, u = { s with cmd := { s.cmd with resync := true }, flt := u.flt } ∧ u.flt.inflight = s.flt.inflight ++ [mark] ∧
      mget 0 u.flt.awl (dieSource 15 7) = pending - 1 ∧
      (∀ c op w, abandoned u p = some (c, op, w) → ∃ t, exec (.lockstepMismatch p) s = .next t ∧
        t = { finish w c op stInternal 0 [] with flt := t.flt } ∧ t.flt.inflight = s.flt.inflight ++ [mark, note]) ∧
      (abandoned u p = none → exec (.lockstepMismatch p) s = .next u) ∧
      (∀ o, s.cmd.sysOp = some o → o.cmd.part = p → ∃ w, abandoned u p = some (o.cmd, o.op, w) ∧ w.cmd.sysOp = none) ∧
      (∀ j rest, s.cmd.sysOp = none → (s.chan p).op = 0x13 → s.cmd.cinches = j :: rest → j.cmd.part = p →
        abandoned u p = some (j.cmd, 0x13, { u with cmd := { u.cmd with cinches := rest } })) ∧
      (∀ r rest, s.cmd.sysOp = none → (s.chan p).op = 0x00 → s.cmd.smpOut = r :: rest → r.frees = true → r.part = p →
        abandoned u p = some (replyCmd u none r, 0x00, { u with cmd := { u.cmd with smpOut := rest.filter fun x => !(x.frees && decide (x.part = p)) } })) ∧
      ((s.chan p).op = 0xFF → s.cmd.sysOp = none → (∀ r ∈ s.cmd.smpOut, r.frees = true → r.part ≠ p) →
        (∀ e ∈ s.hlanes, ∀ r ∈ e.2.replies, r.frees = true → r.part ≠ p) → abandoned u p = none)) ∧
  (∀ (p : Nat) (s : State), s.cmd.resync = true ∨ s.phase < 6 ∨ s.pw.resetLow = true → exec (.lockstepMismatch p) s = .next s) ∧
  (∀ s : State, exec .engineResyncComplete s = .next { s with cmd := { s.cmd with resync := false } })

/-- Each JTAG command loads its instruction code, and Test-Logic-Reset loads IDCODE; start-up that waits for the port goes on when the code takes no pins. What the selected register captures leaves on TDO: 0x15C205AF for IDCODE, 0 for BYPASS, CLAMP and HIGHZ (for BYPASS log 45). EXTEST, EXTEST_PULSE and EXTEST_TRAIN act as BYPASS while RESET_N is high; while it is low they capture, cell k in bit k, the pins that the boundary register then drives, the device's other levels, and of what the board drives and the lanes' test receivers find free values. SAMPLE/PRELOAD captures the pins likewise, those of the board from the command, and it, and EXTEST while RESET_N is low, then leave in cell k what the command gives for it. Nothing else changes. While RESET_N is low and no such instruction acts, THROTTLE is low, FAULT_N and ATTN_N are high, BOOT_CLK is low, BOOT_CS_N high, and BOOT_IO and SMP_DIO are released; while one acts, each follows its cell, a driver with a control cell only where that is 1, and HIGHZ releases them all. -/
def Obligations.TestAccessPort : Prop :=
  ∀ s : State,
    let shifted := fun (ir v n : Nat) (t : State) => t.jtag.ir = ir ∧ t.jtag.shift = v ∧ t.out = s.out ++ [.tdo n v] ∧
      t.pw = { s.pw with tapHold := s.pw.tapHold && takesPins ir } ∧ t = { s with jtag := t.jtag, pw := t.pw, out := t.out, freeCount := t.freeCount }
    (∀ e ∈ ([(.testLogicReset, 0x01, 0x15C205AF, 32), (.idcode, 0x01, 0x15C205AF, 32), (.clamp, 0x03, 0, 1), (.highz, 0x04, 0, 1), (.bypass, 0xFF, 0, 1)] :
        List (Instr × Nat × Nat × Nat)),
      ∃ t, exec e.1 s = .next t ∧ shifted e.2.1 e.2.2.1 e.2.2.2 t ∧ t.jtag.cells = s.jtag.cells ∧ t.freeCount = s.freeCount) ∧
    (∀ cells : List Nat, cells.length = 2184 → (∀ x ∈ cells, x < 2) →
      ∀ e ∈ ([(.extest cells, 0x00), (.extestPulse, 0x05), (.extestTrain, 0x06)] : List (Instr × Nat)), ∃ t v, exec e.1 s = .next t ∧
        (s.pw.resetLow = false → shifted e.2 0 1 t ∧ t.jtag.cells = s.jtag.cells ∧ t.freeCount = s.freeCount) ∧
        (s.pw.resetLow = true → shifted e.2 v 2184 t ∧
          (∀ k < 2184, e.2 = 0x00 → cells[k]? = some (mget 0 t.jtag.cells k)) ∧ (e.2 ≠ 0x00 → t.jtag.cells = s.jtag.cells) ∧
          (∀ k < 2184, Nat.testBit v k =
            decide (({ s with jtag := { s.jtag with ir := e.2 } } : State).captured (fun i => b2n (bit (Config.freeValue (s.freeCount + i / 64)) (i % 64))) k = 1)))) ∧
    (∀ cells pins : List Nat, cells.length = 2184 → (∀ x ∈ cells, x < 2) → ∃ t v, exec (.samplePreload cells pins) s = .next t ∧ shifted 0x02 v 2184 t ∧
      t.freeCount = s.freeCount ∧ ∀ k < 2184, cells[k]? = some (mget 0 t.jtag.cells k) ∧
        Nat.testBit v k = decide (({ s with jtag := { s.jtag with ir := 0x02 } } : State).captured (levels pins) k = 1)) ∧
    (s.pw.resetLow = true → takesPins s.jtag.ir = false →
      (∀ p, s.throttlePin p = some false) ∧ s.faultN = true ∧ s.attnN = true ∧ s.bootClk = some false ∧ s.bootCsN = some true ∧
        (∀ k, s.bootIo k = none) ∧ s.smpDio = none) ∧
    (s.pw.resetLow = true → s.jtag.ir = 0x04 →
      (∀ p, s.throttlePin p = none) ∧ s.faultN = true ∧ s.attnN = true ∧ s.bootClk = none ∧ s.bootCsN = none ∧ (∀ k, s.bootIo k = none) ∧ s.smpDio = none) ∧
    (s.pw.resetLow = true → [0x00, 0x03, 0x05, 0x06].contains s.jtag.ir = true →
      let follows := fun (value control : Nat) => if s.cell control = true then some (s.cell value) else none
      (∀ p, s.throttlePin p = follows (2128 + p) 2160) ∧ s.faultN = s.cell 2161 ∧ s.attnN = s.cell 2162 ∧ s.bootClk = some (s.cell 2165) ∧
        s.bootCsN = some (s.cell 2166) ∧ (∀ k, s.bootIo k = follows (2168 + 3 * k) (2169 + 3 * k)) ∧ s.smpDio = follows 2182 2183)


/-! ### Objects: READ_OBJ, WRITE_STAGED, WRITE_LIVE, CINCH, and the W1C rows -/

namespace Sys2Proof.Claims

/-- A word whose reading needs nothing but the word in force: not one a tile applies at its own frontier (R394), nor one with a field that
follows device time, a timer or the channel. -/
def plainWord (obj sel : Nat) : Bool :=
  !([(1, 5), (1, 6), (3, 0), (3, 2), (4, 1), (4, 5), (4, 6), (5, 2), (6, 3), (6, 4), (8, 1), (8, 2), (11, 1), (11, 65), (12, 0), (13, 1)].contains (obj, sel))

/-- A word whose taking effect does nothing beside: the GROUP configuration word, TILE but for its merge word, TRIG, SEG, STATS, the INTERP
words but CALSET, and the filter words. -/
def quietWord (obj sel : Nat) : Bool := (obj = 2 && sel = 0) || (obj = 4 && sel ≠ 1) || obj = 6 || obj = 7 || obj = 8 || (obj = 10 && sel ≠ 0) || (obj = 3 && (sel = 1 || sel = 2))

/-- A command may write the clr bit, or flags, of a word: rows 1 to 6 of R377, the header, a place of the word, the partition's access, the
channel not retired, the domain on, and the word in no set. -/
def mayWrite (s : State) (c : Cmd) (obj sel idx : Nat) (mask data : Word) : Bool :=
  let u := advanceTo s c.tick
  passes s c 0x12 && decide (c.resv = 0) && validPlace obj sel idx && u.access c.part obj sel idx true mask (merge (u.liveCopy obj sel idx) data mask) &&
    !u.placeGone obj sel idx && !u.wordOff obj sel idx && !u.inSet obj sel idx

/-- In `v` the fields `fs` of instance `idx` are 0, and everything else is as in `u`: the other fields of their words, every other word, and
what is outside the words. -/
def cleared (u v : State) (fs : List Field) (idx : Nat) : Prop :=
  (∀ f ∈ fs, v.get f idx = 0) ∧ sameWords u v (fs.map fun f => wkey f.obj f.sel idx) ∧ onlyRegs u v ∧
    ∀ g : Field, g.lo ≤ g.hi → g.hi < 64 → (∃ f ∈ fs, g.obj = f.obj ∧ g.sel = f.sel) →
      (∀ f ∈ fs, g.obj = f.obj → g.sel = f.sel → f.hi < g.lo ∨ g.hi < f.lo) → v.get g idx = u.get g idx

/-- Row 7 of R377 lets a write through. -/
def passed : Result → Bool
  | .loose _ => true
  | _ => false

/-- Row 7 of R377 lets the words of a WRITE_STAGED or WRITE_LIVE packet through, in the stages of R508. -/
def checksPass (live : Bool) (c : Cmd) (u : State) : Bool :=
  passed (writeChecks live c (descOf (c.par 0)) (c.par 1) (c.params.drop 2) u (.loose u))

/-- What row 7 of R377 answers to a write with a right header and descriptor that it refuses, stage by stage of R508: a new word with a written field outside
its range, named; a word or field that the partition may not write; a mask over bits that are not of the command's kind, or that CINCH alone changes; a W1C bit
written 0, its word named; a retired channel; a word whose domain is off; a word that breaks a rule of its own, named; histogram slots or phase references that
are lacking; a word pending for, or changed by, another. Nothing changes but the channel and the reply. -/
def writeRefusals (live : Bool) (i : Instr) (op : Nat) (c : Cmd) (s : State) : Prop :=
  let u := advanceTo s c.tick
  let d := descOf (c.par 0)
  let mask := c.par 1
  let data := c.params.drop 2
  let news := u.newWords live c.part d mask data
  let v := viewWith (if live then u.latest else u.stagedFor c.part) d.obj d.sel d.idx news
  let sp := wordSpec d.obj d.sel
  let w1c := mask &&& maskOf sp [.w1c]
  let may := if live then maskOf sp [.st, .rw, .w1c] &&& ~~~(cinchOnly d.obj d.sel) else maskOf sp [.st]
  let rule := fun (x : Nat) => u.wordRefused live v d.obj d.sel x mask || (live && u.liveClash v d x mask)
  let refused := fun (st det : Nat) (ws : List Word) => exec i s = .next (finish u c op st det ws)
  let mine := ∀ e ∈ d.places.zip news, u.access c.part d.obj d.sel e.1 true mask e.2 = true
  (∀ k w, news[k]? = some w → Machine.inRange d.obj d.sel mask w = false → (∀ j < k, ∀ x, news[j]? = some x → Machine.inRange d.obj d.sel mask x = true) →
    refused stBadParam (3 + k) []) ∧
  ((∀ w ∈ news, Machine.inRange d.obj d.sel mask w = true) →
    (¬mine → refused stNotOwner 0 []) ∧
    (mine → mask &&& ~~~may ≠ 0#64 → refused stBadParam 2 []) ∧
    (mine → mask &&& ~~~may = 0#64 →
      (∀ k w, data[k]? = some w → w1c &&& ~~~w ≠ 0#64 → (∀ j < k, ∀ x, data[j]? = some x → w1c &&& ~~~x = 0#64) → refused stBadParam (3 + k) []) ∧
      ((∀ w ∈ data, w1c &&& ~~~w = 0#64) →
        ((∃ x ∈ d.places, u.placeGone d.obj d.sel x = true) → refused stRetired 0 []) ∧
        ((∀ x ∈ d.places, u.placeGone d.obj d.sel x = false) →
          ((∃ x ∈ d.places, u.wordOff d.obj d.sel x = true) → refused stNoResource 0 []) ∧
          ((∀ x ∈ d.places, u.wordOff d.obj d.sel x = false) →
            (∀ k < d.count, rule (d.idx + k) = true → (∀ j < k, rule (d.idx + j) = false) → refused stBadParam (3 + k) []) ∧
            ((∀ x ∈ d.places, rule x = false) →
              (live = true → u.liveLacks v d = true → refused stNoResource 0 []) ∧
              (live = true → u.liveLacks v d = false → (∃ x ∈ d.places, u.inSet d.obj d.sel x = true) → refused stStagedConflict 0 []) ∧
              (live = false → ∀ k < d.count, ∀ p, u.stagedByOther c.part d.obj d.sel (d.idx + k) = some p →
                (∀ j < k, u.stagedByOther c.part d.obj d.sel (d.idx + j) = none) → refused stStagedConflict 0 [BitVec.ofNat 64 p])))))))

/-- The command as the WRITE_LIVE packet of one word that its row stands for. -/
def asLive (c : Cmd) (obj sel idx : Nat) (mask data : Word) : Cmd := { c with params := [descWord obj sel idx 1, mask, data] }

end Sys2Proof.Claims

/-- An accepted READ_OBJ with a valid descriptor of words that the partition may read and that are no retired channel's answers ST_OK with one word for each place: in live form the word in force, for a CHAN or TILE word as its tile applies it to the next caravan it closes; in staged form the same with the staged fields as every Cinch given GO and the partition's own pending changes leave them; in either form the reset word of a word whose domain is off. Fields that follow time (gates, armed definitions, lane tests, a domain's power and temperature) are brought up to date first; reading any other word changes nothing. -/
def Obligations.ReadObjReturnsWords : Prop :=
  ∀ (c : Cmd) (s : State),
    let u := advanceTo s c.tick
    let d := descOf (c.par 0)
    let v := d.places.foldl (fun x i => settleRead x d.obj d.sel i) u
    let live := fun (i : Nat) => v.shown c.part 0x10 d.obj d.sel i
    let staged := fun (i : Nat) => v.shownStaged c.part 0x10 d.obj d.sel i
    accepts s c 0x10 1 = true → descOk (c.par 0) = true → (∀ i ∈ d.places, u.access c.part d.obj d.sel i false 0#64 0#64 = true) →
      (∀ i ∈ d.places, u.placeGone d.obj d.sel i = false) →
      ends (.readObjLive c) s c 0x10 v stOk 0 (d.places.map live) ∧ ends (.readObjStaged c) s c 0x10 v stOk 0 (d.places.map staged) ∧
      d.places = (List.range d.count).map (d.idx + ·) ∧
      ∀ i ∈ d.places,
        (v.wordOff d.obj d.sel i = true → live i = resetWord d.obj d.sel i ∧ staged i = resetWord d.obj d.sel i) ∧
        (v.wordOff d.obj d.sel i = false → staged i = merge (live i) (v.stagedFor c.part d.obj d.sel i) (stMask d.obj d.sel)) ∧
        (plainWord d.obj d.sel = true → v = u ∧ (u.wordOff d.obj d.sel i = false → live i = u.word d.obj d.sel i)) ∧
        (d.obj = 3 → d.sel = 0 ∨ d.sel = 2 → v = u ∧
          (u.wordOff d.obj d.sel i = false → live i = u.wordFor d.obj d.sel i (u.k0 (chanTile i) * 4096))) ∧
        (d.obj = 4 → d.sel = 1 ∨ d.sel = 6 → v = u ∧ (u.wordOff d.obj d.sel i = false → live i = u.wordFor d.obj d.sel i (u.k0 i * 4096)))

/-- An accepted WRITE_STAGED that passes the checks of row 7 answers ST_OK and makes each named word pending for its partition with the masked bits of its data word, the other bits as they stood for that partition; no register word, no live copy and no other pending word changes. An accepted DISCARD_STAGED answers ST_OK with the count of the partition's pending words, held at 32,767; they are no longer pending, those of other partitions still are, and nothing else changes. A WRITE_STAGED that a check refuses is answered with that check's status, the first stage of R508 that fails, and changes nothing: a field out of range, a word or field that the partition may not write (ST_NOT_OWNER), a mask over bits that are not staged, a retired channel, a domain that is off (ST_NO_RESOURCE), a rule of the word itself, and a word pending for another partition (ST_STAGED_CONFLICT with that partition). -/
def Obligations.WriteStagedDiscardStaged : Prop :=
  ∀ (c : Cmd) (s : State),
    let u := advanceTo s c.tick
    let d := descOf (c.par 0)
    let mask := c.par 1
    (accepts s c 0x11 (2 + d.count) = true → descOk (c.par 0) = true →
      checksPass false c u = true →
      ∃ v, ends (.writeStaged c) s c 0x11 v stOk 0 [] ∧ v = { u with cmd := { u.cmd with staged := v.cmd.staged } } ∧
        (∀ k < d.count, v.stagedFor c.part d.obj d.sel (d.idx + k) = merge (u.stagedFor c.part d.obj d.sel (d.idx + k)) (c.par (2 + k)) mask ∧
          ∃ x, mfind v.cmd.staged (wkey d.obj d.sel (d.idx + k)) = some x ∧ x.part = c.part) ∧
        (∀ key, (∀ k < d.count, key ≠ wkey d.obj d.sel (d.idx + k)) → mfind v.cmd.staged key = mfind u.cmd.staged key)) ∧
    (accepts s c 0x11 (2 + d.count) = true → descOk (c.par 0) = true → writeRefusals false (.writeStaged c) 0x11 c s) ∧
    (accepts s c 0x14 0 = true →
      ends (.discardStaged c) s c 0x14 { u with cmd := { u.cmd with staged := u.cmd.staged.filter fun e => e.2.part ≠ c.part } } stOk
        (min 32767 (u.cmd.staged.filter fun e => e.2.part = c.part).length) [])

/-- An accepted WRITE_LIVE that passes the checks of row 7 answers ST_OK, its words written one after the other. Of each word: with no staged field in the mask and no W1C bit written 1, the masked RW bits take the data and nothing else changes. With staged fields alone, where a die with the block is on, the word in force does not change: the new value waits for the boundary of each such die, each die holds what it held, and nothing else changes; where none is on it is in force at once. A WRITE_LIVE that a check refuses is answered with that check's status, the first stage of R508 that fails, and changes nothing: among them a W1C bit written 0, a field that CINCH alone changes, a domain that is off, and a word pending for any partition or changed by a CINCH given GO (ST_STAGED_CONFLICT). -/
def Obligations.WriteLiveActs : Prop :=
  (∀ (c : Cmd) (s : State),
    let u := advanceTo s c.tick
    let d := descOf (c.par 0)
    accepts s c 0x12 (2 + d.count) = true → descOk (c.par 0) = true → checksPass true c u = true →
      ends (.writeLive c) s c 0x12
        ((d.places.zip (c.params.drop 2)).foldl (fun x e => applyLive x d.obj d.sel e.1 (c.par 1) e.2) u) stOk 0 []) ∧
  (∀ (c : Cmd) (s : State),
    accepts s c 0x12 (2 + (descOf (c.par 0)).count) = true → descOk (c.par 0) = true → writeRefusals true (.writeLive c) 0x12 c s) ∧
  ∀ (obj sel idx : Nat) (mask data : Word) (u : State),
    let v := applyLive u obj sel idx mask data
    let key := wkey obj sel idx
    let new := merge (u.liveCopy obj sel idx) data mask
    (mask &&& stMask obj sel = 0#64 → mask &&& data &&& maskOf (wordSpec obj sel) [.w1c] = 0#64 →
      sameWords u v [key] ∧ onlyRegs u v ∧ v.word obj sel idx = merge (u.word obj sel idx) data (mask &&& maskOf (wordSpec obj sel) [.rw])) ∧
    (mask &&& ~~~(stMask obj sel) = 0#64 → mask ≠ 0#64 →
      (u.wordDies obj sel idx new ≠ [] →
        sameWords u v [] ∧ v = { u with regs := v.regs, cmd := { u.cmd with written := v.cmd.written, copies := v.cmd.copies } } ∧
        (∀ die o e i, v.held die o e i = u.held die o e i) ∧
        ((u.wordDies obj sel idx new).length < 2 → v.cmd.copies = u.cmd.copies) ∧
        (∃ x, mfind v.cmd.written key = some x ∧ x.word = new ∧ x.waiting = u.wordDies obj sel idx new) ∧
        ∀ k, k ≠ key → mfind v.cmd.written k = mfind u.cmd.written k) ∧
      (u.wordDies obj sel idx new = [] → quietWord obj sel = true → u.cmd.written = [] →
        sameWords u v [key] ∧ v.word obj sel idx = merge (u.word obj sel idx) data mask))

/-- When a die that uses a word written by WRITE_LIVE and waits for it, or that found its dependent group inconsistent, reaches its boundary, it no longer waits; that is the end of the oldest open caravan of the word's tile, or the next caravan boundary. A group that is consistent as that die then holds it takes effect; one that is not the die keeps as it was and raises CONFIG_MISMATCH, once. For a word whose taking effect does nothing beside (GROUP configuration, TILE but for its merge word, TRIG, SEG, STATS, INTERP but CALSET, filter), where the die is the one whose value the word in force shows: the staged bits of the word in force become those written but for an inconsistent group, and the change is kept with its boundary; no other register word changes. Where it is another die no word in force changes. -/
def Obligations.WriteLiveAdopted : Prop :=
  ∀ (die obj sel idx : Nat) (w : Written) (s : State), mfind s.cmd.written (wkey obj sel idx) = some w → die ∈ w.waiting ∨ die ∈ w.bad →
    die ∈ s.wordDies obj sel idx w.word →
    let key := wkey obj sel idx
    let ofTile := (obj = 3 ∧ sel < 4) ∨ obj = 4
    let u := if ofTile then s else advanceFull s (nextBoundary s.full)
    let at1 := if obj = 3 ∧ sel < 4 then (s.k0 (chanTile idx) + 1) * 4096 else if obj = 4 then (s.k0 idx + 1) * 4096 else nextBoundary s.full
    let home := (s.wordDies obj sel idx w.word).head?.getD die
    let broken := u.brokenMask (u.dieView die) obj sel idx
    ∃ t, exec (.writeLiveAdopt die obj sel idx) s = .next t ∧
      (∀ x, mfind t.cmd.written key = some x → die ∉ x.waiting ∧ (die ∈ x.bad ↔ broken ≠ 0#64)) ∧
      (home ≠ die → t.regs = u.regs) ∧
      (home ≠ die ∨ quietWord obj sel = true → t.flt = (if broken = 0#64 ∨ die ∈ w.bad then u.flt else (raise u (dieSource die 0) 0x0A 0 false).flt)) ∧
      (home = die → quietWord obj sel = true → sameWords u t [key] ∧
        t.word obj sel idx = merge (u.word obj sel idx) w.word (stMask obj sel &&& ~~~broken) ∧
        ∃ p, mfind t.cmd.prev key = some p ∧ ∃ b, (at1, b) ∈ p.changes)

/-- An accepted CINCH whose parameter is 0, or a multiple of 4,096 that lies at most 2^32 ticks ahead in the nearest epoch, keeps its channel busy and waits its turn. The check of the one at the head ends with ST_STAGED_CONFLICT naming the lowest word that fails, one of its set where there is one, and every word still pending, or with a boundary B, a multiple of 4,096 at least 8,192 ticks ahead, not before the one its parameter names, and at least 524,288 ticks after the boundary of each earlier Cinch that changed one of its words or a map word of the same group. Acknowledged before B - 2,048, it is given GO: its words are no longer pending and wait for B, and ST_OK carries B and their count, at once, or, where the distance of 524,288 ticks made B later, when B comes. Not acknowledged then, it is cancelled and a new B chosen, or after 8 attempts answered ST_TIMEOUT with every word still pending. None of these changes a configuration word. -/
def Obligations.CinchLife : Prop :=
  (∀ (c : Cmd) (s : State),
    let u := advanceTo s c.tick
    accepts s c 0x13 1 = true → stray (c.par 0) [(53, 0)] = false → bits (c.par 0) 11 0 = 0 →
      (c.par 0 = 0#64 ∨ placeNear u.full (bits (c.par 0) 53 0) ≤ u.full + 2 ^ 32) →
      pends (.cinch c) s c 0x13 { u with cmd := { u.cmd with cinches := u.cmd.cinches ++
        [{ cmd := c, words := [], accepted := u.full, chosen := false, full := 0, attempts := 0 }] } }) ∧
  (∀ (j : CinchJob) (rest : List CinchJob) (t : Nat) (s : State), s.cmd.cinches = j :: rest →
    let u := advanceTo s t
    u.cmd.cinches = j :: rest →
    (j.chosen = false →
      (∀ k ks, u.failing j.cmd.part = k :: ks → exec (.cinchCheckEnd t) s =
        .next (finish { u with cmd := { u.cmd with cinches := rest } } j.cmd 0x13 stStagedConflict 0 [descWord (keyObj k) (keySel k) (keyIdx k) 1])) ∧
      (u.failing j.cmd.part = [] → ∃ x, exec (.cinchCheckEnd t) s = .next { u with cmd := { u.cmd with cinches := x :: rest } } ∧
        x.cmd = j.cmd ∧ x.chosen = true ∧ x.words = u.setOf j.cmd.part ∧ x.attempts = j.attempts ∧ 4096 ∣ x.full ∧ u.full + 8192 ≤ x.full ∧
        (j.cmd.par 0 ≠ 0#64 → placeNear j.accepted (bits (j.cmd.par 0) 53 0) ≤ x.full) ∧
        (∀ e ∈ u.setOf j.cmd.part,
          (∀ q ∈ u.cmd.prev, ∀ b, q.2.cinch = some b → spacedWith q.1 e.1 = true → b + 524288 ≤ x.full) ∧
          (∀ g ∈ u.cmd.gone, ∀ q ∈ g.words, spacedWith q.1 e.1 = true → g.full + 524288 ≤ x.full)) ∧
        (x.spaced = false → x.full < max (u.full + 8192) (if j.cmd.par 0 = 0#64 then 0 else placeNear j.accepted (bits (j.cmd.par 0) 53 0)) + 4096) ∧
        (x.spaced = true → x.full < u.spacing ((u.setOf j.cmd.part).map fun e => e.1) + 4096))) ∧
    (j.chosen = true → u.full + 2048 < j.full →
      ∃ f : FaultSys, f = { u.flt with saddleRun := f.saddleRun } ∧ (∀ e ∈ f.saddleRun, e ∈ u.flt.saddleRun) ∧
        let v := fun (reply : Option Cmd) => { u with flt := f, cmd := { u.cmd with
            cinches := rest
            staged := u.cmd.staged.filter fun e => e.2.part ≠ j.cmd.part
            gone := u.cmd.gone ++ [{ part := j.cmd.part, words := j.words, full := j.full, reply := reply }] } }
        (j.spaced = false → exec (.cinchGo t) s =
          .next (finish (v none) j.cmd 0x13 stOk (min 32767 j.words.length) [BitVec.ofNat 64 (j.full % 2 ^ 54)])) ∧
        (j.spaced = true → exec (.cinchGo t) s = .next (v (some j.cmd))))) ∧
  (∀ (j : CinchJob) (rest : List CinchJob) (s : State), s.cmd.cinches = j :: rest → j.chosen = true →
    let u := advanceFull s (j.full - 2048)
    (7 ≤ j.attempts → exec .cinchCancel s = .next (finish { u with cmd := { u.cmd with cinches := rest } } j.cmd 0x13 stTimeout 0 [])) ∧
    (j.attempts < 7 → ∃ b p, exec .cinchCancel s = .next { u with cmd := { u.cmd with cinches := { j with attempts := j.attempts + 1, full := b, spaced := p } :: rest } } ∧
      4096 ∣ b ∧ u.full + 8192 ≤ b))

/-- At the boundary of the next set given GO, the lowest and of those the first accepted, device time has reached it, the set waits no longer, and its words take effect one after the other; a word whose domain is off is as before; the reply that waited for the boundary is sent. Of a set of words whose taking effect does nothing beside (GROUP configuration, TILE but for its merge word, TRIG, SEG, STATS, INTERP but CALSET, filter), each named once: each word whose domain is on holds the set's staged bits, its change is kept with the boundary, and every other register word is as before. -/
def Obligations.CinchBoundaryApplies : Prop :=
  ∀ (g : Gone) (s : State), nextGone s.cmd.gone = some g →
    let a := advanceFull s g.full
    let u := { a with cmd := { a.cmd with gone := s.cmd.gone.erase g, cinchAt := g.full :: s.cmd.cinchAt } }
    let t := g.words.foldl (cinchWord g.full) u
    exec .cinchBoundary s = .next (match g.reply with
      | some c => finish t c 0x13 stOk (min 32767 g.words.length) [BitVec.ofNat 64 (g.full % 2 ^ 54)]
      | none => t) ∧
    (∀ h ∈ s.cmd.gone, g.full ≤ h.full) ∧ (g.full < 2 ^ 70 → g.full ≤ u.full) ∧
    (∀ (x : State) (e : Nat × Word), x.wordOff (keyObj e.1) (keySel e.1) (keyIdx e.1) = true → cinchWord g.full x e = x) ∧
    (msorted g.words = true → (∀ e ∈ g.words, quietWord (keyObj e.1) (keySel e.1) = true) →
      t.cmd.gone = s.cmd.gone.erase g ∧
        (∀ e ∈ g.words, u.wordOff (keyObj e.1) (keySel e.1) (keyIdx e.1) = false →
          t.word (keyObj e.1) (keySel e.1) (keyIdx e.1) =
            merge (u.word (keyObj e.1) (keySel e.1) (keyIdx e.1)) e.2 (stMask (keyObj e.1) (keySel e.1)) ∧
          ∃ p, mfind t.cmd.prev e.1 = some p ∧ p.cinch = some g.full ∧ ∃ b, (g.full, b) ∈ p.changes) ∧
        sameWords u t ((g.words.filter fun e => !u.wordOff (keyObj e.1) (keySel e.1) (keyIdx e.1)).map fun e => e.1))

/-- Each command that writes a clr bit (LANE status, LANE timing status, CHAN precision, CHAN, filter, GROUP merge, TILE merge, TILE history, TRIG, SEG, QUEUE ingress, host and anchor, PART, FAULTSRC global and source, POWER domain), accepted from a partition that may write it with the word's domain on and the word in no pending set, answers ST_OK; the counters that the bit clears read 0 (the count of OVERDRIVE events, which both comparators of an input show, in both words; the precision status by R105, the channel status by R242), and every other field of their words and every other word is as before. -/
def Obligations.ClearBitsClearCounters : Prop :=
  ∀ (c : Cmd) (n : Nat) (s : State),
    let u := advanceTo s c.tick
    ∀ e ∈ ([(.laneStatusClr c n, 1, 3, n, [F.lsb_fec_corrected, F.lsb_fec_uncorr, F.lsb_retrains, F.lsb_lock_losses, F.lsc_elastic_overflows, F.lsc_cap_fails,
          F.lsc_train_fails, F.lsc_crossings, F.lsc_cmd_drops, F.lsa_fec_sat]),
        (.laneTimingClr c n, 1, 11, n, [F.ltsc_exch_lost, F.ltsc_outliers, F.ltsc_steps, F.ltsc_mirage_lane, F.ltsd_frames_bad, F.ltsd_seq_gaps,
          F.ltsd_marker_back, F.ltsd_unsolicited, F.ltsd_late_echo]),
        (.precisionStatusClr c (2 * n), 3, 21, n, [F.psta_coarse_only, F.psta_merged, F.pstb_over_rate_windows, F.pstb_overdrive_events,
          F.pstb_overdrive_events.at 1, F.pstb_ival_timeouts, F.pstb_late_trail]),
        (.precisionStatusClr c (2 * n + 1), 3, 22, n, [F.psta_coarse_only.at 1, F.psta_merged.at 1, F.pstb_over_rate_windows.at 1, F.pstb_overdrive_events,
          F.pstb_overdrive_events.at 1, F.pstb_ival_timeouts.at 1, F.pstb_late_trail.at 1]),
        (.chanStatusClr c n, 3, 1, n, [F.chst_hits]),
        (.filterStatusClr c n, 3, 3, n, [F.fist_filtered, F.fist_cond_fired]),
        (.groupMergeClr c n, 2, 1, n, [F.gmrg_late_caravans, F.gmrg_replay_lost, F.gmrg_replays]),
        (.tileMergeClr c n, 4, 5, n, [F.tma_wadi_hits, F.tma_mirage_hits, F.tmb_shed_monitor, F.tmb_shed_stats, F.tmcs_shed_protected, F.tmcs_remap_lost,
          F.tmd_late_closes, F.tmd_discards]),
        (.tileHistoryClr c n, 4, 8, n, [F.thb_spill_skips, F.thb_needed_drops]),
        (.trigMissedClr c n, 6, 4, n, [F.trsb_missed]),
        (.segStatusClr c n, 7, 3, n * 16, [F.segb_oasis_empty]),
        (.queueIngressClr c n, 5, 4, n, [F.qia_drops, F.qia_ecc_sat, F.qib_ecc_corr, F.qib_overrun_hits, F.qis_frames_ecc, F.qis_pauses]),
        (.queueHostClr c n, 5, 8, n, [F.qha_ecc_sat, F.qha_ecc_corr, F.qhb_rec_dropped, F.qhb_flushed, F.qhs_caravans_lost, F.qhs_level_crossings, F.qhs_rec_ecc]),
        (.queueAnchorClr c n, 5, 9, n, [F.qan_prec_drops]),
        (.partCountersClr c n, 12, 3, n, [F.part3_accepted, F.part3_busy_replies, F.part3_not_owner]),
        (.faultsrcGlobalClr c, 11, 65, 0, [F.fgs_accepted_all]),
        (.faultsrcSourceClr c n, 11, 3, n, [F.fsa_accepted, F.fss_data_lost]),
        (.powerStatusClr c n, 13, 1, n, [F.pws_switches, F.pws_cycles])] : List (Instr × Nat × Nat × Nat × List Field)),
      mayWrite s c e.2.1 e.2.2.1 e.2.2.2.1 1#64 1#64 = true →
      ∃ v, exec e.1 s = .next (finish (v.satInc F.part3_accepted c.part 1) (asLive c e.2.1 e.2.2.1 e.2.2.2.1 1#64 1#64) 0x12 stOk 0 []) ∧
        cleared u v e.2.2.2.2 e.2.2.2.1

/-- Writing 1 to W1C flags of a QUEUE ingress or host status word A clears exactly the flags named; writing FAULTSRC.fault_n_sw sets that bit to the value written. Accepted, each answers ST_OK and changes nothing else. -/
def Obligations.QueueFlagsAndFaultNSw : Prop :=
  ∀ (c : Cmd) (n : Nat) (flags : Word) (hold : Bool) (s : State),
    let u := advanceTo s c.tick
    (∀ e ∈ ([(.queueIngressFlagClear c n flags, 2), (.queueHostFlagClear c n flags, 6)] : List (Instr × Nat)),
      flags &&& ~~~(maskOf (wordSpec 5 e.2) [.w1c]) = 0#64 → mayWrite s c 5 e.2 n flags flags = true →
      ∃ v, exec e.1 s = .next (finish (v.satInc F.part3_accepted c.part 1) (asLive c 5 e.2 n flags flags) 0x12 stOk 0 []) ∧
        v.word 5 e.2 n = u.word 5 e.2 n &&& ~~~flags ∧ sameWords u v [wkey 5 e.2 n] ∧ onlyRegs u v) ∧
    (let data := setBits 0#64 38 38 (b2n hold)
     mayWrite s c 11 64 0 (fieldMask 38 38) data = true →
      ∃ v, exec (.faultNSw c hold) s = .next (finish (v.satInc F.part3_accepted c.part 1) (asLive c 11 64 0 (fieldMask 38 38) data) 0x12 stOk 0 []) ∧
        v.word 11 64 0 = setBits (u.word 11 64 0) 38 38 (b2n hold) ∧ sameWords u v [wkey 11 64 0] ∧ onlyRegs u v)


/-! ### Time base: references, the selector, device time -/

namespace Sys2Proof.Claims

/-- In LOCKED no transition of the selector is due: the selected reference is neither lost nor, in automatic mode, DRIFTING; while the lock is
provisional there is no candidate; and no reversion is due (R51, R56). -/
def steady (u : State) : Prop :=
  u.refLost u.selected = false ∧ ¬ (u.selMode = 0 ∧ u.refState u.selected = 5) ∧ (u.flag F.refst0_provisional 0 = true → u.best u.candidate = none) ∧
    (u.flag F.refst0_provisional 0 = false → u.revertTo = none)

/-- The voters of the second that ends in `u`, with what each has measured (R42 to R44): the routed references in QUALIFY, GOOD or DRIFTING, and, where enough
lanes agree, the ensemble as 3. -/
def secondVoters (u : State) : Voters :=
  let y := fun (r : Nat) => if u.flag F.refsel0_xmeas_en 0 && u.domOn 27 then yOf (mget RegSum.init u.rf.sums r) else none
  let ens := u.flag F.refsel0_ens_en 0 && decide (u.get F.refsel1_ens_min 0 ≤ u.rateTerms.length) && !u.rateTerms.isEmpty &&
    decide (middleSpan u.rateTerms ≤ u.get F.refsel1_drift_limit 0 * 10)
  ([0, 1, 2].filterMap fun r => (y r).bind fun v => if u.refState r = 3 ∨ u.refState r = 4 ∨ u.refState r = 5 then some (r, v) else none) ++
    (if ens then (median u.rateTerms).toList.map fun v => (3, v) else [])

/-- The state in which an accepted REF_SELECT of a form, naming a reference, is pending with its channel busy. -/
def asked (u : State) (c : Cmd) (form r : Nat) : State :=
  ({ u with rf := { u.rf with sel := some { cmd := c, form := form, ref := r, started := false } } }.satInc F.part3_accepted c.part 1).setChan
    c.part { op := 0x20, since := u.tb.tick }

end Sys2Proof.Claims

/-- Lost edges make a reference ABSENT. A measured frequency outside the limit makes a present reference OFF_FREQ; within it an ABSENT one enters WARMING (REF_A) or QUALIFY, an OFF_FREQ one counts and does so at its hundredth, and one in another state is left as it is; the other references keep their states, and while the loop is closed the control word in force is noted. The monitor's second leaves the warm pin as it stands, and each reference's y as the stamps of that second give it, or 0x8000_0000 where none was measured, and begins its sums anew; a GOOD or QUALIFY voter that has then departed for REFSEL.persist seconds is DRIFTING, a DRIFTING reference that has not departed for as long is in QUALIFY, one in QUALIFY for REFSEL.qual_s seconds that does not depart is GOOD, and a GOOD one that does not depart stays so. REF_STATUS answers the nine words with nothing changed: the words in force, with the seconds of holdover, of each state, and which references vote, as they stand then. -/
def Obligations.ReferenceEvents : Prop :=
  (∀ (ref t : Nat) (s : State), ref < 3 → ∃ v, exec (.refEdgeLoss ref t) s = .next v ∧ v.refState ref = 0 ∧ v.tb.tick = max s.tb.tick t ∧
    ∀ r < 3, r ≠ ref → v.refState r = s.refState r) ∧
  (∀ (ref t : Nat) (dev word : Int) (s : State), ref < 3 →
    let u := advanceTo s t
    let n := if u.rf.osc.held.isNone then noteWord u word else u
    (ref = 2 → s.refcExists = false → exec (.refFreqMeasure ref dev word t) s = .next s) ∧
    ((ref = 2 → s.refcExists = true) → ∃ v, exec (.refFreqMeasure ref dev word t) s = .next v ∧
      (∀ r < 3, r ≠ ref → v.refState r = s.refState r) ∧
      (u.freqLimit < dev.natAbs → v.refState ref = (if u.refState ref = 0 then 0 else 1)) ∧
      (dev.natAbs ≤ u.freqLimit →
        (u.refState ref = 0 → v.refState ref = (if ref = 0 then 2 else 3)) ∧
        (u.refState ref = 1 → 99 ≤ (u.refx ref).okRun → v.refState ref = (if ref = 0 then 2 else 3)) ∧
        (u.refState ref = 1 → (u.refx ref).okRun < 99 →
          v.refState ref = 1 ∧ (v.refx ref).okRun = (u.refx ref).okRun + 1 ∧ v = { n with rf := v.rf }) ∧
        (2 ≤ u.refState ref → v = n)))) ∧
  (∀ (warm : Bool) (t : Nat) (s : State),
    let u := advanceTo s t
    ∃ v, exec (.refMonitorSecond warm t) s = .next v ∧ v.flag F.refs_warm_pin 0 = warm ∧ v.rf.sums = [] ∧
      ∀ r < 3, v.get F.refy_y_tb r =
        (if u.flag F.refsel0_xmeas_en 0 = true ∧ u.domOn 27 = true then yField (yOf (mget RegSum.init u.rf.sums r)) else 0x80000000)) ∧
  (∀ (warm : Bool) (t : Nat) (s : State),
    let u := advanceTo s t
    let vs := secondVoters u
    let persist := u.get F.refsel1_persist 0
    let limit := u.get F.refsel1_drift_limit 0 * 10
    let away := fun (r : Nat) => (vs.any fun e => e.1 = r && departs vs limit r e.2) = true
    ∃ v, exec (.refMonitorSecond warm t) s = .next v ∧ ∀ r < 3,
      (away r → u.refState r = 3 ∨ u.refState r = 4 → persist ≤ (u.refx r).okRun + 1 → v.refState r = 5) ∧
      (¬ away r → u.refState r = 5 → persist ≤ (u.refx r).clearRun + 1 → v.refState r = 3) ∧
      (¬ away r → u.refState r = 3 → 0 < persist → u.get F.refsel1_qual_s 0 ≤ (u.refx r).qualRun + 1 → v.refState r = 4) ∧
      (¬ away r → u.refState r = 4 → 0 < persist → v.refState r = 4)) ∧
  (∀ (c : Cmd) (s : State),
    let u := advanceTo s c.tick
    accepts s c 0x21 0 = true → ∃ ws, ends (.refStatus c) s c 0x21 u stOk 0 ws ∧ ws.length = 9 ∧
      (∃ w, ws[0]? = some w ∧ bits w 63 48 = bits (u.word 0x20 0 0) 63 48 ∧ bits w 15 0 = bits (u.word 0x20 0 0) 15 0 ∧
        (u.selState = 4 → ∀ t0, u.rf.holdAt = some t0 → bits w 31 16 = min 65535 ((u.tb.tick - t0) / 1600000000)) ∧
        (u.wtrRunning = none → bits w 47 32 = bits (u.word 0x20 0 0) 47 32)) ∧
      (∀ r < 3, ws[1 + 2 * r]? = some (u.word 0x20 1 r) ∧ ∃ w, ws[2 + 2 * r]? = some w ∧
        bits w 63 48 = min 65535 ((u.tb.tick - (u.refx r).since) / 1600000000) ∧ bits w 47 8 = bits (u.word 0x20 2 r) 47 8 ∧
        (bits w 7 7 = 1 ↔ u.votes r = true) ∧ bits w 6 0 = bits (u.word 0x20 2 r) 6 0) ∧
      (∃ w, ws[7]? = some w ∧ bits w 63 37 = bits (u.word 0x20 7 0) 63 37 ∧ bits w 35 0 = bits (u.word 0x20 7 0) 35 0 ∧
        (bits w 36 36 = 1 ↔ ∃ t0, u.rf.ppsLast = some t0 ∧ u.tb.tick ≤ t0 + 2400000000)) ∧ ws[8]? = some (u.word 0x20 8 0))

/-- In ACQUIRE, both limits of R52 held without a break for 100 ms, the selector is LOCKED; held for less, it waits on; a break begins the time anew. In SWITCH, 1.0 ms after its start the phase is taken out and the loop closes on the target at 100 Hz; at 2.0 ms the selector is LOCKED on the target, which is now selected, no reference is the target, the switch is counted, and the bandwidth is that of REFSEL.loop_bw. Whatever transition of the selector is then due follows; where none is due and no REF_SELECT is pending, none does. When the wait-to-restore timer of a GOOD reference reaches REFSEL.wtr_s, what is due follows: a LOCKED selector in automatic mode with reverting on starts the switch to the best of the candidates whose timer has, the loop open and the oscillator held at its mean control word with the temperature correction. -/
def Obligations.SelectorEvents : Prop :=
  (∀ w : State, w.selState = 2 → steady w → w.rf.sel = none → selSettle w = w) ∧
  (∀ (phase freq : Int) (t : Nat) (s : State), s.selState = 1 →
    let u := advanceTo s t
    let now := u.tb.tick
    let start := match s.rf.lockFrom with
      | some f => if now ≤ s.rf.lockTo + 16000000 then f else now - 16000000
      | none => now - 16000000
    let v := { u with rf := { u.rf with lockFrom := some start, lockTo := now } }
    (lockOk phase freq = true → start + 160000000 ≤ now → ∃ w, exec (.acquireLock phase freq t) s = .next (selSettle w) ∧ w.selState = 2 ∧
      w.selected = s.selected ∧ w.tb.tick = max s.tb.tick t ∧ (∀ r < 3, w.refState r = s.refState r) ∧ w.rf = v.rf) ∧
    (lockOk phase freq = true → now < start + 160000000 → exec (.acquireLock phase freq t) s = .next v) ∧
    (lockOk phase freq = false → exec (.acquireLock phase freq t) s = .next { u with rf := { u.rf with lockFrom := none, lockTo := now } })) ∧
  (∀ (phase : Int) (t0 : Nat) (s : State), s.selState = 3 → s.rf.switchAt = some t0 →
    let u := advanceTo s (t0 + 1600000)
    exec (.switchBuildOut phase) s =
      .next { u with rf := { u.rf with buildOut := some phase, osc := { u.rf.osc with held := none, wide := true }, loopClosed := true } }) ∧
  (∀ (t0 : Nat) (s : State), s.selState = 3 → s.rf.switchAt = some t0 →
    ∃ w, exec .switchComplete s = .next (selSettle w) ∧ w.selState = 2 ∧ w.selected = s.target ∧ w.target = 3 ∧ w.flag F.refst0_provisional 0 = false ∧
      w.rf.switchAt = none ∧ w.rf.loopClosed = true ∧ w.rf.osc.held = none ∧ w.loopBw = s.get F.refsel0_loop_bw 0 ∧
      w.tb.tick = max s.tb.tick (t0 + 3200000) ∧ w.get F.refst0_switch_count 0 = plus s F.refst0_switch_count 0 1 ∧ ∀ r < 3, w.refState r = s.refState r) ∧
  (∀ (ref t0 : Nat) (s : State), ref < 3 → (s.refx ref).wtr = some t0 → s.refState ref = 4 →
    let u := advanceTo s (t0 + s.get F.refsel0_wtr_s 0 * 1600000000)
    exec (.waitToRestoreExpiry ref) s = .next (selSettle u) ∧
    (∀ r, 4 ≤ u.phase → u.selState = 2 → u.refState u.selected = 4 → u.flag F.refst0_provisional 0 = false → u.revertTo = some r →
      ∃ v, exec (.waitToRestoreExpiry ref) s = .next v ∧ v.selState = 3 ∧ v.target = r ∧ v.selected = u.selected ∧ v.rf.switchAt = some u.tb.tick ∧
        v.rf.loopClosed = false ∧ v.rf.osc.held = some (u.meanWord + Config.tempModel u.freeCount)))

/-- An accepted REF_SELECT AUTO or HOLDOVER, and FORCED naming a GOOD reference, is pending with its channel busy, and the selector settles; FORCED naming a reference that is not GOOD is answered ST_BAD_PARAM with the mode as it was. While a switch is in progress to a target that is not lost, it waits. With the selector LOCKED on a GOOD reference, not provisional, and no reversion to another: AUTO sets automatic mode and is answered ST_OK, still LOCKED; FORCED naming the selected reference sets forced mode and is answered ST_OK; FORCED naming another GOOD reference sets forced mode and starts the switch to it, its reply to come; HOLDOVER sets holdover mode and is answered ST_OK in HOLDOVER, with the oscillator held at its mean control word and the temperature correction and the holdover fault raised (that no reference is then shown as selected is the model's choice, log 53). In HOLDOVER, AUTO with no candidate, and HOLDOVER, are answered ST_OK at once. -/
def Obligations.RefSelectForms : Prop :=
  ∀ (c : Cmd) (s : State),
    let u := advanceTo s c.tick
    let good := fun (r : Nat) => u.refState r = 4
    accepts0 s c 0x20 1 = true →
    (c.par 0 = 0#64 →
      exec (.refSelectAuto c) s = .next (selSettle (asked u c 0 0)) ∧ exec (.refSelectHoldover c) s = .next (selSettle (asked u c 2 0))) ∧
    (∀ r < 3, c.par 0 = BitVec.ofNat 64 r →
      (good r → exec (.refSelectForced c) s = .next (selSettle (asked u c 1 r))) ∧
      (¬ good r → exec (.refSelectForced c) s = .next (selSettle (finish u c 0x20 stBadParam 1 [])))) ∧
    (∀ form r, u.selState = 3 → u.refLost u.target = false → selSettle (asked u c form r) = asked u c form r) ∧
    (u.selState = 2 → good u.selected → u.selected < 3 → u.flag F.refst0_provisional 0 = false →
      u.flag F.refsel0_revert 0 = false ∨ (∀ r < 3, good r → r = u.selected) →
      (c.par 0 = 0#64 →
        (∃ v, exec (.refSelectAuto c) s = .next (finish v c 0x20 stOk 0 []) ∧ v.selMode = 0 ∧ v.selState = 2 ∧ v.selected = u.selected ∧ v.rf.sel = none) ∧
        (∃ v, exec (.refSelectHoldover c) s = .next (finish v c 0x20 stOk 0 []) ∧ v.selMode = 2 ∧ v.selState = 4 ∧ v.selected = 3 ∧ v.rf.sel = none ∧
          v.rf.holdAt = some u.tb.tick ∧ v.rf.osc.held = some (u.meanWord + Config.tempModel u.freeCount) ∧
          v.flt.inflight = u.flt.inflight ++ [{ source := 0x9003, cause := 0x14, sub := 0, injected := false }])) ∧
      (∀ r < 3, c.par 0 = BitVec.ofNat 64 r → good r →
        (r = u.selected → ∃ v, exec (.refSelectForced c) s = .next (finish v c 0x20 stOk 0 []) ∧ v.selMode = 1 ∧ v.get F.refsel0_forced 0 = r ∧
          v.selState = 2 ∧ v.selected = r ∧ v.rf.sel = none) ∧
        (r ≠ u.selected → ∃ v, exec (.refSelectForced c) s = .next v ∧ v.selMode = 1 ∧ v.get F.refsel0_forced 0 = r ∧ v.selState = 3 ∧ v.target = r ∧
          (v.chan 0).op = 0x20 ∧ v.rf.sel = some { cmd := c, form := 1, ref := r, started := true }))) ∧
    (u.selState = 4 → u.best u.candidate = none → c.par 0 = 0#64 →
      ((∀ r < 3, good r → u.prio r = 3) →
        ∃ v, exec (.refSelectAuto c) s = .next (finish v c 0x20 stOk 0 []) ∧ v.selMode = 0 ∧ v.selState = 4 ∧ v.rf.sel = none) ∧
      ∃ v, exec (.refSelectHoldover c) s = .next (finish v c 0x20 stOk 0 []) ∧ v.selMode = 2 ∧ v.selState = 4 ∧ v.rf.sel = none)

/-- On a quiescent device an accepted TIME_SET waits for a caravan boundary at least 4,096 ticks ahead with the count it is to give, PPS_ALIGN in either form waits 1.5 s for an edge (MEASURE on any device), and their channel stays busy; on one that is not, TIME_SET and PPS_ALIGN STEP are answered ST_BAD_PARAM. A PPS edge of the selected polarity is counted and its offset noted; it answers a waiting MEASURE with the stamp and V - S, and gives a waiting STEP its boundary; an edge of the other polarity changes nothing. With no edge in time ST_TIMEOUT is answered. At the boundary a device still quiescent takes the new count and answers ST_OK, TIME_SET with the epochs and counts before and after, PPS_ALIGN with the stamp and V - S; one that is not is answered ST_BAD_PARAM with its count as it was. -/
def Obligations.TimeSetPpsAlign : Prop :=
  (∀ (c : Cmd) (s : State),
    let u := advanceTo s c.tick
    let count := bits (c.par 0) 15 0 * 2 ^ 54 + bits (c.par 1) 53 0
    stray (c.par 0) [(15, 0)] = false → stray (c.par 1) [(53, 0)] = false →
    (accepts0 s c 0x22 2 = true → bits (c.par 1) 11 0 = 0 →
      (u.quiescent = true → ∃ p, pends (.timeSet c) s c 0x22 { u with tb := { u.tb with step := some p } } ∧ p.newFull = count ∧ p.pps = false ∧ p.cmd = c ∧
        4096 ∣ p.atFull ∧ u.full + 4096 ≤ p.atFull ∧ p.atFull < u.full + 8192) ∧
      (u.quiescent = false → exec (.timeSet c) s = .next (finish u c 0x22 stBadParam 0 []))) ∧
    (accepts0 s c 0x23 2 = true →
      pends (.ppsAlignMeasure c) s c 0x23 { u with rf := { u.rf with pps := some { cmd := c, step := false, full := count, deadline := u.tb.tick + 2400000000 } } } ∧
      (u.quiescent = true →
        pends (.ppsAlignStep c) s c 0x23 { u with rf := { u.rf with pps := some { cmd := c, step := true, full := count, deadline := u.tb.tick + 2400000000 } } }) ∧
      (u.quiescent = false → exec (.ppsAlignStep c) s = .next (finish u c 0x23 stBadParam 0 [])))) ∧
  (∀ (falling : Bool) (t : Nat) (s : State),
    let u := advanceTo s t
    let due := u.flag F.refsel0_pps_en 0 && decide (u.flag F.refsel0_pps_pol 0 = falling)
    (due = false → exec (.ppsEdge falling t) s = .next u) ∧
    (due = true → ∃ v, exec (.ppsEdge falling t) s = .next v ∧ v.rf.ppsLast = some u.tb.tick ∧
      v.get F.refpps_pps_count 0 = (u.get F.refpps_pps_count 0 + 1) % 2 ^ (F.refpps_pps_count.hi - F.refpps_pps_count.lo + 1) ∧
      toSigned 32 (v.get F.refpps_pps_offset 0) = ppsOffset u.full ∧
      ∀ p, u.rf.pps = some p → u.tb.tick ≤ p.deadline → v.rf.pps = none ∧
        (p.step = true → ∃ q, v.tb.step = some q ∧ q.pps = true ∧ q.stamp = u.full ∧ q.cmd = p.cmd ∧ 4096 ∣ q.atFull ∧ u.full + 4096 ≤ q.atFull ∧
          q.newFull = (((q.atFull : Int) + p.full - u.full) % 2 ^ 70).toNat) ∧
        (p.step = false → ∃ w, v = finish w p.cmd 0x23 stOk 0
          [BitVec.ofNat 64 (u.full % 2 ^ 54), BitVec.ofInt 64 ((p.full : Int) - u.full)]))) ∧
  (∀ (p : PpsWait) (s : State), s.rf.pps = some p →
    let u := advanceTo s p.deadline
    exec .ppsAlignTimeout s = .next (finish { u with rf := { u.rf with pps := none } } p.cmd 0x23 stTimeout 0 [])) ∧
  (∀ (p : StepPend) (s : State), s.tb.step = some p →
    let u := advanceFull s p.atFull
    let w := { u with tb := { u.tb with step := none } }
    (u.quiescent = false → exec .timeSetBoundary s = .next (finish w p.cmd (if p.pps then 0x23 else 0x22) stBadParam 0 [])) ∧
    (u.quiescent = true → u.full = p.atFull → p.newFull < 2 ^ 70 →
      (p.pps = false → ∃ v, exec .timeSetBoundary s = .next (finish v p.cmd 0x22 stOk 0
        [BitVec.ofNat 64 (p.atFull / 2 ^ 54 * 65536 + p.newFull / 2 ^ 54), BitVec.ofNat 64 (p.newFull % 2 ^ 54), BitVec.ofNat 64 (p.atFull % 2 ^ 54)]) ∧
        v.full = p.newFull) ∧
      (p.pps = true → p.atFull ≤ p.stamp + p.newFull → p.stamp + p.newFull < p.atFull + 2 ^ 70 →
        ∃ v, exec .timeSetBoundary s = .next (finish v p.cmd 0x23 stOk 0
          [BitVec.ofNat 64 (p.stamp % 2 ^ 54), BitVec.ofInt 64 ((p.newFull : Int) - p.atFull)]) ∧ v.full = p.newFull)))

/-- At the wrap of the coarse count the coarse count is 0, the epoch is one more modulo 2^16, and the EPOCH record with the old and the new epoch waits at every enabled host queue to go before the next record, behind one that waited already (its place is the model's choice, log 32). At a caravan boundary device time is the next multiple of 4,096, and every core die that is on has been sent that boundary with a marker at least 512 ticks before it; a lane die whose count agrees raises nothing and has nothing to adopt; the first disagreement raises the timing fault of its die, which at the next boundary adopts the anchor's count. -/
def Obligations.WrapAndCaravanBoundary : Prop :=
  (∀ s : State, ∃ t, exec .coarseWrap s = .next t ∧ t.tb.coarse = 0#54 ∧ t.tb.epoch = s.tb.epoch + 1#16 ∧
    ∀ q ∈ s.enabledQueues,
      let e := epochRec false s.tb.epoch.toNat (s.tb.epoch + 1#16).toNat 0 0
      (t.hq q).incoming = (s.hq q).incoming ++ (s.hq q).epochDue.toList ∧ (t.hq q).epochDue = some e ∧
        ∀ r, ((emit t q r).hq q).incoming = (t.hq q).incoming ++ [e, r]) ∧
  (∀ (upset : List (Nat × Nat)) (s : State), nextBoundary s.full < 2 ^ 70 →
    ∃ t, exec (.caravanBoundary upset) s = .next t ∧ t.full = nextBoundary s.full ∧
      (∀ k < 5, t.coreOn k = true → ∃ m, mfind t.notices k = some (t.full, m) ∧ m ≤ (t.full - 512) * 1024) ∧
      (upset = [] → s.tb.laneErr = [] → t.flt = s.flt) ∧
      (∀ n, n < 4 → upset = [] → mget 0 s.tb.laneErr n = 0 → n ∉ t.tb.laneAdopt) ∧
      (∀ n x, n < 4 → upset = [(n, x)] → s.tb.laneErr = [] → s.tb.laneAdopt = [] → x % 2 ^ 54 ≠ 0 →
        t.tb.laneAdopt = [n] ∧ (s.domOn (4 * n) = true → t.flt.inflight = s.flt.inflight ++
          [{ source := dieSource (8 + n) 3, cause := 0x09, sub := 0, injected := false }])) ∧
      (∀ n, n < 4 → upset = [] → mget 0 s.tb.laneErr n ≠ 0 → n ∈ s.tb.laneAdopt → mget 0 t.tb.laneErr n = 0 ∧ n ∉ t.tb.laneAdopt))


/-! ### Precision inputs -/

/-- A transition that a comparator of a live input does not select changes nothing but the time. One that it selects, at least 1.2 ns after the last stamped edge, is stamped at its edge time: with its conversion running in the first free slot in service, or, with none, coarse only, counted, and timed at the middle of its tick. (With the comparator not enabled, one stamped for the reference monitor alone counts nowhere and merges with nothing.) A leading one is held as a new stamp; a trailing one closes the pulse whose leading stamp is held, and with no pulse open, or one whose 32,760 fine LSB are past, it is counted in late_trail. Within 1.2 ns it is merged and counted: no stamp is added. When the hold of a comparator's only stamp, or pulse, ends, timed and outside every over-rate window, it leaves and is held no longer: for the channel its comparator is bound to, a pulse with the time between its stamps as its TOT, a timed-out pulse with 4,095; or for the reference monitor, where its input is routed to a reference. Over rate ends 1.2 ns after the last transition of its run. -/
def Obligations.EdgesAreStampedAndReleased : Prop :=
  (∀ (ci edge : Nat) (rising : Bool) (s : State), ci < 128 →
    let u := advanceTo s (edge / 102400)
    let raw := max edge (u.tb.tick * 102400)
    let dev := u.full * 102400 + (raw - u.tb.tick * 102400)
    let x := u.comp ci
    (s.inputLive (ci / 2) = false → exec (.comparatorTransition ci rising edge) s = .next s) ∧
    (s.inputLive (ci / 2) = true → u.selects ci u.full rising = none → exec (.comparatorTransition ci rising edge) s = .next u) ∧
    (∀ leading, s.inputLive (ci / 2) = true → u.selects ci u.full rising = some leading →
      let y := x.before dev
      let counts := u.foreground ci u.full
      ∃ t, exec (.comparatorTransition ci rising edge) s = .next t ∧ (counts = true → (t.comp ci).lastRaw = some raw) ∧
        ((∀ l, counts = true → x.lastStamped = some l → l + 196608 ≤ raw) →
          (t.comp ci).lastStamped = some raw ∧
          (∀ k, u.freeSlot ci raw = some k → ∃ d, mget [] (t.comp ci).slots k = mget [] x.slots k ++ [{ edge := dev, raw := raw, disturbed := d }]) ∧
          (u.freeSlot ci raw = none → t.get (F.psta_coarse_only.at (ci % 2)) (ci / 2) = plus u (F.psta_coarse_only.at (ci % 2)) (ci / 2) (b2n counts)) ∧
          ∃ st : Stamp, st.edge = dev ∧ st.lead = leading ∧
            (∀ k, u.freeSlot ci raw = some k → st.slot = k ∧ st.time = none ∧ st.coarseOnly = false) ∧
            (u.freeSlot ci raw = none → st.time = some (u.stampAt ci (dev / 102400) 8192) ∧ st.coarseOnly = true) ∧
            (leading = true → (t.comp ci).held = y.held ++ [st]) ∧
            (∀ e, leading = false → y.openPulse = some e → (y.held.any fun h => h.edge = e) = true →
              (t.comp ci).openPulse = none ∧ (t.comp ci).held = (y.held.map fun h => if h.edge = e then { h with pulse := .closed dev } else h) ++ [st]) ∧
            (∀ e, x.openPulse = some e →
              (dev ≤ e + 3276000 → y = x) ∧ (e + 3276000 < dev → y.openPulse = none ∧ y.held = x.held.map fun h => if h.edge = e then { h with pulse := .timedOut } else h)) ∧
            (x.openPulse = none → y = x) ∧
            (leading = false → y.openPulse = none → (t.comp ci).held = y.held ∧
              t.get (F.pstb_late_trail.at (ci % 2)) (ci / 2) = plus u (F.pstb_late_trail.at (ci % 2)) (ci / 2) 1)) ∧
        (∀ l, counts = true → x.lastStamped = some l → raw < l + 196608 → (t.comp ci).lastStamped = some l ∧ (t.comp ci).held.length = x.held.length ∧
          t.get (F.psta_merged.at (ci % 2)) (ci / 2) = plus u (F.psta_merged.at (ci % 2)) (ci / 2) 1))) ∧
  (∀ (ci c : Nat) (st tr : Stamp) (τ : Int) (s : State), ci < 128 → st.lead = true → st.time = some τ →
    let x := s.comp ci
    let hit : THit := { chan := c, time := ofSigned 80 τ, tot := 0, flags := 4 * b2n st.coarseOnly + 2 * b2n st.disturbed + b2n st.overdrive, merged := st.merged, overRate := false, timeout := false, transitions := 0, src := 1024, frame := 0, mirage := 0, ref := 0 }
    (x.held = [st] → st.pulse = .none ∨ st.pulse = .timedOut ∨ st.pulse = .mergedTrail → x.clear st.edge = true →
      let u := advanceFull s (holdEnd st.edge)
      let w := u.setComp ci { x with held := [] }
      u.pastHold st.edge = true →
      (u.routed (ci / 2) (st.edge / 102400) = true →
        exec (.stampRelease ci) s = .next (monitorStamp w (ci / 2 - 60) (ofSigned 80 τ) st.disturbed)) ∧
      (u.routed (ci / 2) (st.edge / 102400) = false → u.boundChanAt ci (st.edge / 102400) = some c →
        exec (.stampRelease ci) s = .next (sendPrec w (if st.pulse = .timedOut then { hit with tot := 4095 } else hit)))) ∧
    (∀ τ', x.held = [st, tr] → st.pulse = .closed tr.edge → tr.lead = false → tr.time = some τ' → x.clear st.edge = true → x.clear tr.edge = true →
      let u := advanceFull s (max (holdEnd tr.edge) (holdEnd st.edge))
      u.pastHold st.edge = true → u.pastHold tr.edge = true → u.routed (ci / 2) (st.edge / 102400) = false →
      u.boundChanAt ci (st.edge / 102400) = some c →
      exec (.stampRelease ci) s = .next (sendPrec (u.setComp ci { x with held := [] }) { hit with
        tot := min 4095 (roundHalfUp (τ' - τ) 8).toNat
        flags := Nat.lor hit.flags (4 * b2n tr.coarseOnly + 2 * b2n tr.disturbed + b2n tr.overdrive) }))) ∧
  (∀ (ci r : Nat) (s : State), ci < 128 → (s.comp ci).lastRaw = some r → 16 ≤ (s.comp ci).run →
    ∃ t, exec (.overRateEnd ci) s = .next t ∧ (t.comp ci).run = 0 ∧ t.get (F.pstb_over_rate_now.at (ci % 2)) (ci / 2) = 0 ∧
      t.tb.tick = max s.tb.tick ((r + 196608 + 102399) / 102400))

/-- A conversion that ends leaves its slot to those behind it, at the time its code gives. With the check passed, a table in force for its tick and no Awl count pending on it, every held stamp of that edge is timed with the table's entry for the code; with the check passed and no table, or with the check failed, it is timed at the middle of its tick, coarse only, and counted where its comparator is enabled, and the check failed the interpolator raises a fault. At the end of an over-rate window the window is gone and counted, and no stamp of it is held but its marker; where nothing else is held the marker leaves at once for the channel its comparator is bound to, with the count of raw transitions held at 255. -/
def Obligations.ConversionsAndOverRateWindows : Prop :=
  (∀ (ci slot code : Nat) (v : InConv) (rest : List InConv) (s : State), ci < 128 → mget [] (s.comp ci).slots slot = v :: rest → slot < 4 →
    let n := ci * 4 + slot
    let endAt := fun (c : Nat) => (v.raw + convTime c (s.interp n).slowPeriod) / 102400
    let coarse := fun (t : State) => mget [] (t.comp ci).slots slot = rest ∧
      t.get (F.psta_coarse_only.at (ci % 2)) (ci / 2) = plus s (F.psta_coarse_only.at (ci % 2)) (ci / 2) (b2n (s.foreground ci (v.edge / 102400))) ∧
      ∀ st ∈ (t.comp ci).held, st.edge = v.edge → st.coarseOnly = true ∧ st.time = some (s.stampAt ci (v.edge / 102400) 8192)
    (∀ tab, (s.interp n).tableFor (v.edge / 102400) = some tab → mget 0 s.flt.awl (interpSource n) = 0 →
      ∃ t, exec (.conversionComplete ci slot code true) s = .next t ∧ mget [] (t.comp ci).slots slot = rest ∧
        ((∀ k ∈ n :: poolMates n, (s.interp k).need = none) → t.flt = s.flt) ∧ t.tb.tick = max s.tb.tick (endAt code) ∧
        ∀ st ∈ (t.comp ci).held, st.edge = v.edge → st.time = some (s.stampAt ci (v.edge / 102400) (tab.entries.getD (code % 1024) 0))) ∧
    ((s.interp n).tableFor (v.edge / 102400) = none →
      ∃ t, exec (.conversionComplete ci slot code true) s = .next t ∧ coarse t ∧ t.flt = s.flt) ∧
    (∃ t, exec (.conversionComplete ci slot code false) s = .next t ∧ coarse t ∧ t.flt = (raise s (0x1000 + n) 0x02 0 false).flt ∧
      t.tb.tick = max s.tb.tick (endAt 0))) ∧
  (∀ (ci w : Nat) (win : Window) (s : State), ci < 128 → (s.comp ci).overWindow = some (w, win) →
    let u := advanceFull s ((w + 1) * 256)
    ∃ t, exec (.overRateWindowEnd ci) s = .next t ∧ mfind (t.comp ci).windows w = none ∧
      (∀ st ∈ (t.comp ci).held, windowOf st.edge = w → ∃ k, st.pulse = .marker k) ∧
      t.get (F.pstb_over_rate_windows.at (ci % 2)) (ci / 2) = plus s (F.pstb_over_rate_windows.at (ci % 2)) (ci / 2) 1 ∧
      ((∀ st ∈ (s.comp ci).held, windowOf st.edge = w) → (w + 1) * 256 ≤ u.full → u.routed (ci / 2) (w * 256) = false → ∀ c, u.boundChanAt ci (w * 256) = some c →
        ∃ v, (v.comp ci).held = [] ∧ t = sendPrec v { chan := c, time := w * 256 * 1024, tot := 0, flags := 0, merged := false, overRate := true, timeout := false, transitions := min 255 win.count, src := 1024, frame := 0, mirage := 0, ref := 0 }))

/-- The onset of an overdrive shows it in both status words of the input, counts it in both, and shows DISTURBED on all eight inputs of the group, whose window is open without an end; its end takes the overdrive away, notes the tick, and closes the window 80 ticks later where no other input of the group is overdriven; at the window's end DISTURBED is gone from all eight. A pulse without its trailing edge has timed out and is open no longer. An interval without its stop by ival_timeout ticks after its start stamp is armed no longer, and its TIMEOUT is counted and sent, with the start's time and flags, for the channel its comparator is bound to. A stop in time that was still converting completes the interval, with the union of the flags; a stop after the limit does not; a start that came while the interval was armed is ignored, and is not armed after it; an edge whose time is not known yet is waited for (this order of judging what still converts is the model's choice, log 48). -/
def Obligations.OverdriveAndTimeouts : Prop :=
  (∀ (i t : Nat) (s : State), i < 64 → s.domOn 27 = true → s.flag F.pstb_overdrive_now i = false →
    ∃ v, exec (.overdriveOnset i t) s = .next v ∧ v.tb.tick = max s.tb.tick t ∧ (∀ k < 2, v.flag (F.pstb_overdrive_now.at k) i = true ∧
        v.get (F.pstb_overdrive_events.at k) i = plus s (F.pstb_overdrive_events.at k) i 1) ∧
      (∀ j, i / 8 * 8 ≤ j → j < i / 8 * 8 + 8 → ∀ k < 2, v.flag (F.pstb_disturbed_now.at k) j = true) ∧
      v.pgroup (i / 8) = { opened := true, toFull := none }) ∧
  (∀ (i t : Nat) (s : State), i < 64 → s.flag F.pstb_overdrive_now i = true →
    ∃ v, exec (.overdriveEnd i t) s = .next v ∧ (∀ k < 2, v.flag (F.pstb_overdrive_now.at k) i = false) ∧ (v.inp i).overTo = some v.full ∧
      v.tb.tick = max s.tb.tick t ∧
      ((∀ j, i / 8 * 8 ≤ j → j < i / 8 * 8 + 8 → j ≠ i → s.flag F.pstb_overdrive_now j = false) →
        v.pgroup (i / 8) = { opened := true, toFull := some (v.full + 80) }) ∧
      ((∃ j, i / 8 * 8 ≤ j ∧ j < i / 8 * 8 + 8 ∧ j ≠ i ∧ s.flag F.pstb_overdrive_now j = true) → v.pgroups = s.pgroups)) ∧
  (∀ (g e : Nat) (s : State), g < 8 → s.pgroup g = { opened := true, toFull := some e } →
    ∃ v, exec (.disturbedEnd g) s = .next v ∧ v.pgroup g = { opened := false, toFull := some e } ∧
      ∀ j, g * 8 ≤ j → j < g * 8 + 8 → ∀ k < 2, v.flag (F.pstb_disturbed_now.at k) j = false) ∧
  (∀ (ci e : Nat) (s : State), ci < 128 → (s.comp ci).openPulse = some e →
    ∃ v, exec (.totTimeout ci) s = .next v ∧ (v.comp ci).openPulse = none ∧
      (v.comp ci).held = (s.comp ci).held.map fun st => if st.edge = e then { st with pulse := .timedOut } else st) ∧
  (∀ (i : Nat) (a : IvEdge) (τ : Int) (s : State), i < 64 → (s.inp i).armed = some a → a.time = some τ →
    let limit := τ + s.getFor F.pin_ival_timeout i (precTime τ / 1024) * 1024
    let u := advanceFull s ((precTime limit + 1023) / 1024)
    let w := u.setInp i { s.inp i with armed := some { a with due := true } }
    let v := ivTimeout w i { a with due := true } τ false
    (v.inp i).armed = none ∧
    v.get (F.pstb_ival_timeouts.at (a.comp % 2)) (a.comp / 2) = plus s (F.pstb_ival_timeouts.at (a.comp % 2)) (a.comp / 2) 1 ∧
    (∀ c, u.boundChanAt a.comp (precTime τ / 1024) = some c → ∃ x, v = sendPrec x { chan := c, time := precTime τ, tot := 0, flags := a.flags, merged := a.merged, overRate := false, timeout := true, transitions := 0, src := 1024, frame := 0, mirage := 0, ref := 0 }) ∧
    ((s.inp i).wait = [] → exec (.intervalTimeout i) s = .next v) ∧
    ∀ e rest, (s.inp i).wait = e :: rest →
      (e.time = none → exec (.intervalTimeout i) s = .next w) ∧
      ∀ tb, e.time = some tb →
        (limit < tb → exec (.intervalTimeout i) s = .next (ivSettle (rest.length * 2 + 4) v i)) ∧
        (tb ≤ limit → e.ended = false → e.start = true → rest = [] →
          ∃ t, exec (.intervalTimeout i) s = .next t ∧ (t.inp i).armed = none ∧ (t.inp i).wait = [] ∧ t.ivals = s.ivals) ∧
        (tb ≤ limit → τ ≤ tb → e.ended = false → e.start = false →
          ∃ y, exec (.intervalTimeout i) s = .next (ivSettle (rest.length * 2 + 4) y i) ∧ (y.inp i).armed = none ∧ (y.inp i).wait = rest ∧
            ∀ c, a.out = false → e.out = false → u.boundChanAt a.comp (precTime τ / 1024) = some c →
              mget [] y.ivals c = mget [] s.ivals c ++ [{ stop := precTime tb, value := (tb - τ).toNat, flags := Nat.lor a.flags e.flags, merged := a.merged || e.merged, ends := [(a.comp, a.edge), (e.comp, e.edge)] }]))


/-! ### Calibration -/

namespace Sys2Proof.Claims

/-- The targets of an accepted calibration command that are powered: the scope is well formed, the partition may command every target, a single
interpolator it names is not RETIRED, and some target is powered (R129, R412). -/
def calTargets (s : State) (c : Cmd) (op : Nat) : List Nat :=
  let u := advanceTo s c.tick
  let w := c.par 0
  match scopeTargets (bits w 63 61) (bits w 57 48) with
  | none => []
  | some ts =>
    if accepts s c op 1 && !stray w [(63, 61), (57, 48)] && u.calOwns c.part ts &&
        !((bits w 63 61 = 0 || bits w 63 61 = 6) && ts.all u.interpGone) then
      ts.filter fun n => u.domOn (interpDomain n)
    else []

end Sys2Proof.Claims

/-- An edge of the internal source on a powered, idle interpolator in TRACK, in BUILD with no table waiting, or in ASIDE not abandoned, to which the source is offered, is a sample, and one whose conversion fails its check raises the interpolator's fault instead. A lane interpolator's sample joins the set in progress at once, while that is not complete. A precision interpolator's waits for the end of its over-rate window; those whose window has ended without over rate join the set, as far as it takes them, and those of an over-rate window are dropped, as are live ones while they are held off. A complete set whose live part is correlated loses that part (its internal part stays: the model's choice, log 34), and live samples of the pool are held off for eight sets, those that wait among them. Of the others: in TRACK one that passes every check becomes the waiting table for the next boundary and is counted, with result 1; in BUILD the first is kept and a second that agrees with it waits for its boundary. One that fails a check gives that result, is counted and changes no table: in TRACK, below the limit of rejections, the interpolator stays, and in BUILD it enters LOCK. Where a correction is needed and allowed, one in TRACK goes ASIDE with the choice of R120, counted, or to LOCK where there is none. At its boundary a table that is not held comes into force; BUILD ends in TRACK, and ASIDE does with a table built in it, where no correction is needed. -/
def Obligations.SamplesSetsTables : Prop :=
  (∀ (n code : Nat) (s : State), n < 1536 → s.domOn (interpDomain n) = true → s.interpIdle n = true → s.sourceUsed n = true →
    s.get F.cala_state n = 3 ∨ (s.get F.cala_state n = 2 ∧ (s.interp n).waiting = none) ∨ (s.get F.cala_state n = 4 ∧ (s.interp n).abandonAt = none) →
    let x := s.interp n
    (512 ≤ n → x.n < s.setSize n → x.need = none → ∃ t, exec (.randomSourceSample n code true) s = .next t ∧ (t.interp n).n = x.n + 1 ∧
      mget 0 (t.interp n).hist (code % 1024) = mget 0 x.hist (code % 1024) + 1 ∧ (t.interp n).liveN = x.liveN ∧ t = { s with interps := t.interps }) ∧
    (n < 512 → x.need = none → ∃ t, exec (.randomSourceSample n code true) s = .next t ∧ t = { s with interps := t.interps } ∧
      (t.interp n).pend = (x.pend.filter fun p => decide (s.full < (p.full / 256 + 1) * 256)) ++ [{ full := s.full, code := code % 1024, live := false }] ∧
      (t.interp n).n = max x.n (min (s.setSize n) (x.n + x.pend.countP fun p => decide ((p.full / 256 + 1) * 256 ≤ s.full) &&
        !(mget { count := 0, overRate := false } (s.comp (n / 4)).windows (p.full / 256)).overRate && !(p.live && decide (x.holdSets ≠ 0))))) ∧
    exec (.randomSourceSample n code false) s = .next (raise s (interpSource n) 0x02 0 false)) ∧
  (∀ (n : Nat) (m : SetMeasure) (s : State), n < 1536 →
    let u := if isLaneInterp n then s else flushSamples s n
    let st := s.get F.cala_state n
    let x := u.interp n
    let d := u.poolOffset n m.meanDelay
    let table : BinTable := { entries := tableEntries x.hist x.n d, hist := x.hist, n := x.n, d := d, held := false, full := 0, atTick := 0 }
    let against := if st = 3 then x.inForce.map (·, 5) else x.first.map (·, 6)
    let code := plausible table m x.setStep against
    let correct := u.needsCorrection x.hist x.n m
    let waits := fun (t : State) => (t.interp n).n = 0 ∧ t.get F.cala_last_result n = 1 ∧
      t.get F.calb_sets_accepted n = plus u F.calb_sets_accepted n 1 ∧
      ∃ y, (t.interp n).waiting = some y ∧ y.entries = table.entries ∧ y.full = nextBoundary s.full ∧ (y.held = true ↔ st = 3 ∧ s.flag F.cala_locked n = true)
    let refused := fun (t : State) => (t.interp n).n = 0 ∧ (t.interp n).inForce = x.inForce ∧ t.get F.cala_last_result n = code ∧
      t.get F.calb_sets_rejected n = plus u F.calb_sets_rejected n 1
    0 < x.n → u.setSize n ≤ x.n → st = 2 ∨ st = 3 ∨ st = 4 →
    (u.correlated n = true → ∃ t, exec (.sampleSetComplete n m) s = .next t ∧ (t.interp n).liveN = 0 ∧ (t.interp n).n = x.n - x.liveN ∧
      ∀ k ∈ n :: poolMates n, (t.interp k).holdSets = 8 ∧ (∀ p ∈ (t.interp k).pend, p.live = false) ∧ t.flag F.cala_live_rejected k = true) ∧
    (u.correlated n = false → st = 3 → code = 1 → correct = false → ∃ t, exec (.sampleSetComplete n m) s = .next t ∧ waits t ∧ t.get F.cala_state n = 3) ∧
    (u.correlated n = false → st = 3 → code ≠ 1 → correct = false → x.rejRun + 1 < s.get F.calg_reject_limit 0 →
      ∃ t, exec (.sampleSetComplete n m) s = .next t ∧ refused t ∧ (t.interp n).waiting = x.waiting ∧ t.get F.cala_state n = 3) ∧
    (u.correlated n = false → st = 3 → code = 1 → correct = true → s.flag F.cala_locked n = false → u.asideAllowed n = true →
      ∃ t, exec (.sampleSetComplete n m) s = .next t ∧ t.get F.calb_aside_count n = plus u F.calb_aside_count n 1 ∧
        (∀ sel, u.correction n m = some sel → t.get F.cala_state n = 4 ∧ (t.interp n).sel = sel ∧ (t.interp n).prevSel = some x.sel ∧ waits t) ∧
        (u.correction n m = none → t.get F.cala_state n = 1)) ∧
    (u.correlated n = false → st = 2 → code = 1 → x.first = none →
      ∃ t y, exec (.sampleSetComplete n m) s = .next t ∧ (t.interp n).n = 0 ∧ (t.interp n).first = some y ∧ y.entries = table.entries ∧
        (t.interp n).waiting = x.waiting ∧ t.get F.cala_state n = 2) ∧
    (u.correlated n = false → st = 2 → code = 1 → x.first ≠ none → ∃ t, exec (.sampleSetComplete n m) s = .next t ∧ waits t ∧ t.get F.cala_state n = 2) ∧
    (u.correlated n = false → st = 2 → code ≠ 1 → ∃ t, exec (.sampleSetComplete n m) s = .next t ∧ refused t ∧ t.get F.cala_state n = 1 ∧
      (t.interp n).lockAt = some s.tb.tick)) ∧
  (∀ (n : Nat) (y : BinTable) (s : State), n < 1536 → (s.interp n).waiting = some y → y.held = false →
    ∃ t, exec (.tableInstall n) s = .next t ∧ (t.interp n).waiting = none ∧ (t.interp n).inForce = some { y with atTick := t.tb.tick } ∧
      ((s.interp n).need = none → t.get F.cala_state n = (if s.get F.cala_state n = 2 ∨ (s.get F.cala_state n = 4 ∧ y.aside = true) then 3 else s.get F.cala_state n)) ∧
      (s.get F.cala_state n = 3 → (t.interp n).prior = (s.interp n).inForce))

/-- A loop that settles within 1.0 ms of its entry into LOCK, with the span of its active taps within 0.5 ps of one tick and all 40 taps measured, takes its interpolator to BUILD, with the bias, the widths, the stages and the DAC codes set there; one that does not enters LOCK anew, counted, with the fault of R122. In ASIDE, a live rate that reaches aside_rate abandons the correction and brings back the previous choice, and 100 ns later the interpolator, where no further correction is needed, is in TRACK. A SWEEP without every result after 10 s is answered ST_TIMEOUT and is in progress no longer. -/
def Obligations.LockAsideSweepTimeout : Prop :=
  (∀ (n t0 : Nat) (m : LockMeasure) (s : State), n < 1536 → (s.interp n).lockAt = some t0 → s.get F.cala_state n = 1 → s.tb.tick ≤ t0 + 1600000 →
    let taps := (s.interp n).sel.taps
    m.widths.length = 40 → (((sumOver (fun i => m.widths.getD i 0) taps : Nat) : Int) - 62500).natAbs ≤ 50 →
    ∃ t, exec (.lockSettled n m) s = .next t ∧ t.get F.cala_state n = 2 ∧ (t.interp n).lockAt = none ∧ (t.interp n).bias = m.bias ∧
      (t.interp n).widths = m.widths ∧ (t.interp n).lockDacs = m.dacs ∧
      (t.interp n).sel = { taps := taps, slowStage := m.slowStage, fastStage := m.fastStage, dacs := m.dacs } ∧
      t.get F.calb_spares_used n = (taps.countP fun i => decide (32 ≤ i)) % 16 ∧ t.get F.calb_slow_stage n = m.slowStage % 4 ∧
      t.get F.calb_fast_stage n = m.fastStage % 4 ∧ t.flag F.cala_dac_used n = false) ∧
  (∀ (n t0 : Nat) (s : State), n < 1536 → (s.interp n).lockAt = some t0 → s.get F.cala_state n = 1 →
    ∃ t, exec (.lockTimeout n) s = .next t ∧ t.get F.cala_state n = 1 ∧ t.tb.tick = max s.tb.tick (t0 + 1600000) ∧ (t.interp n).lockAt = some t.tb.tick ∧
      t.get F.calb_lock_count n = plus s F.calb_lock_count n 1 ∧
      (s.srcOff (interpSource n) = false → t.flt.inflight = s.flt.inflight ++ [{ source := interpSource n, cause := 0x0C, sub := 0, injected := false }])) ∧
  (∀ (n : Nat) (s : State), n < 512 → s.get F.cala_state n = 4 → (s.interp n).abandonAt = none → s.get F.calg_aside_rate 0 * 1000 ≤ s.liveEdges (n / 4) →
    ∃ t, exec (.asideAbandon n) s = .next t ∧ (t.interp n).abandonAt = some s.tb.tick ∧ (t.interp n).sel = (s.interp n).prevSel.getD (s.interp n).sel ∧
      (t.interp n).n = 0 ∧ (t.interp n).waiting = ((s.interp n).waiting.filter fun y => !y.aside) ∧ (t.interp n).inForce = (s.interp n).inForce ∧ t.get F.cala_state n = 4) ∧
  (∀ (n t0 : Nat) (s : State), n < 1536 → (s.interp n).abandonAt = some t0 → s.get F.cala_state n = 4 →
    ∃ t, exec (.asideReturn n) s = .next t ∧ ((s.interp n).need = none → t.get F.cala_state n = 3) ∧ (t.interp n).abandonAt = none ∧
      (t.interp n).inForce = (s.interp n).inForce ∧ t.tb.tick = max s.tb.tick (t0 + 160)) ∧
  (∀ (p : Nat) (o : CalOp) (s : State), (s.calOps.find? fun o => o.cmd.part = p && !o.recover) = some o →
    let u := advanceTo s o.deadline
    exec (.calSweepTimeout p) s = .next (finish { u with calOps := s.calOps.filter (· ≠ o) } o.cmd 0x28 stTimeout 0 []))

/-- An accepted CAL_START SWEEP keeps its channel busy, with every powered target awaited for at most 10 s, and its set in progress and the samples waiting for it gone (the first set of a confirmation stays); RECOVER sends every powered target that is not RETIRED to LOCK. CAL_STATUS answers the two status words of each interpolator asked for. CAL_LOCK holds every powered target, its release lets them go with their waiting tables no longer held, CALSET.locked of a pool shows whether any of its four is held, and neither changes a table in force. CAL_TABLE_READ answers the 258 words of the table asked for, entry c in its place, or ST_NO_RESOURCE where there is none. That only the powered targets of a scope are acted on, and ST_NO_RESOURCE for want of a table in force, are the model's choices (log 34). -/
def Obligations.CalibrationCommands : Prop :=
  (∀ (c : Cmd) (s : State), calTargets s c 0x28 ≠ [] →
    let u := advanceTo s c.tick
    let ts := calTargets s c 0x28
    (∃ v, pends (.calStartSweep c) s c 0x28 v ∧ v.calOps = u.calOps ++ [{ cmd := c, recover := false, targets := ts, bad := 0, deadline := u.tb.tick + 16000000000 }] ∧
      (∀ n ∈ ts, (v.interp n).n = 0 ∧ (v.interp n).pend = [] ∧ (v.interp n).first = (u.interp n).first ∧ (v.interp n).inForce = (u.interp n).inForce) ∧ v = { u with interps := v.interps, calOps := v.calOps }) ∧
    (∃ t, exec (.calStartRecover c) s = .next t ∧ ∀ n ∈ ts, u.interpGone n = false → t.get F.cala_state n = 1)) ∧
  (∀ (c : Cmd) (ts : List Nat) (s : State),
    let u := advanceTo s c.tick
    let w := c.par 0
    accepts s c 0x29 1 = true → scopeTargets (bits w 63 61) (bits w 57 48) = some ts → stray w [(63, 61), (57, 48), (31, 21), (7, 0)] = false →
      0 < bits w 7 0 → bits w 7 0 ≤ 127 → bits w 31 21 + bits w 7 0 ≤ ts.length →
      ∃ ws, ends (.calStatus c) s c 0x29 u stOk 0 ws ∧ ws.length = 2 * bits w 7 0 ∧
        ∀ k n, k < bits w 7 0 → ts[bits w 31 21 + k]? = some n → ∃ a, ws[2 * k]? = some a ∧ ws[2 * k + 1]? = some (u.word 0x21 1 n) ∧
          bits a 63 61 = bits (u.word 0x21 0 n) 63 61 ∧ bits a 52 25 = bits (u.word 0x21 0 n) 52 25 ∧ bits a 8 0 = bits (u.word 0x21 0 n) 8 0) ∧
  (∀ (c : Cmd) (s : State), calTargets s c 0x2A ≠ [] →
    let u := advanceTo s c.tick
    (∃ v, ends (.calLock c) s c 0x2A v stOk 0 [] ∧ (∀ n ∈ calTargets s c 0x2A, v.flag F.cala_locked n = true ∧ (v.interp n).inForce = (u.interp n).inForce ∧
        (∀ y, (v.interp n).waiting = some y → v.get F.cala_state n = 3 → y.held = true) ∧
        (n < 512 → v.flag F.calc_locked (n / 4) = true)) ∧ v = { u with regs := v.regs, interps := v.interps }) ∧
    (∃ v, ends (.calLockRelease c) s c 0x2A v stOk 0 [] ∧ (∀ n ∈ calTargets s c 0x2A, v.flag F.cala_locked n = false ∧
        (v.interp n).inForce = (u.interp n).inForce ∧ ((u.interp n).waiting = none → (v.interp n).waiting = none) ∧
        (∀ y, (v.interp n).waiting = some y → y.held = false) ∧
        (n < 512 → v.flag F.calc_locked (n / 4) = (upTo (n / 4 * 4) 4).any fun k => v.flag F.cala_locked k)) ∧
        ((∀ n ∈ calTargets s c 0x2A, (u.interp n).need = none) → v = { u with regs := v.regs, interps := v.interps }))) ∧
  (∀ (c : Cmd) (n : Nat) (s : State), calTargets s c 0x2B = [n] → bits (c.par 0) 63 61 = 0 ∨ bits (c.par 0) 63 61 = 6 →
    let u := advanceTo s c.tick
    let shows := fun (y : BinTable) (coarse : Nat) (ws : List Word) =>
      ws.length = 258 ∧ (∃ w, ws[0]? = some w ∧ bits w 63 63 = bits (c.par 0) 62 62 ∧ bits w 62 53 = bits (c.par 0) 57 48 ∧
        bits w 52 50 = u.get F.cala_state n ∧ bits w 49 0 = 0) ∧ ws[1]? = some (BitVec.ofNat 64 (coarse % 2 ^ 54)) ∧
      ∀ k e, y.entries[k]? = some e → ∃ w, ws[2 + k / 4]? = some w ∧ bits w (16 * (k % 4) + 15) (16 * (k % 4)) = e % 65536
    (∀ y, (u.interp n).inForce = some y → y.entries.length = 1024 → ∃ ws, ends (.calTableReadInForce c) s c 0x2B u stOk 0 ws ∧ shows y y.full ws) ∧
    (∀ y, (u.interp n).waiting = some y → y.entries.length = 1024 → ∃ ws, ends (.calTableReadWaiting c) s c 0x2B u stOk 0 ws ∧ shows y 0 ws) ∧
    ((u.interp n).inForce = none → exec (.calTableReadInForce c) s = .next (finish u c 0x2B stNoResource 0 [])) ∧
    ((u.interp n).waiting = none → exec (.calTableReadWaiting c) s = .next (finish u c 0x2B stNoResource 0 [])))


/-! ### Lanes -/

namespace Sys2Proof.Claims

/-- A lane command may act on lane `l`: a plain parameter that names it, a partition that may command it, and not retired (R168). -/
def laneOk (u : State) (c : Cmd) (l : Nat) : Bool :=
  decide (c.par 0 = BitVec.ofNat 64 l) && decide (l < 1024) && (c.part = 0 || (!u.hostOf l && u.ownerOf (u.groupOf l) = c.part)) &&
    decide (u.laneState l ≠ 10)

/-- The lane stands in the span of its group, and no other lane of the span trains, aligns, is UP, waits or has completed its exchange. -/
def aloneInSpan (u : State) (l : Nat) : Prop :=
  l ∈ u.span (u.groupOf l) ∧ ∀ m ∈ u.span (u.groupOf l), m ≠ l → (u.laneState m < 3 ∨ 7 < u.laneState m) ∧ (u.lane m).capDone = false

/-- What has left the package, less the fillers that R139 puts among it. -/
def noFill (os : List Out) : List Out := os.filter fun o => match o with
  | .block _ type _ => type != 0x1E
  | _ => true

/-- The filler that lane `l` sends with `n` further blocks, where 1,024 blocks would leave without one (R139). -/
def fillerDue (s : State) (l n : Nat) : List Out := if 1024 ≤ (s.lane l).sent + n then [.block l 0x1E 0] else []

/-- The capability block that lane `l` sends while its transmitter is driven (R146, R456). -/
def capSent (s : State) (l : Nat) (ack : Bool) : List Out := if s.drives then [.capability l (ownCap l ack)] else []

/-- The group has no link request outstanding or waiting. -/
def noRequest (u : State) (g : Nat) : Bool := (u.group g).req.isNone && (u.group g).waitReq.isEmpty

end Sys2Proof.Claims

/-- Accepted for a lane that its partition may command: LANE_UP sets en on the whole span and takes its lanes in DOWN or FAULTY that may leave it to DETECT; LANE_DOWN clears en on the span and takes every lane of it but those in TEST or RETIRED to DOWN; LANE_RETRAIN of a group that is UP with no request outstanding sends a retrain request on the first lane of the run that is not retired, and of a group that is not UP is answered ST_LINK_DOWN. LANE_GROUP CONFIG over lanes in DOWN or RETIRED of one role makes the new span one group of the given width, whose isolation its lanes show, and lanes of the cut groups outside it groups of width 1. LANE_GROUP WIDTH sets the width limit; an UP group for which the limit gives another run asks for it, and one for which it gives none goes to CAP_EXCH. Each is answered ST_OK; LANE_DOWN and LANE_RETRAIN reply first when they came on a lane of the same group that is UP, behind the replies that wait there. LANE_UP, LANE_DOWN and LANE_RETRAIN of a lane whose domain is off are answered ST_NO_RESOURCE. That a WIDTH for which there is no run sends the group to CAP_EXCH is the model's choice (log 19). -/
def Obligations.LaneCommands : Prop :=
  ∀ (c : Cmd) (l : Nat) (s : State),
    let u := advanceTo s c.tick
    let g := u.groupOf l
    (accepts s c 0x30 1 = true → laneOk u c l = true →
      (u.domOn (laneDomain l) = true →
        ∃ v, ends (.laneUp c) s c 0x30 v stOk 0 [] ∧
          v = { u with regs := v.regs, lanes := v.lanes, cmd := { u.cmd with staged := v.cmd.staged, written := v.cmd.written, gone := v.cmd.gone, cinches := v.cmd.cinches } } ∧
          sameWords u v ((u.span g).map (wkey 1 0) ++ (u.span g).map (wkey 1 1)) ∧
          ∀ m ∈ u.span g, v.flag F.lane_en m = true ∧
            v.laneState m = (if (u.laneState m = 0 ∨ u.laneState m = 9) ∧ u.domOn (laneDomain m) = true ∧ mget 0 u.lref (m / 256) = 0 then 1
              else u.laneState m)) ∧
      (u.domOn (laneDomain l) = false → exec (.laneUp c) s = .next (finish u c 0x30 stNoResource 0 []))) ∧
    (accepts s c 0x31 1 = true → laneOk u c l = true → u.domOn (laneDomain l) = false → exec (.laneDown c) s = .next (finish u c 0x31 stNoResource 0 [])) ∧
    (accepts s c 0x31 1 = true → laneOk u c l = true → u.domOn (laneDomain l) = true →
      ∃ t, exec (.laneDown c) s = .next t ∧
        (∀ m ∈ u.span g, t.flag F.lane_en m = false ∧ t.laneState m = (if u.laneState m = 8 ∨ u.laneState m = 10 then u.laneState m else 0)) ∧
        ((∀ k, c.lane = some k → u.groupOf k ≠ g) → ∃ v, ends (.laneDown c) s c 0x31 v stOk 0 []) ∧
        (∀ k, c.lane = some k → u.groupOf k = g → u.laneUp k = true → ∃ w fin place, .hostFrame k w [replyHeader 0x31 c.part c.tag 0 stOk 0 0] fin place ∈ t.out)) ∧
    (accepts s c 0x32 1 = true → laneOk u c l = true → u.domOn (laneDomain l) = false → exec (.laneRetrain c) s = .next (finish u c 0x32 stNoResource 0 [])) ∧
    (accepts s c 0x32 1 = true → laneOk u c l = true → u.domOn (laneDomain l) = true →
      (u.groupUp g = false → exec (.laneRetrain c) s = .next (finish u c 0x32 stLinkDown 0 [])) ∧
      (u.groupUp g = true → noRequest u g = true → u.laneState (u.linkLane g) ≠ 10 →
        ∃ t pre, exec (.laneRetrain c) s = .next t ∧ sameWords u t [wkey 12 3 c.part] ∧
          noFill t.out = noFill u.out ++ pre ++ [.block (u.linkLane g) 0x69 ((u.group g).nextRn * 2 ^ 48 + 2 ^ 46)] ∧
          (t.group g).req = some { rn := (u.group g).nextRn, kind := 1, width := 0, first := 0, deadline := u.tb.tick + 16000000, crossed := false } ∧
          ((∀ k, c.lane = some k → u.groupOf k ≠ g) → pre = [] ∧ ∃ v, ends (.laneRetrain c) s c 0x32 v stOk 0 []) ∧
          (∀ k, c.lane = some k → u.groupOf k = g → (u.laneUp k = false → pre = []) ∧
            (u.laneUp k = true → ∃ w fin place waited, pre = waited ++ [.hostFrame k w [replyHeader 0x32 c.part c.tag 0 stOk 0 0] fin place] ∧
              ((u.hlane k).replies = [] → waited = []))))) ∧
    (∀ f code : Nat, f + 2 ^ code ≤ 1024 → code < 4 → f % 2 ^ code = 0 → c.par 0 = BitVec.ofNat 64 (code * 1024 + f) →
      accepts0 s c 0x33 1 = true →
      (∀ m ∈ upTo f (2 ^ code), u.host m = u.host f ∧ ∀ k ∈ m :: u.span (u.groupOf m), u.laneState k = 0 ∨ u.laneState k = 10) →
        ∃ v, ends (.laneGroupConfig c) s c 0x33 v stOk 0 [] ∧ v = { u with regs := v.regs, txns := v.txns, groups := v.groups } ∧
          (∀ m ∈ upTo f (2 ^ code), v.groupOf m = f ∧ v.flag F.ltsb_isolated m = (u.group f).isolated ∧ (u.get F.grp_member f = 0 → v.groupOwner f = u.groupOwner f)) ∧
          v.groupWidth f = 2 ^ code ∧ v.get F.grp_width_lim f = code ∧
          ∀ m ∈ upTo f (2 ^ code), ∀ k ∈ u.span (u.groupOf m), k ∉ upTo f (2 ^ code) → v.groupOf k = k ∧ v.groupWidth k = 1) ∧
    (∀ code : Nat, code < 4 → l < 1024 → c.par 0 = BitVec.ofNat 64 (code * 1024 + l) → accepts0 s c 0x33 1 = true → u.laneState l ≠ 10 →
      let w := u.put F.grp_width_lim g code
      (u.get F.grp_width_cfg g < code → exec (.laneGroupWidth c) s = .next (finish u c 0x33 stBadParam 1 [])) ∧
      (code ≤ u.get F.grp_width_cfg g → (u.groupUp g = false ∨ ∃ r, w.chooseRun g (w.widthLanes g) = some r ∧ upTo r.1 (2 ^ r.2) = u.runLanes g) →
        ends (.laneGroupWidth c) s c 0x33 w stOk 0 []) ∧
      (code ≤ u.get F.grp_width_cfg g → u.groupUp g = true → w.chooseRun g (w.widthLanes g) = none →
        ∃ v, ends (.laneGroupWidth c) s c 0x33 v stOk 0 [] ∧ v.groupUp g = false ∧ v.get F.grp_width_lim g = code ∧
          ∀ m ∈ u.span g, 3 ≤ u.laneState m → u.laneState m ≤ 7 → v.laneState m = 2) ∧
      (code ≤ u.get F.grp_width_cfg g → u.groupUp g = true → noRequest u g = true → u.laneState (u.linkLane g) ≠ 10 →
        ∀ r, w.chooseRun g (w.widthLanes g) = some r → upTo r.1 (2 ^ r.2) ≠ u.runLanes g →
          ∃ v, ends (.laneGroupWidth c) s c 0x33 v stOk 0 [] ∧ v.get F.grp_width_lim g = code ∧ noFill v.out = noFill u.out ++
            [.block (u.linkLane g) 0x69 ((u.group g).nextRn * 2 ^ 48 + 2 * 2 ^ 46 + r.2 * 2 ^ 44 + (r.1 - g) * 2 ^ 41)]))

/-- Accepted for a powered lane in DOWN, LANE_TEST start takes it to TEST with its status words cleared and, in once mode, one injection counted; in another state it is answered ST_BAD_PARAM. Stop takes a lane in TEST to DOWN, and read answers the two test status words; either first counts the bits compared since the checker locked or was last counted, and the errors among them, none in loopback. A checker locks on the bits that arrive, Gray-coded in pairs at PAM4 rates, where they seed it and the next 64 follow the pattern's recurrence, and in loopback where the generator sends that pattern. One that loses lock counts the bits compared, the errors and the loss. A periodic injection comes once every 2^period_log2 bits and is counted, and in loopback a locked checker counts its inverted bits. Nothing else changes. Each form for a lane whose domain is off is answered ST_NO_RESOURCE. That stop outside TEST is answered ST_OK, that loopback loses nothing, and the bits of the PAM4 levels are the model's (log 19). -/
def Obligations.LaneTesting : Prop :=
  (∀ (c : Cmd) (l : Nat) (s : State),
    let u := advanceTo s c.tick
    accepts s c 0x34 1 = true → laneOk u c l = true →
      (u.domOn (laneDomain l) = true → u.laneState l = 0 →
        ∃ v, ends (.laneTestStart c) s c 0x34 v stOk 0 [] ∧ v = { u with regs := v.regs, lanes := v.lanes } ∧
          sameWords u v [wkey 1 1 l, wkey 1 5 l, wkey 1 6 l] ∧ v.laneState l = 8 ∧ v.word 1 5 l = 0#64 ∧ v.get F.ltb_bits_checked l = 0 ∧
          v.get F.ltb_injections l = (if u.get F.ltest_inject l = 1 ∨ u.get F.ltest_inject l = 3 then 1 else 0)) ∧
      (u.domOn (laneDomain l) = true → u.laneState l ≠ 0 → exec (.laneTestStart c) s = .next (finish u c 0x34 stBadParam 1 [])) ∧
      (u.domOn (laneDomain l) = false → ∀ i ∈ ([.laneTestStart c, .laneTestStop c, .laneTestRead c] : List Instr), exec i s = .next (finish u c 0x34 stNoResource 0 [])) ∧
      (u.domOn (laneDomain l) = true → let runs := u.laneState l = 8 ∧ u.flag F.lta_locked l = true
       let counted := fun (v : State) => v = { u with regs := v.regs, lanes := v.lanes, freeCount := v.freeCount } ∧
         sameWords u v [wkey 1 1 l, wkey 1 5 l, wkey 1 6 l] ∧ (¬ runs → v.get F.ltb_bits_checked l = u.get F.ltb_bits_checked l ∧ v.get F.lta_bit_errors l = u.get F.lta_bit_errors l) ∧
         (runs → v.get F.ltb_bits_checked l = plus u F.ltb_bits_checked l (u.bitsSinceLock l) ∧ v.bitsSinceLock l = 0 ∧
           ∃ e ≤ u.bitsSinceLock l, v.get F.lta_bit_errors l = plus u F.lta_bit_errors l e ∧ (u.flag F.ltest_loopback l = true → e = 0))
       (u.laneState l = 8 → ∃ v, ends (.laneTestStop c) s c 0x34 v stOk 0 [] ∧ counted v ∧ v.laneState l = 0 ∧ v.flag F.lta_locked l = false) ∧
       (u.laneState l ≠ 8 → ends (.laneTestStop c) s c 0x34 u stOk 0 []) ∧
       ∃ v, ends (.laneTestRead c) s c 0x34 v stOk 0 [v.word 1 5 l, v.word 1 6 l] ∧ counted v ∧ v.laneState l = u.laneState l)) ∧
  (∀ (l : Nat) (symbols : List Nat) (s : State), l < 1024 → s.laneState l = 8 → s.flag F.lta_locked l = false →
    let rx := s.get F.ltest_rx_pattern l
    let n := if rx = 1 then 7 else if rx = 2 then 13 else 31
    let delays := if rx = 1 then [6, 7] else if rx = 2 then [1, 2, 12, 13] else [28, 31]
    let bs := (symbols.flatMap (symbolBits (s.get F.ltest_test_rate l))).take (n + 64)
    rx ≠ 0 → bs.length = n + 64 → (∀ k < 64, bs.getD (n + k) false = delays.foldl (fun b d => xor b (bs.getD (n + k - d) false)) false) →
    (s.flag F.ltest_loopback l = true → s.get F.ltest_tx_pattern l = rx ∧ true ∈ bs) →
    ∃ t, exec (.checkerLock l symbols) s = .next t ∧ t.flag F.lta_locked l = true ∧ t.bitsSinceLock l = 0 ∧ sameWords s t [wkey 1 5 l] ∧
      t.get F.lta_bit_errors l = s.get F.lta_bit_errors l ∧ t = { s with regs := t.regs, lanes := t.lanes }) ∧
  (∀ (l n e : Nat) (s : State), l < 1024 → s.laneState l = 8 → s.flag F.lta_locked l = true →
    ∃ t, exec (.checkerLockLoss l n e) s = .next t ∧ t.flag F.lta_locked l = false ∧ onlyRegs s t ∧ sameWords s t [wkey 1 5 l, wkey 1 6 l] ∧
      t.get F.ltb_bits_checked l = plus s F.ltb_bits_checked l n ∧ t.get F.lta_bit_errors l = plus s F.lta_bit_errors l e ∧
      t.get F.lta_sync_losses l = plus s F.lta_sync_losses l 1) ∧
  (∀ (l : Nat) (s : State), l < 1024 → s.laneState l = 8 → s.get F.ltest_inject l = 2 ∨ s.get F.ltest_inject l = 4 →
    ∃ t, exec (.errorInjection l) s = .next t ∧ t = { advanceTo s (s.injectAt l) with regs := t.regs, lanes := t.lanes } ∧ sameWords s t [wkey 1 5 l, wkey 1 6 l] ∧
      (t.lane l).injected = (s.lane l).injected + 1 ∧
      (let f := bitsPerTick (s.get F.ltest_test_rate l)
       s.injectAt l = (s.lane l).testAt + (((s.lane l).injected + 1) * 2 ^ s.get F.ltest_period_log2 l * f.2 + f.1 - 1) / f.1) ∧
      t.get F.ltb_injections l = plus s F.ltb_injections l 1 ∧
      t.get F.lta_bit_errors l = (if s.flag F.ltest_loopback l = true ∧ s.flag F.lta_locked l = true then
        plus s F.lta_bit_errors l (if s.get F.ltest_inject l = 4 then s.get F.ltest_burst_len l else 1) else s.get F.lta_bit_errors l))

/-- The device's own capability block is valid, with every rate, FEC, width and format, its serial number, the lane's member and the acknowledgement asked for. A signal takes a lane from DETECT to CAP_EXCH, where it sends that block, if the transmitters are driven (when the blocks of CAP_EXCH leave is the model's choice, log 19). A lane of CAP_EXCH to RETRAIN that loses it goes back to DETECT; the sole lane of a group in UP takes the group out of UP with it. A valid block that is not the third is noted, and the lane sends its own, acknowledging from its third identical one on. That third one is judged: with a wrong role, no format of a partner, no common rate, or an offset beyond ppm_limit the lane is back in DETECT and the failure is counted; otherwise, once an acknowledgement has been seen, the exchange of a lane that is the only one of its span under way is complete, and the lane is in TRAIN at its highest common rate. When 100 ms pass without completion the lane is back in DETECT, counted. Loss of LREF takes every lane of the die to DOWN but those RETIRED; its return takes those in DOWN with en and power to DETECT. -/
def Obligations.LanesDetectAndExchange : Prop :=
  (∀ (l : Nat) (ack : Bool), l < 1024 → let w := ownCap l ack
    capValid w = true ∧ capRates w = 31 ∧ capFec w = 3 ∧ capWidths w = 15 ∧ capFormats w = 3 ∧ capRole w = 0 ∧ capPid w = Config.serial.toNat % 65536 ∧
      capMember w = l % 8 ∧ bit w 19 = ack) ∧
  (∀ (l : Nat) (s : State), l < 1024 → s.laneState l = 1 →
    ∃ t, exec (.signalDetect l) s = .next t ∧ t.laneState l = 2 ∧ t.get F.lsa_rate l = 7 ∧ t.capOf l = none ∧ sameWords s t [wkey 1 1 l] ∧
      t = { s with regs := t.regs, lanes := t.lanes, out := s.out ++ capSent s l false }) ∧
  (∀ (l : Nat) (s : State), l < 1024 →
    (2 ≤ s.laneState l → s.laneState l ≤ 7 → s.laneState l ≠ 5 → s.groupUp (s.groupOf l) = false → aloneInSpan s l →
      ∃ t, exec (.signalLoss l) s = .next t ∧ t.laneState l = 1 ∧ sameWords s t [wkey 1 1 l] ∧ t = { s with regs := t.regs, lanes := t.lanes }) ∧
    (s.laneState l = 5 → s.runLanes (s.groupOf l) = [l] → s.span (s.groupOf l) = [l] →
      ∃ t, exec (.signalLoss l) s = .next t ∧ t.laneState l = 1 ∧ t.groupUp (s.groupOf l) = false)) ∧
  (∀ (l : Nat) (w : Word) (ppm : Int) (s : State), l < 1024 → s.laneState l = 2 → capValid w = true →
    let x := s.lane l
    let sent := fun (ack : Bool) => s.out ++ capSent s l ack
    (x.capRun < 2 → x.cap = some w → ∃ t, exec (.capabilityBlockReceive l w ppm) s = .next t ∧ t = { s with lanes := t.lanes, out := sent false } ∧
      t.lane l = { x with capRun := x.capRun + 1, ackSeen := x.ackSeen || bit w 19 }) ∧
    (x.capRun < 3 → x.cap ≠ some w → ∃ t, exec (.capabilityBlockReceive l w ppm) s = .next t ∧ t = { s with lanes := t.lanes, out := sent false } ∧
      t.lane l = { x with cap := some w, capRun := 1, ackSeen := x.ackSeen || bit w 19 }) ∧
    (∀ y, 2 ≤ x.capRun → x.cap = some y → y = w ∨ 3 ≤ x.capRun →
      let right := capRole y = (if s.host l then 2 else 1)
      let bad := ¬ right ∨ (s.host l = false ∧ capFormats y = 0) ∨ commonRates y = [] ∨ 2 * s.get F.lane_ppm_limit l < ppm.natAbs
      (bad → aloneInSpan s l → ∃ t, exec (.capabilityBlockReceive l w ppm) s = .next t ∧ t.laneState l = 1 ∧ (t.flag F.lsa_role_mismatch l = true ↔ ¬ right) ∧
        t.get F.lsc_cap_fails l = plus s F.lsc_cap_fails l 1 ∧ sameWords s t [wkey 1 1 l, wkey 1 3 l] ∧ t.out = sent true) ∧
      (¬ bad → (x.ackSeen || bit w 19) = false → ∃ t, exec (.capabilityBlockReceive l w ppm) s = .next t ∧ t.laneState l = 2 ∧ (t.lane l).capRun = 3 ∧
        t.get F.lsa_partner_id l = capPid y ∧ t.flag F.lsa_role_mismatch l = false ∧ sameWords s t [wkey 1 1 l] ∧ t.out = sent true) ∧
      (∀ r rest, ¬ bad → x.ackSeen = true ∨ bit w 19 = true → commonRates y = r :: rest → capMember y = l - s.groupOf l → aloneInSpan s l →
        ∃ t, exec (.capabilityBlockReceive l w ppm) s = .next t ∧ t.laneState l = 3 ∧ t.get F.lsa_rate l = r ∧ (t.lane l).tryRate = r ∧ t.trains l = true ∧
          t.capOf l = some y ∧ t.get F.lsa_partner_id l = capPid y ∧ t.flag F.lsa_member_mismatch l = false ∧ sameWords s t [wkey 1 1 l] ∧ t.out = sent true))) ∧
  (∀ (l : Nat) (s : State), l < 1024 → s.laneState l = 2 →
    let u := advanceTo s ((s.lane l).enteredAt + 160000000)
    aloneInSpan u l → ∃ t, exec (.capExchTimeout l) s = .next t ∧ t.laneState l = 1 ∧ t.get F.lsc_cap_fails l = plus u F.lsc_cap_fails l 1 ∧
      sameWords u t [wkey 1 1 l, wkey 1 3 l] ∧ t.tb = u.tb) ∧
  (∀ (die : Nat) (s : State), die < 4 →
    ((∀ l ∈ upTo (256 * die) 256, l ∈ s.span (s.groupOf l)) →
      ∃ t, exec (.lrefLoss die) s = .next t ∧ mget 0 t.lref die = 1 ∧ (∀ l ∈ upTo (256 * die) 256, t.laneState l = (if s.laneState l = 10 then 10 else 0)) ∧
        (s.domOn (4 * die) = true → { source := dieSource (8 + die) 4, cause := 0x08, sub := 0, injected := false } ∈ t.flt.inflight)) ∧
    (∃ t, exec (.lrefPresent die) s = .next t ∧ t = { s with lref := t.lref, regs := t.regs, lanes := t.lanes } ∧ mget 0 t.lref die = 0 ∧
      sameWords s t ((upTo (256 * die) 256).map (wkey 1 1)) ∧
      ∀ l ∈ upTo (256 * die) 256, t.laneState l = (if s.laneState l = 0 ∧ s.flag F.lane_en l = true ∧ s.domOn (laneDomain l) = true then 1
        else s.laneState l)))

/-- A lane in training becomes ready when both receivers are; while another lane of its span has no result, its own result is noted and the group waits: fail when it is not ready within 500 ms, and by the PRBS31 counts against the limit of R134 when its windows end. For the only lane under way in its span: a pass takes it to ALIGN as a run of one at the rate tried, in that mode; a fail takes it on to the next lower common rate, or with none left to DETECT, counted. A marker in ALIGN gives a receiver without block lock that lock, with its buffer at half; the first is noted, and the second good one takes a run of one, which its width limit and the partner still allow, to UP. In UP a marker keeps the skew's maximum. One that does not complete its period is noted with it; one from a lane that the period already holds, or later than half a period after its first marker, begins the next. One that completes it ends the period, which agreed when every lane's marker had its member and one count, and the periods in a row that did not agree, those without a marker among them, are counted; the third of them, and a skew of more than 128 blocks, takes the run back to ALIGN, counted (that lock comes with the first marker or valid block, and that a period which misses markers is known by the next marker, are the model's choices, log 19). While the transmitters are driven, markers leave on every lane of a run in ALIGN or UP that is not retired, a filler before them where one is due, and an accepted width change takes the group to ALIGN with them. A lane not deskewed within 1 ms is in RETRAIN at the rate of its run, counted, or in CAP_EXCH where the rate cannot be tried. -/
def Obligations.TrainingAndAlignment : Prop :=
  (∀ (l : Nat) (s : State), l < 1024 → s.trains l = true → ∃ t, exec (.receiversReady l) s = .next t ∧ t.lane l = { s.lane l with ready := true } ∧
    t = { s with lanes := t.lanes }) ∧
  (∀ (l : Nat) (s : State), l < 1024 → s.trains l = true → (s.lane l).ready = false →
    let u := advanceTo s ((s.lane l).enteredAt + 800000000)
    let g := u.groupOf l
    ((∃ m ∈ u.span g, m ≠ l ∧ u.trains m = true) → ∃ t, exec (.trainingNotReady l) s = .next t ∧ t.lane l = { u.lane l with result := some false } ∧
      t = { u with lanes := t.lanes }) ∧
    (aloneInSpan u l → u.laneState l = 3 → u.memberOk g l (u.refPid g) = true → ∃ t, exec (.trainingNotReady l) s = .next t ∧
      (∀ r, ([4, 3, 2, 1, 0].find? fun r => decide (r < (u.lane l).tryRate) && (u.lane l).common.contains r) = some r →
        t.laneState l = 3 ∧ t.get F.lsa_rate l = r ∧ (t.lane l).tryRate = r ∧ t.trains l = true) ∧
      ((∀ r ∈ (u.lane l).common, 4 < r ∨ (u.lane l).tryRate ≤ r) → t.laneState l = 1 ∧ t.get F.lsc_train_fails l = plus u F.lsc_train_fails l 1))) ∧
  (∀ (l a b : Nat) (s : State), l < 1024 → s.trains l = true → (s.lane l).ready = true →
    let g := s.groupOf l
    let fec := s.fecFor (s.lanesIn g [3, 7]) (s.lane l).tryRate
    let limit := prbsLimit fec
    ((∃ m ∈ s.span g, m ≠ l ∧ s.trains m = true) → ∃ t, exec (.prbsWindowEnd l a b) s = .next t ∧ t = { s with lanes := t.lanes } ∧
      t.lane l = { s.lane l with result := some (decide (a ≤ limit ∧ b ≤ limit)) }) ∧
    (∀ w, aloneInSpan s l → a ≤ limit → b ≤ limit → s.capOf l = some w → Nat.testBit (capWidths w) 0 = true →
      ∃ t, exec (.prbsWindowEnd l a b) s = .next t ∧ t.laneState l = 4 ∧ t.get F.lsa_rate l = (s.lane l).tryRate % 8 ∧ t.get F.lsa_width l = 0 ∧
        (t.group g).nextRun = some (l, 0) ∧ (t.group g).passed = [l] ∧
        (t.group g).mode = { rate := (s.lane l).tryRate, fec := fec, code := 0, pid := some (capPid w) })) ∧
  (∀ (l member count skew at_ : Nat) (s : State), l < 1024 →
    let u := advanceTo s at_
    let g := u.groupOf l
    let x := u.lane l
    let p := (u.group g).period
    let run := u.runLanes g
    (∀ first code, u.laneState l = 4 → (u.group g).nextRun = some (first, code) → l ∈ upTo first (2 ^ code) → x.mkCount = none →
      ∃ t, exec (.alignmentMarkerReceive l member count skew at_) s = .next t ∧ t = { u with lanes := t.lanes } ∧ (t.lane l).mkCount = some count ∧
        (t.lane l).locked = true ∧ (x.locked = false → (t.lane l).fill = 64000000)) ∧
    (u.laneState l = 4 → (u.group g).nextRun = some (l, 0) → (u.group g).mode.code = 0 → l ∈ u.span g → member = 0 → skew ≤ 128 → 1 ≤ x.mkSeen →
      (∃ k, x.mkCount = some k ∧ (k + 1) % 65536 = count) →
      l ∈ (u.group g).passed → u.memberOk g l (u.group g).mode.pid = true → (∀ w, u.capOf l = some w → Nat.testBit (capWidths w) 0 = true) →
      ∃ t, exec (.alignmentMarkerReceive l member count skew at_) s = .next t ∧ t.laneState l = 5 ∧ t.runLanes g = [l] ∧ t.groupUp g = true ∧
        (t.group g).period = { marks := [], since := t.tb.tick, bad := 0 }) ∧
    (u.laneState l = 5 → l ∈ run →
      let ok := decide (member = l - run.headD 0)
      let shown := fun (t : State) => ∀ m ∈ u.span g, t.get F.grp_skew_max m = max (u.get F.grp_skew_max m) (min 255 (skewNs (u.group g).mode.rate skew))
      let len := markTicks (u.group g).mode.rate
      let back := ∃ t, exec (.alignmentMarkerReceive l member count skew at_) s = .next t ∧ t.groupUp g = false ∧
        (∀ m ∈ u.span g, t.get F.grp_align_losses m = plus u F.grp_align_losses m 1) ∧ ∀ m ∈ run, t.laneState m = 4
      let kept := fun (q : MarkPeriod) => ∃ t, exec (.alignmentMarkerReceive l member count skew at_) s = .next t ∧ shown t ∧ (t.group g).period = q ∧
        t = { u with regs := t.regs, lanes := t.lanes, groups := t.groups } ∧ t.groupUp g = true
      let stale := p.marks ≠ [] ∧ ((∃ m ∈ p.marks, m.1 = l) ∨ p.since + len / 2 < u.tb.tick)
      let opens := p.marks = [] ∨ stale
      let missed := if opens then (u.tb.tick - p.since + len / 2) / len - 1 else 0
      let bad := p.bad + (if stale then 1 else 0) + missed
      let marks := (if stale then [] else p.marks) ++ [(l, count, ok)]
      let whole := ∀ k ∈ run, ∃ m ∈ marks, m.1 = k
      let now := if whole then (if ∀ m ∈ marks, m.2.2 = true ∧ m.2.1 = count then 0 else bad + 1) else bad
      let stays := ∀ m ∈ run, m ∈ u.span g ∧ u.laneState m = 5
      (128 < skew → stays → back) ∧
      (skew ≤ 128 → 3 ≤ bad ∨ 3 ≤ now → stays → back) ∧
      (skew ≤ 128 → bad < 3 → now < 3 →
        kept { marks := if whole then [] else marks, since := if opens then u.tb.tick else p.since, bad := now }))) ∧
  (∀ (g first : Nat) (run : List Nat) (s : State), g < 1024 → s.drives = true →
    let x := s.group g
    let marks := (run.filter fun l => s.laneState l != 10).map fun l => Out.block l 0x0F ((l - first) * 2 ^ 53 + x.mkTx * 2 ^ 37)
    (s.groupUp g = true → run = s.runLanes g → x.nextRun = none → first = run.headD 0 → run ≠ [] →
      ∃ t, exec (.alignmentMarkerSend g) s = .next t ∧ t = { s with groups := t.groups, lanes := t.lanes, out := t.out } ∧
        noFill t.out = noFill s.out ++ marks ∧ (t.group g).mkTx = (x.mkTx + 1) % 65536 ∧
        (∀ l, run = [l] → s.laneState l ≠ 10 → t.out = s.out ++ fillerDue s l 1 ++ marks)) ∧
    (∀ code, s.groupUp g = false → x.nextRun = some (first, code) → s.laneState first = 4 → run = upTo first (2 ^ code) →
      ∃ t, exec (.alignmentMarkerSend g) s = .next t ∧ t = { s with groups := t.groups, lanes := t.lanes, out := t.out } ∧
        noFill t.out = noFill s.out ++ marks) ∧
    (∀ f code, s.groupUp g = true → run = s.runLanes g → x.nextRun = some (f, code) → first = run.headD 0 → run ≠ [] →
      ∃ t, exec (.alignmentMarkerSend g) s = .next t ∧ t.groupUp g = false ∧ (t.group g).nextRun = some (f, code) ∧
        ∀ m ∈ upTo f (2 ^ code), m ∈ s.span g → s.laneState m = 5 ∨ s.laneState m = 6 → t.laneState m = 4)) ∧
  (∀ (l : Nat) (s : State), l < 1024 → s.laneState l = 4 →
    let g := s.groupOf l
    let u := advanceTo s ((s.lane l).enteredAt + 1600000)
    let recent := (u.group g).retrains.filter fun t => decide (u.tb.tick < t + 1600000000)
    let rate := (u.group g).mode.rate
    let ok := u.memberOk g l (u.refPid g) && (u.lane l).common.contains rate
    aloneInSpan s l → u.groupUp g = false →
      ∃ t, exec (.alignTimeout g) s = .next t ∧ t.tb = u.tb ∧ t.get F.lsb_retrains l = plus u F.lsb_retrains l 1 ∧ (t.group g).retrains = recent ++ [u.tb.tick] ∧
        (ok = true → t.laneState l = 7 ∧ t.trains l = true ∧ (t.lane l).tryRate = rate) ∧ (ok = false → t.laneState l = 2))

/-- A block with the elastic buffer between its marks and no Awl count pending moves the buffer; a valid sync header gives a receiver without block lock that lock, with its buffer at half, and a receiver in lock keeps the last 64 headers. A block with an invalid header, or marked by an uncorrectable codeword, is not read, and as a part of a frame makes the frame invalid; a control block of a type that a partner may not send is a distrust event. With 32 of the last 64 headers invalid, block lock is lost and counted. A codeword without errors changes nothing; a corrected one is counted; an uncorrectable one is counted, marks the 80 blocks it carries, and is remembered for 1 ms, and while no more than uncorr_limit are remembered nothing else happens; a loss of codeword alignment is a loss of lock. While the transmitters are driven a partner's request with none outstanding is answered: a width change that may not be is refused and the group stays, one that may be is accepted and awaits the next markers, and a retrain is accepted and counted. One that crosses the device's own is answered seen and counted, and the third crossing in a row takes the span to FAULTY. The response that accepts or refuses a request ends it; a request without response takes the group's lanes from UP to CAP_EXCH. LANE_RETIRE takes a lane that is not the eighth host-facing one to RETIRED, and its retirement waits for the record; of a lane whose domain is off it is answered ST_NO_RESOURCE. That lock comes with the first valid block, which blocks an uncorrectable codeword marks (log 19), and that a reserved kind of request is refused (log 17), are the model's choices. -/
def Obligations.BlocksRequestsRetirement : Prop :=
  (∀ (l : Nat) (ok filler : Bool) (p : Option Word) (s : State), l < 1024 → 2 ≤ s.laneState l → s.laneState l ≤ 7 → mget 0 s.flt.awl l = 0 →
    let g := s.groupOf l
    let fill := (((s.lane l).fill : Int) + toSigned 10 (s.get F.lsa_ppm_offset l)).toNat
    let x := if ok = true ∧ (s.lane l).locked = false then { s.lane l with locked := true, headers := [], fill := 64000000 } else { s.lane l with fill := fill }
    let hs := if x.locked then (x.headers ++ [!ok]).drop (x.headers.length + 1 - 64) else []
    let unread := !ok || decide (0 < x.invalid)
    let frame := !filler && (match p with
      | none => true
      | some w => bits w 63 56 = 0x5A || bits w 63 56 = 0xA5)
    let known := ∀ w, p = some w → bits w 63 56 ∈ [0x0F, 0xC3, 0xC5, 0x5A, 0xA5, 0x69, 0x96, 0x1E]
    24 < held fill → held fill < 40 →
      (unread = true ∨ s.host l = true ∨ known →
        ((hs.filter id).length < 32 → ∃ t, exec (.blockReceive l ok filler p) s = .next t ∧ t = { s with lanes := t.lanes, groups := t.groups } ∧
          t.lane l = { x with headers := hs, invalid := x.invalid - 1 } ∧ t.group g = { s.group g with badBlock := (s.group g).badBlock || (unread && frame) }) ∧
        (32 ≤ (hs.filter id).length → ∃ t, exec (.blockReceive l ok filler p) s = .next t ∧
          t.get F.lsb_lock_losses l = plus s F.lsb_lock_losses l 1 ∧
          (s.laneState l ≠ 5 → t.lane l = { x with headers := [], locked := false, invalid := x.invalid - 1 } ∧ sameWords s t [wkey 1 2 l]))) ∧
      (unread = false → s.host l = false → ¬ known → (hs.filter id).length < 32 → ∃ t, exec (.blockReceive l ok filler p) s = .next t ∧
        (t.group g).distrust = s.distrustNow g + 1)) ∧
  (∀ (l e at_ : Nat) (s : State), l < 1024 →
    let u := advanceTo s at_
    let fec := u.get F.lsa_fec l
    let x := u.lane l
    let recent := (x.ucw.filter fun t => decide (u.tb.tick < t + 1600000)) ++ [u.tb.tick]
    fec ≠ 0 → (u.laneState l = 4 ∨ u.laneState l = 5 ∨ u.laneState l = 7) →
      (e = 0 → exec (.codewordDecode l e true at_) s = .next u) ∧
      (∃ t, exec (.codewordDecode l e false at_) s = .next t ∧ t.get F.lsb_lock_losses l = plus u F.lsb_lock_losses l 1) ∧
      (0 < e → e ≤ fecReach fec → ∃ t, exec (.codewordDecode l e true at_) s = .next t ∧ onlyRegs u t ∧ sameWords u t [wkey 1 1 l, wkey 1 2 l] ∧
        t.get F.lsb_fec_corrected l = plus u F.lsb_fec_corrected l 1 ∧ t.laneState l = u.laneState l) ∧
      (fecReach fec < e → (u.laneState l ≠ 5 ∨ recent.length ≤ u.get F.lane_uncorr_limit l) →
        ∃ t, exec (.codewordDecode l e true at_) s = .next t ∧ t = { u with regs := t.regs, lanes := t.lanes } ∧ sameWords u t [wkey 1 2 l] ∧
          t.get F.lsb_fec_uncorr l = plus u F.lsb_fec_uncorr l 1 ∧ t.lane l = { x with ucw := recent, invalid := x.invalid + 80 })) ∧
  (∀ (l : Nat) (w : Word) (s : State), l < 1024 → s.drives = true → l ∈ s.runLanes (s.groupOf l) → s.laneState l ≠ 10 →
    let g := s.groupOf l
    let x := s.group g
    let block := fun (answer : Nat) => Out.block (s.linkLane g) 0x96 (bits w 55 48 * 2 ^ 48 + answer * 2 ^ 46)
    let first := g + bits w 43 41
    let may := bits w 43 41 % 2 ^ bits w 45 44 = 0 ∧ bits w 43 41 + 2 ^ bits w 45 44 ≤ s.groupWidth g ∧ s.runOk g (s.widthLanes g) first (bits w 45 44) = true
    (x.req = none → bits w 47 46 ≠ 1 → (¬ may ∨ bits w 47 46 ≠ 2) →
      ∃ t, exec (.linkRequestReceive l w) s = .next t ∧ t = { s with lanes := t.lanes, out := t.out } ∧ noFill t.out = noFill s.out ++ [block 2]) ∧
    (x.req = none → bits w 47 46 = 2 → may →
      ∃ t, exec (.linkRequestReceive l w) s = .next t ∧ t = { s with lanes := t.lanes, groups := t.groups, out := t.out } ∧ noFill t.out = noFill s.out ++ [block 1] ∧
        (t.group g).nextRun = some (first, bits w 45 44)) ∧
    (x.req = none → bits w 47 46 = 1 → (s.recentRetrains g).length < s.get F.lane_retrain_limit g →
      ∃ t, exec (.linkRequestReceive l w) s = .next t ∧ t.groupUp g = false ∧ block 1 ∈ t.out ∧ (t.group g).retrains = s.recentRetrains g ++ [s.tb.tick] ∧
        ∀ m ∈ s.span g, 4 ≤ s.laneState m → s.laneState m ≤ 7 → t.get F.lsb_retrains m = plus s F.lsb_retrains m 1) ∧
    (∀ r, x.req = some r → r.crossed = false → (x.crossedRun < 2 → ∃ t, exec (.linkRequestReceive l w) s = .next t ∧
        t = { s with regs := t.regs, groups := t.groups, lanes := t.lanes, out := t.out } ∧ noFill t.out = noFill s.out ++ [block 3] ∧
        t.get F.lsc_crossings l = plus s F.lsc_crossings l 1 ∧ (t.group g).crossedRun = x.crossedRun + 1 ∧ (t.group g).req = some { r with crossed := true } ∧
        ∀ m ∈ s.span g, t.get F.lsa_crossed_run m = x.crossedRun + 1) ∧
      (2 ≤ x.crossedRun → ∃ t, exec (.linkRequestReceive l w) s = .next t ∧ ∀ m ∈ s.span g, 2 ≤ s.laneState m → s.laneState m ≤ 7 → t.laneState m = 9)) ∧
    (∀ r, x.req = some r → r.rn = bits w 55 48 → bits w 47 46 = 2 → x.waitReq = [] → ∃ t, exec (.linkResponseReceive l w) s = .next t ∧
      (t.group g).req = none ∧ (t.group g).nextRun = x.nextRun ∧ (r.crossed = false → (t.group g).crossedRun = 0) ∧
      sameWords s t ((s.span g).map (wkey 1 1)) ∧ t = { s with regs := t.regs, groups := t.groups }) ∧
    (∀ r, x.req = some r → r.rn = bits w 55 48 → bits w 47 46 = 1 → r.kind = 2 → x.waitReq = [] → ∃ t, exec (.linkResponseReceive l w) s = .next t ∧
      (t.group g).req = none ∧ (t.group g).nextRun = some (g + r.first, r.width))) ∧
  (∀ (g : Nat) (r : LinkReq) (s : State), (s.group g).req = some r → g < 1024 →
    let u := advanceTo s r.deadline
    u.groupUp g = true → ∃ t, exec (.linkRequestTimeout g) s = .next t ∧ t.groupUp g = false ∧ (t.group g).req = none ∧
      ∀ m ∈ u.span g, 3 ≤ u.laneState m → u.laneState m ≤ 7 → t.laneState m = 2) ∧
  (∀ (c : Cmd) (l : Nat) (s : State),
    let u := advanceTo s c.tick
    (accepts0 s c 0x35 1 = true → laneOk u c l = true → u.domOn (laneDomain l) = false → exec (.laneRetire c) s = .next (finish u c 0x35 stNoResource 0 [])) ∧
    (accepts0 s c 0x35 1 = true → laneOk u c l = true → u.domOn (laneDomain l) = true → l ∈ u.span (u.groupOf l) → u.groupUp (u.groupOf l) = false →
      (u.host l = true → u.hostLanes ≤ 8 → exec (.laneRetire c) s = .next (finish u c 0x35 stBadParam 1 [])) ∧
      ((u.host l = true → 8 < u.hostLanes) →
        ∃ v, ends (.laneRetire c) s c 0x35 v stOk 0 [] ∧ v.laneState l = 10 ∧ v.flag F.fsa_retired l = true ∧ (v.lane l).retired = true ∧
          retireEntry l 0 0 ∈ v.flt.toRecord)))


/-! ### Partner time and partner transactions -/

namespace Sys2Proof.Claims

/-- The stamp a lane's interpolator gives an event at an edge time since reset, with raw code `code`, no Awl count pending on its table, by its
die's own count: coarse at the middle of its tick where it is out of service, still busy or without a table, or where the check fails, and otherwise with
the table's entry for the code (R75 to R77, R100 to R102, R116). -/
def stampOf (s : State) (l edge code : Nat) (ok : Bool) : Option (Nat × Bool) :=
  let u := advanceTo s (edge / 102400)
  let n := 512 + l
  let full := u.laneFull l
  if mget 0 u.flt.awl (interpSource n) ≠ 0 then none
  else if u.get F.cala_state n ≠ 3 ∨ edge < (u.model l).busyUntil ∨ ok = false then some (full * 1024 + 512, true)
  else match (u.interp n).tableFor full with
    | none => some (full * 1024 + 512, true)
    | some tab => some (ofSigned 80 (roundHalfUp ((full : Int) * 16384 + tab.entries.getD (code % 1024) 0) 16), false)

/-- The word of a transaction request (R193). -/
def requestWord (tag op len addr : Nat) : Word := pack [(63, 52, tag), (51, 50, op), (49, 42, len), (31, 0, addr)]

/-- PARTNER_READ or PARTNER_WRITE may be sent (R194): the group is named by its first lane, partner-facing, commanded by the partition, not retired, UP
and below its limit, and the lowest free tag is `n`. -/
def mayAsk (u : State) (c : Cmd) (g len addr n : Nat) : Bool :=
  decide (c.par 0 = BitVec.ofNat 64 (g * 2 ^ 54 + len * 2 ^ 46 + addr)) && decide (g < 1024) && decide (1 ≤ len) && decide (len ≤ 32) && decide (addr < 2 ^ 32) &&
    decide (u.groupOf g = g) && !u.host g && (c.part = 0 || u.ownerOf g = c.part) && u.groupUp g &&
    !((u.span g).all fun l => u.laneState l = 10) && decide (u.freeTag = some n) && decide (u.outstanding g < 16 * (u.runLanes g).length)

end Sys2Proof.Claims

/-- A beacon of a lane that sends them, in the slot that is due, leaves with the previous departure, where the transmitters are driven, and is kept with its own stamp at the land, the beacons beyond their 64 periods being lost and counted; at the second after UP the tags quarantined by the link are free and a waiting read is sent again. Outside that slot nothing leaves. An echo that answers a kept beacon of the last 64 periods is kept with its stamp, in the place of an earlier one of that beacon; one that answers none of the last 64 periods is counted late, and one to a beacon whose exchange has ended within them is not. The follow-up of a kept echo ends the exchange: with a negative turnaround or round trip, a turnaround beyond 10 µs or a coarse stamp it is lost and counted; otherwise the pair of R181 joins the window in ACQUIRE and, within step_limit, in VALID, where a fit of the window falls due at 64, 256, 1,024 and 4,096 pairs in it and after every further 4,096. One beyond step_limit starts SUSPECT. There a pair within step_limit returns to VALID with the held pairs counted as outliers, and the sixteenth in a row beyond it on one side is a step, counted, with those pairs as the window. In RESUME the sixteenth pair within step_limit leads to VALID, and one beyond it to ACQUIRE with an empty window. A fit that is due puts the line through pairs of unit slope. 10 ms in ACQUIRE begin it anew, 100 µs in SUSPECT lead to ACQUIRE with an empty window, and the half-wrap limit to NONE, or at once to ACQUIRE on a timed lane that is UP. -/
def Obligations.PartnerTimeModel : Prop :=
  (∀ (l edge code dev : Nat) (ok coarse : Bool) (s : State), l < 1024 →
    let u := advanceTo s (edge / 102400)
    (u.sendsBeacons l = false ∨ u.beaconDue l = false → exec (.beaconSend l edge code ok) s = .next u) ∧
    (u.sendsBeacons l = true → u.beaconDue l = true → stampOf s l edge code ok = some (dev, coarse) →
      let g := s.groupOf l
      let x := s.model l
      let out := fun (t : State) => s.drives = true → noFill t.out = noFill s.out ++ [.block l 0x3C (x.nextBn * 2 ^ 48 + x.prevT1 % 2 ^ 48)]
      let t1 := landTime u l dev true
      ∃ t, exec (.beaconSend l edge code ok) s = .next t ∧ (t.model l).beacons = (x.beacons.filter (u.beaconLive x)) ++ [{ bn := x.nextBn, t1 := t1, coarse := coarse, sent := u.tb.tick }] ∧
        t.get F.ltsc_exch_lost l = plus s F.ltsc_exch_lost l (x.beacons.length - (x.beacons.filter (u.beaconLive x)).length) ∧
        (t.model l).nextBn = (x.nextBn + 1) % 256 ∧ (t.model l).prevT1 = t1 % 2 ^ 48 ∧ (t.model l).beaconAt = u.laneFull l / 2560 + 1 ∧
        (s.beaconLane g ≠ some l → out t ∧ t.groups = s.groups ∧ t.txns = s.txns) ∧
        (s.beaconLane g = some l → (t.group g).beacons = (s.group g).beacons + 1 ∧ ((s.group g).beacons ≠ 1 → out t ∧ t.txns = s.txns) ∧
          ((s.group g).beacons = 1 → (∀ e ∈ s.txns, e.2.st = .retryWait → e.2.group ≠ g) → out t ∧
            ∀ n y, s.txns = [(n, y)] → y.quar = 1 → y.group = g → (y.st = .quarantine → t.txn n = Txn.init) ∧ (y.st = .done → t.txn n = { y with quar := 0 })) ∧
          ((s.group g).beacons = 1 → ∀ n y, s.txns = [(n, y)] → y.st = .retryWait → y.quar = 0 → y.group = g →
            let k := if n = 0 then 1 else 0
            (t.txn n).st = .retrying ∧ (t.txn n).mate = some k ∧ (t.txn k).st = .outstanding ∧ (t.txn k).isRetry = true ∧ (t.txn k).mate = some n ∧
              (t.txn k).addr = y.addr ∧ (t.txn k).len = y.len)))) ∧
  (∀ (l edge code dev : Nat) (w : Word) (ok coarse : Bool) (s : State), l < 1024 → s.host l = false → l ∈ s.runLanes (s.groupOf l) →
    stampOf s l edge code ok = some (dev, coarse) →
    let u := advanceTo s (edge / 102400)
    let x := s.model l
    ((∀ b ∈ x.beacons, b.bn ≠ bits w 55 48 ∨ b.sent + 163840 < u.tb.tick) → ∃ t, exec (.echoReceive l w edge code ok) s = .next t ∧
      ((∀ b ∈ x.ended, b.bn ≠ bits w 55 48 ∨ b.sent + 163840 < u.tb.tick) → t.get F.ltsd_late_echo l = plus s F.ltsd_late_echo l 1) ∧
      ((∃ b ∈ x.ended, b.bn = bits w 55 48 ∧ u.tb.tick ≤ b.sent + 163840) → t.get F.ltsd_late_echo l = s.get F.ltsd_late_echo l) ∧ (t.model l).echoes = x.echoes ∧ (t.model l).beacons = x.beacons) ∧
    (∀ b ∈ x.beacons, b.bn = bits w 55 48 → u.tb.tick ≤ b.sent + 163840 → (∀ b' ∈ x.beacons, b'.bn = b.bn → b' = b) →
      ∃ t, exec (.echoReceive l w edge code ok) s = .next t ∧
        (t.model l).echoes = (x.echoes.filter fun e => e.beacon ≠ b) ++ [{ beacon := b, t2 := bits w 39 0, t4 := landTime u l dev false, coarse := coarse }] ∧
        (t.model l).beacons = x.beacons)) ∧
  (∀ (l : Nat) (w : Word) (e : Echo) (s : State), l < 1024 → s.host l = false → l ∈ s.runLanes (s.groupOf l) → e ∈ (s.model l).echoes →
    e.beacon.bn = bits w 55 48 → (∀ e' ∈ (s.model l).echoes, e'.beacon.bn = e.beacon.bn → e' = e) →
    let x := s.model l
    let t2 : Nat := if x.fitted then unwrap40 e.t2 (x.partnerAt ((e.beacon.t1 : Int) * 16) / 16) else match x.lastT2 with
      | some p => unwrap40 e.t2 ((p.1 : Int) + ((e.beacon.t1 : Int) - p.2))
      | none => e.t2
    let t3 : Nat := unwrap40 (bits w 39 0) t2
    let turn : Int := (t3 : Int) - t2
    let rtt : Int := ((e.t4 : Int) - e.beacon.t1) - turn
    let p : Pair := { u := ((t2 : Int) + t3) * 8, d := ((e.beacon.t1 : Int) + e.t4) * 8 + roundHalfUp (toSigned 24 (s.get F.ltc_asym l)) 2, t4 := e.t4 }
    let good := decide (0 ≤ turn) && decide (0 ≤ rtt) && decide (turn ≤ 16384000) && !e.coarse && !e.beacon.coarse
    let beyond := decide (s.get F.ltc_step_limit l * 1024 < (x.resid p).natAbs)
    let joined := (x.window ++ [p]).drop (x.window.length + 1 - 2 ^ s.get F.ltc_fit_log2 l)
    let due := (x.window.length < joined.length ∧ (joined.length = 64 ∨ joined.length = 256 ∨ joined.length = 1024 ∨ joined.length = 4096)) ∨ 4096 ≤ x.sinceFit + 1
    ∃ t, exec (.echoFollowUpReceive l w) s = .next t ∧ (t.model l).echoes = (x.echoes.filter fun e' => e'.beacon ≠ e.beacon) ∧
      (t.model l).beacons = x.beacons.filter (· ≠ e.beacon) ∧ (t.model l).lastT2 = some (t2, e.beacon.t1) ∧
      (good = false → t.get F.ltsc_exch_lost l = plus s F.ltsc_exch_lost l 1 ∧ (t.model l).window = x.window ∧ t.get F.ltsb_mstate l = s.get F.ltsb_mstate l) ∧
      (good = true → (t.model l).lastAccept = some s.tb.tick ∧
        (s.get F.ltsb_mstate l = 1 → joined.length < 64 → (t.model l).window = joined ∧ t.get F.ltsb_mstate l = 1) ∧
        (s.get F.ltsb_mstate l = 1 → joined.length = 64 → (t.model l).window = joined ∧ (t.model l).fitted = true ∧ t.get F.ltsb_mstate l = 2) ∧
        (s.get F.ltsb_mstate l = 2 → beyond = true → (t.model l).window = x.window ∧ (t.model l).held = [p] ∧ t.get F.ltsb_mstate l = 3) ∧
        (s.get F.ltsb_mstate l = 2 → beyond = false → (t.model l).window = joined ∧ t.get F.ltsb_mstate l = 2 ∧
          (due → (t.model l).fitDue = some joined ∧ (t.model l).sinceFit = 0) ∧ (¬ due → (t.model l).fitDue = x.fitDue ∧ (t.model l).sinceFit = x.sinceFit + 1)) ∧
        (s.get F.ltsb_mstate l = 3 → beyond = false → (t.model l).held = [] ∧ (t.model l).window = joined ∧ t.get F.ltsb_mstate l = 2 ∧
          t.get F.ltsc_outliers l = plus s F.ltsc_outliers l x.held.length) ∧
        (s.get F.ltsb_mstate l = 3 → beyond = true → x.held.length = 15 → (∀ q ∈ x.held, 0 ≤ x.resid q ↔ 0 ≤ x.resid p) →
          (t.model l).window = x.held ++ [p] ∧ (t.model l).held = [] ∧ t.get F.ltsb_mstate l = 2 ∧ t.get F.ltsc_steps l = plus s F.ltsc_steps l 1) ∧
        (s.get F.ltsb_mstate l = 5 → x.fitted = true → beyond = false → x.held.length = 15 → (t.model l).held = [] ∧ t.get F.ltsb_mstate l = 2) ∧
        (s.get F.ltsb_mstate l = 5 → beyond = true → (t.model l).window = [] ∧ t.get F.ltsb_mstate l = 1))) ∧
  (∀ (l : Nat) (ps : List Pair) (p : Pair) (s : State), l < 1024 → (s.model l).fitDue = some ps → ps.getLast? = some p →
    (∀ q ∈ ps, q.d - q.u = p.d - p.u) →
    ∃ t, exec (.modelFitComplete l) s = .next t ∧ (t.model l).u = p.u ∧ (t.model l).d = p.d ∧ (t.model l).fitted = true ∧ (t.model l).fitDue = none ∧
      t.get F.ltsa_offset l = ofSigned 64 (roundHalfUp (p.d - p.u) 16) ∧ t.get F.ltsb_mstate l = s.get F.ltsb_mstate l) ∧
  (∀ (l : Nat) (s : State), l < 1024 → s.get F.ltsb_mstate l = 1 →
    let u := advanceTo s ((s.model l).enteredAt + 16000000)
    let g := u.groupOf l
    ∃ t, exec (.acquireTimeout l) s = .next t ∧ t.get F.ltsb_mstate l = 1 ∧ (t.model l).enteredAt = u.tb.tick ∧
      (u.modelLane g = none → (u.runLanes g).head? = some l → (∀ f ∈ (t.ing g).frames, f.stage ≠ 0) ∧
        t.get F.qia_drops g = plus u F.qia_drops g (sumOver (fun f => f.hits + markCount f.p64 f.words) ((u.ing g).frames.filter fun f => f.stage = 0)))) ∧
  (∀ (l : Nat) (s : State), l < 1024 → s.get F.ltsb_mstate l = 3 →
    ∃ t, exec (.suspectTimeout l) s = .next t ∧ t.get F.ltsb_mstate l = 1 ∧ (t.model l).window = [] ∧ (t.model l).fitted = (s.model l).fitted ∧
      t.tb.tick = max s.tb.tick ((s.model l).enteredAt + 160000)) ∧
  (∀ (l t0 : Nat) (s : State), l < 1024 → s.get F.ltsb_mstate l ≠ 0 → (s.model l).lastAccept = some t0 →
    ∃ t, exec (.halfWrapLimit l) s = .next t ∧ (t.model l).window = [] ∧ (t.model l).fitted = false ∧
      t.get F.ltsb_mstate l = (if s.timed l = true ∧ s.host l = false ∧ l ∈ s.runLanes (s.groupOf l) then 1 else 0))

/-- An accepted PARTNER_READ or PARTNER_WRITE of an UP group below its limit takes the lowest free tag, sends the request in a frame of its group and answers ST_OK with the tag; nothing else changes. PARTNER_TXN_STATUS of a tag in DONE answers its status and data and frees it, or sends it to QUARANTINE where so marked; of an OUTSTANDING tag it answers its state and changes nothing; of a FREE one it is refused. A response frame that fails R175 is discarded and counted; a response that fits its OUTSTANDING tag takes it to DONE with the partner's status and data, and the read waiting for a retry with it; another is counted. Without response a tag is DONE with ST_TIMEOUT, a waiting read after 1 s out of UP with ST_OUTCOME_UNKNOWN; DONE lapses after 100 ms, and QUARANTINE by timeout ends FREE. -/
def Obligations.PartnerTransactions : Prop :=
  (∀ (c : Cmd) (g len addr n : Nat) (s : State),
    let u := advanceTo s c.tick
    mayAsk u c g len addr n = true →
    ∀ e ∈ ([(.partnerRead c, 0x38, 1, 1, []), (.partnerWrite c, 0x39, 2, 1 + len, c.params.drop 1)] : List (Instr × Nat × Nat × Nat × List Word)),
      accepts s c e.2.1 e.2.2.2.1 = true → ∃ v, ends e.1 s c e.2.1 v stOk 0 [BitVec.ofNat 64 n] ∧ v = { u with txns := v.txns, groups := v.groups, lanes := v.lanes, out := v.out } ∧
        (let ws := requestWord n e.2.2.1 len addr :: e.2.2.2.2
         let start := frameStart (u.group g).txSeq 2 0
         noFill v.out = noFill u.out ++ [.frame g start ws (frameEnd start ws) (u.group g).dealt]) ∧
        v.txn n = { Txn.init with st := .outstanding, group := g, op := e.2.2.1, len := len, addr := addr, part := c.part, deadline := u.tb.tick + u.get F.ltc_txn_timeout g * 160000 } ∧
        (∀ k, k ≠ n → v.txn k = u.txn k)) ∧
  (∀ (c : Cmd) (n : Nat) (s : State),
    let u := advanceTo s c.tick
    let x := u.txn n
    let reply := pack [(63, 61, x.st.code), (55, 48, x.stat), (47, 40, x.pstatus), (39, 32, x.data.length)] :: x.data
    accepts s c 0x3A 1 = true → n < 4096 → c.par 0 = BitVec.ofNat 64 n →
      (x.st = .free → exec (.partnerTxnStatus c) s = .next (finish u c 0x3A stBadParam 1 [])) ∧
      (x.st = .outstanding → x.part = c.part → ends (.partnerTxnStatus c) s c 0x3A u stOk 0 reply) ∧
      (x.st = .done → x.part = c.part → ∃ v, ends (.partnerTxnStatus c) s c 0x3A v stOk 0 reply ∧ v = { u with txns := v.txns } ∧
        (x.quar = 0 → v.txn n = Txn.init) ∧ (x.quar = 2 → (v.txn n).st = .quarantine ∧ (v.txn n).deadline = u.tb.tick + u.get F.ltc_txn_timeout x.group * 160000) ∧
        (x.quar = 1 → (v.txn n).st = .quarantine) ∧ ∀ k, k ≠ n → v.txn k = u.txn k)) ∧
  (∀ (g : Nat) (f : Frame) (s : State), g < 1024 → s.groupUp g = true → s.host g = false → f.kind ≠ 1 →
    let ok := frameOk (frameBlocks s g f).2 [1, 3]
    let data := (f.words.take (frameBytes f / 8)).drop 1
    let n := bits (f.words.headD 0#64) 63 52
    let x := s.txn n
    let fits := x.st = .outstanding ∧ x.group = g ∧ x.op = bits (f.words.headD 0#64) 51 50 ∧ x.len = bits (f.words.headD 0#64) 49 42 ∧
      data.length = (if x.op = 1 then x.len else 0)
    (ok = false → ∃ t, exec (.txnResponseReceive g f) s = .next t ∧ t.txns = s.txns ∧ t.get F.ltsd_frames_bad g = plus s F.ltsd_frames_bad g 1) ∧
    (ok = true → fits →
      ∃ t, exec (.txnResponseReceive g f) s = .next t ∧ (t.txn n).st = .done ∧ (t.txn n).stat = stOk ∧ (t.txn n).data = data ∧
        (t.txn n).pstatus = bits (f.words.headD 0#64) 41 34 ∧ (t.txn n).quar = 0 ∧
        (∀ m, x.isRetry = true → x.mate = some m → (s.txn m).st = .retrying → (t.txn m).st = .done ∧ (t.txn m).data = data)) ∧
    (ok = true → ¬ fits → ∃ t, exec (.txnResponseReceive g f) s = .next t ∧ t.txns = s.txns ∧ t.get F.ltsd_unsolicited g = plus s F.ltsd_unsolicited g 1)) ∧
  (∀ (n : Nat) (s : State), n < 4096 →
    let x := s.txn n
    let u := advanceTo s x.deadline
    (x.st = .outstanding → ∃ t, exec (.txnTimeout n) s = .next t ∧ (t.txn n).st = .done ∧ (t.txn n).stat = stTimeout ∧ (t.txn n).quar = 2 ∧
      (t.txn n).deadline = u.tb.tick + 160000000) ∧
    (x.st = .retryWait → s.groupUp x.group = false → ∃ t, exec (.retryWaitTimeout n) s = .next t ∧ (t.txn n).st = .done ∧
      (t.txn n).stat = stOutcomeUnknown ∧ (t.txn n).quar = 0) ∧
    (x.st = .done → ∃ t, exec (.doneTimeout n) s = .next t ∧ t = { u with txns := t.txns } ∧ (x.quar = 0 → t.txn n = Txn.init) ∧
      (x.quar = 1 ∨ x.quar = 2 → (t.txn n).st = .quarantine)) ∧
    (x.st = .quarantine → x.quar = 2 → ∃ t, exec (.quarantineTimeout n) s = .next t ∧ t = { u with txns := t.txns } ∧ t.txn n = Txn.init ∧
      ∀ k, k ≠ n → t.txn k = u.txn k))


/-! ### Lane ingress, conversion, the Saddle and the merge -/

/-- A good hit frame of an UP partner group whose words all find room joins the tail of its lane ingress queue with its arrival, uncounted; one of which a word finds the queue full leaves it without the words already written, and is lost with its hits counted as drops and overrun, for the quota, or for the bandwidth where the spill of the tail waits and the quota would hold it; one that fails R175 is counted and changes no queue. The oldest uncommitted frame, with every item at its tile and none held at a boundary, commits once the acknowledgement has crossed the Saddle: it leaves the queue, a token follows it on the link to each of its tiles, and its lost hits are counted. At a frame's conversion the corrected words are counted; an uncorrectable word is read again, and found again it discards the frame, counted with its hits. A frame of a group whose model is NONE is discarded at its conversion with its hits and markers counted. A pause is repeated when it is due, and ends there when nothing asks for it any longer. -/
def Obligations.FramesComeAndCommit : Prop :=
  (∀ (g at_ : Nat) (f : Frame) (spill : Bool) (s : State), g < 1024 → s.groupUp g = true → s.host g = false → f.kind ≠ 3 →
    let u := advanceTo s at_
    let x := u.ing g
    let ok := frameOk (frameBlocks u g f).2 [1, 3]
    let ws := validData (u.isP64 g) f
    let lines := x.lines ws.length
    let room := lines ≤ u.ingCapacity g ∧ (spill = true → lines ≤ x.mid + regLines x.linesLost)
    let hits := hitCount (u.isP64 g) ws
    (ok = true → room →
      ∃ t, exec (.hitFrameReceive g f spill at_) s = .next t ∧ t.get F.qia_drops g = u.get F.qia_drops g ∧ (t.ing g).next = x.next + 1 ∧
        ∃ h, (t.ing g).frames = x.frames ++ [h] ∧ h.words = ws ∧ h.p64 = u.isP64 g ∧ h.hits = hits ∧ h.arrival = u.full * 1024 ∧ h.stage = 0 ∧ h.seq = x.next ∧
          h.start = x.wp ∧ (t.ing g).wp = x.wp + ws.length) ∧
    (ok = true → ¬ room →
      ∃ t, exec (.hitFrameReceive g f spill at_) s = .next t ∧ (t.ing g).frames = x.frames ∧ (t.ing g).next = x.next ∧ (t.ing g).wp = x.wp ∧
        t.get F.qia_drops g = plus u F.qia_drops g hits ∧ t.get F.qib_overrun_hits g = plus u F.qib_overrun_hits g hits ∧ t.flag F.qia_overrun g = true ∧
        (spill = false → t.flag F.qia_ovr_quota g = true) ∧ (lines ≤ u.ingCapacity g → t.flag F.qia_ovr_bw g = true)) ∧
    (ok = false → ∃ t, exec (.hitFrameReceive g f spill at_) s = .next t ∧ t.ingress = u.ingress ∧
      t.get F.ltsd_frames_bad g = plus u F.ltsd_frames_bad g 1)) ∧
  (∀ (g : Nat) (f : IFrame) (rest : List IFrame) (s : State), g < 1024 → (s.ing g).frames = f :: rest → f.stage = 1 → s.acked g f = true → s.heldAtB g f = false →
    (f.all = [] ∨ mget 0 s.flt.awl (dieSource (8 + g / 256) 1) = 0) → (∀ e ∈ f.sheds, validChan e.1 = true) →
    ∃ t, exec (.frameCommit g) s = .next t ∧ (t.ing g).frames = rest ∧ t.get F.qia_drops g = plus s F.qia_drops g f.lost ∧
      ∀ k, mget [] t.toTile k = mget [] s.toTile k ++ (f.all.filter fun n => linkOf n g = k).map fun n => (linkKey n g, .token g f.seq)) ∧
  (∀ (g corrected : Nat) (f : IFrame) (s : State), g < 1024 → ((s.ing g).frames.find? fun f => f.stage = 0) = some f →
    ((s.ing g).frames.filter fun h => h.stage = 1).length < 64 → mget 0 s.flt.awl (0x0400 + g) = 0 →
    (s.ing g).mid = 0 ∨ mget 0 s.flt.awl (dieSource (8 + g / 256) 5) = 0 →
    let none0 := s.fitFor g f = none ∧ ∃ l rest, s.runLanes g = l :: rest ∧ s.get F.ltsb_mstate l = 0
    let counted := fun (t : State) => t.get F.qib_ecc_corr g = plus s F.qib_ecc_corr g (min corrected f.words.length)
    let without := (s.ing g).frames.filter fun h => h.seq ≠ f.seq
    (none0 → ∃ t, exec (.hitConversion g corrected false) s = .next t ∧ counted t ∧ t.get F.qia_drops g = plus s F.qia_drops g (f.hits + markCount f.p64 f.words) ∧
      t.toTile = s.toTile ∧ (t.ing g).frames = without) ∧
    (none0 ∨ s.fitFor g f ≠ none → f.reread = false → ∃ t, exec (.hitConversion g corrected true) s = .next t ∧ counted t ∧
      (t.ing g).frames = (s.ing g).frames.map (fun h => if h.seq = f.seq then { f with reread := true } else h) ∧ t.get F.qia_drops g = s.get F.qia_drops g) ∧
    (none0 ∨ s.fitFor g f ≠ none → f.reread = true → ∃ t, exec (.hitConversion g corrected true) s = .next t ∧ counted t ∧ (t.ing g).frames = without ∧
      t.get F.qia_drops g = plus s F.qia_drops g f.hits ∧ t.get F.qis_frames_ecc g = plus s F.qis_frames_ecc g 1)) ∧
  (∀ (g : Nat) (s : State), g < 1024 → (s.ing g).pausing = true →
    let u := advanceTo s (s.ing g).repeatAt
    let want := u.groupUp g && !u.host g && ((u.flag F.qia_paused g && u.flag F.qic_press_en g) || u.pressed g)
    let frame := fun (op : Nat) =>
      let ws := [pack [(63, 56, op), (55, 40, u.get F.qic_pause_hold g)]]
      let start := frameStart (u.group g).txSeq 4 0
      Out.frame g start ws (frameEnd start ws) (u.group g).dealt
    ∃ t, exec (.pauseRepeat g) s = .next t ∧ t = { u with regs := t.regs, groups := t.groups, ingress := t.ingress, lanes := t.lanes, out := t.out } ∧
      (want = true → noFill t.out = noFill u.out ++ (if u.drives then [frame 1] else []) ∧ t.ing g = { s.ing g with repeatAt := u.tb.tick + u.get F.qic_pause_hold g * 1280 }) ∧
      (want = false → noFill t.out = noFill u.out ++ (if u.groupUp g && u.drives then [frame 2] else []) ∧ (t.ing g).pausing = false))

/-- A waiting frame of one hit word, in either format and of either threshold, converted with a fit: when the hit's time is no later than the step limit allows, its local channel is mapped, and its channel is on, in service and not shed, it leaves on the link to its channel's tile with the converted time and the fields of R178, and the frame is uncommitted with that tile alone. The oldest packet of a link reaches its tile when the tile's arbiter takes it and its check passes: a hit that finds room in the input buffer is held provisionally and counted in it, a marker is held provisionally. The token of their frame ends that, on an escape credit past the hits and markers before it on the link. A committed hit with no marker at or after it is binned and counted on its channel when its caravan is one of the 128 open ones; it goes to the Wadi, counted, when its caravan is closed, and to the Mirage path, counted, when it lies beyond the open ones or at or before its feeder's marker. The oldest precision stamp of a die's anchor queue meets that fate as it reaches its tile, behind the notice that the anchor sent before it. -/
def Obligations.HitFromWordToCaravan : Prop :=
  (∀ (g corrected w c0 : Nat) (f : IFrame) (m : Model) (s : State), g < 1024 → ((s.ing g).frames.find? fun f => f.stage = 0) = some f →
    ((s.ing g).frames.filter fun h => h.stage = 1).length < 64 → s.fitFor g f = some m → mget 0 s.flt.awl (0x0400 + g) = 0 →
    (s.ing g).mid = 0 ∨ mget 0 s.flt.awl (dieSource (8 + g / 256) 5) = 0 → frameWords f.p64 f.words = [w] → wordKind f.p64 w = 1 →
    let lch := if f.p64 then w / 2 ^ 44 % 2 ^ 18 else w / 2 ^ 30 % 2 ^ 16
    let field := if f.p64 then w / 2 ^ 14 % 2 ^ 30 else w / 2 ^ 6 % 2 ^ 24 * 4
    let tot := if f.p64 then w / 2 ^ 2 % 2 ^ 12 else if w / 2 % 2 ^ 5 = 31 then 4095 else w / 2 % 2 ^ 5 * 32
    let thr := if f.p64 then w / 2 % 2 else w % 2
    let lane := (s.modelLane g).getD (s.get F.grp_run_first g)
    let uArr : Int := m.partnerAt ((f.arrival : Int) * 16) / 16
    let u := unwrapHit f.p64 field uArr
    let τ := ofSigned 80 (m.fineAt u)
    let ch := c0 + thr
    let k := linkOf (chanTile ch) g
    (thr = 1 → s.flag F.lsa_dual_thr lane = true) →
    u ≤ uArr + s.getFor F.ltc_step_limit lane (τ / 1024) * 64 → s.mapChan g lch (τ / 1024) = some c0 →
    (s.group g).isolated = false → s.modeAt ch (τ / 1024) ≠ 0 → s.chanGone ch (τ / 1024) = false → s.domOn (tileDomain (chanTile ch)) = true →
    s.shedLevel g (chanTile ch) ≤ s.shedClass ch (τ / 1024) →
    ∃ t h, exec (.hitConversion g corrected false) s = .next t ∧ mget [] t.toTile k = mget [] s.toTile k ++ [(linkKey (chanTile ch) g, .hit h)] ∧
      (∀ k', k' ≠ k → mget [] t.toTile k' = mget [] s.toTile k') ∧
      h.chan = ch ∧ h.time = τ ∧ h.tot = tot ∧ h.flags = (if f.p64 then 4 * (w % 2) else 0) ∧ h.src = g ∧ h.frame = f.seq ∧ h.mirage = 0 ∧
      t.get F.qia_drops g = s.get F.qia_drops g ∧
      ∃ r ∈ (t.ing g).frames, r.seq = f.seq ∧ r.stage = 1 ∧ r.all = [chanTile ch] ∧ r.lost = 0) ∧
  (∀ (tile src : Nat) (it : TItem) (rest : List (Nat × TItem)) (s : State), tile < 320 → src < 1024 →
    let k := linkOf tile src
    let x := s.tile tile
    mget [] s.toTile k = (linkKey tile src, it) :: rest → s.linkGrants tile (src / 256) = true → mget 0 s.flt.awl (dieSource (tile / 64) 1) = 0 →
    (∀ h, it = .hit h → x.buf < 8192 → ∃ t, exec (.tileHitArrival tile src) s = .next t ∧ mget [] t.toTile k = rest ∧
      t.tile tile = { x with prov := x.prov ++ [it], buf := x.buf + 1 }) ∧
    (∀ a f τ, it = .marker a f τ → ∃ t, exec (.tileHitArrival tile src) s = .next t ∧ mget [] t.toTile k = rest ∧ t.tile tile = { x with prov := x.prov ++ [it] })) ∧
  (∀ (tile : Nat) (h : THit) (s : State), tile < 320 → validChan h.chan = true → h.mirage = 0 → (s.tile tile).remap = none →
    let τ := h.time / 1024
    let k := τ / 4096
    let x := s.tile tile
    let fate := fun (marks : SMap Nat) (run : State → Prop) =>
      let clear := ∀ m, mfind marks h.src = some m → m < h.time
      (clear → s.k0 tile ≤ k → k < s.k0 tile + 128 → mget 0 s.flt.awl (s.tileSource tile τ) = 0 → s.modeAt h.chan τ ≠ 0 → h.overRate = false → h.timeout = false →
        ∃ t, run t ∧ (t.tile tile).hits = x.hits ++ [h] ∧ t.get F.chst_hits h.chan = (s.get F.chst_hits h.chan + 1) % 2 ^ 48) ∧
      (clear → k < s.k0 tile → ∃ t, run t ∧ (t.tile tile).hits = x.hits ∧ t.get F.tma_wadi_hits tile = plus s F.tma_wadi_hits tile 1) ∧
      (¬ clear ∨ s.k0 tile + 128 ≤ k → ∃ t, run t ∧ (t.tile tile).hits = x.hits ∧ t.get F.tma_mirage_hits tile = plus s F.tma_mirage_hits tile 1)
    mget 0 s.flt.awl (dieSource (tile / 64) 1) = 0 →
    (∀ (src a f : Nat) (escape : Bool) (before rest : List (Nat × TItem)), s.linkGrants tile (src / 256) = true →
      mget [] s.toTile (linkOf tile src) = before ++ (linkKey tile src, .token a f) :: rest →
      before = [] ∨ (escape = true ∧ ∀ e ∈ before, ∀ a f, e.2 ≠ .token a f) → x.prov.filter (TItem.inFrame a f) = [.hit h] →
      fate x.marks fun t => exec (.commitToken tile src escape) s = .next t ∧ mget [] t.toTile (linkOf tile src) = before ++ rest ∧
        (t.tile tile).prov = x.prov.filter (fun it => !TItem.inFrame a f it) ∧ (t.tile tile).buf = x.buf - 1) ∧
    (∀ rest, mget [] s.anchorQ (tile / 64) = h :: rest → chanTile h.chan = tile → s.linkGrants tile 4 = true →
      fate ((noticeTake s tile).tile tile).marks fun t => exec (.tileHitArrival tile 1024) s = .next t ∧ mget [] t.anchorQ (tile / 64) = rest ∧ (t.tile tile).prov = x.prov))

/-- A fault reported against an uncommitted frame takes it and the uncommitted ones after it back to waiting, each with one rewind more, counted as replays; at its fourth it is discarded alone and counted. The shed level of a tile goes up or down one step as its input buffer crosses its marks, at most once in 4,096 ticks of its frontier; a link's limit is noted. A boundary notice moves the anchor's marker, the notice and the frontier up. A tile that works closes its oldest caravan once every waited-for feeder and the anchor have covered it and its frontier has passed it: the hits through it leave, and the next caravan is the oldest; with the close timeout passed it closes it late, counted; otherwise it waits. An enabled host queue with nothing due before its next caravan, whose contributing tiles have all closed it, writes it between its first and its last record, every hit once, in the order of time and channel; an EPOCH record that waits goes before the first caravan of the new epoch. -/
def Obligations.RewindsAndCaravans : Prop :=
  (∀ (g idx source : Nat) (f : IFrame) (s : State), g < 1024 → (s.ing g).frames[idx]? = some f → f.stage = 1 → ((s.ing g).frames.map fun h => h.seq).Nodup →
    (∀ h ∈ (s.ing g).frames, ∀ n ∈ h.all, n < 320) →
    (f.rewinds < 3 → ∃ t, exec (.frameRewind g idx source) s = .next t ∧ (t.ing g).frames = (s.ing g).frames.take idx ++
        ((s.ing g).frames.drop idx).map (fun h => if h.stage = 1 then { h with stage := 0, rewinds := h.rewinds + 1 } else h) ∧
      t.get F.gmrg_replays g = plus s F.gmrg_replays g (((s.ing g).frames.drop idx).filter fun h => h.stage = 1).length) ∧
    (3 ≤ f.rewinds → ∃ t, exec (.frameRewind g idx source) s = .next t ∧ (t.ing g).frames = (s.ing g).frames.filter (fun h => h.seq ≠ f.seq) ∧
      t.get F.gmrg_replay_lost g = plus s F.gmrg_replay_lost g 1 ∧ t.get F.qia_drops g = plus s F.qia_drops g f.hits)) ∧
  (∀ (tile : Nat) (s : State), tile < 320 →
    let x := s.tile tile
    let level := s.get F.tmd_shed_level tile
    (∀ p, x.lastLevel = some p → p + 4194304 ≤ x.frontier) →
    (s.get F.tmc_shed_hi tile * 128 ≤ x.buf → level < 3 → ∃ t, exec (.shedLevelChange tile) s = .next t ∧ t.get F.tmd_shed_level tile = level + 1 ∧
      t.tile tile = { x with lastLevel := some x.frontier, levels := (t.tile tile).levels } ∧ (t.tile tile).levels.head? = some (x.frontier, level + 1) ∧ sameWords s t [wkey 4 5 tile]) ∧
    (x.buf < s.get F.tmc_shed_hi tile * 128 → x.buf ≤ s.get F.tmc_shed_lo tile * 128 → 0 < level → ∃ t, exec (.shedLevelChange tile) s = .next t ∧
      t.get F.tmd_shed_level tile = level - 1 ∧ t.tile tile = { x with lastLevel := some x.frontier, levels := (t.tile tile).levels } ∧ (t.tile tile).levels.head? = some (x.frontier, level - 1) ∧
      sameWords s t [wkey 4 5 tile])) ∧
  (∀ (a b : Nat) (limit : Bool) (s : State), a < 4 → b < 5 → ∃ t, exec (.linkShed a b limit) s = .next t ∧ t = { s with links := t.links } ∧
    mget 0 t.links (a * 8 + b) = b2n limit) ∧
  (∀ (tile b m : Nat) (s : State), tile < 320 → mfind s.notices (tile / 64) = some (b, m) → mget 0 s.flt.awl (dieSource (tile / 64) 1) = 0 →
    ∃ t, exec (.boundaryNotice tile) s = .next t ∧ t = { s with tiles := t.tiles, flt := linkDelivers s (tile / 64) 15 |>.flt } ∧ (t.tile tile).notice = max (s.tile tile).notice b ∧
      mget 0 (t.tile tile).marks 1024 = max m (mget 0 (s.tile tile).marks 1024) ∧
      (t.tile tile).frontier = max (max (s.tile tile).frontier m) (b * 1024)) ∧
  (∀ (tile : Nat) (busy : Bool) (s : State), tile < 320 → s.canClose tile = true → (∀ h ∈ (s.tile tile).hits, validChan h.chan = true) →
    let k := s.k0 tile
    let stop := (k + 1) * 4194304
    let x := s.tile tile
    let covered := (∀ g ∈ s.waitedFor tile k, stop ≤ mget 0 x.marks g + 1) ∧ (s.anchorFeeds tile (k * 4096) = true → stop ≤ mget 0 x.marks 1024 + 1)
    let late := stop + s.getFor F.tmc_close_timeout tile (k * 4096) * 1638400 ≤ x.frontier
    (covered → stop ≤ x.frontier + 1 → ∃ t, exec (.caravanClose tile busy) s = .next t ∧ t.k0 tile = k + 1 ∧
      (t.tile tile).hits = x.hits.filter (fun h => !decide (h.time / 1024 / 4096 ≤ k)) ∧ t.get F.tmd_late_closes tile = s.get F.tmd_late_closes tile) ∧
    (¬covered → late → ∃ t, exec (.caravanClose tile busy) s = .next t ∧ t.k0 tile = k + 1 ∧
      t.get F.tmd_late_closes tile = plus s F.tmd_late_closes tile 1) ∧
    (¬(covered ∧ stop ≤ x.frontier + 1) → ¬late → exec (.caravanClose tile busy) s = .next s)) ∧
  (∀ (q : Nat) (s : State), q < 16384 → s.queueEn q = true →
    let k := (s.hq q).nextK.getD s.tb.base
    let mine := (s.hq q).hits.filter fun x => decide (x.caravan ≤ k)
    s.gatesWait q (k * 4096) = false → s.segsWait q k = false → s.candsWait q (k * 4096) = false → (s.hq q).place = [] →
    s.queueTiles q (k * 4096) ≠ [] → (∀ n ∈ s.queueTiles q (k * 4096), k < s.k0 n) → mine ≠ [] →
    ∃ (t : State) (hs : List QHit) (first last : Rec), exec (.hostCaravanClose q) s = .next t ∧ t = { s with hqs := t.hqs } ∧ hs.Perm mine ∧
      hs.Pairwise (fun a b => a.time < b.time ∨ (a.time = b.time ∧ a.chan ≤ b.chan)) ∧
      (t.hq q).incoming = (s.hq q).incoming ++ (if s.tb.epoch.toNat ≤ k / 2 ^ 42 then (s.hq q).epochDue.toList else []) ++ [first] ++ (hs.map fun x => { words := x.words, first := false, last := false, seg := none }) ++ [last] ∧
      first.first = true ∧ first.words.head? = some (pack [(63, 60, 2), (53, 0, k * 4096)]) ∧ last.last = true ∧
      (t.hq q).nextK = some (k + 1) ∧ (t.hq q).seq = (s.hq q).seq + 1)

/-- An accepted TILE_RETIRE of a powered tile in service, with no change in progress in its cluster, marks its physical tile retired, records it, keeps its channel busy, and waits with the map it will have: the spare, or state 0b10 with none left. Of a tile without a physical tile it is answered ST_RETIRED, and during another change of the cluster ST_NO_RESOURCE. Accepted, the change takes the next caravan boundary as B and answers it. At B the map word has the new state and physical tile, the old word is kept for earlier times, and nothing is pending. A retirement held for another change begins its own, at the first caravan boundary after that one's. -/
def Obligations.TileMapChanges : Prop :=
  (∀ (c : Cmd) (n : Nat) (s : State), n < 320 → c.par 0 = BitVec.ofNat 64 n →
    let u := advanceTo s c.tick
    accepts0 s c 0x61 1 = true →
    (u.tileGone n u.full = true → exec (.tileRetire c) s = .next (finish u c 0x61 stRetired 0 [])) ∧
    (u.tileGone n u.full = false → u.domOn (tileDomain n) = true → u.remapping n = true → exec (.tileRetire c) s = .next (finish u c 0x61 stNoResource 0 [])) ∧
    (u.tileGone n u.full = false → u.domOn (tileDomain n) = true → u.remapping n = false →
      ∃ v, pends (.tileRetire c) s c 0x61 v ∧ v = { u with regs := v.regs, tiles := v.tiles, flt := v.flt } ∧
        v.flag F.fsa_retired (u.tileSource n u.full) = true ∧ v.flt = { u.flt with toRecord := u.flt.toRecord ++ [retireEntry (u.tileSource n u.full) 0 0] } ∧
        v.tile n = { u.tile n with remap := some { cmd := some c, full := none, fault := false, state := if u.spareUsed n then 2 else 1, phys := if u.spareUsed n then 31 else 16 } })) ∧
  (∀ (n : Nat) (r : Remap) (c : Cmd) (s : State), n < 320 → (s.tile n).remap = some r → r.full = none → r.fault = false → r.cmd = some c →
    ∃ v, exec (.tileRemapAccept n) s = .next (finish v c 0x61 stOk 0 [BitVec.ofNat 64 (nextBoundary s.full % 2 ^ 54)]) ∧
      v.flag F.tmd_remap_pending n = true ∧ v.tile n = { s.tile n with remap := some { r with full := some (nextBoundary s.full), cmd := none } } ∧
      sameWords s v [wkey 4 5 n]) ∧
  (∀ (n b : Nat) (r : Remap) (s : State), n < 320 → (s.tile n).remap = some r → r.full = some b → r.state < 4 → r.phys < 32 →
    let u := advanceFull s b
    ∃ t, exec (.tileRemapBoundary n) s = .next t ∧ t.get F.tileMap_state n = r.state ∧ t.get F.tileMap_phys n = r.phys ∧ t.flag F.tmd_remap_pending n = false ∧
      sameWords u t [wkey 4 0 n, wkey 4 5 n] ∧ (t.tile n).remap = none ∧ (r.state = 2 → (t.tile n).dead = some b) ∧
      mfind t.cmd.prev (wkey 4 0 n) = some { old := u.word 4 0 n, full := b, cinch := none, older := ((mfind u.cmd.prev (wkey 4 0 n)).map fun p => p.changes).getD [] } ∧ t.tb = u.tb) ∧
  (∀ (n : Nat) (s : State), n < 320 → (s.tile n).held = true → s.remapping n = false →
    ∃ t r, exec (.heldRetirementRemap n) s = .next t ∧ (t.tile n).held = false ∧ (t.tile n).remap = some r ∧ t.tb = (advanceFull s (s.lastMapChange n + 4096)).tb ∧ r.fault = true ∧ r.full = none ∧ r.cmd = none ∧
      r.state = (if s.spareUsed n then 2 else 1) ∧ r.phys = (if s.spareUsed n then 31 else 16))


/-! ### Statistics -/

/-- STATS_GATE START of a profile in IDLE is answered with S, a caravan boundary at least 8,192 ticks ahead or the tick named; the profile waits for it with the count of gates asked for. STOP of a waiting profile ends it, of a running one lets the open gate end, of an idle one does nothing. At S the first gate is open, numbered 0, with the profile's length, and one fewer is left; where more are to follow, the next begins where it ends, with the next number, and otherwise the profile is in IDLE at its end. A gate that a tile completes, once the tiles of its phase references are ready, gives each of its channels with an edge a STATS result, which STATS_READ LAST then answers, and leaves the others none; it is complete at that tile. STATS_READ RUNNING answers the open gate's number, count and sums. -/
def Obligations.GatesAndResults : Prop :=
  (∀ (c : Cmd) (k n at_ : Nat) (s : State), k < 16 → n < 2 ^ 29 → at_ < 2 ^ 54 → c.part < 256 →
    c.par 0 = BitVec.ofNat 64 (k * 2 ^ 60 + n) → c.par 1 = BitVec.ofNat 64 at_ →
    let u := advanceTo s c.tick
    let pk := c.part * 16 + k
    let start := if at_ = 0 then boundaryAfter u.full 8192 else nearFull u at_
    accepts s c 0x48 2 = true → u.get F.gsta_gstate pk = 0 → u.full + 8192 ≤ start →
      4096 ∣ boundaryAfter u.full 8192 ∧ u.full + 8192 ≤ boundaryAfter u.full 8192 ∧ boundaryAfter u.full 8192 < u.full + 12288 ∧
      ∃ v, ends (.statsGateStart c) s c 0x48 v stOk 0 [BitVec.ofNat 64 (start % 2 ^ 54)] ∧ v = { u with regs := v.regs, gates := v.gates } ∧
        sameWords u v [wkey 8 1 pk, wkey 8 2 pk] ∧ v.get F.gsta_gstate pk = 1 ∧ v.get F.gsta_gates_left pk = n ∧ v.flag F.gsta_continuous pk = decide (n = 0) ∧
        v.get F.gstb_start pk = start % 2 ^ 54 ∧ v.gateList pk = u.gateList pk ++ [{ no := 0, s := start, len := 0 }]) ∧
  (∀ (c : Cmd) (k : Nat) (s : State), k < 16 → c.par 0 = BitVec.ofNat 64 (k * 2 ^ 60) →
    let u := advanceTo s c.tick
    let pk := c.part * 16 + k
    accepts s c 0x48 1 = true →
      (u.get F.gsta_gstate pk = 1 → ∃ v, ends (.statsGateStop c) s c 0x48 v stOk 0 [] ∧ v.get F.gsta_gstate pk = 0 ∧ v.get F.gsta_gates_left pk = 0 ∧
        v.gateList pk = (u.gateList pk).filter fun g => g.len ≠ 0) ∧
      (u.get F.gsta_gstate pk = 2 → (u.flag F.gsta_continuous pk = true ∨ u.get F.gsta_gates_left pk ≠ 0) →
        ∃ v, ends (.statsGateStop c) s c 0x48 v stOk 0 [] ∧ v = { u with regs := v.regs } ∧ sameWords u v [wkey 8 1 pk] ∧ v.get F.gsta_gstate pk = 3 ∧
          v.get F.gsta_gates_left pk = 0 ∧ v.flag F.gsta_continuous pk = u.flag F.gsta_continuous pk ∧ v.get F.gsta_gate_no pk = u.get F.gsta_gate_no pk) ∧
      (u.get F.gsta_gstate pk = 0 → ends (.statsGateStop c) s c 0x48 u stOk 0 [])) ∧
  (∀ (part k : Nat) (g : Gate) (s : State),
    let pk := part * 16 + k
    (s.gateList pk).getLast? = some g →
    (s.get F.gsta_gstate pk = 1 →
      let u := advanceFull s g.s
      ∃ t, exec (.gateStart part k) s = .next t ∧ t.tb = u.tb ∧ t.get F.gsta_gstate pk = 2 ∧ t.get F.gsta_gate_no pk = 0 ∧
        t.get F.gsta_gates_left pk = s.get F.gsta_gates_left pk - 1 ∧
        (t.gateList pk).getLast? = some { no := 0, s := g.s, len := u.getFor F.gprof_length pk g.s }) ∧
    (s.get F.gsta_gstate pk = 2 → (s.flag F.gsta_continuous pk = true ∨ s.get F.gsta_gates_left pk ≠ 0) →
      let u := advanceFull s (g.s + g.len)
      ∃ t, exec (.gateStart part k) s = .next t ∧ t.tb = u.tb ∧ t.get F.gsta_gstate pk = 2 ∧ t.get F.gsta_gate_no pk = (g.no + 1) % 2 ^ 32 ∧
        t.get F.gsta_gates_left pk = s.get F.gsta_gates_left pk - 1 ∧
        (t.gateList pk).getLast? = some { no := (g.no + 1) % 2 ^ 32, s := g.s + g.len, len := u.getFor F.gprof_length pk (g.s + g.len) }) ∧
    (s.get F.gsta_gstate pk = 3 ∨ (s.get F.gsta_gstate pk = 2 ∧ s.flag F.gsta_continuous pk = false ∧ s.get F.gsta_gates_left pk = 0) → g.len ≠ 0 → g.s + g.len < 2 ^ 70 →
      ∃ t, exec (.gateStart part k) s = .next t ∧ t.tb = (advanceFull s (g.s + g.len)).tb ∧ t.get F.gsta_gstate pk = 0 ∧ t.gates = s.gates)) ∧
  (∀ (tile part k : Nat) (g : Gate) (s : State),
    let pk := part * 16 + k
    s.dueGate tile pk = some g → (∀ c ∈ s.gateChans tile pk g, ∀ r, s.refOf c g = some r → s.refReady (chanTile r) g = true) →
    ∃ t, exec (.gateComplete tile part k) s = .next t ∧ t.gateIsDone tile pk g = true ∧ t.tb = s.tb ∧
      ∀ c ∈ s.gateChans tile pk g, mget [] t.lastStats c = (if 1 ≤ (s.accOf c pk g).n then statsWords s c pk g else [])) ∧
  (∀ (c : Cmd) (ch : Nat) (s : State), ch < 5 * 2 ^ 20 → c.par 0 = BitVec.ofNat 64 ch →
    let u := advanceTo s c.tick
    accepts s c 0x49 1 = true → (c.part = 0 ∨ u.getLatest F.chan_part ch = c.part) → u.chanGone ch u.full = false → u.domOn (tileDomain (chanTile ch)) = true →
    u.statsOn ch u.full = true →
      (∀ w ws, mget [] u.lastStats ch = w :: ws → ends (.statsReadLast c) s c 0x49 u stOk 0 (w :: ws)) ∧
      (mget [] u.lastStats ch = [] → exec (.statsReadLast c) s = .next (finish u c 0x49 stNoResource 0 [])) ∧
      (∀ g, u.runningGate ch = some g →
        let a := u.accOf ch (u.profileOf ch u.full) g
        ends (.statsReadRunning c) s c 0x49 u stOk 0 [pack [(63, 32, g.no), (31, 0, a.n)], BitVec.ofNat 64 a.t1,
          pack [(63, 48, a.t1 / 2 ^ 64), (47, 0, a.t2 / 2 ^ 64)], BitVec.ofNat 64 a.t2]) ∧
      (u.runningGate ch = none → ends (.statsReadRunning c) s c 0x49 u stOk 0
        [pack [(63, 32, u.get F.gsta_gate_no (u.profileOf ch u.full))], 0#64, 0#64, 0#64]))

/-- For n edges, n at least 2, of which the first lies at a and each next one p later, the sums of R254 give by R256 exactly the period p, and the fitted first edge a, each in 2^-20 fine LSB. -/
def Obligations.EvenTrainGivesItsPeriod : Prop :=
  ∀ (n p a gate : Nat), 2 ≤ n → p < 2 ^ 44 → a < 2 ^ 43 →
    let x : Acc := { Acc.start gate none with n := n, t1 := sumOver (fun i => a + i * p) (upTo 0 n), t2 := sumOver (fun i => i * (a + i * p)) (upTo 0 n) }
    gateP x = p * 2 ^ 20 ∧ (0 < p → x.fits = true) ∧ gateAField x = a * 2 ^ 20

/-! ### Triggers and segments -/

/-- An accepted TRIG_ARM of a DISARMED definition, with a descriptor and a buffer quota and an Oasis, is answered with its boundary and waits for it; TRIG_DISARM ends the armed window at a boundary; at each boundary the definition is ARMED, or DISARMED with nothing left. TRIG_FORCE of an armed definition with force_src makes a candidate at the present or at the time ahead that it names. A TRIG_IN pin that changes to its active level and holds it for tin_filter ticks after its first sample makes one at that sample, also where the edge of another pin has been judged since, for each definition whose mask and window take it; where it holds it for less the pin stays as it was, and a change to the other level is noted alone. A condition candidate of closed caravans crosses from its core die, marked as missed within the re-arm time of the last one forwarded. The first candidate of a definition, once all before it are known, is taken when it lies in a window, beyond the re-arm time, with a segment and a descriptor left: a segment with its time is taken and counted, and its window has one fewer to take and ends with the last; otherwise it is counted as missed. Outside every window it is dropped. -/
def Obligations.TriggersAndCandidates : Prop :=
  (∀ (c : Cmd) (d n : Nat) (s : State), d < 8 → n < 2 ^ 29 →
    let u := advanceTo s c.tick
    let i := c.part * 16 + d
    let b := boundaryAfter u.full 8192
    let reply := [BitVec.ofNat 64 (b % 2 ^ 54)]
    (accepts s c 0x40 1 = true → c.par 0 = BitVec.ofNat 64 (d * 2 ^ 61 + n) → u.get F.trsa_tstate i = 0 →
      u.get F.segp_desc_quota (c.part * 16) ≠ 0 → u.get F.segp_buf_quota (c.part * 16) ≠ 0 → u.get F.segg_oasis_gib 0 ≠ 0 →
      ∃ v, ends (.trigArm c) s c 0x40 v stOk 0 reply ∧ v = { u with regs := v.regs, defs := v.defs } ∧ sameWords u v [wkey 6 3 i] ∧
        v.get F.trsa_tstate i = 1 ∧ v.get F.trsa_left i = n ∧ v.flag F.trsa_continuous i = decide (n = 0) ∧
        (v.tdef c.part d).wins.getLast? = some { start := b * 1024, stop := none, left := if n = 0 then none else some n } ∧ (v.tdef c.part d).cands = (u.tdef c.part d).cands) ∧
    (∀ w, accepts s c 0x41 1 = true → c.par 0 = BitVec.ofNat 64 (d * 2 ^ 61) → (u.tdef c.part d).wins.getLast? = some w →
      u.get F.trsa_tstate i = 1 ∨ u.get F.trsa_tstate i = 2 →
      ∃ v, ends (.trigDisarm c) s c 0x41 v stOk 0 reply ∧ v.get F.trsa_tstate i = 3 ∧
        (v.tdef c.part d).wins.getLast? = some { w with stop := some (min (b * 1024) (w.stop.getD (b * 1024))) }) ∧
    (accepts s c 0x41 1 = true → c.par 0 = BitVec.ofNat 64 (d * 2 ^ 61) → u.get F.trsa_tstate i = 0 → ends (.trigDisarm c) s c 0x41 u stOk 0 reply) ∧
    (accepts s c 0x42 2 = true → c.par 0 = BitVec.ofNat 64 (d * 2 ^ 61) →
      let time := if c.par 1 = 0#64 then u.nowFine else nearFine u (c.par 1).toNat
      u.nowFine ≤ time → ((u.tdef c.part d).window time).isSome = true → u.get F.trsa_tstate i = 2 → u.flag F.trig_force_src i = true →
      ∃ v, ends (.trigForce c) s c 0x42 v stOk 0 [BitVec.ofNat 64 time] ∧ v = { u with defs := v.defs } ∧
        { time := time, source := 0, chan := 0, miss := false } ∈ (v.tdef c.part d).cands)) ∧
  (∀ (pin at_ held : Nat) (high : Bool) (s : State), pin < 8 →
    let first := max at_ (s.tb.tick - s.getFor F.trigg_tin_filter 0 s.full)
    let u := advanceTo s first
    let full := u.full - (u.tb.tick - first)
    let n := u.getFor F.trigg_tin_filter 0 full
    let active := Nat.testBit (u.getFor F.trigg_tin_pol 0 full) pin != high
    (Nat.testBit s.tin pin = high ∨ held = 0 → exec (.trigInEdge pin at_ held high) s = .next u) ∧
    (Nat.testBit s.tin pin ≠ high → 0 < held →
      let other := fun (t : State) => Nat.testBit t.tin pin = high ∧ ∀ k, k ≠ pin → Nat.testBit t.tin k = Nat.testBit s.tin k
      (active = false → ∃ t, exec (.trigInEdge pin at_ held high) s = .next t ∧ t = { u with tin := t.tin } ∧ other t) ∧
      (active = true → held ≤ n → exec (.trigInEdge pin at_ held high) s = .next (advanceTo u (first + held - 1))) ∧
      (active = true → n < held → ∃ t, exec (.trigInEdge pin at_ held high) s = .next t ∧ t = { advanceTo u (first + n) with tin := t.tin, defs := t.defs } ∧ other t ∧
        ∀ part d x, d < 8 → (part * 8 + d, x) ∈ s.defs →
          let mask := u.getFor F.trig_tin_mask (part * 16 + d) full
          (Nat.testBit mask pin = true → ((s.tdef part d).window (full * 1024)).isSome = true →
            { time := full * 1024, source := 8 + pin, chan := 0, miss := false } ∈ (t.tdef part d).cands) ∧
          (Nat.testBit mask pin = false → t.tdef part d = s.tdef part d)))) ∧
  (∀ (part d b : Nat) (s : State), b < 2 ^ 70 →
    let i := part * 16 + d
    (∀ w, (s.tdef part d).wins.getLast? = some w → w.start = b * 1024 → s.get F.trsa_tstate i = 1 →
      ∃ t, exec (.armBoundary part d) s = .next t ∧ t.get F.trsa_tstate i = 2 ∧ b ≤ t.full ∧ t.get F.trsa_left i = s.get F.trsa_left i) ∧
    (∀ w, (s.tdef part d).wins.getLast? = some w → w.stop = some (b * 1024) → s.get F.trsa_tstate i = 3 →
      ∃ t, exec (.disarmBoundary part d) s = .next t ∧ t.get F.trsa_tstate i = 0 ∧ b ≤ t.full ∧ t.get F.trsa_left i = 0 ∧ t.flag F.trsa_continuous i = false)) ∧
  (∀ (die c0 : Nat) (found : List Cand) (s : State), s.condDone die found = some c0 →
    (∀ u ∈ s.condTiles die, c0 ≤ s.k0 u * 4096) ∧ ∀ x ∈ found, s.tileLive (chanTile x.chan) = true → c0 ≤ s.k0 (chanTile x.chan) * 4096) ∧
  (∀ (die part d c0 : Nat) (x : Cand) (s : State), die < 5 → s.condDone die [x] = some c0 → s.coreOn die = true → mget 0 s.flt.awl (dieSource 15 1) = 0 → (s.coreDef die part d).found = [x] →
    let done := max (s.coreDef die part d).complete c0
    ∃ t, exec (.candidateForward die part d) s = .next t ∧ t = { s with defs := t.defs, coreDefs := t.coreDefs, flt := (linkDelivers s 15 die).flt } ∧
      (t.coreDef die part d).complete = done ∧
      (done * 1024 ≤ x.time → (t.coreDef die part d).found = [x] ∧ t.defs = s.defs) ∧
      (x.time < done * 1024 → ((s.tdef part d).window x.time).isSome = true → (t.coreDef die part d).found = [] ∧
        ((∀ l, (s.coreDef die part d).lastFwd = some l → l + s.rearm part d x.time ≤ x.time) →
          (t.coreDef die part d).lastFwd = some x.time ∧ x ∈ (t.tdef part d).cands) ∧
        (∀ l, (s.coreDef die part d).lastFwd = some l → x.time < l + s.rearm part d x.time →
          (t.coreDef die part d).lastFwd = some l ∧ { x with miss := true } ∈ (t.tdef part d).cands))) ∧
  (∀ (part d : Nat) (w : ArmWin) (x : Cand) (rest : List Cand) (s : State), part < 256 → d < 8 →
    let i := part * 16 + d
    let y := s.tdef part d
    let full := x.time / 1024
    let known := (∀ k ∈ s.feedDies part d, x.time < s.reported k part d (full + 1) * 1024) ∧ full + s.tinLag part d full < s.full
    y.cands = x :: rest →
    (¬ known → exec (.candidateJudge part d) s = .next s) ∧
    (known → y.window x.time = none → ∃ t, exec (.candidateJudge part d) s = .next t ∧ t = { s with defs := t.defs } ∧ (t.tdef part d).cands = rest) ∧
    (known → y.window x.time = some w →
    let near : Bool := match y.last with
      | some l => decide (x.time < l + s.rearm part d x.time)
      | none => false
    (∀ n, x.miss = false → near = false → y.outstanding < 256 → s.freeDesc part = some n →
      ∃ t g, exec (.candidateJudge part d) s = .next t ∧ mfind t.segs n = some g ∧ g.time = x.time ∧ g.part = part ∧ g.d = d ∧ g.source = x.source ∧
        g.built = false ∧ g.tiles = s.segTiles part d (x.time / 1024) ∧ (t.tdef part d).last = some x.time ∧
        (t.tdef part d).outstanding = y.outstanding + 1 ∧
        (∀ m, w.left = some m → (if m ≤ 1 then { w with stop := some (min x.time (w.stop.getD x.time)), left := some 0 } else { w with left := some (m - 1) }) ∈ (t.tdef part d).wins) ∧
        t.get F.trsa_trig_no i = (s.get F.trsa_trig_no i + 1) % 2 ^ 32 ∧
        t.get F.trsb_missed i = s.get F.trsb_missed i) ∧
    ((x.miss = true ∨ near = true ∨ 256 ≤ y.outstanding ∨ s.freeDesc part = none) →
      ∃ t, exec (.candidateJudge part d) s = .next t ∧ t.segs = s.segs ∧ t.get F.trsb_missed i = (s.get F.trsb_missed i + 1) % 2 ^ 48 ∧
        (t.tdef part d).cands = rest ∧ (t.tdef part d).outstanding = y.outstanding ∧ (t.tdef part d).last = y.last)))

/-- A segment whose contributing tiles have all closed the caravan of its end is built from the pieces of their histories, in the order of time and channel, with the latest history start of its tiles as its own, and is placed unless a piece waits for buffers. A waiting piece is granted a buffer at a time; 10 µs without one drop the piece, counted, and its hits with it. SEG_READ of a held segment of the partition places its records without HELD; SEG_RELEASE, its form for all of the partition, and the end of a hold free its descriptor and its buffers. That a grant leaves the waits of the other pieces as they were, and that the count in the reply's detail stops at 32,767, are the model's choices (log 29). -/
def Obligations.SegmentsAndOasis : Prop :=
  (∀ (desc : Nat) (g : Seg) (s : State), mfind s.segs desc = some g → g.built = false → g.st = 0 → g.queue < 16384 → s.queueEn g.queue = true →
    (∀ n ∈ g.tiles, s.domOn (tileDomain n) = true ∧ s.tileGone n ((g.cut n).2 / 1024) = false ∧ s.segClosed g n = true) →
    let eh := g.tiles.foldl (fun m n => max m (s.tile n).eh) 0
    let g1 := { g with eSeg := eh }
    ∃ t h, exec (.segmentBuild desc) s = .next t ∧ mfind t.segs desc = some h ∧ h.built = true ∧ h.eSeg = eh ∧ h.tiles = g.tiles ∧ h.missing = 0 ∧
      List.Perm h.hits (g.tiles.flatMap (s.piece g1)) ∧ List.Pairwise (fun a b : THit => a.time < b.time ∨ (a.time = b.time ∧ a.chan ≤ b.chan)) h.hits ∧
      (h.st = 1 ↔ ∀ p ∈ t.pieces, p.desc ≠ desc)) ∧
  (∀ (desc tile : Nat) (p : PieceWait) (g : Seg) (s : State), (s.pieces.find? fun p => p.desc = desc && p.tile = tile) = some p → mfind s.segs desc = some g →
    g.queue < 16384 →
    let others := s.pieces.filter fun q => !(q.desc = desc && q.tile = tile)
    (0 < s.bufsFree g.part → p.lacks ≠ 1 → ∃ t, exec (.oasisBufferGrant desc tile) s = .next t ∧ t = { s with regs := t.regs, pieces := t.pieces, segs := t.segs, freeCount := t.freeCount } ∧
      t.pieces = others ++ [{ p with has := p.has + 1, lacks := p.lacks - 1, since := s.tb.tick }] ∧ sameWords s t [wkey 7 4 (g.part * 16)]) ∧
    (0 < s.bufsFree g.part → p.lacks = 1 → ∃ t, exec (.oasisBufferGrant desc tile) s = .next t ∧ t.pieces = others) ∧
    (s.bufsFree g.part = 0 → exec (.oasisBufferGrant desc tile) s = .next s) ∧
    (∃ t, exec (.oasisWaitTimeout desc tile) s = .next t ∧ t.pieces = others ∧
      t.get F.segb_oasis_empty (g.part * 16) = plus (advanceTo s (p.since + 16000)) F.segb_oasis_empty (g.part * 16) 1 ∧
      ((∃ q ∈ others, q.desc = desc) → ∃ h, mfind t.segs desc = some h ∧ h.hits = g.hits.filter (fun x => chanTile x.chan ≠ tile) ∧
        h.missing = Nat.lor g.missing (2 ^ (tile / 64))))) ∧
  (∀ (desc t0 : Nat) (g : Seg) (s : State), mfind s.segs desc = some g → g.part < 256 → g.st = 2 → g.deadline = some t0 →
    ∃ t, exec (.holdTimeout desc) s = .next t ∧ mfind t.segs desc = none ∧ t.get F.sega_held (g.part * 16) = s.get F.sega_held (g.part * 16) - 1 ∧
      t.get F.sega_desc_used (g.part * 16) = s.get F.sega_desc_used (g.part * 16) - 1 ∧ t.tb.tick = max s.tb.tick t0) ∧
  (∀ (c : Cmd) (n : Nat) (g : Seg) (s : State), n < 2 ^ 20 → c.par 0 = BitVec.ofNat 64 n →
    let u := advanceTo s c.tick
    mfind u.segs n = some g → (c.part = 0 ∨ g.part = c.part) → g.st = 2 →
      (accepts s c 0x43 1 = true → u.queueEn g.queue = true → ∃ v p, ends (.segRead c) s c 0x43 v stOk 0 [] ∧ v = { u with hqs := v.hqs } ∧
        (v.hq g.queue).place = (u.hq g.queue).place ++ [p] ∧ p.b = n ∧ p.recs = segRecs n g false g.hits none) ∧
      (accepts s c 0x44 1 = true → ∃ v, ends (.segRelease c) s c 0x44 v stOk 1 [] ∧ v = { u with regs := v.regs, segs := v.segs } ∧
        sameWords u v [wkey 7 3 (g.part * 16), wkey 7 4 (g.part * 16)] ∧ mfind v.segs n = none ∧ (∀ k, k ≠ n → mfind v.segs k = mfind u.segs k) ∧
        v.get F.sega_held (g.part * 16) = u.get F.sega_held (g.part * 16) - 1)) ∧
  (∀ (c : Cmd) (s : State), c.par 0 = 0x8000000000000000#64 →
    let u := advanceTo s c.tick
    accepts s c 0x44 1 = true → msorted u.segs = true →
      ∃ v, ends (.segReleaseAll c) s c 0x44 v stOk (min 32767 (u.segs.filter fun e => e.2.part = c.part && e.2.st = 2).length) [] ∧
        (∀ n g, mfind u.segs n = some g → mfind v.segs n = (if g.part = c.part ∧ g.st = 2 then none else some g)) ∧
        v = { u with regs := v.regs, segs := v.segs })


/-! ### Host queues and host lanes -/

/-- QUEUE_FLUSH of a queue that the partition may flush and that no flush is pending for is taken without a reply, and leaves the rest as it was; with a flush pending it is refused. QUEUE_STATUS answers the status words of the queue named. With no record of the queue partly sent the flush takes effect on every record held: with nothing, or a new unit, coming in it ends with its reply, and otherwise it goes on to the last record of the unit that comes in. A record on its way to a queue whose home cluster is off is lost. A record that crosses to an enabled queue joins the tail when it finds room and is counted as dropped when not; one for a disabled queue is dropped; one of a unit being flushed is counted as flushed; the records of a caravan are counted, and its last one carries the counts. A caravan whose first record finds no room is lost and counted. A spill write moves one line to the middle when the registers are full, there is quota, the stack is on and no queue that has waited longer must go first, waits for the Erg no longer, and changes no record. -/
def Obligations.QueueCommandsAndRecords : Prop :=
  (∀ (c : Cmd) (q : Nat) (s : State), q < 16384 → c.par 0 = BitVec.ofNat 64 q → accepts s c 0x50 1 = true →
    let u := advanceTo s c.tick
    (c.part = 0 ∨ c.part = q / 64) → u.domOn (4 * u.queueDie q) = true →
      ((u.hq q).flush = none → exec (.queueFlush c) s = .next ((u.setHq q { u.hq q with flush := some c, flushCount := 0 }).satInc F.part3_accepted c.part 1)) ∧
      ((u.hq q).flush ≠ none → exec (.queueFlush c) s = .next (finish u c 0x50 stNoResource 0 []))) ∧
  (∀ (c : Cmd) (n : Nat) (s : State), n < 16384 → c.par 0 = BitVec.ofNat 64 n → accepts s c 0x52 1 = true →
    let u := advanceTo s c.tick
    let v := if u.flag F.qia_pressure n then pauseSettle u n else u
    (n < 1024 → c.part = 0 ∨ c.part = u.ownerOf (u.groupOf n) → ends (.queueStatusIngress c) s c 0x52 v stOk 0 [v.word 5 1 n, v.word 5 2 n, v.word 5 3 n, v.word 5 4 n]) ∧
    (c.part = 0 ∨ c.part = n / 64 → ends (.queueStatusHost c) s c 0x52 u stOk 0 [u.word 5 5 n, u.word 5 6 n, u.word 5 7 n, u.word 5 8 n]) ∧
    (n < 5 → ends (.queueStatusAnchor c) s c 0x52 u stOk 0 [u.word 5 9 n])) ∧
  (∀ (q : Nat) (c : Cmd) (s : State), q < 16384 →
    let h := s.hq q
    let n := h.recs.length
    let reply : Reply := { part := c.part, packets := [[replyHeader 0x50 c.part c.tag 1 stOk 0 0, BitVec.ofNat 64 n]], frees := false }
    h.flush = some c → h.flushing = false →
    (s.midRecord q = true → exec (.flushEffect q) s = .next s) ∧
    (s.midRecord q = false → ∃ t, exec (.flushEffect q) s = .next t ∧ (t.hq q).recs = [] ∧ t.get F.qhb_flushed q = plus s F.qhb_flushed q n ∧ t.tb = s.tb ∧
      (∀ r rest, h.incoming = r :: rest → r.first = false → (t.hq q).flushing = true ∧ (t.hq q).flush = some c ∧ (t.hq q).flushCount = n ∧
        t.cmd.smpOut = s.cmd.smpOut) ∧
      ((∀ r rest, h.incoming = r :: rest → r.first = true) → (t.hq q).flushing = false ∧ (t.hq q).flush = none ∧
        (c.lane = none → t.cmd.smpOut = s.cmd.smpOut ++ [reply]) ∧
        (∀ l, c.lane = some l → s.laneUp l = true → (t.hlane l).replies = (s.hlane l).replies ++ [reply])))) ∧
  (∀ (q : Nat) (spill : Bool) (r : Rec) (rest : List Rec) (s : State), q < 16384 →
    let h := s.hq q
    let fits := (s.setHq q { h with incoming := rest, stalled := spill }).fits q
    h.incoming = r :: rest →
    (s.domOn (4 * s.queueDie q) = false → ∃ t, exec (.hostRecordWrite q spill) s = .next t ∧ t.tb = s.tb ∧ (t.hq q).recs = h.recs ∧ (t.hq q).incoming = rest) ∧
    (s.domOn (4 * s.queueDie q) = true → mget 0 s.flt.awl (dieSource (8 + s.queueDie q) 1) = 0 →
    ∃ t, exec (.hostRecordWrite q spill) s = .next t ∧ t.tb = s.tb ∧
      (s.queueEn q = false → (t.hq q).recs = h.recs ∧
        (s.get F.qha_fill q = h.lines 0 → (t.hq q).incoming = rest ∧ t.get F.qhb_rec_dropped q = plus s F.qhb_rec_dropped q 1)) ∧
      (s.queueEn q = true → h.flushing = true → r.first = false → r.last = false → (t.hq q).recs = h.recs ∧ (s.get F.qha_fill q = h.lines 0 → (t.hq q).incoming = rest) ∧
        (t.hq q).flushCount = h.flushCount + 1 ∧ t.get F.qhb_flushed q = plus s F.qhb_flushed q 1) ∧
      (h.flushing = true → r.first = false → r.last = true → h.flush.isSome = true → (t.hq q).flush = none ∧ (t.hq q).flushing = false) ∧
      (s.queueEn q = true → h.flushing = false → h.inCaravan = false → (r.first = false ∨ bits (r.words.headD 0#64) 63 60 ≠ 2) → (h.dropping = false ∨ r.first = true) →
        (fits 0 r = true → (t.hq q).recs = (h.push r).recs ∧ (t.hq q).wp = h.wp + r.words.length ∧ t.get F.qhb_rec_dropped q = s.get F.qhb_rec_dropped q) ∧
        (fits 0 r = false → (t.hq q).recs = h.recs ∧ t.get F.qhb_rec_dropped q = plus s F.qhb_rec_dropped q 1 ∧ t.flag F.qha_overrun q = true ∧
          (t.hq q).dropping = !r.last)) ∧
      (s.queueEn q = true → h.flushing = false → r.first = true → bits (r.words.headD 0#64) 63 60 = 2 → (t.hq q).inCaravan = true ∧
        (fits 2 r = true → (t.hq q).recs = (h.push r).recs ∧ (t.hq q).wp = h.wp + r.words.length ∧ (t.hq q).caravanLost = false ∧ (t.hq q).sent = 0 ∧ (t.hq q).lost = 0) ∧
        (fits 2 r = false → (t.hq q).recs = h.recs ∧ (t.hq q).caravanLost = true ∧ t.get F.qhs_caravans_lost q = plus s F.qhs_caravans_lost q 1)) ∧
      (s.queueEn q = true → h.flushing = false → h.inCaravan = true → h.caravanLost = false → r.first = false →
        (r.last = false → h.dropping = false → fits 0 r = true → (t.hq q).recs = (h.push r).recs ∧ (t.hq q).wp = h.wp + r.words.length ∧ (t.hq q).sent = h.sent + 1) ∧
        (r.last = false → (h.dropping = true ∨ fits 0 r = false) → (t.hq q).recs = h.recs ∧ (t.hq q).lost = h.lost + 1 ∧ (t.hq q).dropping = true) ∧
        (r.last = true → fits 2 (h.closeRec r) = true → (t.hq q).recs = (h.push (h.closeRec r)).recs ∧ (t.hq q).inCaravan = false) ∧
        (r.last = true → fits 2 (h.closeRec r) = false → t.get F.qhs_caravans_lost q = plus s F.qhs_caravans_lost q 1 ∧ (t.hq q).inCaravan = false)))) ∧
  (∀ (n : Nat) (s : State), n < 16384 →
    let h := s.hq n
    let x := s.ing n
    let quota := 16384 * s.get F.qhc_quota n
    let quotas := 16384 * sumOver (fun l => s.get F.qic_erg_quota l) (s.span n)
    let turn := fun (die me : Nat) => s.granted (2 + die) (s.spillPorts die) (s.spillers die) me = me
    (turn (s.queueDie n) (2 * n + 1) → s.get F.qha_fill n = h.lines 0 → 8 + h.mid < h.lines 0 → 8 ≤ h.lines 0 → h.mid < quota → h.linesLost ≤ 14 → s.stackOn (s.queueDie n) = true →
      ∃ t, exec (.spillWrite 1 n) s = .next t ∧ t.tb = s.tb ∧ t.hq n = { h with mid := max (h.mid + 1) (h.lines 0 - regLines h.linesLost), stalled := false } ∧
        (t.flag F.qha_full n = true ↔ s.hqCapacity n < h.lines 1)) ∧
    (s.get F.qha_fill n ≤ 8 + h.mid ∨ quota ≤ h.mid ∨ s.stackOn (s.queueDie n) = false → exec (.spillWrite 1 n) s = .next s) ∧
    (turn (n / 256) (2 * n) → s.get F.qis_fill n = x.lines 0 → 8 + x.mid < x.lines 0 → x.mid < quotas → x.linesLost ≤ 14 → s.stackOn (n / 256) = true →
      ∃ t, exec (.spillWrite 0 n) s = .next t ∧ t.tb = s.tb ∧ (t.ing n).mid = max (x.mid + 1) (x.lines 0 - regLines x.linesLost) ∧ (t.ing n).stalled = false ∧
        (t.ing n).frames = x.frames ∧ (t.flag F.qia_full n = true ↔ s.ingCapacity n < x.lines 1)) ∧
    (s.get F.qis_fill n ≤ 8 + x.mid ∨ quotas ≤ x.mid ∨ s.stackOn (n / 256) = false → exec (.spillWrite 0 n) s = .next s))

/-- A host-facing lane that is UP, its transmitter driven, sends the next packet of its oldest reply where no record's turn comes between: none is owed one, a reply has waited for 16 flits, or there is none to send; with the last packet of a reply that frees it the partition's channel is free; no queue changes. Otherwise it takes the records of the queue of its turn, in a frame named for the queue, filled up with null words, of 64 words, or of one flit of 4 while replies wait, which count its flits. What is left of a record leaves with the next frame. A record with an uncorrectable word is not sent, and counts in rec_ecc and rec_dropped; corrected words are counted. With no reply and no record it sends an IDLE record with the epoch and device time, not before 4,096 ticks after the last. -/
def Obligations.HostLanesSend : Prop :=
  ∀ (l : Nat) (s : State), l < 1024 → s.host l = true → s.laneUp l = true →
    let x := s.hlane l
    let wait := x.replies ≠ [] ∧ (x.owed = false ∨ (∃ r ∈ x.replies, 16 ≤ r.flits) ∨ s.turnOf l = none)
    let out := fun (t : State) (kind low : Nat) (ws : List Word) => let start := frameStart x.txSeq kind low
      noFill t.out = noFill s.out ++ (if s.drives then [.hostFrame l start ws (frameEnd start ws) (s.group (s.groupOf l)).dealt] else [])
    let room := if x.replies = [] then 64 else 4
    let sends := fun (t : State) (q : Nat) (ws : List Word) =>
      out t 5 (q * 2 ^ 22 + ((ws.length - 1) % 4 + 1) * 8 * 2 ^ 16) (ws ++ List.replicate (ceilDiv ws.length 4 * 4 - ws.length) 0#64) ∧
      (t.hlane l).turn = q + 1 ∧ (t.hlane l).queue = q ∧ (t.hlane l).owed = false ∧
      (t.hlane l).replies = x.replies.map (fun r => { r with flits := r.flits + ceilDiv ws.length 4 })
    (∀ (corrected : Nat) (bad : Bool) (r : Reply) (rest : List Reply) (p : List Word), wait → x.replies = r :: rest →
      (∀ (q : List Word) (ps : List (List Word)), r.packets = p :: q :: ps →
        ∃ t, exec (.hostLaneSend l corrected bad) s = .next t ∧ t = { s with hlanes := t.hlanes, lanes := t.lanes, groups := t.groups, out := t.out } ∧
          (t.hlane l).replies = { r with packets := q :: ps } :: rest ∧ (t.hlane l).owed = true ∧ out t 7 0 p) ∧
      (r.packets = [p] →
        ∃ t, exec (.hostLaneSend l corrected bad) s = .next t ∧ t = { s with hlanes := t.hlanes, lanes := t.lanes, groups := t.groups, out := t.out, cmd := t.cmd } ∧
          (t.hlane l).replies = rest ∧ (t.hlane l).owed = true ∧ out t 7 0 p ∧ (r.frees = true → (t.chan r.part).op = 0xFF) ∧ (r.frees = false → t.cmd = s.cmd))) ∧
    (∀ (q left corrected : Nat) (r : Rec), ¬ wait → s.turnOf l = some (q, left) → left ≠ 0 → x.rest = [] → (s.hq q).recs = [r] →
      (mget 0 s.flt.awl (0x4000 + q) = 0 → (s.hq q).mid = 0 ∨ mget 0 s.flt.awl (dieSource (8 + s.queueDie q) 5) = 0 → r.words ≠ [] →
        ∃ t, exec (.hostLaneSend l corrected false) s = .next t ∧ (t.hq q).recs = [] ∧ sends t q (r.words.take room) ∧ (t.hlane l).rest = r.words.drop room ∧
          t.get F.qha_ecc_corr q = plus s F.qha_ecc_corr q (min corrected (min room r.words.length))) ∧
      (r.last = true → ∃ t, exec (.hostLaneSend l corrected true) s = .next t ∧ (t.hq q).recs = [] ∧ t.out = s.out ∧
        t.get F.qhs_rec_ecc q = plus s F.qhs_rec_ecc q 1 ∧ t.get F.qhb_rec_dropped q = plus s F.qhb_rec_dropped q 1)) ∧
    (∀ (corrected : Nat) (bad : Bool), ¬ wait → room ≤ x.rest.length ∨ (x.rest ≠ [] ∧ (x.left = 0 ∨ (s.hq x.queue).recs = [])) →
      ∃ t, exec (.hostLaneSend l corrected bad) s = .next t ∧ sends t x.queue (x.rest.take room) ∧ (t.hlane l).rest = x.rest.drop room ∧
        (t.hq x.queue).recs = (s.hq x.queue).recs) ∧
    (x.replies = [] → s.turnOf l = none → (∀ corrected bad, exec (.hostLaneSend l corrected bad) s = .next s) ∧
      ∃ t, exec (.idleRecord l) s = .next t ∧ (t.hlane l).idleAt = some t.tb.tick ∧ (∀ i, x.idleAt = some i → t.tb.tick = max s.tb.tick (i + 4096)) ∧
        (x.idleAt = none → t.tb = s.tb) ∧
        out t 5 (16 * 2 ^ 16 + 2 ^ 15) [pack [(15, 0, t.tb.epoch.toNat)], devWord t.nowFine, 0#64, 0#64])


/-! ### Faults -/

/-- FAULT_READ of a source answers its configuration word and its status words, and FAULT_HISTORY the entries held, oldest first; neither changes anything. FAULT_CLEAR of a source in CLEAR changes nothing; one whose cause is present is answered ST_CAUSE_PRESENT and left as it is; any other goes to CLEAR without a timer and no longer holds FAULT_N, and with it ends the isolation of its group, for which the waiting is shown anew. AWL of a source with a checker sets that checker's count and nothing else. -/
def Obligations.FaultCommands : Prop :=
  ∀ (c : Cmd) (n : Nat) (s : State),
    let u := advanceTo s c.tick
    (accepts s c 0x5A 0 = true → ends (.faultHistory c) s c 0x5A u stOk 0 (u.flt.history.flatMap fun e => [e.1, e.2])) ∧
    (isSource n = true → c.par 0 = BitVec.ofNat 64 n →
      (accepts s c 0x58 1 = true → ends (.faultRead c) s c 0x58 u stOk 0 [u.word 11 0 n, u.fsaWord n, u.word 11 2 n, u.word 11 3 n]) ∧
      (accepts s c 0x59 1 = true → (c.part = 0 ∨ c.part = u.sourceHolder n) →
        (u.get F.fsa_state n = 0 → ends (.faultClear c) s c 0x59 u stOk 0 []) ∧
        (u.get F.fsa_state n ≠ 0 → u.causePresent n = true → exec (.faultClear c) s = .next (finish u c 0x59 stCausePresent 0 [])) ∧
        (u.get F.fsa_state n ≠ 0 → u.causePresent n = false → ∃ v, ends (.faultClear c) s c 0x59 v stOk 0 [] ∧ v.get F.fsa_state n = 0 ∧
          (v.src n).timer = none ∧ v.flt.holders = u.flt.holders.filter (· ≠ n) ∧ v.flt.history = u.flt.history ∧ v.flt.inflight = u.flt.inflight ∧
          (isIsolation n = false → v = { u with regs := v.regs, flt := v.flt } ∧ sameWords u v [wkey 11 1 n]) ∧
          (isIsolation n = true → v = { u with regs := v.regs, flt := v.flt, groups := v.groups } ∧ v.group (n - 0x0800) = { u.group (n - 0x0800) with isolated := false } ∧
            (∀ g, g ≠ n - 0x0800 → v.group g = u.group g) ∧ ∀ l ∈ u.span (n - 0x0800), v.get F.ltsb_isolated l = 0)))) ∧
    (∀ k, k < 65536 → hasChecker n = true → c.par 0 = BitVec.ofNat 64 (n * 2 ^ 48 + k) → accepts0 s c 0x5B 1 = true →
      (u.flag F.fsa_retired n = true → exec (.awl c) s = .next (finish u c 0x5B stRetired 0 [])) ∧
      (u.flag F.fsa_retired n = false → u.srcOff n = true → exec (.awl c) s = .next (finish u c 0x5B stNoResource 0 [])) ∧
      (u.flag F.fsa_retired n = false → u.srcOff n = false → ∃ v, ends (.awl c) s c 0x5B v stOk 0 [] ∧
        v = { u with flt := { u.flt with awl := v.flt.awl } } ∧ mget 0 v.flt.awl n = k ∧ ∀ m, m ≠ n → mget 0 v.flt.awl m = mget 0 u.flt.awl m))

namespace Sys2Proof.Claims

open Sys2Proof.Machine

/-- The times of the faults counted before against the element of a fault, oldest first (R431, R433). -/
def countedBefore (s : State) (r : FaultRep) : List Nat :=
  if r.cause = 0x17 then (((mget [] s.flt.slotRegs r.source).find? fun e => e.slot = r.sub).map fun e => e.times).getD []
  else mget [] s.flt.counted (elementKey r.source r.sub)

/-- The source of a lane or of an interpolator, which is retired whole (R418). -/
def wholeElement (n : Nat) : Bool := decide (n ≤ 0x03FF) || decide (0x0C00 ≤ n ∧ n ≤ 0x11FF)

/-- The source of an element that cannot be retired: group isolation, calibration, the time base (R418). -/
def neverRetired (n : Nat) : Bool := isIsolation n || decide (0x1200 ≤ n ∧ n ≤ 0x17FF) || decide (0x9000 ≤ n)

end Sys2Proof.Claims

/-- A fault crosses the Saddle to the anchor die. The collector takes the fault on its way that is named, or first that of another source which could wait no longer (R22, log 8). One that reaches a source which is not in CLEAR is lost. One that reaches a source in CLEAR is accepted: it is counted and dated, holds the severity in force, is entered in the history, starts a pulse of FAULT_N where the source has one, and opens the source with its timer unless it is a NOTE without a lasting cause that is no isolation. It is permanent when it and the two counted before it against its element lie within the window; with retire_en a lane or an interpolator is then retired and written down for the record, an ingress or host queue loses a register line, each with a second entry of action 2, and an element that cannot be retired has the verdict alone. At the expiry of its timer an open CORRECTED source goes to CLEAR unless its cause is present or it is an isolation; a DEGRADE source goes to ACTED, a lane or an interpolator with retire_en being retired, and one that may not or cannot be retired, or that the verdict on the same fault has retired, with action 5 entered; a FATAL one goes to ACTED and cycles the domains of its element that are on, one that is being switched off going off, or holds FAULT_N where none holds it. An open source without a timer goes to CLEAR when its cause ends, and a pulse ends at its time. -/
def Obligations.FaultsFromAcceptanceToEnd : Prop :=
  (∀ (idx : Nat) (r : FaultRep) (s : State), s.flt.inflight[idx]? = some r →
    exec (.faultRaise idx) s = exec (.faultRaise (s.faultNext r idx)) s ∧ s.faultNext r idx < s.flt.inflight.length ∧
    (s.flt.inflight.length = 1 → s.faultNext r idx = idx)) ∧
  (∀ (idx : Nat) (r : FaultRep) (s : State), s.flt.inflight[idx]? = some r → s.faultNext r idx = idx → isSource r.source = true → r.cause < 256 → mget 0 s.flt.awl (dieSource 15 1) = 0 →
    let n := r.source
    let sev := s.get F.fsc_sev n
    let seq := s.get F.fgs_next_seq 0
    let u := noteGrant (if s.sourceDie n = 15 then s else linkDelivers s 15 (s.sourceDie n)) 1 (distinct (s.flt.inflight.map fun x => x.source)) n
    let rest := s.flt.inflight.eraseIdx idx
    let before := countedBefore s r
    let perm : Bool := decide (2 ≤ before.length) && decide (s.tb.tick ≤ before.getD (before.length - 2) 0 + s.get F.fgc_window 0 * 16000000)
    let last := fun (t : State) (a : Nat) => ∃ w, t.flt.history.getLast? = some (w, devWord s.nowFine) ∧ bits w 63 48 = n ∧ bits w 47 46 = sev ∧ bits w 45 38 = r.cause ∧
      bits w 37 35 = a ∧ bits w 34 34 = b2n perm
    (s.get F.fsa_state n ≠ 0 → exec (.faultRaise idx) s = .next { u with flt := { u.flt with inflight := rest } }) ∧
    (s.get F.fsa_state n = 0 → ∃ t, exec (.faultRaise idx) s = .next t ∧ t.tb = s.tb ∧ t.get F.fsa_sev_held n = sev ∧ t.get F.fsa_last_cause n = r.cause ∧
        t.get F.fsa_accepted n = plus s F.fsa_accepted n 1 ∧ t.get F.fgs_accepted_all 0 = plus s F.fgs_accepted_all 0 1 ∧ t.word 11 2 n = devWord s.nowFine ∧
        t.flt.history.length ≤ 32 ∧
        (s.flag F.fsc_pulse_en n = true → t.flt.pulseEnd = some (s.tb.tick + s.get F.fgc_pulse_us 0 * 1600)) ∧
        (s.flag F.fsc_pulse_en n = false → t.flt.pulseEnd = s.flt.pulseEnd) ∧
        (sev ≠ 0 → t.get F.fsa_state n = 1 ∧ (t.src n).timer = some (s.tb.tick + s.get F.fsc_esc_ms n * 1600000)) ∧
        (sev = 0 → isIsolation n = true → t.get F.fsa_state n = 1) ∧
        (sev = 0 → firstRecovery r.cause = true → isIsolation n = false → t.get F.fsa_state n = 0) ∧
        (sev = 0 → r.cause = 0x16 → (s.src n).present = true → t.get F.fsa_state n = 1) ∧
        (perm = true → t.flag F.fsa_permanent n = true) ∧ (perm = false → t.get F.fsa_permanent n = s.get F.fsa_permanent n) ∧
        (perm = false ∨ s.flag F.fsc_retire_en n = false ∨ neverRetired n = true → t.grants = u.grants ∧ t.flt.inflight = rest ∧ t.flt.toRecord = s.flt.toRecord ∧
          t.get F.fgs_next_seq 0 = (seq + 1) % 2 ^ 19 ∧ last t (b2n (firstRecovery r.cause)) ∧
          ∃ w, t.flt.history.getLast? = some (w, devWord s.nowFine) ∧ bits w 33 33 = b2n r.injected ∧ bits w 18 0 = seq) ∧
        (perm = true → s.flag F.fsc_retire_en n = true →
          (wholeElement n = true → s.flag F.fsa_retired n = false → t.flag F.fsa_retired n = true ∧ last t 2 ∧ retireEntry n 0 0 ∈ t.flt.toRecord) ∧
          (0x0400 ≤ n → n < 0x0800 → (s.ing (n - 0x0400)).linesLost < 14 → (t.ing (n - 0x0400)).linesLost = (s.ing (n - 0x0400)).linesLost + 1 ∧ last t 2) ∧
          (0x4000 ≤ n → n < 0x8000 → (s.hq (n - 0x4000)).linesLost < 14 → (t.hq (n - 0x4000)).linesLost = (s.hq (n - 0x4000)).linesLost + 1 ∧ last t 2)))) ∧
  (∀ (n t0 : Nat) (s : State), isSource n = true → (s.src n).timer = some t0 →
    let u := advanceTo s t0
    let sev := s.get F.fsa_sev_held n
    let last := fun (t : State) (a : Nat) => ∃ e, t.flt.history.getLast? = some e ∧ bits e.1 63 48 = n ∧ bits e.1 47 46 = sev ∧ bits e.1 37 35 = a
    ∃ t, exec (.escalationExpiry n) s = .next t ∧ t.tb = u.tb ∧ (t.src n).timer = none ∧
      (s.get F.fsa_state n ≠ 1 → t.get F.fsa_state n = s.get F.fsa_state n ∧ t.flt.history = s.flt.history) ∧
      (s.get F.fsa_state n = 1 →
        (sev = 1 → u.causePresent n = false → isIsolation n = false → t.get F.fsa_state n = 0) ∧
        (sev = 1 → u.causePresent n = true ∨ isIsolation n = true → t.get F.fsa_state n = 1) ∧
        (sev = 2 → t.get F.fsa_state n = 2 ∧ (s.flag F.fsc_retire_en n = false ∨ neverRetired n = true ∨ (s.src n).retired = true → last t 5) ∧
          (s.flag F.fsc_retire_en n = true → wholeElement n = true → (s.src n).retired = false → s.flag F.fsa_retired n = false → t.flag F.fsa_retired n = true ∧ last t 2)) ∧
        (sev = 3 → u.srcDomains n = [] → t.get F.fsa_state n = 2 ∧ n ∈ t.flt.holders ∧ last t 4) ∧
        (sev = 3 → u.srcDomains n ≠ [] → inRange s = true → t.get F.fsa_state n = 2 ∧ t.flt.holders = s.flt.holders ∧ last t 3 ∧
          ∀ d ∈ u.srcDomains n, u.domOn d = true → t.get F.pws_pstate d = (if s.get F.pws_pstate d = 4 then 0 else 5)))) ∧
  (∀ (n : Nat) (s : State), s.get F.fsa_state n = 1 → (s.src n).timer = none → isIsolation n = false →
    (s.causePresent n = false → exec (.causeEnd n) s = .next (s.put F.fsa_state n 0)) ∧ (s.causePresent n = true → exec (.causeEnd n) s = .next s)) ∧
  (∀ (t0 : Nat) (s : State), s.flt.pulseEnd = some t0 →
    let u := advanceTo s t0
    exec .faultNPulseEnd s = .next { u with flt := { u.flt with pulseEnd := none } } ∧
    (s.phase = 6 → s.pw.resetLow = false → s.tb.tick < t0 → s.faultN = false) ∧
    (s.phase = 6 → s.pw.resetLow = false → ({ u with flt := { u.flt with pulseEnd := none } } : State).faultN =
      (s.flt.holders.isEmpty && !s.pw.hotAnchor && !s.flag F.fgc_fault_n_sw 0)))

/-- A scrubber reads a place that holds a word, a pending count of Awl for it making it uncorrectable, and counts a corrected word of an ingress or host queue. An uncorrectable word of an ingress frame has it read again, and discards the frame when it fails again; one of a host record discards the record with the rest of its unit, counted and raised with cause 0x01. One among a channel's sums clears those of its open gate with LOST and PARTIAL until the next caravan boundary; one of a history line drops the line, in the ring or in the extension, its hits taken to lie 1 fine LSB before the next; one of a caravan store discards its hit, counted in data_lost. A bin table in force that is hit takes its interpolator to LOCK; a waiting table, a set in progress or the held first set is voided; a piece in the Oasis is dropped and frees its buffers; a stack that is available raises its source. What the place does not hold changes nothing. Packet failures on a Saddle link are counted by wire, and with the sixteenth of a link a fault names the sending die and a wire that failed most often; two dies without a link count none. A disagreement of voted cells raises its die's source, and a monitored quantity that leaves its limits its die's monitor, whose cause is present until it returns. A retirement is appended to both copies of the record while they have room. At the end of a power cycle each domain that it switched off and was on before is on again, except one of a die too hot, or whose needed domain is off, which is off; a POWER_DOMAIN that waited for the cycle is then checked. -/
def Obligations.DetectionsAndRecovery : Prop :=
  (∀ (g i : Nat) (s : State), g < 1024 →
    let at1 := i * 1024 + g
    ((s.ing g).frames[i]? = none → exec (.scrubRead 0 at1 true) s = .next s ∧ exec (.scrubRead 0 at1 false) s = .next s) ∧
    (∀ f, (s.ing g).frames[i]? = some f → mget 0 s.flt.awl (0x0400 + g) = 0 →
      (∃ t, exec (.scrubRead 0 at1 false) s = .next t ∧ t.get F.qib_ecc_corr g = plus s F.qib_ecc_corr g 1 ∧ t = { s with regs := t.regs, ingress := t.ingress } ∧
        (t.ing g).frames = (s.ing g).frames.map fun h => if h.seq = f.seq then { f with reread := false } else h) ∧
      (f.reread = false → ∃ t, exec (.scrubRead 0 at1 true) s = .next t ∧ t = { s with ingress := t.ingress } ∧
        (t.ing g).frames = (s.ing g).frames.map fun h => if h.seq = f.seq then { f with reread := true } else h) ∧
      (f.reread = true → ∃ t, exec (.scrubRead 0 at1 true) s = .next t ∧ (t.ing g).frames = (s.ing g).frames.filter (fun h => h.seq ≠ f.seq) ∧
        (f.stage ≠ 1 ∨ f.all = [] → t.get F.qis_frames_ecc g = plus s F.qis_frames_ecc g 1 ∧ t.get F.qia_drops g = plus s F.qia_drops g f.hits ∧ t.get F.fss_data_lost (0x0400 + g) = plus s F.fss_data_lost (0x0400 + g) f.hits ∧
          (s.srcOff (0x0400 + g) = false → t.flt.inflight = s.flt.inflight ++ [{ source := 0x0400 + g, cause := 0x01, sub := 0, injected := false }]))))) ∧
  (∀ (q i : Nat) (s : State), q < 16384 →
    let at1 := i * 16384 + q
    let h := s.hq q
    (h.recs.length ≤ i → exec (.scrubRead 1 at1 true) s = .next s ∧ exec (.scrubRead 1 at1 false) s = .next s) ∧
    (i < h.recs.length → mget 0 s.flt.awl (0x4000 + q) = 0 →
      ∃ t, exec (.scrubRead 1 at1 false) s = .next t ∧ t.get F.qha_ecc_corr q = plus s F.qha_ecc_corr q 1 ∧ onlyRegs s t) ∧
    (∀ r, h.recs[i]? = some r → mget 0 s.flt.awl (0x4000 + q) = 0 → ∃ t, exec (.scrubRead 1 at1 true) s = .next t ∧ t.tb = s.tb ∧
      (t.hq q).recs = h.recs.take i ++ (h.recs.drop (i + 1)).dropWhile (fun x => !x.first) ∧ t.get F.qhs_rec_ecc q = plus s F.qhs_rec_ecc q 1 ∧
      (r.last = true → (∀ x, h.recs[i + 1]? = some x → x.first = true) →
        (s.flag F.qhc_mode q = false ∨ s.queueEn (q / 64 * 64) = true → t.get F.qhb_rec_dropped q = plus s F.qhb_rec_dropped q 1) ∧
        (s.flag F.qhc_mode q = false → (t.hq q).incoming = h.incoming)) ∧
      (s.srcOff (0x4000 + q) = false → t.flt.inflight = s.flt.inflight ++ [{ source := 0x4000 + q, cause := 0x01, sub := 0, injected := false }]))) ∧
  (∀ (n line : Nat) (s : State), n < 320 → line < 4096 →
    let x := s.tile n
    let drop := fun (xs : List THit) => xs.take (8 * line) ++ xs.drop (8 * line + 8)
    let at1 := fun (xs next : List THit) => (next.head?.map fun h => h.time).getD (newest ((xs.drop (8 * line)).take 8) + 1)
    let lost := fun (t : State) (src : Nat) => s.srcOff src = false → t.flt.inflight = s.flt.inflight ++ [{ source := src, cause := 0x01, sub := 0, injected := false }]
    (x.ring.length ≤ 8 * line → exec (.scrubRead 2 (n * 2 ^ 24 + line) true) s = .next s) ∧
    (8 * line < x.ring.length → ∃ t, exec (.scrubRead 2 (n * 2 ^ 24 + line) true) s = .next t ∧
      t.tile n = { x with ring := drop x.ring, eh := max x.eh (at1 x.ring (x.ring.drop (8 * line + 8))) } ∧ t.word 4 7 n = devWord (t.tile n).eh ∧
      t.get F.fss_data_lost (s.tileSource n s.full) = plus s F.fss_data_lost (s.tileSource n s.full) (min 8 (x.ring.length - 8 * line)) ∧ (∀ m, m ≠ n → t.tile m = s.tile m) ∧ lost t (s.tileSource n s.full)) ∧
    (x.ext.length ≤ 8 * line → exec (.scrubRead 2 (n * 2 ^ 24 + 4096 + line) true) s = .next s) ∧
    (8 * line < x.ext.length → ∃ t, exec (.scrubRead 2 (n * 2 ^ 24 + 4096 + line) true) s = .next t ∧
      t.tile n = { x with ext := drop x.ext, extOn := x.extOn.eraseIdx line, eh := max x.eh (at1 x.ext (x.ext.drop (8 * line + 8) ++ x.ring)) } ∧
      t.word 4 7 n = devWord (t.tile n).eh ∧ (∀ m, m ≠ n → t.tile m = s.tile m) ∧ lost t (dieSource (8 + x.extOn.getD line 0) 5)) ∧
    (∀ i, i < 2 ^ 24 → (x.hits.length ≤ i → exec (.scrubRead 4 (n * 2 ^ 24 + i) true) s = .next s) ∧
      (i < x.hits.length → mget 0 s.flt.awl (s.tileSource n s.full) = 0 → ∃ t, exec (.scrubRead 4 (n * 2 ^ 24 + i) true) s = .next t ∧
        t.tile n = { x with hits := x.hits.eraseIdx i } ∧ (∀ m, m ≠ n → t.tile m = s.tile m) ∧ lost t (s.tileSource n s.full) ∧
        t.get F.fss_data_lost (s.tileSource n s.full) = plus s F.fss_data_lost (s.tileSource n s.full) 1))) ∧
  (∀ (n : Nat) (g : Gate) (a : Acc) (s : State), validChan n = true → s.statsOn n s.full = true → s.gatesOpen n = [g] → s.accList n = [a] →
    a.isOf (s.profileOf n s.full) g.s = true → ∃ t, exec (.scrubRead 3 n true) s = .next t ∧
      t.accList n = [{ Acc.start g.s none with flags := a.flags ||| 0x0028#16, resume := nextBoundary s.full, prof := a.prof }] ∧
      (let src := s.tileSource (chanTile n) s.full
       sameWords s t [wkey 11 3 src] ∧ t.get F.fss_data_lost src = plus s F.fss_data_lost src a.n) ∧
      (∀ m, m ≠ n → t.accList m = s.accList m)) ∧
  (∀ (n : Nat) (s : State), n < 1536 →
    let x := s.interp n
    (x.inForce = none → exec (.scrubRead 5 n true) s = .next s) ∧
    (x.inForce ≠ none → mget 0 s.flt.awl (interpSource n) = 0 → ∃ t, exec (.scrubRead 5 n true) s = .next t ∧ (t.interp n).inForce = none ∧ (t.interp n).prior = none ∧ (∀ m, m ≠ n → t.interp m = s.interp m) ∧
      (x.retired = false → t.get F.cala_state n = 1 ∧ (t.interp n).waiting = none ∧ (t.interp n).first = none ∧ (t.interp n).n = 0) ∧
      (x.retired = true → t.get F.cala_state n = s.get F.cala_state n) ∧
      (s.srcOff (interpSource n) = false → t.flt.inflight = s.flt.inflight ++ [{ source := interpSource n, cause := 0x01, sub := 0, injected := false }])) ∧
    (x.waiting ≠ none → exec (.scrubRead 6 n true) s = .next (raise (s.setInterp n { x with waiting := none }) (interpSource n) 0x01 0 false)) ∧
    (x.n ≠ 0 → exec (.scrubRead 8 n true) s = .next (raise (s.setInterp n x.dropSet) (interpSource n) 0x01 0 false)) ∧
    (x.first ≠ none → exec (.scrubRead 9 n true) s = .next (raise (s.setInterp n { x with first := none }) (interpSource n) 0x01 0 false)) ∧
    (x.waiting = none → exec (.scrubRead 6 n true) s = .next s) ∧ (x.n = 0 → exec (.scrubRead 8 n true) s = .next s) ∧ (x.first = none → exec (.scrubRead 9 n true) s = .next s)) ∧
  (∀ (n b : Nat) (s : State), n < 4 → b < 2 ^ 22 →
    let src := dieSource (8 + n) 5
    let k := n * 2 ^ 22 + b
    let reads := s.flt.ergReread
    let report : FaultRep := { source := src, cause := 0x01, sub := b, injected := false }
    (s.stackOn n = false → exec (.scrubRead 7 k true) s = .next s) ∧
    (s.stackOn n = true → mget 0 s.flt.awl src = 0 →
      exec (.scrubRead 7 k false) s = .next { s with flt := { s.flt with ergReread := reads.erase k } } ∧
      (k ∉ reads → exec (.scrubRead 7 k true) s = .next { s with flt := { s.flt with ergReread := reads ++ [k] } }) ∧
      (k ∈ reads → s.ergParts n = [] → exec (.scrubRead 7 k true) s = .next { s with freeCount := s.freeCount + 1, flt := { s.flt with ergReread := reads.erase k, inflight := s.flt.inflight ++ [report] } }) ∧
      (k ∈ reads → inRange s = true → ∃ t, exec (.scrubRead 7 k true) s = .next t ∧ t.tb = s.tb ∧ t.flt.ergReread = reads.erase k ∧ t.flt.inflight = s.flt.inflight ++ [report]))) ∧
  (∀ (desc tile : Nat) (s : State), tile < 512 →
    (mfind s.segs desc = none → exec (.scrubRead 10 (desc * 512 + tile) true) s = .next s) ∧
    (∀ (g : Seg) (n : Nat) (ns : List Nat), mfind s.segs desc = some g → g.built = true → g.st ≠ 1 → mget [] g.bufOn tile = n :: ns →
      ∃ t, exec (.scrubRead 10 (desc * 512 + tile) true) s = .next t ∧ t.tb = s.tb ∧ t.tiles = s.tiles ∧
        (g.part < 256 → g.queue < 16384 → s.srcOff (dieSource (8 + n) 5) = false →
          t.flt.inflight = s.flt.inflight ++ [{ source := dieSource (8 + n) 5, cause := 0x01, sub := 0, injected := false }]) ∧
        (g.st = 2 ∨ (∃ p ∈ s.pieces, p.desc = desc ∧ p.tile ≠ tile) → mfind t.segs desc = some (g.dropPiece tile) ∧
          t.get F.segb_bufs_used (g.part * 16) = s.get F.segb_bufs_used (g.part * 16) - (ns.length + 1)))) ∧
  (∀ (l : Nat) (s : State), l < 1024 →
    let here : Bool := s.domOn (laneDomain l) && decide (0 < (s.lane l).fill)
    (here = false → exec (.scrubRead 11 l true) s = .next s) ∧
    (here = true → mget 0 s.flt.awl l = 0 → exec (.scrubRead 11 l false) s = .next s ∧ ∃ t, exec (.scrubRead 11 l true) s = .next t ∧ t.lanes = s.lanes ∧
      t.get F.fss_data_lost l = plus s F.fss_data_lost l 1 ∧ t.flt.inflight = s.flt.inflight ++ [{ source := l, cause := 0x01, sub := 0, injected := false }])) ∧
  (∀ (die i : Nat) (s : State), die < 5 → i < 2 ^ 13 →
    let q := mget [] s.anchorQ die
    (q.length ≤ i → exec (.scrubRead 12 (die * 2 ^ 13 + i) true) s = .next s) ∧
    (i < q.length → exec (.scrubRead 12 (die * 2 ^ 13 + i) false) s = .next s ∧ ∃ t, exec (.scrubRead 12 (die * 2 ^ 13 + i) true) s = .next t ∧ mget [] t.anchorQ die = q.eraseIdx i ∧
      t.get F.qan_prec_drops die = plus s F.qan_prec_drops die 1 ∧ t.flt.inflight = s.flt.inflight ++ [{ source := 0x80F2, cause := 0x01, sub := 0, injected := false }])) ∧
  (∀ (p idx : Nat) (s : State),
    (12 < p ∨ s.scrubHolds p idx = false → exec (.scrubRead p idx true) s = .next s ∧ exec (.scrubRead p idx false) s = .next s) ∧
    (∀ src, s.scrubSource p idx = some src → mget 0 s.flt.awl src ≠ 0 → exec (.scrubRead p idx false) s = exec (.scrubRead p idx true) s)) ∧
  (∀ (rx tx wire : Nat) (s : State),
    let n := dieSource rx 1
    let link := rx * 16 + tx
    let k := link * 1024 + wire
    let count := fun (m : SMap Nat) => sumOver (fun e => if e.1 / 1024 = link then e.2 else 0) m
    (isLink rx tx = false ∨ 1024 ≤ wire → exec (.saddlePacketFail rx tx wire) s = .next s) ∧
    (isLink rx tx = true → wire < 1024 → msorted s.flt.saddleRun = true → ∃ t, exec (.saddlePacketFail rx tx wire) s = .next t ∧
      t = { s with freeCount := t.freeCount, flt := { s.flt with saddleRun := t.flt.saddleRun, awl := t.flt.awl, inflight := t.flt.inflight } } ∧
      mget 0 t.flt.awl n = mget 0 s.flt.awl n - 1 ∧ (∀ m, m ≠ n → mget 0 t.flt.awl m = mget 0 s.flt.awl m) ∧
      (∀ m, m / 1024 ≠ link → mget 0 t.flt.saddleRun m = mget 0 s.flt.saddleRun m) ∧
      (count s.flt.saddleRun < 15 → t.freeCount = s.freeCount ∧ t.flt.inflight = s.flt.inflight ∧ mget 0 t.flt.saddleRun k = mget 0 s.flt.saddleRun k + 1 ∧
        ∀ m, m ≠ k → mget 0 t.flt.saddleRun m = mget 0 s.flt.saddleRun m) ∧
      (15 ≤ count s.flt.saddleRun → (∀ m, m / 1024 = link → mget 0 t.flt.saddleRun m = 0) ∧ (s.srcOff n = true → t.flt.inflight = s.flt.inflight) ∧
        (s.srcOff n = false → ∃ w < 1024, t.flt.inflight = s.flt.inflight ++ [{ source := n, cause := 0x05, sub := tx * 1024 + w, injected := decide (mget 0 s.flt.awl n ≠ 0) }] ∧
          ∀ v < 1024, mget 0 s.flt.saddleRun (link * 1024 + v) + (if v = wire then 1 else 0) ≤ mget 0 s.flt.saddleRun (link * 1024 + w) + (if w = wire then 1 else 0))))) ∧
  (∀ (die : Nat) (s : State),
    (isDie die = true → exec (.voteDisagreement die) s = .next (raise s (dieSource die 2) 0x04 0 false)) ∧
    (isDie die = false → exec (.voteDisagreement die) s = .next s) ∧
    (∀ outside, isSource (dieSource die 6) = true → ∃ t, exec (.supplyMonitor die outside) s = .next t ∧ (t.src (dieSource die 6)).present = outside ∧
      t = { s with flt := t.flt } ∧ (outside = false → t.flt.inflight = s.flt.inflight) ∧ (outside = true → s.srcOff (dieSource die 6) = false →
        t.flt.inflight = s.flt.inflight ++ [{ source := dieSource die 6, cause := 0x16, sub := 0, injected := false }]))) ∧
  (∀ (w : Word) (rest : List Word) (s : State), s.flt.toRecord = w :: rest →
    (s.pw.recA.length < 32767 → s.pw.recB.length < 32767 → ∃ t, exec .retirementRecordWrite s = .next t ∧
      t = { s with flt := { s.flt with toRecord := rest }, pw := { s.pw with recA := s.pw.recA ++ [w], recB := s.pw.recB ++ [w] }, freeCount := t.freeCount, out := t.out } ∧
      (let cmds := pageCmds (recBase false + 8 * (s.pw.recA.length + 1)) 8 ++ pageCmds (recBase true + 8 * (s.pw.recB.length + 1)) 8
       (s.flashBusy = false → t.freeCount = s.freeCount ∧ t.out = s.out ++ cmds) ∧
       (s.flashBusy = true → t.freeCount = s.freeCount + 1 ∧ (t.out = s.out ++ cmds ∨ t.out = s.out ++ ([.boot 0x75 0 0] ++ cmds ++ [.boot 0x7A 0 0]))))) ∧
    (32767 ≤ s.pw.recA.length ∨ 32767 ≤ s.pw.recB.length → ∃ t, exec .retirementRecordWrite s = .next t ∧ t.flag F.pwg_rec_full 0 = true ∧ t.flt.toRecord = rest ∧
      t.pw.recA = (if s.pw.recA.length < 32767 then s.pw.recA ++ [w] else s.pw.recA) ∧ t.pw.recB = (if s.pw.recB.length < 32767 then s.pw.recB ++ [w] else s.pw.recB))) ∧
  (∀ (domain : Nat) (y : Cycle) (s : State), (s.pw.cycles.find? fun x => x.domain = domain) = some y → (∀ d ∈ y.back, d < 30) →
    ∃ t, exec (.powerCycleComplete domain) s = .next t ∧ t.pw.cycles = s.pw.cycles.erase y ∧
      (s.pw.ops = [] → t.get F.pwg_avail_change 0 = b2n t.cycleStacks ∧ (∀ d < 30, d ∉ y.back → t.get F.pws_pstate d = s.get F.pws_pstate d) ∧
        ∀ d ∈ y.back, s.get F.pws_pstate d = 5 →
          (s.hotDomain d = true → t.get F.pws_pstate d = 0) ∧
          (s.hotDomain d = false → (∀ x ∈ neededBy d, x ∉ y.back) → t.get F.pws_pstate d = (if (neededBy d).all s.domOn = true then 3 else 0)) ∧
          (∀ x ds, s.hotDomain d = false → y.back = x :: ds → x ∈ neededBy d → s.get F.pws_pstate x = 5 → t.get F.pws_pstate d = 3)) ∧
      (∀ op, s.pw.ops = [(domain, op)] → op.waits = true → op.on = true → domain ∈ y.back → s.get F.pws_pstate domain = 5 → s.hotDomain domain = false →
        neededBy domain = [] → (∀ z ∈ s.pw.cycles.erase y, z.domain ≠ domain ∧ domain ∉ z.back) →
        ∃ v, t = finish v op.cmd 0x60 stOk 0 [] ∧ t.get F.pws_pstate domain = 3 ∧ t.pw.ops = []))


/-! ### Power domains -/

/-- POWER_DOMAIN of a domain that is as asked for is answered ST_OK and changes nothing; one that fails a check is answered with its status and changes nothing; any other begins the switch, RAMP or STOPPING, and is answered when it ends, and one for a domain in a power cycle waits. Cluster 0 of a lane die does not go off while another cluster of the die is on or will come back from a power cycle, and no other cluster comes on without it. A domain whose switch-off ends is OFF and counted, and the words and channels of a core-die domain read their reset words; no history is left on a stack that goes off with it. One whose switch-on ends is ON and counted; one that has gone off meanwhile, or whose needed domain is off, is answered ST_NO_RESOURCE and is not on. A junction above 125 °C leaves no domain of its die on and no other changed. -/
def Obligations.PowerDomainSwitching : Prop :=
  (∀ (c : Cmd) (d : Nat) (s : State), d < 30 → d ≠ 26 → c.par 0 = BitVec.ofNat 64 d → accepts0 s c 0x60 1 = true →
    let u := advanceTo s c.tick
    ∀ e ∈ [(Instr.powerDomainOn c, true), (Instr.powerDomainOff c, false)],
      (u.inCycle d = false → u.domOn d = e.2 → ends e.1 s c 0x60 u stOk 0 []) ∧
      (∀ st, u.inCycle d = false → u.domOn d ≠ e.2 → powerCheck u d e.2 = some st →
        (st = stBadParam ∨ st = stNoResource) ∧ exec e.1 s = .next (finish u c 0x60 st 0 [])) ∧
      (u.inCycle d = false → u.domOn d ≠ e.2 → powerCheck u d e.2 = none → ∃ v o, pends e.1 s c 0x60 v ∧ v = { u with regs := v.regs, pw := v.pw } ∧
        v.get F.pws_pstate d = (if e.2 = true then 1 else 4) ∧ mfind v.pw.ops d = some o ∧ o.cmd = c ∧ o.on = e.2 ∧ o.waits = false ∧
        sameWords u v [wkey 13 1 d, wkey 13 2 0]) ∧
      (u.inCycle d = true → ∃ v o, pends e.1 s c 0x60 v ∧ v = { u with pw := { u.pw with ops := v.pw.ops } } ∧
        mfind v.pw.ops d = some o ∧ o.cmd = c ∧ o.on = e.2 ∧ o.waits = true) ∧
      (16 ≤ d → d < 26 → u.hotDomain d = false → Nat.testBit u.pw.rails d = true → u.get F.pws_pstate d ≠ 6 → powerCheck u d true = none) ∧
      (u.get F.pws_pstate d = 6 ∨ Nat.testBit u.pw.rails d = false ∨ u.hotDomain d = true → powerCheck u d true = some stNoResource) ∧
      (d < 16 → d % 4 ≠ 0 → u.hotDomain d = false → Nat.testBit u.pw.rails d = true → u.get F.pws_pstate d ≠ 6 → u.domOn (d / 4 * 4) = false → powerCheck u d true = some stBadParam) ∧
      (d < 16 → d % 4 = 0 → (∃ x ∈ [d + 1, d + 2, d + 3], u.domOn x = true ∨ u.cycling x = true) → powerCheck u d false = some stBadParam)) ∧
  (∀ (d : Nat) (op : DomOp) (s : State), d < 30 → mfind s.pw.ops d = some op → op.waits = false → op.on = false → inRange s = true → (∀ g ∈ s.cmd.gone, op.until1 < g.full) →
    (s.get F.pws_pstate d = 4 → ∃ v, exec (.domainOffComplete d) s = .next (finish v op.cmd 0x60 stOk 0 []) ∧ v.get F.pws_pstate d = 0 ∧ v.tb = s.tb ∧
      v.get F.pws_switches d = plus s F.pws_switches d 1 ∧ mfind v.pw.ops d = none ∧
      (∀ n < 4, s.stackOn n = true → v.stackOn n = false → ∀ tile, n ∉ (v.tile tile).extOn) ∧
      (16 ≤ d → d < 26 → (∀ tile sel, tile < 320 → tileDomain tile = d → 1 ≤ sel → sel < 256 → v.word 4 sel tile = resetWord 4 sel tile) ∧
        (∀ ch sel, ch < 5 * 2 ^ 20 → tileDomain (chanTile ch) = d → sel < 4 → v.word 3 sel ch = resetWord 3 sel ch) ∧
        (∀ tile, tile < 320 → tileDomain tile = d → (v.tile tile).hits = [] ∧ (v.tile tile).ring = []))) ∧
    (s.get F.pws_pstate d ≠ 4 → ∃ v, exec (.domainOffComplete d) s = .next (finish v op.cmd 0x60 stOk 0 []) ∧ v.get F.pws_pstate d = s.get F.pws_pstate d ∧
      mfind v.pw.ops d = none)) ∧
  (∀ (d : Nat) (op : DomOp) (s : State), d < 30 → mfind s.pw.ops d = some op → op.waits = false → op.on = true →
    (s.get F.pws_pstate d = 1 ∨ s.get F.pws_pstate d = 2 → (neededBy d).all s.domOn = true → ∃ v, exec (.domainOnComplete d) s = .next (finish v op.cmd 0x60 stOk 0 []) ∧
      v.get F.pws_pstate d = 3 ∧ v.get F.pws_switches d = plus s F.pws_switches d 1 ∧ mfind v.pw.ops d = none ∧ v.tb = s.tb) ∧
    (s.get F.pws_pstate d = 1 ∨ s.get F.pws_pstate d = 2 → (neededBy d).all s.domOn = false → ∃ v, exec (.domainOnComplete d) s = .next (finish v op.cmd 0x60 stNoResource 0 []) ∧
      v.get F.pws_pstate d = 0 ∧ mfind v.pw.ops d = none) ∧
    (s.get F.pws_pstate d ≠ 1 → s.get F.pws_pstate d ≠ 2 → ∃ v, exec (.domainOnComplete d) s = .next (finish v op.cmd 0x60 stNoResource 0 []) ∧
      v.get F.pws_pstate d = s.get F.pws_pstate d ∧ mfind v.pw.ops d = none)) ∧
  (∀ (die : Nat) (s : State), inRange s = true →
    (isSource (dieSource die 6) = true → ∃ t, exec (.thermalShutdown die) s = .next t ∧ (∀ d ∈ dieDomains die, t.domOn d = false) ∧ die ∈ t.pw.hot ∧
      (die = 15 → t.pw.hotAnchor = true) ∧ ∀ d < 30, d ∉ dieDomains die → t.get F.pws_pstate d = s.get F.pws_pstate d) ∧
    exec (.thermalRecovery die) s = .next { s with pw := { s.pw with hot := s.pw.hot.filter (· ≠ die), hotAnchor := s.pw.hotAnchor && die ≠ 15 } })

/-! ### Reset and start-up -/

/-- RESET_N low for less than 2 µs, or PWR_GOOD for less than 0.2 µs, changes nothing; between the limits it has the one effect or the other; 10 µs or 1 µs leave the state of reset with the reset held, and of the rest only the boot flash, the test access port, and what is outside the device; the flash is as before where nothing was being written to it, and in any case no recorded retirement is lost, a valid directory copy remains, and a slot that no session names is untouched. With the rise of RESET_N device time starts in phase FUSES. Each phase is followed by the next: the supplies are shown as they are found at each, and the image of the higher generation is loaded, or the other where it is broken, or recovery is entered; the engines retire what the fuses and the record name, and give the domains their boot_on bits; each stage switches on those of its domains that have their bit, their rails and what they need, on a die that is not too hot, and shows those without a rail; after the last the device is RUNNING. An image that is not ready within 1 s is replaced by the other, once, and then recovery is entered. -/
def Obligations.ResetAndStartup : Prop :=
  (∀ (n : Nat) (s : State),
    (n < 3200 → exec (.resetAssert n) s = .next s) ∧ (n < 320 → exec (.pwrGoodFall n) s = .next s) ∧
    (∀ u : State, u = { s with freeCount := s.freeCount + 1 } →
      (3200 ≤ n → n < 16000 → exec (.resetAssert n) s = .next u ∨ exec (.resetAssert n) s = exec (.resetAssert 16000) u) ∧
      (320 ≤ n → n < 1600 → exec (.pwrGoodFall n) s = .next u ∨ exec (.pwrGoodFall n) s = exec (.pwrGoodFall 1600) u)) ∧
    (∀ e ∈ ([(Instr.resetAssert n, 16000, true), (Instr.pwrGoodFall n, 1600, false)] : List (Instr × Nat × Bool)), e.2.1 ≤ n →
      ∃ t, exec e.1 s = .next t ∧ t = { State.reset with pending := s.pending, jtag := s.jtag, out := s.out, tin := s.tin, freeCount := t.freeCount, pw := t.pw } ∧
        t.pw = { State.reset.pw with resetLow := true, pwrGood := t.pw.pwrGood, dirA := t.pw.dirA, dirB := t.pw.dirB, recA := t.pw.recA, recB := t.pw.recB, slots := t.pw.slots, rails := s.pw.rails } ∧
        (e.2.2 = false → t.pw.pwrGood = false) ∧
        (s.flt.toRecord = [] → s.cmd.sysOp = none → s.pw.dirDirty = false → t.freeCount = s.freeCount ∧ t.pw.dirA = s.pw.dirA ∧ t.pw.dirB = s.pw.dirB ∧
          t.pw.recA = s.pw.recA ∧ t.pw.recB = s.pw.recB ∧ t.pw.slots = s.pw.slots) ∧
        (∀ w ∈ s.recordEntries, w ∈ t.recordEntries) ∧
        (s.pw.dirA.valid = true ∨ s.pw.dirB.valid = true → t.pw.dirA.valid = true ∨ t.pw.dirB.valid = true) ∧
        (∀ i, (∀ f, s.cmd.fw = some f → f.slot ≠ i) → t.image i = s.image i)) ∧
    (s.pw.resetLow = false → exec .resetRelease s = .next s) ∧
    (s.pw.resetLow = true → ∃ t, exec .resetRelease s = .next t ∧ t.full = 0 ∧ t.tb.tick = 0 ∧ t.phase = 1 ∧ t.regs = [] ∧ t.pw.resetLow = false ∧
      t.pw.tapHold = takesPins s.jtag.ir ∧ t.pending = s.pending)) ∧
  (∀ (rails : Nat) (s : State), s.pw.resetLow = true ∨ s.pw.tapHold = true → exec (.startupPhase rails) s = .next s) ∧
  (∀ (rails : Nat) (s : State), s.pw.resetLow = false → s.pw.tapHold = false →
    let a := s.firstSlot
    let seen := fun (t : State) => t.pw.rails = rails ∧ ∀ d < 30, t.flag F.pws_rail_ok d = Nat.testBit rails d
    let words := wkey 13 2 0 :: (upTo 0 30).map (wkey 13 1)
    (1 ≤ s.phase → s.phase ≤ 5 → ∃ t, exec (.startupPhase rails) s = .next t ∧ seen t) ∧
    (s.phase = 1 → ∃ t, exec (.startupPhase rails) s = .next t ∧ t.phase = 2 ∧ t = { s with regs := t.regs, pw := { s.pw with rails := rails } } ∧ sameWords s t words) ∧
    (s.phase = 2 → ∃ t, exec (.startupPhase rails) s = .next t ∧ t.phase = 3 ∧ t.get F.pwg_quad 0 = b2n s.directory.quad ∧
      t = { s with regs := t.regs, pw := { s.pw with rails := rails }, out := s.out ++ [bootRead false 0 24, bootRead false 0x1000 24] } ∧ sameWords s t words) ∧
    (s.phase = 3 → ∃ t, exec (.startupPhase rails) s = .next t ∧ t.tb = s.tb ∧
      t.get F.pwg_slot_bad 0 = b2n (!(s.image 0).valid) + 2 * b2n (!(s.image 1).valid) ∧
      ((s.image a).valid = true → t.phase = 4 ∧ t.pw.slot = a ∧ t.get F.pwg_fallback 0 = s.get F.pwg_fallback 0 ∧ (s.image (1 - a)).generation ≤ (s.image a).generation) ∧
      ((s.image a).valid = false → (s.image (1 - a)).valid = true → t.phase = 4 ∧ t.pw.slot = 1 - a ∧ t.get F.pwg_fallback 0 = 1) ∧
      ((s.image a).valid = false → (s.image (1 - a)).valid = false → t.phase = 7 ∧ t.get F.pws_pstate 26 = 3)) ∧
    (s.phase = 4 → ∃ t, exec (.startupPhase rails) s = .next t ∧ t.phase = 5 ∧ t.get F.pws_pstate 26 = 3 ∧
      t.get F.pwg_rec_entries 0 = min 65535 s.recordEntries.length ∧
      (∀ i < 30, t.flag F.pwd_boot_on i = (decide (i = 26) || s.directory.bootOn.getLsbD i)) ∧
      (∀ w ∈ s.recordEntries, bits w 47 44 = 0 → t.flag F.fsa_retired (bits w 63 48) = true) ∧
      (∀ m, 0x1800 ≤ m → m ≤ 0x1A7F → isSource m = true → Config.fusedTile m = true → t.flag F.fsa_retired m = true)) ∧
    (s.phase = 5 → s.pw.stage < 5 → ∃ t, exec (.startupPhase rails) s = .next t ∧ t.pw.stage = s.pw.stage + 1 ∧ t.phase = (if s.pw.stage = 4 then 6 else 5) ∧
      (∀ d ∈ domainStage s.pw.stage, Nat.testBit rails d = false → t.get F.pws_pstate d = 6 ∧ t.flag F.pws_rail_ok d = false) ∧
      (∀ d ∈ domainStage s.pw.stage, Nat.testBit rails d = true → s.flag F.pwd_boot_on d = true → s.hotDomain d = false → (neededBy d).all s.domOn = true → t.get F.pws_pstate d = 3) ∧
      (∀ d ∈ domainStage s.pw.stage, Nat.testBit rails d = true → s.flag F.pwd_boot_on d = false ∨ s.hotDomain d = true ∨ (neededBy d).all s.domOn = false →
        t.get F.pws_pstate d = s.get F.pws_pstate d) ∧
      (∀ d < 30, d ∉ domainStage s.pw.stage → t.get F.pws_pstate d = s.get F.pws_pstate d)) ∧
    (6 ≤ s.phase → exec (.startupPhase rails) s = .next s)) ∧
  (∀ s : State, s.phase = 4 → s.pw.resetLow = false →
    let other := 1 - s.pw.slot
    ∃ t, exec .imageReadyTimeout s = .next t ∧ t.tb.tick = max s.tb.tick (s.pw.loadAt + 1600000000) ∧
      ((s.image other).valid = true → other ∉ s.pw.tried → t.phase = 4 ∧ t.pw.slot = other ∧ t.get F.pwg_fallback 0 = 1 ∧ other ∈ t.pw.tried) ∧
      ((s.image other).valid = false ∨ other ∈ s.pw.tried → t.phase = 7 ∧ t.get F.pws_pstate 26 = 3))

/-! ### System-wide operations, firmware, and the boot directory -/

/-- SELFTEST of a set of tests and ERG_CLEAR on a quiescent device without records and segments, and FW_UPDATE END of a session, are taken as system-wide operations that make every channel busy; while a channel is busy each is answered ST_BUSY and changes nothing. FW_UPDATE BEGIN opens a session for the slot that does not run, and erases it where the session is direct; DATA puts its words in their places and the next offset after them. An END whose session has not the length or the CRC announced writes nothing and raises cause 0x15; one whose words are all there with the right CRC writes the slot, after the retirements that are due, with a generation one higher than that of the running one; one that did not read back leaves the slot broken. Each end answers the command and frees the other channels; ERG_CLEAR leaves no history in a stack that is available. A session without DATA for 60 s closes, whatever but its own END runs. The commands that BEGIN, DATA and the rewrite of the directory send the flash are those of R497. A changed boot_on set is written, after the retirements that are due, to the older directory copy, which is then the one in use. -/
def Obligations.SystemWideOperations : Prop :=
  (∀ (c : Cmd) (m : Nat) (s : State),
    let u := advanceTo s c.tick
    let rows : List (Instr × Nat × Nat × Bool) := [(.selftest c, 0x62, 1, u.ergIdle && decide (c.par 0 = BitVec.ofNat 64 m) && decide (0 < m) && decide (m < 64)),
      (.ergClear c, 0x63, 0, u.ergIdle), (.fwUpdateEnd c, 0x70, 0, u.cmd.fw.isSome)]
    ∀ e ∈ rows, accepts0 s c e.2.1 e.2.2.1 = true →
      (u.busyPart = none → e.2.2.2 = true → ∃ t, exec e.1 s = .next t ∧ t.cmd.sysOp = some { op := e.2.1, cmd := c, since := u.tb.tick } ∧
        (∀ p, t.chanBusy p = true) ∧ t = { u with regs := t.regs, interps := t.interps, cmd := t.cmd } ∧ sameWords u t [wkey 12 3 c.part] ∧
        t.get F.part3_accepted c.part = plus u F.part3_accepted c.part 1 ∧ (e.2.1 = 0x63 → t.cmd.fw = none) ∧ (e.2.1 ≠ 0x63 → t.cmd.fw = u.cmd.fw)) ∧
      (∀ p, u.busyPart = some p → exec e.1 s = .next (finish (u.satInc F.part3_busy_replies c.part 1) c e.2.1 stBusy 0 [busyWord u p]))) ∧
  (∀ (c : Cmd) (slot len crc : Nat) (s : State), slot < 2 → len ≤ 2 ^ 26 → crc < 2 ^ 32 →
    c.par 0 = BitVec.ofNat 64 slot → c.par 1 = BitVec.ofNat 64 len → c.par 2 = BitVec.ofNat 64 crc → accepts0 s c 0x70 3 = true →
    let u := advanceTo s c.tick
    let direct : Bool := u.phase = 7 || u.stacks = 0
    (u.phase ≠ 7 → slot = u.pw.slot → exec (.fwUpdateBegin c) s = .next (finish u c 0x70 stBadParam 1 [])) ∧
    (u.phase = 7 ∨ slot ≠ u.pw.slot → ∃ v g, ends (.fwUpdateBegin c) s c 0x70 v stOk 0 [] ∧ v.cmd = { u.cmd with fw := some g } ∧
      g = { slot := slot, length := len, crc := crc, direct := direct, data := [], next := 0, lastAt := u.tb.tick, erasing := direct } ∧
      (direct = false → v = { u with cmd := v.cmd }) ∧
      (direct = true → v = { u with regs := v.regs, cmd := v.cmd, pw := v.pw, flt := { u.flt with toRecord := [] }, out := v.out } ∧ (v.image slot).valid = false ∧
        v.image (1 - slot) = u.image (1 - slot) ∧ (u.flt.toRecord = [] → v.regs = u.regs ∧ v.out = u.out ++ eraseCmds 0xDC (slotBase slot) 65536 1024)))) ∧
  (∀ (c : Cmd) (k : Nat) (w : Word) (ws : List Word) (f : FwSession) (s : State),
    let u := advanceTo s c.tick
    passes s c 0x70 = true → c.part = 0 → c.resv = 0 → c.params = w :: ws → w = BitVec.ofNat 64 (8 * k) → 8 * k + 8 * ws.length ≤ 2 ^ 26 → u.cmd.fw = some f →
      (f.direct = true → f.next ≠ 8 * k → exec (.fwUpdateData c) s = .next (finish u c 0x70 stBadParam 1 [])) ∧
      (f.direct = false ∨ f.next = 8 * k → ∃ v g, ends (.fwUpdateData c) s c 0x70 v stOk 0 [] ∧ v = { u with cmd := { u.cmd with fw := some g }, out := v.out } ∧
        g = { f with data := g.data, next := max f.next (8 * k + 8 * ws.length), lastAt := u.tb.tick, erasing := false } ∧
        (let held := min (8 * ws.length) (32 - 8 * k)
         v.out = u.out ++ if f.direct then pageCmds (slotBase f.slot + 8 * k + held) (8 * ws.length - held) else []) ∧
        (∀ i < ws.length, mfind g.data (k + i) = ws[i]?) ∧ ∀ j, j < k ∨ k + ws.length ≤ j → mfind g.data j = mfind f.data j)) ∧
  (∀ (o : SysOp) (f : FwSession) (ok : Bool) (s : State), s.cmd.sysOp = some o → o.op = 0x70 → s.cmd.fw = some f →
    (f.next ≠ 8 * ceilDiv f.length 8 → ∃ t, exec (.fwImageWritten ok) s = .next t ∧ t.pw = s.pw ∧ t.cmd.sysOp = none ∧ t.cmd.fw = none ∧
      t.flt.inflight = s.flt.inflight ++ [{ source := 0x80F8, cause := 0x15, sub := 0, injected := false }]) ∧
    (∀ ws : List Word, f.data = (upTo 0 ws.length).zip ws → f.length = 8 * ws.length → f.next = 8 * ws.length → crc32 ws ≠ f.crc →
      ∃ t, exec (.fwImageWritten ok) s = .next t ∧ t.pw = s.pw ∧ t.cmd.sysOp = none ∧ t.cmd.fw = none ∧
        t.flt.inflight = s.flt.inflight ++ [{ source := 0x80F8, cause := 0x15, sub := 0, injected := false }]) ∧
    (∀ ws : List Word, f.data = (upTo 0 ws.length).zip ws → f.length = 8 * ws.length → f.next = 8 * ws.length → crc32 ws = f.crc →
      (ok = true → ∃ v, exec (.fwImageWritten ok) s = .next (finish v o.cmd 0x70 stOk 0 []) ∧ v.cmd.fw = none ∧ v.cmd.sysOp = none ∧ v.flt = { s.flt with toRecord := [] } ∧
        (s.pw.recA.length + s.flt.toRecord.length ≤ 32767 → v.pw.recA = s.pw.recA ++ s.flt.toRecord) ∧
        (s.phase ≠ 7 → (v.image f.slot).generation = ((s.image s.pw.slot).generation + 1) % 2 ^ 32) ∧ (2 ≤ ws.length → (v.image f.slot).major = bits (ws.getD 1 0#64) 63 56) ∧
        (∀ i, i ≠ f.slot → v.image i = s.image i)) ∧
      (ok = false → ∃ t, exec (.fwImageWritten ok) s = .next t ∧ (t.image f.slot).valid = false ∧ t.cmd.fw = none ∧ t.cmd.sysOp = none ∧
        t.flt.inflight = s.flt.inflight ++ [{ source := 0x80F8, cause := 0x15, sub := 0, injected := false }]))) ∧
  (∀ (f : FwSession) (s : State), s.cmd.fw = some f → (∀ o, s.cmd.sysOp = some o → o.op ≠ 0x70) →
    let u := advanceTo s (f.lastAt + 96000000000)
    exec .fwSessionTimeout s = .next { u with cmd := { u.cmd with fw := none } }) ∧
  (∀ s : State, (s.cmd.fw = none ∨ (∃ o, s.cmd.sysOp = some o ∧ o.op = 0x70) → exec .fwSessionTimeout s = .next s) ∧ (s.pw.dirDirty = false → exec .directoryRewrite s = .next s)) ∧
  (∀ s : State, s.pw.dirDirty = true → s.directory.seq + 1 < 2 ^ 32 → ∃ t, exec .directoryRewrite s = .next t ∧ t.pw.dirDirty = false ∧ t.directory.seq = s.directory.seq + 1 ∧
    t.flt.toRecord = [] ∧ (s.pw.recA.length + s.flt.toRecord.length ≤ 32767 → t.pw.recA = s.pw.recA ++ s.flt.toRecord) ∧
    t.directory.quad = s.directory.quad ∧ (∀ i < 30, t.directory.bootOn.getLsbD i = s.flag F.pwd_boot_on i) ∧
    (s.useA = true → t.pw.dirA = s.pw.dirA) ∧ (s.useA = false → t.pw.dirB = s.pw.dirB) ∧
    (s.flt.toRecord = [] → t.out = s.out ++ eraseCmds 0x21 (dirBase s.useA) 4096 1 ++ pageCmds (dirBase s.useA) 24)) ∧
  (∀ (o : SysOp) (results : List TestResult) (s : State), s.cmd.sysOp = some o → o.op = 0x62 →
    let asked := (upTo 0 6).filter (bit (o.cmd.par 0))
    ∃ v ws, exec (.selftestComplete results) s = .next (finish v o.cmd 0x62 stOk 0 ws) ∧ v.cmd.sysOp = none ∧ v.tb = s.tb ∧ ws.length = asked.length ∧
      (∀ i b : Nat, asked[i]? = some b → ∃ w : Word, ws[i]? = some w ∧ bits w 63 56 = b ∧
        ((∀ r ∈ results, r.bit ≠ b) → bits w 55 54 = 2) ∧
        (∀ r, (results.find? fun x => x.bit = b) = some r → (r.run = false → bits w 55 54 = 2) ∧
          (r.run = true → r.failed = [] → bits w 55 54 = 0 ∧ bits w 53 32 = 0 ∧ bits w 31 0 = min (2 ^ 32 - 1) (s.testedCount b r.tested)) ∧
          (∀ n sub, r.run = true → r.failed = [(n, sub)] → isSource n = true → covers b n = true → s.testable n = true → bits w 55 54 = 1 ∧ bits w 53 32 = 1)))) ∧
  (∀ (o : SysOp) (s : State), s.cmd.sysOp = some o → o.op = 0x63 →
    ∃ v, exec .ergClearComplete s = .next (finish v o.cmd 0x63 stOk 0 []) ∧ v.cmd.sysOp = none ∧ v.tb = s.tb ∧
      (stacksOf s.domOn = [] → v = { s with cmd := { s.cmd with sysOp := none } }) ∧
      (stacksOf s.domOn ≠ [] → ∀ tile, (∀ n ∈ (v.tile tile).extOn, n ∉ stacksOf s.domOn) ∧ ((∀ n ∈ (s.tile tile).extOn, n ∈ stacksOf s.domOn) → (v.tile tile).ext = [])))

end
end

