-- ==== Sys2Proof/Laws/Bits.lean ====
section
/-! SUPPORT. Bit fields: what a written field reads as, and that it leaves the others alone. -/

namespace Sys2Proof.Machine

/-- The bits of a mask. -/
theorem getLsbD_fieldMask {hi lo : Nat} (h1 : lo ≤ hi) (h2 : hi < 64) (i : Nat) :
    (fieldMask hi lo).getLsbD i = decide (lo ≤ i ∧ i ≤ hi) := by
  simp only [fieldMask, BitVec.getLsbD_shiftLeft, BitVec.getLsbD_ushiftRight, BitVec.getLsbD_allOnes]
  by_cases h3 : lo ≤ i
  · by_cases h4 : i ≤ hi
    · have : i < 64 := by omega
      have h5 : 63 - (hi - lo) + (i - lo) < 64 := by omega
      have h6 : ¬i < lo := by omega
      simp [*]
    · have h5 : ¬63 - (hi - lo) + (i - lo) < 64 := by omega
      simp [h3, h4, h5]
  · have : i < lo := by omega
    simp [h3, this]

/-- A field as a number, by its bits. -/
theorem testBit_bits {w : Word} {hi lo : Nat} (h1 : lo ≤ hi) (h2 : hi < 64) (i : Nat) :
    (bits w hi lo).testBit i = (decide (i ≤ hi - lo) && w.getLsbD (lo + i)) := by
  have := getLsbD_fieldMask h1 h2 (lo + i)
  simp only [bits, BitVec.testBit_toNat, BitVec.getLsbD_ushiftRight, BitVec.getLsbD_and, this]
  by_cases h : i ≤ hi - lo
  · have : lo + i ≤ hi := by omega
    simp [h, this]
  · have : ¬lo + i ≤ hi := by omega
    simp [h, this]

/-- A written word, by its bits. -/
theorem getLsbD_setBits {w : Word} {hi lo v : Nat} (h1 : lo ≤ hi) (h2 : hi < 64) (i : Nat) :
    (setBits w hi lo v).getLsbD i = if lo ≤ i ∧ i ≤ hi then v.testBit (i - lo) else w.getLsbD i := by
  have hm := getLsbD_fieldMask h1 h2 i
  simp only [setBits, BitVec.getLsbD_or, BitVec.getLsbD_and, BitVec.getLsbD_not, BitVec.getLsbD_shiftLeft, BitVec.getLsbD_ofNat, hm]
  by_cases h : lo ≤ i ∧ i ≤ hi
  · have h3 : i < 64 := by omega
    have h4 : ¬i < lo := by omega
    have h5 : i - lo < 64 := by omega
    simp [h, h3, h4, h5]
  · by_cases h3 : i < 64
    · simp only [h, decide_false, Bool.not_false, Bool.and_true, Bool.and_false, Bool.or_false, if_false, h3, decide_true]
    · have : w.getLsbD i = false := BitVec.getLsbD_of_ge w i (by omega)
      simp [h, this]

/-- A field reads as what was written, cut to its width. -/
theorem bits_setBits_self {w : Word} {hi lo v : Nat} (h1 : lo ≤ hi) (h2 : hi < 64) :
    bits (setBits w hi lo v) hi lo = v % 2 ^ (hi - lo + 1) := by
  apply Nat.eq_of_testBit_eq
  intro i
  rw [testBit_bits h1 h2, Nat.testBit_mod_two_pow, getLsbD_setBits h1 h2]
  by_cases h : i ≤ hi - lo
  · have h3 : lo ≤ lo + i ∧ lo + i ≤ hi := by omega
    have h4 : i < hi - lo + 1 := by omega
    simp [h, h3, h4]
  · have h4 : ¬i < hi - lo + 1 := by omega
    simp [h, h4]

/-- A write of a field leaves a field beside it alone. -/
theorem bits_setBits_apart {w : Word} {hi lo hi' lo' v : Nat} (h1 : lo ≤ hi) (h2 : hi < 64) (h3 : lo' ≤ hi') (h4 : hi' < 64)
    (h : hi < lo' ∨ hi' < lo) : bits (setBits w hi lo v) hi' lo' = bits w hi' lo' := by
  apply Nat.eq_of_testBit_eq
  intro i
  rw [testBit_bits h3 h4, testBit_bits h3 h4, getLsbD_setBits h1 h2]
  by_cases h5 : i ≤ hi' - lo'
  · have : ¬(lo ≤ lo' + i ∧ lo' + i ≤ hi) := by omega
    simp [this]
  · simp [h5]

/-- A field is below the power of two of its width. -/
theorem bits_lt {w : Word} {hi lo : Nat} (h1 : lo ≤ hi) (h2 : hi < 64) : bits w hi lo < 2 ^ (hi - lo + 1) := by
  apply Nat.lt_pow_two_of_testBit
  intro i hi'
  have h5 : ¬i ≤ hi - lo := by omega
  simp [testBit_bits h1 h2, h5]

/-- Outside a mask a merge keeps the old bits, under it the new ones. -/
theorem getLsbD_merge (old new mask : Word) (i : Nat) :
    (merge old new mask).getLsbD i = if mask.getLsbD i then new.getLsbD i else old.getLsbD i := by
  simp only [merge, BitVec.getLsbD_or, BitVec.getLsbD_and, BitVec.getLsbD_not]
  by_cases h : i < 64
  · cases mask.getLsbD i <;> simp [h]
  · simp [BitVec.getLsbD_of_ge _ i (show 64 ≤ i by omega)]

end Sys2Proof.Machine
end

