-- ==== Sys2Proof/Laws/Maps.lean ====
section
/-! SUPPORT. Sparse maps: reading after writing, and the canonical form kept by every operation. -/

namespace Sys2Proof.Machine

variable {α : Type}

/-! ### Reading after writing -/

theorem mfind_minsert_self (m : SMap α) (k : Nat) (v : α) : mfind (minsert m k v) k = some v := by
  induction m with
  | nil => simp [minsert, mfind]
  | cons e rest ih =>
    obtain ⟨k', v'⟩ := e
    by_cases h1 : k < k'
    · simp [minsert, h1, mfind]
    · by_cases h2 : k = k'
      · subst h2; simp [minsert, mfind]
      · have h3 : ¬k' = k := fun h => h2 h.symm
        simp [minsert, h1, h2, mfind, h3, ih]

theorem mfind_minsert_ne (m : SMap α) {k j : Nat} (v : α) (h : j ≠ k) : mfind (minsert m k v) j = mfind m j := by
  have h0 : ¬k = j := fun e => h e.symm
  induction m with
  | nil => simp [minsert, mfind, h0]
  | cons e rest ih =>
    obtain ⟨k', v'⟩ := e
    by_cases h1 : k < k'
    · simp [minsert, h1, mfind, h0]
    · by_cases h2 : k = k'
      · subst h2; simp [minsert, mfind, h0]
      · by_cases h3 : k' = j
        · subst h3; simp [minsert, h1, h2, mfind]
        · simp [minsert, h1, h2, mfind, h3, ih]

theorem mfind_merase_self (m : SMap α) (k : Nat) : mfind (merase m k) k = none := by
  induction m with
  | nil => rfl
  | cons e rest ih =>
    obtain ⟨k', v'⟩ := e
    by_cases h : k' = k <;> simp [merase, h, ih, mfind]

theorem mfind_merase_ne (m : SMap α) {k j : Nat} (h : j ≠ k) : mfind (merase m k) j = mfind m j := by
  induction m with
  | nil => rfl
  | cons e rest ih =>
    obtain ⟨k', v'⟩ := e
    by_cases h1 : k' = k
    · have h2 : ¬k' = j := fun e => h (e.symm.trans h1)
      have h3 : ¬k = j := fun e => h e.symm
      simp [merase, h1, ih, mfind, h3]
    · by_cases h2 : k' = j
      · subst h2; simp [merase, h1, mfind]
      · simp [merase, h1, h2, mfind, ih]

/-! ### The canonical form -/

theorem mabove_minsert {x k : Nat} (hx : x < k) (v : α) : (m : SMap α) → mabove x m = true → mabove x (minsert m k v) = true
  | [], _ => by simp [minsert, mabove, hx]
  | (k', v') :: rest, h => by
    simp only [mabove, Bool.and_eq_true, decide_eq_true_eq] at h
    by_cases h1 : k < k'
    · simp [minsert, h1, mabove, hx, h.1, h.2]
    · by_cases h2 : k = k'
      · subst h2; simp [minsert, mabove, hx, h.2]
      · simp [minsert, h1, h2, mabove, h.1, mabove_minsert hx v rest h.2]

theorem mabove_merase {x : Nat} (k : Nat) : (m : SMap α) → mabove x m = true → mabove x (merase m k) = true
  | [], _ => by simp [merase, mabove]
  | (k', v') :: rest, h => by
    simp only [mabove, Bool.and_eq_true, decide_eq_true_eq] at h
    by_cases h1 : k' = k <;> simp [merase, h1, mabove, h.1, mabove_merase k rest h.2]

theorem mabove_trans {x y : Nat} (hxy : x < y) : (m : SMap α) → mabove y m = true → mabove x m = true
  | [], _ => rfl
  | (k', v') :: rest, h => by
    simp only [mabove, Bool.and_eq_true, decide_eq_true_eq] at h ⊢
    exact ⟨Nat.lt_trans hxy h.1, mabove_trans hxy rest h.2⟩

theorem msorted_minsert (k : Nat) (v : α) : (m : SMap α) → msorted m = true → msorted (minsert m k v) = true
  | [], _ => by simp [minsert, msorted, mabove]
  | (k', v') :: rest, h => by
    simp only [msorted, Bool.and_eq_true] at h
    by_cases h1 : k < k'
    · simp [minsert, h1, msorted, mabove, h.1, h.2, mabove_trans h1 rest h.1]
    · by_cases h2 : k = k'
      · subst h2; simp [minsert, msorted, h.1, h.2]
      · have h3 : k' < k := by omega
        simp [minsert, h1, h2, msorted, mabove_minsert h3 v rest h.1, msorted_minsert k v rest h.2]

theorem msorted_merase (k : Nat) : (m : SMap α) → msorted m = true → msorted (merase m k) = true
  | [], _ => rfl
  | (k', v') :: rest, h => by
    simp only [msorted, Bool.and_eq_true] at h
    by_cases h1 : k' = k
    · simp [merase, h1, msorted_merase k rest h.2]
    · simp [merase, h1, msorted, mabove_merase k rest h.1, msorted_merase k rest h.2]

theorem mabove_filter {x : Nat} (p : Nat × α → Bool) : (m : SMap α) → mabove x m = true → mabove x (m.filter p) = true
  | [], _ => rfl
  | (k', v') :: rest, h => by
    simp only [mabove, Bool.and_eq_true] at h
    by_cases hp : p (k', v') <;> simp [List.filter, hp, mabove, h.1, mabove_filter p rest h.2]

theorem msorted_filter (p : Nat × α → Bool) : (m : SMap α) → msorted m = true → msorted (m.filter p) = true
  | [], _ => rfl
  | (k', v') :: rest, h => by
    simp only [msorted, Bool.and_eq_true] at h
    by_cases hp : p (k', v') <;> simp [List.filter, hp, msorted, mabove_filter p rest h.1, msorted_filter p rest h.2]

variable [DecidableEq α]

/-- What is written is read back. -/
@[simp] theorem mget_mset_self (d : α) (m : SMap α) (k : Nat) (v : α) : mget d (mset d m k v) k = v := by
  by_cases h : v = d <;> simp [mget, mset, h, mfind_merase_self, mfind_minsert_self]

/-- A write leaves every other key alone. -/
theorem mget_mset_ne (d : α) (m : SMap α) {k j : Nat} (v : α) (h : j ≠ k) : mget d (mset d m k v) j = mget d m j := by
  by_cases hv : v = d <;> simp [mget, mset, hv, mfind_merase_ne _ h, mfind_minsert_ne _ _ h]

/-- A write leaves every other key alone, whatever the two defaults are. -/
theorem mget_mset_ne' (d d' : α) (m : SMap α) {k j : Nat} (v : α) (h : j ≠ k) : mget d' (mset d m k v) j = mget d' m j := by
  by_cases hv : v = d <;> simp [mget, mset, hv, mfind_merase_ne _ h, mfind_minsert_ne _ _ h]

theorem mnodef_minsert (d : Nat → α) (k : Nat) (v : α) (hv : v ≠ d k) : (m : SMap α) → mnodef d m = true → mnodef d (minsert m k v) = true
  | [], _ => by simp [minsert, mnodef, hv]
  | (k', v') :: rest, h => by
    simp only [mnodef, Bool.and_eq_true, Bool.not_eq_true', decide_eq_false_iff_not] at h
    by_cases h1 : k < k'
    · simp [minsert, h1, mnodef, hv, h.1, h.2]
    · by_cases h2 : k = k'
      · subst h2; simp [minsert, mnodef, hv, h.2]
      · simp [minsert, h1, h2, mnodef, h.1, mnodef_minsert d k v hv rest h.2]

theorem mnodef_merase (d : Nat → α) (k : Nat) : (m : SMap α) → mnodef d m = true → mnodef d (merase m k) = true
  | [], _ => rfl
  | (k', v') :: rest, h => by
    simp only [mnodef, Bool.and_eq_true] at h
    by_cases h1 : k' = k
    · simp [merase, h1, mnodef_merase d k rest h.2]
    · simp only [merase, h1, if_false, mnodef, Bool.and_eq_true]
      exact ⟨h.1, mnodef_merase d k rest h.2⟩

/-- A write of a key with its default keeps the canonical form. -/
theorem mwf_mset (d : Nat → α) (m : SMap α) (k : Nat) (v : α) (h : mwf d m = true) : mwf d (mset (d k) m k v) = true := by
  simp only [mwf, Bool.and_eq_true] at h ⊢
  by_cases hv : v = d k
  · simp [mset, hv, msorted_merase k m h.1, mnodef_merase d k m h.2]
  · simp [mset, hv, msorted_minsert k v m h.1, mnodef_minsert d k v hv m h.2]

theorem mnodef_filter (d : Nat → α) (p : Nat × α → Bool) : (m : SMap α) → mnodef d m = true → mnodef d (m.filter p) = true
  | [], _ => rfl
  | (k', v') :: rest, h => by
    simp only [mnodef, Bool.and_eq_true] at h
    by_cases hp : p (k', v')
    · simp only [List.filter, hp, mnodef, Bool.and_eq_true]
      exact ⟨h.1, mnodef_filter d p rest h.2⟩
    · simp [List.filter, hp, mnodef_filter d p rest h.2]

/-- Unlisting entries keeps the canonical form. -/
theorem mwf_filter (d : Nat → α) (p : Nat × α → Bool) (m : SMap α) (h : mwf d m = true) : mwf d (m.filter p) = true := by
  simp only [mwf, Bool.and_eq_true] at h ⊢
  exact ⟨msorted_filter p m h.1, mnodef_filter d p m h.2⟩

end Sys2Proof.Machine
end

