-- ==== Sys2Proof/Laws/Regs.lean ====
section
/-! SUPPORT. The register words: reading after writing, and the canonical form of the register store. -/

namespace Sys2Proof.Machine

/-- A word put in force reads back. -/
@[simp] theorem State.word_setWord (s : State) (obj sel idx : Nat) (w : Word) : (s.setWord obj sel idx w).word obj sel idx = w := by
  simp [State.word, State.setWord, regGet, regSet]

/-- Two places have one key only if they are one place. -/
theorem wkey_inj {o e i o' e' i' : Nat} (he : e < 256) (hi : i < 2 ^ 24) (he' : e' < 256) (hi' : i' < 2 ^ 24)
    (h : wkey o e i = wkey o' e' i') : o = o' ∧ e = e' ∧ i = i' := by
  simp only [wkey] at h
  omega

/-- A word put in force leaves the words of other keys alone. -/
theorem State.word_setWord_ne (s : State) {obj sel idx o e i : Nat} (w : Word) (h : wkey o e i ≠ wkey obj sel idx) :
    (s.setWord obj sel idx w).word o e i = s.word o e i := by
  simp only [State.word, State.setWord, regGet, regSet]
  exact mget_mset_ne' _ _ _ _ h

/-- A field of another key. -/
theorem State.get_put_ne (s : State) (f g : Field) (i j v : Nat) (h : wkey g.obj g.sel j ≠ wkey f.obj f.sel i) :
    (s.put f i v).get g j = s.get g j := by
  simp only [State.get, State.put, State.word_setWord_ne _ _ h]

/-- A written field reads as what was written, cut to its width. -/
theorem State.get_put_self (s : State) (f : Field) (i v : Nat) (h1 : f.lo ≤ f.hi) (h2 : f.hi < 64) :
    (s.put f i v).get f i = v % 2 ^ (f.hi - f.lo + 1) := by
  simp only [State.get, State.put, State.word_setWord]
  exact bits_setBits_self h1 h2

/-- A field beside the written one, in the same word. -/
theorem State.get_put_apart (s : State) (f g : Field) (i v : Nat) (h0 : f.obj = g.obj) (h0' : f.sel = g.sel) (h1 : f.lo ≤ f.hi) (h2 : f.hi < 64)
    (h3 : g.lo ≤ g.hi) (h4 : g.hi < 64) (h : f.hi < g.lo ∨ g.hi < f.lo) : (s.put f i v).get g i = s.get g i := by
  simp only [State.get, State.put, h0, h0', State.word_setWord]
  exact bits_setBits_apart h1 h2 h3 h4 h

/-- Writing a word keeps the canonical form. -/
theorem canon_State_setWord {s : State} (obj sel idx : Nat) (w : Word) (h : s.canon = true) : (s.setWord obj sel idx w).canon = true :=
  mwf_mset resetKey s.regs (wkey obj sel idx) w h

/-- Writing a field keeps the canonical form. -/
theorem canon_State_put {s : State} (f : Field) (idx v : Nat) (h : s.canon = true) : (s.put f idx v).canon = true :=
  canon_State_setWord _ _ _ _ h

/-- Counting keeps the canonical form. -/
theorem canon_State_satInc {s : State} (f : Field) (idx n : Nat) (h : s.canon = true) : (s.satInc f idx n).canon = true :=
  canon_State_put _ _ _ h

/-- Counting keeps the canonical form. -/
theorem canon_State_wrapInc {s : State} (f : Field) (idx n : Nat) (h : s.canon = true) : (s.wrapInc f idx n).canon = true :=
  canon_State_put _ _ _ h

/-- What does not touch the registers keeps their canonical form. -/
theorem State.canon_of_regs {s t : State} (h : s.canon = true) (e : t.regs = s.regs) : t.canon = true := by
  simpa [State.canon, e] using h

/-- A step repeated over a list keeps the canonical form when each does. -/
theorem canon_foldl {α : Type} (f : State → α → State) (hf : ∀ s a, s.canon = true → (f s a).canon = true) :
    (l : List α) → (s : State) → s.canon = true → (l.foldl f s).canon = true
  | [], _, h => h
  | a :: rest, s, h => canon_foldl f hf rest (f s a) (hf s a h)

end Sys2Proof.Machine
end

