-- ==== Sys2Proof/Laws/Canon.lean ====
section
/-! SUPPORT. The canonical form of the register store, through what steps are built of. -/

namespace Sys2Proof.Machine

/-- Every state a result of row 7 holds is canonical. -/
def Result.canon : Result → Bool
  | .fail _ _ _ => true
  | .done s _ _ _ => s.canon
  | .later s => s.canon
  | .loose s => s.canon
  | .system s => s.canon

/-- The state an outcome answers is canonical. -/
def resCanon : Res → Bool
  | .next s => s.canon
  | _ => true

theorem canon_mk {p : List Instr} {r : SMap Word} {a1 a2 a3 a4 a5 a6 a7 a8 a9 a10 a11 a12 a13 a14 a15 a16 a17 a18 a19 a20 a21 a22 a23 a24 a25 a26 a27 a28 a29 a30 a31 a32 a33 a34 a35 a36 a37 a38 a39 a40} :
    ((State.mk p r a1 a2 a3 a4 a5 a6 a7 a8 a9 a10 a11 a12 a13 a14 a15 a16 a17 a18 a19 a20 a21 a22 a23 a24 a25 a26 a27 a28 a29 a30 a31 a32 a33 a34 a35 a36 a37 a38 a39 a40).canon = true) = (mwf resetKey r = true) := id rfl

theorem canon_regs {s : State} (h : s.canon = true) : mwf resetKey s.regs = true := h

theorem canon_ite {c : Prop} [Decidable c] {a b : State} (ha : a.canon = true) (hb : b.canon = true) : (if c then a else b).canon = true := by
  split <;> assumption

theorem resultCanon_ite {c : Prop} [Decidable c] {a b : Result} (ha : a.canon = true) (hb : b.canon = true) : (if c then a else b).canon = true := by
  split <;> assumption

theorem resCanon_ite {c : Prop} [Decidable c] {a b : Res} (ha : resCanon a = true) (hb : resCanon b = true) : resCanon (if c then a else b) = true := by
  split <;> assumption

/-- The state a match on an outcome binds is canonical where the outcome is. -/
theorem canon_of_next {r : Res} {t : State} (e : r = .next t) (h : resCanon r = true) : t.canon = true := by
  subst e; exact h
/-- The same of a result. -/
theorem canon_of_done {r : Result} {t : State} {a b : Nat} {w : List Word} (e : r = .done t a b w) (h : r.canon = true) : t.canon = true := by
  subst e; exact h
/-- The same of a result. -/
theorem canon_of_later {r : Result} {t : State} (e : r = .later t) (h : r.canon = true) : t.canon = true := by
  subst e; exact h
/-- The same of a result. -/
theorem canon_of_loose {r : Result} {t : State} (e : r = .loose t) (h : r.canon = true) : t.canon = true := by
  subst e; exact h
/-- The same of a result. -/
theorem canon_of_system {r : Result} {t : State} (e : r = .system t) (h : r.canon = true) : t.canon = true := by
  subst e; exact h

/-- A state that may be absent is canonical where it stands. -/
def optCanon : Option State → Bool
  | none => true
  | some s => s.canon

theorem optCanon_ite {c : Prop} [Decidable c] {a b : Option State} (ha : optCanon a = true) (hb : optCanon b = true) :
    optCanon (if c then a else b) = true := by
  split <;> assumption

theorem optCanon_some {s : State} (h : s.canon = true) : optCanon (some s) = true := h
theorem optCanon_none : optCanon none = true := rfl

theorem canon_of_some {o : Option State} {t : State} (e : o = some t) (h : optCanon o = true) : t.canon = true := by
  subst e; exact h

theorem canon_getD {o : Option State} {s : State} (h : optCanon o = true) (hs : s.canon = true) : (o.getD s).canon = true := by
  cases o <;> assumption

theorem canon_next {s : State} (h : s.canon = true) : resCanon (.next s) = true := h
theorem canon_fail {a b : Nat} {w : List Word} : (Result.fail a b w).canon = true := rfl
theorem canon_done {s : State} {a b : Nat} {w : List Word} (h : s.canon = true) : (Result.done s a b w).canon = true := h
theorem canon_later {s : State} (h : s.canon = true) : (Result.later s).canon = true := h
theorem canon_loose {s : State} (h : s.canon = true) : (Result.loose s).canon = true := h
theorem canon_system {s : State} (h : s.canon = true) : (Result.system s).canon = true := h

end Sys2Proof.Machine
end

