-- ==== Sys2Proof/Laws/CanonOps.lean ====
section
/-! SUPPORT. The canonical form of the register store is kept by Machine/Ops.lean. -/

set_option linter.all false

namespace Sys2Proof.Machine

theorem canon_State_setHq (s : State) (q : Nat) (h : HQueue) (h_s : s.canon = true) : (State.setHq s q h).canon = true := by
  unfold State.setHq
  repeat' (first | with_reducible assumption | intro _ | with_reducible apply canon_ite | with_reducible apply canon_regs | with_reducible apply canon_foldl | dsimp only | simp only [canon_mk] | split)

theorem canon_emit (s : State) (q : Nat) (r : Rec) (h_s : s.canon = true) : (emit s q r).canon = true := by
  unfold emit
  repeat' (first | with_reducible assumption | intro _ | with_reducible apply canon_State_setHq | with_reducible apply canon_State_satInc | with_reducible apply canon_ite | with_reducible apply canon_regs | with_reducible apply canon_foldl | dsimp only | simp only [canon_mk] | split)

theorem canon_emitFor (s : State) (q : Nat) (full : Nat) (r : Rec) (h_s : s.canon = true) : (emitFor s q full r).canon = true := by
  unfold emitFor
  repeat' (first | with_reducible assumption | intro _ | with_reducible apply canon_State_setHq | with_reducible apply canon_emit | with_reducible apply canon_ite | with_reducible apply canon_regs | with_reducible apply canon_foldl | dsimp only | simp only [canon_mk] | split)

theorem canon_emitAll (s : State) (r : Rec) (h_s : s.canon = true) : (emitAll s r).canon = true := by
  unfold emitAll
  repeat' (first | with_reducible assumption | intro _ | with_reducible apply canon_emit | with_reducible apply canon_ite | with_reducible apply canon_regs | with_reducible apply canon_foldl | dsimp only | simp only [canon_mk] | split)

theorem canon_State_setFull (s : State) (f : Nat) (h_s : s.canon = true) : (State.setFull s f).canon = true := by
  unfold State.setFull
  repeat' (first | with_reducible assumption | intro _ | with_reducible apply canon_ite | with_reducible apply canon_regs | with_reducible apply canon_foldl | dsimp only | simp only [canon_mk] | split)

theorem canon_epochAll (s : State) (r : Rec) (h_s : s.canon = true) : (epochAll s r).canon = true := by
  unfold epochAll
  repeat' (first | with_reducible assumption | intro _ | with_reducible apply canon_State_setHq | with_reducible apply canon_ite | with_reducible apply canon_regs | with_reducible apply canon_foldl | dsimp only | simp only [canon_mk] | split)

theorem canon_advance (s : State) (n : Nat) (h_s : s.canon = true) : (advance s n).canon = true := by
  unfold advance
  repeat' (first | with_reducible assumption | intro _ | with_reducible apply canon_State_setFull | with_reducible apply canon_epochAll | with_reducible apply canon_ite | with_reducible apply canon_regs | with_reducible apply canon_foldl | dsimp only | simp only [canon_mk] | split)

theorem canon_advanceTo (s : State) (t : Nat) (h_s : s.canon = true) : (advanceTo s t).canon = true := by
  unfold advanceTo
  repeat' (first | with_reducible assumption | intro _ | with_reducible apply canon_advance | with_reducible apply canon_ite | with_reducible apply canon_regs | with_reducible apply canon_foldl | dsimp only | simp only [canon_mk] | split)

theorem canon_advanceFull (s : State) (f : Nat) (h_s : s.canon = true) : (advanceFull s f).canon = true := by
  unfold advanceFull
  repeat' (first | with_reducible assumption | intro _ | with_reducible apply canon_advance | with_reducible apply canon_ite | with_reducible apply canon_regs | with_reducible apply canon_foldl | dsimp only | simp only [canon_mk] | split)

theorem canon_event (s : State) (part : Nat) (cls : Nat) (code : Nat) (stat : Nat) (subject : Nat) (detail : List Word) (h_s : s.canon = true) : (event s part cls code stat subject detail).canon = true := by
  unfold event
  repeat' (first | with_reducible assumption | intro _ | with_reducible apply canon_emit | with_reducible apply canon_ite | with_reducible apply canon_regs | with_reducible apply canon_foldl | dsimp only | simp only [canon_mk] | split)

theorem canon_eventBoth (s : State) (part : Nat) (cls : Nat) (code : Nat) (stat : Nat) (subject : Nat) (detail : List Word) (h_s : s.canon = true) : (eventBoth s part cls code stat subject detail).canon = true := by
  unfold eventBoth
  repeat' (first | with_reducible assumption | intro _ | with_reducible apply canon_event | with_reducible apply canon_ite | with_reducible apply canon_regs | with_reducible apply canon_foldl | dsimp only | simp only [canon_mk] | split)

theorem canon_raise (s : State) (source : Nat) (cause : Nat) (sub : Nat) (injected : Bool) (h_s : s.canon = true) : (raise s source cause sub injected).canon = true := by
  unfold raise
  repeat' (first | with_reducible assumption | intro _ | with_reducible apply canon_ite | with_reducible apply canon_regs | with_reducible apply canon_foldl | dsimp only | simp only [canon_mk] | split)

theorem canon_awlTake (s : State) (source : Nat) (h_s : s.canon = true) : (awlTake s source).1.canon = true := by
  unfold awlTake
  repeat' (first | with_reducible assumption | intro _ | with_reducible apply canon_ite | with_reducible apply canon_regs | with_reducible apply canon_foldl | dsimp only | simp only [canon_mk] | split)

theorem canon_awlTake_eq {s : State} {source : Nat} {q : State × _} (e : awlTake s source = q) (h_s : s.canon = true) : q.1.canon = true := e ▸ canon_awlTake s source h_s

theorem canon_linkDelivers (s : State) (rx : Nat) (tx : Nat) (h_s : s.canon = true) : (linkDelivers s rx tx).canon = true := by
  unfold linkDelivers
  repeat' (first | with_reducible assumption | intro _ | with_reducible apply canon_ite | with_reducible apply canon_regs | with_reducible apply canon_foldl | dsimp only | simp only [canon_mk] | split)

theorem canon_saddleFail (s : State) (rx : Nat) (tx : Nat) (wire : Nat) (injected : Bool) (h_s : s.canon = true) : (saddleFail s rx tx wire injected).canon = true := by
  unfold saddleFail
  repeat' (first | with_reducible assumption | intro _ | with_reducible apply canon_raise | with_reducible apply canon_ite | with_reducible apply canon_regs | with_reducible apply canon_foldl | dsimp only | simp only [canon_mk] | split)

theorem canon_crosses (s : State) (rx : Nat) (tx : Nat) (k : State → State) (h_s : s.canon = true) (h_k : ∀ (x0 : State), x0.canon = true → (k x0).canon = true) : (crosses s rx tx k).canon = true := by
  unfold crosses
  repeat' (first | with_reducible assumption | intro _ | with_reducible apply h_k | with_reducible exact canon_awlTake_eq (by with_reducible assumption) (by with_reducible assumption) | with_reducible apply canon_saddleFail | with_reducible apply canon_linkDelivers | with_reducible apply canon_awlTake | with_reducible apply canon_ite | with_reducible apply canon_regs | with_reducible apply canon_foldl | dsimp only | simp only [canon_mk] | split)

theorem canon_ergRead (s : State) (n : Nat) (h_s : s.canon = true) : (ergRead s n).1.canon = true := by
  unfold ergRead
  repeat' (first | with_reducible assumption | intro _ | with_reducible exact canon_awlTake_eq (by with_reducible assumption) (by with_reducible assumption) | with_reducible apply canon_awlTake | with_reducible apply canon_ite | with_reducible apply canon_regs | with_reducible apply canon_foldl | dsimp only | simp only [canon_mk] | split)

theorem canon_ergRead_eq {s : State} {n : Nat} {q : State × _} (e : ergRead s n = q) (h_s : s.canon = true) : q.1.canon = true := e ▸ canon_ergRead s n h_s

theorem canon_dataLost (s : State) (source : Nat) (n : Nat) (h_s : s.canon = true) : (dataLost s source n).canon = true := by
  unfold dataLost
  repeat' (first | with_reducible assumption | intro _ | with_reducible apply canon_State_satInc | with_reducible apply canon_ite | with_reducible apply canon_regs | with_reducible apply canon_foldl | dsimp only | simp only [canon_mk] | split)

theorem canon_State_setLane (s : State) (l : Nat) (x : LaneX) (h_s : s.canon = true) : (State.setLane s l x).canon = true := by
  unfold State.setLane
  repeat' (first | with_reducible assumption | intro _ | with_reducible apply canon_ite | with_reducible apply canon_regs | with_reducible apply canon_foldl | dsimp only | simp only [canon_mk] | split)

theorem canon_State_setGroup (s : State) (g : Nat) (x : GroupX) (h_s : s.canon = true) : (State.setGroup s g x).canon = true := by
  unfold State.setGroup
  repeat' (first | with_reducible assumption | intro _ | with_reducible apply canon_ite | with_reducible apply canon_regs | with_reducible apply canon_foldl | dsimp only | simp only [canon_mk] | split)

theorem canon_State_setModel (s : State) (l : Nat) (x : Model) (h_s : s.canon = true) : (State.setModel s l x).canon = true := by
  unfold State.setModel
  repeat' (first | with_reducible assumption | intro _ | with_reducible apply canon_ite | with_reducible apply canon_regs | with_reducible apply canon_foldl | dsimp only | simp only [canon_mk] | split)

theorem canon_State_setTxn (s : State) (t : Nat) (x : Txn) (h_s : s.canon = true) : (State.setTxn s t x).canon = true := by
  unfold State.setTxn
  repeat' (first | with_reducible assumption | intro _ | with_reducible apply canon_ite | with_reducible apply canon_regs | with_reducible apply canon_foldl | dsimp only | simp only [canon_mk] | split)

theorem canon_State_setIng (s : State) (g : Nat) (x : Ingress) (h_s : s.canon = true) : (State.setIng s g x).canon = true := by
  unfold State.setIng
  repeat' (first | with_reducible assumption | intro _ | with_reducible apply canon_ite | with_reducible apply canon_regs | with_reducible apply canon_foldl | dsimp only | simp only [canon_mk] | split)

theorem canon_State_setTile (s : State) (t : Nat) (x : Tile) (h_s : s.canon = true) : (State.setTile s t x).canon = true := by
  unfold State.setTile
  repeat' (first | with_reducible assumption | intro _ | with_reducible apply canon_ite | with_reducible apply canon_regs | with_reducible apply canon_foldl | dsimp only | simp only [canon_mk] | split)

theorem canon_State_setHlane (s : State) (l : Nat) (x : HLane) (h_s : s.canon = true) : (State.setHlane s l x).canon = true := by
  unfold State.setHlane
  repeat' (first | with_reducible assumption | intro _ | with_reducible apply canon_ite | with_reducible apply canon_regs | with_reducible apply canon_foldl | dsimp only | simp only [canon_mk] | split)

theorem canon_send (s : State) (o : Out) (h_s : s.canon = true) : (send s o).canon = true := by
  unfold send
  repeat' (first | with_reducible assumption | intro _ | with_reducible apply canon_ite | with_reducible apply canon_regs | with_reducible apply canon_foldl | dsimp only | simp only [canon_mk] | split)

theorem canon_transmit (s : State) (o : Out) (h_s : s.canon = true) : (transmit s o).canon = true := by
  unfold transmit
  repeat' (first | with_reducible assumption | intro _ | with_reducible apply canon_send | with_reducible apply canon_ite | with_reducible apply canon_regs | with_reducible apply canon_foldl | dsimp only | simp only [canon_mk] | split)

theorem canon_passBlocks (s : State) (l : Nat) (n : Nat) (h_s : s.canon = true) : (passBlocks s l n).canon = true := by
  unfold passBlocks
  repeat' (first | with_reducible assumption | intro _ | with_reducible apply canon_send | with_reducible apply canon_State_setLane | with_reducible apply canon_ite | with_reducible apply canon_regs | with_reducible apply canon_foldl | dsimp only | simp only [canon_mk] | split)

theorem canon_sendBlock (s : State) (l : Nat) (type : Nat) (content : Nat) (h_s : s.canon = true) : (sendBlock s l type content).canon = true := by
  unfold sendBlock
  repeat' (first | with_reducible assumption | intro _ | with_reducible apply canon_transmit | with_reducible apply canon_passBlocks | with_reducible apply canon_ite | with_reducible apply canon_regs | with_reducible apply canon_foldl | dsimp only | simp only [canon_mk] | split)

theorem canon_dealBlocks (s : State) (g : Nat) (n : Nat) (h_s : s.canon = true) : (dealBlocks s g n).canon = true := by
  unfold dealBlocks
  repeat' (first | with_reducible assumption | intro _ | with_reducible apply canon_passBlocks | with_reducible apply canon_State_setGroup | with_reducible apply canon_ite | with_reducible apply canon_regs | with_reducible apply canon_foldl | dsimp only | simp only [canon_mk] | split)

theorem canon_sendHost (s : State) (lane : Nat) (kind : Nat) (low : Nat) (ws : List Word) (h_s : s.canon = true) : (sendHost s lane kind low ws).canon = true := by
  unfold sendHost
  repeat' (first | with_reducible assumption | intro _ | with_reducible apply canon_dealBlocks | with_reducible apply canon_State_setHlane | with_reducible apply canon_transmit | with_reducible apply canon_ite | with_reducible apply canon_regs | with_reducible apply canon_foldl | dsimp only | simp only [canon_mk] | split)

theorem canon_State_setChan (s : State) (p : Nat) (b : Busy) (h_s : s.canon = true) : (State.setChan s p b).canon = true := by
  unfold State.setChan
  repeat' (first | with_reducible assumption | intro _ | with_reducible apply canon_ite | with_reducible apply canon_regs | with_reducible apply canon_foldl | dsimp only | simp only [canon_mk] | split)

theorem canon_freeChan (s : State) (p : Nat) (h_s : s.canon = true) : (freeChan s p).canon = true := by
  unfold freeChan
  repeat' (first | with_reducible assumption | intro _ | with_reducible apply canon_State_setChan | with_reducible apply canon_ite | with_reducible apply canon_regs | with_reducible apply canon_foldl | dsimp only | simp only [canon_mk] | split)

theorem canon_sendReply (s : State) (c : Cmd) (op : Nat) (stat : Nat) (detail : Nat) (ws : List Word) (frees : Bool) (h_s : s.canon = true) : (sendReply s c op stat detail ws frees).canon = true := by
  unfold sendReply
  repeat' (first | with_reducible assumption | intro _ | with_reducible apply canon_State_setHlane | with_reducible apply canon_freeChan | with_reducible apply canon_ite | with_reducible apply canon_regs | with_reducible apply canon_foldl | dsimp only | simp only [canon_mk] | split)

theorem canon_finish (s : State) (c : Cmd) (op : Nat) (stat : Nat) (detail : Nat) (ws : List Word) (h_s : s.canon = true) : (finish s c op stat detail ws).canon = true := by
  unfold finish
  repeat' (first | with_reducible assumption | intro _ | with_reducible apply canon_sendReply | with_reducible apply canon_State_setChan | with_reducible apply canon_ite | with_reducible apply canon_regs | with_reducible apply canon_foldl | dsimp only | simp only [canon_mk] | split)

theorem canon_noteGrant (s : State) (arbiter : Nat) (waiting : List Nat) (got : Nat) (h_s : s.canon = true) : (noteGrant s arbiter waiting got).canon = true := by
  unfold noteGrant
  repeat' (first | with_reducible assumption | intro _ | with_reducible apply canon_ite | with_reducible apply canon_regs | with_reducible apply canon_foldl | dsimp only | simp only [canon_mk] | split)

theorem canon_settle (s : State) (c : Cmd) (op : Nat) (r : Result) (h_s : s.canon = true) (h_r : r.canon = true) : (settle s c op r).canon = true := by
  cases r with
  | fail a b w => exact canon_finish _ _ _ _ _ _ (canon_ite (canon_State_satInc _ _ _ h_s) h_s)
  | done t a b w => exact canon_finish _ _ _ _ _ _ (canon_State_satInc _ _ _ h_r)
  | later t => exact canon_State_setChan _ _ _ (canon_State_satInc _ _ _ h_r)
  | loose t => exact canon_State_satInc _ _ _ h_r
  | system t => exact canon_State_satInc F.part3_accepted c.part 1 h_r

theorem canon_lockstepFault (s : State) (injected : Bool) (h_s : s.canon = true) : (lockstepFault s injected).canon = true := by
  unfold lockstepFault
  repeat' (first | with_reducible assumption | intro _ | with_reducible apply canon_raise | with_reducible apply canon_ite | with_reducible apply canon_regs | with_reducible apply canon_foldl | dsimp only | simp only [canon_mk] | split)

theorem canon_internalFault (s : State) (c : Cmd) (op : Nat) (h_s : s.canon = true) : (internalFault s c op).canon = true := by
  unfold internalFault
  repeat' (first | with_reducible assumption | intro _ | with_reducible apply canon_raise | with_reducible apply canon_finish | with_reducible apply canon_ite | with_reducible apply canon_regs | with_reducible apply canon_foldl | dsimp only | simp only [canon_mk] | split)

theorem canon_runCmd (op : Nat) (c : Cmd) (body : State → Result) (s : State) (h_body : ∀ (x0 : State), x0.canon = true → (body x0).canon = true) (h_s : s.canon = true) : (runCmd op c body s).canon = true := by
  unfold runCmd
  repeat' (first | with_reducible assumption | intro _ | with_reducible apply h_body | with_reducible apply canon_advanceTo | with_reducible apply canon_sendReply | with_reducible apply canon_State_satInc | with_reducible apply canon_finish | with_reducible exact canon_awlTake_eq (by with_reducible assumption) (by with_reducible assumption) | with_reducible apply canon_internalFault | with_reducible apply canon_lockstepFault | with_reducible apply canon_settle | with_reducible apply canon_awlTake | with_reducible apply canon_ite | with_reducible apply canon_regs | with_reducible apply canon_foldl | dsimp only | simp only [canon_mk] | split)

theorem canon_checked (c : Cmd) (sys : Bool) (count : Nat) (k : Result) (h_k : k.canon = true) : (checked c sys count k).canon = true := by
  unfold checked
  repeat' (first | with_reducible assumption | intro _ | with_reducible apply canon_ite | with_reducible apply canon_regs | with_reducible apply canon_foldl | with_reducible apply canon_done | with_reducible apply canon_later | with_reducible apply canon_loose | with_reducible apply canon_system | with_reducible apply canon_fail | with_reducible apply resultCanon_ite | dsimp only | simp only [canon_mk] | split)

theorem canon_refuseIf (b : Bool) (stat : Nat) (detail : Nat) (k : Result) (h_k : k.canon = true) : (refuseIf b stat detail k).canon = true := by
  unfold refuseIf
  repeat' (first | with_reducible assumption | intro _ | with_reducible apply canon_ite | with_reducible apply canon_regs | with_reducible apply canon_foldl | with_reducible apply canon_done | with_reducible apply canon_later | with_reducible apply canon_loose | with_reducible apply canon_system | with_reducible apply canon_fail | with_reducible apply resultCanon_ite | dsimp only | simp only [canon_mk] | split)

theorem canon_noMore (c : Cmd) (count : Nat) (k : Result) (h_k : k.canon = true) : (noMore c count k).canon = true := by
  unfold noMore
  repeat' (first | with_reducible assumption | intro _ | with_reducible apply canon_refuseIf | with_reducible apply canon_ite | with_reducible apply canon_regs | with_reducible apply canon_foldl | with_reducible apply canon_done | with_reducible apply canon_later | with_reducible apply canon_loose | with_reducible apply canon_system | with_reducible apply canon_fail | with_reducible apply resultCanon_ite | dsimp only | simp only [canon_mk] | split)

end Sys2Proof.Machine
end

