-- ==== Sys2Proof/Laws/CanonChannel.lean ====
section
/-! SUPPORT. The canonical form of the register store is kept by Machine/Channel.lean. -/

set_option linter.all false

namespace Sys2Proof.Machine

theorem canon_noteShed (s : State) (tile : Nat) (k : Nat) (level : Nat) (bits : Nat) (h_s : s.canon = true) : (noteShed s tile k level bits).canon = true := by
  unfold noteShed
  repeat' (first | with_reducible assumption | intro _ | with_reducible apply canon_State_setTile | with_reducible apply canon_ite | with_reducible apply canon_regs | with_reducible apply canon_foldl | dsimp only | simp only [canon_mk] | split)

theorem canon_countShed (s : State) (c : Nat) (full : Nat) (level : Nat) (h_s : s.canon = true) : (countShed s c full level).canon = true := by
  unfold countShed
  repeat' (first | with_reducible assumption | intro _ | with_reducible apply canon_State_satInc | with_reducible apply canon_noteShed | with_reducible apply canon_ite | with_reducible apply canon_regs | with_reducible apply canon_foldl | dsimp only | simp only [canon_mk] | split)

theorem canon_State_setComp (s : State) (ci : Nat) (x : Comp) (h_s : s.canon = true) : (State.setComp s ci x).canon = true := by
  unfold State.setComp
  repeat' (first | with_reducible assumption | intro _ | with_reducible apply canon_ite | with_reducible apply canon_regs | with_reducible apply canon_foldl | dsimp only | simp only [canon_mk] | split)

theorem canon_State_setInp (s : State) (i : Nat) (x : Input) (h_s : s.canon = true) : (State.setInp s i x).canon = true := by
  unfold State.setInp
  repeat' (first | with_reducible assumption | intro _ | with_reducible apply canon_ite | with_reducible apply canon_regs | with_reducible apply canon_foldl | dsimp only | simp only [canon_mk] | split)

theorem canon_State_setPgroup (s : State) (g : Nat) (x : PGroup) (h_s : s.canon = true) : (State.setPgroup s g x).canon = true := by
  unfold State.setPgroup
  repeat' (first | with_reducible assumption | intro _ | with_reducible apply canon_ite | with_reducible apply canon_regs | with_reducible apply canon_foldl | dsimp only | simp only [canon_mk] | split)

theorem canon_monitorStamp (s : State) (r : Nat) (t : Nat) (disturbed : Bool) (h_s : s.canon = true) : (monitorStamp s r t disturbed).canon = true := by
  unfold monitorStamp
  repeat' (first | with_reducible assumption | intro _ | with_reducible apply canon_ite | with_reducible apply canon_regs | with_reducible apply canon_foldl | dsimp only | simp only [canon_mk] | split)

theorem canon_dropPrec (s : State) (c : Nat) (h_s : s.canon = true) : (dropPrec s c).canon = true := by
  unfold dropPrec
  repeat' (first | with_reducible assumption | intro _ | with_reducible apply canon_State_satInc | with_reducible apply canon_ite | with_reducible apply canon_regs | with_reducible apply canon_foldl | dsimp only | simp only [canon_mk] | split)

theorem canon_sendPrec (s : State) (h : THit) (h_s : s.canon = true) : (sendPrec s h).canon = true := by
  unfold sendPrec
  repeat' (first | with_reducible assumption | intro _ | with_reducible apply canon_dropPrec | with_reducible apply canon_countShed | with_reducible apply canon_State_put | with_reducible apply canon_ite | with_reducible apply canon_regs | with_reducible apply canon_foldl | dsimp only | simp only [canon_mk] | split)

end Sys2Proof.Machine
end

