-- ==== Sys2Proof/Laws/CanonPrecision.lean ====
section
/-! SUPPORT. The canonical form of the register store is kept by Machine/Precision.lean. -/

set_option linter.all false

namespace Sys2Proof.Machine

theorem canon_State_setInterp (s : State) (n : Nat) (x : Interp) (h_s : s.canon = true) : (State.setInterp s n x).canon = true := by
  unfold State.setInterp
  repeat' (first | with_reducible assumption | intro _ | with_reducible apply canon_ite | with_reducible apply canon_regs | with_reducible apply canon_foldl | dsimp only | simp only [canon_mk] | split)

theorem canon_addSample (s : State) (n : Nat) (c : Nat) (live : Bool) (h_s : s.canon = true) : (addSample s n c live).canon = true := by
  unfold addSample
  repeat' (first | with_reducible assumption | intro _ | with_reducible apply canon_State_setInterp | with_reducible apply canon_ite | with_reducible apply canon_regs | with_reducible apply canon_foldl | dsimp only | simp only [canon_mk] | split)

theorem canon_flushSamples (s : State) (n : Nat) (h_s : s.canon = true) : (flushSamples s n).canon = true := by
  unfold flushSamples
  repeat' (first | with_reducible assumption | intro _ | with_reducible apply canon_State_setInterp | with_reducible apply canon_addSample | with_reducible apply canon_ite | with_reducible apply canon_regs | with_reducible apply canon_foldl | dsimp only | simp only [canon_mk] | split)

theorem canon_pendSample (s : State) (n : Nat) (full : Nat) (code : Nat) (live : Bool) (h_s : s.canon = true) : (pendSample s n full code live).canon = true := by
  unfold pendSample
  repeat' (first | with_reducible assumption | intro _ | with_reducible apply canon_flushSamples | with_reducible apply canon_State_setInterp | with_reducible apply canon_ite | with_reducible apply canon_regs | with_reducible apply canon_foldl | dsimp only | simp only [canon_mk] | split)

theorem canon_dropPend (s : State) (ci : Nat) (bad : Nat → Bool) (h_s : s.canon = true) : (dropPend s ci bad).canon = true := by
  unfold dropPend
  repeat' (first | with_reducible assumption | intro _ | with_reducible apply canon_State_setInterp | with_reducible apply canon_ite | with_reducible apply canon_regs | with_reducible apply canon_foldl | dsimp only | simp only [canon_mk] | split)

theorem canon_ivTimeout (s : State) (i : Nat) (a1 : IvEdge) (t : Int) (overRate : Bool) (h_s : s.canon = true) : (ivTimeout s i a1 t overRate).canon = true := by
  unfold ivTimeout
  repeat' (first | with_reducible assumption | intro _ | with_reducible apply canon_State_satInc | with_reducible apply canon_State_setInp | with_reducible apply canon_sendPrec | with_reducible apply canon_ite | with_reducible apply canon_regs | with_reducible apply canon_foldl | dsimp only | simp only [canon_mk] | split)

theorem canon_ivDone (s : State) (i : Nat) (a1 : IvEdge) (b : IvEdge) (ta : Int) (tb : Int) (h_s : s.canon = true) : (ivDone s i a1 b ta tb).canon = true := by
  unfold ivDone
  repeat' (first | with_reducible assumption | intro _ | with_reducible apply canon_State_setInp | with_reducible apply canon_ite | with_reducible apply canon_regs | with_reducible apply canon_foldl | dsimp only | simp only [canon_mk] | split)

theorem canon_ivSettle (a1 : Nat) (a2 : State) (a3 : Nat) (h_a2 : a2.canon = true) : (ivSettle a1 a2 a3).canon = true := by
  induction a1 generalizing a2 a3 h_a2 with
  | zero =>
    unfold ivSettle
    repeat' (first | with_reducible assumption | intro _ | with_reducible apply ih | with_reducible apply canon_State_setInp | with_reducible apply canon_ivTimeout | with_reducible apply canon_ivDone | with_reducible apply canon_ite | with_reducible apply canon_regs | with_reducible apply canon_foldl | dsimp only | simp only [canon_mk] | split)
  | succ n ih =>
    unfold ivSettle
    repeat' (first | with_reducible assumption | intro _ | with_reducible apply ih | with_reducible apply canon_State_setInp | with_reducible apply canon_ivTimeout | with_reducible apply canon_ivDone | with_reducible apply canon_ite | with_reducible apply canon_regs | with_reducible apply canon_foldl | dsimp only | simp only [canon_mk] | split)

theorem canon_ivSettleAll (s : State) (h_s : s.canon = true) : (ivSettleAll s).canon = true := by
  unfold ivSettleAll
  repeat' (first | with_reducible assumption | intro _ | with_reducible apply canon_ivSettle | with_reducible apply canon_ite | with_reducible apply canon_regs | with_reducible apply canon_foldl | dsimp only | simp only [canon_mk] | split)

theorem canon_ivEdge (s : State) (ci : Nat) (full : Nat) (edge : Nat) (time : Option Int) (flags : Nat) (h_s : s.canon = true) : (ivEdge s ci full edge time flags).canon = true := by
  unfold ivEdge
  repeat' (first | with_reducible assumption | intro _ | with_reducible apply canon_State_setInp | with_reducible apply canon_ite | with_reducible apply canon_regs | with_reducible apply canon_foldl | dsimp only | simp only [canon_mk] | split)

theorem canon_ivKnown (s : State) (ci : Nat) (edge : Nat) (time : Int) (flags : Nat) (h_s : s.canon = true) : (ivKnown s ci edge time flags).canon = true := by
  unfold ivKnown
  repeat' (first | with_reducible assumption | intro _ | with_reducible apply canon_ite | with_reducible apply canon_regs | with_reducible apply canon_foldl | dsimp only | simp only [canon_mk] | split)

theorem canon_ivFlag (s : State) (ci : Nat) (at1 : Nat → Bool) (merged : Bool) (flag : Nat) (h_s : s.canon = true) : (ivFlag s ci at1 merged flag).canon = true := by
  unfold ivFlag
  repeat' (first | with_reducible assumption | intro _ | with_reducible apply canon_ite | with_reducible apply canon_regs | with_reducible apply canon_foldl | dsimp only | simp only [canon_mk] | split)

theorem canon_ivOverRate (s : State) (ci : Nat) (dev : Nat) (h_s : s.canon = true) : (ivOverRate s ci dev).canon = true := by
  unfold ivOverRate
  repeat' (first | with_reducible assumption | intro _ | with_reducible apply canon_ivSettleAll | with_reducible apply canon_ite | with_reducible apply canon_regs | with_reducible apply canon_foldl | dsimp only | simp only [canon_mk] | split)

theorem canon_ivOut (s : State) (ci : Nat) (within : Nat → Bool) (h_s : s.canon = true) : (ivOut s ci within).canon = true := by
  unfold ivOut
  repeat' (first | with_reducible assumption | intro _ | with_reducible apply canon_ite | with_reducible apply canon_regs | with_reducible apply canon_foldl | dsimp only | simp only [canon_mk] | split)

theorem canon_rawTransition (s : State) (ci : Nat) (raw : Nat) (dev : Nat) (h_s : s.canon = true) : (rawTransition s ci raw dev).canon = true := by
  unfold rawTransition
  extract_lets x close run w n kept ws s1 mark s2 s3 s4
  have h1 : s1.canon = true := canon_State_setComp s ci _ h_s
  have h4 : s4.canon = true := canon_State_put _ _ _ (canon_State_setComp s1 ci _ h1)
  split
  · exact canon_State_put _ _ _ h1
  · split
    · exact canon_ivOverRate _ _ _ h4
    · exact h4

theorem canon_mergeEdge (s : State) (ci : Nat) (leading : Bool) (lastDev : Nat) (h_s : s.canon = true) : (mergeEdge s ci leading lastDev).canon = true := by
  unfold mergeEdge
  repeat' (first | with_reducible assumption | intro _ | with_reducible apply canon_State_satInc | with_reducible apply canon_ivFlag | with_reducible apply canon_State_setComp | with_reducible apply canon_ite | with_reducible apply canon_regs | with_reducible apply canon_foldl | dsimp only | simp only [canon_mk] | split)

theorem canon_stampEdge (s : State) (ci : Nat) (raw : Nat) (dev : Nat) (leading : Bool) (h_s : s.canon = true) : (stampEdge s ci raw dev leading).canon = true := by
  unfold stampEdge
  extract_lets full i x slot coarse time s1 od g dist routed tot st x2 x3 s2
  have h1 : s1.canon = true := canon_ite (canon_State_satInc _ _ _ h_s) h_s
  clear_value x3
  with_reducible apply canon_ite
  · have h2 : s2.canon = true := canon_State_setComp _ _ _ h1
    with_reducible apply canon_ite
    · exact h2
    · with_reducible apply canon_ivSettleAll
      with_reducible apply canon_ivEdge
      exact h2
  · split
    · with_reducible apply canon_ite <;> exact canon_State_setComp _ _ _ h1
    · exact canon_State_satInc _ _ _ (canon_State_setComp _ _ _ h1)

theorem canon_execComparatorTransition (comparator : Nat) (rising : Bool) (edge : Nat) (s : State) (h_s : s.canon = true) : resCanon (execComparatorTransition comparator rising edge s) = true := by
  unfold execComparatorTransition
  repeat' (first | with_reducible assumption | intro _ | with_reducible apply canon_advanceTo | with_reducible apply canon_rawTransition | with_reducible apply canon_mergeEdge | with_reducible apply canon_stampEdge | with_reducible apply canon_ite | with_reducible apply canon_regs | with_reducible apply canon_foldl | with_reducible apply canon_next | with_reducible apply resCanon_ite | dsimp only | simp only [canon_mk] | split)

theorem canon_execOverRateEnd (comparator : Nat) (s : State) (h_s : s.canon = true) : resCanon (execOverRateEnd comparator s) = true := by
  unfold execOverRateEnd
  repeat' (first | with_reducible assumption | intro _ | with_reducible apply canon_advanceTo | with_reducible apply canon_State_put | with_reducible apply canon_State_setComp | with_reducible apply canon_ite | with_reducible apply canon_regs | with_reducible apply canon_foldl | with_reducible apply canon_next | with_reducible apply resCanon_ite | dsimp only | simp only [canon_mk] | split)

theorem canon_releaseHeld (a1 : Nat) (a2 : State) (a3 : Nat) (h_a2 : a2.canon = true) : (releaseHeld a1 a2 a3).canon = true := by
  induction a1 generalizing a2 a3 h_a2 with
  | zero =>
    unfold releaseHeld
    repeat' (first | with_reducible assumption | intro _ | with_reducible apply ih | with_reducible apply canon_State_setComp | with_reducible apply canon_monitorStamp | with_reducible apply canon_sendPrec | with_reducible apply canon_pulse | with_reducible apply canon_ite | with_reducible apply canon_regs | with_reducible apply canon_foldl | dsimp only | simp only [canon_mk] | split)
  | succ n ih =>
    unfold releaseHeld
    repeat' (first | with_reducible assumption | intro _ | with_reducible apply ih | with_reducible apply canon_State_setComp | with_reducible apply canon_monitorStamp | with_reducible apply canon_sendPrec | with_reducible apply canon_pulse | with_reducible apply canon_ite | with_reducible apply canon_regs | with_reducible apply canon_foldl | dsimp only | simp only [canon_mk] | split)

theorem canon_execStampRelease (comparator : Nat) (s : State) (h_s : s.canon = true) : resCanon (execStampRelease comparator s) = true := by
  unfold execStampRelease
  repeat' (first | with_reducible assumption | intro _ | with_reducible apply canon_advanceFull | with_reducible apply canon_releaseHeld | with_reducible apply canon_ite | with_reducible apply canon_regs | with_reducible apply canon_foldl | with_reducible apply canon_next | with_reducible apply resCanon_ite | dsimp only | simp only [canon_mk] | split)

theorem canon_execOverRateWindowEnd (comparator : Nat) (s : State) (h_s : s.canon = true) : resCanon (execOverRateWindowEnd comparator s) = true := by
  unfold execOverRateWindowEnd
  repeat' (first | with_reducible assumption | intro _ | with_reducible apply canon_advanceFull | with_reducible apply canon_dropPend | with_reducible apply canon_State_setComp | with_reducible apply canon_ivOut | with_reducible apply canon_State_satInc | with_reducible apply canon_releaseHeld | with_reducible apply canon_ite | with_reducible apply canon_regs | with_reducible apply canon_foldl | with_reducible apply canon_next | with_reducible apply resCanon_ite | dsimp only | simp only [canon_mk] | split)

theorem canon_knowStamp (s : State) (ci : Nat) (edge : Nat) (t : Int) (coarse : Bool) (h_s : s.canon = true) : (knowStamp s ci edge t coarse).canon = true := by
  unfold knowStamp
  repeat' (first | with_reducible assumption | intro _ | with_reducible apply canon_State_setComp | with_reducible apply canon_ivSettleAll | with_reducible apply canon_ivKnown | with_reducible apply canon_ite | with_reducible apply canon_regs | with_reducible apply canon_foldl | dsimp only | simp only [canon_mk] | split)

theorem canon_putBoth (s : State) (f : Field) (i : Nat) (v : Nat) (h_s : s.canon = true) : (putBoth s f i v).canon = true := by
  unfold putBoth
  repeat' (first | with_reducible assumption | intro _ | with_reducible apply canon_State_put | with_reducible apply canon_ite | with_reducible apply canon_regs | with_reducible apply canon_foldl | dsimp only | simp only [canon_mk] | split)

theorem canon_flagHeld (s : State) (i : Nat) (full : Nat) (f : Stamp → Stamp) (flag : Nat) (h_s : s.canon = true) : (flagHeld s i full f flag).canon = true := by
  unfold flagHeld
  repeat' (first | with_reducible assumption | intro _ | with_reducible apply canon_ivFlag | with_reducible apply canon_State_setComp | with_reducible apply canon_ite | with_reducible apply canon_regs | with_reducible apply canon_foldl | dsimp only | simp only [canon_mk] | split)

theorem canon_disturbInput (s : State) (i : Nat) (h_s : s.canon = true) : (disturbInput s i).canon = true := by
  unfold disturbInput
  repeat' (first | with_reducible assumption | intro _ | with_reducible apply canon_flagHeld | with_reducible apply canon_putBoth | with_reducible apply canon_State_setComp | with_reducible apply canon_dropPend | with_reducible apply canon_ite | with_reducible apply canon_regs | with_reducible apply canon_foldl | dsimp only | simp only [canon_mk] | split)

theorem canon_execOverdriveOnset (input : Nat) (t : Nat) (s : State) (h_s : s.canon = true) : resCanon (execOverdriveOnset input t s) = true := by
  unfold execOverdriveOnset
  repeat' (first | with_reducible assumption | intro _ | with_reducible apply canon_advanceTo | with_reducible apply canon_State_satInc | with_reducible apply canon_putBoth | with_reducible apply canon_flagHeld | with_reducible apply canon_State_setPgroup | with_reducible apply canon_disturbInput | with_reducible apply canon_ite | with_reducible apply canon_regs | with_reducible apply canon_foldl | with_reducible apply canon_next | with_reducible apply resCanon_ite | dsimp only | simp only [canon_mk] | split)

theorem canon_execOverdriveEnd (input : Nat) (t : Nat) (s : State) (h_s : s.canon = true) : resCanon (execOverdriveEnd input t s) = true := by
  unfold execOverdriveEnd
  repeat' (first | with_reducible assumption | intro _ | with_reducible apply canon_advanceTo | with_reducible apply canon_putBoth | with_reducible apply canon_State_setInp | with_reducible apply canon_State_setPgroup | with_reducible apply canon_ite | with_reducible apply canon_regs | with_reducible apply canon_foldl | with_reducible apply canon_next | with_reducible apply resCanon_ite | dsimp only | simp only [canon_mk] | split)

theorem canon_execDisturbedEnd (group : Nat) (s : State) (h_s : s.canon = true) : resCanon (execDisturbedEnd group s) = true := by
  unfold execDisturbedEnd
  repeat' (first | with_reducible assumption | intro _ | with_reducible apply canon_advanceFull | with_reducible apply canon_putBoth | with_reducible apply canon_State_setPgroup | with_reducible apply canon_ite | with_reducible apply canon_regs | with_reducible apply canon_foldl | with_reducible apply canon_next | with_reducible apply resCanon_ite | dsimp only | simp only [canon_mk] | split)

theorem canon_execTotTimeout (comparator : Nat) (s : State) (h_s : s.canon = true) : resCanon (execTotTimeout comparator s) = true := by
  unfold execTotTimeout
  repeat' (first | with_reducible assumption | intro _ | with_reducible apply canon_advanceFull | with_reducible apply canon_State_setComp | with_reducible apply canon_ite | with_reducible apply canon_regs | with_reducible apply canon_foldl | with_reducible apply canon_next | with_reducible apply resCanon_ite | dsimp only | simp only [canon_mk] | split)

theorem canon_execIntervalTimeout (input : Nat) (s : State) (h_s : s.canon = true) : resCanon (execIntervalTimeout input s) = true := by
  unfold execIntervalTimeout
  repeat' (first | with_reducible assumption | intro _ | with_reducible apply canon_advanceFull | with_reducible apply canon_State_setInp | with_reducible apply canon_ivSettle | with_reducible apply canon_ite | with_reducible apply canon_regs | with_reducible apply canon_foldl | with_reducible apply canon_next | with_reducible apply resCanon_ite | dsimp only | simp only [canon_mk] | split)

theorem canon_resetComparator (s : State) (ci : Nat) (h_s : s.canon = true) : (resetComparator s ci).canon = true := by
  unfold resetComparator
  repeat' (first | with_reducible assumption | intro _ | with_reducible apply canon_State_setComp | with_reducible apply canon_State_put | with_reducible apply canon_ite | with_reducible apply canon_regs | with_reducible apply canon_foldl | dsimp only | simp only [canon_mk] | split)

theorem canon_precisionChange (s : State) (sel : Nat) (i : Nat) (old : Word) (new : Word) (h_s : s.canon = true) : (precisionChange s sel i old new).canon = true := by
  unfold precisionChange
  repeat' (first | with_reducible assumption | intro _ | with_reducible apply canon_resetComparator | with_reducible apply canon_State_setComp | with_reducible apply canon_ite | with_reducible apply canon_regs | with_reducible apply canon_foldl | dsimp only | simp only [canon_mk] | split)

end Sys2Proof.Machine
end

