-- ==== Sys2Proof/Laws/CanonCalibration.lean ====
section
/-! SUPPORT. The canonical form of the register store is kept by Machine/Calibration.lean. -/

set_option linter.all false

namespace Sys2Proof.Machine

theorem canon_putCalState (s : State) (n : Nat) (st : Nat) (h_s : s.canon = true) : (putCalState s n st).canon = true := by
  unfold putCalState
  repeat' (first | with_reducible assumption | intro _ | with_reducible apply canon_State_put | with_reducible apply canon_ite | with_reducible apply canon_regs | with_reducible apply canon_foldl | dsimp only | simp only [canon_mk] | split)

theorem canon_calEvent (s : State) (n : Nat) (h_s : s.canon = true) : (calEvent s n).canon = true := by
  unfold calEvent
  repeat' (first | with_reducible assumption | intro _ | with_reducible apply canon_event | with_reducible apply canon_ite | with_reducible apply canon_regs | with_reducible apply canon_foldl | dsimp only | simp only [canon_mk] | split)

theorem canon_interpFault (s : State) (n : Nat) (cause : Nat) (h_s : s.canon = true) : (interpFault s n cause).canon = true := by
  unfold interpFault
  repeat' (first | with_reducible assumption | intro _ | with_reducible apply canon_calEvent | with_reducible apply canon_raise | with_reducible apply canon_ite | with_reducible apply canon_regs | with_reducible apply canon_foldl | dsimp only | simp only [canon_mk] | split)

theorem canon_calReply (s : State) (o : CalOp) (h_s : s.canon = true) : (calReply s o).canon = true := by
  unfold calReply
  repeat' (first | with_reducible assumption | intro _ | with_reducible apply canon_finish | with_reducible apply canon_ite | with_reducible apply canon_regs | with_reducible apply canon_foldl | dsimp only | simp only [canon_mk] | split)

theorem canon_calResult (s : State) (recover : Bool) (n : Nat) (bad : Bool) (h_s : s.canon = true) : (calResult s recover n bad).canon = true := by
  unfold calResult
  repeat' (first | with_reducible assumption | intro _ | with_reducible apply canon_calReply | with_reducible apply canon_ite | with_reducible apply canon_regs | with_reducible apply canon_foldl | dsimp only | simp only [canon_mk] | split)

theorem canon_enterLock (s : State) (n : Nat) (h_s : s.canon = true) : (enterLock s n).canon = true := by
  unfold enterLock
  repeat' (first | with_reducible assumption | intro _ | with_reducible apply canon_State_satInc | with_reducible apply canon_putCalState | with_reducible apply canon_State_setInterp | with_reducible apply canon_ite | with_reducible apply canon_regs | with_reducible apply canon_foldl | dsimp only | simp only [canon_mk] | split)

theorem canon_putLocked (s : State) (n : Nat) (v : Bool) (h_s : s.canon = true) : (putLocked s n v).canon = true := by
  unfold putLocked
  repeat' (first | with_reducible assumption | intro _ | with_reducible apply canon_State_put | with_reducible apply canon_ite | with_reducible apply canon_regs | with_reducible apply canon_foldl | dsimp only | simp only [canon_mk] | split)

theorem canon_calOff (s : State) (n : Nat) (h_s : s.canon = true) : (calOff s n).canon = true := by
  unfold calOff
  repeat' (first | with_reducible assumption | intro _ | with_reducible apply canon_putLocked | with_reducible apply canon_State_setWord | with_reducible apply canon_putCalState | with_reducible apply canon_State_setInterp | with_reducible apply canon_ite | with_reducible apply canon_regs | with_reducible apply canon_foldl | dsimp only | simp only [canon_mk] | split)

theorem canon_calOn (s : State) (n : Nat) (h_s : s.canon = true) : (calOn s n).canon = true := by
  unfold calOn
  repeat' (first | with_reducible assumption | intro _ | with_reducible apply canon_putCalState | with_reducible apply canon_enterLock | with_reducible apply canon_ite | with_reducible apply canon_regs | with_reducible apply canon_foldl | dsimp only | simp only [canon_mk] | split)

theorem canon_tableBad (s : State) (n : Nat) (injected : Bool) (h_s : s.canon = true) : (tableBad s n injected).canon = true := by
  unfold tableBad
  repeat' (first | with_reducible assumption | intro _ | with_reducible apply canon_State_setInterp | with_reducible apply canon_raise | with_reducible apply canon_enterLock | with_reducible apply canon_ite | with_reducible apply canon_regs | with_reducible apply canon_foldl | dsimp only | simp only [canon_mk] | split)

theorem canon_setBad (s : State) (n : Nat) (f : Interp → Interp) (h_s : s.canon = true) : (setBad s n f).canon = true := by
  unfold setBad
  repeat' (first | with_reducible assumption | intro _ | with_reducible apply canon_raise | with_reducible apply canon_State_setInterp | with_reducible apply canon_ite | with_reducible apply canon_regs | with_reducible apply canon_foldl | dsimp only | simp only [canon_mk] | split)

theorem canon_tableCheck (s : State) (n : Nat) (h_s : s.canon = true) : (tableCheck s n).canon = true := by
  unfold tableCheck
  repeat' (first | with_reducible assumption | intro _ | with_reducible exact canon_awlTake_eq (by with_reducible assumption) (by with_reducible assumption) | with_reducible apply canon_tableBad | with_reducible apply canon_awlTake | with_reducible apply canon_ite | with_reducible apply canon_regs | with_reducible apply canon_foldl | dsimp only | simp only [canon_mk] | split)

theorem canon_showSelection (s : State) (n : Nat) (h_s : s.canon = true) : (showSelection s n).canon = true := by
  unfold showSelection
  repeat' (first | with_reducible assumption | intro _ | with_reducible apply canon_State_put | with_reducible apply canon_ite | with_reducible apply canon_regs | with_reducible apply canon_foldl | dsimp only | simp only [canon_mk] | split)

theorem canon_goAside (s : State) (n : Nat) (m : SetMeasure) (h_s : s.canon = true) : (goAside s n m).canon = true := by
  unfold goAside
  repeat' (first | with_reducible assumption | intro _ | with_reducible apply canon_State_satInc | with_reducible apply canon_putCalState | with_reducible apply canon_showSelection | with_reducible apply canon_State_setInterp | with_reducible apply canon_enterLock | with_reducible apply canon_interpFault | with_reducible apply canon_ite | with_reducible apply canon_regs | with_reducible apply canon_foldl | dsimp only | simp only [canon_mk] | split)

theorem canon_asideTry (s : State) (n : Nat) (h_s : s.canon = true) : (asideTry s n).canon = true := by
  unfold asideTry
  repeat' (first | with_reducible assumption | intro _ | with_reducible apply canon_goAside | with_reducible apply canon_ite | with_reducible apply canon_regs | with_reducible apply canon_foldl | dsimp only | simp only [canon_mk] | split)

theorem canon_asidePool (s : State) (n : Nat) (h_s : s.canon = true) : (asidePool s n).canon = true := by
  unfold asidePool
  repeat' (first | with_reducible assumption | intro _ | with_reducible apply canon_asideTry | with_reducible apply canon_ite | with_reducible apply canon_regs | with_reducible apply canon_foldl | dsimp only | simp only [canon_mk] | split)

theorem canon_execConversionComplete (comparator : Nat) (slot : Nat) (code : Nat) (ok : Bool) (s : State) (h_s : s.canon = true) : resCanon (execConversionComplete comparator slot code ok s) = true := by
  unfold execConversionComplete
  repeat' (first | with_reducible assumption | intro _ | with_reducible apply canon_advanceTo | with_reducible apply canon_State_setComp | with_reducible apply canon_tableCheck | with_reducible apply canon_pendSample | with_reducible apply canon_asidePool | with_reducible apply canon_knowStamp | with_reducible apply canon_State_satInc | with_reducible apply canon_raise | with_reducible apply canon_ite | with_reducible apply canon_regs | with_reducible apply canon_foldl | with_reducible apply canon_next | with_reducible apply resCanon_ite | dsimp only | simp only [canon_mk] | split)

theorem canon_calRetire (s : State) (n : Nat) (h_s : s.canon = true) : (calRetire s n).canon = true := by
  unfold calRetire
  repeat' (first | with_reducible assumption | intro _ | with_reducible apply canon_asidePool | with_reducible apply canon_calResult | with_reducible apply canon_putCalState | with_reducible apply canon_State_setInterp | with_reducible apply canon_ite | with_reducible apply canon_regs | with_reducible apply canon_foldl | dsimp only | simp only [canon_mk] | split)

theorem canon_calGone (s : State) (n : Nat) (h_s : s.canon = true) : (calGone s n).canon = true := by
  unfold calGone
  repeat' (first | with_reducible assumption | intro _ | with_reducible apply canon_putCalState | with_reducible apply canon_State_setInterp | with_reducible apply canon_ite | with_reducible apply canon_regs | with_reducible apply canon_foldl | dsimp only | simp only [canon_mk] | split)

theorem canon_execRandomSourceSample (interp : Nat) (code : Nat) (ok : Bool) (s : State) (h_s : s.canon = true) : resCanon (execRandomSourceSample interp code ok s) = true := by
  unfold execRandomSourceSample
  repeat' (first | with_reducible assumption | intro _ | with_reducible apply canon_asideTry | with_reducible apply canon_addSample | with_reducible apply canon_pendSample | with_reducible apply canon_raise | with_reducible apply canon_ite | with_reducible apply canon_regs | with_reducible apply canon_foldl | with_reducible apply canon_next | with_reducible apply resCanon_ite | dsimp only | simp only [canon_mk] | split)

theorem canon_discardLive (s : State) (n : Nat) (h_s : s.canon = true) : (discardLive s n).canon = true := by
  unfold discardLive
  repeat' (first | with_reducible assumption | intro _ | with_reducible apply canon_State_setInterp | with_reducible apply canon_State_put | with_reducible apply canon_ite | with_reducible apply canon_regs | with_reducible apply canon_foldl | dsimp only | simp only [canon_mk] | split)

theorem canon_putQuality (s : State) (n : Nat) (set : BinTable) (h_s : s.canon = true) : (putQuality s n set).canon = true := by
  unfold putQuality
  repeat' (first | with_reducible assumption | intro _ | with_reducible apply canon_State_setInterp | with_reducible apply canon_State_put | with_reducible apply canon_ite | with_reducible apply canon_regs | with_reducible apply canon_foldl | dsimp only | simp only [canon_mk] | split)

theorem canon_acceptTable (s : State) (n : Nat) (t : BinTable) (h_s : s.canon = true) : (acceptTable s n t).canon = true := by
  unfold acceptTable
  repeat' (first | with_reducible assumption | intro _ | with_reducible apply canon_State_setInterp | with_reducible apply canon_State_put | with_reducible apply canon_calResult | with_reducible apply canon_State_satInc | with_reducible apply canon_ite | with_reducible apply canon_regs | with_reducible apply canon_foldl | dsimp only | simp only [canon_mk] | split)

theorem canon_rejectSet (s : State) (n : Nat) (code : Nat) (h_s : s.canon = true) : (rejectSet s n code).canon = true := by
  unfold rejectSet
  repeat' (first | with_reducible assumption | intro _ | with_reducible apply canon_State_setInterp | with_reducible apply canon_State_satInc | with_reducible apply canon_State_put | with_reducible apply canon_calEvent | with_reducible apply canon_raise | with_reducible apply canon_calResult | with_reducible apply canon_enterLock | with_reducible apply canon_interpFault | with_reducible apply canon_ite | with_reducible apply canon_regs | with_reducible apply canon_foldl | dsimp only | simp only [canon_mk] | split)

theorem canon_execSampleSetComplete (interp : Nat) (m : SetMeasure) (s : State) (h_s : s.canon = true) : resCanon (execSampleSetComplete interp m s) = true := by
  unfold execSampleSetComplete
  repeat' (first | with_reducible assumption | intro _ | with_reducible apply canon_flushSamples | with_reducible apply canon_discardLive | with_reducible apply canon_State_put | with_reducible apply canon_State_setInterp | with_reducible apply canon_putQuality | with_reducible apply canon_rejectSet | with_reducible apply canon_enterLock | with_reducible apply canon_interpFault | with_reducible apply canon_asideTry | with_reducible apply canon_acceptTable | with_reducible apply canon_ite | with_reducible apply canon_regs | with_reducible apply canon_foldl | with_reducible apply canon_next | with_reducible apply resCanon_ite | dsimp only | simp only [canon_mk] | split)

theorem canon_execTableInstall (interp : Nat) (s : State) (h_s : s.canon = true) : resCanon (execTableInstall interp s) = true := by
  unfold execTableInstall
  repeat' (first | with_reducible assumption | intro _ | with_reducible apply canon_advanceFull | with_reducible apply canon_State_setInterp | with_reducible apply canon_asidePool | with_reducible apply canon_calResult | with_reducible apply canon_putCalState | with_reducible apply canon_ite | with_reducible apply canon_regs | with_reducible apply canon_foldl | with_reducible apply canon_next | with_reducible apply resCanon_ite | dsimp only | simp only [canon_mk] | split)

theorem canon_execLockSettled (interp : Nat) (m : LockMeasure) (s : State) (h_s : s.canon = true) : resCanon (execLockSettled interp m s) = true := by
  unfold execLockSettled
  repeat' (first | with_reducible assumption | intro _ | with_reducible apply canon_showSelection | with_reducible apply canon_putCalState | with_reducible apply canon_State_setInterp | with_reducible apply canon_ite | with_reducible apply canon_regs | with_reducible apply canon_foldl | with_reducible apply canon_next | with_reducible apply resCanon_ite | dsimp only | simp only [canon_mk] | split)

theorem canon_execLockTimeout (interp : Nat) (s : State) (h_s : s.canon = true) : resCanon (execLockTimeout interp s) = true := by
  unfold execLockTimeout
  repeat' (first | with_reducible assumption | intro _ | with_reducible apply canon_advanceTo | with_reducible apply canon_enterLock | with_reducible apply canon_interpFault | with_reducible apply canon_ite | with_reducible apply canon_regs | with_reducible apply canon_foldl | with_reducible apply canon_next | with_reducible apply resCanon_ite | dsimp only | simp only [canon_mk] | split)

theorem canon_execAsideAbandon (interp : Nat) (s : State) (h_s : s.canon = true) : resCanon (execAsideAbandon interp s) = true := by
  unfold execAsideAbandon
  repeat' (first | with_reducible assumption | intro _ | with_reducible apply canon_showSelection | with_reducible apply canon_State_setInterp | with_reducible apply canon_ite | with_reducible apply canon_regs | with_reducible apply canon_foldl | with_reducible apply canon_next | with_reducible apply resCanon_ite | dsimp only | simp only [canon_mk] | split)

theorem canon_execAsideReturn (interp : Nat) (s : State) (h_s : s.canon = true) : resCanon (execAsideReturn interp s) = true := by
  unfold execAsideReturn
  repeat' (first | with_reducible assumption | intro _ | with_reducible apply canon_advanceTo | with_reducible apply canon_asidePool | with_reducible apply canon_putCalState | with_reducible apply canon_State_setInterp | with_reducible apply canon_ite | with_reducible apply canon_regs | with_reducible apply canon_foldl | with_reducible apply canon_next | with_reducible apply resCanon_ite | dsimp only | simp only [canon_mk] | split)

theorem canon_calChecked (c : Cmd) (s : State) (single : Bool) (k : Nat → List Nat → Result) (h_s : s.canon = true) (h_k : ∀ (x0 : Nat) (x1 : List Nat), (k x0 x1).canon = true) : (calChecked c s single k).canon = true := by
  unfold calChecked
  repeat' (first | with_reducible assumption | intro _ | with_reducible apply h_k | with_reducible apply canon_checked | with_reducible apply canon_refuseIf | with_reducible apply canon_noMore | with_reducible apply canon_ite | with_reducible apply canon_regs | with_reducible apply canon_foldl | with_reducible apply canon_done | with_reducible apply canon_later | with_reducible apply canon_loose | with_reducible apply canon_system | with_reducible apply canon_fail | with_reducible apply resultCanon_ite | dsimp only | simp only [canon_mk] | split)

theorem canon_calOpen (s : State) (c : Cmd) (recover : Bool) (ts : List Nat) (h_s : s.canon = true) : (calOpen s c recover ts).canon = true := by
  unfold calOpen
  repeat' (first | with_reducible assumption | intro _ | with_reducible apply canon_ite | with_reducible apply canon_regs | with_reducible apply canon_foldl | dsimp only | simp only [canon_mk] | split)

theorem canon_calStartSweep (c : Cmd) (s : State) (h_s : s.canon = true) : (calStartSweep c s).canon = true := by
  unfold calStartSweep
  repeat' (first | with_reducible assumption | intro _ | with_reducible apply canon_calChecked | with_reducible apply canon_calOpen | with_reducible apply canon_State_setInterp | with_reducible apply canon_ite | with_reducible apply canon_regs | with_reducible apply canon_foldl | with_reducible apply canon_done | with_reducible apply canon_later | with_reducible apply canon_loose | with_reducible apply canon_system | with_reducible apply canon_fail | with_reducible apply resultCanon_ite | dsimp only | simp only [canon_mk] | split)

theorem canon_execCalStartSweep (c : Cmd) (s : State) (h_s : s.canon = true) : resCanon (execCalStartSweep c s) = true := by
  unfold execCalStartSweep
  repeat' (first | with_reducible assumption | intro _ | with_reducible apply canon_runCmd | with_reducible apply canon_calStartSweep | with_reducible apply canon_ite | with_reducible apply canon_regs | with_reducible apply canon_foldl | with_reducible apply canon_next | with_reducible apply resCanon_ite | dsimp only | simp only [canon_mk] | split)

theorem canon_calStartRecover (c : Cmd) (s : State) (h_s : s.canon = true) : (calStartRecover c s).canon = true := by
  unfold calStartRecover
  repeat' (first | with_reducible assumption | intro _ | with_reducible apply canon_calChecked | with_reducible apply canon_enterLock | with_reducible apply canon_calOpen | with_reducible apply canon_ite | with_reducible apply canon_regs | with_reducible apply canon_foldl | with_reducible apply canon_done | with_reducible apply canon_later | with_reducible apply canon_loose | with_reducible apply canon_system | with_reducible apply canon_fail | with_reducible apply resultCanon_ite | dsimp only | simp only [canon_mk] | split)

theorem canon_execCalStartRecover (c : Cmd) (s : State) (h_s : s.canon = true) : resCanon (execCalStartRecover c s) = true := by
  unfold execCalStartRecover
  repeat' (first | with_reducible assumption | intro _ | with_reducible apply canon_runCmd | with_reducible apply canon_calStartRecover | with_reducible apply canon_calResult | with_reducible apply canon_ite | with_reducible apply canon_regs | with_reducible apply canon_foldl | with_reducible apply canon_next | with_reducible apply resCanon_ite | dsimp only | simp only [canon_mk] | split)

theorem canon_execCalSweepTimeout (partition : Nat) (s : State) (h_s : s.canon = true) : resCanon (execCalSweepTimeout partition s) = true := by
  unfold execCalSweepTimeout
  repeat' (first | with_reducible assumption | intro _ | with_reducible apply canon_advanceTo | with_reducible apply canon_finish | with_reducible apply canon_ite | with_reducible apply canon_regs | with_reducible apply canon_foldl | with_reducible apply canon_next | with_reducible apply resCanon_ite | dsimp only | simp only [canon_mk] | split)

theorem canon_calStatusBody (c : Cmd) (s : State) (h_s : s.canon = true) : (calStatusBody c s).canon = true := by
  unfold calStatusBody
  repeat' (first | with_reducible assumption | intro _ | with_reducible apply canon_checked | with_reducible apply canon_refuseIf | with_reducible apply canon_noMore | with_reducible apply canon_ite | with_reducible apply canon_regs | with_reducible apply canon_foldl | with_reducible apply canon_done | with_reducible apply canon_later | with_reducible apply canon_loose | with_reducible apply canon_system | with_reducible apply canon_fail | with_reducible apply resultCanon_ite | dsimp only | simp only [canon_mk] | split)

theorem canon_execCalStatus (c : Cmd) (s : State) (h_s : s.canon = true) : resCanon (execCalStatus c s) = true := by
  unfold execCalStatus
  repeat' (first | with_reducible assumption | intro _ | with_reducible apply canon_runCmd | with_reducible apply canon_calStatusBody | with_reducible apply canon_ite | with_reducible apply canon_regs | with_reducible apply canon_foldl | with_reducible apply canon_next | with_reducible apply resCanon_ite | dsimp only | simp only [canon_mk] | split)

theorem canon_calHold (s : State) (n : Nat) (h_s : s.canon = true) : (calHold s n).canon = true := by
  unfold calHold
  repeat' (first | with_reducible assumption | intro _ | with_reducible apply canon_putLocked | with_reducible apply canon_State_setInterp | with_reducible apply canon_ite | with_reducible apply canon_regs | with_reducible apply canon_foldl | dsimp only | simp only [canon_mk] | split)

theorem canon_calLockBody (c : Cmd) (s : State) (h_s : s.canon = true) : (calLockBody c s).canon = true := by
  unfold calLockBody
  repeat' (first | with_reducible assumption | intro _ | with_reducible apply canon_calChecked | with_reducible apply canon_calHold | with_reducible apply canon_ite | with_reducible apply canon_regs | with_reducible apply canon_foldl | with_reducible apply canon_done | with_reducible apply canon_later | with_reducible apply canon_loose | with_reducible apply canon_system | with_reducible apply canon_fail | with_reducible apply resultCanon_ite | dsimp only | simp only [canon_mk] | split)

theorem canon_execCalLock (c : Cmd) (s : State) (h_s : s.canon = true) : resCanon (execCalLock c s) = true := by
  unfold execCalLock
  repeat' (first | with_reducible assumption | intro _ | with_reducible apply canon_runCmd | with_reducible apply canon_calLockBody | with_reducible apply canon_ite | with_reducible apply canon_regs | with_reducible apply canon_foldl | with_reducible apply canon_next | with_reducible apply resCanon_ite | dsimp only | simp only [canon_mk] | split)

theorem canon_calRelease (s : State) (n : Nat) (h_s : s.canon = true) : (calRelease s n).canon = true := by
  unfold calRelease
  repeat' (first | with_reducible assumption | intro _ | with_reducible apply canon_putLocked | with_reducible apply canon_asideTry | with_reducible apply canon_State_setInterp | with_reducible apply canon_ite | with_reducible apply canon_regs | with_reducible apply canon_foldl | dsimp only | simp only [canon_mk] | split)

theorem canon_calLockReleaseBody (c : Cmd) (s : State) (h_s : s.canon = true) : (calLockReleaseBody c s).canon = true := by
  unfold calLockReleaseBody
  repeat' (first | with_reducible assumption | intro _ | with_reducible apply canon_calChecked | with_reducible apply canon_calRelease | with_reducible apply canon_ite | with_reducible apply canon_regs | with_reducible apply canon_foldl | with_reducible apply canon_done | with_reducible apply canon_later | with_reducible apply canon_loose | with_reducible apply canon_system | with_reducible apply canon_fail | with_reducible apply resultCanon_ite | dsimp only | simp only [canon_mk] | split)

theorem canon_execCalLockRelease (c : Cmd) (s : State) (h_s : s.canon = true) : resCanon (execCalLockRelease c s) = true := by
  unfold execCalLockRelease
  repeat' (first | with_reducible assumption | intro _ | with_reducible apply canon_runCmd | with_reducible apply canon_calLockReleaseBody | with_reducible apply canon_ite | with_reducible apply canon_regs | with_reducible apply canon_foldl | with_reducible apply canon_next | with_reducible apply resCanon_ite | dsimp only | simp only [canon_mk] | split)

theorem canon_calTableRead (waiting : Bool) (c : Cmd) (s : State) (h_s : s.canon = true) : (calTableRead waiting c s).canon = true := by
  unfold calTableRead
  repeat' (first | with_reducible assumption | intro _ | with_reducible apply canon_calChecked | with_reducible apply canon_ite | with_reducible apply canon_regs | with_reducible apply canon_foldl | with_reducible apply canon_done | with_reducible apply canon_later | with_reducible apply canon_loose | with_reducible apply canon_system | with_reducible apply canon_fail | with_reducible apply resultCanon_ite | dsimp only | simp only [canon_mk] | split)

theorem canon_execCalTableReadInForce (c : Cmd) (s : State) (h_s : s.canon = true) : resCanon (execCalTableReadInForce c s) = true := by
  unfold execCalTableReadInForce
  repeat' (first | with_reducible assumption | intro _ | with_reducible apply canon_runCmd | with_reducible apply canon_calTableRead | with_reducible apply canon_ite | with_reducible apply canon_regs | with_reducible apply canon_foldl | with_reducible apply canon_next | with_reducible apply resCanon_ite | dsimp only | simp only [canon_mk] | split)

theorem canon_execCalTableReadWaiting (c : Cmd) (s : State) (h_s : s.canon = true) : resCanon (execCalTableReadWaiting c s) = true := by
  unfold execCalTableReadWaiting
  repeat' (first | with_reducible assumption | intro _ | with_reducible apply canon_runCmd | with_reducible apply canon_calTableRead | with_reducible apply canon_ite | with_reducible apply canon_regs | with_reducible apply canon_foldl | with_reducible apply canon_next | with_reducible apply resCanon_ite | dsimp only | simp only [canon_mk] | split)

end Sys2Proof.Machine
end

