-- ==== Sys2Proof/Laws/CanonTimeBase.lean ====
section
/-! SUPPORT. The canonical form of the register store is kept by Machine/TimeBase.lean. -/

set_option linter.all false

namespace Sys2Proof.Machine

theorem canon_State_setRefx (s : State) (r : Nat) (x : RefX) (h_s : s.canon = true) : (State.setRefx s r x).canon = true := by
  unfold State.setRefx
  repeat' (first | with_reducible assumption | intro _ | with_reducible apply canon_ite | with_reducible apply canon_regs | with_reducible apply canon_foldl | dsimp only | simp only [canon_mk] | split)

theorem canon_refEvent (s : State) (subject : Nat) (code : Nat) (h_s : s.canon = true) : (refEvent s subject code).canon = true := by
  unfold refEvent
  repeat' (first | with_reducible assumption | intro _ | with_reducible apply canon_event | with_reducible apply canon_ite | with_reducible apply canon_regs | with_reducible apply canon_foldl | dsimp only | simp only [canon_mk] | split)

theorem canon_setSel (s : State) (st : Nat) (h_s : s.canon = true) : (setSel s st).canon = true := by
  unfold setSel
  repeat' (first | with_reducible assumption | intro _ | with_reducible apply canon_refEvent | with_reducible apply canon_State_put | with_reducible apply canon_ite | with_reducible apply canon_regs | with_reducible apply canon_foldl | dsimp only | simp only [canon_mk] | split)

theorem canon_noteWord (s : State) (w : Int) (h_s : s.canon = true) : (noteWord s w).canon = true := by
  unfold noteWord
  repeat' (first | with_reducible assumption | intro _ | with_reducible apply canon_ite | with_reducible apply canon_regs | with_reducible apply canon_foldl | dsimp only | simp only [canon_mk] | split)

theorem canon_holdOsc (s : State) (h_s : s.canon = true) : (holdOsc s).canon = true := by
  unfold holdOsc
  repeat' (first | with_reducible assumption | intro _ | with_reducible apply canon_noteWord | with_reducible apply canon_ite | with_reducible apply canon_regs | with_reducible apply canon_foldl | dsimp only | simp only [canon_mk] | split)

theorem canon_closeLoop (s : State) (wide : Bool) (h_s : s.canon = true) : (closeLoop s wide).canon = true := by
  unfold closeLoop
  repeat' (first | with_reducible assumption | intro _ | with_reducible apply canon_ite | with_reducible apply canon_regs | with_reducible apply canon_foldl | dsimp only | simp only [canon_mk] | split)

theorem canon_startSwitch (s : State) (r : Nat) (h_s : s.canon = true) : (startSwitch s r).canon = true := by
  unfold startSwitch
  repeat' (first | with_reducible assumption | intro _ | with_reducible apply canon_holdOsc | with_reducible apply canon_State_put | with_reducible apply canon_setSel | with_reducible apply canon_ite | with_reducible apply canon_regs | with_reducible apply canon_foldl | dsimp only | simp only [canon_mk] | split)

theorem canon_enterHoldover (s : State) (h_s : s.canon = true) : (enterHoldover s).canon = true := by
  unfold enterHoldover
  repeat' (first | with_reducible assumption | intro _ | with_reducible apply canon_holdOsc | with_reducible apply canon_State_put | with_reducible apply canon_raise | with_reducible apply canon_setSel | with_reducible apply canon_ite | with_reducible apply canon_regs | with_reducible apply canon_foldl | dsimp only | simp only [canon_mk] | split)

theorem canon_startAcquire (s : State) (r : Nat) (provisional : Bool) (h_s : s.canon = true) : (startAcquire s r provisional).canon = true := by
  unfold startAcquire
  repeat' (first | with_reducible assumption | intro _ | with_reducible apply canon_closeLoop | with_reducible apply canon_setSel | with_reducible apply canon_State_put | with_reducible apply canon_ite | with_reducible apply canon_regs | with_reducible apply canon_foldl | dsimp only | simp only [canon_mk] | split)

theorem canon_selOnce (s : State) (h_s : s.canon = true) : (selOnce s).canon = true := by
  unfold selOnce
  repeat' (first | with_reducible assumption | intro _ | with_reducible apply canon_startAcquire | with_reducible apply canon_setSel | with_reducible apply canon_State_put | with_reducible apply canon_startSwitch | with_reducible apply canon_enterHoldover | with_reducible apply canon_refEvent | with_reducible apply canon_ite | with_reducible apply canon_regs | with_reducible apply canon_foldl | dsimp only | simp only [canon_mk] | split)

theorem canon_selReact (s : State) (h_s : s.canon = true) : (selReact s).canon = true := by
  unfold selReact
  repeat' (first | with_reducible assumption | intro _ | with_reducible apply canon_selOnce | with_reducible apply canon_ite | with_reducible apply canon_regs | with_reducible apply canon_foldl | dsimp only | simp only [canon_mk] | split)

theorem canon_selReply (s : State) (h_s : s.canon = true) : (selReply s).canon = true := by
  unfold selReply
  repeat' (first | with_reducible assumption | intro _ | with_reducible apply canon_finish | with_reducible apply canon_ite | with_reducible apply canon_regs | with_reducible apply canon_foldl | dsimp only | simp only [canon_mk] | split)

theorem canon_selPerform (s : State) (h_s : s.canon = true) : (selPerform s).canon = true := by
  unfold selPerform
  repeat' (first | with_reducible assumption | intro _ | with_reducible apply canon_State_put | with_reducible apply canon_selReact | with_reducible apply canon_startAcquire | with_reducible apply canon_startSwitch | with_reducible apply canon_enterHoldover | with_reducible apply canon_ite | with_reducible apply canon_regs | with_reducible apply canon_foldl | dsimp only | simp only [canon_mk] | split)

theorem canon_selSettle (s : State) (h_s : s.canon = true) : (selSettle s).canon = true := by
  unfold selSettle
  repeat' (first | with_reducible assumption | intro _ | with_reducible apply canon_selReply | with_reducible apply canon_selPerform | with_reducible apply canon_selReact | with_reducible apply canon_ite | with_reducible apply canon_regs | with_reducible apply canon_foldl | dsimp only | simp only [canon_mk] | split)

theorem canon_setRef (s : State) (r : Nat) (st : Nat) (h_s : s.canon = true) : (setRef s r st).canon = true := by
  unfold setRef
  repeat' (first | with_reducible assumption | intro _ | with_reducible apply canon_State_put | with_reducible apply canon_State_setRefx | with_reducible apply canon_refEvent | with_reducible apply canon_raise | with_reducible apply canon_ite | with_reducible apply canon_regs | with_reducible apply canon_foldl | dsimp only | simp only [canon_mk] | split)

theorem canon_refcCheck (s : State) (h_s : s.canon = true) : (refcCheck s).canon = true := by
  unfold refcCheck
  repeat' (first | with_reducible assumption | intro _ | with_reducible apply canon_selSettle | with_reducible apply canon_setRef | with_reducible apply canon_ite | with_reducible apply canon_regs | with_reducible apply canon_foldl | dsimp only | simp only [canon_mk] | split)

theorem canon_execRefEdgeLoss (ref : Nat) (t : Nat) (s : State) (h_s : s.canon = true) : resCanon (execRefEdgeLoss ref t s) = true := by
  unfold execRefEdgeLoss
  repeat' (first | with_reducible assumption | intro _ | with_reducible apply canon_selSettle | with_reducible apply canon_setRef | with_reducible apply canon_advanceTo | with_reducible apply canon_ite | with_reducible apply canon_regs | with_reducible apply canon_foldl | with_reducible apply canon_next | with_reducible apply resCanon_ite | dsimp only | simp only [canon_mk] | split)

theorem canon_execRefFreqMeasure (ref : Nat) (dev : Int) (word : Int) (t : Nat) (s : State) (h_s : s.canon = true) : resCanon (execRefFreqMeasure ref dev word t s) = true := by
  unfold execRefFreqMeasure
  repeat' (first | with_reducible assumption | intro _ | with_reducible apply canon_advanceTo | with_reducible apply canon_noteWord | with_reducible apply canon_selSettle | with_reducible apply canon_State_setRefx | with_reducible apply canon_setRef | with_reducible apply canon_ite | with_reducible apply canon_regs | with_reducible apply canon_foldl | with_reducible apply canon_next | with_reducible apply resCanon_ite | dsimp only | simp only [canon_mk] | split)

theorem canon_monitorRef (s : State) (vs : Voters) (r : Nat) (y : Option Int) (disagree : Bool) (measured : Bool) (h_s : s.canon = true) : (monitorRef s vs r y disagree measured).canon = true := by
  unfold monitorRef
  repeat' (first | with_reducible assumption | intro _ | with_reducible apply canon_State_put | with_reducible apply canon_setRef | with_reducible apply canon_State_setRefx | with_reducible apply canon_ite | with_reducible apply canon_regs | with_reducible apply canon_foldl | dsimp only | simp only [canon_mk] | split)

theorem canon_ambiguousEvent (s : State) (code : Nat) (h_s : s.canon = true) : (ambiguousEvent s code).canon = true := by
  unfold ambiguousEvent
  repeat' (first | with_reducible assumption | intro _ | with_reducible apply canon_event | with_reducible apply canon_ite | with_reducible apply canon_regs | with_reducible apply canon_foldl | dsimp only | simp only [canon_mk] | split)

theorem canon_ambiguity (s : State) (vs : Voters) (drifted : List Nat) (h_s : s.canon = true) : (ambiguity s vs drifted).canon = true := by
  unfold ambiguity
  repeat' (first | with_reducible assumption | intro _ | with_reducible apply canon_raise | with_reducible apply canon_ambiguousEvent | with_reducible apply canon_State_put | with_reducible apply canon_ite | with_reducible apply canon_regs | with_reducible apply canon_foldl | dsimp only | simp only [canon_mk] | split)

theorem canon_execRefMonitorSecond (warm : Bool) (t : Nat) (s : State) (h_s : s.canon = true) : resCanon (execRefMonitorSecond warm t s) = true := by
  unfold execRefMonitorSecond
  repeat' (first | with_reducible assumption | intro _ | with_reducible apply canon_advanceTo | with_reducible apply canon_State_put | with_reducible apply canon_monitorRef | with_reducible apply canon_selSettle | with_reducible apply canon_ambiguity | with_reducible apply canon_ite | with_reducible apply canon_regs | with_reducible apply canon_foldl | with_reducible apply canon_next | with_reducible apply resCanon_ite | dsimp only | simp only [canon_mk] | split)

theorem canon_execAcquireLock (phase : Int) (freq : Int) (t : Nat) (s : State) (h_s : s.canon = true) : resCanon (execAcquireLock phase freq t s) = true := by
  unfold execAcquireLock
  repeat' (first | with_reducible assumption | intro _ | with_reducible apply canon_advanceTo | with_reducible apply canon_selSettle | with_reducible apply canon_setSel | with_reducible apply canon_ite | with_reducible apply canon_regs | with_reducible apply canon_foldl | with_reducible apply canon_next | with_reducible apply resCanon_ite | dsimp only | simp only [canon_mk] | split)

theorem canon_execSwitchBuildOut (phase : Int) (s : State) (h_s : s.canon = true) : resCanon (execSwitchBuildOut phase s) = true := by
  unfold execSwitchBuildOut
  repeat' (first | with_reducible assumption | intro _ | with_reducible apply canon_advanceTo | with_reducible apply canon_closeLoop | with_reducible apply canon_ite | with_reducible apply canon_regs | with_reducible apply canon_foldl | with_reducible apply canon_next | with_reducible apply resCanon_ite | dsimp only | simp only [canon_mk] | split)

theorem canon_execSwitchComplete (s : State) (h_s : s.canon = true) : resCanon (execSwitchComplete s) = true := by
  unfold execSwitchComplete
  repeat' (first | with_reducible assumption | intro _ | with_reducible apply canon_advanceTo | with_reducible apply canon_State_put | with_reducible apply canon_State_satInc | with_reducible apply canon_closeLoop | with_reducible apply canon_selSettle | with_reducible apply canon_setSel | with_reducible apply canon_ite | with_reducible apply canon_regs | with_reducible apply canon_foldl | with_reducible apply canon_next | with_reducible apply resCanon_ite | dsimp only | simp only [canon_mk] | split)

theorem canon_execWaitToRestoreExpiry (ref : Nat) (s : State) (h_s : s.canon = true) : resCanon (execWaitToRestoreExpiry ref s) = true := by
  unfold execWaitToRestoreExpiry
  repeat' (first | with_reducible assumption | intro _ | with_reducible apply canon_selSettle | with_reducible apply canon_advanceTo | with_reducible apply canon_ite | with_reducible apply canon_regs | with_reducible apply canon_foldl | with_reducible apply canon_next | with_reducible apply resCanon_ite | dsimp only | simp only [canon_mk] | split)

theorem canon_refSelect (form : Nat) (c : Cmd) (s : State) (h_s : s.canon = true) : (refSelect form c s).canon = true := by
  unfold refSelect
  repeat' (first | with_reducible assumption | intro _ | with_reducible apply canon_checked | with_reducible apply canon_refuseIf | with_reducible apply canon_noMore | with_reducible apply canon_ite | with_reducible apply canon_regs | with_reducible apply canon_foldl | with_reducible apply canon_done | with_reducible apply canon_later | with_reducible apply canon_loose | with_reducible apply canon_system | with_reducible apply canon_fail | with_reducible apply resultCanon_ite | dsimp only | simp only [canon_mk] | split)

theorem canon_execRefSelectAuto (c : Cmd) (s : State) (h_s : s.canon = true) : resCanon (execRefSelectAuto c s) = true := by
  unfold execRefSelectAuto
  repeat' (first | with_reducible assumption | intro _ | with_reducible apply canon_selSettle | with_reducible apply canon_runCmd | with_reducible apply canon_refSelect | with_reducible apply canon_ite | with_reducible apply canon_regs | with_reducible apply canon_foldl | with_reducible apply canon_next | with_reducible apply resCanon_ite | dsimp only | simp only [canon_mk] | split)

theorem canon_execRefSelectForced (c : Cmd) (s : State) (h_s : s.canon = true) : resCanon (execRefSelectForced c s) = true := by
  unfold execRefSelectForced
  repeat' (first | with_reducible assumption | intro _ | with_reducible apply canon_selSettle | with_reducible apply canon_runCmd | with_reducible apply canon_refSelect | with_reducible apply canon_ite | with_reducible apply canon_regs | with_reducible apply canon_foldl | with_reducible apply canon_next | with_reducible apply resCanon_ite | dsimp only | simp only [canon_mk] | split)

theorem canon_execRefSelectHoldover (c : Cmd) (s : State) (h_s : s.canon = true) : resCanon (execRefSelectHoldover c s) = true := by
  unfold execRefSelectHoldover
  repeat' (first | with_reducible assumption | intro _ | with_reducible apply canon_selSettle | with_reducible apply canon_runCmd | with_reducible apply canon_refSelect | with_reducible apply canon_ite | with_reducible apply canon_regs | with_reducible apply canon_foldl | with_reducible apply canon_next | with_reducible apply resCanon_ite | dsimp only | simp only [canon_mk] | split)

theorem canon_refStatusBody (c : Cmd) (s : State) (h_s : s.canon = true) : (refStatusBody c s).canon = true := by
  unfold refStatusBody
  repeat' (first | with_reducible assumption | intro _ | with_reducible apply canon_checked | with_reducible apply canon_noMore | with_reducible apply canon_ite | with_reducible apply canon_regs | with_reducible apply canon_foldl | with_reducible apply canon_done | with_reducible apply canon_later | with_reducible apply canon_loose | with_reducible apply canon_system | with_reducible apply canon_fail | with_reducible apply resultCanon_ite | dsimp only | simp only [canon_mk] | split)

theorem canon_execRefStatus (c : Cmd) (s : State) (h_s : s.canon = true) : resCanon (execRefStatus c s) = true := by
  unfold execRefStatus
  repeat' (first | with_reducible assumption | intro _ | with_reducible apply canon_runCmd | with_reducible apply canon_refStatusBody | with_reducible apply canon_ite | with_reducible apply canon_regs | with_reducible apply canon_foldl | with_reducible apply canon_next | with_reducible apply resCanon_ite | dsimp only | simp only [canon_mk] | split)

theorem canon_timeSetBody (c : Cmd) (s : State) (h_s : s.canon = true) : (timeSetBody c s).canon = true := by
  unfold timeSetBody
  repeat' (first | with_reducible assumption | intro _ | with_reducible apply canon_checked | with_reducible apply canon_refuseIf | with_reducible apply canon_noMore | with_reducible apply canon_ite | with_reducible apply canon_regs | with_reducible apply canon_foldl | with_reducible apply canon_done | with_reducible apply canon_later | with_reducible apply canon_loose | with_reducible apply canon_system | with_reducible apply canon_fail | with_reducible apply resultCanon_ite | dsimp only | simp only [canon_mk] | split)

theorem canon_execTimeSet (c : Cmd) (s : State) (h_s : s.canon = true) : resCanon (execTimeSet c s) = true := by
  unfold execTimeSet
  repeat' (first | with_reducible assumption | intro _ | with_reducible apply canon_runCmd | with_reducible apply canon_timeSetBody | with_reducible apply canon_ite | with_reducible apply canon_regs | with_reducible apply canon_foldl | with_reducible apply canon_next | with_reducible apply resCanon_ite | dsimp only | simp only [canon_mk] | split)

theorem canon_ppsAlignBody (step : Bool) (c : Cmd) (s : State) (h_s : s.canon = true) : (ppsAlignBody step c s).canon = true := by
  unfold ppsAlignBody
  repeat' (first | with_reducible assumption | intro _ | with_reducible apply canon_checked | with_reducible apply canon_refuseIf | with_reducible apply canon_noMore | with_reducible apply canon_ite | with_reducible apply canon_regs | with_reducible apply canon_foldl | with_reducible apply canon_done | with_reducible apply canon_later | with_reducible apply canon_loose | with_reducible apply canon_system | with_reducible apply canon_fail | with_reducible apply resultCanon_ite | dsimp only | simp only [canon_mk] | split)

theorem canon_execPpsAlignMeasure (c : Cmd) (s : State) (h_s : s.canon = true) : resCanon (execPpsAlignMeasure c s) = true := by
  unfold execPpsAlignMeasure
  repeat' (first | with_reducible assumption | intro _ | with_reducible apply canon_runCmd | with_reducible apply canon_ppsAlignBody | with_reducible apply canon_ite | with_reducible apply canon_regs | with_reducible apply canon_foldl | with_reducible apply canon_next | with_reducible apply resCanon_ite | dsimp only | simp only [canon_mk] | split)

theorem canon_execPpsAlignStep (c : Cmd) (s : State) (h_s : s.canon = true) : resCanon (execPpsAlignStep c s) = true := by
  unfold execPpsAlignStep
  repeat' (first | with_reducible assumption | intro _ | with_reducible apply canon_runCmd | with_reducible apply canon_ppsAlignBody | with_reducible apply canon_ite | with_reducible apply canon_regs | with_reducible apply canon_foldl | with_reducible apply canon_next | with_reducible apply resCanon_ite | dsimp only | simp only [canon_mk] | split)

theorem canon_execCoarseWrap (s : State) (h_s : s.canon = true) : resCanon (execCoarseWrap s) = true := by
  unfold execCoarseWrap
  repeat' (first | with_reducible assumption | intro _ | with_reducible apply canon_advance | with_reducible apply canon_ite | with_reducible apply canon_regs | with_reducible apply canon_foldl | with_reducible apply canon_next | with_reducible apply resCanon_ite | dsimp only | simp only [canon_mk] | split)

theorem canon_execPpsEdge (falling : Bool) (t : Nat) (s : State) (h_s : s.canon = true) : resCanon (execPpsEdge falling t s) = true := by
  unfold execPpsEdge
  repeat' (first | with_reducible assumption | intro _ | with_reducible apply canon_advanceTo | with_reducible apply canon_State_put | with_reducible apply canon_State_wrapInc | with_reducible apply canon_finish | with_reducible apply canon_ite | with_reducible apply canon_regs | with_reducible apply canon_foldl | with_reducible apply canon_next | with_reducible apply resCanon_ite | dsimp only | simp only [canon_mk] | split)

theorem canon_execPpsAlignTimeout (s : State) (h_s : s.canon = true) : resCanon (execPpsAlignTimeout s) = true := by
  unfold execPpsAlignTimeout
  repeat' (first | with_reducible assumption | intro _ | with_reducible apply canon_advanceTo | with_reducible apply canon_finish | with_reducible apply canon_ite | with_reducible apply canon_regs | with_reducible apply canon_foldl | with_reducible apply canon_next | with_reducible apply resCanon_ite | dsimp only | simp only [canon_mk] | split)

theorem canon_laneDieCheck (s : State) (n : Nat) (h_s : s.canon = true) : (laneDieCheck s n).canon = true := by
  unfold laneDieCheck
  repeat' (first | with_reducible assumption | intro _ | with_reducible apply canon_raise | with_reducible apply canon_ite | with_reducible apply canon_regs | with_reducible apply canon_foldl | dsimp only | simp only [canon_mk] | split)

end Sys2Proof.Machine
end

