-- ==== Sys2Proof/Laws/CanonLink.lean ====
section
/-! SUPPORT. The canonical form of the register store is kept by Machine/Link.lean. -/

set_option linter.all false

namespace Sys2Proof.Machine

theorem canon_sendFrame (s : State) (g : Nat) (kind : Nat) (ws : List Word) (h_s : s.canon = true) : (sendFrame s g kind ws).canon = true := by
  unfold sendFrame
  repeat' (first | with_reducible assumption | intro _ | with_reducible apply canon_dealBlocks | with_reducible apply canon_State_setGroup | with_reducible apply canon_transmit | with_reducible apply canon_ite | with_reducible apply canon_regs | with_reducible apply canon_foldl | dsimp only | simp only [canon_mk] | split)

theorem canon_dropGroup (s : State) (g : Nat) (n : Nat) (h_s : s.canon = true) : (dropGroup s g n).canon = true := by
  unfold dropGroup
  repeat' (first | with_reducible assumption | intro _ | with_reducible apply canon_State_satInc | with_reducible apply canon_ite | with_reducible apply canon_regs | with_reducible apply canon_foldl | dsimp only | simp only [canon_mk] | split)

theorem canon_gapNote (s : State) (g : Nat) (h_s : s.canon = true) : (gapNote s g).canon = true := by
  unfold gapNote
  repeat' (first | with_reducible assumption | intro _ | with_reducible apply canon_State_setGroup | with_reducible apply canon_ite | with_reducible apply canon_regs | with_reducible apply canon_foldl | dsimp only | simp only [canon_mk] | split)

theorem canon_countEcc (s : State) (corr : Field) (sat : Field) (i : Nat) (n : Nat) (h_s : s.canon = true) : (countEcc s corr sat i n).canon = true := by
  unfold countEcc
  repeat' (first | with_reducible assumption | intro _ | with_reducible apply canon_State_put | with_reducible apply canon_State_satInc | with_reducible apply canon_ite | with_reducible apply canon_regs | with_reducible apply canon_foldl | dsimp only | simp only [canon_mk] | split)

theorem canon_pauseFrame (s : State) (g : Nat) (op : Nat) (h_s : s.canon = true) : (pauseFrame s g op).canon = true := by
  unfold pauseFrame
  repeat' (first | with_reducible assumption | intro _ | with_reducible apply canon_sendFrame | with_reducible apply canon_ite | with_reducible apply canon_regs | with_reducible apply canon_foldl | dsimp only | simp only [canon_mk] | split)

theorem canon_pauseSettle (s : State) (g : Nat) (h_s : s.canon = true) : (pauseSettle s g).canon = true := by
  unfold pauseSettle
  repeat' (first | with_reducible assumption | intro _ | with_reducible apply canon_State_put | with_reducible apply canon_State_satInc | with_reducible apply canon_pauseFrame | with_reducible apply canon_State_setIng | with_reducible apply canon_ite | with_reducible apply canon_regs | with_reducible apply canon_foldl | dsimp only | simp only [canon_mk] | split)

theorem canon_ingSettle (s : State) (g : Nat) (h_s : s.canon = true) : (ingSettle s g).canon = true := by
  unfold ingSettle
  repeat' (first | with_reducible assumption | intro _ | with_reducible apply canon_State_setIng | with_reducible apply canon_State_put | with_reducible apply canon_event | with_reducible apply canon_pauseSettle | with_reducible apply canon_ite | with_reducible apply canon_regs | with_reducible apply canon_foldl | dsimp only | simp only [canon_mk] | split)

theorem canon_ingBack (s : State) (g : Nat) (x : Ingress) (h_s : s.canon = true) : (ingBack s g x).canon = true := by
  unfold ingBack
  repeat' (first | with_reducible assumption | intro _ | with_reducible apply canon_ingSettle | with_reducible apply canon_State_put | with_reducible apply canon_State_setIng | with_reducible apply canon_ite | with_reducible apply canon_regs | with_reducible apply canon_foldl | dsimp only | simp only [canon_mk] | split)

theorem canon_purge (s : State) (g : Nat) (fs : List IFrame) (h_s : s.canon = true) : (purge s g fs).canon = true := by
  unfold purge
  repeat' (first | with_reducible assumption | intro _ | with_reducible apply canon_ite | with_reducible apply canon_regs | with_reducible apply canon_foldl | dsimp only | simp only [canon_mk] | split)

theorem canon_dropIngress (s : State) (g : Nat) (h_s : s.canon = true) : (dropIngress s g).canon = true := by
  unfold dropIngress
  repeat' (first | with_reducible assumption | intro _ | with_reducible apply canon_purge | with_reducible apply canon_ingSettle | with_reducible apply canon_dropGroup | with_reducible apply canon_State_setIng | with_reducible apply canon_ite | with_reducible apply canon_regs | with_reducible apply canon_foldl | dsimp only | simp only [canon_mk] | split)

theorem canon_showWaited (s : State) (g : Nat) (h_s : s.canon = true) : (showWaited s g).canon = true := by
  unfold showWaited
  repeat' (first | with_reducible assumption | intro _ | with_reducible apply canon_State_put | with_reducible apply canon_ite | with_reducible apply canon_regs | with_reducible apply canon_foldl | dsimp only | simp only [canon_mk] | split)

theorem canon_isolate (s : State) (g : Nat) (count : Nat) (h_s : s.canon = true) : (isolate s g count).canon = true := by
  unfold isolate
  repeat' (first | with_reducible assumption | intro _ | with_reducible apply canon_State_setGroup | with_reducible apply canon_State_put | with_reducible apply canon_showWaited | with_reducible apply canon_raise | with_reducible apply canon_eventBoth | with_reducible apply canon_ite | with_reducible apply canon_regs | with_reducible apply canon_foldl | dsimp only | simp only [canon_mk] | split)

theorem canon_distrust (s : State) (g : Nat) (n : Nat) (h_s : s.canon = true) : (distrust s g n).canon = true := by
  unfold distrust
  repeat' (first | with_reducible assumption | intro _ | with_reducible apply canon_State_setGroup | with_reducible apply canon_isolate | with_reducible apply canon_ite | with_reducible apply canon_regs | with_reducible apply canon_foldl | dsimp only | simp only [canon_mk] | split)

theorem canon_showModelLane (s : State) (g : Nat) (h_s : s.canon = true) : (showModelLane s g).canon = true := by
  unfold showModelLane
  repeat' (first | with_reducible assumption | intro _ | with_reducible apply canon_State_put | with_reducible apply canon_ite | with_reducible apply canon_regs | with_reducible apply canon_foldl | dsimp only | simp only [canon_mk] | split)

theorem canon_putMstate (s : State) (l : Nat) (st : Nat) (h_s : s.canon = true) : (putMstate s l st).canon = true := by
  unfold putMstate
  repeat' (first | with_reducible assumption | intro _ | with_reducible apply canon_showModelLane | with_reducible apply canon_State_setModel | with_reducible apply canon_State_put | with_reducible apply canon_ite | with_reducible apply canon_regs | with_reducible apply canon_foldl | dsimp only | simp only [canon_mk] | split)

theorem canon_showFit (s : State) (l : Nat) (h_s : s.canon = true) : (showFit s l).canon = true := by
  unfold showFit
  repeat' (first | with_reducible assumption | intro _ | with_reducible apply canon_State_put | with_reducible apply canon_ite | with_reducible apply canon_regs | with_reducible apply canon_foldl | dsimp only | simp only [canon_mk] | split)

theorem canon_modelAcquire (s : State) (l : Nat) (h_s : s.canon = true) : (modelAcquire s l).canon = true := by
  unfold modelAcquire
  repeat' (first | with_reducible assumption | intro _ | with_reducible apply canon_putMstate | with_reducible apply canon_showFit | with_reducible apply canon_State_setModel | with_reducible apply canon_ite | with_reducible apply canon_regs | with_reducible apply canon_foldl | dsimp only | simp only [canon_mk] | split)

theorem canon_modelNone (s : State) (l : Nat) (h_s : s.canon = true) : (modelNone s l).canon = true := by
  unfold modelNone
  repeat' (first | with_reducible assumption | intro _ | with_reducible apply canon_State_setModel | with_reducible apply canon_State_put | with_reducible apply canon_putMstate | with_reducible apply canon_showFit | with_reducible apply canon_ite | with_reducible apply canon_regs | with_reducible apply canon_foldl | dsimp only | simp only [canon_mk] | split)

theorem canon_modelStart (s : State) (l : Nat) (h_s : s.canon = true) : (modelStart s l).canon = true := by
  unfold modelStart
  repeat' (first | with_reducible assumption | intro _ | with_reducible apply canon_modelAcquire | with_reducible apply canon_State_setModel | with_reducible apply canon_ite | with_reducible apply canon_regs | with_reducible apply canon_foldl | dsimp only | simp only [canon_mk] | split)

theorem canon_loseBeacons (s : State) (l : Nat) (h_s : s.canon = true) : (loseBeacons s l).canon = true := by
  unfold loseBeacons
  repeat' (first | with_reducible assumption | intro _ | with_reducible apply canon_State_setModel | with_reducible apply canon_State_satInc | with_reducible apply canon_ite | with_reducible apply canon_regs | with_reducible apply canon_foldl | dsimp only | simp only [canon_mk] | split)

theorem canon_modelLeave (s : State) (l : Nat) (h_s : s.canon = true) : (modelLeave s l).canon = true := by
  unfold modelLeave
  repeat' (first | with_reducible assumption | intro _ | with_reducible apply canon_loseBeacons | with_reducible apply canon_modelNone | with_reducible apply canon_putMstate | with_reducible apply canon_State_setModel | with_reducible apply canon_ite | with_reducible apply canon_regs | with_reducible apply canon_foldl | dsimp only | simp only [canon_mk] | split)

theorem canon_modelEnter (s : State) (l : Nat) (h_s : s.canon = true) : (modelEnter s l).canon = true := by
  unfold modelEnter
  repeat' (first | with_reducible assumption | intro _ | with_reducible apply canon_modelNone | with_reducible apply canon_putMstate | with_reducible apply canon_modelStart | with_reducible apply canon_ite | with_reducible apply canon_regs | with_reducible apply canon_foldl | dsimp only | simp only [canon_mk] | split)

theorem canon_freeTxn (s : State) (t : Nat) (h_s : s.canon = true) : (freeTxn s t).canon = true := by
  unfold freeTxn
  repeat' (first | with_reducible assumption | intro _ | with_reducible apply canon_State_setTxn | with_reducible apply canon_ite | with_reducible apply canon_regs | with_reducible apply canon_foldl | dsimp only | simp only [canon_mk] | split)

theorem canon_txnEvent (s : State) (t : Nat) (h_s : s.canon = true) : (txnEvent s t).canon = true := by
  unfold txnEvent
  repeat' (first | with_reducible assumption | intro _ | with_reducible apply canon_event | with_reducible apply canon_ite | with_reducible apply canon_regs | with_reducible apply canon_foldl | dsimp only | simp only [canon_mk] | split)

theorem canon_txnDoneOne (s : State) (t : Nat) (stat : Nat) (pstatus : Nat) (data : List Word) (quar : Nat) (h_s : s.canon = true) : (txnDoneOne s t stat pstatus data quar).canon = true := by
  unfold txnDoneOne
  repeat' (first | with_reducible assumption | intro _ | with_reducible apply canon_txnEvent | with_reducible apply canon_State_setTxn | with_reducible apply canon_ite | with_reducible apply canon_regs | with_reducible apply canon_foldl | dsimp only | simp only [canon_mk] | split)

theorem canon_txnDone (s : State) (t : Nat) (stat : Nat) (pstatus : Nat) (data : List Word) (quar : Nat) (h_s : s.canon = true) : (txnDone s t stat pstatus data quar).canon = true := by
  unfold txnDone
  repeat' (first | with_reducible assumption | intro _ | with_reducible apply canon_txnDoneOne | with_reducible apply canon_ite | with_reducible apply canon_regs | with_reducible apply canon_foldl | dsimp only | simp only [canon_mk] | split)

theorem canon_txnLeaveDone (s : State) (t : Nat) (h_s : s.canon = true) : (txnLeaveDone s t).canon = true := by
  unfold txnLeaveDone
  repeat' (first | with_reducible assumption | intro _ | with_reducible apply canon_freeTxn | with_reducible apply canon_State_setTxn | with_reducible apply canon_ite | with_reducible apply canon_regs | with_reducible apply canon_foldl | dsimp only | simp only [canon_mk] | split)

theorem canon_txnDrop (s : State) (g : Nat) (h_s : s.canon = true) : (txnDrop s g).canon = true := by
  unfold txnDrop
  repeat' (first | with_reducible assumption | intro _ | with_reducible apply canon_txnDone | with_reducible apply canon_State_setTxn | with_reducible apply canon_ite | with_reducible apply canon_regs | with_reducible apply canon_foldl | dsimp only | simp only [canon_mk] | split)

theorem canon_sendRequest (s : State) (t : Nat) (data : List Word) (h_s : s.canon = true) : (sendRequest s t data).canon = true := by
  unfold sendRequest
  repeat' (first | with_reducible assumption | intro _ | with_reducible apply canon_sendFrame | with_reducible apply canon_ite | with_reducible apply canon_regs | with_reducible apply canon_foldl | dsimp only | simp only [canon_mk] | split)

theorem canon_txnUnlink (s : State) (g : Nat) (h_s : s.canon = true) : (txnUnlink s g).canon = true := by
  unfold txnUnlink
  repeat' (first | with_reducible assumption | intro _ | with_reducible apply canon_freeTxn | with_reducible apply canon_State_setTxn | with_reducible apply canon_ite | with_reducible apply canon_regs | with_reducible apply canon_foldl | dsimp only | simp only [canon_mk] | split)

theorem canon_txnSecondBeacon (s : State) (g : Nat) (h_s : s.canon = true) : (txnSecondBeacon s g).canon = true := by
  unfold txnSecondBeacon
  repeat' (first | with_reducible assumption | intro _ | with_reducible apply canon_txnUnlink | with_reducible apply canon_txnDone | with_reducible apply canon_State_setTxn | with_reducible apply canon_sendRequest | with_reducible apply canon_ite | with_reducible apply canon_regs | with_reducible apply canon_foldl | dsimp only | simp only [canon_mk] | split)

theorem canon_recordRetirement (s : State) (source : Nat) (kind : Nat) (sub : Nat) (h_s : s.canon = true) : (recordRetirement s source kind sub).canon = true := by
  unfold recordRetirement
  repeat' (first | with_reducible assumption | intro _ | with_reducible apply canon_ite | with_reducible apply canon_regs | with_reducible apply canon_foldl | dsimp only | simp only [canon_mk] | split)

theorem canon_putCopies (s : State) (f : Field) (idx : Nat) (v : Nat) (h_s : s.canon = true) : (putCopies s f idx v).canon = true := by
  unfold putCopies
  repeat' (first | with_reducible assumption | intro _ | with_reducible apply canon_State_put | with_reducible apply canon_ite | with_reducible apply canon_regs | with_reducible apply canon_foldl | dsimp only | simp only [canon_mk] | split)

theorem canon_groupDown (s : State) (g : Nat) (run : List Nat) (h_s : s.canon = true) : (groupDown s g run).canon = true := by
  unfold groupDown
  repeat' (first | with_reducible assumption | intro _ | with_reducible apply canon_gapNote | with_reducible apply canon_State_put | with_reducible apply canon_State_setGroup | with_reducible apply canon_modelLeave | with_reducible apply canon_pauseSettle | with_reducible apply canon_showWaited | with_reducible apply canon_txnDrop | with_reducible apply canon_showModelLane | with_reducible apply canon_ite | with_reducible apply canon_regs | with_reducible apply canon_foldl | dsimp only | simp only [canon_mk] | split)

theorem canon_groupUpNow (s : State) (g : Nat) (first : Nat) (run : List Nat) (skew : Nat) (h_s : s.canon = true) : (groupUpNow s g first run skew).canon = true := by
  unfold groupUpNow
  repeat' (first | with_reducible assumption | intro _ | with_reducible apply canon_State_put | with_reducible apply canon_State_setGroup | with_reducible apply canon_pauseSettle | with_reducible apply canon_modelEnter | with_reducible apply canon_ite | with_reducible apply canon_regs | with_reducible apply canon_foldl | dsimp only | simp only [canon_mk] | split)

end Sys2Proof.Machine
end

