-- ==== Sys2Proof/Laws/CanonLanes.lean ====
section
/-! SUPPORT. The canonical form of the register store is kept by Machine/Lanes.lean. -/

set_option linter.all false

namespace Sys2Proof.Machine

theorem canon_sendCap (s : State) (l : Nat) (h_s : s.canon = true) : (sendCap s l).canon = true := by
  unfold sendCap
  repeat' (first | with_reducible assumption | intro _ | with_reducible apply canon_transmit | with_reducible apply canon_ite | with_reducible apply canon_regs | with_reducible apply canon_foldl | dsimp only | simp only [canon_mk] | split)

theorem canon_laneEvent (s : State) (l : Nat) (h_s : s.canon = true) : (laneEvent s l).canon = true := by
  unfold laneEvent
  repeat' (first | with_reducible assumption | intro _ | with_reducible apply canon_eventBoth | with_reducible apply canon_ite | with_reducible apply canon_regs | with_reducible apply canon_foldl | dsimp only | simp only [canon_mk] | split)

theorem canon_laneLeft (s : State) (l : Nat) (h_s : s.canon = true) : (laneLeft s l).canon = true := by
  unfold laneLeft
  repeat' (first | with_reducible assumption | intro _ | with_reducible apply canon_freeChan | with_reducible apply canon_refcCheck | with_reducible apply canon_State_setHlane | with_reducible apply canon_ite | with_reducible apply canon_regs | with_reducible apply canon_foldl | dsimp only | simp only [canon_mk] | split)

theorem canon_enterLane (s : State) (l : Nat) (st : Nat) (h_s : s.canon = true) : (enterLane s l st).canon = true := by
  unfold enterLane
  repeat' (first | with_reducible assumption | intro _ | with_reducible apply canon_State_setLane | with_reducible apply canon_State_put | with_reducible apply canon_laneEvent | with_reducible apply canon_raise | with_reducible apply canon_laneLeft | with_reducible apply canon_ite | with_reducible apply canon_regs | with_reducible apply canon_foldl | dsimp only | simp only [canon_mk] | split)

theorem canon_clearMode (s : State) (l : Nat) (h_s : s.canon = true) : (clearMode s l).canon = true := by
  unfold clearMode
  repeat' (first | with_reducible assumption | intro _ | with_reducible apply canon_State_put | with_reducible apply canon_State_setLane | with_reducible apply canon_ite | with_reducible apply canon_regs | with_reducible apply canon_foldl | dsimp only | simp only [canon_mk] | split)

theorem canon_toDown (s : State) (l : Nat) (h_s : s.canon = true) : (toDown s l).canon = true := by
  unfold toDown
  repeat' (first | with_reducible assumption | intro _ | with_reducible apply canon_enterLane | with_reducible apply canon_clearMode | with_reducible apply canon_ite | with_reducible apply canon_regs | with_reducible apply canon_foldl | dsimp only | simp only [canon_mk] | split)

theorem canon_toDetect (s : State) (l : Nat) (h_s : s.canon = true) : (toDetect s l).canon = true := by
  unfold toDetect
  repeat' (first | with_reducible assumption | intro _ | with_reducible apply canon_enterLane | with_reducible apply canon_clearMode | with_reducible apply canon_ite | with_reducible apply canon_regs | with_reducible apply canon_foldl | dsimp only | simp only [canon_mk] | split)

theorem canon_toCap (s : State) (l : Nat) (h_s : s.canon = true) : (toCap s l).canon = true := by
  unfold toCap
  repeat' (first | with_reducible assumption | intro _ | with_reducible apply canon_sendCap | with_reducible apply canon_enterLane | with_reducible apply canon_clearMode | with_reducible apply canon_ite | with_reducible apply canon_regs | with_reducible apply canon_foldl | dsimp only | simp only [canon_mk] | split)

theorem canon_leaveIfUp (s : State) (g : Nat) (up : Bool) (run : List Nat) (h_s : s.canon = true) : (leaveIfUp s g up run).canon = true := by
  unfold leaveIfUp
  repeat' (first | with_reducible assumption | intro _ | with_reducible apply canon_groupDown | with_reducible apply canon_State_setGroup | with_reducible apply canon_ite | with_reducible apply canon_regs | with_reducible apply canon_foldl | dsimp only | simp only [canon_mk] | split)

theorem canon_groupIsDown (s : State) (g : Nat) (h_s : s.canon = true) : (groupIsDown s g).canon = true := by
  unfold groupIsDown
  repeat' (first | with_reducible assumption | intro _ | with_reducible apply canon_dropIngress | with_reducible apply canon_modelNone | with_reducible apply canon_ite | with_reducible apply canon_regs | with_reducible apply canon_foldl | dsimp only | simp only [canon_mk] | split)

theorem canon_groupToDown (s : State) (g : Nat) (h_s : s.canon = true) : (groupToDown s g).canon = true := by
  unfold groupToDown
  repeat' (first | with_reducible assumption | intro _ | with_reducible apply canon_groupIsDown | with_reducible apply canon_leaveIfUp | with_reducible apply canon_toDown | with_reducible apply canon_ite | with_reducible apply canon_regs | with_reducible apply canon_foldl | dsimp only | simp only [canon_mk] | split)

theorem canon_groupToDetect (s : State) (g : Nat) (h_s : s.canon = true) : (groupToDetect s g).canon = true := by
  unfold groupToDetect
  repeat' (first | with_reducible assumption | intro _ | with_reducible apply canon_leaveIfUp | with_reducible apply canon_toDetect | with_reducible apply canon_ite | with_reducible apply canon_regs | with_reducible apply canon_foldl | dsimp only | simp only [canon_mk] | split)

theorem canon_groupToCap (s : State) (g : Nat) (h_s : s.canon = true) : (groupToCap s g).canon = true := by
  unfold groupToCap
  repeat' (first | with_reducible assumption | intro _ | with_reducible apply canon_leaveIfUp | with_reducible apply canon_toCap | with_reducible apply canon_ite | with_reducible apply canon_regs | with_reducible apply canon_foldl | dsimp only | simp only [canon_mk] | split)

theorem canon_groupToFaulty (s : State) (g : Nat) (h_s : s.canon = true) : (groupToFaulty s g).canon = true := by
  unfold groupToFaulty
  repeat' (first | with_reducible assumption | intro _ | with_reducible apply canon_leaveIfUp | with_reducible apply canon_enterLane | with_reducible apply canon_clearMode | with_reducible apply canon_ite | with_reducible apply canon_regs | with_reducible apply canon_foldl | dsimp only | simp only [canon_mk] | split)

theorem canon_requestBlock (s : State) (g : Nat) (rn : Nat) (kind : Nat) (width : Nat) (first : Nat) (h_s : s.canon = true) : (requestBlock s g rn kind width first).canon = true := by
  unfold requestBlock
  repeat' (first | with_reducible assumption | intro _ | with_reducible apply canon_sendBlock | with_reducible apply canon_ite | with_reducible apply canon_regs | with_reducible apply canon_foldl | dsimp only | simp only [canon_mk] | split)

theorem canon_responseBlock (s : State) (g : Nat) (rn : Nat) (answer : Nat) (h_s : s.canon = true) : (responseBlock s g rn answer).canon = true := by
  unfold responseBlock
  repeat' (first | with_reducible assumption | intro _ | with_reducible apply canon_sendBlock | with_reducible apply canon_ite | with_reducible apply canon_regs | with_reducible apply canon_foldl | dsimp only | simp only [canon_mk] | split)

theorem canon_nextRequest (s : State) (g : Nat) (h_s : s.canon = true) : (nextRequest s g).canon = true := by
  unfold nextRequest
  repeat' (first | with_reducible assumption | intro _ | with_reducible apply canon_requestBlock | with_reducible apply canon_State_setGroup | with_reducible apply canon_ite | with_reducible apply canon_regs | with_reducible apply canon_foldl | dsimp only | simp only [canon_mk] | split)

theorem canon_linkRequest (s : State) (g : Nat) (kind : Nat) (width : Nat) (first : Nat) (h_s : s.canon = true) : (linkRequest s g kind width first).canon = true := by
  unfold linkRequest
  repeat' (first | with_reducible assumption | intro _ | with_reducible apply canon_nextRequest | with_reducible apply canon_State_setGroup | with_reducible apply canon_ite | with_reducible apply canon_regs | with_reducible apply canon_foldl | dsimp only | simp only [canon_mk] | split)

theorem canon_startRate (s : State) (g : Nat) (st : Nat) (rate : Nat) (ls : List Nat) (h_s : s.canon = true) : (startRate s g st rate ls).canon = true := by
  unfold startRate
  repeat' (first | with_reducible assumption | intro _ | with_reducible apply canon_State_put | with_reducible apply canon_enterLane | with_reducible apply canon_State_setLane | with_reducible apply canon_ite | with_reducible apply canon_regs | with_reducible apply canon_foldl | dsimp only | simp only [canon_mk] | split)

theorem canon_toAlign (s : State) (g : Nat) (passed : List Nat) (rate : Nat) (fec : Nat) (first : Nat) (code : Nat) (h_s : s.canon = true) : (toAlign s g passed rate fec first code).canon = true := by
  unfold toAlign
  repeat' (first | with_reducible assumption | intro _ | with_reducible apply canon_State_put | with_reducible apply canon_State_setLane | with_reducible apply canon_toCap | with_reducible apply canon_enterLane | with_reducible apply canon_State_setGroup | with_reducible apply canon_ite | with_reducible apply canon_regs | with_reducible apply canon_foldl | dsimp only | simp only [canon_mk] | split)

theorem canon_rateResult (a1 : Nat) (a2 : State) (a3 : Nat) (h_a2 : a2.canon = true) : (rateResult a1 a2 a3).canon = true := by
  induction a1 generalizing a2 a3 h_a2 with
  | zero =>
    unfold rateResult
    repeat' (first | with_reducible assumption | intro _ | with_reducible apply ih | with_reducible apply canon_State_satInc | with_reducible apply canon_toDetect | with_reducible apply canon_groupToCap | with_reducible apply canon_startRate | with_reducible apply canon_toAlign | with_reducible apply canon_ite | with_reducible apply canon_regs | with_reducible apply canon_foldl | dsimp only | simp only [canon_mk] | split)
  | succ n ih =>
    unfold rateResult
    repeat' (first | with_reducible assumption | intro _ | with_reducible apply ih | with_reducible apply canon_State_satInc | with_reducible apply canon_toDetect | with_reducible apply canon_groupToCap | with_reducible apply canon_startRate | with_reducible apply canon_toAlign | with_reducible apply canon_ite | with_reducible apply canon_regs | with_reducible apply canon_foldl | dsimp only | simp only [canon_mk] | split)

theorem canon_startRetrain (s : State) (g : Nat) (h_s : s.canon = true) : (startRetrain s g).canon = true := by
  unfold startRetrain
  repeat' (first | with_reducible assumption | intro _ | with_reducible apply canon_State_setGroup | with_reducible apply canon_State_satInc | with_reducible apply canon_rateResult | with_reducible apply canon_leaveIfUp | with_reducible apply canon_startRate | with_reducible apply canon_ite | with_reducible apply canon_regs | with_reducible apply canon_foldl | dsimp only | simp only [canon_mk] | split)

theorem canon_enterRetrain (s : State) (g : Nat) (notify : Bool) (h_s : s.canon = true) : (enterRetrain s g notify).canon = true := by
  unfold enterRetrain
  repeat' (first | with_reducible assumption | intro _ | with_reducible apply canon_groupToFaulty | with_reducible apply canon_startRetrain | with_reducible apply canon_requestBlock | with_reducible apply canon_State_setGroup | with_reducible apply canon_ite | with_reducible apply canon_regs | with_reducible apply canon_foldl | dsimp only | simp only [canon_mk] | split)

theorem canon_retrainTrigger (s : State) (g : Nat) (h_s : s.canon = true) : (retrainTrigger s g).canon = true := by
  unfold retrainTrigger
  repeat' (first | with_reducible assumption | intro _ | with_reducible apply canon_enterRetrain | with_reducible apply canon_groupToDetect | with_reducible apply canon_ite | with_reducible apply canon_regs | with_reducible apply canon_foldl | dsimp only | simp only [canon_mk] | split)

theorem canon_groupFollow (s : State) (g : Nat) (h_s : s.canon = true) : (groupFollow s g).canon = true := by
  unfold groupFollow
  repeat' (first | with_reducible assumption | intro _ | with_reducible apply canon_rateResult | with_reducible apply canon_toDetect | with_reducible apply canon_ite | with_reducible apply canon_regs | with_reducible apply canon_foldl | dsimp only | simp only [canon_mk] | split)

theorem canon_laneLoss (s : State) (l : Nat) (st : Nat) (h_s : s.canon = true) : (laneLoss s l st).canon = true := by
  unfold laneLoss
  repeat' (first | with_reducible assumption | intro _ | with_reducible apply canon_enterLane | with_reducible apply canon_clearMode | with_reducible apply canon_groupIsDown | with_reducible apply canon_leaveIfUp | with_reducible apply canon_retrainTrigger | with_reducible apply canon_groupFollow | with_reducible apply canon_ite | with_reducible apply canon_regs | with_reducible apply canon_foldl | dsimp only | simp only [canon_mk] | split)

theorem canon_laneEnChange (s : State) (l : Nat) (h_s : s.canon = true) : (laneEnChange s l).canon = true := by
  unfold laneEnChange
  repeat' (first | with_reducible assumption | intro _ | with_reducible apply canon_toDetect | with_reducible apply canon_laneLoss | with_reducible apply canon_ite | with_reducible apply canon_regs | with_reducible apply canon_foldl | dsimp only | simp only [canon_mk] | split)

theorem canon_applyWidth (s : State) (g : Nat) (first : Nat) (code : Nat) (h_s : s.canon = true) : (applyWidth s g first code).canon = true := by
  unfold applyWidth
  repeat' (first | with_reducible assumption | intro _ | with_reducible apply canon_toAlign | with_reducible apply canon_groupDown | with_reducible apply canon_State_setGroup | with_reducible apply canon_ite | with_reducible apply canon_regs | with_reducible apply canon_foldl | dsimp only | simp only [canon_mk] | split)

theorem canon_widthFollow (s : State) (g : Nat) (h_s : s.canon = true) : (widthFollow s g).canon = true := by
  unfold widthFollow
  repeat' (first | with_reducible assumption | intro _ | with_reducible apply canon_linkRequest | with_reducible apply canon_groupToCap | with_reducible apply canon_ite | with_reducible apply canon_regs | with_reducible apply canon_foldl | dsimp only | simp only [canon_mk] | split)

theorem canon_widthStill (s : State) (g : Nat) (h_s : s.canon = true) : (widthStill s g).canon = true := by
  unfold widthStill
  repeat' (first | with_reducible assumption | intro _ | with_reducible apply canon_widthFollow | with_reducible apply canon_ite | with_reducible apply canon_regs | with_reducible apply canon_foldl | dsimp only | simp only [canon_mk] | split)

theorem canon_retireLane (s : State) (l : Nat) (h_s : s.canon = true) : (retireLane s l).canon = true := by
  unfold retireLane
  repeat' (first | with_reducible assumption | intro _ | with_reducible apply canon_enterLane | with_reducible apply canon_clearMode | with_reducible apply canon_State_put | with_reducible apply canon_State_setLane | with_reducible apply canon_txnUnlink | with_reducible apply canon_groupIsDown | with_reducible apply canon_leaveIfUp | with_reducible apply canon_widthFollow | with_reducible apply canon_groupFollow | with_reducible apply canon_ite | with_reducible apply canon_regs | with_reducible apply canon_foldl | dsimp only | simp only [canon_mk] | split)

theorem canon_testSettle (s : State) (l : Nat) (h_s : s.canon = true) : (testSettle s l).canon = true := by
  unfold testSettle
  repeat' (first | with_reducible assumption | intro _ | with_reducible apply canon_State_satInc | with_reducible apply canon_State_setLane | with_reducible apply canon_ite | with_reducible apply canon_regs | with_reducible apply canon_foldl | dsimp only | simp only [canon_mk] | split)

theorem canon_lanesOff (s : State) (d : Nat) (h_s : s.canon = true) : (lanesOff s d).canon = true := by
  unfold lanesOff
  repeat' (first | with_reducible assumption | intro _ | with_reducible apply canon_enterLane | with_reducible apply canon_testSettle | with_reducible apply canon_groupToDown | with_reducible apply canon_ite | with_reducible apply canon_regs | with_reducible apply canon_foldl | dsimp only | simp only [canon_mk] | split)

theorem canon_lanesOn (s : State) (d : Nat) (h_s : s.canon = true) : (lanesOn s d).canon = true := by
  unfold lanesOn
  repeat' (first | with_reducible assumption | intro _ | with_reducible apply canon_toDetect | with_reducible apply canon_ite | with_reducible apply canon_regs | with_reducible apply canon_foldl | dsimp only | simp only [canon_mk] | split)

theorem canon_execLrefLoss (die : Nat) (s : State) (h_s : s.canon = true) : resCanon (execLrefLoss die s) = true := by
  unfold execLrefLoss
  repeat' (first | with_reducible assumption | intro _ | with_reducible apply canon_lanesOff | with_reducible apply canon_raise | with_reducible apply canon_ite | with_reducible apply canon_regs | with_reducible apply canon_foldl | with_reducible apply canon_next | with_reducible apply resCanon_ite | dsimp only | simp only [canon_mk] | split)

theorem canon_execLrefPresent (die : Nat) (s : State) (h_s : s.canon = true) : resCanon (execLrefPresent die s) = true := by
  unfold execLrefPresent
  repeat' (first | with_reducible assumption | intro _ | with_reducible apply canon_lanesOn | with_reducible apply canon_ite | with_reducible apply canon_regs | with_reducible apply canon_foldl | with_reducible apply canon_next | with_reducible apply resCanon_ite | dsimp only | simp only [canon_mk] | split)

theorem canon_execSignalDetect (lane : Nat) (s : State) (h_s : s.canon = true) : resCanon (execSignalDetect lane s) = true := by
  unfold execSignalDetect
  repeat' (first | with_reducible assumption | intro _ | with_reducible apply canon_toCap | with_reducible apply canon_ite | with_reducible apply canon_regs | with_reducible apply canon_foldl | with_reducible apply canon_next | with_reducible apply resCanon_ite | dsimp only | simp only [canon_mk] | split)

theorem canon_execSignalLoss (lane : Nat) (s : State) (h_s : s.canon = true) : resCanon (execSignalLoss lane s) = true := by
  unfold execSignalLoss
  repeat' (first | with_reducible assumption | intro _ | with_reducible apply canon_laneLoss | with_reducible apply canon_ite | with_reducible apply canon_regs | with_reducible apply canon_foldl | with_reducible apply canon_next | with_reducible apply resCanon_ite | dsimp only | simp only [canon_mk] | split)

theorem canon_showCap (s : State) (l : Nat) (w : Word) (ppm : Int) (h_s : s.canon = true) : (showCap s l w ppm).canon = true := by
  unfold showCap
  repeat' (first | with_reducible assumption | intro _ | with_reducible apply canon_State_put | with_reducible apply canon_ite | with_reducible apply canon_regs | with_reducible apply canon_foldl | dsimp only | simp only [canon_mk] | split)

theorem canon_capFail (s : State) (l : Nat) (h_s : s.canon = true) : (capFail s l).canon = true := by
  unfold capFail
  repeat' (first | with_reducible assumption | intro _ | with_reducible apply canon_toDetect | with_reducible apply canon_State_satInc | with_reducible apply canon_groupFollow | with_reducible apply canon_ite | with_reducible apply canon_regs | with_reducible apply canon_foldl | dsimp only | simp only [canon_mk] | split)

theorem canon_capComplete (s : State) (l : Nat) (w : Word) (h_s : s.canon = true) : (capComplete s l w).canon = true := by
  unfold capComplete
  repeat' (first | with_reducible assumption | intro _ | with_reducible apply canon_State_setLane | with_reducible apply canon_enterLane | with_reducible apply canon_rateResult | with_reducible apply canon_startRate | with_reducible apply canon_ite | with_reducible apply canon_regs | with_reducible apply canon_foldl | dsimp only | simp only [canon_mk] | split)

theorem canon_execCapabilityBlockReceive (lane : Nat) (w : Word) (ppm : Int) (s : State) (h_s : s.canon = true) : resCanon (execCapabilityBlockReceive lane w ppm s) = true := by
  unfold execCapabilityBlockReceive
  repeat' (first | with_reducible assumption | intro _ | with_reducible apply canon_sendCap | with_reducible apply canon_State_setLane | with_reducible apply canon_State_put | with_reducible apply canon_showCap | with_reducible apply canon_capFail | with_reducible apply canon_capComplete | with_reducible apply canon_ite | with_reducible apply canon_regs | with_reducible apply canon_foldl | with_reducible apply canon_next | with_reducible apply resCanon_ite | dsimp only | simp only [canon_mk] | split)

theorem canon_execCapExchTimeout (lane : Nat) (s : State) (h_s : s.canon = true) : resCanon (execCapExchTimeout lane s) = true := by
  unfold execCapExchTimeout
  repeat' (first | with_reducible assumption | intro _ | with_reducible apply canon_capFail | with_reducible apply canon_advanceTo | with_reducible apply canon_ite | with_reducible apply canon_regs | with_reducible apply canon_foldl | with_reducible apply canon_next | with_reducible apply resCanon_ite | dsimp only | simp only [canon_mk] | split)

theorem canon_execReceiversReady (lane : Nat) (s : State) (h_s : s.canon = true) : resCanon (execReceiversReady lane s) = true := by
  unfold execReceiversReady
  repeat' (first | with_reducible assumption | intro _ | with_reducible apply canon_State_setLane | with_reducible apply canon_ite | with_reducible apply canon_regs | with_reducible apply canon_foldl | with_reducible apply canon_next | with_reducible apply resCanon_ite | dsimp only | simp only [canon_mk] | split)

theorem canon_execTrainingNotReady (lane : Nat) (s : State) (h_s : s.canon = true) : resCanon (execTrainingNotReady lane s) = true := by
  unfold execTrainingNotReady
  repeat' (first | with_reducible assumption | intro _ | with_reducible apply canon_advanceTo | with_reducible apply canon_rateResult | with_reducible apply canon_State_setLane | with_reducible apply canon_ite | with_reducible apply canon_regs | with_reducible apply canon_foldl | with_reducible apply canon_next | with_reducible apply resCanon_ite | dsimp only | simp only [canon_mk] | split)

theorem canon_execPrbsWindowEnd (lane : Nat) (devErrors : Nat) (partnerErrors : Nat) (s : State) (h_s : s.canon = true) : resCanon (execPrbsWindowEnd lane devErrors partnerErrors s) = true := by
  unfold execPrbsWindowEnd
  repeat' (first | with_reducible assumption | intro _ | with_reducible apply canon_State_setLane | with_reducible apply canon_rateResult | with_reducible apply canon_ite | with_reducible apply canon_regs | with_reducible apply canon_foldl | with_reducible apply canon_next | with_reducible apply resCanon_ite | dsimp only | simp only [canon_mk] | split)

theorem canon_alignLost (s : State) (g : Nat) (h_s : s.canon = true) : (alignLost s g).canon = true := by
  unfold alignLost
  repeat' (first | with_reducible assumption | intro _ | with_reducible apply canon_applyWidth | with_reducible apply canon_State_satInc | with_reducible apply canon_ite | with_reducible apply canon_regs | with_reducible apply canon_foldl | dsimp only | simp only [canon_mk] | split)

theorem canon_markTake (s : State) (g : Nat) (lane : Nat) (member : Nat) (count : Nat) (h_s : s.canon = true) : (markTake s g lane member count).1.canon = true := by
  unfold markTake
  repeat' (first | with_reducible assumption | intro _ | with_reducible apply canon_State_setGroup | with_reducible apply canon_ite | with_reducible apply canon_regs | with_reducible apply canon_foldl | dsimp only | simp only [canon_mk] | split)

theorem canon_markTake_eq {s : State} {g : Nat} {lane : Nat} {member : Nat} {count : Nat} {q : State × _} (e : markTake s g lane member count = q) (h_s : s.canon = true) : q.1.canon = true := e ▸ canon_markTake s g lane member count h_s

theorem canon_showSkew (s : State) (g : Nat) (skew : Nat) (h_s : s.canon = true) : (showSkew s g skew).canon = true := by
  unfold showSkew
  repeat' (first | with_reducible assumption | intro _ | with_reducible apply canon_State_put | with_reducible apply canon_ite | with_reducible apply canon_regs | with_reducible apply canon_foldl | dsimp only | simp only [canon_mk] | split)

theorem canon_gainLock (s : State) (l : Nat) (h_s : s.canon = true) : (gainLock s l).canon = true := by
  unfold gainLock
  repeat' (first | with_reducible assumption | intro _ | with_reducible apply canon_State_setLane | with_reducible apply canon_ite | with_reducible apply canon_regs | with_reducible apply canon_foldl | dsimp only | simp only [canon_mk] | split)

theorem canon_execAlignmentMarkerReceive (lane : Nat) (member : Nat) (count : Nat) (skew : Nat) (t : Nat) (s : State) (h_s : s.canon = true) : resCanon (execAlignmentMarkerReceive lane member count skew t s) = true := by
  unfold execAlignmentMarkerReceive
  repeat' (first | with_reducible assumption | intro _ | with_reducible apply canon_gainLock | with_reducible apply canon_advanceTo | with_reducible apply canon_State_setLane | with_reducible apply canon_enterLane | with_reducible apply canon_widthStill | with_reducible apply canon_groupUpNow | with_reducible exact canon_markTake_eq (by with_reducible assumption) (by with_reducible assumption) | with_reducible apply canon_showSkew | with_reducible apply canon_alignLost | with_reducible apply canon_markTake | with_reducible apply canon_ite | with_reducible apply canon_regs | with_reducible apply canon_foldl | with_reducible apply canon_next | with_reducible apply resCanon_ite | dsimp only | simp only [canon_mk] | split)

theorem canon_execAlignmentMarkerSend (group : Nat) (s : State) (h_s : s.canon = true) : resCanon (execAlignmentMarkerSend group s) = true := by
  unfold execAlignmentMarkerSend
  repeat' (first | with_reducible assumption | intro _ | with_reducible apply canon_sendBlock | with_reducible apply canon_State_setGroup | with_reducible apply canon_applyWidth | with_reducible apply canon_ite | with_reducible apply canon_regs | with_reducible apply canon_foldl | with_reducible apply canon_next | with_reducible apply resCanon_ite | dsimp only | simp only [canon_mk] | split)

theorem canon_execAlignTimeout (group : Nat) (s : State) (h_s : s.canon = true) : resCanon (execAlignTimeout group s) = true := by
  unfold execAlignTimeout
  repeat' (first | with_reducible assumption | intro _ | with_reducible apply canon_startRetrain | with_reducible apply canon_advanceTo | with_reducible apply canon_ite | with_reducible apply canon_regs | with_reducible apply canon_foldl | with_reducible apply canon_next | with_reducible apply resCanon_ite | dsimp only | simp only [canon_mk] | split)

theorem canon_lockLost (s : State) (l : Nat) (h_s : s.canon = true) : (lockLost s l).canon = true := by
  unfold lockLost
  repeat' (first | with_reducible assumption | intro _ | with_reducible apply canon_State_satInc | with_reducible apply canon_State_setLane | with_reducible apply canon_retrainTrigger | with_reducible apply canon_ite | with_reducible apply canon_regs | with_reducible apply canon_foldl | dsimp only | simp only [canon_mk] | split)

theorem canon_elastic (s : State) (l : Nat) (filler : Bool) (h_s : s.canon = true) : (elastic s l filler).canon = true := by
  unfold elastic
  repeat' (first | with_reducible assumption | intro _ | with_reducible apply canon_State_setLane | with_reducible apply canon_raise | with_reducible apply canon_gapNote | with_reducible apply canon_State_satInc | with_reducible apply canon_ite | with_reducible apply canon_regs | with_reducible apply canon_foldl | dsimp only | simp only [canon_mk] | split)

theorem canon_badBlock (s : State) (l : Nat) (frame : Bool) (h_s : s.canon = true) : (badBlock s l frame).canon = true := by
  unfold badBlock
  repeat' (first | with_reducible assumption | intro _ | with_reducible apply canon_State_setGroup | with_reducible apply canon_ite | with_reducible apply canon_regs | with_reducible apply canon_foldl | dsimp only | simp only [canon_mk] | split)

theorem canon_elasticLost (s : State) (l : Nat) (injected : Bool) (h_s : s.canon = true) : (elasticLost s l injected).canon = true := by
  unfold elasticLost
  repeat' (first | with_reducible assumption | intro _ | with_reducible apply canon_raise | with_reducible apply canon_dataLost | with_reducible apply canon_gapNote | with_reducible apply canon_ite | with_reducible apply canon_regs | with_reducible apply canon_foldl | dsimp only | simp only [canon_mk] | split)

theorem canon_execBlockReceive (lane : Nat) (headerOk : Bool) (filler : Bool) (payload : Option Word) (s : State) (h_s : s.canon = true) : resCanon (execBlockReceive lane headerOk filler payload s) = true := by
  unfold execBlockReceive
  repeat' (first | with_reducible assumption | intro _ | with_reducible apply canon_elastic | with_reducible exact canon_awlTake_eq (by with_reducible assumption) (by with_reducible assumption) | with_reducible apply canon_elasticLost | with_reducible apply canon_gainLock | with_reducible apply canon_State_setLane | with_reducible apply canon_badBlock | with_reducible apply canon_distrust | with_reducible apply canon_lockLost | with_reducible apply canon_awlTake | with_reducible apply canon_ite | with_reducible apply canon_regs | with_reducible apply canon_foldl | with_reducible apply canon_next | with_reducible apply resCanon_ite | dsimp only | simp only [canon_mk] | split)

theorem canon_execCodewordDecode (lane : Nat) (errors : Nat) (aligned : Bool) (t : Nat) (s : State) (h_s : s.canon = true) : resCanon (execCodewordDecode lane errors aligned t s) = true := by
  unfold execCodewordDecode
  repeat' (first | with_reducible assumption | intro _ | with_reducible apply canon_advanceTo | with_reducible apply canon_lockLost | with_reducible apply canon_State_put | with_reducible apply canon_State_satInc | with_reducible apply canon_retrainTrigger | with_reducible apply canon_State_setLane | with_reducible apply canon_ite | with_reducible apply canon_regs | with_reducible apply canon_foldl | with_reducible apply canon_next | with_reducible apply resCanon_ite | dsimp only | simp only [canon_mk] | split)

theorem canon_execLinkRequestReceive (lane : Nat) (w : Word) (s : State) (h_s : s.canon = true) : resCanon (execLinkRequestReceive lane w s) = true := by
  unfold execLinkRequestReceive
  repeat' (first | with_reducible assumption | intro _ | with_reducible apply canon_responseBlock | with_reducible apply canon_State_satInc | with_reducible apply canon_State_setGroup | with_reducible apply canon_State_put | with_reducible apply canon_groupToFaulty | with_reducible apply canon_enterRetrain | with_reducible apply canon_ite | with_reducible apply canon_regs | with_reducible apply canon_foldl | with_reducible apply canon_next | with_reducible apply resCanon_ite | dsimp only | simp only [canon_mk] | split)

theorem canon_execLinkResponseReceive (lane : Nat) (w : Word) (s : State) (h_s : s.canon = true) : resCanon (execLinkResponseReceive lane w s) = true := by
  unfold execLinkResponseReceive
  repeat' (first | with_reducible assumption | intro _ | with_reducible apply canon_distrust | with_reducible apply canon_State_setGroup | with_reducible apply canon_State_put | with_reducible apply canon_enterRetrain | with_reducible apply canon_nextRequest | with_reducible apply canon_ite | with_reducible apply canon_regs | with_reducible apply canon_foldl | with_reducible apply canon_next | with_reducible apply resCanon_ite | dsimp only | simp only [canon_mk] | split)

theorem canon_execLinkRequestTimeout (group : Nat) (s : State) (h_s : s.canon = true) : resCanon (execLinkRequestTimeout group s) = true := by
  unfold execLinkRequestTimeout
  repeat' (first | with_reducible assumption | intro _ | with_reducible apply canon_groupToCap | with_reducible apply canon_advanceTo | with_reducible apply canon_ite | with_reducible apply canon_regs | with_reducible apply canon_foldl | with_reducible apply canon_next | with_reducible apply resCanon_ite | dsimp only | simp only [canon_mk] | split)

theorem canon_execCheckerLock (lane : Nat) (symbols : List Nat) (s : State) (h_s : s.canon = true) : resCanon (execCheckerLock lane symbols s) = true := by
  unfold execCheckerLock
  repeat' (first | with_reducible assumption | intro _ | with_reducible apply canon_State_setLane | with_reducible apply canon_State_put | with_reducible apply canon_ite | with_reducible apply canon_regs | with_reducible apply canon_foldl | with_reducible apply canon_next | with_reducible apply resCanon_ite | dsimp only | simp only [canon_mk] | split)

theorem canon_execCheckerLockLoss (lane : Nat) (bits : Nat) (errors : Nat) (s : State) (h_s : s.canon = true) : resCanon (execCheckerLockLoss lane bits errors s) = true := by
  unfold execCheckerLockLoss
  repeat' (first | with_reducible assumption | intro _ | with_reducible apply canon_State_satInc | with_reducible apply canon_State_put | with_reducible apply canon_ite | with_reducible apply canon_regs | with_reducible apply canon_foldl | with_reducible apply canon_next | with_reducible apply resCanon_ite | dsimp only | simp only [canon_mk] | split)

theorem canon_execErrorInjection (lane : Nat) (s : State) (h_s : s.canon = true) : resCanon (execErrorInjection lane s) = true := by
  unfold execErrorInjection
  repeat' (first | with_reducible assumption | intro _ | with_reducible apply canon_advanceTo | with_reducible apply canon_State_setLane | with_reducible apply canon_State_satInc | with_reducible apply canon_ite | with_reducible apply canon_regs | with_reducible apply canon_foldl | with_reducible apply canon_next | with_reducible apply resCanon_ite | dsimp only | simp only [canon_mk] | split)

theorem canon_laneChecked (c : Cmd) (s : State) (k : Nat → Result) (h_s : s.canon = true) (h_k : ∀ (x0 : Nat), (k x0).canon = true) : (laneChecked c s k).canon = true := by
  unfold laneChecked
  repeat' (first | with_reducible assumption | intro _ | with_reducible apply h_k | with_reducible apply canon_checked | with_reducible apply canon_refuseIf | with_reducible apply canon_noMore | with_reducible apply canon_ite | with_reducible apply canon_regs | with_reducible apply canon_foldl | with_reducible apply canon_done | with_reducible apply canon_later | with_reducible apply canon_loose | with_reducible apply canon_system | with_reducible apply canon_fail | with_reducible apply resultCanon_ite | dsimp only | simp only [canon_mk] | split)

theorem canon_sendReplyFrame (s : State) (lane : Nat) (h_s : s.canon = true) : (sendReplyFrame s lane).canon = true := by
  unfold sendReplyFrame
  repeat' (first | with_reducible assumption | intro _ | with_reducible apply canon_sendHost | with_reducible apply canon_State_setHlane | with_reducible apply canon_freeChan | with_reducible apply canon_ite | with_reducible apply canon_regs | with_reducible apply canon_foldl | dsimp only | simp only [canon_mk] | split)

theorem canon_sendReplies (a1 : Nat) (a2 : State) (a3 : Nat) (h_a2 : a2.canon = true) : (sendReplies a1 a2 a3).canon = true := by
  induction a1 generalizing a2 a3 h_a2 with
  | zero =>
    unfold sendReplies
    repeat' (first | with_reducible assumption | intro _ | with_reducible apply ih | with_reducible apply canon_sendReplyFrame | with_reducible apply canon_ite | with_reducible apply canon_regs | with_reducible apply canon_foldl | dsimp only | simp only [canon_mk] | split)
  | succ n ih =>
    unfold sendReplies
    repeat' (first | with_reducible assumption | intro _ | with_reducible apply ih | with_reducible apply canon_sendReplyFrame | with_reducible apply canon_ite | with_reducible apply canon_regs | with_reducible apply canon_foldl | dsimp only | simp only [canon_mk] | split)

theorem canon_replyFirst (s : State) (c : Cmd) (op : Nat) (h_s : s.canon = true) : (replyFirst s c op).canon = true := by
  unfold replyFirst
  repeat' (first | with_reducible assumption | intro _ | with_reducible apply canon_sendReply | with_reducible apply canon_sendReplies | with_reducible apply canon_ite | with_reducible apply canon_regs | with_reducible apply canon_foldl | dsimp only | simp only [canon_mk] | split)

theorem canon_laneDone (s : State) (c : Cmd) (op : Nat) (g : Nat) (effect : State → State) (h_s : s.canon = true) (h_effect : ∀ (x0 : State), x0.canon = true → (effect x0).canon = true) : (laneDone s c op g effect).canon = true := by
  unfold laneDone
  repeat' (first | with_reducible assumption | intro _ | with_reducible apply h_effect | with_reducible apply canon_replyFirst | with_reducible apply canon_ite | with_reducible apply canon_regs | with_reducible apply canon_foldl | with_reducible apply canon_done | with_reducible apply canon_later | with_reducible apply canon_loose | with_reducible apply canon_system | with_reducible apply canon_fail | with_reducible apply resultCanon_ite | dsimp only | simp only [canon_mk] | split)

theorem canon_laneUpBody (c : Cmd) (s : State) (h_s : s.canon = true) : (laneUpBody c s).canon = true := by
  unfold laneUpBody
  repeat' (first | with_reducible assumption | intro _ | with_reducible apply canon_laneChecked | with_reducible apply canon_putCopies | with_reducible apply canon_toDetect | with_reducible apply canon_ite | with_reducible apply canon_regs | with_reducible apply canon_foldl | with_reducible apply canon_done | with_reducible apply canon_later | with_reducible apply canon_loose | with_reducible apply canon_system | with_reducible apply canon_fail | with_reducible apply resultCanon_ite | dsimp only | simp only [canon_mk] | split)

theorem canon_execLaneUp (c : Cmd) (s : State) (h_s : s.canon = true) : resCanon (execLaneUp c s) = true := by
  unfold execLaneUp
  repeat' (first | with_reducible assumption | intro _ | with_reducible apply canon_runCmd | with_reducible apply canon_laneUpBody | with_reducible apply canon_ite | with_reducible apply canon_regs | with_reducible apply canon_foldl | with_reducible apply canon_next | with_reducible apply resCanon_ite | dsimp only | simp only [canon_mk] | split)

theorem canon_laneDownBody (c : Cmd) (s : State) (h_s : s.canon = true) : (laneDownBody c s).canon = true := by
  unfold laneDownBody
  repeat' (first | with_reducible assumption | intro _ | with_reducible apply canon_laneChecked | with_reducible apply canon_laneDone | with_reducible apply canon_groupToDown | with_reducible apply canon_putCopies | with_reducible apply canon_ite | with_reducible apply canon_regs | with_reducible apply canon_foldl | with_reducible apply canon_done | with_reducible apply canon_later | with_reducible apply canon_loose | with_reducible apply canon_system | with_reducible apply canon_fail | with_reducible apply resultCanon_ite | dsimp only | simp only [canon_mk] | split)

theorem canon_execLaneDown (c : Cmd) (s : State) (h_s : s.canon = true) : resCanon (execLaneDown c s) = true := by
  unfold execLaneDown
  repeat' (first | with_reducible assumption | intro _ | with_reducible apply canon_runCmd | with_reducible apply canon_laneDownBody | with_reducible apply canon_ite | with_reducible apply canon_regs | with_reducible apply canon_foldl | with_reducible apply canon_next | with_reducible apply resCanon_ite | dsimp only | simp only [canon_mk] | split)

theorem canon_laneRetrainBody (c : Cmd) (s : State) (h_s : s.canon = true) : (laneRetrainBody c s).canon = true := by
  unfold laneRetrainBody
  repeat' (first | with_reducible assumption | intro _ | with_reducible apply canon_laneChecked | with_reducible apply canon_refuseIf | with_reducible apply canon_laneDone | with_reducible apply canon_linkRequest | with_reducible apply canon_ite | with_reducible apply canon_regs | with_reducible apply canon_foldl | with_reducible apply canon_done | with_reducible apply canon_later | with_reducible apply canon_loose | with_reducible apply canon_system | with_reducible apply canon_fail | with_reducible apply resultCanon_ite | dsimp only | simp only [canon_mk] | split)

theorem canon_execLaneRetrain (c : Cmd) (s : State) (h_s : s.canon = true) : resCanon (execLaneRetrain c s) = true := by
  unfold execLaneRetrain
  repeat' (first | with_reducible assumption | intro _ | with_reducible apply canon_runCmd | with_reducible apply canon_laneRetrainBody | with_reducible apply canon_ite | with_reducible apply canon_regs | with_reducible apply canon_foldl | with_reducible apply canon_next | with_reducible apply resCanon_ite | dsimp only | simp only [canon_mk] | split)

theorem canon_putGroupLane (s : State) (l : Nat) (code : Nat) (member : Nat) (owner : Nat) (h_s : s.canon = true) : (putGroupLane s l code member owner).canon = true := by
  unfold putGroupLane
  repeat' (first | with_reducible assumption | intro _ | with_reducible apply canon_State_put | with_reducible apply canon_ite | with_reducible apply canon_regs | with_reducible apply canon_foldl | dsimp only | simp only [canon_mk] | split)

theorem canon_laneGroupConfigBody (c : Cmd) (s : State) (h_s : s.canon = true) : (laneGroupConfigBody c s).canon = true := by
  unfold laneGroupConfigBody
  repeat' (first | with_reducible assumption | intro _ | with_reducible apply canon_checked | with_reducible apply canon_refuseIf | with_reducible apply canon_noMore | with_reducible apply canon_txnUnlink | with_reducible apply canon_putGroupLane | with_reducible apply canon_State_put | with_reducible apply canon_State_setGroup | with_reducible apply canon_ite | with_reducible apply canon_regs | with_reducible apply canon_foldl | with_reducible apply canon_done | with_reducible apply canon_later | with_reducible apply canon_loose | with_reducible apply canon_system | with_reducible apply canon_fail | with_reducible apply resultCanon_ite | dsimp only | simp only [canon_mk] | split)

theorem canon_execLaneGroupConfig (c : Cmd) (s : State) (h_s : s.canon = true) : resCanon (execLaneGroupConfig c s) = true := by
  unfold execLaneGroupConfig
  repeat' (first | with_reducible assumption | intro _ | with_reducible apply canon_runCmd | with_reducible apply canon_laneGroupConfigBody | with_reducible apply canon_ite | with_reducible apply canon_regs | with_reducible apply canon_foldl | with_reducible apply canon_next | with_reducible apply resCanon_ite | dsimp only | simp only [canon_mk] | split)

theorem canon_laneGroupWidthBody (c : Cmd) (s : State) (h_s : s.canon = true) : (laneGroupWidthBody c s).canon = true := by
  unfold laneGroupWidthBody
  repeat' (first | with_reducible assumption | intro _ | with_reducible apply canon_checked | with_reducible apply canon_refuseIf | with_reducible apply canon_noMore | with_reducible apply canon_widthFollow | with_reducible apply canon_State_put | with_reducible apply canon_ite | with_reducible apply canon_regs | with_reducible apply canon_foldl | with_reducible apply canon_done | with_reducible apply canon_later | with_reducible apply canon_loose | with_reducible apply canon_system | with_reducible apply canon_fail | with_reducible apply resultCanon_ite | dsimp only | simp only [canon_mk] | split)

theorem canon_execLaneGroupWidth (c : Cmd) (s : State) (h_s : s.canon = true) : resCanon (execLaneGroupWidth c s) = true := by
  unfold execLaneGroupWidth
  repeat' (first | with_reducible assumption | intro _ | with_reducible apply canon_runCmd | with_reducible apply canon_laneGroupWidthBody | with_reducible apply canon_ite | with_reducible apply canon_regs | with_reducible apply canon_foldl | with_reducible apply canon_next | with_reducible apply resCanon_ite | dsimp only | simp only [canon_mk] | split)

theorem canon_laneTestStartBody (c : Cmd) (s : State) (h_s : s.canon = true) : (laneTestStartBody c s).canon = true := by
  unfold laneTestStartBody
  repeat' (first | with_reducible assumption | intro _ | with_reducible apply canon_laneChecked | with_reducible apply canon_refuseIf | with_reducible apply canon_State_put | with_reducible apply canon_State_setWord | with_reducible apply canon_enterLane | with_reducible apply canon_State_setLane | with_reducible apply canon_ite | with_reducible apply canon_regs | with_reducible apply canon_foldl | with_reducible apply canon_done | with_reducible apply canon_later | with_reducible apply canon_loose | with_reducible apply canon_system | with_reducible apply canon_fail | with_reducible apply resultCanon_ite | dsimp only | simp only [canon_mk] | split)

theorem canon_execLaneTestStart (c : Cmd) (s : State) (h_s : s.canon = true) : resCanon (execLaneTestStart c s) = true := by
  unfold execLaneTestStart
  repeat' (first | with_reducible assumption | intro _ | with_reducible apply canon_runCmd | with_reducible apply canon_laneTestStartBody | with_reducible apply canon_ite | with_reducible apply canon_regs | with_reducible apply canon_foldl | with_reducible apply canon_next | with_reducible apply resCanon_ite | dsimp only | simp only [canon_mk] | split)

theorem canon_laneTestStopBody (c : Cmd) (s : State) (h_s : s.canon = true) : (laneTestStopBody c s).canon = true := by
  unfold laneTestStopBody
  repeat' (first | with_reducible assumption | intro _ | with_reducible apply canon_laneChecked | with_reducible apply canon_enterLane | with_reducible apply canon_State_put | with_reducible apply canon_testSettle | with_reducible apply canon_ite | with_reducible apply canon_regs | with_reducible apply canon_foldl | with_reducible apply canon_done | with_reducible apply canon_later | with_reducible apply canon_loose | with_reducible apply canon_system | with_reducible apply canon_fail | with_reducible apply resultCanon_ite | dsimp only | simp only [canon_mk] | split)

theorem canon_execLaneTestStop (c : Cmd) (s : State) (h_s : s.canon = true) : resCanon (execLaneTestStop c s) = true := by
  unfold execLaneTestStop
  repeat' (first | with_reducible assumption | intro _ | with_reducible apply canon_runCmd | with_reducible apply canon_laneTestStopBody | with_reducible apply canon_ite | with_reducible apply canon_regs | with_reducible apply canon_foldl | with_reducible apply canon_next | with_reducible apply resCanon_ite | dsimp only | simp only [canon_mk] | split)

theorem canon_laneTestReadBody (c : Cmd) (s : State) (h_s : s.canon = true) : (laneTestReadBody c s).canon = true := by
  unfold laneTestReadBody
  repeat' (first | with_reducible assumption | intro _ | with_reducible apply canon_laneChecked | with_reducible apply canon_testSettle | with_reducible apply canon_ite | with_reducible apply canon_regs | with_reducible apply canon_foldl | with_reducible apply canon_done | with_reducible apply canon_later | with_reducible apply canon_loose | with_reducible apply canon_system | with_reducible apply canon_fail | with_reducible apply resultCanon_ite | dsimp only | simp only [canon_mk] | split)

theorem canon_execLaneTestRead (c : Cmd) (s : State) (h_s : s.canon = true) : resCanon (execLaneTestRead c s) = true := by
  unfold execLaneTestRead
  repeat' (first | with_reducible assumption | intro _ | with_reducible apply canon_runCmd | with_reducible apply canon_laneTestReadBody | with_reducible apply canon_ite | with_reducible apply canon_regs | with_reducible apply canon_foldl | with_reducible apply canon_next | with_reducible apply resCanon_ite | dsimp only | simp only [canon_mk] | split)

theorem canon_laneRetireBody (c : Cmd) (s : State) (h_s : s.canon = true) : (laneRetireBody c s).canon = true := by
  unfold laneRetireBody
  repeat' (first | with_reducible assumption | intro _ | with_reducible apply canon_checked | with_reducible apply canon_refuseIf | with_reducible apply canon_noMore | with_reducible apply canon_recordRetirement | with_reducible apply canon_retireLane | with_reducible apply canon_ite | with_reducible apply canon_regs | with_reducible apply canon_foldl | with_reducible apply canon_done | with_reducible apply canon_later | with_reducible apply canon_loose | with_reducible apply canon_system | with_reducible apply canon_fail | with_reducible apply resultCanon_ite | dsimp only | simp only [canon_mk] | split)

theorem canon_execLaneRetire (c : Cmd) (s : State) (h_s : s.canon = true) : resCanon (execLaneRetire c s) = true := by
  unfold execLaneRetire
  repeat' (first | with_reducible assumption | intro _ | with_reducible apply canon_runCmd | with_reducible apply canon_laneRetireBody | with_reducible apply canon_ite | with_reducible apply canon_regs | with_reducible apply canon_foldl | with_reducible apply canon_next | with_reducible apply resCanon_ite | dsimp only | simp only [canon_mk] | split)

end Sys2Proof.Machine
end

