-- ==== Sys2Proof/Laws/CanonPartner.lean ====
section
/-! SUPPORT. The canonical form of the register store is kept by Machine/Partner.lean. -/

set_option linter.all false

namespace Sys2Proof.Machine

theorem canon_frameBlocks (s : State) (g : Nat) (f : Frame) (h_s : s.canon = true) : (frameBlocks s g f).1.canon = true := by
  unfold frameBlocks
  repeat' (first | with_reducible assumption | intro _ | with_reducible apply canon_State_setLane | with_reducible apply canon_State_setGroup | with_reducible apply canon_ite | with_reducible apply canon_regs | with_reducible apply canon_foldl | dsimp only | simp only [canon_mk] | split)

theorem canon_frameBlocks_eq {s : State} {g : Nat} {f : Frame} {q : State × _} (e : frameBlocks s g f = q) (h_s : s.canon = true) : q.1.canon = true := e ▸ canon_frameBlocks s g f h_s

theorem canon_frameSeq (s : State) (g : Nat) (f : Frame) (h_s : s.canon = true) : (frameSeq s g f).canon = true := by
  unfold frameSeq
  repeat' (first | with_reducible assumption | intro _ | with_reducible apply canon_State_setGroup | with_reducible apply canon_State_satInc | with_reducible apply canon_gapNote | with_reducible apply canon_ite | with_reducible apply canon_regs | with_reducible apply canon_foldl | dsimp only | simp only [canon_mk] | split)

theorem canon_frameBad (s : State) (g : Nat) (f : Frame) (kinds : List Nat) (h_s : s.canon = true) : (frameBad s g f kinds).canon = true := by
  unfold frameBad
  repeat' (first | with_reducible assumption | intro _ | with_reducible apply canon_gapNote | with_reducible apply canon_State_satInc | with_reducible apply canon_distrust | with_reducible apply canon_ite | with_reducible apply canon_regs | with_reducible apply canon_foldl | dsimp only | simp only [canon_mk] | split)

theorem canon_laneStamp (s : State) (l : Nat) (edge : Nat) (code : Nat) (ok : Bool) (h_s : s.canon = true) : (laneStamp s l edge code ok).1.canon = true := by
  unfold laneStamp
  repeat' (first | with_reducible assumption | intro _ | with_reducible apply canon_advanceTo | with_reducible apply canon_State_setModel | with_reducible apply canon_tableCheck | with_reducible apply canon_raise | with_reducible apply canon_ite | with_reducible apply canon_regs | with_reducible apply canon_foldl | dsimp only | simp only [canon_mk] | split)

theorem canon_laneStamp_eq {s : State} {l : Nat} {edge : Nat} {code : Nat} {ok : Bool} {q : State × _} (e : laneStamp s l edge code ok = q) (h_s : s.canon = true) : q.1.canon = true := e ▸ canon_laneStamp s l edge code ok h_s

theorem canon_execBeaconSend (lane : Nat) (edge : Nat) (code : Nat) (ok : Bool) (s : State) (h_s : s.canon = true) : resCanon (execBeaconSend lane edge code ok s) = true := by
  unfold execBeaconSend
  repeat' (first | with_reducible assumption | intro _ | with_reducible apply canon_advanceTo | with_reducible exact canon_laneStamp_eq (by with_reducible assumption) (by with_reducible assumption) | with_reducible apply canon_State_satInc | with_reducible apply canon_sendBlock | with_reducible apply canon_State_setModel | with_reducible apply canon_State_setGroup | with_reducible apply canon_txnSecondBeacon | with_reducible apply canon_laneStamp | with_reducible apply canon_ite | with_reducible apply canon_regs | with_reducible apply canon_foldl | with_reducible apply canon_next | with_reducible apply resCanon_ite | dsimp only | simp only [canon_mk] | split)

theorem canon_exchangeLost (s : State) (l : Nat) (b : Beacon) (h_s : s.canon = true) : (exchangeLost s l b).canon = true := by
  unfold exchangeLost
  repeat' (first | with_reducible assumption | intro _ | with_reducible apply canon_State_setModel | with_reducible apply canon_State_satInc | with_reducible apply canon_ite | with_reducible apply canon_regs | with_reducible apply canon_foldl | dsimp only | simp only [canon_mk] | split)

theorem canon_execEchoReceive (lane : Nat) (w : Word) (edge : Nat) (code : Nat) (ok : Bool) (s : State) (h_s : s.canon = true) : resCanon (execEchoReceive lane w edge code ok s) = true := by
  unfold execEchoReceive
  repeat' (first | with_reducible assumption | intro _ | with_reducible exact canon_laneStamp_eq (by with_reducible assumption) (by with_reducible assumption) | with_reducible apply canon_State_satInc | with_reducible apply canon_State_setModel | with_reducible apply canon_laneStamp | with_reducible apply canon_ite | with_reducible apply canon_regs | with_reducible apply canon_foldl | with_reducible apply canon_next | with_reducible apply resCanon_ite | dsimp only | simp only [canon_mk] | split)

theorem canon_fitWindow (s : State) (l : Nat) (ps : List Pair) (h_s : s.canon = true) : (fitWindow s l ps).canon = true := by
  unfold fitWindow
  repeat' (first | with_reducible assumption | intro _ | with_reducible apply canon_State_put | with_reducible apply canon_showFit | with_reducible apply canon_State_setModel | with_reducible apply canon_ite | with_reducible apply canon_regs | with_reducible apply canon_foldl | dsimp only | simp only [canon_mk] | split)

theorem canon_joinWindow (s : State) (l : Nat) (p : Pair) (h_s : s.canon = true) : (joinWindow s l p).canon = true := by
  unfold joinWindow
  repeat' (first | with_reducible assumption | intro _ | with_reducible apply canon_State_setModel | with_reducible apply canon_State_put | with_reducible apply canon_ite | with_reducible apply canon_regs | with_reducible apply canon_foldl | dsimp only | simp only [canon_mk] | split)

theorem canon_modelStep (s : State) (l : Nat) (ps : List Pair) (h_s : s.canon = true) : (modelStep s l ps).canon = true := by
  unfold modelStep
  repeat' (first | with_reducible assumption | intro _ | with_reducible apply canon_State_setModel | with_reducible apply canon_putMstate | with_reducible apply canon_showFit | with_reducible apply canon_State_satInc | with_reducible apply canon_eventBoth | with_reducible apply canon_ite | with_reducible apply canon_regs | with_reducible apply canon_foldl | dsimp only | simp only [canon_mk] | split)

theorem canon_takePair (s : State) (l : Nat) (p : Pair) (h_s : s.canon = true) : (takePair s l p).canon = true := by
  unfold takePair
  repeat' (first | with_reducible assumption | intro _ | with_reducible apply canon_joinWindow | with_reducible apply canon_putMstate | with_reducible apply canon_fitWindow | with_reducible apply canon_State_setModel | with_reducible apply canon_State_satInc | with_reducible apply canon_modelStep | with_reducible apply canon_modelAcquire | with_reducible apply canon_ite | with_reducible apply canon_regs | with_reducible apply canon_foldl | dsimp only | simp only [canon_mk] | split)

theorem canon_execEchoFollowUpReceive (lane : Nat) (w : Word) (s : State) (h_s : s.canon = true) : resCanon (execEchoFollowUpReceive lane w s) = true := by
  unfold execEchoFollowUpReceive
  repeat' (first | with_reducible assumption | intro _ | with_reducible apply canon_State_setModel | with_reducible apply canon_distrust | with_reducible apply canon_exchangeLost | with_reducible apply canon_State_put | with_reducible apply canon_takePair | with_reducible apply canon_ite | with_reducible apply canon_regs | with_reducible apply canon_foldl | with_reducible apply canon_next | with_reducible apply resCanon_ite | dsimp only | simp only [canon_mk] | split)

theorem canon_execModelFitComplete (lane : Nat) (s : State) (h_s : s.canon = true) : resCanon (execModelFitComplete lane s) = true := by
  unfold execModelFitComplete
  repeat' (first | with_reducible assumption | intro _ | with_reducible apply canon_fitWindow | with_reducible apply canon_ite | with_reducible apply canon_regs | with_reducible apply canon_foldl | with_reducible apply canon_next | with_reducible apply resCanon_ite | dsimp only | simp only [canon_mk] | split)

theorem canon_dropWaiting (s : State) (g : Nat) (h_s : s.canon = true) : (dropWaiting s g).canon = true := by
  unfold dropWaiting
  repeat' (first | with_reducible assumption | intro _ | with_reducible apply canon_gapNote | with_reducible apply canon_ingSettle | with_reducible apply canon_dropGroup | with_reducible apply canon_State_setIng | with_reducible apply canon_ite | with_reducible apply canon_regs | with_reducible apply canon_foldl | dsimp only | simp only [canon_mk] | split)

theorem canon_execAcquireTimeout (lane : Nat) (s : State) (h_s : s.canon = true) : resCanon (execAcquireTimeout lane s) = true := by
  unfold execAcquireTimeout
  repeat' (first | with_reducible assumption | intro _ | with_reducible apply canon_advanceTo | with_reducible apply canon_State_setModel | with_reducible apply canon_dropWaiting | with_reducible apply canon_ite | with_reducible apply canon_regs | with_reducible apply canon_foldl | with_reducible apply canon_next | with_reducible apply resCanon_ite | dsimp only | simp only [canon_mk] | split)

theorem canon_execSuspectTimeout (lane : Nat) (s : State) (h_s : s.canon = true) : resCanon (execSuspectTimeout lane s) = true := by
  unfold execSuspectTimeout
  repeat' (first | with_reducible assumption | intro _ | with_reducible apply canon_modelAcquire | with_reducible apply canon_advanceTo | with_reducible apply canon_ite | with_reducible apply canon_regs | with_reducible apply canon_foldl | with_reducible apply canon_next | with_reducible apply resCanon_ite | dsimp only | simp only [canon_mk] | split)

theorem canon_execHalfWrapLimit (lane : Nat) (s : State) (h_s : s.canon = true) : resCanon (execHalfWrapLimit lane s) = true := by
  unfold execHalfWrapLimit
  repeat' (first | with_reducible assumption | intro _ | with_reducible apply canon_modelStart | with_reducible apply canon_modelNone | with_reducible apply canon_advanceTo | with_reducible apply canon_ite | with_reducible apply canon_regs | with_reducible apply canon_foldl | with_reducible apply canon_next | with_reducible apply resCanon_ite | dsimp only | simp only [canon_mk] | split)

theorem canon_timingChange (s : State) (l : Nat) (old : Word) (new : Word) (h_s : s.canon = true) : (timingChange s l old new).canon = true := by
  unfold timingChange
  repeat' (first | with_reducible assumption | intro _ | with_reducible apply canon_modelNone | with_reducible apply canon_modelAcquire | with_reducible apply canon_showFit | with_reducible apply canon_State_setModel | with_reducible apply canon_modelStart | with_reducible apply canon_ite | with_reducible apply canon_regs | with_reducible apply canon_foldl | dsimp only | simp only [canon_mk] | split)

theorem canon_partnerTxn (op : Nat) (c : Cmd) (s : State) (h_s : s.canon = true) : (partnerTxn op c s).canon = true := by
  unfold partnerTxn
  repeat' (first | with_reducible assumption | intro _ | with_reducible apply canon_checked | with_reducible apply canon_refuseIf | with_reducible apply canon_noMore | with_reducible apply canon_State_setTxn | with_reducible apply canon_sendRequest | with_reducible apply canon_ite | with_reducible apply canon_regs | with_reducible apply canon_foldl | with_reducible apply canon_done | with_reducible apply canon_later | with_reducible apply canon_loose | with_reducible apply canon_system | with_reducible apply canon_fail | with_reducible apply resultCanon_ite | dsimp only | simp only [canon_mk] | split)

theorem canon_execPartnerRead (c : Cmd) (s : State) (h_s : s.canon = true) : resCanon (execPartnerRead c s) = true := by
  unfold execPartnerRead
  repeat' (first | with_reducible assumption | intro _ | with_reducible apply canon_runCmd | with_reducible apply canon_partnerTxn | with_reducible apply canon_ite | with_reducible apply canon_regs | with_reducible apply canon_foldl | with_reducible apply canon_next | with_reducible apply resCanon_ite | dsimp only | simp only [canon_mk] | split)

theorem canon_execPartnerWrite (c : Cmd) (s : State) (h_s : s.canon = true) : resCanon (execPartnerWrite c s) = true := by
  unfold execPartnerWrite
  repeat' (first | with_reducible assumption | intro _ | with_reducible apply canon_runCmd | with_reducible apply canon_partnerTxn | with_reducible apply canon_ite | with_reducible apply canon_regs | with_reducible apply canon_foldl | with_reducible apply canon_next | with_reducible apply resCanon_ite | dsimp only | simp only [canon_mk] | split)

theorem canon_partnerTxnStatusBody (c : Cmd) (s : State) (h_s : s.canon = true) : (partnerTxnStatusBody c s).canon = true := by
  unfold partnerTxnStatusBody
  repeat' (first | with_reducible assumption | intro _ | with_reducible apply canon_checked | with_reducible apply canon_refuseIf | with_reducible apply canon_noMore | with_reducible apply canon_txnLeaveDone | with_reducible apply canon_ite | with_reducible apply canon_regs | with_reducible apply canon_foldl | with_reducible apply canon_done | with_reducible apply canon_later | with_reducible apply canon_loose | with_reducible apply canon_system | with_reducible apply canon_fail | with_reducible apply resultCanon_ite | dsimp only | simp only [canon_mk] | split)

theorem canon_execPartnerTxnStatus (c : Cmd) (s : State) (h_s : s.canon = true) : resCanon (execPartnerTxnStatus c s) = true := by
  unfold execPartnerTxnStatus
  repeat' (first | with_reducible assumption | intro _ | with_reducible apply canon_runCmd | with_reducible apply canon_partnerTxnStatusBody | with_reducible apply canon_ite | with_reducible apply canon_regs | with_reducible apply canon_foldl | with_reducible apply canon_next | with_reducible apply resCanon_ite | dsimp only | simp only [canon_mk] | split)

theorem canon_execTxnResponseReceive (group : Nat) (f : Frame) (s : State) (h_s : s.canon = true) : resCanon (execTxnResponseReceive group f s) = true := by
  unfold execTxnResponseReceive
  repeat' (first | with_reducible assumption | intro _ | with_reducible exact canon_frameBlocks_eq (by with_reducible assumption) (by with_reducible assumption) | with_reducible apply canon_frameBad | with_reducible apply canon_frameSeq | with_reducible apply canon_txnDone | with_reducible apply canon_distrust | with_reducible apply canon_State_satInc | with_reducible apply canon_frameBlocks | with_reducible apply canon_ite | with_reducible apply canon_regs | with_reducible apply canon_foldl | with_reducible apply canon_next | with_reducible apply resCanon_ite | dsimp only | simp only [canon_mk] | split)

theorem canon_execTxnTimeout (txn : Nat) (s : State) (h_s : s.canon = true) : resCanon (execTxnTimeout txn s) = true := by
  unfold execTxnTimeout
  repeat' (first | with_reducible assumption | intro _ | with_reducible apply canon_txnDone | with_reducible apply canon_advanceTo | with_reducible apply canon_ite | with_reducible apply canon_regs | with_reducible apply canon_foldl | with_reducible apply canon_next | with_reducible apply resCanon_ite | dsimp only | simp only [canon_mk] | split)

theorem canon_execRetryWaitTimeout (txn : Nat) (s : State) (h_s : s.canon = true) : resCanon (execRetryWaitTimeout txn s) = true := by
  unfold execRetryWaitTimeout
  repeat' (first | with_reducible assumption | intro _ | with_reducible apply canon_txnDone | with_reducible apply canon_advanceTo | with_reducible apply canon_ite | with_reducible apply canon_regs | with_reducible apply canon_foldl | with_reducible apply canon_next | with_reducible apply resCanon_ite | dsimp only | simp only [canon_mk] | split)

theorem canon_execDoneTimeout (txn : Nat) (s : State) (h_s : s.canon = true) : resCanon (execDoneTimeout txn s) = true := by
  unfold execDoneTimeout
  repeat' (first | with_reducible assumption | intro _ | with_reducible apply canon_txnLeaveDone | with_reducible apply canon_advanceTo | with_reducible apply canon_ite | with_reducible apply canon_regs | with_reducible apply canon_foldl | with_reducible apply canon_next | with_reducible apply resCanon_ite | dsimp only | simp only [canon_mk] | split)

theorem canon_execQuarantineTimeout (txn : Nat) (s : State) (h_s : s.canon = true) : resCanon (execQuarantineTimeout txn s) = true := by
  unfold execQuarantineTimeout
  repeat' (first | with_reducible assumption | intro _ | with_reducible apply canon_freeTxn | with_reducible apply canon_advanceTo | with_reducible apply canon_ite | with_reducible apply canon_regs | with_reducible apply canon_foldl | with_reducible apply canon_next | with_reducible apply resCanon_ite | dsimp only | simp only [canon_mk] | split)

end Sys2Proof.Machine
end

