-- ==== Sys2Proof/Laws/CanonIngress.lean ====
section
/-! SUPPORT. The canonical form of the register store is kept by Machine/Ingress.lean. -/

set_option linter.all false

namespace Sys2Proof.Machine

theorem canon_writeFrame (s : State) (g : Nat) (ws : List Word) (n : Nat) (h_s : s.canon = true) : (writeFrame s g ws n).canon = true := by
  unfold writeFrame
  repeat' (first | with_reducible assumption | intro _ | with_reducible apply canon_ingSettle | with_reducible apply canon_State_setIng | with_reducible apply canon_ite | with_reducible apply canon_regs | with_reducible apply canon_foldl | dsimp only | simp only [canon_mk] | split)

theorem canon_execHitFrameReceive (group : Nat) (f : Frame) (spillWaiting : Bool) (t : Nat) (s : State) (h_s : s.canon = true) : resCanon (execHitFrameReceive group f spillWaiting t s) = true := by
  unfold execHitFrameReceive
  repeat' (first | with_reducible assumption | intro _ | with_reducible exact canon_frameBlocks_eq (by with_reducible assumption) (by with_reducible assumption) | with_reducible apply canon_advanceTo | with_reducible apply canon_frameBad | with_reducible apply canon_frameSeq | with_reducible apply canon_State_setIng | with_reducible apply canon_writeFrame | with_reducible apply canon_State_satInc | with_reducible apply canon_dropGroup | with_reducible apply canon_ingBack | with_reducible apply canon_State_put | with_reducible apply canon_frameBlocks | with_reducible apply canon_ite | with_reducible apply canon_regs | with_reducible apply canon_foldl | with_reducible apply canon_next | with_reducible apply resCanon_ite | dsimp only | simp only [canon_mk] | split)

theorem canon_execPauseRepeat (group : Nat) (s : State) (h_s : s.canon = true) : resCanon (execPauseRepeat group s) = true := by
  unfold execPauseRepeat
  repeat' (first | with_reducible assumption | intro _ | with_reducible apply canon_pauseSettle | with_reducible apply canon_advanceTo | with_reducible apply canon_pauseFrame | with_reducible apply canon_State_setIng | with_reducible apply canon_ite | with_reducible apply canon_regs | with_reducible apply canon_foldl | with_reducible apply canon_next | with_reducible apply resCanon_ite | dsimp only | simp only [canon_mk] | split)

theorem canon_toTile (s : State) (tile : Nat) (src : Nat) (it : TItem) (h_s : s.canon = true) : (toTile s tile src it).canon = true := by
  unfold toTile
  repeat' (first | with_reducible assumption | intro _ | with_reducible apply canon_ite | with_reducible apply canon_regs | with_reducible apply canon_foldl | dsimp only | simp only [canon_mk] | split)

theorem convCanon_ite {c : Prop} [Decidable c] {a b : Conv} (ha : a.s.canon = true) (hb : b.s.canon = true) : (if c then a else b).s.canon = true := by
  split <;> assumption

theorem canon_Conv_drop (c : Conv) (g n : Nat) (h : c.s.canon = true) : (c.drop g n).s.canon = true := by
  unfold Conv.drop
  exact canon_ite (canon_distrust _ _ _ h) h

theorem canon_Conv_send (c : Conv) (g : Nat) (x : THit) (full : Nat) (h : c.s.canon = true) : (c.send g x full).s.canon = true := by
  unfold Conv.send
  extract_lets s tile level s1 s2
  refine convCanon_ite (canon_Conv_drop _ _ _ h) (convCanon_ite h ?_)
  exact canon_State_setGroup _ _ _ (canon_toTile _ _ _ _ h)

theorem canon_convertHit (c : Conv) (g : Nat) (p64 : Bool) (w : Nat) (h : c.s.canon = true) : (convertHit c g p64 w).s.canon = true := by
  unfold convertHit
  extract_lets lch field tot thr coarse s iso u future t full
  refine convCanon_ite (canon_Conv_drop _ _ _ h) ?_
  refine convCanon_ite (canon_Conv_drop _ _ _ h) ?_
  split
  · exact canon_Conv_drop _ _ _ h
  · have hm : ∀ n, (if c.first = true then distrust (c.s.satInc F.ltsc_mirage_lane g 1) g n else c.s).canon = true :=
      fun n => canon_ite (canon_distrust _ _ _ (canon_State_satInc _ _ _ h)) h
    refine convCanon_ite ?_ (convCanon_ite ?_ (canon_Conv_send _ _ _ _ h))
    · exact canon_Conv_send _ _ _ _ (hm 1)
    · exact canon_Conv_send _ _ _ _ (hm 0)

theorem canon_convertMarker (c : Conv) (g w : Nat) (h : c.s.canon = true) : (convertMarker c g w).s.canon = true := by
  unfold convertMarker
  extract_lets s u d t back
  refine convCanon_ite ?_ (convCanon_ite h ?_)
  · exact canon_ite (canon_distrust _ _ _ (canon_State_satInc _ _ _ h)) h
  · refine canon_State_setGroup _ _ _ ?_
    exact canon_foldl _ (fun s x hs => canon_toTile _ _ _ _ hs) _ _ h

theorem canon_convertWord (g : Nat) (p64 : Bool) (c : Conv) (w : Nat) (h : c.s.canon = true) : (convertWord g p64 c w).s.canon = true := by
  unfold convertWord
  split
  · exact h
  · exact canon_convertHit _ _ _ _ h
  · exact canon_convertMarker _ _ _ h
  · refine convCanon_ite ?_ h
    exact canon_distrust _ _ _ (canon_dropGroup _ _ _ h)

theorem canon_convertWords (g : Nat) (p64 : Bool) (ws : List Nat) (c : Conv) (h : c.s.canon = true) : (ws.foldl (convertWord g p64) c).s.canon = true := by
  induction ws generalizing c with
  | nil => exact h
  | cons w ws ih => exact ih _ (canon_convertWord _ _ _ _ h)

theorem canon_readFrame (s : State) (g : Nat) (f : IFrame) (h_s : s.canon = true) : (readFrame s g f).canon = true := by
  unfold readFrame
  exact canon_State_setIng _ _ _ h_s

theorem canon_putFrame (s : State) (g : Nat) (f : IFrame) (h_s : s.canon = true) : (putFrame s g f).canon = true := by
  unfold putFrame
  repeat' (first | with_reducible assumption | intro _ | with_reducible apply canon_State_setIng | with_reducible apply canon_ite | with_reducible apply canon_regs | with_reducible apply canon_foldl | dsimp only | simp only [canon_mk] | split)

theorem canon_takeFrame (s : State) (g : Nat) (f : IFrame) (h_s : s.canon = true) : (takeFrame s g f).canon = true := by
  unfold takeFrame
  repeat' (first | with_reducible assumption | intro _ | with_reducible apply canon_State_setIng | with_reducible apply canon_ite | with_reducible apply canon_regs | with_reducible apply canon_foldl | dsimp only | simp only [canon_mk] | split)

theorem canon_loseFrame (s : State) (g : Nat) (source : Nat) (f : IFrame) (h_s : s.canon = true) : (loseFrame s g source f).canon = true := by
  unfold loseFrame
  repeat' (first | with_reducible assumption | intro _ | with_reducible apply canon_dataLost | with_reducible apply canon_State_satInc | with_reducible apply canon_dropGroup | with_reducible apply canon_takeFrame | with_reducible apply canon_ite | with_reducible apply canon_regs | with_reducible apply canon_foldl | dsimp only | simp only [canon_mk] | split)

theorem canon_badFrame (s : State) (g : Nat) (f : IFrame) (injected : Bool) (h_s : s.canon = true) : (badFrame s g f injected).canon = true := by
  unfold badFrame
  repeat' (first | with_reducible assumption | intro _ | with_reducible apply canon_ingSettle | with_reducible apply canon_raise | with_reducible apply canon_loseFrame | with_reducible apply canon_ite | with_reducible apply canon_regs | with_reducible apply canon_foldl | dsimp only | simp only [canon_mk] | split)

theorem canon_execHitConversion (group corrected : Nat) (badWord : Bool) (s : State) (h_s : s.canon = true) : resCanon (execHitConversion group corrected badWord s) = true := by
  unfold execHitConversion
  repeat' (first | with_reducible assumption | intro _ | with_reducible apply canon_putFrame | with_reducible apply canon_readFrame | with_reducible apply canon_takeFrame | with_reducible apply canon_dropGroup | with_reducible apply canon_State_satInc | with_reducible apply canon_raise | with_reducible apply canon_dataLost | with_reducible apply canon_ingSettle | with_reducible apply canon_gapNote | with_reducible apply canon_countEcc | with_reducible apply canon_badFrame | with_reducible apply canon_loseFrame | with_reducible apply canon_ergRead | with_reducible apply canon_convertWords | with_reducible apply canon_awlTake | with_reducible apply canon_ite | with_reducible apply canon_regs | with_reducible apply canon_next | with_reducible apply resCanon_ite | with_reducible apply canon_foldl | with_reducible apply canon_done | with_reducible apply canon_later | with_reducible apply canon_loose | with_reducible apply canon_system | with_reducible apply canon_fail | with_reducible apply resultCanon_ite | dsimp only | simp only [canon_mk] | split | with_reducible refine canon_of_next (by with_reducible assumption) ?_ | with_reducible refine canon_of_done (by with_reducible assumption) ?_ | with_reducible refine canon_of_later (by with_reducible assumption) ?_ | with_reducible refine canon_of_loose (by with_reducible assumption) ?_ | with_reducible refine canon_of_system (by with_reducible assumption) ?_ | with_reducible refine canon_of_some (by with_reducible assumption) ?_ | with_reducible apply optCanon_ite | with_reducible apply optCanon_some | with_reducible apply optCanon_none | with_reducible apply canon_getD)

theorem canon_pressTile (s : State) (tile : Nat) (h_s : s.canon = true) : (pressTile s tile).canon = true := by
  unfold pressTile
  repeat' (first | with_reducible assumption | intro _ | with_reducible apply canon_pauseSettle | with_reducible apply canon_ite | with_reducible apply canon_regs | with_reducible apply canon_foldl | dsimp only | simp only [canon_mk] | split)

theorem canon_editAcc (s : State) (c : Nat) (pk : Nat) (gate : Nat) (f : Acc → Acc) (h_s : s.canon = true) : (editAcc s c pk gate f).canon = true := by
  unfold editAcc
  repeat' (first | with_reducible assumption | intro _ | with_reducible apply canon_ite | with_reducible apply canon_regs | with_reducible apply canon_foldl | dsimp only | simp only [canon_mk] | split)

theorem canon_flagGates (s : State) (c : Nat) (full : Nat) (n : Nat) (flag : BitVec 16) (h_s : s.canon = true) : (flagGates s c full n flag).canon = true := by
  unfold flagGates
  repeat' (first | with_reducible assumption | intro _ | with_reducible apply canon_editAcc | with_reducible apply canon_ite | with_reducible apply canon_regs | with_reducible apply canon_foldl | dsimp only | simp only [canon_mk] | split)

theorem canon_flagGate (s : State) (c : Nat) (full : Nat) (flag : BitVec 16) (h_s : s.canon = true) : (flagGate s c full flag).canon = true := by
  unfold flagGate
  repeat' (first | with_reducible assumption | intro _ | with_reducible apply canon_flagGates | with_reducible apply canon_ite | with_reducible apply canon_regs | with_reducible apply canon_foldl | dsimp only | simp only [canon_mk] | split)

theorem canon_toWadi (s : State) (tile : Nat) (h : THit) (h_s : s.canon = true) : (toWadi s tile h).canon = true := by
  unfold toWadi
  repeat' (first | with_reducible assumption | intro _ | with_reducible apply canon_State_satInc | with_reducible apply canon_flagGate | with_reducible apply canon_emitFor | with_reducible apply canon_ite | with_reducible apply canon_regs | with_reducible apply canon_foldl | dsimp only | simp only [canon_mk] | split)

theorem canon_toMirage (s : State) (tile : Nat) (h : THit) (reason : Nat) (ref : Nat) (h_s : s.canon = true) : (toMirage s tile h reason ref).canon = true := by
  unfold toMirage
  repeat' (first | with_reducible assumption | intro _ | with_reducible apply canon_State_satInc | with_reducible apply canon_emitFor | with_reducible apply canon_flagGate | with_reducible apply canon_distrust | with_reducible apply canon_ite | with_reducible apply canon_regs | with_reducible apply canon_foldl | dsimp only | simp only [canon_mk] | split)

theorem canon_hitFate (s : State) (tile : Nat) (h : THit) (h_s : s.canon = true) : (hitFate s tile h).canon = true := by
  unfold hitFate
  repeat' (first | with_reducible assumption | intro _ | with_reducible apply canon_toMirage | with_reducible apply canon_toWadi | with_reducible exact canon_awlTake_eq (by with_reducible assumption) (by with_reducible assumption) | with_reducible apply canon_raise | with_reducible apply canon_dataLost | with_reducible apply canon_State_wrapInc | with_reducible apply canon_State_setTile | with_reducible apply canon_awlTake | with_reducible apply canon_ite | with_reducible apply canon_regs | with_reducible apply canon_foldl | dsimp only | simp only [canon_mk] | split)

theorem canon_tileMark (s : State) (tile : Nat) (src : Nat) (time : Nat) (h_s : s.canon = true) : (tileMark s tile src time).canon = true := by
  unfold tileMark
  repeat' (first | with_reducible assumption | intro _ | with_reducible apply canon_State_setTile | with_reducible apply canon_ite | with_reducible apply canon_regs | with_reducible apply canon_foldl | dsimp only | simp only [canon_mk] | split)

theorem canon_noticeTake (s : State) (tile : Nat) (h_s : s.canon = true) : (noticeTake s tile).canon = true := by
  unfold noticeTake
  repeat' (first | with_reducible assumption | intro _ | with_reducible apply canon_tileMark | with_reducible apply canon_State_setTile | with_reducible apply canon_ite | with_reducible apply canon_regs | with_reducible apply canon_foldl | dsimp only | simp only [canon_mk] | split)

theorem canon_execTileHitArrival (tile : Nat) (src : Nat) (s : State) (h_s : s.canon = true) : resCanon (execTileHitArrival tile src s) = true := by
  unfold execTileHitArrival
  repeat' (first | with_reducible assumption | intro _ | with_reducible apply canon_crosses | with_reducible apply canon_noteGrant | with_reducible apply canon_noticeTake | with_reducible apply canon_hitFate | with_reducible apply canon_State_put | with_reducible apply canon_pressTile | with_reducible apply canon_State_setTile | with_reducible apply canon_ite | with_reducible apply canon_regs | with_reducible apply canon_foldl | with_reducible apply canon_next | with_reducible apply resCanon_ite | dsimp only | simp only [canon_mk] | split)

theorem canon_commitItem (tile : Nat) (s : State) (it : TItem) (h_s : s.canon = true) : (commitItem tile s it).canon = true := by
  unfold commitItem
  repeat' (first | with_reducible assumption | intro _ | with_reducible apply canon_hitFate | with_reducible apply canon_State_setTile | with_reducible apply canon_tileMark | with_reducible apply canon_ite | with_reducible apply canon_regs | with_reducible apply canon_foldl | dsimp only | simp only [canon_mk] | split)

theorem canon_execCommitToken (tile : Nat) (src : Nat) (escape : Bool) (s : State) (h_s : s.canon = true) : resCanon (execCommitToken tile src escape s) = true := by
  unfold execCommitToken
  repeat' (first | with_reducible assumption | intro _ | with_reducible apply canon_crosses | with_reducible apply canon_noteGrant | with_reducible apply canon_State_setTile | with_reducible apply canon_pressTile | with_reducible apply canon_commitItem | with_reducible apply canon_ite | with_reducible apply canon_regs | with_reducible apply canon_foldl | with_reducible apply canon_next | with_reducible apply resCanon_ite | dsimp only | simp only [canon_mk] | split)

theorem canon_execFrameCommit (group : Nat) (s : State) (h_s : s.canon = true) : resCanon (execFrameCommit group s) = true := by
  unfold execFrameCommit
  repeat' (first | with_reducible assumption | intro _ | with_reducible apply canon_toTile | with_reducible apply canon_State_setIng | with_reducible apply canon_countShed | with_reducible apply canon_dropGroup | with_reducible apply canon_ingSettle | with_reducible apply canon_crosses | with_reducible apply canon_linkDelivers | with_reducible apply canon_ite | with_reducible apply canon_regs | with_reducible apply canon_foldl | with_reducible apply canon_next | with_reducible apply resCanon_ite | dsimp only | simp only [canon_mk] | split)

theorem canon_dropItems (g : Nat) (f : IFrame) (s : State) (t : Nat) (h_s : s.canon = true) : (dropItems g f s t).canon = true := by
  unfold dropItems
  repeat' (first | with_reducible assumption | intro _ | with_reducible apply canon_pressTile | with_reducible apply canon_State_satInc | with_reducible apply canon_State_setTile | with_reducible apply canon_ite | with_reducible apply canon_regs | with_reducible apply canon_foldl | dsimp only | simp only [canon_mk] | split)

theorem canon_rewind (s : State) (g : Nat) (idx : Nat) (h_s : s.canon = true) : (rewind s g idx).canon = true := by
  unfold rewind
  repeat' (first | with_reducible assumption | intro _ | with_reducible apply canon_dropItems | with_reducible apply canon_takeFrame | with_reducible apply canon_ingSettle | with_reducible apply canon_gapNote | with_reducible apply canon_State_satInc | with_reducible apply canon_dropGroup | with_reducible apply canon_putFrame | with_reducible apply canon_State_setGroup | with_reducible apply canon_ite | with_reducible apply canon_regs | with_reducible apply canon_foldl | dsimp only | simp only [canon_mk] | split)

theorem canon_execFrameRewind (group : Nat) (idx : Nat) (source : Nat) (s : State) (h_s : s.canon = true) : resCanon (execFrameRewind group idx source s) = true := by
  unfold execFrameRewind
  repeat' (first | with_reducible assumption | intro _ | with_reducible apply canon_rewind | with_reducible apply canon_raise | with_reducible apply canon_ite | with_reducible apply canon_regs | with_reducible apply canon_foldl | with_reducible apply canon_next | with_reducible apply resCanon_ite | dsimp only | simp only [canon_mk] | split)

theorem canon_execShedLevelChange (tile : Nat) (s : State) (h_s : s.canon = true) : resCanon (execShedLevelChange tile s) = true := by
  unfold execShedLevelChange
  repeat' (first | with_reducible assumption | intro _ | with_reducible apply canon_State_put | with_reducible apply canon_State_setTile | with_reducible apply canon_ite | with_reducible apply canon_regs | with_reducible apply canon_foldl | with_reducible apply canon_next | with_reducible apply resCanon_ite | dsimp only | simp only [canon_mk] | split)

theorem canon_execLinkShed (laneDie : Nat) (coreDie : Nat) (atLimit : Bool) (s : State) (h_s : s.canon = true) : resCanon (execLinkShed laneDie coreDie atLimit s) = true := by
  unfold execLinkShed
  repeat' (first | with_reducible assumption | intro _ | with_reducible apply canon_ite | with_reducible apply canon_regs | with_reducible apply canon_foldl | with_reducible apply canon_next | with_reducible apply resCanon_ite | dsimp only | simp only [canon_mk] | split)

theorem canon_groupBoundary (s : State) (g : Nat) (h_s : s.canon = true) : (groupBoundary s g).canon = true := by
  unfold groupBoundary
  repeat' (first | with_reducible assumption | intro _ | with_reducible apply canon_State_put | with_reducible apply canon_showWaited | with_reducible apply canon_pauseSettle | with_reducible apply canon_ite | with_reducible apply canon_regs | with_reducible apply canon_foldl | dsimp only | simp only [canon_mk] | split)

theorem canon_pressLapse (s : State) (h_s : s.canon = true) : (pressLapse s).canon = true := by
  unfold pressLapse
  repeat' (first | with_reducible assumption | intro _ | with_reducible apply canon_pauseSettle | with_reducible apply canon_ite | with_reducible apply canon_regs | with_reducible apply canon_foldl | dsimp only | simp only [canon_mk] | split)

theorem canon_execCaravanBoundary (upset : List (Nat × Nat)) (s : State) (h_s : s.canon = true) : resCanon (execCaravanBoundary upset s) = true := by
  unfold execCaravanBoundary
  repeat' (first | with_reducible assumption | intro _ | with_reducible apply canon_advanceFull | with_reducible apply canon_laneDieCheck | with_reducible apply canon_groupBoundary | with_reducible apply canon_ite | with_reducible apply canon_regs | with_reducible apply canon_foldl | with_reducible apply canon_next | with_reducible apply resCanon_ite | dsimp only | simp only [canon_mk] | split)

theorem canon_execBoundaryNotice (tile : Nat) (s : State) (h_s : s.canon = true) : resCanon (execBoundaryNotice tile s) = true := by
  unfold execBoundaryNotice
  repeat' (first | with_reducible assumption | intro _ | with_reducible apply canon_crosses | with_reducible apply canon_noticeTake | with_reducible apply canon_ite | with_reducible apply canon_regs | with_reducible apply canon_foldl | with_reducible apply canon_next | with_reducible apply resCanon_ite | dsimp only | simp only [canon_mk] | split)

end Sys2Proof.Machine
end

