-- ==== Sys2Proof/Laws/CanonStats.lean ====
section
/-! SUPPORT. The canonical form of the register store is kept by Machine/Stats.lean. -/

set_option linter.all false

namespace Sys2Proof.Machine

theorem canon_State_setGates (s : State) (pk : Nat) (gs : List Gate) (h_s : s.canon = true) : (State.setGates s pk gs).canon = true := by
  unfold State.setGates
  repeat' (first | with_reducible assumption | intro _ | with_reducible apply canon_ite | with_reducible apply canon_regs | with_reducible apply canon_foldl | dsimp only | simp only [canon_mk] | split)

theorem canon_gateSettle (s : State) (pk : Nat) (h_s : s.canon = true) : (gateSettle s pk).canon = true := by
  unfold gateSettle
  repeat' (first | with_reducible assumption | intro _ | with_reducible apply canon_State_put | with_reducible apply canon_ite | with_reducible apply canon_regs | with_reducible apply canon_foldl | dsimp only | simp only [canon_mk] | split)

theorem canon_statsGateStart (c : Cmd) (s : State) (h_s : s.canon = true) : (statsGateStart c s).canon = true := by
  unfold statsGateStart
  repeat' (first | with_reducible assumption | intro _ | with_reducible apply canon_checked | with_reducible apply canon_gateSettle | with_reducible apply canon_refuseIf | with_reducible apply canon_noMore | with_reducible apply canon_State_setGates | with_reducible apply canon_State_put | with_reducible apply canon_ite | with_reducible apply canon_regs | with_reducible apply canon_foldl | with_reducible apply canon_done | with_reducible apply canon_later | with_reducible apply canon_loose | with_reducible apply canon_system | with_reducible apply canon_fail | with_reducible apply resultCanon_ite | dsimp only | simp only [canon_mk] | split)

theorem canon_statsGateStop (c : Cmd) (s : State) (h_s : s.canon = true) : (statsGateStop c s).canon = true := by
  unfold statsGateStop
  repeat' (first | with_reducible assumption | intro _ | with_reducible apply canon_checked | with_reducible apply canon_refuseIf | with_reducible apply canon_noMore | with_reducible apply canon_gateSettle | with_reducible apply canon_State_put | with_reducible apply canon_State_setGates | with_reducible apply canon_ite | with_reducible apply canon_regs | with_reducible apply canon_foldl | with_reducible apply canon_done | with_reducible apply canon_later | with_reducible apply canon_loose | with_reducible apply canon_system | with_reducible apply canon_fail | with_reducible apply resultCanon_ite | dsimp only | simp only [canon_mk] | split)

theorem canon_execStatsGateStart (c : Cmd) (s : State) (h_s : s.canon = true) : resCanon (execStatsGateStart c s) = true := by
  unfold execStatsGateStart
  repeat' (first | with_reducible assumption | intro _ | with_reducible apply canon_runCmd | with_reducible apply canon_statsGateStart | with_reducible apply canon_ite | with_reducible apply canon_regs | with_reducible apply canon_foldl | with_reducible apply canon_next | with_reducible apply resCanon_ite | dsimp only | simp only [canon_mk] | split)

theorem canon_execStatsGateStop (c : Cmd) (s : State) (h_s : s.canon = true) : resCanon (execStatsGateStop c s) = true := by
  unfold execStatsGateStop
  repeat' (first | with_reducible assumption | intro _ | with_reducible apply canon_runCmd | with_reducible apply canon_statsGateStop | with_reducible apply canon_ite | with_reducible apply canon_regs | with_reducible apply canon_foldl | with_reducible apply canon_next | with_reducible apply resCanon_ite | dsimp only | simp only [canon_mk] | split)

theorem canon_beginGate (s : State) (pk : Nat) (no : Nat) (start : Nat) (left : Nat) (h_s : s.canon = true) : (beginGate s pk no start left).canon = true := by
  unfold beginGate
  repeat' (first | with_reducible assumption | intro _ | with_reducible apply canon_State_setGates | with_reducible apply canon_State_put | with_reducible apply canon_ite | with_reducible apply canon_regs | with_reducible apply canon_foldl | dsimp only | simp only [canon_mk] | split)

theorem canon_execGateStart (partition : Nat) (profile : Nat) (s : State) (h_s : s.canon = true) : resCanon (execGateStart partition profile s) = true := by
  unfold execGateStart
  repeat' (first | with_reducible assumption | intro _ | with_reducible apply canon_beginGate | with_reducible apply canon_advanceFull | with_reducible apply canon_gateSettle | with_reducible apply canon_ite | with_reducible apply canon_regs | with_reducible apply canon_foldl | with_reducible apply canon_next | with_reducible apply resCanon_ite | dsimp only | simp only [canon_mk] | split)

theorem canon_accumulate (s : State) (h : THit) (h_s : s.canon = true) : (accumulate s h).canon = true := by
  unfold accumulate
  repeat' (first | with_reducible assumption | intro _ | with_reducible apply canon_editAcc | with_reducible apply canon_ite | with_reducible apply canon_regs | with_reducible apply canon_foldl | dsimp only | simp only [canon_mk] | split)

theorem canon_accIntervals (s : State) (c : Nat) (before : Nat) (h_s : s.canon = true) : (accIntervals s c before).canon = true := by
  unfold accIntervals
  repeat' (first | with_reducible assumption | intro _ | with_reducible apply canon_editAcc | with_reducible apply canon_ite | with_reducible apply canon_regs | with_reducible apply canon_foldl | dsimp only | simp only [canon_mk] | split)

theorem canon_discardOpen (s : State) (c : Nat) (pk : Nat) (full : Nat) (h_s : s.canon = true) : (discardOpen s c pk full).canon = true := by
  unfold discardOpen
  repeat' (first | with_reducible assumption | intro _ | with_reducible apply canon_ite | with_reducible apply canon_regs | with_reducible apply canon_foldl | dsimp only | simp only [canon_mk] | split)

theorem canon_markOpen (s : State) (c : Nat) (pk : Nat) (full : Nat) (f : Acc → Acc) (h_s : s.canon = true) : (markOpen s c pk full f).canon = true := by
  unfold markOpen
  repeat' (first | with_reducible assumption | intro _ | with_reducible apply canon_editAcc | with_reducible apply canon_ite | with_reducible apply canon_regs | with_reducible apply canon_foldl | dsimp only | simp only [canon_mk] | split)

theorem canon_statsChange (s : State) (c : Nat) (full : Nat) (h_s : s.canon = true) : (statsChange s c full).canon = true := by
  unfold statsChange
  repeat' (first | with_reducible assumption | intro _ | with_reducible apply canon_discardOpen | with_reducible apply canon_markOpen | with_reducible apply canon_ite | with_reducible apply canon_regs | with_reducible apply canon_foldl | dsimp only | simp only [canon_mk] | split)

theorem canon_loseSums (s : State) (c : Nat) (h_s : s.canon = true) : (loseSums s c).canon = true := by
  unfold loseSums
  repeat' (first | with_reducible assumption | intro _ | with_reducible apply canon_editAcc | with_reducible apply canon_ite | with_reducible apply canon_regs | with_reducible apply canon_foldl | dsimp only | simp only [canon_mk] | split)

theorem canon_placeGate (s : State) (q : Nat) (prof : Nat) (g : Gate) (head : Bool) (rec1 : Option (List Word)) (h_s : s.canon = true) : (placeGate s q prof g head rec1).canon = true := by
  unfold placeGate
  repeat' (first | with_reducible assumption | intro _ | with_reducible apply canon_State_setHq | with_reducible apply canon_State_satInc | with_reducible apply canon_ite | with_reducible apply canon_regs | with_reducible apply canon_foldl | dsimp only | simp only [canon_mk] | split)

theorem canon_pruneGates (s : State) (pk : Nat) (h_s : s.canon = true) : (pruneGates s pk).canon = true := by
  unfold pruneGates
  repeat' (first | with_reducible assumption | intro _ | with_reducible apply canon_State_setGates | with_reducible apply canon_ite | with_reducible apply canon_regs | with_reducible apply canon_foldl | dsimp only | simp only [canon_mk] | split)

theorem canon_dropLast (s : State) (tile : Nat) (pk : Nat) (chans : List Nat) (h_s : s.canon = true) : (dropLast s tile pk chans).canon = true := by
  unfold dropLast
  repeat' (first | with_reducible assumption | intro _ | with_reducible apply canon_ite | with_reducible apply canon_regs | with_reducible apply canon_foldl | dsimp only | simp only [canon_mk] | split)

theorem canon_completeGate (s : State) (tile : Nat) (pk : Nat) (g : Gate) (chans : List Nat) (h_s : s.canon = true) : (completeGate s tile pk g chans).canon = true := by
  unfold completeGate
  repeat' (first | with_reducible assumption | intro _ | with_reducible apply canon_placeGate | with_reducible apply canon_dropLast | with_reducible apply canon_editAcc | with_reducible apply canon_gateSettle | with_reducible apply canon_pruneGates | with_reducible apply canon_ite | with_reducible apply canon_regs | with_reducible apply canon_foldl | dsimp only | simp only [canon_mk] | split)

theorem canon_execGateComplete (tile : Nat) (partition : Nat) (profile : Nat) (s : State) (h_s : s.canon = true) : resCanon (execGateComplete tile partition profile s) = true := by
  unfold execGateComplete
  repeat' (first | with_reducible assumption | intro _ | with_reducible apply canon_completeGate | with_reducible apply canon_ite | with_reducible apply canon_regs | with_reducible apply canon_foldl | with_reducible apply canon_next | with_reducible apply resCanon_ite | dsimp only | simp only [canon_mk] | split)

theorem canon_chanChecked (c : Cmd) (s : State) (ch : Nat) (word : Nat) (k : Result) (h_s : s.canon = true) (h_k : k.canon = true) : (chanChecked c s ch word k).canon = true := by
  unfold chanChecked
  repeat' (first | with_reducible assumption | intro _ | with_reducible apply canon_refuseIf | with_reducible apply canon_ite | with_reducible apply canon_regs | with_reducible apply canon_foldl | with_reducible apply canon_done | with_reducible apply canon_later | with_reducible apply canon_loose | with_reducible apply canon_system | with_reducible apply canon_fail | with_reducible apply resultCanon_ite | dsimp only | simp only [canon_mk] | split)

theorem canon_statsRead (running : Bool) (c : Cmd) (s : State) (h_s : s.canon = true) : (statsRead running c s).canon = true := by
  unfold statsRead
  repeat' (first | with_reducible assumption | intro _ | with_reducible apply canon_checked | with_reducible apply canon_refuseIf | with_reducible apply canon_noMore | with_reducible apply canon_chanChecked | with_reducible apply canon_ite | with_reducible apply canon_regs | with_reducible apply canon_foldl | with_reducible apply canon_done | with_reducible apply canon_later | with_reducible apply canon_loose | with_reducible apply canon_system | with_reducible apply canon_fail | with_reducible apply resultCanon_ite | dsimp only | simp only [canon_mk] | split)

theorem canon_execStatsReadLast (c : Cmd) (s : State) (h_s : s.canon = true) : resCanon (execStatsReadLast c s) = true := by
  unfold execStatsReadLast
  repeat' (first | with_reducible assumption | intro _ | with_reducible apply canon_runCmd | with_reducible apply canon_statsRead | with_reducible apply canon_ite | with_reducible apply canon_regs | with_reducible apply canon_foldl | with_reducible apply canon_next | with_reducible apply resCanon_ite | dsimp only | simp only [canon_mk] | split)

theorem canon_execStatsReadRunning (c : Cmd) (s : State) (h_s : s.canon = true) : resCanon (execStatsReadRunning c s) = true := by
  unfold execStatsReadRunning
  repeat' (first | with_reducible assumption | intro _ | with_reducible apply canon_runCmd | with_reducible apply canon_statsRead | with_reducible apply canon_ite | with_reducible apply canon_regs | with_reducible apply canon_foldl | with_reducible apply canon_next | with_reducible apply resCanon_ite | dsimp only | simp only [canon_mk] | split)

end Sys2Proof.Machine
end

