-- ==== Sys2Proof/Laws/CanonTrigger.lean ====
section
/-! SUPPORT. The canonical form of the register store is kept by Machine/Trigger.lean. -/

set_option linter.all false

namespace Sys2Proof.Machine

theorem canon_State_setTdef (s : State) (part : Nat) (d : Nat) (x : TDef) (h_s : s.canon = true) : (State.setTdef s part d x).canon = true := by
  unfold State.setTdef
  repeat' (first | with_reducible assumption | intro _ | with_reducible apply canon_ite | with_reducible apply canon_regs | with_reducible apply canon_foldl | dsimp only | simp only [canon_mk] | split)

theorem canon_State_setCoreDef (s : State) (die : Nat) (part : Nat) (d : Nat) (x : CoreDef) (h_s : s.canon = true) : (State.setCoreDef s die part d x).canon = true := by
  unfold State.setCoreDef
  repeat' (first | with_reducible assumption | intro _ | with_reducible apply canon_ite | with_reducible apply canon_regs | with_reducible apply canon_foldl | dsimp only | simp only [canon_mk] | split)

theorem canon_armSettle (s : State) (part : Nat) (d : Nat) (h_s : s.canon = true) : (armSettle s part d).canon = true := by
  unfold armSettle
  repeat' (first | with_reducible assumption | intro _ | with_reducible apply canon_State_put | with_reducible apply canon_ite | with_reducible apply canon_regs | with_reducible apply canon_foldl | dsimp only | simp only [canon_mk] | split)

theorem canon_trigArmBody (c : Cmd) (s : State) (h_s : s.canon = true) : (trigArmBody c s).canon = true := by
  unfold trigArmBody
  repeat' (first | with_reducible assumption | intro _ | with_reducible apply canon_checked | with_reducible apply canon_armSettle | with_reducible apply canon_refuseIf | with_reducible apply canon_noMore | with_reducible apply canon_State_setTdef | with_reducible apply canon_State_put | with_reducible apply canon_ite | with_reducible apply canon_regs | with_reducible apply canon_foldl | with_reducible apply canon_done | with_reducible apply canon_later | with_reducible apply canon_loose | with_reducible apply canon_system | with_reducible apply canon_fail | with_reducible apply resultCanon_ite | dsimp only | simp only [canon_mk] | split)

theorem canon_execTrigArm (c : Cmd) (s : State) (h_s : s.canon = true) : resCanon (execTrigArm c s) = true := by
  unfold execTrigArm
  repeat' (first | with_reducible assumption | intro _ | with_reducible apply canon_runCmd | with_reducible apply canon_trigArmBody | with_reducible apply canon_ite | with_reducible apply canon_regs | with_reducible apply canon_foldl | with_reducible apply canon_next | with_reducible apply resCanon_ite | dsimp only | simp only [canon_mk] | split)

theorem canon_execArmBoundary (partition : Nat) (d : Nat) (s : State) (h_s : s.canon = true) : resCanon (execArmBoundary partition d s) = true := by
  unfold execArmBoundary
  repeat' (first | with_reducible assumption | intro _ | with_reducible apply canon_armSettle | with_reducible apply canon_advanceFull | with_reducible apply canon_ite | with_reducible apply canon_regs | with_reducible apply canon_foldl | with_reducible apply canon_next | with_reducible apply resCanon_ite | dsimp only | simp only [canon_mk] | split)

theorem canon_trigDisarmBody (c : Cmd) (s : State) (h_s : s.canon = true) : (trigDisarmBody c s).canon = true := by
  unfold trigDisarmBody
  repeat' (first | with_reducible assumption | intro _ | with_reducible apply canon_checked | with_reducible apply canon_armSettle | with_reducible apply canon_refuseIf | with_reducible apply canon_noMore | with_reducible apply canon_State_put | with_reducible apply canon_State_setTdef | with_reducible apply canon_ite | with_reducible apply canon_regs | with_reducible apply canon_foldl | with_reducible apply canon_done | with_reducible apply canon_later | with_reducible apply canon_loose | with_reducible apply canon_system | with_reducible apply canon_fail | with_reducible apply resultCanon_ite | dsimp only | simp only [canon_mk] | split)

theorem canon_execTrigDisarm (c : Cmd) (s : State) (h_s : s.canon = true) : resCanon (execTrigDisarm c s) = true := by
  unfold execTrigDisarm
  repeat' (first | with_reducible assumption | intro _ | with_reducible apply canon_runCmd | with_reducible apply canon_trigDisarmBody | with_reducible apply canon_ite | with_reducible apply canon_regs | with_reducible apply canon_foldl | with_reducible apply canon_next | with_reducible apply resCanon_ite | dsimp only | simp only [canon_mk] | split)

theorem canon_execDisarmBoundary (partition : Nat) (d : Nat) (s : State) (h_s : s.canon = true) : resCanon (execDisarmBoundary partition d s) = true := by
  unfold execDisarmBoundary
  repeat' (first | with_reducible assumption | intro _ | with_reducible apply canon_armSettle | with_reducible apply canon_advanceFull | with_reducible apply canon_ite | with_reducible apply canon_regs | with_reducible apply canon_foldl | with_reducible apply canon_next | with_reducible apply resCanon_ite | dsimp only | simp only [canon_mk] | split)

theorem canon_addCand (s : State) (part : Nat) (d : Nat) (x : Cand) (h_s : s.canon = true) : (addCand s part d x).canon = true := by
  unfold addCand
  repeat' (first | with_reducible assumption | intro _ | with_reducible apply canon_State_setTdef | with_reducible apply canon_ite | with_reducible apply canon_regs | with_reducible apply canon_foldl | dsimp only | simp only [canon_mk] | split)

theorem canon_trigForceBody (c : Cmd) (s : State) (h_s : s.canon = true) : (trigForceBody c s).canon = true := by
  unfold trigForceBody
  repeat' (first | with_reducible assumption | intro _ | with_reducible apply canon_checked | with_reducible apply canon_armSettle | with_reducible apply canon_refuseIf | with_reducible apply canon_noMore | with_reducible apply canon_addCand | with_reducible apply canon_ite | with_reducible apply canon_regs | with_reducible apply canon_foldl | with_reducible apply canon_done | with_reducible apply canon_later | with_reducible apply canon_loose | with_reducible apply canon_system | with_reducible apply canon_fail | with_reducible apply resultCanon_ite | dsimp only | simp only [canon_mk] | split)

theorem canon_execTrigForce (c : Cmd) (s : State) (h_s : s.canon = true) : resCanon (execTrigForce c s) = true := by
  unfold execTrigForce
  repeat' (first | with_reducible assumption | intro _ | with_reducible apply canon_runCmd | with_reducible apply canon_trigForceBody | with_reducible apply canon_ite | with_reducible apply canon_regs | with_reducible apply canon_foldl | with_reducible apply canon_next | with_reducible apply resCanon_ite | dsimp only | simp only [canon_mk] | split)

theorem canon_sampleTin (s : State) (pin : Nat) (high : Bool) (h_s : s.canon = true) : (sampleTin s pin high).canon = true := by
  unfold sampleTin
  repeat' (first | with_reducible assumption | intro _ | with_reducible apply canon_ite | with_reducible apply canon_regs | with_reducible apply canon_foldl | dsimp only | simp only [canon_mk] | split)

theorem canon_tinCand (s : State) (pin : Nat) (full : Nat) (h_s : s.canon = true) : (tinCand s pin full).canon = true := by
  unfold tinCand
  repeat' (first | with_reducible assumption | intro _ | with_reducible apply canon_addCand | with_reducible apply canon_ite | with_reducible apply canon_regs | with_reducible apply canon_foldl | dsimp only | simp only [canon_mk] | split)

theorem canon_execTrigInEdge (pin : Nat) (t : Nat) (held : Nat) (high : Bool) (s : State) (h_s : s.canon = true) : resCanon (execTrigInEdge pin t held high s) = true := by
  unfold execTrigInEdge
  repeat' (first | with_reducible assumption | intro _ | with_reducible apply canon_advanceTo | with_reducible apply canon_sampleTin | with_reducible apply canon_tinCand | with_reducible apply canon_ite | with_reducible apply canon_regs | with_reducible apply canon_foldl | with_reducible apply canon_next | with_reducible apply resCanon_ite | dsimp only | simp only [canon_mk] | split)

theorem canon_forwardOne (die : Nat) (part : Nat) (d : Nat) (s : State) (x : Cand) (h_s : s.canon = true) : (forwardOne die part d s x).canon = true := by
  unfold forwardOne
  repeat' (first | with_reducible assumption | intro _ | with_reducible apply canon_addCand | with_reducible apply canon_State_setCoreDef | with_reducible apply canon_ite | with_reducible apply canon_regs | with_reducible apply canon_foldl | dsimp only | simp only [canon_mk] | split)

theorem canon_execCandidateForward (die : Nat) (partition : Nat) (d : Nat) (s : State) (h_s : s.canon = true) : resCanon (execCandidateForward die partition d s) = true := by
  unfold execCandidateForward
  repeat' (first | with_reducible assumption | intro _ | with_reducible apply canon_crosses | with_reducible apply canon_State_setCoreDef | with_reducible apply canon_forwardOne | with_reducible apply canon_ite | with_reducible apply canon_regs | with_reducible apply canon_foldl | with_reducible apply canon_next | with_reducible apply resCanon_ite | dsimp only | simp only [canon_mk] | split)

theorem canon_place (s : State) (q : Nat) (p : Placed) (h_s : s.canon = true) : (place s q p).canon = true := by
  unfold place
  repeat' (first | with_reducible assumption | intro _ | with_reducible apply canon_State_setHq | with_reducible apply canon_State_satInc | with_reducible apply canon_ite | with_reducible apply canon_regs | with_reducible apply canon_foldl | dsimp only | simp only [canon_mk] | split)

theorem canon_missCand (s : State) (part : Nat) (d : Nat) (win : Nat) (x : Cand) (reason : Nat) (h_s : s.canon = true) : (missCand s part d win x reason).canon = true := by
  unfold missCand
  repeat' (first | with_reducible assumption | intro _ | with_reducible apply canon_State_setTdef | with_reducible apply canon_State_wrapInc | with_reducible apply canon_place | with_reducible apply canon_ite | with_reducible apply canon_regs | with_reducible apply canon_foldl | dsimp only | simp only [canon_mk] | split)

theorem canon_State_setSeg (s : State) (n : Nat) (g : Seg) (h_s : s.canon = true) : (State.setSeg s n g).canon = true := by
  unfold State.setSeg
  repeat' (first | with_reducible assumption | intro _ | with_reducible apply canon_ite | with_reducible apply canon_regs | with_reducible apply canon_foldl | dsimp only | simp only [canon_mk] | split)

theorem canon_showLeft (s : State) (part : Nat) (d : Nat) (h_s : s.canon = true) : (showLeft s part d).canon = true := by
  unfold showLeft
  repeat' (first | with_reducible assumption | intro _ | with_reducible apply canon_State_put | with_reducible apply canon_ite | with_reducible apply canon_regs | with_reducible apply canon_foldl | dsimp only | simp only [canon_mk] | split)

theorem canon_takeCand (s : State) (part : Nat) (d : Nat) (x : Cand) (desc : Nat) (h_s : s.canon = true) : (takeCand s part d x desc).canon = true := by
  unfold takeCand
  repeat' (first | with_reducible assumption | intro _ | with_reducible apply canon_State_wrapInc | with_reducible apply canon_State_setSeg | with_reducible apply canon_showLeft | with_reducible apply canon_State_setTdef | with_reducible apply canon_ite | with_reducible apply canon_regs | with_reducible apply canon_foldl | dsimp only | simp only [canon_mk] | split)

theorem canon_execCandidateJudge (partition : Nat) (d : Nat) (s : State) (h_s : s.canon = true) : resCanon (execCandidateJudge partition d s) = true := by
  unfold execCandidateJudge
  repeat' (first | with_reducible assumption | intro _ | with_reducible apply canon_State_setTdef | with_reducible apply canon_missCand | with_reducible apply canon_takeCand | with_reducible apply canon_ite | with_reducible apply canon_regs | with_reducible apply canon_foldl | with_reducible apply canon_next | with_reducible apply resCanon_ite | dsimp only | simp only [canon_mk] | split)

theorem canon_useBufs (s : State) (part : Nat) (n : Nat) (h_s : s.canon = true) : (useBufs s part n).canon = true := by
  unfold useBufs
  repeat' (first | with_reducible assumption | intro _ | with_reducible apply canon_State_put | with_reducible apply canon_ite | with_reducible apply canon_regs | with_reducible apply canon_foldl | dsimp only | simp only [canon_mk] | split)

theorem canon_freeBufs (s : State) (part : Nat) (n : Nat) (h_s : s.canon = true) : (freeBufs s part n).canon = true := by
  unfold freeBufs
  repeat' (first | with_reducible assumption | intro _ | with_reducible apply canon_State_put | with_reducible apply canon_ite | with_reducible apply canon_regs | with_reducible apply canon_foldl | dsimp only | simp only [canon_mk] | split)

theorem canon_freeSeg (s : State) (desc : Nat) (g : Seg) (h_s : s.canon = true) : (freeSeg s desc g).canon = true := by
  unfold freeSeg
  repeat' (first | with_reducible assumption | intro _ | with_reducible apply canon_freeBufs | with_reducible apply canon_State_put | with_reducible apply canon_ite | with_reducible apply canon_regs | with_reducible apply canon_foldl | dsimp only | simp only [canon_mk] | split)

theorem canon_segDelivered (s : State) (desc : Nat) (g : Seg) (h_s : s.canon = true) : (segDelivered s desc g).canon = true := by
  unfold segDelivered
  repeat' (first | with_reducible assumption | intro _ | with_reducible apply canon_State_setTdef | with_reducible apply canon_State_wrapInc | with_reducible apply canon_State_setSeg | with_reducible apply canon_freeSeg | with_reducible apply canon_ite | with_reducible apply canon_regs | with_reducible apply canon_foldl | dsimp only | simp only [canon_mk] | split)

theorem canon_segWritten (s : State) (r : Rec) (h_s : s.canon = true) : (segWritten s r).canon = true := by
  unfold segWritten
  repeat' (first | with_reducible assumption | intro _ | with_reducible apply canon_freeBufs | with_reducible apply canon_segDelivered | with_reducible apply canon_State_setSeg | with_reducible apply canon_ite | with_reducible apply canon_regs | with_reducible apply canon_foldl | dsimp only | simp only [canon_mk] | split)

theorem canon_segPlace (s : State) (desc : Nat) (h_s : s.canon = true) : (segPlace s desc).canon = true := by
  unfold segPlace
  repeat' (first | with_reducible assumption | intro _ | with_reducible apply canon_place | with_reducible apply canon_State_setSeg | with_reducible apply canon_segWritten | with_reducible apply canon_ite | with_reducible apply canon_regs | with_reducible apply canon_foldl | dsimp only | simp only [canon_mk] | split)

theorem canon_takeBufs (s : State) (desc : Nat) (part : Nat) (tile : Nat) (n : Nat) (h_s : s.canon = true) : (takeBufs s desc part tile n).canon = true := by
  unfold takeBufs
  repeat' (first | with_reducible assumption | intro _ | with_reducible apply canon_useBufs | with_reducible apply canon_State_setSeg | with_reducible apply canon_ite | with_reducible apply canon_regs | with_reducible apply canon_foldl | dsimp only | simp only [canon_mk] | split)

theorem canon_askBufs (desc : Nat) (part : Nat) (s : State) (e : Nat × Nat) (h_s : s.canon = true) : (askBufs desc part s e).canon = true := by
  unfold askBufs
  repeat' (first | with_reducible assumption | intro _ | with_reducible apply canon_takeBufs | with_reducible apply canon_ite | with_reducible apply canon_regs | with_reducible apply canon_foldl | dsimp only | simp only [canon_mk] | split)

theorem canon_execSegmentBuild (desc : Nat) (s : State) (h_s : s.canon = true) : resCanon (execSegmentBuild desc s) = true := by
  unfold execSegmentBuild
  repeat' (first | with_reducible assumption | intro _ | with_reducible apply canon_segPlace | with_reducible apply canon_askBufs | with_reducible apply canon_State_setSeg | with_reducible apply canon_ite | with_reducible apply canon_regs | with_reducible apply canon_foldl | with_reducible apply canon_next | with_reducible apply resCanon_ite | dsimp only | simp only [canon_mk] | split)

theorem canon_execOasisBufferGrant (desc : Nat) (tile : Nat) (s : State) (h_s : s.canon = true) : resCanon (execOasisBufferGrant desc tile s) = true := by
  unfold execOasisBufferGrant
  repeat' (first | with_reducible assumption | intro _ | with_reducible apply canon_takeBufs | with_reducible apply canon_segPlace | with_reducible apply canon_ite | with_reducible apply canon_regs | with_reducible apply canon_foldl | with_reducible apply canon_next | with_reducible apply resCanon_ite | dsimp only | simp only [canon_mk] | split)

theorem canon_execOasisWaitTimeout (desc : Nat) (tile : Nat) (s : State) (h_s : s.canon = true) : resCanon (execOasisWaitTimeout desc tile s) = true := by
  unfold execOasisWaitTimeout
  repeat' (first | with_reducible assumption | intro _ | with_reducible apply canon_advanceTo | with_reducible apply canon_State_satInc | with_reducible apply canon_freeBufs | with_reducible apply canon_segPlace | with_reducible apply canon_State_setSeg | with_reducible apply canon_ite | with_reducible apply canon_regs | with_reducible apply canon_foldl | with_reducible apply canon_next | with_reducible apply resCanon_ite | dsimp only | simp only [canon_mk] | split)

theorem canon_releaseSeg (s : State) (desc : Nat) (h_s : s.canon = true) : (releaseSeg s desc).canon = true := by
  unfold releaseSeg
  repeat' (first | with_reducible assumption | intro _ | with_reducible apply canon_freeSeg | with_reducible apply canon_State_put | with_reducible apply canon_ite | with_reducible apply canon_regs | with_reducible apply canon_foldl | dsimp only | simp only [canon_mk] | split)

theorem canon_execHoldTimeout (desc : Nat) (s : State) (h_s : s.canon = true) : resCanon (execHoldTimeout desc s) = true := by
  unfold execHoldTimeout
  repeat' (first | with_reducible assumption | intro _ | with_reducible apply canon_event | with_reducible apply canon_releaseSeg | with_reducible apply canon_advanceTo | with_reducible apply canon_ite | with_reducible apply canon_regs | with_reducible apply canon_foldl | with_reducible apply canon_next | with_reducible apply resCanon_ite | dsimp only | simp only [canon_mk] | split)

theorem canon_segChecked (c : Cmd) (s : State) (desc : Nat) (k : Seg → Result) (h_s : s.canon = true) (h_k : ∀ (x0 : Seg), (k x0).canon = true) : (segChecked c s desc k).canon = true := by
  unfold segChecked
  repeat' (first | with_reducible assumption | intro _ | with_reducible apply h_k | with_reducible apply canon_ite | with_reducible apply canon_regs | with_reducible apply canon_foldl | with_reducible apply canon_done | with_reducible apply canon_later | with_reducible apply canon_loose | with_reducible apply canon_system | with_reducible apply canon_fail | with_reducible apply resultCanon_ite | dsimp only | simp only [canon_mk] | split)

theorem canon_segReadBody (c : Cmd) (s : State) (h_s : s.canon = true) : (segReadBody c s).canon = true := by
  unfold segReadBody
  repeat' (first | with_reducible assumption | intro _ | with_reducible apply canon_checked | with_reducible apply canon_refuseIf | with_reducible apply canon_noMore | with_reducible apply canon_segChecked | with_reducible apply canon_place | with_reducible apply canon_ite | with_reducible apply canon_regs | with_reducible apply canon_foldl | with_reducible apply canon_done | with_reducible apply canon_later | with_reducible apply canon_loose | with_reducible apply canon_system | with_reducible apply canon_fail | with_reducible apply resultCanon_ite | dsimp only | simp only [canon_mk] | split)

theorem canon_execSegRead (c : Cmd) (s : State) (h_s : s.canon = true) : resCanon (execSegRead c s) = true := by
  unfold execSegRead
  repeat' (first | with_reducible assumption | intro _ | with_reducible apply canon_runCmd | with_reducible apply canon_segReadBody | with_reducible apply canon_ite | with_reducible apply canon_regs | with_reducible apply canon_foldl | with_reducible apply canon_next | with_reducible apply resCanon_ite | dsimp only | simp only [canon_mk] | split)

theorem canon_segReleaseBody (c : Cmd) (s : State) (h_s : s.canon = true) : (segReleaseBody c s).canon = true := by
  unfold segReleaseBody
  repeat' (first | with_reducible assumption | intro _ | with_reducible apply canon_checked | with_reducible apply canon_refuseIf | with_reducible apply canon_noMore | with_reducible apply canon_segChecked | with_reducible apply canon_releaseSeg | with_reducible apply canon_ite | with_reducible apply canon_regs | with_reducible apply canon_foldl | with_reducible apply canon_done | with_reducible apply canon_later | with_reducible apply canon_loose | with_reducible apply canon_system | with_reducible apply canon_fail | with_reducible apply resultCanon_ite | dsimp only | simp only [canon_mk] | split)

theorem canon_segReleaseAllBody (c : Cmd) (s : State) (h_s : s.canon = true) : (segReleaseAllBody c s).canon = true := by
  unfold segReleaseAllBody
  repeat' (first | with_reducible assumption | intro _ | with_reducible apply canon_checked | with_reducible apply canon_refuseIf | with_reducible apply canon_noMore | with_reducible apply canon_releaseSeg | with_reducible apply canon_ite | with_reducible apply canon_regs | with_reducible apply canon_foldl | with_reducible apply canon_done | with_reducible apply canon_later | with_reducible apply canon_loose | with_reducible apply canon_system | with_reducible apply canon_fail | with_reducible apply resultCanon_ite | dsimp only | simp only [canon_mk] | split)

theorem canon_execSegRelease (c : Cmd) (s : State) (h_s : s.canon = true) : resCanon (execSegRelease c s) = true := by
  unfold execSegRelease
  repeat' (first | with_reducible assumption | intro _ | with_reducible apply canon_runCmd | with_reducible apply canon_segReleaseBody | with_reducible apply canon_ite | with_reducible apply canon_regs | with_reducible apply canon_foldl | with_reducible apply canon_next | with_reducible apply resCanon_ite | dsimp only | simp only [canon_mk] | split)

theorem canon_execSegReleaseAll (c : Cmd) (s : State) (h_s : s.canon = true) : resCanon (execSegReleaseAll c s) = true := by
  unfold execSegReleaseAll
  repeat' (first | with_reducible assumption | intro _ | with_reducible apply canon_runCmd | with_reducible apply canon_segReleaseAllBody | with_reducible apply canon_ite | with_reducible apply canon_regs | with_reducible apply canon_foldl | with_reducible apply canon_next | with_reducible apply resCanon_ite | dsimp only | simp only [canon_mk] | split)

end Sys2Proof.Machine
end

