-- ==== Sys2Proof/Laws/CanonMerge.lean ====
section
/-! SUPPORT. The canonical form of the register store is kept by Machine/Merge.lean. -/

set_option linter.all false

namespace Sys2Proof.Machine

theorem canon_State_setCondx (s : State) (c : Nat) (x : CondX) (h_s : s.canon = true) : (State.setCondx s c x).canon = true := by
  unfold State.setCondx
  repeat' (first | with_reducible assumption | intro _ | with_reducible apply canon_ite | with_reducible apply canon_regs | with_reducible apply canon_foldl | dsimp only | simp only [canon_mk] | split)

theorem canon_fire (s : State) (c : Nat) (full : Nat) (time : Nat) (h_s : s.canon = true) : (fire s c full time).canon = true := by
  unfold fire
  repeat' (first | with_reducible assumption | intro _ | with_reducible apply canon_State_satInc | with_reducible apply canon_State_setCoreDef | with_reducible apply canon_ite | with_reducible apply canon_regs | with_reducible apply canon_foldl | dsimp only | simp only [canon_mk] | split)

theorem canon_condLow (s : State) (h : THit) (h_s : s.canon = true) : (condLow s h).canon = true := by
  unfold condLow
  repeat' (first | with_reducible assumption | intro _ | with_reducible apply canon_fire | with_reducible apply canon_State_setCondx | with_reducible apply canon_ite | with_reducible apply canon_regs | with_reducible apply canon_foldl | dsimp only | simp only [canon_mk] | split)

theorem canon_condHigh (s : State) (h : THit) (h_s : s.canon = true) : (condHigh s h).canon = true := by
  unfold condHigh
  repeat' (first | with_reducible assumption | intro _ | with_reducible apply canon_State_setCondx | with_reducible apply canon_fire | with_reducible apply canon_ite | with_reducible apply canon_regs | with_reducible apply canon_foldl | dsimp only | simp only [canon_mk] | split)

theorem canon_condEnd (full : Nat) (stop : Nat) (s : State) (c : Nat) (h_s : s.canon = true) : (condEnd full stop s c).canon = true := by
  unfold condEnd
  repeat' (first | with_reducible assumption | intro _ | with_reducible apply canon_fire | with_reducible apply canon_State_setCondx | with_reducible apply canon_ite | with_reducible apply canon_regs | with_reducible apply canon_foldl | dsimp only | simp only [canon_mk] | split)

theorem canon_condRestart (s : State) (c : Nat) (full : Nat) (h_s : s.canon = true) : (condRestart s c full).canon = true := by
  unfold condRestart
  repeat' (first | with_reducible assumption | intro _ | with_reducible apply canon_State_setCondx | with_reducible apply canon_ite | with_reducible apply canon_regs | with_reducible apply canon_foldl | dsimp only | simp only [canon_mk] | split)

theorem canon_putEh (s : State) (tile : Nat) (t : Nat) (h_s : s.canon = true) : (putEh s tile t).canon = true := by
  unfold putEh
  repeat' (first | with_reducible assumption | intro _ | with_reducible apply canon_State_setWord | with_reducible apply canon_State_setTile | with_reducible apply canon_ite | with_reducible apply canon_regs | with_reducible apply canon_foldl | dsimp only | simp only [canon_mk] | split)

theorem canon_dropLine (s : State) (tile : Nat) (line : List THit) (needed : Bool) (h_s : s.canon = true) : (dropLine s tile line needed).canon = true := by
  unfold dropLine
  repeat' (first | with_reducible assumption | intro _ | with_reducible apply canon_putEh | with_reducible apply canon_State_satInc | with_reducible apply canon_ite | with_reducible apply canon_regs | with_reducible apply canon_foldl | dsimp only | simp only [canon_mk] | split)

theorem canon_trimExt (a1 : Nat) (a2 : State) (a3 : Nat) (a4 : Nat) (a5 : Nat) (h_a2 : a2.canon = true) : (trimExt a1 a2 a3 a4 a5).canon = true := by
  induction a1 generalizing a2 a3 a4 a5 h_a2 with
  | zero =>
    unfold trimExt
    repeat' (first | with_reducible assumption | intro _ | with_reducible apply ih | with_reducible apply canon_State_setTile | with_reducible apply canon_dropLine | with_reducible apply canon_ite | with_reducible apply canon_regs | with_reducible apply canon_foldl | dsimp only | simp only [canon_mk] | split)
  | succ n ih =>
    unfold trimExt
    repeat' (first | with_reducible assumption | intro _ | with_reducible apply ih | with_reducible apply canon_State_setTile | with_reducible apply canon_dropLine | with_reducible apply canon_ite | with_reducible apply canon_regs | with_reducible apply canon_foldl | dsimp only | simp only [canon_mk] | split)

theorem canon_spillLine (s : State) (tile : Nat) (line : List THit) (h_s : s.canon = true) : (spillLine s tile line).canon = true := by
  unfold spillLine
  repeat' (first | with_reducible assumption | intro _ | with_reducible apply canon_State_setTile | with_reducible apply canon_ite | with_reducible apply canon_regs | with_reducible apply canon_foldl | dsimp only | simp only [canon_mk] | split)

theorem canon_trimRing (a1 : Nat) (a2 : State) (a3 : Nat) (a4 : Nat) (a5 : Nat) (a6 : Bool) (h_a2 : a2.canon = true) : (trimRing a1 a2 a3 a4 a5 a6).canon = true := by
  induction a1 generalizing a2 a3 a4 a5 a6 h_a2 with
  | zero =>
    unfold trimRing
    repeat' (first | with_reducible assumption | intro _ | with_reducible apply ih | with_reducible apply canon_State_satInc | with_reducible apply canon_State_setTile | with_reducible apply canon_dropLine | with_reducible apply canon_trimExt | with_reducible apply canon_spillLine | with_reducible apply canon_ite | with_reducible apply canon_regs | with_reducible apply canon_foldl | dsimp only | simp only [canon_mk] | split)
  | succ n ih =>
    unfold trimRing
    repeat' (first | with_reducible assumption | intro _ | with_reducible apply ih | with_reducible apply canon_State_satInc | with_reducible apply canon_State_setTile | with_reducible apply canon_dropLine | with_reducible apply canon_trimExt | with_reducible apply canon_spillLine | with_reducible apply canon_ite | with_reducible apply canon_regs | with_reducible apply canon_foldl | dsimp only | simp only [canon_mk] | split)

theorem canon_writeRing (s : State) (tile : Nat) (full : Nat) (hs : List THit) (busy : Bool) (h_s : s.canon = true) : (writeRing s tile full hs busy).canon = true := by
  unfold writeRing
  repeat' (first | with_reducible assumption | intro _ | with_reducible apply canon_State_setTile | with_reducible apply canon_trimRing | with_reducible apply canon_ite | with_reducible apply canon_regs | with_reducible apply canon_foldl | dsimp only | simp only [canon_mk] | split)

theorem canon_chanChange (full : Nat) (s : State) (c : Nat) (h_s : s.canon = true) : (chanChange full s c).canon = true := by
  unfold chanChange
  repeat' (first | with_reducible assumption | intro _ | with_reducible apply canon_statsChange | with_reducible apply canon_condRestart | with_reducible apply canon_ite | with_reducible apply canon_regs | with_reducible apply canon_foldl | dsimp only | simp only [canon_mk] | split)

theorem canon_sumsRead (s : State) (chans : List Nat) (h_s : s.canon = true) : (sumsRead s chans).canon = true := by
  unfold sumsRead
  repeat' (first | with_reducible assumption | intro _ | with_reducible apply canon_ite | with_reducible apply canon_regs | with_reducible apply canon_foldl | dsimp only | simp only [canon_mk] | split)

theorem canon_clearHistory (s : State) (tile : Nat) (full : Nat) (ring : Bool) (h_s : s.canon = true) : (clearHistory s tile full ring).canon = true := by
  unfold clearHistory
  repeat' (first | with_reducible assumption | intro _ | with_reducible apply canon_State_setTile | with_reducible apply canon_putEh | with_reducible apply canon_State_satInc | with_reducible apply canon_ite | with_reducible apply canon_regs | with_reducible apply canon_foldl | dsimp only | simp only [canon_mk] | split)

theorem canon_tileBoundary (s : State) (tile : Nat) (full : Nat) (h_s : s.canon = true) : (tileBoundary s tile full).canon = true := by
  unfold tileBoundary
  repeat' (first | with_reducible assumption | intro _ | with_reducible apply canon_clearHistory | with_reducible apply canon_sumsRead | with_reducible apply canon_condRestart | with_reducible apply canon_chanChange | with_reducible apply canon_State_setTile | with_reducible apply canon_ite | with_reducible apply canon_regs | with_reducible apply canon_foldl | dsimp only | simp only [canon_mk] | split)

theorem canon_toQueue (s : State) (k : Nat) (h : THit) (h_s : s.canon = true) : (toQueue s k h).canon = true := by
  unfold toQueue
  repeat' (first | with_reducible assumption | intro _ | with_reducible apply canon_State_setHq | with_reducible apply canon_State_satInc | with_reducible apply canon_ite | with_reducible apply canon_regs | with_reducible apply canon_foldl | dsimp only | simp only [canon_mk] | split)

theorem canon_decimate (s : State) (c : Nat) (full : Nat) (h_s : s.canon = true) : (decimate s c full).1.canon = true := by
  unfold decimate
  repeat' (first | with_reducible assumption | intro _ | with_reducible apply canon_ite | with_reducible apply canon_regs | with_reducible apply canon_foldl | dsimp only | simp only [canon_mk] | split)

theorem canon_decimate_eq {s : State} {c : Nat} {full : Nat} {q : State × _} (e : decimate s c full = q) (h_s : s.canon = true) : q.1.canon = true := e ▸ canon_decimate s c full h_s

theorem canon_binnedHit (k : Nat) (s : State) (h : THit) (h_s : s.canon = true) : (binnedHit k s h).canon = true := by
  unfold binnedHit
  repeat' (first | with_reducible assumption | intro _ | with_reducible apply canon_flagGates | with_reducible apply canon_toQueue | with_reducible apply canon_State_satInc | with_reducible apply canon_condHigh | with_reducible apply canon_condLow | with_reducible apply canon_accumulate | with_reducible exact canon_decimate_eq (by with_reducible assumption) (by with_reducible assumption) | with_reducible apply canon_decimate | with_reducible apply canon_ite | with_reducible apply canon_regs | with_reducible apply canon_foldl | dsimp only | simp only [canon_mk] | split)

theorem canon_lateGroup (k : Nat) (s : State) (g : Nat) (h_s : s.canon = true) : (lateGroup k s g).canon = true := by
  unfold lateGroup
  repeat' (first | with_reducible assumption | intro _ | with_reducible apply canon_State_satInc | with_reducible apply canon_State_setGroup | with_reducible apply canon_showWaited | with_reducible apply canon_State_put | with_reducible apply canon_ite | with_reducible apply canon_regs | with_reducible apply canon_foldl | dsimp only | simp only [canon_mk] | split)

theorem canon_closeOne (s : State) (tile : Nat) (late : List Nat) (anyLate : Bool) (remap : Bool) (busy : Bool) (h_s : s.canon = true) : (closeOne s tile late anyLate remap busy).canon = true := by
  unfold closeOne
  repeat' (first | with_reducible assumption | intro _ | with_reducible apply canon_tileBoundary | with_reducible apply canon_State_setTile | with_reducible apply canon_binnedHit | with_reducible apply canon_accIntervals | with_reducible apply canon_condEnd | with_reducible apply canon_writeRing | with_reducible apply canon_State_satInc | with_reducible apply canon_lateGroup | with_reducible apply canon_State_setHq | with_reducible apply canon_ite | with_reducible apply canon_regs | with_reducible apply canon_foldl | dsimp only | simp only [canon_mk] | split)

theorem canon_execCaravanClose (tile : Nat) (ergBusy : Bool) (s : State) (h_s : s.canon = true) : resCanon (execCaravanClose tile ergBusy s) = true := by
  unfold execCaravanClose
  repeat' (first | with_reducible assumption | intro _ | with_reducible apply canon_closeOne | with_reducible apply canon_ite | with_reducible apply canon_regs | with_reducible apply canon_foldl | with_reducible apply canon_next | with_reducible apply resCanon_ite | dsimp only | simp only [canon_mk] | split)

theorem canon_emitPlaced (s : State) (q : Nat) (k : Nat) (h_s : s.canon = true) : (emitPlaced s q k).canon = true := by
  unfold emitPlaced
  repeat' (first | with_reducible assumption | intro _ | with_reducible apply canon_State_setHq | with_reducible apply canon_ite | with_reducible apply canon_regs | with_reducible apply canon_foldl | dsimp only | simp only [canon_mk] | split)

theorem canon_seqEnable (s : State) (q : Nat) (b : Nat) (h_s : s.canon = true) : (seqEnable s q b).canon = true := by
  unfold seqEnable
  repeat' (first | with_reducible assumption | intro _ | with_reducible apply canon_State_setHq | with_reducible apply canon_ite | with_reducible apply canon_regs | with_reducible apply canon_foldl | dsimp only | simp only [canon_mk] | split)

theorem canon_seqPass (s : State) (b : Nat) (q : Nat) (h_s : s.canon = true) : (seqPass s b q).canon = true := by
  unfold seqPass
  repeat' (first | with_reducible assumption | intro _ | with_reducible apply canon_seqEnable | with_reducible apply canon_ite | with_reducible apply canon_regs | with_reducible apply canon_foldl | dsimp only | simp only [canon_mk] | split)

theorem canon_emitCaravan (s : State) (q : Nat) (k : Nat) (h_s : s.canon = true) : (emitCaravan s q k).canon = true := by
  unfold emitCaravan
  repeat' (first | with_reducible assumption | intro _ | with_reducible apply canon_State_setHq | with_reducible apply canon_ite | with_reducible apply canon_regs | with_reducible apply canon_foldl | dsimp only | simp only [canon_mk] | split)

theorem canon_execHostCaravanClose (queue : Nat) (s : State) (h_s : s.canon = true) : resCanon (execHostCaravanClose queue s) = true := by
  unfold execHostCaravanClose
  repeat' (first | with_reducible assumption | intro _ | with_reducible apply canon_emitPlaced | with_reducible apply canon_emitCaravan | with_reducible apply canon_ite | with_reducible apply canon_regs | with_reducible apply canon_foldl | with_reducible apply canon_next | with_reducible apply resCanon_ite | dsimp only | simp only [canon_mk] | split)

theorem canon_retirePhys (s : State) (tile : Nat) (h_s : s.canon = true) : (retirePhys s tile).canon = true := by
  unfold retirePhys
  repeat' (first | with_reducible assumption | intro _ | with_reducible apply canon_recordRetirement | with_reducible apply canon_State_put | with_reducible apply canon_ite | with_reducible apply canon_regs | with_reducible apply canon_foldl | dsimp only | simp only [canon_mk] | split)

theorem canon_tileRetireBody (c : Cmd) (s : State) (h_s : s.canon = true) : (tileRetireBody c s).canon = true := by
  unfold tileRetireBody
  repeat' (first | with_reducible assumption | intro _ | with_reducible apply canon_checked | with_reducible apply canon_refuseIf | with_reducible apply canon_noMore | with_reducible apply canon_retirePhys | with_reducible apply canon_State_setTile | with_reducible apply canon_ite | with_reducible apply canon_regs | with_reducible apply canon_foldl | with_reducible apply canon_done | with_reducible apply canon_later | with_reducible apply canon_loose | with_reducible apply canon_system | with_reducible apply canon_fail | with_reducible apply resultCanon_ite | dsimp only | simp only [canon_mk] | split)

theorem canon_execTileRetire (c : Cmd) (s : State) (h_s : s.canon = true) : resCanon (execTileRetire c s) = true := by
  unfold execTileRetire
  repeat' (first | with_reducible assumption | intro _ | with_reducible apply canon_runCmd | with_reducible apply canon_tileRetireBody | with_reducible apply canon_ite | with_reducible apply canon_regs | with_reducible apply canon_foldl | with_reducible apply canon_next | with_reducible apply resCanon_ite | dsimp only | simp only [canon_mk] | split)

theorem canon_closeUpTo (a1 : Nat) (a2 : State) (a3 : Nat) (a4 : Nat) (h_a2 : a2.canon = true) : (closeUpTo a1 a2 a3 a4).canon = true := by
  induction a1 generalizing a2 a3 a4 h_a2 with
  | zero =>
    unfold closeUpTo
    repeat' (first | with_reducible assumption | intro _ | with_reducible apply ih | with_reducible apply canon_closeOne | with_reducible apply canon_ite | with_reducible apply canon_regs | with_reducible apply canon_foldl | dsimp only | simp only [canon_mk] | split)
  | succ n ih =>
    unfold closeUpTo
    repeat' (first | with_reducible assumption | intro _ | with_reducible apply ih | with_reducible apply canon_closeOne | with_reducible apply canon_ite | with_reducible apply canon_regs | with_reducible apply canon_foldl | dsimp only | simp only [canon_mk] | split)

theorem canon_execTileRemapAccept (tile : Nat) (s : State) (h_s : s.canon = true) : resCanon (execTileRemapAccept tile s) = true := by
  unfold execTileRemapAccept
  repeat' (first | with_reducible assumption | intro _ | with_reducible apply canon_State_put | with_reducible apply canon_State_setTile | with_reducible apply canon_closeUpTo | with_reducible apply canon_finish | with_reducible apply canon_ite | with_reducible apply canon_regs | with_reducible apply canon_foldl | with_reducible apply canon_next | with_reducible apply resCanon_ite | dsimp only | simp only [canon_mk] | split)

theorem canon_execTileRemapBoundary (tile : Nat) (s : State) (h_s : s.canon = true) : resCanon (execTileRemapBoundary tile s) = true := by
  unfold execTileRemapBoundary
  repeat' (first | with_reducible assumption | intro _ | with_reducible apply canon_advanceFull | with_reducible apply canon_State_put | with_reducible apply canon_State_setWord | with_reducible apply canon_State_setTile | with_reducible apply canon_ite | with_reducible apply canon_regs | with_reducible apply canon_foldl | with_reducible apply canon_next | with_reducible apply resCanon_ite | dsimp only | simp only [canon_mk] | split)

theorem canon_unreadable (s : State) (tile : Nat) (h_s : s.canon = true) : (unreadable s tile).canon = true := by
  unfold unreadable
  repeat' (first | with_reducible assumption | intro _ | with_reducible apply canon_State_satInc | with_reducible apply canon_State_setTile | with_reducible apply canon_flagGate | with_reducible apply canon_ite | with_reducible apply canon_regs | with_reducible apply canon_foldl | dsimp only | simp only [canon_mk] | split)

theorem canon_rewindCaught (a1 : Nat) (a2 : State) (a3 : Nat) (a4 : Nat) (h_a2 : a2.canon = true) : (rewindCaught a1 a2 a3 a4).canon = true := by
  induction a1 generalizing a2 a3 a4 h_a2 with
  | zero =>
    unfold rewindCaught
    repeat' (first | with_reducible assumption | intro _ | with_reducible apply ih | with_reducible apply canon_rewind | with_reducible apply canon_ite | with_reducible apply canon_regs | with_reducible apply canon_foldl | dsimp only | simp only [canon_mk] | split)
  | succ n ih =>
    unfold rewindCaught
    repeat' (first | with_reducible assumption | intro _ | with_reducible apply ih | with_reducible apply canon_rewind | with_reducible apply canon_ite | with_reducible apply canon_regs | with_reducible apply canon_foldl | dsimp only | simp only [canon_mk] | split)

theorem canon_faultRemap (s : State) (tile : Nat) (h_s : s.canon = true) : (faultRemap s tile).canon = true := by
  unfold faultRemap
  repeat' (first | with_reducible assumption | intro _ | with_reducible apply canon_unreadable | with_reducible apply canon_State_setTile | with_reducible apply canon_closeUpTo | with_reducible apply canon_rewindCaught | with_reducible apply canon_ite | with_reducible apply canon_regs | with_reducible apply canon_foldl | dsimp only | simp only [canon_mk] | split)

theorem canon_retireTile (s : State) (tile : Nat) (h_s : s.canon = true) : (retireTile s tile).canon = true := by
  unfold retireTile
  repeat' (first | with_reducible assumption | intro _ | with_reducible apply canon_retirePhys | with_reducible apply canon_State_setTile | with_reducible apply canon_faultRemap | with_reducible apply canon_ite | with_reducible apply canon_regs | with_reducible apply canon_foldl | dsimp only | simp only [canon_mk] | split)

theorem canon_execHeldRetirementRemap (tile : Nat) (s : State) (h_s : s.canon = true) : resCanon (execHeldRetirementRemap tile s) = true := by
  unfold execHeldRetirementRemap
  repeat' (first | with_reducible assumption | intro _ | with_reducible apply canon_advanceFull | with_reducible apply canon_faultRemap | with_reducible apply canon_State_setTile | with_reducible apply canon_ite | with_reducible apply canon_regs | with_reducible apply canon_foldl | with_reducible apply canon_next | with_reducible apply resCanon_ite | dsimp only | simp only [canon_mk] | split)

end Sys2Proof.Machine
end

