-- ==== Sys2Proof/Laws/CanonTimeStep.lean ====
section
/-! SUPPORT. The canonical form of the register store is kept by Machine/TimeStep.lean. -/

set_option linter.all false

namespace Sys2Proof.Machine

theorem canon_dropHeld (s : State) (dt : Int) (h_s : s.canon = true) : (dropHeld s dt).canon = true := by
  unfold dropHeld
  repeat' (first | with_reducible assumption | intro _ | with_reducible apply canon_dropPrec | with_reducible apply canon_ite | with_reducible apply canon_regs | with_reducible apply canon_foldl | dsimp only | simp only [canon_mk] | split)

theorem canon_emitUpTo (a1 : Nat) (a2 : State) (a3 : Nat) (a4 : Nat) (h_a2 : a2.canon = true) : (emitUpTo a1 a2 a3 a4).canon = true := by
  induction a1 generalizing a2 a3 a4 h_a2 with
  | zero =>
    unfold emitUpTo
    repeat' (first | with_reducible assumption | intro _ | with_reducible apply ih | with_reducible apply canon_emitPlaced | with_reducible apply canon_emitCaravan | with_reducible apply canon_ite | with_reducible apply canon_regs | with_reducible apply canon_foldl | dsimp only | simp only [canon_mk] | split)
  | succ n ih =>
    unfold emitUpTo
    repeat' (first | with_reducible assumption | intro _ | with_reducible apply ih | with_reducible apply canon_emitPlaced | with_reducible apply canon_emitCaravan | with_reducible apply canon_ite | with_reducible apply canon_regs | with_reducible apply canon_foldl | dsimp only | simp only [canon_mk] | split)

theorem canon_finishGates (a1 : Nat) (a2 : State) (a3 : Nat) (a4 : Nat) (h_a2 : a2.canon = true) : (finishGates a1 a2 a3 a4).canon = true := by
  induction a1 generalizing a2 a3 a4 h_a2 with
  | zero =>
    unfold finishGates
    repeat' (first | with_reducible assumption | intro _ | with_reducible apply ih | with_reducible apply canon_completeGate | with_reducible apply canon_ite | with_reducible apply canon_regs | with_reducible apply canon_foldl | dsimp only | simp only [canon_mk] | split)
  | succ n ih =>
    unfold finishGates
    repeat' (first | with_reducible assumption | intro _ | with_reducible apply ih | with_reducible apply canon_completeGate | with_reducible apply canon_ite | with_reducible apply canon_regs | with_reducible apply canon_foldl | dsimp only | simp only [canon_mk] | split)

theorem canon_closeOld (s : State) (h_s : s.canon = true) : (closeOld s).canon = true := by
  unfold closeOld
  repeat' (first | with_reducible assumption | intro _ | with_reducible apply canon_closeUpTo | with_reducible apply canon_finishGates | with_reducible apply canon_execSegmentBuild | with_reducible apply canon_seqPass | with_reducible apply canon_emitPlaced | with_reducible apply canon_emitUpTo | with_reducible apply canon_ite | with_reducible apply canon_regs | with_reducible apply canon_foldl | with_reducible apply canon_next | with_reducible apply resCanon_ite | with_reducible apply canon_done | with_reducible apply canon_later | with_reducible apply canon_loose | with_reducible apply canon_system | with_reducible apply canon_fail | with_reducible apply resultCanon_ite | dsimp only | simp only [canon_mk] | split | with_reducible refine canon_of_next (by with_reducible assumption) ?_ | with_reducible refine canon_of_done (by with_reducible assumption) ?_ | with_reducible refine canon_of_later (by with_reducible assumption) ?_ | with_reducible refine canon_of_loose (by with_reducible assumption) ?_ | with_reducible refine canon_of_system (by with_reducible assumption) ?_ | with_reducible refine canon_of_some (by with_reducible assumption) ?_ | with_reducible apply optCanon_ite | with_reducible apply optCanon_some | with_reducible apply optCanon_none | with_reducible apply canon_getD)

theorem canon_shiftAll (s : State) (dt : Int) (start : Nat) (h_s : s.canon = true) : (shiftAll s dt start).canon = true := by
  unfold shiftAll
  repeat' (first | with_reducible assumption | intro _ | with_reducible apply canon_ite | with_reducible apply canon_regs | with_reducible apply canon_foldl | dsimp only | simp only [canon_mk] | split)

theorem canon_deviceTimeStep (s : State) (oldFull : Nat) (newFull : Nat) (h_s : s.canon = true) : (deviceTimeStep s oldFull newFull).canon = true := by
  unfold deviceTimeStep
  repeat' (first | with_reducible assumption | intro _ | with_reducible apply canon_State_setFull | with_reducible apply canon_closeOld | with_reducible apply canon_dropHeld | with_reducible apply canon_emitAll | with_reducible apply canon_State_put | with_reducible apply canon_shiftAll | with_reducible apply canon_putEh | with_reducible apply canon_ite | with_reducible apply canon_regs | with_reducible apply canon_foldl | dsimp only | simp only [canon_mk] | split)

theorem canon_execTimeSetBoundary (s : State) (h_s : s.canon = true) : resCanon (execTimeSetBoundary s) = true := by
  unfold execTimeSetBoundary
  repeat' (first | with_reducible assumption | intro _ | with_reducible apply canon_advanceFull | with_reducible apply canon_finish | with_reducible apply canon_deviceTimeStep | with_reducible apply canon_ite | with_reducible apply canon_regs | with_reducible apply canon_foldl | with_reducible apply canon_next | with_reducible apply resCanon_ite | dsimp only | simp only [canon_mk] | split)

end Sys2Proof.Machine
end

