-- ==== Sys2Proof/Laws/CanonHostQueue.lean ====
section
/-! SUPPORT. The canonical form of the register store is kept by Machine/HostQueue.lean. -/

set_option linter.all false

namespace Sys2Proof.Machine

theorem canon_hqSettle (s : State) (q : Nat) (h_s : s.canon = true) : (hqSettle s q).canon = true := by
  unfold hqSettle
  repeat' (first | with_reducible assumption | intro _ | with_reducible apply canon_State_setHq | with_reducible apply canon_State_put | with_reducible apply canon_State_satInc | with_reducible apply canon_event | with_reducible apply canon_ite | with_reducible apply canon_regs | with_reducible apply canon_foldl | dsimp only | simp only [canon_mk] | split)

theorem canon_hqBack (s : State) (q : Nat) (recs : List Rec) (wp : Nat) (h_s : s.canon = true) : (hqBack s q recs wp).canon = true := by
  unfold hqBack
  repeat' (first | with_reducible assumption | intro _ | with_reducible apply canon_hqSettle | with_reducible apply canon_State_put | with_reducible apply canon_State_setHq | with_reducible apply canon_ite | with_reducible apply canon_regs | with_reducible apply canon_foldl | dsimp only | simp only [canon_mk] | split)

theorem canon_tryWords (s : State) (q : Nat) (extra : Nat) (r : Rec) (h_s : s.canon = true) : (tryWords s q extra r).canon = true := by
  unfold tryWords
  repeat' (first | with_reducible assumption | intro _ | with_reducible apply canon_hqBack | with_reducible apply canon_hqSettle | with_reducible apply canon_State_setHq | with_reducible apply canon_ite | with_reducible apply canon_regs | with_reducible apply canon_foldl | dsimp only | simp only [canon_mk] | split)

theorem canon_putRec (s : State) (q : Nat) (r : Rec) (h_s : s.canon = true) : (putRec s q r).canon = true := by
  unfold putRec
  repeat' (first | with_reducible assumption | intro _ | with_reducible apply canon_segWritten | with_reducible apply canon_State_setHq | with_reducible apply canon_ite | with_reducible apply canon_regs | with_reducible apply canon_foldl | dsimp only | simp only [canon_mk] | split)

theorem canon_dropRec (s : State) (q : Nat) (r : Rec) (h_s : s.canon = true) : (dropRec s q r).canon = true := by
  unfold dropRec
  repeat' (first | with_reducible assumption | intro _ | with_reducible apply canon_segWritten | with_reducible apply canon_State_satInc | with_reducible apply canon_ite | with_reducible apply canon_regs | with_reducible apply canon_foldl | dsimp only | simp only [canon_mk] | split)

theorem canon_takeBack (s : State) (q : Nat) (h_s : s.canon = true) : (takeBack s q).canon = true := by
  unfold takeBack
  repeat' (first | with_reducible assumption | intro _ | with_reducible apply canon_hqBack | with_reducible apply canon_ite | with_reducible apply canon_regs | with_reducible apply canon_foldl | dsimp only | simp only [canon_mk] | split)

theorem canon_writeCaravan (s : State) (q : Nat) (r : Rec) (h_s : s.canon = true) : (writeCaravan s q r).canon = true := by
  unfold writeCaravan
  repeat' (first | with_reducible assumption | intro _ | with_reducible apply canon_putRec | with_reducible apply canon_State_setHq | with_reducible apply canon_tryWords | with_reducible apply canon_State_satInc | with_reducible apply canon_takeBack | with_reducible apply canon_dropRec | with_reducible apply canon_State_put | with_reducible apply canon_ite | with_reducible apply canon_regs | with_reducible apply canon_foldl | dsimp only | simp only [canon_mk] | split)

theorem canon_writePlain (s : State) (q : Nat) (r : Rec) (h_s : s.canon = true) : (writePlain s q r).canon = true := by
  unfold writePlain
  repeat' (first | with_reducible assumption | intro _ | with_reducible apply canon_dropRec | with_reducible apply canon_State_setHq | with_reducible apply canon_putRec | with_reducible apply canon_tryWords | with_reducible apply canon_State_put | with_reducible apply canon_ite | with_reducible apply canon_regs | with_reducible apply canon_foldl | dsimp only | simp only [canon_mk] | split)

theorem canon_writeOff (s : State) (q : Nat) (r : Rec) (h_s : s.canon = true) : (writeOff s q r).canon = true := by
  unfold writeOff
  repeat' (first | with_reducible assumption | intro _ | with_reducible apply canon_dropRec | with_reducible apply canon_State_setHq | with_reducible apply canon_ite | with_reducible apply canon_regs | with_reducible apply canon_foldl | dsimp only | simp only [canon_mk] | split)

theorem canon_flushDone (s : State) (q : Nat) (h_s : s.canon = true) : (flushDone s q).canon = true := by
  unfold flushDone
  repeat' (first | with_reducible assumption | intro _ | with_reducible apply canon_sendReply | with_reducible apply canon_State_setHq | with_reducible apply canon_ite | with_reducible apply canon_regs | with_reducible apply canon_foldl | dsimp only | simp only [canon_mk] | split)

theorem canon_flushRec (s : State) (q : Nat) (r : Rec) (h_s : s.canon = true) : (flushRec s q r).canon = true := by
  unfold flushRec
  repeat' (first | with_reducible assumption | intro _ | with_reducible apply canon_segWritten | with_reducible apply canon_State_satInc | with_reducible apply canon_State_setHq | with_reducible apply canon_writeOff | with_reducible apply canon_flushDone | with_reducible apply canon_ite | with_reducible apply canon_regs | with_reducible apply canon_foldl | dsimp only | simp only [canon_mk] | split)

theorem canon_lostRec (s : State) (q : Nat) (r : Rec) (h_s : s.canon = true) : (lostRec s q r).canon = true := by
  unfold lostRec
  repeat' (first | with_reducible assumption | intro _ | with_reducible apply canon_segWritten | with_reducible apply canon_State_setHq | with_reducible apply canon_ite | with_reducible apply canon_regs | with_reducible apply canon_foldl | dsimp only | simp only [canon_mk] | split)

theorem canon_execHostRecordWrite (queue : Nat) (spillWaiting : Bool) (s : State) (h_s : s.canon = true) : resCanon (execHostRecordWrite queue spillWaiting s) = true := by
  unfold execHostRecordWrite
  repeat' (first | with_reducible assumption | intro _ | with_reducible apply canon_State_setHq | with_reducible apply canon_lostRec | with_reducible apply canon_crosses | with_reducible apply canon_hqSettle | with_reducible apply canon_flushRec | with_reducible apply canon_flushDone | with_reducible apply canon_writeOff | with_reducible apply canon_writeCaravan | with_reducible apply canon_writePlain | with_reducible apply canon_ite | with_reducible apply canon_regs | with_reducible apply canon_foldl | with_reducible apply canon_next | with_reducible apply resCanon_ite | dsimp only | simp only [canon_mk] | split)

theorem canon_execSpillWrite (kind : Nat) (queue : Nat) (s : State) (h_s : s.canon = true) : resCanon (execSpillWrite kind queue s) = true := by
  unfold execSpillWrite
  repeat' (first | with_reducible assumption | intro _ | with_reducible apply canon_noteGrant | with_reducible apply canon_ingSettle | with_reducible apply canon_State_setIng | with_reducible apply canon_hqSettle | with_reducible apply canon_State_setHq | with_reducible apply canon_ite | with_reducible apply canon_regs | with_reducible apply canon_foldl | with_reducible apply canon_next | with_reducible apply resCanon_ite | dsimp only | simp only [canon_mk] | split)

theorem canon_sendRecords (lane : Nat) (queue : Nat) (s : State) (ws : List Word) (h_s : s.canon = true) : (sendRecords lane queue s ws).canon = true := by
  unfold sendRecords
  repeat' (first | with_reducible assumption | intro _ | with_reducible apply canon_sendHost | with_reducible apply canon_ite | with_reducible apply canon_regs | with_reducible apply canon_foldl | dsimp only | simp only [canon_mk] | split)

theorem canon_loseRecord (s : State) (q : Nat) (i : Nat) (source : Nat) (h_s : s.canon = true) : (loseRecord s q i source).canon = true := by
  unfold loseRecord
  repeat' (first | with_reducible assumption | intro _ | with_reducible apply canon_State_setHq | with_reducible apply canon_segWritten | with_reducible apply canon_State_satInc | with_reducible apply canon_dataLost | with_reducible apply canon_ite | with_reducible apply canon_regs | with_reducible apply canon_foldl | dsimp only | simp only [canon_mk] | split)

theorem canon_badRecord (s : State) (q : Nat) (i : Nat) (source : Nat) (sub : Nat) (injected : Bool) (h_s : s.canon = true) : (badRecord s q i source sub injected).canon = true := by
  unfold badRecord
  repeat' (first | with_reducible assumption | intro _ | with_reducible apply canon_raise | with_reducible apply canon_loseRecord | with_reducible apply canon_ite | with_reducible apply canon_regs | with_reducible apply canon_foldl | dsimp only | simp only [canon_mk] | split)

/-- Filling a record frame keeps the register store canonical. -/
theorem canon_fillFrame (n : Nat) (s : State) (q room : Nat) (bad : Bool) (ws : List Word) (h_s : s.canon = true) : (fillFrame n s q room bad ws).s.canon = true := by
  induction n generalizing s q room bad ws with
  | zero => exact h_s
  | succ n ih =>
    unfold fillFrame
    split
    · exact h_s
    · split
      · exact h_s
      · extract_lets die
        generalize hp : (if (s.hq q).mid = 0 then (s, false) else ergRead s die) = p
        have h1 : p.1.canon = true := by
          rw [← hp]
          split
          · exact h_s
          · exact canon_ergRead _ _ h_s
        obtain ⟨t, spilt⟩ := p
        dsimp only
        generalize hr : (if spilt = true then (t, false) else awlTake t (0x4000 + q)) = r
        have h2 : r.1.canon = true := by
          rw [← hr]
          split
          · exact h1
          · exact canon_awlTake _ _ h1
        obtain ⟨u, inj⟩ := r
        dsimp only
        split
        · exact canon_badRecord _ _ _ _ _ _ h2
        · split
          · exact canon_badRecord _ _ _ _ _ _ h2
          · split
            · exact ih _ _ _ _ _ (canon_State_setHq _ _ _ h2)
            · exact canon_State_setHq _ _ _ h2

theorem canon_sendRecordFrame (s : State) (lane : Nat) (q : Nat) (left : Nat) (room : Nat) (corrected : Nat) (bad : Bool) (h_s : s.canon = true) : (sendRecordFrame s lane q left room corrected bad).canon = true := by
  unfold sendRecordFrame
  repeat' (first | with_reducible assumption | intro _ | with_reducible apply canon_State_setHlane | with_reducible apply canon_fillFrame | with_reducible apply canon_countEcc | with_reducible apply canon_hqSettle | with_reducible apply canon_sendRecords | with_reducible apply canon_ite | with_reducible apply canon_regs | with_reducible apply canon_foldl | with_reducible apply canon_next | with_reducible apply resCanon_ite | with_reducible apply canon_done | with_reducible apply canon_later | with_reducible apply canon_loose | with_reducible apply canon_system | with_reducible apply canon_fail | with_reducible apply resultCanon_ite | dsimp only | simp only [canon_mk] | split | with_reducible refine canon_of_next (by with_reducible assumption) ?_ | with_reducible refine canon_of_done (by with_reducible assumption) ?_ | with_reducible refine canon_of_later (by with_reducible assumption) ?_ | with_reducible refine canon_of_loose (by with_reducible assumption) ?_ | with_reducible refine canon_of_system (by with_reducible assumption) ?_ | with_reducible refine canon_of_some (by with_reducible assumption) ?_ | with_reducible apply optCanon_ite | with_reducible apply optCanon_some | with_reducible apply optCanon_none | with_reducible apply canon_getD)

theorem canon_execHostLaneSend (lane : Nat) (corrected : Nat) (badWord : Bool) (s : State) (h_s : s.canon = true) : resCanon (execHostLaneSend lane corrected badWord s) = true := by
  unfold execHostLaneSend
  repeat' (first | with_reducible assumption | intro _ | with_reducible apply canon_sendReplyFrame | with_reducible apply canon_sendRecordFrame | with_reducible apply canon_ite | with_reducible apply canon_regs | with_reducible apply canon_foldl | with_reducible apply canon_next | with_reducible apply resCanon_ite | dsimp only | simp only [canon_mk] | split)

theorem canon_execIdleRecord (lane : Nat) (s : State) (h_s : s.canon = true) : resCanon (execIdleRecord lane s) = true := by
  unfold execIdleRecord
  repeat' (first | with_reducible assumption | intro _ | with_reducible apply canon_advanceTo | with_reducible apply canon_State_setHlane | with_reducible apply canon_sendHost | with_reducible apply canon_ite | with_reducible apply canon_regs | with_reducible apply canon_foldl | with_reducible apply canon_next | with_reducible apply resCanon_ite | dsimp only | simp only [canon_mk] | split)

theorem canon_queueFlushBody (c : Cmd) (s : State) (h_s : s.canon = true) : (queueFlushBody c s).canon = true := by
  unfold queueFlushBody
  repeat' (first | with_reducible assumption | intro _ | with_reducible apply canon_checked | with_reducible apply canon_refuseIf | with_reducible apply canon_noMore | with_reducible apply canon_State_setHq | with_reducible apply canon_ite | with_reducible apply canon_regs | with_reducible apply canon_foldl | with_reducible apply canon_done | with_reducible apply canon_later | with_reducible apply canon_loose | with_reducible apply canon_system | with_reducible apply canon_fail | with_reducible apply resultCanon_ite | dsimp only | simp only [canon_mk] | split)

theorem canon_execQueueFlush (c : Cmd) (s : State) (h_s : s.canon = true) : resCanon (execQueueFlush c s) = true := by
  unfold execQueueFlush
  repeat' (first | with_reducible assumption | intro _ | with_reducible apply canon_runCmd | with_reducible apply canon_queueFlushBody | with_reducible apply canon_ite | with_reducible apply canon_regs | with_reducible apply canon_foldl | with_reducible apply canon_next | with_reducible apply resCanon_ite | dsimp only | simp only [canon_mk] | split)

theorem canon_execFlushEffect (queue : Nat) (s : State) (h_s : s.canon = true) : resCanon (execFlushEffect queue s) = true := by
  unfold execFlushEffect
  repeat' (first | with_reducible assumption | intro _ | with_reducible apply canon_State_satInc | with_reducible apply canon_State_setHq | with_reducible apply canon_hqSettle | with_reducible apply canon_flushDone | with_reducible apply canon_ite | with_reducible apply canon_regs | with_reducible apply canon_foldl | with_reducible apply canon_next | with_reducible apply resCanon_ite | dsimp only | simp only [canon_mk] | split)

theorem canon_queueStatusIngressBody (c : Cmd) (s : State) (h_s : s.canon = true) : (queueStatusIngressBody c s).canon = true := by
  unfold queueStatusIngressBody
  repeat' (first | with_reducible assumption | intro _ | with_reducible apply canon_checked | with_reducible apply canon_refuseIf | with_reducible apply canon_noMore | with_reducible apply canon_pauseSettle | with_reducible apply canon_ite | with_reducible apply canon_regs | with_reducible apply canon_foldl | with_reducible apply canon_done | with_reducible apply canon_later | with_reducible apply canon_loose | with_reducible apply canon_system | with_reducible apply canon_fail | with_reducible apply resultCanon_ite | dsimp only | simp only [canon_mk] | split)

theorem canon_queueStatusHostBody (c : Cmd) (s : State) (h_s : s.canon = true) : (queueStatusHostBody c s).canon = true := by
  unfold queueStatusHostBody
  repeat' (first | with_reducible assumption | intro _ | with_reducible apply canon_checked | with_reducible apply canon_refuseIf | with_reducible apply canon_noMore | with_reducible apply canon_ite | with_reducible apply canon_regs | with_reducible apply canon_foldl | with_reducible apply canon_done | with_reducible apply canon_later | with_reducible apply canon_loose | with_reducible apply canon_system | with_reducible apply canon_fail | with_reducible apply resultCanon_ite | dsimp only | simp only [canon_mk] | split)

theorem canon_queueStatusAnchorBody (c : Cmd) (s : State) (h_s : s.canon = true) : (queueStatusAnchorBody c s).canon = true := by
  unfold queueStatusAnchorBody
  repeat' (first | with_reducible assumption | intro _ | with_reducible apply canon_checked | with_reducible apply canon_refuseIf | with_reducible apply canon_noMore | with_reducible apply canon_ite | with_reducible apply canon_regs | with_reducible apply canon_foldl | with_reducible apply canon_done | with_reducible apply canon_later | with_reducible apply canon_loose | with_reducible apply canon_system | with_reducible apply canon_fail | with_reducible apply resultCanon_ite | dsimp only | simp only [canon_mk] | split)

theorem canon_execQueueStatusIngress (c : Cmd) (s : State) (h_s : s.canon = true) : resCanon (execQueueStatusIngress c s) = true := by
  unfold execQueueStatusIngress
  repeat' (first | with_reducible assumption | intro _ | with_reducible apply canon_runCmd | with_reducible apply canon_queueStatusIngressBody | with_reducible apply canon_ite | with_reducible apply canon_regs | with_reducible apply canon_foldl | with_reducible apply canon_next | with_reducible apply resCanon_ite | dsimp only | simp only [canon_mk] | split)

theorem canon_execQueueStatusHost (c : Cmd) (s : State) (h_s : s.canon = true) : resCanon (execQueueStatusHost c s) = true := by
  unfold execQueueStatusHost
  repeat' (first | with_reducible assumption | intro _ | with_reducible apply canon_runCmd | with_reducible apply canon_queueStatusHostBody | with_reducible apply canon_ite | with_reducible apply canon_regs | with_reducible apply canon_foldl | with_reducible apply canon_next | with_reducible apply resCanon_ite | dsimp only | simp only [canon_mk] | split)

theorem canon_execQueueStatusAnchor (c : Cmd) (s : State) (h_s : s.canon = true) : resCanon (execQueueStatusAnchor c s) = true := by
  unfold execQueueStatusAnchor
  repeat' (first | with_reducible assumption | intro _ | with_reducible apply canon_runCmd | with_reducible apply canon_queueStatusAnchorBody | with_reducible apply canon_ite | with_reducible apply canon_regs | with_reducible apply canon_foldl | with_reducible apply canon_next | with_reducible apply resCanon_ite | dsimp only | simp only [canon_mk] | split)

end Sys2Proof.Machine
end

