-- ==== Sys2Proof/Laws/CanonObjects.lean ====
section
/-! SUPPORT. The canonical form of the register store is kept by Machine/Objects.lean. -/

set_option linter.all false

namespace Sys2Proof.Machine

theorem canon_queueSwitch (s : State) (q : Nat) (full : Nat) (was : Bool) (h_s : s.canon = true) : (queueSwitch s q full was).canon = true := by
  unfold queueSwitch
  repeat' (first | with_reducible assumption | intro _ | with_reducible apply canon_seqEnable | with_reducible apply canon_State_setHq | with_reducible apply canon_segWritten | with_reducible apply canon_State_satInc | with_reducible apply canon_ite | with_reducible apply canon_regs | with_reducible apply canon_foldl | dsimp only | simp only [canon_mk] | split)

theorem canon_wordEffect (s : State) (obj : Nat) (sel : Nat) (idx : Nat) (old : Word) (full : Nat) (cinch : Bool) (h_s : s.canon = true) : (wordEffect s obj sel idx old full cinch).canon = true := by
  unfold wordEffect
  repeat' (first | with_reducible assumption | intro _ | with_reducible apply canon_refcCheck | with_reducible apply canon_laneEnChange | with_reducible apply canon_timingChange | with_reducible apply canon_showWaited | with_reducible apply canon_State_setGroup | with_reducible apply canon_State_put | with_reducible apply canon_precisionChange | with_reducible apply canon_pressTile | with_reducible apply canon_ingSettle | with_reducible apply canon_hqSettle | with_reducible apply canon_queueSwitch | with_reducible apply canon_setRef | with_reducible apply canon_selSettle | with_reducible apply canon_asideTry | with_reducible apply canon_ite | with_reducible apply canon_regs | with_reducible apply canon_foldl | dsimp only | simp only [canon_mk] | split)

theorem canon_putInForce (s : State) (obj : Nat) (sel : Nat) (idx : Nat) (w : Word) (mask : Word) (full : Nat) (cinch : Bool) (h_s : s.canon = true) : (putInForce s obj sel idx w mask full cinch).canon = true := by
  unfold putInForce
  repeat' (first | with_reducible assumption | intro _ | with_reducible apply canon_wordEffect | with_reducible apply canon_State_setWord | with_reducible apply canon_ite | with_reducible apply canon_regs | with_reducible apply canon_foldl | dsimp only | simp only [canon_mk] | split)

theorem canon_State_setCopies (s : State) (k : Nat) (m : SMap DieCopy) (h_s : s.canon = true) : (State.setCopies s k m).canon = true := by
  unfold State.setCopies
  repeat' (first | with_reducible assumption | intro _ | with_reducible apply canon_ite | with_reducible apply canon_regs | with_reducible apply canon_foldl | dsimp only | simp only [canon_mk] | split)

theorem canon_keepCopies (s : State) (obj : Nat) (sel : Nat) (idx : Nat) (dies : List Nat) (h_s : s.canon = true) : (keepCopies s obj sel idx dies).canon = true := by
  unfold keepCopies
  repeat' (first | with_reducible assumption | intro _ | with_reducible apply canon_State_setCopies | with_reducible apply canon_ite | with_reducible apply canon_regs | with_reducible apply canon_foldl | dsimp only | simp only [canon_mk] | split)

theorem canon_copyChange (s : State) (die : Nat) (k : Nat) (mask : Word) (w : Word) (full : Nat) (h_s : s.canon = true) : (copyChange s die k mask w full).canon = true := by
  unfold copyChange
  repeat' (first | with_reducible assumption | intro _ | with_reducible apply canon_State_setCopies | with_reducible apply canon_ite | with_reducible apply canon_regs | with_reducible apply canon_foldl | dsimp only | simp only [canon_mk] | split)

theorem canon_noteAdopt (s : State) (k : Nat) (die : Nat) (w : Written) (ok : Bool) (h_s : s.canon = true) : (noteAdopt s k die w ok).canon = true := by
  unfold noteAdopt
  repeat' (first | with_reducible assumption | intro _ | with_reducible apply canon_ite | with_reducible apply canon_regs | with_reducible apply canon_foldl | dsimp only | simp only [canon_mk] | split)

theorem canon_execWriteLiveAdopt (die : Nat) (obj : Nat) (sel : Nat) (idx : Nat) (s : State) (h_s : s.canon = true) : resCanon (execWriteLiveAdopt die obj sel idx s) = true := by
  unfold execWriteLiveAdopt
  repeat' (first | with_reducible assumption | intro _ | with_reducible apply canon_advanceFull | with_reducible apply canon_copyChange | with_reducible apply canon_putInForce | with_reducible apply canon_noteAdopt | with_reducible apply canon_raise | with_reducible apply canon_ite | with_reducible apply canon_regs | with_reducible apply canon_foldl | with_reducible apply canon_next | with_reducible apply resCanon_ite | dsimp only | simp only [canon_mk] | split)

theorem canon_loadWord (die : Nat) (obj : Nat) (sel : Nat) (s : State) (idx : Nat) (h_s : s.canon = true) : (loadWord die obj sel s idx).canon = true := by
  unfold loadWord
  repeat' (first | with_reducible assumption | intro _ | with_reducible apply canon_State_setWord | with_reducible apply canon_State_setCopies | with_reducible apply canon_noteAdopt | with_reducible apply canon_raise | with_reducible apply canon_ite | with_reducible apply canon_regs | with_reducible apply canon_foldl | dsimp only | simp only [canon_mk] | split)

theorem canon_loadDie (s : State) (die : Nat) (mine : Nat → Nat → Nat → Bool) (h_s : s.canon = true) : (loadDie s die mine).canon = true := by
  unfold loadDie
  repeat' (first | with_reducible assumption | intro _ | with_reducible apply canon_loadWord | with_reducible apply canon_ite | with_reducible apply canon_regs | with_reducible apply canon_foldl | dsimp only | simp only [canon_mk] | split)

theorem canon_followHome (s : State) (h_s : s.canon = true) : (followHome s).canon = true := by
  unfold followHome
  repeat' (first | with_reducible assumption | intro _ | with_reducible apply canon_State_setWord | with_reducible apply canon_ite | with_reducible apply canon_regs | with_reducible apply canon_foldl | dsimp only | simp only [canon_mk] | split)

end Sys2Proof.Machine
end

