-- ==== Sys2Proof/Laws/CanonPower.lean ====
section
/-! SUPPORT. The canonical form of the register store is kept by Machine/Power.lean. -/

set_option linter.all false

namespace Sys2Proof.Machine

theorem canon_showStacks (s : State) (h_s : s.canon = true) : (showStacks s).canon = true := by
  unfold showStacks
  repeat' (first | with_reducible assumption | intro _ | with_reducible apply canon_State_put | with_reducible apply canon_ite | with_reducible apply canon_regs | with_reducible apply canon_foldl | dsimp only | simp only [canon_mk] | split)

theorem canon_dropWords (s : State) (d : Nat) (h_s : s.canon = true) : (dropWords s d).canon = true :=
  mwf_filter _ _ _ h_s

theorem canon_lostHit (s : State) (it : TItem) (h_s : s.canon = true) : (lostHit s it).canon = true := by
  unfold lostHit
  repeat' (first | with_reducible assumption | intro _ | with_reducible apply canon_putFrame | with_reducible apply canon_dropGroup | with_reducible apply canon_ite | with_reducible apply canon_regs | with_reducible apply canon_foldl | dsimp only | simp only [canon_mk] | split)

theorem canon_dropArrivals (s : State) (d : Nat) (h_s : s.canon = true) : (dropArrivals s d).canon = true := by
  unfold dropArrivals
  repeat' (first | with_reducible assumption | intro _ | with_reducible apply canon_lostHit | with_reducible apply canon_ite | with_reducible apply canon_regs | with_reducible apply canon_foldl | dsimp only | simp only [canon_mk] | split)

theorem canon_dropTiles (s : State) (d : Nat) (h_s : s.canon = true) : (dropTiles s d).canon = true := by
  unfold dropTiles
  repeat' (first | with_reducible assumption | intro _ | with_reducible apply canon_seqPass | with_reducible apply canon_dropArrivals | with_reducible apply canon_ite | with_reducible apply canon_regs | with_reducible apply canon_foldl | dsimp only | simp only [canon_mk] | split)

theorem canon_dropQueue (s : State) (q : Nat) (r : List Rec) (h_s : s.canon = true) : (dropQueue s q r).canon = true := by
  unfold dropQueue
  repeat' (first | with_reducible assumption | intro _ | with_reducible apply canon_State_setHq | with_reducible apply canon_flushDone | with_reducible apply canon_segWritten | with_reducible apply canon_ite | with_reducible apply canon_regs | with_reducible apply canon_foldl | dsimp only | simp only [canon_mk] | split)

theorem canon_dropExt (n : Nat) (s : State) (tile : Nat) (h_s : s.canon = true) : (dropExt n s tile).canon = true := by
  unfold dropExt
  repeat' (first | with_reducible assumption | intro _ | with_reducible apply canon_State_setTile | with_reducible apply canon_dropLine | with_reducible apply canon_ite | with_reducible apply canon_regs | with_reducible apply canon_foldl | dsimp only | simp only [canon_mk] | split)

theorem canon_dropPieces (n : Nat) (s : State) (desc : Nat) (h_s : s.canon = true) : (dropPieces n s desc).canon = true := by
  unfold dropPieces
  repeat' (first | with_reducible assumption | intro _ | with_reducible apply canon_freeBufs | with_reducible apply canon_segPlace | with_reducible apply canon_State_setSeg | with_reducible apply canon_ite | with_reducible apply canon_regs | with_reducible apply canon_foldl | dsimp only | simp only [canon_mk] | split)

theorem canon_dropMiddle (s : State) (q : Nat) (h_s : s.canon = true) : (dropMiddle s q).canon = true := by
  unfold dropMiddle
  repeat' (first | with_reducible assumption | intro _ | with_reducible apply canon_State_satInc | with_reducible apply canon_State_setHq | with_reducible apply canon_hqSettle | with_reducible apply canon_ite | with_reducible apply canon_regs | with_reducible apply canon_foldl | dsimp only | simp only [canon_mk] | split)

theorem canon_dropFrames (s : State) (g : Nat) (h_s : s.canon = true) : (dropFrames s g).canon = true := by
  unfold dropFrames
  repeat' (first | with_reducible assumption | intro _ | with_reducible apply canon_State_setIng | with_reducible apply canon_State_satInc | with_reducible apply canon_dropGroup | with_reducible apply canon_ingSettle | with_reducible apply canon_gapNote | with_reducible apply canon_ite | with_reducible apply canon_regs | with_reducible apply canon_foldl | dsimp only | simp only [canon_mk] | split)

theorem canon_dropStack (s : State) (n : Nat) (h_s : s.canon = true) : (dropStack s n).canon = true := by
  unfold dropStack
  repeat' (first | with_reducible assumption | intro _ | with_reducible apply canon_dropExt | with_reducible apply canon_dropPieces | with_reducible apply canon_dropMiddle | with_reducible apply canon_dropFrames | with_reducible apply canon_ite | with_reducible apply canon_regs | with_reducible apply canon_foldl | dsimp only | simp only [canon_mk] | split)

theorem canon_dropLanes (s : State) (d : Nat) (h_s : s.canon = true) : (dropLanes s d).canon = true := by
  unfold dropLanes
  repeat' (first | with_reducible assumption | intro _ | with_reducible apply canon_calOff | with_reducible apply canon_State_setLane | with_reducible apply canon_State_setModel | with_reducible apply canon_dropIngress | with_reducible apply canon_dropQueue | with_reducible apply canon_ite | with_reducible apply canon_regs | with_reducible apply canon_foldl | dsimp only | simp only [canon_mk] | split)

theorem canon_dropPrecision (s : State) (h_s : s.canon = true) : (dropPrecision s).canon = true := by
  unfold dropPrecision
  repeat' (first | with_reducible assumption | intro _ | with_reducible apply canon_calOff | with_reducible apply canon_ite | with_reducible apply canon_regs | with_reducible apply canon_foldl | dsimp only | simp only [canon_mk] | split)

theorem canon_keepRetired (s : State) (d : Nat) (h_s : s.canon = true) : (keepRetired s d).canon = true := by
  unfold keepRetired
  repeat' (first | with_reducible assumption | intro _ | with_reducible apply canon_State_put | with_reducible apply canon_ite | with_reducible apply canon_regs | with_reducible apply canon_foldl | dsimp only | simp only [canon_mk] | split)

theorem canon_domainStop (s : State) (d : Nat) (code : Nat) (h_s : s.canon = true) : (domainStop s d code).canon = true := by
  unfold domainStop
  repeat' (first | with_reducible assumption | intro _ | with_reducible apply canon_lanesOff | with_reducible apply canon_State_put | with_reducible apply canon_dropStack | with_reducible apply canon_dropLanes | with_reducible apply canon_dropTiles | with_reducible apply canon_dropPrecision | with_reducible apply canon_dropWords | with_reducible apply canon_keepRetired | with_reducible apply canon_followHome | with_reducible apply canon_showStacks | with_reducible apply canon_ite | with_reducible apply canon_regs | with_reducible apply canon_foldl | dsimp only | simp only [canon_mk] | split)

theorem canon_domainStart (s : State) (d : Nat) (h_s : s.canon = true) : (domainStart s d).canon = true := by
  unfold domainStart
  repeat' (first | with_reducible assumption | intro _ | with_reducible apply canon_showStacks | with_reducible apply canon_State_put | with_reducible apply canon_calOn | with_reducible apply canon_loadDie | with_reducible apply canon_lanesOn | with_reducible apply canon_State_setTile | with_reducible apply canon_followHome | with_reducible apply canon_ite | with_reducible apply canon_regs | with_reducible apply canon_foldl | dsimp only | simp only [canon_mk] | split)

theorem canon_powerBegin (s : State) (c : Cmd) (d : Nat) (on : Bool) (h_s : s.canon = true) : (powerBegin s c d on).canon = true := by
  unfold powerBegin
  repeat' (first | with_reducible assumption | intro _ | with_reducible apply canon_State_put | with_reducible apply canon_ite | with_reducible apply canon_regs | with_reducible apply canon_foldl | dsimp only | simp only [canon_mk] | split)

theorem canon_powerBody (on : Bool) (c : Cmd) (s : State) (h_s : s.canon = true) : (powerBody on c s).canon = true := by
  unfold powerBody
  repeat' (first | with_reducible assumption | intro _ | with_reducible apply canon_checked | with_reducible apply canon_refuseIf | with_reducible apply canon_noMore | with_reducible apply canon_powerBegin | with_reducible apply canon_ite | with_reducible apply canon_regs | with_reducible apply canon_foldl | with_reducible apply canon_done | with_reducible apply canon_later | with_reducible apply canon_loose | with_reducible apply canon_system | with_reducible apply canon_fail | with_reducible apply resultCanon_ite | dsimp only | simp only [canon_mk] | split)

theorem canon_execPowerDomainOn (c : Cmd) (s : State) (h_s : s.canon = true) : resCanon (execPowerDomainOn c s) = true := by
  unfold execPowerDomainOn
  repeat' (first | with_reducible assumption | intro _ | with_reducible apply canon_runCmd | with_reducible apply canon_powerBody | with_reducible apply canon_ite | with_reducible apply canon_regs | with_reducible apply canon_foldl | with_reducible apply canon_next | with_reducible apply resCanon_ite | dsimp only | simp only [canon_mk] | split)

theorem canon_execPowerDomainOff (c : Cmd) (s : State) (h_s : s.canon = true) : resCanon (execPowerDomainOff c s) = true := by
  unfold execPowerDomainOff
  repeat' (first | with_reducible assumption | intro _ | with_reducible apply canon_runCmd | with_reducible apply canon_powerBody | with_reducible apply canon_ite | with_reducible apply canon_regs | with_reducible apply canon_foldl | with_reducible apply canon_next | with_reducible apply resCanon_ite | dsimp only | simp only [canon_mk] | split)

theorem canon_powerDone (s : State) (d : Nat) (op : DomOp) (stat : Nat) (h_s : s.canon = true) : (powerDone s d op stat).canon = true := by
  unfold powerDone
  repeat' (first | with_reducible assumption | intro _ | with_reducible apply canon_State_put | with_reducible apply canon_finish | with_reducible apply canon_ite | with_reducible apply canon_regs | with_reducible apply canon_foldl | dsimp only | simp only [canon_mk] | split)

theorem canon_execDomainOffComplete (domain : Nat) (s : State) (h_s : s.canon = true) : resCanon (execDomainOffComplete domain s) = true := by
  unfold execDomainOffComplete
  repeat' (first | with_reducible assumption | intro _ | with_reducible apply canon_powerDone | with_reducible apply canon_State_satInc | with_reducible apply canon_domainStop | with_reducible apply canon_ite | with_reducible apply canon_regs | with_reducible apply canon_foldl | with_reducible apply canon_next | with_reducible apply resCanon_ite | dsimp only | simp only [canon_mk] | split)

theorem canon_execDomainOnComplete (domain : Nat) (s : State) (h_s : s.canon = true) : resCanon (execDomainOnComplete domain s) = true := by
  unfold execDomainOnComplete
  repeat' (first | with_reducible assumption | intro _ | with_reducible apply canon_powerDone | with_reducible apply canon_State_satInc | with_reducible apply canon_domainStart | with_reducible apply canon_State_put | with_reducible apply canon_ite | with_reducible apply canon_regs | with_reducible apply canon_foldl | with_reducible apply canon_next | with_reducible apply resCanon_ite | dsimp only | simp only [canon_mk] | split)

theorem canon_loseTiles (s : State) (d : Nat) (h_s : s.canon = true) : (loseTiles s d).canon = true := by
  unfold loseTiles
  repeat' (first | with_reducible assumption | intro _ | with_reducible apply canon_dataLost | with_reducible apply canon_ite | with_reducible apply canon_regs | with_reducible apply canon_foldl | dsimp only | simp only [canon_mk] | split)

theorem canon_loseQueues (s : State) (d : Nat) (h_s : s.canon = true) : (loseQueues s d).canon = true := by
  unfold loseQueues
  repeat' (first | with_reducible assumption | intro _ | with_reducible apply canon_dataLost | with_reducible apply canon_State_satInc | with_reducible apply canon_ite | with_reducible apply canon_regs | with_reducible apply canon_foldl | dsimp only | simp only [canon_mk] | split)

theorem canon_loseStack (s : State) (n : Nat) (h_s : s.canon = true) : (loseStack s n).canon = true := by
  unfold loseStack
  repeat' (first | with_reducible assumption | intro _ | with_reducible apply canon_dataLost | with_reducible apply canon_ite | with_reducible apply canon_regs | with_reducible apply canon_foldl | dsimp only | simp only [canon_mk] | split)

theorem canon_cycleLoss (s : State) (d : Nat) (h_s : s.canon = true) : (cycleLoss s d).canon = true := by
  unfold cycleLoss
  repeat' (first | with_reducible assumption | intro _ | with_reducible apply canon_loseQueues | with_reducible apply canon_loseTiles | with_reducible apply canon_State_satInc | with_reducible apply canon_loseStack | with_reducible apply canon_ite | with_reducible apply canon_regs | with_reducible apply canon_foldl | dsimp only | simp only [canon_mk] | split)

theorem canon_cycleStop (s : State) (d : Nat) (h_s : s.canon = true) : (cycleStop s d).canon = true := by
  unfold cycleStop
  repeat' (first | with_reducible assumption | intro _ | with_reducible apply canon_cycleLoss | with_reducible apply canon_State_satInc | with_reducible apply canon_domainStop | with_reducible apply canon_editAcc | with_reducible apply canon_ite | with_reducible apply canon_regs | with_reducible apply canon_foldl | dsimp only | simp only [canon_mk] | split)

theorem canon_powerCycle (s : State) (ds : List Nat) (h_s : s.canon = true) : (powerCycle s ds).canon = true := by
  unfold powerCycle
  repeat' (first | with_reducible assumption | intro _ | with_reducible apply canon_cycleStop | with_reducible apply canon_State_put | with_reducible apply canon_ite | with_reducible apply canon_regs | with_reducible apply canon_foldl | dsimp only | simp only [canon_mk] | split)

theorem canon_powerResume (s : State) (d : Nat) (h_s : s.canon = true) : (powerResume s d).canon = true := by
  unfold powerResume
  repeat' (first | with_reducible assumption | intro _ | with_reducible apply canon_powerDone | with_reducible apply canon_powerBegin | with_reducible apply canon_ite | with_reducible apply canon_regs | with_reducible apply canon_foldl | dsimp only | simp only [canon_mk] | split)

theorem canon_execPowerCycleComplete (domain : Nat) (s : State) (h_s : s.canon = true) : resCanon (execPowerCycleComplete domain s) = true := by
  unfold execPowerCycleComplete
  repeat' (first | with_reducible assumption | intro _ | with_reducible apply canon_State_put | with_reducible apply canon_domainStart | with_reducible apply canon_powerResume | with_reducible apply canon_ite | with_reducible apply canon_regs | with_reducible apply canon_foldl | with_reducible apply canon_next | with_reducible apply resCanon_ite | dsimp only | simp only [canon_mk] | split)

theorem canon_setMonitor (s : State) (die : Nat) (outside : Bool) (h_s : s.canon = true) : (setMonitor s die outside).canon = true := by
  unfold setMonitor
  repeat' (first | with_reducible assumption | intro _ | with_reducible apply canon_ite | with_reducible apply canon_regs | with_reducible apply canon_foldl | dsimp only | simp only [canon_mk] | split)

theorem canon_execSupplyMonitor (die : Nat) (outside : Bool) (s : State) (h_s : s.canon = true) : resCanon (execSupplyMonitor die outside s) = true := by
  unfold execSupplyMonitor
  repeat' (first | with_reducible assumption | intro _ | with_reducible apply canon_setMonitor | with_reducible apply canon_raise | with_reducible apply canon_ite | with_reducible apply canon_regs | with_reducible apply canon_foldl | with_reducible apply canon_next | with_reducible apply resCanon_ite | dsimp only | simp only [canon_mk] | split)

theorem canon_execThermalShutdown (die : Nat) (s : State) (h_s : s.canon = true) : resCanon (execThermalShutdown die s) = true := by
  unfold execThermalShutdown
  repeat' (first | with_reducible assumption | intro _ | with_reducible apply canon_raise | with_reducible apply canon_setMonitor | with_reducible apply canon_State_satInc | with_reducible apply canon_domainStop | with_reducible apply canon_State_put | with_reducible apply canon_ite | with_reducible apply canon_regs | with_reducible apply canon_foldl | with_reducible apply canon_next | with_reducible apply resCanon_ite | dsimp only | simp only [canon_mk] | split)

theorem canon_execThermalRecovery (die : Nat) (s : State) (h_s : s.canon = true) : resCanon (execThermalRecovery die s) = true := by
  unfold execThermalRecovery
  repeat' (first | with_reducible assumption | intro _ | with_reducible apply canon_ite | with_reducible apply canon_regs | with_reducible apply canon_foldl | with_reducible apply canon_next | with_reducible apply resCanon_ite | dsimp only | simp only [canon_mk] | split)

end Sys2Proof.Machine
end

