-- ==== Sys2Proof/Laws/CanonFaults.lean ====
section
/-! SUPPORT. The canonical form of the register store is kept by Machine/Faults.lean. -/

set_option linter.all false

namespace Sys2Proof.Machine

theorem canon_State_setSrc (s : State) (n : Nat) (x : SrcX) (h_s : s.canon = true) : (State.setSrc s n x).canon = true := by
  unfold State.setSrc
  repeat' (first | with_reducible assumption | intro _ | with_reducible apply canon_ite | with_reducible apply canon_regs | with_reducible apply canon_foldl | dsimp only | simp only [canon_mk] | split)

theorem canon_execFaultNPulseEnd (s : State) (h_s : s.canon = true) : resCanon (execFaultNPulseEnd s) = true := by
  unfold execFaultNPulseEnd
  repeat' (first | with_reducible assumption | intro _ | with_reducible apply canon_advanceTo | with_reducible apply canon_ite | with_reducible apply canon_regs | with_reducible apply canon_foldl | with_reducible apply canon_next | with_reducible apply resCanon_ite | dsimp only | simp only [canon_mk] | split)

theorem canon_addEntry (s : State) (n : Nat) (sev : Nat) (cause : Nat) (action : Nat) (permanent : Bool) (injected : Bool) (sub : Nat) (h_s : s.canon = true) : (addEntry s n sev cause action permanent injected sub).canon = true := by
  unfold addEntry
  repeat' (first | with_reducible assumption | intro _ | with_reducible apply canon_State_put | with_reducible apply canon_eventBoth | with_reducible apply canon_ite | with_reducible apply canon_regs | with_reducible apply canon_foldl | dsimp only | simp only [canon_mk] | split)

theorem canon_loseFrames (s : State) (g : Nat) (line : Nat) (n : Nat) (source : Nat) (h_s : s.canon = true) : (loseFrames s g line n source).canon = true := by
  unfold loseFrames
  repeat' (first | with_reducible assumption | intro _ | with_reducible apply canon_ingSettle | with_reducible apply canon_loseFrame | with_reducible apply canon_dropItems | with_reducible apply canon_ite | with_reducible apply canon_regs | with_reducible apply canon_foldl | dsimp only | simp only [canon_mk] | split)

theorem canon_loseRecs (s : State) (q : Nat) (line : Nat) (n : Nat) (source : Nat) (h_s : s.canon = true) : (loseRecs s q line n source).canon = true := by
  unfold loseRecs
  repeat' (first | with_reducible assumption | intro _ | with_reducible apply canon_hqSettle | with_reducible apply canon_loseRecord | with_reducible apply canon_ite | with_reducible apply canon_regs | with_reducible apply canon_foldl | dsimp only | simp only [canon_mk] | split)

theorem canon_loseExt (s : State) (tile : Nat) (line : Nat) (source : Nat) (h_s : s.canon = true) : (loseExt s tile line source).canon = true := by
  unfold loseExt
  repeat' (first | with_reducible assumption | intro _ | with_reducible apply canon_putEh | with_reducible apply canon_State_setTile | with_reducible apply canon_State_satInc | with_reducible apply canon_dataLost | with_reducible apply canon_ite | with_reducible apply canon_regs | with_reducible apply canon_foldl | dsimp only | simp only [canon_mk] | split)

theorem canon_losePiece (s : State) (desc : Nat) (tile : Nat) (source : Nat) (h_s : s.canon = true) : (losePiece s desc tile source).canon = true := by
  unfold losePiece
  repeat' (first | with_reducible assumption | intro _ | with_reducible apply canon_freeBufs | with_reducible apply canon_State_setSeg | with_reducible apply canon_segPlace | with_reducible apply canon_dataLost | with_reducible apply canon_ite | with_reducible apply canon_regs | with_reducible apply canon_foldl | dsimp only | simp only [canon_mk] | split)

theorem canon_losePart (s : State) (n : Nat) (word : Option Nat) (p : ErgPart) (h_s : s.canon = true) : (losePart s n word p).canon = true := by
  unfold losePart
  repeat' (first | with_reducible assumption | intro _ | with_reducible apply canon_loseFrames | with_reducible apply canon_loseRecs | with_reducible apply canon_loseExt | with_reducible apply canon_losePiece | with_reducible apply canon_ite | with_reducible apply canon_regs | with_reducible apply canon_foldl | dsimp only | simp only [canon_mk] | split)

theorem canon_loseBlock (s : State) (n : Nat) (whole : Bool) (h_s : s.canon = true) : (loseBlock s n whole).canon = true := by
  unfold loseBlock
  repeat' (first | with_reducible assumption | intro _ | with_reducible apply canon_losePart | with_reducible apply canon_ite | with_reducible apply canon_regs | with_reducible apply canon_foldl | dsimp only | simp only [canon_mk] | split)

theorem canon_retireSource (s : State) (n : Nat) (h_s : s.canon = true) : (retireSource s n).canon = true := by
  unfold retireSource
  repeat' (first | with_reducible assumption | intro _ | with_reducible apply canon_retireTile | with_reducible apply canon_recordRetirement | with_reducible apply canon_State_put | with_reducible apply canon_ite | with_reducible apply canon_regs | with_reducible apply canon_foldl | dsimp only | simp only [canon_mk] | split)

theorem canon_retireLine (s : State) (n : Nat) (lost : Nat) (h_s : s.canon = true) : (retireLine s n lost).canon = true := by
  unfold retireLine
  repeat' (first | with_reducible assumption | intro _ | with_reducible apply canon_recordRetirement | with_reducible apply canon_ite | with_reducible apply canon_regs | with_reducible apply canon_foldl | dsimp only | simp only [canon_mk] | split)

theorem canon_retireElement (s : State) (n cause sub : Nat) (h : s.canon = true) : optCanon (retireElement s n cause sub) = true := by
  have hw : ∀ t : State, t.canon = true → optCanon (if s.flag F.fsa_retired n then none else some (recordRetirement (t.put F.fsa_retired n 1) n 0 0)) = true :=
    fun t ht => optCanon_ite rfl (optCanon_some (canon_recordRetirement _ _ _ _ (canon_State_put _ _ _ ht)))
  unfold retireElement
  repeat' (first | with_reducible assumption | intro _ | with_reducible apply hw | with_reducible apply canon_loseBlock | with_reducible apply canon_retireLane | with_reducible apply canon_calRetire | with_reducible apply canon_ingSettle | with_reducible apply canon_retireLine | with_reducible apply canon_State_setIng | with_reducible apply canon_recordRetirement | with_reducible apply canon_State_put | with_reducible apply canon_State_setWord | with_reducible apply canon_retireSource | with_reducible apply canon_hqSettle | with_reducible apply canon_State_setHq | with_reducible apply canon_ite | with_reducible apply canon_regs | with_reducible apply canon_next | with_reducible apply resCanon_ite | with_reducible apply canon_foldl | with_reducible apply canon_done | with_reducible apply canon_later | with_reducible apply canon_loose | with_reducible apply canon_system | with_reducible apply canon_fail | with_reducible apply resultCanon_ite | dsimp only | simp only [canon_mk] | split | with_reducible refine canon_of_next (by with_reducible assumption) ?_ | with_reducible refine canon_of_done (by with_reducible assumption) ?_ | with_reducible refine canon_of_later (by with_reducible assumption) ?_ | with_reducible refine canon_of_loose (by with_reducible assumption) ?_ | with_reducible refine canon_of_system (by with_reducible assumption) ?_ | with_reducible refine canon_of_some (by with_reducible assumption) ?_ | with_reducible apply optCanon_ite | with_reducible apply optCanon_some | with_reducible apply optCanon_none | with_reducible apply canon_getD)

theorem canon_retireNow (s : State) (n cause sub : Nat) (permanent : Bool) (h : s.canon = true) : optCanon (retireNow s n cause sub permanent) = true := by
  unfold retireNow
  repeat' (first | with_reducible assumption | intro _ | with_reducible apply canon_addEntry | with_reducible apply canon_retireSource | with_reducible apply canon_retireElement | with_reducible apply canon_ite | with_reducible apply canon_regs | with_reducible apply canon_next | with_reducible apply resCanon_ite | with_reducible apply canon_foldl | with_reducible apply canon_done | with_reducible apply canon_later | with_reducible apply canon_loose | with_reducible apply canon_system | with_reducible apply canon_fail | with_reducible apply resultCanon_ite | dsimp only | simp only [canon_mk] | split | with_reducible refine canon_of_next (by with_reducible assumption) ?_ | with_reducible refine canon_of_done (by with_reducible assumption) ?_ | with_reducible refine canon_of_later (by with_reducible assumption) ?_ | with_reducible refine canon_of_loose (by with_reducible assumption) ?_ | with_reducible refine canon_of_system (by with_reducible assumption) ?_ | with_reducible refine canon_of_some (by with_reducible assumption) ?_ | with_reducible apply optCanon_ite | with_reducible apply optCanon_some | with_reducible apply optCanon_none | with_reducible apply canon_getD)

theorem canon_countFault (s : State) (n : Nat) (cause : Nat) (sub : Nat) (h_s : s.canon = true) : (countFault s n cause sub).canon = true := by
  unfold countFault
  repeat' (first | with_reducible assumption | intro _ | with_reducible apply canon_ite | with_reducible apply canon_regs | with_reducible apply canon_foldl | dsimp only | simp only [canon_mk] | split)

theorem canon_acceptFault (s : State) (r : FaultRep) (h_s : s.canon = true) : (acceptFault s r).canon = true := by
  unfold acceptFault
  repeat' (first | with_reducible assumption | intro _ | with_reducible apply canon_State_setSrc | with_reducible apply canon_State_put | with_reducible apply canon_State_satInc | with_reducible apply canon_State_setWord | with_reducible apply canon_countFault | with_reducible apply canon_addEntry | with_reducible apply canon_retireNow | with_reducible apply canon_ite | with_reducible apply canon_regs | with_reducible apply canon_foldl | with_reducible apply canon_next | with_reducible apply resCanon_ite | with_reducible apply canon_done | with_reducible apply canon_later | with_reducible apply canon_loose | with_reducible apply canon_system | with_reducible apply canon_fail | with_reducible apply resultCanon_ite | dsimp only | simp only [canon_mk] | split | with_reducible refine canon_of_next (by with_reducible assumption) ?_ | with_reducible refine canon_of_done (by with_reducible assumption) ?_ | with_reducible refine canon_of_later (by with_reducible assumption) ?_ | with_reducible refine canon_of_loose (by with_reducible assumption) ?_ | with_reducible refine canon_of_system (by with_reducible assumption) ?_ | with_reducible refine canon_of_some (by with_reducible assumption) ?_ | with_reducible apply optCanon_ite | with_reducible apply optCanon_some | with_reducible apply optCanon_none | with_reducible apply canon_getD)

theorem canon_takeFault (s : State) (idx : Nat) (h_s : s.canon = true) : (takeFault s idx).canon = true := by
  unfold takeFault
  repeat' (first | with_reducible assumption | intro _ | with_reducible apply canon_noteGrant | with_reducible apply canon_acceptFault | with_reducible apply canon_ite | with_reducible apply canon_regs | with_reducible apply canon_foldl | dsimp only | simp only [canon_mk] | split)

theorem canon_execFaultRaise (idx : Nat) (s : State) (h_s : s.canon = true) : resCanon (execFaultRaise idx s) = true := by
  unfold execFaultRaise
  repeat' (first | with_reducible assumption | intro _ | with_reducible apply canon_crosses | with_reducible apply canon_takeFault | with_reducible apply canon_ite | with_reducible apply canon_regs | with_reducible apply canon_foldl | with_reducible apply canon_next | with_reducible apply resCanon_ite | dsimp only | simp only [canon_mk] | split)

theorem canon_escalate (s : State) (n : Nat) (sev : Nat) (h_s : s.canon = true) : (escalate s n sev).canon = true := by
  unfold escalate
  repeat' (first | with_reducible assumption | intro _ | with_reducible apply canon_addEntry | with_reducible apply canon_retireNow | with_reducible apply canon_powerCycle | with_reducible apply canon_ite | with_reducible apply canon_regs | with_reducible apply canon_foldl | with_reducible apply canon_next | with_reducible apply resCanon_ite | with_reducible apply canon_done | with_reducible apply canon_later | with_reducible apply canon_loose | with_reducible apply canon_system | with_reducible apply canon_fail | with_reducible apply resultCanon_ite | dsimp only | simp only [canon_mk] | split | with_reducible refine canon_of_next (by with_reducible assumption) ?_ | with_reducible refine canon_of_done (by with_reducible assumption) ?_ | with_reducible refine canon_of_later (by with_reducible assumption) ?_ | with_reducible refine canon_of_loose (by with_reducible assumption) ?_ | with_reducible refine canon_of_system (by with_reducible assumption) ?_ | with_reducible refine canon_of_some (by with_reducible assumption) ?_ | with_reducible apply optCanon_ite | with_reducible apply optCanon_some | with_reducible apply optCanon_none | with_reducible apply canon_getD)

theorem canon_execEscalationExpiry (source : Nat) (s : State) (h_s : s.canon = true) : resCanon (execEscalationExpiry source s) = true := by
  unfold execEscalationExpiry
  repeat' (first | with_reducible assumption | intro _ | with_reducible apply canon_advanceTo | with_reducible apply canon_State_setSrc | with_reducible apply canon_State_put | with_reducible apply canon_escalate | with_reducible apply canon_ite | with_reducible apply canon_regs | with_reducible apply canon_foldl | with_reducible apply canon_next | with_reducible apply resCanon_ite | dsimp only | simp only [canon_mk] | split)

theorem canon_execCauseEnd (source : Nat) (s : State) (h_s : s.canon = true) : resCanon (execCauseEnd source s) = true := by
  unfold execCauseEnd
  repeat' (first | with_reducible assumption | intro _ | with_reducible apply canon_State_put | with_reducible apply canon_ite | with_reducible apply canon_regs | with_reducible apply canon_foldl | with_reducible apply canon_next | with_reducible apply resCanon_ite | dsimp only | simp only [canon_mk] | split)

theorem canon_clearSource (s : State) (n : Nat) (h_s : s.canon = true) : (clearSource s n).canon = true := by
  unfold clearSource
  repeat' (first | with_reducible assumption | intro _ | with_reducible apply canon_State_put | with_reducible apply canon_State_setSrc | with_reducible apply canon_State_setGroup | with_reducible apply canon_showWaited | with_reducible apply canon_ite | with_reducible apply canon_regs | with_reducible apply canon_foldl | dsimp only | simp only [canon_mk] | split)

theorem canon_faultClearBody (c : Cmd) (s : State) (h_s : s.canon = true) : (faultClearBody c s).canon = true := by
  unfold faultClearBody
  repeat' (first | with_reducible assumption | intro _ | with_reducible apply canon_checked | with_reducible apply canon_refuseIf | with_reducible apply canon_noMore | with_reducible apply canon_clearSource | with_reducible apply canon_ite | with_reducible apply canon_regs | with_reducible apply canon_foldl | with_reducible apply canon_done | with_reducible apply canon_later | with_reducible apply canon_loose | with_reducible apply canon_system | with_reducible apply canon_fail | with_reducible apply resultCanon_ite | dsimp only | simp only [canon_mk] | split)

theorem canon_faultReadBody (c : Cmd) (s : State) (h_s : s.canon = true) : (faultReadBody c s).canon = true := by
  unfold faultReadBody
  repeat' (first | with_reducible assumption | intro _ | with_reducible apply canon_checked | with_reducible apply canon_refuseIf | with_reducible apply canon_noMore | with_reducible apply canon_ite | with_reducible apply canon_regs | with_reducible apply canon_foldl | with_reducible apply canon_done | with_reducible apply canon_later | with_reducible apply canon_loose | with_reducible apply canon_system | with_reducible apply canon_fail | with_reducible apply resultCanon_ite | dsimp only | simp only [canon_mk] | split)

theorem canon_faultHistoryBody (c : Cmd) (s : State) (h_s : s.canon = true) : (faultHistoryBody c s).canon = true := by
  unfold faultHistoryBody
  repeat' (first | with_reducible assumption | intro _ | with_reducible apply canon_checked | with_reducible apply canon_noMore | with_reducible apply canon_ite | with_reducible apply canon_regs | with_reducible apply canon_foldl | with_reducible apply canon_done | with_reducible apply canon_later | with_reducible apply canon_loose | with_reducible apply canon_system | with_reducible apply canon_fail | with_reducible apply resultCanon_ite | dsimp only | simp only [canon_mk] | split)

theorem canon_awlBody (c : Cmd) (s : State) (h_s : s.canon = true) : (awlBody c s).canon = true := by
  unfold awlBody
  repeat' (first | with_reducible assumption | intro _ | with_reducible apply canon_checked | with_reducible apply canon_refuseIf | with_reducible apply canon_noMore | with_reducible apply canon_ite | with_reducible apply canon_regs | with_reducible apply canon_foldl | with_reducible apply canon_done | with_reducible apply canon_later | with_reducible apply canon_loose | with_reducible apply canon_system | with_reducible apply canon_fail | with_reducible apply resultCanon_ite | dsimp only | simp only [canon_mk] | split)

theorem canon_execFaultClear (c : Cmd) (s : State) (h_s : s.canon = true) : resCanon (execFaultClear c s) = true := by
  unfold execFaultClear
  repeat' (first | with_reducible assumption | intro _ | with_reducible apply canon_runCmd | with_reducible apply canon_faultClearBody | with_reducible apply canon_ite | with_reducible apply canon_regs | with_reducible apply canon_foldl | with_reducible apply canon_next | with_reducible apply resCanon_ite | dsimp only | simp only [canon_mk] | split)

theorem canon_execFaultRead (c : Cmd) (s : State) (h_s : s.canon = true) : resCanon (execFaultRead c s) = true := by
  unfold execFaultRead
  repeat' (first | with_reducible assumption | intro _ | with_reducible apply canon_runCmd | with_reducible apply canon_faultReadBody | with_reducible apply canon_ite | with_reducible apply canon_regs | with_reducible apply canon_foldl | with_reducible apply canon_next | with_reducible apply resCanon_ite | dsimp only | simp only [canon_mk] | split)

theorem canon_execFaultHistory (c : Cmd) (s : State) (h_s : s.canon = true) : resCanon (execFaultHistory c s) = true := by
  unfold execFaultHistory
  repeat' (first | with_reducible assumption | intro _ | with_reducible apply canon_runCmd | with_reducible apply canon_faultHistoryBody | with_reducible apply canon_ite | with_reducible apply canon_regs | with_reducible apply canon_foldl | with_reducible apply canon_next | with_reducible apply resCanon_ite | dsimp only | simp only [canon_mk] | split)

theorem canon_execAwl (c : Cmd) (s : State) (h_s : s.canon = true) : resCanon (execAwl c s) = true := by
  unfold execAwl
  repeat' (first | with_reducible assumption | intro _ | with_reducible apply canon_runCmd | with_reducible apply canon_awlBody | with_reducible apply canon_ite | with_reducible apply canon_regs | with_reducible apply canon_foldl | with_reducible apply canon_next | with_reducible apply resCanon_ite | dsimp only | simp only [canon_mk] | split)

theorem canon_execSaddlePacketFail (rxDie : Nat) (txDie : Nat) (wire : Nat) (s : State) (h_s : s.canon = true) : resCanon (execSaddlePacketFail rxDie txDie wire s) = true := by
  unfold execSaddlePacketFail
  repeat' (first | with_reducible assumption | intro _ | with_reducible exact canon_awlTake_eq (by with_reducible assumption) (by with_reducible assumption) | with_reducible apply canon_saddleFail | with_reducible apply canon_awlTake | with_reducible apply canon_ite | with_reducible apply canon_regs | with_reducible apply canon_foldl | with_reducible apply canon_next | with_reducible apply resCanon_ite | dsimp only | simp only [canon_mk] | split)

theorem canon_execVoteDisagreement (die : Nat) (s : State) (h_s : s.canon = true) : resCanon (execVoteDisagreement die s) = true := by
  unfold execVoteDisagreement
  repeat' (first | with_reducible assumption | intro _ | with_reducible apply canon_raise | with_reducible apply canon_ite | with_reducible apply canon_regs | with_reducible apply canon_foldl | with_reducible apply canon_next | with_reducible apply resCanon_ite | dsimp only | simp only [canon_mk] | split)

theorem canon_accLost (s : State) (c : Nat) (h_s : s.canon = true) : (accLost s c).canon = true := by
  unfold accLost
  repeat' (first | with_reducible assumption | intro _ | with_reducible apply canon_raise | with_reducible apply canon_dataLost | with_reducible apply canon_loseSums | with_reducible apply canon_ite | with_reducible apply canon_regs | with_reducible apply canon_foldl | dsimp only | simp only [canon_mk] | split)

theorem canon_ringLost (s : State) (tile : Nat) (line : Nat) (h_s : s.canon = true) : (ringLost s tile line).canon = true := by
  unfold ringLost
  repeat' (first | with_reducible assumption | intro _ | with_reducible apply canon_putEh | with_reducible apply canon_State_setTile | with_reducible apply canon_State_satInc | with_reducible apply canon_raise | with_reducible apply canon_dataLost | with_reducible apply canon_ite | with_reducible apply canon_regs | with_reducible apply canon_foldl | dsimp only | simp only [canon_mk] | split)

theorem canon_extLost (s : State) (tile : Nat) (line : Nat) (h_s : s.canon = true) : (extLost s tile line).canon = true := by
  unfold extLost
  repeat' (first | with_reducible assumption | intro _ | with_reducible apply canon_raise | with_reducible apply canon_loseExt | with_reducible apply canon_ite | with_reducible apply canon_regs | with_reducible apply canon_foldl | dsimp only | simp only [canon_mk] | split)

theorem canon_pieceLost (s : State) (desc : Nat) (tile : Nat) (h_s : s.canon = true) : (pieceLost s desc tile).canon = true := by
  unfold pieceLost
  repeat' (first | with_reducible assumption | intro _ | with_reducible apply canon_raise | with_reducible apply canon_losePiece | with_reducible apply canon_ite | with_reducible apply canon_regs | with_reducible apply canon_foldl | dsimp only | simp only [canon_mk] | split)

theorem canon_storeLost (s : State) (tile : Nat) (i : Nat) (injected : Bool) (h_s : s.canon = true) : (storeLost s tile i injected).canon = true := by
  unfold storeLost
  repeat' (first | with_reducible assumption | intro _ | with_reducible apply canon_raise | with_reducible apply canon_dataLost | with_reducible apply canon_State_setTile | with_reducible apply canon_ite | with_reducible apply canon_regs | with_reducible apply canon_foldl | dsimp only | simp only [canon_mk] | split)

theorem canon_anchorLost (s : State) (die : Nat) (i : Nat) (h_s : s.canon = true) : (anchorLost s die i).canon = true := by
  unfold anchorLost
  repeat' (first | with_reducible assumption | intro _ | with_reducible apply canon_State_satInc | with_reducible apply canon_State_put | with_reducible apply canon_raise | with_reducible apply canon_ite | with_reducible apply canon_regs | with_reducible apply canon_foldl | dsimp only | simp only [canon_mk] | split)

theorem canon_blockBad (s : State) (n : Nat) (block : Nat) (injected : Bool) (h_s : s.canon = true) : (blockBad s n block injected).canon = true := by
  unfold blockBad
  repeat' (first | with_reducible assumption | intro _ | with_reducible apply canon_loseBlock | with_reducible apply canon_raise | with_reducible apply canon_ite | with_reducible apply canon_regs | with_reducible apply canon_foldl | dsimp only | simp only [canon_mk] | split)

theorem canon_putFrameAt (s : State) (g : Nat) (i : Nat) (f : IFrame → IFrame) (h_s : s.canon = true) : (putFrameAt s g i f).canon = true := by
  unfold putFrameAt
  repeat' (first | with_reducible assumption | intro _ | with_reducible apply canon_putFrame | with_reducible apply canon_ite | with_reducible apply canon_regs | with_reducible apply canon_foldl | dsimp only | simp only [canon_mk] | split)

theorem canon_scrubFrame (s : State) (g : Nat) (i : Nat) (injected : Bool) (h_s : s.canon = true) : (scrubFrame s g i injected).canon = true := by
  unfold scrubFrame
  repeat' (first | with_reducible assumption | intro _ | with_reducible apply canon_badFrame | with_reducible apply canon_dropItems | with_reducible apply canon_putFrame | with_reducible apply canon_ite | with_reducible apply canon_regs | with_reducible apply canon_foldl | dsimp only | simp only [canon_mk] | split)

theorem canon_scrubRecord (s : State) (q : Nat) (i : Nat) (injected : Bool) (h_s : s.canon = true) : (scrubRecord s q i injected).canon = true := by
  unfold scrubRecord
  repeat' (first | with_reducible assumption | intro _ | with_reducible apply canon_hqSettle | with_reducible apply canon_badRecord | with_reducible apply canon_ite | with_reducible apply canon_regs | with_reducible apply canon_foldl | dsimp only | simp only [canon_mk] | split)

theorem canon_scrubCorrect (s : State) (place : Nat) (idx : Nat) (h_s : s.canon = true) : (scrubCorrect s place idx).canon = true := by
  unfold scrubCorrect
  repeat' (first | with_reducible assumption | intro _ | with_reducible apply canon_putFrameAt | with_reducible apply canon_countEcc | with_reducible apply canon_ite | with_reducible apply canon_regs | with_reducible apply canon_foldl | dsimp only | simp only [canon_mk] | split)

theorem canon_scrubBad (s : State) (place : Nat) (idx : Nat) (injected : Bool) (h_s : s.canon = true) : (scrubBad s place idx injected).canon = true := by
  unfold scrubBad
  repeat' (first | with_reducible assumption | intro _ | with_reducible apply canon_scrubFrame | with_reducible apply canon_scrubRecord | with_reducible apply canon_ringLost | with_reducible apply canon_extLost | with_reducible apply canon_accLost | with_reducible apply canon_storeLost | with_reducible apply canon_tableBad | with_reducible apply canon_setBad | with_reducible apply canon_blockBad | with_reducible apply canon_pieceLost | with_reducible apply canon_elasticLost | with_reducible apply canon_anchorLost | with_reducible apply canon_ite | with_reducible apply canon_regs | with_reducible apply canon_foldl | dsimp only | simp only [canon_mk] | split)

theorem canon_execScrubRead (place : Nat) (idx : Nat) (uncorrectable : Bool) (s : State) (h_s : s.canon = true) : resCanon (execScrubRead place idx uncorrectable s) = true := by
  unfold execScrubRead
  repeat' (first | with_reducible assumption | intro _ | with_reducible exact canon_awlTake_eq (by with_reducible assumption) (by with_reducible assumption) | with_reducible apply canon_scrubBad | with_reducible apply canon_scrubCorrect | with_reducible apply canon_awlTake | with_reducible apply canon_ite | with_reducible apply canon_regs | with_reducible apply canon_foldl | with_reducible apply canon_next | with_reducible apply resCanon_ite | dsimp only | simp only [canon_mk] | split)

end Sys2Proof.Machine
end

