-- ==== Sys2Proof/Laws/CanonReadWrite.lean ====
section
/-! SUPPORT. The canonical form of the register store is kept by Machine/ReadWrite.lean. -/

set_option linter.all false

namespace Sys2Proof.Machine

theorem canon_domainRead (s : State) (d : Nat) (h_s : s.canon = true) : (domainRead s d).canon = true := by
  unfold domainRead
  repeat' (first | with_reducible assumption | intro _ | with_reducible apply canon_State_put | with_reducible apply canon_ite | with_reducible apply canon_regs | with_reducible apply canon_foldl | dsimp only | simp only [canon_mk] | split)

theorem canon_settleRead (s : State) (obj : Nat) (sel : Nat) (idx : Nat) (h_s : s.canon = true) : (settleRead s obj sel idx).canon = true := by
  unfold settleRead
  repeat' (first | with_reducible assumption | intro _ | with_reducible apply canon_gateSettle | with_reducible apply canon_armSettle | with_reducible apply canon_testSettle | with_reducible apply canon_pauseSettle | with_reducible apply canon_domainRead | with_reducible apply canon_ite | with_reducible apply canon_regs | with_reducible apply canon_foldl | dsimp only | simp only [canon_mk] | split)

theorem canon_readBody (staged : Bool) (c : Cmd) (s : State) (h_s : s.canon = true) : (readBody staged c s).canon = true := by
  unfold readBody
  repeat' (first | with_reducible assumption | intro _ | with_reducible apply canon_checked | with_reducible apply canon_refuseIf | with_reducible apply canon_noMore | with_reducible apply canon_settleRead | with_reducible apply canon_ite | with_reducible apply canon_regs | with_reducible apply canon_foldl | with_reducible apply canon_done | with_reducible apply canon_later | with_reducible apply canon_loose | with_reducible apply canon_system | with_reducible apply canon_fail | with_reducible apply resultCanon_ite | dsimp only | simp only [canon_mk] | split)

theorem canon_execReadObjLive (c : Cmd) (s : State) (h_s : s.canon = true) : resCanon (execReadObjLive c s) = true := by
  unfold execReadObjLive
  repeat' (first | with_reducible assumption | intro _ | with_reducible apply canon_runCmd | with_reducible apply canon_readBody | with_reducible apply canon_ite | with_reducible apply canon_regs | with_reducible apply canon_foldl | with_reducible apply canon_next | with_reducible apply resCanon_ite | dsimp only | simp only [canon_mk] | split)

theorem canon_execReadObjStaged (c : Cmd) (s : State) (h_s : s.canon = true) : resCanon (execReadObjStaged c s) = true := by
  unfold execReadObjStaged
  repeat' (first | with_reducible assumption | intro _ | with_reducible apply canon_runCmd | with_reducible apply canon_readBody | with_reducible apply canon_ite | with_reducible apply canon_regs | with_reducible apply canon_foldl | with_reducible apply canon_next | with_reducible apply resCanon_ite | dsimp only | simp only [canon_mk] | split)

theorem canon_refuseAt (i : Option Nat) (k : Result) (h_k : k.canon = true) : (refuseAt i k).canon = true := by
  unfold refuseAt
  repeat' (first | with_reducible assumption | intro _ | with_reducible apply canon_ite | with_reducible apply canon_regs | with_reducible apply canon_foldl | with_reducible apply canon_done | with_reducible apply canon_later | with_reducible apply canon_loose | with_reducible apply canon_system | with_reducible apply canon_fail | with_reducible apply resultCanon_ite | dsimp only | simp only [canon_mk] | split)

theorem canon_clearFields (s : State) (fs : List Field) (idx : Nat) (h_s : s.canon = true) : (clearFields s fs idx).canon = true := by
  unfold clearFields
  repeat' (first | with_reducible assumption | intro _ | with_reducible apply canon_State_put | with_reducible apply canon_ite | with_reducible apply canon_regs | with_reducible apply canon_foldl | dsimp only | simp only [canon_mk] | split)

theorem canon_w1cEffect (s : State) (obj : Nat) (sel : Nat) (idx : Nat) (b : Word) (h_s : s.canon = true) : (w1cEffect s obj sel idx b).canon = true := by
  unfold w1cEffect
  repeat' (first | with_reducible assumption | intro _ | with_reducible apply canon_State_setWord | with_reducible apply canon_clearFields | with_reducible apply canon_ite | with_reducible apply canon_regs | with_reducible apply canon_foldl | dsimp only | simp only [canon_mk] | split)

theorem canon_applyLive (s : State) (obj : Nat) (sel : Nat) (idx : Nat) (mask : Word) (data : Word) (h_s : s.canon = true) : (applyLive s obj sel idx mask data).canon = true := by
  unfold applyLive
  repeat' (first | with_reducible assumption | intro _ | with_reducible apply canon_w1cEffect | with_reducible apply canon_State_setWord | with_reducible apply canon_putInForce | with_reducible apply canon_keepCopies | with_reducible apply canon_ite | with_reducible apply canon_regs | with_reducible apply canon_foldl | dsimp only | simp only [canon_mk] | split)

theorem canon_applyStaged (s : State) (part : Nat) (obj : Nat) (sel : Nat) (idx : Nat) (mask : Word) (data : Word) (h_s : s.canon = true) : (applyStaged s part obj sel idx mask data).canon = true := by
  unfold applyStaged
  repeat' (first | with_reducible assumption | intro _ | with_reducible apply canon_ite | with_reducible apply canon_regs | with_reducible apply canon_foldl | dsimp only | simp only [canon_mk] | split)

theorem canon_writeChecks (live : Bool) (c : Cmd) (d : Desc) (mask : Word) (data : List Word) (s : State) (k : Result) (h_s : s.canon = true) (h_k : k.canon = true) : (writeChecks live c d mask data s k).canon = true := by
  unfold writeChecks
  repeat' (first | with_reducible assumption | intro _ | with_reducible apply canon_refuseAt | with_reducible apply canon_noMore | with_reducible apply canon_refuseIf | with_reducible apply canon_ite | with_reducible apply canon_regs | with_reducible apply canon_foldl | with_reducible apply canon_done | with_reducible apply canon_later | with_reducible apply canon_loose | with_reducible apply canon_system | with_reducible apply canon_fail | with_reducible apply resultCanon_ite | dsimp only | simp only [canon_mk] | split)

theorem canon_writeBody (live : Bool) (c : Cmd) (s : State) (h_s : s.canon = true) : (writeBody live c s).canon = true := by
  unfold writeBody
  repeat' (first | with_reducible assumption | intro _ | with_reducible apply canon_refuseIf | with_reducible apply canon_writeChecks | with_reducible apply canon_applyLive | with_reducible apply canon_applyStaged | with_reducible apply canon_ite | with_reducible apply canon_regs | with_reducible apply canon_foldl | with_reducible apply canon_done | with_reducible apply canon_later | with_reducible apply canon_loose | with_reducible apply canon_system | with_reducible apply canon_fail | with_reducible apply resultCanon_ite | dsimp only | simp only [canon_mk] | split)

theorem canon_execWriteStaged (c : Cmd) (s : State) (h_s : s.canon = true) : resCanon (execWriteStaged c s) = true := by
  unfold execWriteStaged
  repeat' (first | with_reducible assumption | intro _ | with_reducible apply canon_runCmd | with_reducible apply canon_writeBody | with_reducible apply canon_ite | with_reducible apply canon_regs | with_reducible apply canon_foldl | with_reducible apply canon_next | with_reducible apply resCanon_ite | dsimp only | simp only [canon_mk] | split)

theorem canon_execWriteLive (c : Cmd) (s : State) (h_s : s.canon = true) : resCanon (execWriteLive c s) = true := by
  unfold execWriteLive
  repeat' (first | with_reducible assumption | intro _ | with_reducible apply canon_runCmd | with_reducible apply canon_writeBody | with_reducible apply canon_ite | with_reducible apply canon_regs | with_reducible apply canon_foldl | with_reducible apply canon_next | with_reducible apply resCanon_ite | dsimp only | simp only [canon_mk] | split)

theorem canon_writeOne (c : Cmd) (obj : Nat) (sel : Nat) (idx : Nat) (mask : Word) (data : Word) (s : State) (h_s : s.canon = true) : resCanon (writeOne c obj sel idx mask data s) = true := by
  unfold writeOne
  repeat' (first | with_reducible assumption | intro _ | with_reducible apply canon_runCmd | with_reducible apply canon_writeBody | with_reducible apply canon_ite | with_reducible apply canon_regs | with_reducible apply canon_foldl | with_reducible apply canon_next | with_reducible apply resCanon_ite | dsimp only | simp only [canon_mk] | split)

theorem canon_execLaneStatusClr (c : Cmd) (lane : Nat) (s : State) (h_s : s.canon = true) : resCanon (execLaneStatusClr c lane s) = true := by
  unfold execLaneStatusClr
  repeat' (first | with_reducible assumption | intro _ | with_reducible apply canon_writeOne | with_reducible apply canon_ite | with_reducible apply canon_regs | with_reducible apply canon_foldl | with_reducible apply canon_next | with_reducible apply resCanon_ite | dsimp only | simp only [canon_mk] | split)

theorem canon_execLaneTimingClr (c : Cmd) (lane : Nat) (s : State) (h_s : s.canon = true) : resCanon (execLaneTimingClr c lane s) = true := by
  unfold execLaneTimingClr
  repeat' (first | with_reducible assumption | intro _ | with_reducible apply canon_writeOne | with_reducible apply canon_ite | with_reducible apply canon_regs | with_reducible apply canon_foldl | with_reducible apply canon_next | with_reducible apply resCanon_ite | dsimp only | simp only [canon_mk] | split)

theorem canon_execPrecisionStatusClr (c : Cmd) (comparator : Nat) (s : State) (h_s : s.canon = true) : resCanon (execPrecisionStatusClr c comparator s) = true := by
  unfold execPrecisionStatusClr
  repeat' (first | with_reducible assumption | intro _ | with_reducible apply canon_writeOne | with_reducible apply canon_ite | with_reducible apply canon_regs | with_reducible apply canon_foldl | with_reducible apply canon_next | with_reducible apply resCanon_ite | dsimp only | simp only [canon_mk] | split)

theorem canon_execChanStatusClr (c : Cmd) (channel : Nat) (s : State) (h_s : s.canon = true) : resCanon (execChanStatusClr c channel s) = true := by
  unfold execChanStatusClr
  repeat' (first | with_reducible assumption | intro _ | with_reducible apply canon_writeOne | with_reducible apply canon_ite | with_reducible apply canon_regs | with_reducible apply canon_foldl | with_reducible apply canon_next | with_reducible apply resCanon_ite | dsimp only | simp only [canon_mk] | split)

theorem canon_execFilterStatusClr (c : Cmd) (channel : Nat) (s : State) (h_s : s.canon = true) : resCanon (execFilterStatusClr c channel s) = true := by
  unfold execFilterStatusClr
  repeat' (first | with_reducible assumption | intro _ | with_reducible apply canon_writeOne | with_reducible apply canon_ite | with_reducible apply canon_regs | with_reducible apply canon_foldl | with_reducible apply canon_next | with_reducible apply resCanon_ite | dsimp only | simp only [canon_mk] | split)

theorem canon_execGroupMergeClr (c : Cmd) (lane : Nat) (s : State) (h_s : s.canon = true) : resCanon (execGroupMergeClr c lane s) = true := by
  unfold execGroupMergeClr
  repeat' (first | with_reducible assumption | intro _ | with_reducible apply canon_writeOne | with_reducible apply canon_ite | with_reducible apply canon_regs | with_reducible apply canon_foldl | with_reducible apply canon_next | with_reducible apply resCanon_ite | dsimp only | simp only [canon_mk] | split)

theorem canon_execTileMergeClr (c : Cmd) (tile : Nat) (s : State) (h_s : s.canon = true) : resCanon (execTileMergeClr c tile s) = true := by
  unfold execTileMergeClr
  repeat' (first | with_reducible assumption | intro _ | with_reducible apply canon_writeOne | with_reducible apply canon_ite | with_reducible apply canon_regs | with_reducible apply canon_foldl | with_reducible apply canon_next | with_reducible apply resCanon_ite | dsimp only | simp only [canon_mk] | split)

theorem canon_execTileHistoryClr (c : Cmd) (tile : Nat) (s : State) (h_s : s.canon = true) : resCanon (execTileHistoryClr c tile s) = true := by
  unfold execTileHistoryClr
  repeat' (first | with_reducible assumption | intro _ | with_reducible apply canon_writeOne | with_reducible apply canon_ite | with_reducible apply canon_regs | with_reducible apply canon_foldl | with_reducible apply canon_next | with_reducible apply resCanon_ite | dsimp only | simp only [canon_mk] | split)

theorem canon_execTrigMissedClr (c : Cmd) (idx : Nat) (s : State) (h_s : s.canon = true) : resCanon (execTrigMissedClr c idx s) = true := by
  unfold execTrigMissedClr
  repeat' (first | with_reducible assumption | intro _ | with_reducible apply canon_writeOne | with_reducible apply canon_ite | with_reducible apply canon_regs | with_reducible apply canon_foldl | with_reducible apply canon_next | with_reducible apply resCanon_ite | dsimp only | simp only [canon_mk] | split)

theorem canon_execSegStatusClr (c : Cmd) (partition : Nat) (s : State) (h_s : s.canon = true) : resCanon (execSegStatusClr c partition s) = true := by
  unfold execSegStatusClr
  repeat' (first | with_reducible assumption | intro _ | with_reducible apply canon_writeOne | with_reducible apply canon_ite | with_reducible apply canon_regs | with_reducible apply canon_foldl | with_reducible apply canon_next | with_reducible apply resCanon_ite | dsimp only | simp only [canon_mk] | split)

theorem canon_execQueueIngressClr (c : Cmd) (lane : Nat) (s : State) (h_s : s.canon = true) : resCanon (execQueueIngressClr c lane s) = true := by
  unfold execQueueIngressClr
  repeat' (first | with_reducible assumption | intro _ | with_reducible apply canon_writeOne | with_reducible apply canon_ite | with_reducible apply canon_regs | with_reducible apply canon_foldl | with_reducible apply canon_next | with_reducible apply resCanon_ite | dsimp only | simp only [canon_mk] | split)

theorem canon_execQueueIngressFlagClear (c : Cmd) (lane : Nat) (flags : Word) (s : State) (h_s : s.canon = true) : resCanon (execQueueIngressFlagClear c lane flags s) = true := by
  unfold execQueueIngressFlagClear
  repeat' (first | with_reducible assumption | intro _ | with_reducible apply canon_writeOne | with_reducible apply canon_ite | with_reducible apply canon_regs | with_reducible apply canon_foldl | with_reducible apply canon_next | with_reducible apply resCanon_ite | dsimp only | simp only [canon_mk] | split)

theorem canon_execQueueHostClr (c : Cmd) (queue : Nat) (s : State) (h_s : s.canon = true) : resCanon (execQueueHostClr c queue s) = true := by
  unfold execQueueHostClr
  repeat' (first | with_reducible assumption | intro _ | with_reducible apply canon_writeOne | with_reducible apply canon_ite | with_reducible apply canon_regs | with_reducible apply canon_foldl | with_reducible apply canon_next | with_reducible apply resCanon_ite | dsimp only | simp only [canon_mk] | split)

theorem canon_execQueueHostFlagClear (c : Cmd) (queue : Nat) (flags : Word) (s : State) (h_s : s.canon = true) : resCanon (execQueueHostFlagClear c queue flags s) = true := by
  unfold execQueueHostFlagClear
  repeat' (first | with_reducible assumption | intro _ | with_reducible apply canon_writeOne | with_reducible apply canon_ite | with_reducible apply canon_regs | with_reducible apply canon_foldl | with_reducible apply canon_next | with_reducible apply resCanon_ite | dsimp only | simp only [canon_mk] | split)

theorem canon_execQueueAnchorClr (c : Cmd) (die : Nat) (s : State) (h_s : s.canon = true) : resCanon (execQueueAnchorClr c die s) = true := by
  unfold execQueueAnchorClr
  repeat' (first | with_reducible assumption | intro _ | with_reducible apply canon_writeOne | with_reducible apply canon_ite | with_reducible apply canon_regs | with_reducible apply canon_foldl | with_reducible apply canon_next | with_reducible apply resCanon_ite | dsimp only | simp only [canon_mk] | split)

theorem canon_execPartCountersClr (c : Cmd) (partition : Nat) (s : State) (h_s : s.canon = true) : resCanon (execPartCountersClr c partition s) = true := by
  unfold execPartCountersClr
  repeat' (first | with_reducible assumption | intro _ | with_reducible apply canon_writeOne | with_reducible apply canon_ite | with_reducible apply canon_regs | with_reducible apply canon_foldl | with_reducible apply canon_next | with_reducible apply resCanon_ite | dsimp only | simp only [canon_mk] | split)

theorem canon_execFaultsrcGlobalClr (c : Cmd) (s : State) (h_s : s.canon = true) : resCanon (execFaultsrcGlobalClr c s) = true := by
  unfold execFaultsrcGlobalClr
  repeat' (first | with_reducible assumption | intro _ | with_reducible apply canon_writeOne | with_reducible apply canon_ite | with_reducible apply canon_regs | with_reducible apply canon_foldl | with_reducible apply canon_next | with_reducible apply resCanon_ite | dsimp only | simp only [canon_mk] | split)

theorem canon_execFaultsrcSourceClr (c : Cmd) (source : Nat) (s : State) (h_s : s.canon = true) : resCanon (execFaultsrcSourceClr c source s) = true := by
  unfold execFaultsrcSourceClr
  repeat' (first | with_reducible assumption | intro _ | with_reducible apply canon_writeOne | with_reducible apply canon_ite | with_reducible apply canon_regs | with_reducible apply canon_foldl | with_reducible apply canon_next | with_reducible apply resCanon_ite | dsimp only | simp only [canon_mk] | split)

theorem canon_execFaultNSw (c : Cmd) (hold : Bool) (s : State) (h_s : s.canon = true) : resCanon (execFaultNSw c hold s) = true := by
  unfold execFaultNSw
  repeat' (first | with_reducible assumption | intro _ | with_reducible apply canon_writeOne | with_reducible apply canon_ite | with_reducible apply canon_regs | with_reducible apply canon_foldl | with_reducible apply canon_next | with_reducible apply resCanon_ite | dsimp only | simp only [canon_mk] | split)

theorem canon_execPowerStatusClr (c : Cmd) (domain : Nat) (s : State) (h_s : s.canon = true) : resCanon (execPowerStatusClr c domain s) = true := by
  unfold execPowerStatusClr
  repeat' (first | with_reducible assumption | intro _ | with_reducible apply canon_writeOne | with_reducible apply canon_ite | with_reducible apply canon_regs | with_reducible apply canon_foldl | with_reducible apply canon_next | with_reducible apply resCanon_ite | dsimp only | simp only [canon_mk] | split)

end Sys2Proof.Machine
end

