-- ==== Sys2Proof/Laws/CanonCinch.lean ====
section
/-! SUPPORT. The canonical form of the register store is kept by Machine/Cinch.lean. -/

set_option linter.all false

namespace Sys2Proof.Machine

theorem canon_discard (s : State) (p : Nat) (h_s : s.canon = true) : (discard s p).canon = true := by
  unfold discard
  repeat' (first | with_reducible assumption | intro _ | with_reducible apply canon_ite | with_reducible apply canon_regs | with_reducible apply canon_foldl | dsimp only | simp only [canon_mk] | split)

theorem canon_discardBody (c : Cmd) (s : State) (h_s : s.canon = true) : (discardBody c s).canon = true := by
  unfold discardBody
  repeat' (first | with_reducible assumption | intro _ | with_reducible apply canon_checked | with_reducible apply canon_noMore | with_reducible apply canon_discard | with_reducible apply canon_ite | with_reducible apply canon_regs | with_reducible apply canon_foldl | with_reducible apply canon_done | with_reducible apply canon_later | with_reducible apply canon_loose | with_reducible apply canon_system | with_reducible apply canon_fail | with_reducible apply resultCanon_ite | dsimp only | simp only [canon_mk] | split)

theorem canon_execDiscardStaged (c : Cmd) (s : State) (h_s : s.canon = true) : resCanon (execDiscardStaged c s) = true := by
  unfold execDiscardStaged
  repeat' (first | with_reducible assumption | intro _ | with_reducible apply canon_runCmd | with_reducible apply canon_discardBody | with_reducible apply canon_ite | with_reducible apply canon_regs | with_reducible apply canon_foldl | with_reducible apply canon_next | with_reducible apply resCanon_ite | dsimp only | simp only [canon_mk] | split)

theorem canon_cinchBody (c : Cmd) (s : State) (h_s : s.canon = true) : (cinchBody c s).canon = true := by
  unfold cinchBody
  repeat' (first | with_reducible assumption | intro _ | with_reducible apply canon_checked | with_reducible apply canon_refuseIf | with_reducible apply canon_noMore | with_reducible apply canon_ite | with_reducible apply canon_regs | with_reducible apply canon_foldl | with_reducible apply canon_done | with_reducible apply canon_later | with_reducible apply canon_loose | with_reducible apply canon_system | with_reducible apply canon_fail | with_reducible apply resultCanon_ite | dsimp only | simp only [canon_mk] | split)

theorem canon_execCinch (c : Cmd) (s : State) (h_s : s.canon = true) : resCanon (execCinch c s) = true := by
  unfold execCinch
  repeat' (first | with_reducible assumption | intro _ | with_reducible apply canon_runCmd | with_reducible apply canon_cinchBody | with_reducible apply canon_ite | with_reducible apply canon_regs | with_reducible apply canon_foldl | with_reducible apply canon_next | with_reducible apply resCanon_ite | dsimp only | simp only [canon_mk] | split)

theorem canon_dropJob (s : State) (h_s : s.canon = true) : (dropJob s).canon = true := by
  unfold dropJob
  repeat' (first | with_reducible assumption | intro _ | with_reducible apply canon_ite | with_reducible apply canon_regs | with_reducible apply canon_foldl | dsimp only | simp only [canon_mk] | split)

theorem canon_setJob (s : State) (j : CinchJob) (h_s : s.canon = true) : (setJob s j).canon = true := by
  unfold setJob
  repeat' (first | with_reducible assumption | intro _ | with_reducible apply canon_ite | with_reducible apply canon_regs | with_reducible apply canon_foldl | dsimp only | simp only [canon_mk] | split)

theorem canon_execCinchCheckEnd (t : Nat) (s : State) (h_s : s.canon = true) : resCanon (execCinchCheckEnd t s) = true := by
  unfold execCinchCheckEnd
  repeat' (first | with_reducible assumption | intro _ | with_reducible apply canon_advanceTo | with_reducible apply canon_finish | with_reducible apply canon_dropJob | with_reducible apply canon_setJob | with_reducible apply canon_ite | with_reducible apply canon_regs | with_reducible apply canon_foldl | with_reducible apply canon_next | with_reducible apply resCanon_ite | dsimp only | simp only [canon_mk] | split)

theorem canon_cinchReply (s : State) (c : Cmd) (words : Nat) (full : Nat) (h_s : s.canon = true) : (cinchReply s c words full).canon = true := by
  unfold cinchReply
  repeat' (first | with_reducible assumption | intro _ | with_reducible apply canon_finish | with_reducible apply canon_ite | with_reducible apply canon_regs | with_reducible apply canon_foldl | dsimp only | simp only [canon_mk] | split)

theorem canon_execCinchGo (t : Nat) (s : State) (h_s : s.canon = true) : resCanon (execCinchGo t s) = true := by
  unfold execCinchGo
  repeat' (first | with_reducible assumption | intro _ | with_reducible apply canon_advanceTo | with_reducible apply canon_linkDelivers | with_reducible apply canon_discard | with_reducible apply canon_dropJob | with_reducible apply canon_cinchReply | with_reducible apply canon_ite | with_reducible apply canon_regs | with_reducible apply canon_foldl | with_reducible apply canon_next | with_reducible apply resCanon_ite | dsimp only | simp only [canon_mk] | split)

theorem canon_execCinchCancel (s : State) (h_s : s.canon = true) : resCanon (execCinchCancel s) = true := by
  unfold execCinchCancel
  repeat' (first | with_reducible assumption | intro _ | with_reducible apply canon_advanceFull | with_reducible apply canon_finish | with_reducible apply canon_dropJob | with_reducible apply canon_setJob | with_reducible apply canon_ite | with_reducible apply canon_regs | with_reducible apply canon_foldl | with_reducible apply canon_next | with_reducible apply resCanon_ite | dsimp only | simp only [canon_mk] | split)

theorem canon_cinchWord (full : Nat) (s : State) (e : Nat × Word) (h_s : s.canon = true) : (cinchWord full s e).canon = true := by
  unfold cinchWord
  repeat' (first | with_reducible assumption | intro _ | with_reducible apply canon_State_setCopies | with_reducible apply canon_putInForce | with_reducible apply canon_ite | with_reducible apply canon_regs | with_reducible apply canon_foldl | dsimp only | simp only [canon_mk] | split)

theorem canon_execCinchBoundary (s : State) (h_s : s.canon = true) : resCanon (execCinchBoundary s) = true := by
  unfold execCinchBoundary
  repeat' (first | with_reducible assumption | intro _ | with_reducible apply canon_advanceFull | with_reducible apply canon_cinchWord | with_reducible apply canon_cinchReply | with_reducible apply canon_ite | with_reducible apply canon_regs | with_reducible apply canon_foldl | with_reducible apply canon_next | with_reducible apply resCanon_ite | dsimp only | simp only [canon_mk] | split)

end Sys2Proof.Machine
end

