-- ==== Sys2Proof/Laws/CanonBoot.lean ====
section
/-! SUPPORT. The canonical form of the register store is kept by Machine/Boot.lean. -/

set_option linter.all false

namespace Sys2Proof.Machine

theorem canon_State_setImage (s : State) (i : Nat) (x : Image) (h_s : s.canon = true) : (State.setImage s i x).canon = true := by
  unfold State.setImage
  repeat' (first | with_reducible assumption | intro _ | with_reducible apply canon_ite | with_reducible apply canon_regs | with_reducible apply canon_foldl | dsimp only | simp only [canon_mk] | split)

theorem canon_resetKeeping (s : State) (low : Bool) : (resetKeeping s low).canon = true := rfl

theorem canon_pulse (lowTicks : Nat) (least : Nat) (sure : Nat) (s : State) (k : State → State) (h_s : s.canon = true) (h_k : ∀ (x0 : State), x0.canon = true → (k x0).canon = true) : (pulse lowTicks least sure s k).canon = true := by
  unfold pulse
  repeat' (first | with_reducible assumption | intro _ | with_reducible apply h_k | with_reducible apply canon_ite | with_reducible apply canon_regs | with_reducible apply canon_foldl | dsimp only | simp only [canon_mk] | split)

theorem canon_execResetRelease (s : State) (h_s : s.canon = true) : resCanon (execResetRelease s) = true := by
  unfold execResetRelease
  repeat' (first | with_reducible assumption | intro _ | with_reducible apply canon_resetKeeping | with_reducible apply canon_ite | with_reducible apply canon_regs | with_reducible apply canon_foldl | with_reducible apply canon_next | with_reducible apply resCanon_ite | dsimp only | simp only [canon_mk] | split)

theorem canon_sendBoot (s : State) (os : List Out) (h_s : s.canon = true) : (sendBoot s os).canon = true := by
  unfold sendBoot
  repeat' (first | with_reducible assumption | intro _ | with_reducible apply canon_ite | with_reducible apply canon_regs | with_reducible apply canon_foldl | dsimp only | simp only [canon_mk] | split)

theorem canon_appendEntry (s : State) (w : Word) (h_s : s.canon = true) : (appendEntry s w).canon = true := by
  unfold appendEntry
  repeat' (first | with_reducible assumption | intro _ | with_reducible apply canon_sendBoot | with_reducible apply canon_State_put | with_reducible apply canon_ite | with_reducible apply canon_regs | with_reducible apply canon_foldl | dsimp only | simp only [canon_mk] | split)

theorem canon_appendAll (s : State) (h_s : s.canon = true) : (appendAll s).canon = true := by
  unfold appendAll
  repeat' (first | with_reducible assumption | intro _ | with_reducible apply canon_appendEntry | with_reducible apply canon_ite | with_reducible apply canon_regs | with_reducible apply canon_foldl | dsimp only | simp only [canon_mk] | split)

theorem canon_execDirectoryRewrite (s : State) (h_s : s.canon = true) : resCanon (execDirectoryRewrite s) = true := by
  unfold execDirectoryRewrite
  repeat' (first | with_reducible assumption | intro _ | with_reducible apply canon_appendAll | with_reducible apply canon_sendBoot | with_reducible apply canon_ite | with_reducible apply canon_regs | with_reducible apply canon_foldl | with_reducible apply canon_next | with_reducible apply resCanon_ite | dsimp only | simp only [canon_mk] | split)

theorem canon_applyEntry (s : State) (w : Word) (h_s : s.canon = true) : (applyEntry s w).canon = true := by
  unfold applyEntry
  repeat' (first | with_reducible assumption | intro _ | with_reducible apply canon_State_put | with_reducible apply canon_State_setLane | with_reducible apply canon_calGone | with_reducible apply canon_State_setWord | with_reducible apply canon_State_setIng | with_reducible apply canon_State_setHq | with_reducible apply canon_ite | with_reducible apply canon_regs | with_reducible apply canon_foldl | dsimp only | simp only [canon_mk] | split)

theorem canon_setPhase (s : State) (p : Nat) (h_s : s.canon = true) : (setPhase s p).canon = true := by
  unfold setPhase
  repeat' (first | with_reducible assumption | intro _ | with_reducible apply canon_State_put | with_reducible apply canon_ite | with_reducible apply canon_regs | with_reducible apply canon_foldl | dsimp only | simp only [canon_mk] | split)

theorem canon_enterRecovery (s : State) (h_s : s.canon = true) : (enterRecovery s).canon = true := by
  unfold enterRecovery
  repeat' (first | with_reducible assumption | intro _ | with_reducible apply canon_setPhase | with_reducible apply canon_State_put | with_reducible apply canon_ite | with_reducible apply canon_regs | with_reducible apply canon_foldl | dsimp only | simp only [canon_mk] | split)

theorem canon_loadSlot (s : State) (i : Nat) (h_s : s.canon = true) : (loadSlot s i).canon = true := by
  unfold loadSlot
  repeat' (first | with_reducible assumption | intro _ | with_reducible apply canon_sendBoot | with_reducible apply canon_setPhase | with_reducible apply canon_ite | with_reducible apply canon_regs | with_reducible apply canon_foldl | dsimp only | simp only [canon_mk] | split)

theorem canon_startImage (s : State) (h_s : s.canon = true) : (startImage s).canon = true := by
  unfold startImage
  repeat' (first | with_reducible assumption | intro _ | with_reducible apply canon_sendBoot | with_reducible apply canon_State_put | with_reducible apply canon_loadSlot | with_reducible apply canon_enterRecovery | with_reducible apply canon_ite | with_reducible apply canon_regs | with_reducible apply canon_foldl | dsimp only | simp only [canon_mk] | split)

theorem canon_applyFuses (s : State) (h_s : s.canon = true) : (applyFuses s).canon = true := by
  unfold applyFuses
  repeat' (first | with_reducible assumption | intro _ | with_reducible apply canon_applyEntry | with_reducible apply canon_ite | with_reducible apply canon_regs | with_reducible apply canon_foldl | dsimp only | simp only [canon_mk] | split)

theorem canon_startEngines (s : State) (h_s : s.canon = true) : (startEngines s).canon = true := by
  unfold startEngines
  repeat' (first | with_reducible assumption | intro _ | with_reducible apply canon_applyEntry | with_reducible apply canon_applyFuses | with_reducible apply canon_State_put | with_reducible apply canon_selSettle | with_reducible apply canon_setPhase | with_reducible apply canon_ite | with_reducible apply canon_regs | with_reducible apply canon_foldl | dsimp only | simp only [canon_mk] | split)

theorem canon_startDomains (s : State) (railsOk : Nat) (h_s : s.canon = true) : (startDomains s railsOk).canon = true := by
  unfold startDomains
  repeat' (first | with_reducible assumption | intro _ | with_reducible apply canon_State_put | with_reducible apply canon_State_satInc | with_reducible apply canon_domainStart | with_reducible apply canon_setPhase | with_reducible apply canon_sendCap | with_reducible apply canon_ite | with_reducible apply canon_regs | with_reducible apply canon_foldl | dsimp only | simp only [canon_mk] | split)

theorem canon_showRails (s : State) (railsOk : Nat) (h_s : s.canon = true) : (showRails s railsOk).canon = true := by
  unfold showRails
  repeat' (first | with_reducible assumption | intro _ | with_reducible apply canon_State_put | with_reducible apply canon_ite | with_reducible apply canon_regs | with_reducible apply canon_foldl | dsimp only | simp only [canon_mk] | split)

theorem canon_execStartupPhase (railsOk : Nat) (s : State) (h_s : s.canon = true) : resCanon (execStartupPhase railsOk s) = true := by
  unfold execStartupPhase
  repeat' (first | with_reducible assumption | intro _ | with_reducible apply canon_showRails | with_reducible apply canon_setPhase | with_reducible apply canon_sendBoot | with_reducible apply canon_State_put | with_reducible apply canon_startImage | with_reducible apply canon_startEngines | with_reducible apply canon_startDomains | with_reducible apply canon_ite | with_reducible apply canon_regs | with_reducible apply canon_foldl | with_reducible apply canon_next | with_reducible apply resCanon_ite | dsimp only | simp only [canon_mk] | split)

theorem canon_execImageReadyTimeout (s : State) (h_s : s.canon = true) : resCanon (execImageReadyTimeout s) = true := by
  unfold execImageReadyTimeout
  repeat' (first | with_reducible assumption | intro _ | with_reducible apply canon_advanceTo | with_reducible apply canon_State_put | with_reducible apply canon_loadSlot | with_reducible apply canon_enterRecovery | with_reducible apply canon_ite | with_reducible apply canon_regs | with_reducible apply canon_foldl | with_reducible apply canon_next | with_reducible apply resCanon_ite | dsimp only | simp only [canon_mk] | split)

theorem canon_alone (s : State) (k : Result) (h_s : s.canon = true) (h_k : k.canon = true) : (alone s k).canon = true := by
  unfold alone
  repeat' (first | with_reducible assumption | intro _ | with_reducible apply canon_ite | with_reducible apply canon_regs | with_reducible apply canon_foldl | with_reducible apply canon_done | with_reducible apply canon_later | with_reducible apply canon_loose | with_reducible apply canon_system | with_reducible apply canon_fail | with_reducible apply resultCanon_ite | dsimp only | simp only [canon_mk] | split)

theorem canon_sysDone (s : State) (o : SysOp) (stat : Nat) (ws : List Word) (h_s : s.canon = true) : (sysDone s o stat ws).canon = true := by
  unfold sysDone
  repeat' (first | with_reducible assumption | intro _ | with_reducible apply canon_finish | with_reducible apply canon_ite | with_reducible apply canon_regs | with_reducible apply canon_foldl | dsimp only | simp only [canon_mk] | split)

theorem canon_execRetirementRecordWrite (s : State) (h_s : s.canon = true) : resCanon (execRetirementRecordWrite s) = true := by
  unfold execRetirementRecordWrite
  repeat' (first | with_reducible assumption | intro _ | with_reducible apply canon_appendEntry | with_reducible apply canon_sendBoot | with_reducible apply canon_ite | with_reducible apply canon_regs | with_reducible apply canon_foldl | with_reducible apply canon_next | with_reducible apply resCanon_ite | dsimp only | simp only [canon_mk] | split)

theorem canon_fwBeginBody (c : Cmd) (s : State) (h_s : s.canon = true) : (fwBeginBody c s).canon = true := by
  unfold fwBeginBody
  repeat' (first | with_reducible assumption | intro _ | with_reducible apply canon_checked | with_reducible apply canon_refuseIf | with_reducible apply canon_noMore | with_reducible apply canon_sendBoot | with_reducible apply canon_State_setImage | with_reducible apply canon_appendAll | with_reducible apply canon_ite | with_reducible apply canon_regs | with_reducible apply canon_foldl | with_reducible apply canon_done | with_reducible apply canon_later | with_reducible apply canon_loose | with_reducible apply canon_system | with_reducible apply canon_fail | with_reducible apply resultCanon_ite | dsimp only | simp only [canon_mk] | split)

theorem canon_fwDataBody (c : Cmd) (s : State) (h_s : s.canon = true) : (fwDataBody c s).canon = true := by
  unfold fwDataBody
  repeat' (first | with_reducible assumption | intro _ | with_reducible apply canon_refuseIf | with_reducible apply canon_sendBoot | with_reducible apply canon_ite | with_reducible apply canon_regs | with_reducible apply canon_foldl | with_reducible apply canon_done | with_reducible apply canon_later | with_reducible apply canon_loose | with_reducible apply canon_system | with_reducible apply canon_fail | with_reducible apply resultCanon_ite | dsimp only | simp only [canon_mk] | split)

theorem canon_fwEndBody (c : Cmd) (s : State) (h_s : s.canon = true) : (fwEndBody c s).canon = true := by
  unfold fwEndBody
  repeat' (first | with_reducible assumption | intro _ | with_reducible apply canon_alone | with_reducible apply canon_checked | with_reducible apply canon_noMore | with_reducible apply canon_refuseIf | with_reducible apply canon_ite | with_reducible apply canon_regs | with_reducible apply canon_foldl | with_reducible apply canon_done | with_reducible apply canon_later | with_reducible apply canon_loose | with_reducible apply canon_system | with_reducible apply canon_fail | with_reducible apply resultCanon_ite | dsimp only | simp only [canon_mk] | split)

theorem canon_execFwUpdateBegin (c : Cmd) (s : State) (h_s : s.canon = true) : resCanon (execFwUpdateBegin c s) = true := by
  unfold execFwUpdateBegin
  repeat' (first | with_reducible assumption | intro _ | with_reducible apply canon_runCmd | with_reducible apply canon_fwBeginBody | with_reducible apply canon_ite | with_reducible apply canon_regs | with_reducible apply canon_foldl | with_reducible apply canon_next | with_reducible apply resCanon_ite | dsimp only | simp only [canon_mk] | split)

theorem canon_execFwUpdateData (c : Cmd) (s : State) (h_s : s.canon = true) : resCanon (execFwUpdateData c s) = true := by
  unfold execFwUpdateData
  repeat' (first | with_reducible assumption | intro _ | with_reducible apply canon_runCmd | with_reducible apply canon_fwDataBody | with_reducible apply canon_ite | with_reducible apply canon_regs | with_reducible apply canon_foldl | with_reducible apply canon_next | with_reducible apply resCanon_ite | dsimp only | simp only [canon_mk] | split)

theorem canon_execFwUpdateEnd (c : Cmd) (s : State) (h_s : s.canon = true) : resCanon (execFwUpdateEnd c s) = true := by
  unfold execFwUpdateEnd
  repeat' (first | with_reducible assumption | intro _ | with_reducible apply canon_runCmd | with_reducible apply canon_fwEndBody | with_reducible apply canon_ite | with_reducible apply canon_regs | with_reducible apply canon_foldl | with_reducible apply canon_next | with_reducible apply resCanon_ite | dsimp only | simp only [canon_mk] | split)

theorem canon_execFwImageWritten (ok : Bool) (s : State) (h_s : s.canon = true) : resCanon (execFwImageWritten ok s) = true := by
  unfold execFwImageWritten
  repeat' (first | with_reducible assumption | intro _ | with_reducible apply canon_raise | with_reducible apply canon_sysDone | with_reducible apply canon_sendBoot | with_reducible apply canon_appendAll | with_reducible apply canon_State_setImage | with_reducible apply canon_ite | with_reducible apply canon_regs | with_reducible apply canon_foldl | with_reducible apply canon_next | with_reducible apply resCanon_ite | dsimp only | simp only [canon_mk] | split)

theorem canon_cutRecord (v : Word) (torn : Bool) (s : State) (h_s : s.canon = true) : (cutRecord v torn s).canon = true := by
  unfold cutRecord
  repeat' (first | with_reducible assumption | intro _ | with_reducible apply canon_ite | with_reducible apply canon_regs | with_reducible apply canon_foldl | dsimp only | simp only [canon_mk] | split)

theorem canon_cutSlot (v : Word) (torn : Bool) (s : State) (h_s : s.canon = true) : (cutSlot v torn s).canon = true := by
  unfold cutSlot
  repeat' (first | with_reducible assumption | intro _ | with_reducible apply canon_State_setImage | with_reducible apply canon_ite | with_reducible apply canon_regs | with_reducible apply canon_foldl | dsimp only | simp only [canon_mk] | split)

theorem canon_cutDirectory (v : Word) (torn : Bool) (s : State) (h_s : s.canon = true) : (cutDirectory v torn s).canon = true := by
  unfold cutDirectory
  repeat' (first | with_reducible assumption | intro _ | with_reducible apply canon_ite | with_reducible apply canon_regs | with_reducible apply canon_foldl | dsimp only | simp only [canon_mk] | split)

theorem canon_flashCut (s : State) (h_s : s.canon = true) : (flashCut s).canon = true := by
  unfold flashCut
  repeat' (first | with_reducible assumption | intro _ | with_reducible apply canon_cutRecord | with_reducible apply canon_cutSlot | with_reducible apply canon_cutDirectory | with_reducible apply canon_ite | with_reducible apply canon_regs | with_reducible apply canon_foldl | dsimp only | simp only [canon_mk] | split)

theorem canon_execResetAssert (lowTicks : Nat) (s : State) (h_s : s.canon = true) : resCanon (execResetAssert lowTicks s) = true := by
  unfold execResetAssert
  repeat' (first | with_reducible assumption | intro _ | with_reducible apply canon_pulse | with_reducible apply canon_resetKeeping | with_reducible apply canon_flashCut | with_reducible apply canon_ite | with_reducible apply canon_regs | with_reducible apply canon_foldl | with_reducible apply canon_next | with_reducible apply resCanon_ite | dsimp only | simp only [canon_mk] | split)

theorem canon_execPwrGoodFall (lowTicks : Nat) (s : State) (h_s : s.canon = true) : resCanon (execPwrGoodFall lowTicks s) = true := by
  unfold execPwrGoodFall
  repeat' (first | with_reducible assumption | intro _ | with_reducible apply canon_pulse | with_reducible apply canon_resetKeeping | with_reducible apply canon_flashCut | with_reducible apply canon_ite | with_reducible apply canon_regs | with_reducible apply canon_foldl | with_reducible apply canon_next | with_reducible apply resCanon_ite | dsimp only | simp only [canon_mk] | split)

theorem canon_execFwSessionTimeout (s : State) (h_s : s.canon = true) : resCanon (execFwSessionTimeout s) = true := by
  unfold execFwSessionTimeout
  repeat' (first | with_reducible assumption | intro _ | with_reducible apply canon_advanceTo | with_reducible apply canon_ite | with_reducible apply canon_regs | with_reducible apply canon_foldl | with_reducible apply canon_next | with_reducible apply resCanon_ite | dsimp only | simp only [canon_mk] | split)

theorem canon_selftestBody (c : Cmd) (s : State) (h_s : s.canon = true) : (selftestBody c s).canon = true := by
  unfold selftestBody
  repeat' (first | with_reducible assumption | intro _ | with_reducible apply canon_alone | with_reducible apply canon_checked | with_reducible apply canon_refuseIf | with_reducible apply canon_noMore | with_reducible apply canon_State_setInterp | with_reducible apply canon_ite | with_reducible apply canon_regs | with_reducible apply canon_foldl | with_reducible apply canon_done | with_reducible apply canon_later | with_reducible apply canon_loose | with_reducible apply canon_system | with_reducible apply canon_fail | with_reducible apply resultCanon_ite | dsimp only | simp only [canon_mk] | split)

theorem canon_execSelftest (c : Cmd) (s : State) (h_s : s.canon = true) : resCanon (execSelftest c s) = true := by
  unfold execSelftest
  repeat' (first | with_reducible assumption | intro _ | with_reducible apply canon_runCmd | with_reducible apply canon_selftestBody | with_reducible apply canon_ite | with_reducible apply canon_regs | with_reducible apply canon_foldl | with_reducible apply canon_next | with_reducible apply resCanon_ite | dsimp only | simp only [canon_mk] | split)

theorem canon_clearArrays (s : State) (h_s : s.canon = true) : (clearArrays s).canon = true := by
  unfold clearArrays
  repeat' (first | with_reducible assumption | intro _ | with_reducible apply canon_ite | with_reducible apply canon_regs | with_reducible apply canon_foldl | dsimp only | simp only [canon_mk] | split)

theorem canon_clearStacks (s : State) (all : Bool) (h_s : s.canon = true) : (clearStacks s all).canon = true := by
  unfold clearStacks
  repeat' (first | with_reducible assumption | intro _ | with_reducible apply canon_dropStack | with_reducible apply canon_ite | with_reducible apply canon_regs | with_reducible apply canon_foldl | dsimp only | simp only [canon_mk] | split)

theorem canon_execSelftestComplete (results : List TestResult) (s : State) (h_s : s.canon = true) : resCanon (execSelftestComplete results s) = true := by
  unfold execSelftestComplete
  repeat' (first | with_reducible assumption | intro _ | with_reducible apply canon_clearArrays | with_reducible apply canon_clearStacks | with_reducible apply canon_raise | with_reducible apply canon_sysDone | with_reducible apply canon_ite | with_reducible apply canon_regs | with_reducible apply canon_foldl | with_reducible apply canon_next | with_reducible apply resCanon_ite | dsimp only | simp only [canon_mk] | split)

theorem canon_ergClearBody (c : Cmd) (s : State) (h_s : s.canon = true) : (ergClearBody c s).canon = true := by
  unfold ergClearBody
  repeat' (first | with_reducible assumption | intro _ | with_reducible apply canon_alone | with_reducible apply canon_checked | with_reducible apply canon_noMore | with_reducible apply canon_refuseIf | with_reducible apply canon_ite | with_reducible apply canon_regs | with_reducible apply canon_foldl | with_reducible apply canon_done | with_reducible apply canon_later | with_reducible apply canon_loose | with_reducible apply canon_system | with_reducible apply canon_fail | with_reducible apply resultCanon_ite | dsimp only | simp only [canon_mk] | split)

theorem canon_execErgClear (c : Cmd) (s : State) (h_s : s.canon = true) : resCanon (execErgClear c s) = true := by
  unfold execErgClear
  repeat' (first | with_reducible assumption | intro _ | with_reducible apply canon_runCmd | with_reducible apply canon_ergClearBody | with_reducible apply canon_ite | with_reducible apply canon_regs | with_reducible apply canon_foldl | with_reducible apply canon_next | with_reducible apply resCanon_ite | dsimp only | simp only [canon_mk] | split)

theorem canon_execErgClearComplete (s : State) (h_s : s.canon = true) : resCanon (execErgClearComplete s) = true := by
  unfold execErgClearComplete
  repeat' (first | with_reducible assumption | intro _ | with_reducible apply canon_sysDone | with_reducible apply canon_clearStacks | with_reducible apply canon_ite | with_reducible apply canon_regs | with_reducible apply canon_foldl | with_reducible apply canon_next | with_reducible apply resCanon_ite | dsimp only | simp only [canon_mk] | split)

end Sys2Proof.Machine
end

