-- ==== Sys2Proof/Laws/CanonCommands.lean ====
section
/-! SUPPORT. The canonical form of the register store is kept by Machine/Commands.lean. -/

set_option linter.all false

namespace Sys2Proof.Machine

theorem canon_nopBody (c : Cmd) (s : State) (h_s : s.canon = true) : (nopBody c s).canon = true := by
  unfold nopBody
  repeat' (first | with_reducible assumption | intro _ | with_reducible apply canon_checked | with_reducible apply canon_noMore | with_reducible apply canon_ite | with_reducible apply canon_regs | with_reducible apply canon_foldl | with_reducible apply canon_done | with_reducible apply canon_later | with_reducible apply canon_loose | with_reducible apply canon_system | with_reducible apply canon_fail | with_reducible apply resultCanon_ite | dsimp only | simp only [canon_mk] | split)

theorem canon_execNop (c : Cmd) (s : State) (h_s : s.canon = true) : resCanon (execNop c s) = true := by
  unfold execNop
  repeat' (first | with_reducible assumption | intro _ | with_reducible apply canon_runCmd | with_reducible apply canon_nopBody | with_reducible apply canon_ite | with_reducible apply canon_regs | with_reducible apply canon_foldl | with_reducible apply canon_next | with_reducible apply resCanon_ite | dsimp only | simp only [canon_mk] | split)

theorem canon_identifyBody (c : Cmd) (s : State) (h_s : s.canon = true) : (identifyBody c s).canon = true := by
  unfold identifyBody
  repeat' (first | with_reducible assumption | intro _ | with_reducible apply canon_checked | with_reducible apply canon_noMore | with_reducible apply canon_ite | with_reducible apply canon_regs | with_reducible apply canon_foldl | with_reducible apply canon_done | with_reducible apply canon_later | with_reducible apply canon_loose | with_reducible apply canon_system | with_reducible apply canon_fail | with_reducible apply resultCanon_ite | dsimp only | simp only [canon_mk] | split)

theorem canon_execIdentify (c : Cmd) (s : State) (h_s : s.canon = true) : resCanon (execIdentify c s) = true := by
  unfold execIdentify
  repeat' (first | with_reducible assumption | intro _ | with_reducible apply canon_runCmd | with_reducible apply canon_identifyBody | with_reducible apply canon_ite | with_reducible apply canon_regs | with_reducible apply canon_foldl | with_reducible apply canon_next | with_reducible apply resCanon_ite | dsimp only | simp only [canon_mk] | split)

theorem canon_statusBody (c : Cmd) (s : State) (h_s : s.canon = true) : (statusBody c s).canon = true := by
  unfold statusBody
  repeat' (first | with_reducible assumption | intro _ | with_reducible apply canon_checked | with_reducible apply canon_noMore | with_reducible apply canon_ite | with_reducible apply canon_regs | with_reducible apply canon_foldl | with_reducible apply canon_done | with_reducible apply canon_later | with_reducible apply canon_loose | with_reducible apply canon_system | with_reducible apply canon_fail | with_reducible apply resultCanon_ite | dsimp only | simp only [canon_mk] | split)

theorem canon_execStatus (c : Cmd) (s : State) (h_s : s.canon = true) : resCanon (execStatus c s) = true := by
  unfold execStatus
  repeat' (first | with_reducible assumption | intro _ | with_reducible apply canon_runCmd | with_reducible apply canon_statusBody | with_reducible apply canon_ite | with_reducible apply canon_regs | with_reducible apply canon_foldl | with_reducible apply canon_next | with_reducible apply resCanon_ite | dsimp only | simp only [canon_mk] | split)

theorem canon_claimBody (c : Cmd) (s : State) (h_s : s.canon = true) : (claimBody c s).canon = true := by
  unfold claimBody
  repeat' (first | with_reducible assumption | intro _ | with_reducible apply canon_checked | with_reducible apply canon_refuseIf | with_reducible apply canon_noMore | with_reducible apply canon_State_put | with_reducible apply canon_ite | with_reducible apply canon_regs | with_reducible apply canon_foldl | with_reducible apply canon_done | with_reducible apply canon_later | with_reducible apply canon_loose | with_reducible apply canon_system | with_reducible apply canon_fail | with_reducible apply resultCanon_ite | dsimp only | simp only [canon_mk] | split)

theorem canon_execPartitionClaim (c : Cmd) (s : State) (h_s : s.canon = true) : resCanon (execPartitionClaim c s) = true := by
  unfold execPartitionClaim
  repeat' (first | with_reducible assumption | intro _ | with_reducible apply canon_runCmd | with_reducible apply canon_claimBody | with_reducible apply canon_ite | with_reducible apply canon_regs | with_reducible apply canon_foldl | with_reducible apply canon_next | with_reducible apply resCanon_ite | dsimp only | simp only [canon_mk] | split)

theorem canon_release (s : State) (p : Nat) (h_s : s.canon = true) : (release s p).canon = true := by
  unfold release
  repeat' (first | with_reducible assumption | intro _ | with_reducible apply canon_discard | with_reducible apply canon_State_put | with_reducible apply canon_ite | with_reducible apply canon_regs | with_reducible apply canon_foldl | dsimp only | simp only [canon_mk] | split)

theorem canon_releaseBody (c : Cmd) (s : State) (h_s : s.canon = true) : (releaseBody c s).canon = true := by
  unfold releaseBody
  repeat' (first | with_reducible assumption | intro _ | with_reducible apply canon_refuseIf | with_reducible apply canon_release | with_reducible apply canon_noMore | with_reducible apply canon_ite | with_reducible apply canon_regs | with_reducible apply canon_foldl | with_reducible apply canon_done | with_reducible apply canon_later | with_reducible apply canon_loose | with_reducible apply canon_system | with_reducible apply canon_fail | with_reducible apply resultCanon_ite | dsimp only | simp only [canon_mk] | split)

theorem canon_execPartitionRelease (c : Cmd) (s : State) (h_s : s.canon = true) : resCanon (execPartitionRelease c s) = true := by
  unfold execPartitionRelease
  repeat' (first | with_reducible assumption | intro _ | with_reducible apply canon_runCmd | with_reducible apply canon_releaseBody | with_reducible apply canon_ite | with_reducible apply canon_regs | with_reducible apply canon_foldl | with_reducible apply canon_next | with_reducible apply resCanon_ite | dsimp only | simp only [canon_mk] | split)

theorem canon_State_setSlot (s : State) (p : Nat) (i : Nat) (v : Nat) (h_s : s.canon = true) : (State.setSlot s p i v).canon = true := by
  unfold State.setSlot
  repeat' (first | with_reducible assumption | intro _ | with_reducible apply canon_State_setWord | with_reducible apply canon_ite | with_reducible apply canon_regs | with_reducible apply canon_foldl | dsimp only | simp only [canon_mk] | split)

theorem canon_bindChecked (c : Cmd) (k : Nat → Nat → Result) (h_k : ∀ (x0 : Nat) (x1 : Nat), (k x0 x1).canon = true) : (bindChecked c k).canon = true := by
  unfold bindChecked
  repeat' (first | with_reducible assumption | intro _ | with_reducible apply h_k | with_reducible apply canon_checked | with_reducible apply canon_refuseIf | with_reducible apply canon_noMore | with_reducible apply canon_ite | with_reducible apply canon_regs | with_reducible apply canon_foldl | with_reducible apply canon_done | with_reducible apply canon_later | with_reducible apply canon_loose | with_reducible apply canon_system | with_reducible apply canon_fail | with_reducible apply resultCanon_ite | dsimp only | simp only [canon_mk] | split)

theorem canon_State_rebind (s : State) (p : Nat) (i : Nat) (l : Nat) (on : Bool) (h_s : s.canon = true) : (State.rebind s p i l on).canon = true := by
  unfold State.rebind
  repeat' (first | with_reducible assumption | intro _ | with_reducible apply canon_State_setSlot | with_reducible apply canon_ite | with_reducible apply canon_regs | with_reducible apply canon_foldl | dsimp only | simp only [canon_mk] | split)

theorem canon_bindBody (c : Cmd) (s : State) (h_s : s.canon = true) : (bindBody c s).canon = true := by
  unfold bindBody
  repeat' (first | with_reducible assumption | intro _ | with_reducible apply canon_bindChecked | with_reducible apply canon_refuseIf | with_reducible apply canon_State_rebind | with_reducible apply canon_ite | with_reducible apply canon_regs | with_reducible apply canon_foldl | with_reducible apply canon_done | with_reducible apply canon_later | with_reducible apply canon_loose | with_reducible apply canon_system | with_reducible apply canon_fail | with_reducible apply resultCanon_ite | dsimp only | simp only [canon_mk] | split)

theorem canon_unbindBody (c : Cmd) (s : State) (h_s : s.canon = true) : (unbindBody c s).canon = true := by
  unfold unbindBody
  repeat' (first | with_reducible assumption | intro _ | with_reducible apply canon_bindChecked | with_reducible apply canon_refuseIf | with_reducible apply canon_State_rebind | with_reducible apply canon_ite | with_reducible apply canon_regs | with_reducible apply canon_foldl | with_reducible apply canon_done | with_reducible apply canon_later | with_reducible apply canon_loose | with_reducible apply canon_system | with_reducible apply canon_fail | with_reducible apply resultCanon_ite | dsimp only | simp only [canon_mk] | split)

theorem canon_execPartitionBind (c : Cmd) (s : State) (h_s : s.canon = true) : resCanon (execPartitionBind c s) = true := by
  unfold execPartitionBind
  repeat' (first | with_reducible assumption | intro _ | with_reducible apply canon_runCmd | with_reducible apply canon_bindBody | with_reducible apply canon_ite | with_reducible apply canon_regs | with_reducible apply canon_foldl | with_reducible apply canon_next | with_reducible apply resCanon_ite | dsimp only | simp only [canon_mk] | split)

theorem canon_execPartitionUnbind (c : Cmd) (s : State) (h_s : s.canon = true) : resCanon (execPartitionUnbind c s) = true := by
  unfold execPartitionUnbind
  repeat' (first | with_reducible assumption | intro _ | with_reducible apply canon_runCmd | with_reducible apply canon_unbindBody | with_reducible apply canon_ite | with_reducible apply canon_regs | with_reducible apply canon_foldl | with_reducible apply canon_next | with_reducible apply resCanon_ite | dsimp only | simp only [canon_mk] | split)

theorem canon_hostFrame (s : State) (lane : Nat) (f : Frame) (h_s : s.canon = true) : (hostFrame s lane f).canon = true := by
  unfold hostFrame
  repeat' (first | with_reducible assumption | intro _ | with_reducible exact canon_frameBlocks_eq (by with_reducible assumption) (by with_reducible assumption) | with_reducible apply canon_State_satInc | with_reducible apply canon_frameSeq | with_reducible apply canon_State_setHlane | with_reducible apply canon_frameBlocks | with_reducible apply canon_ite | with_reducible apply canon_regs | with_reducible apply canon_foldl | dsimp only | simp only [canon_mk] | split)

theorem canon_execHostFrameReceive (lane : Nat) (f : Frame) (s : State) (h_s : s.canon = true) : resCanon (execHostFrameReceive lane f s) = true := by
  unfold execHostFrameReceive
  repeat' (first | with_reducible assumption | intro _ | with_reducible apply canon_hostFrame | with_reducible apply canon_ite | with_reducible apply canon_regs | with_reducible apply canon_foldl | with_reducible apply canon_next | with_reducible apply resCanon_ite | dsimp only | simp only [canon_mk] | split)

theorem canon_execCommandFrameReceive (lane : Nat) (f : Frame) (s : State) (h_s : s.canon = true) : resCanon (execCommandFrameReceive lane f s) = true := by
  unfold execCommandFrameReceive
  repeat' (first | with_reducible assumption | intro _ | with_reducible apply canon_hostFrame | with_reducible apply canon_ite | with_reducible apply canon_regs | with_reducible apply canon_foldl | with_reducible apply canon_next | with_reducible apply resCanon_ite | dsimp only | simp only [canon_mk] | split)

theorem canon_runUnknown (op : Nat) (c : Cmd) (s : State) (h_s : s.canon = true) : (runUnknown op c s).canon = true := by
  unfold runUnknown
  repeat' (first | with_reducible assumption | intro _ | with_reducible apply canon_advanceTo | with_reducible apply canon_sendReply | with_reducible apply canon_State_satInc | with_reducible apply canon_finish | with_reducible apply canon_ite | with_reducible apply canon_regs | with_reducible apply canon_foldl | dsimp only | simp only [canon_mk] | split)

theorem canon_formBody (op : Nat) (c : Cmd) (_s : State) (h__s : _s.canon = true) : (formBody op c _s).canon = true := by
  unfold formBody
  repeat' (first | with_reducible assumption | intro _ | with_reducible apply canon_ite | with_reducible apply canon_regs | with_reducible apply canon_foldl | with_reducible apply canon_done | with_reducible apply canon_later | with_reducible apply canon_loose | with_reducible apply canon_system | with_reducible apply canon_fail | with_reducible apply resultCanon_ite | dsimp only | simp only [canon_mk] | split)

theorem canon_packetOther (op : Nat) (c : Cmd) (s : State) (h_s : s.canon = true) : resCanon (packetOther op c s) = true := by
  unfold packetOther
  repeat' (first | with_reducible assumption | intro _ | with_reducible apply canon_runCmd | with_reducible apply canon_formBody | with_reducible apply canon_runUnknown | with_reducible apply canon_ite | with_reducible apply canon_regs | with_reducible apply canon_foldl | with_reducible apply canon_next | with_reducible apply resCanon_ite | dsimp only | simp only [canon_mk] | split)

theorem canon_packetBasic (op : Nat) (form : Nat) (c : Cmd) (s : State) (h_s : s.canon = true) : resCanon (packetBasic op form c s) = true := by
  unfold packetBasic
  repeat' (first | with_reducible assumption | intro _ | with_reducible apply canon_execNop | with_reducible apply canon_execIdentify | with_reducible apply canon_execStatus | with_reducible apply canon_execPartitionClaim | with_reducible apply canon_execPartitionRelease | with_reducible apply canon_execPartitionBind | with_reducible apply canon_execPartitionUnbind | with_reducible apply canon_execReadObjLive | with_reducible apply canon_execReadObjStaged | with_reducible apply canon_execWriteStaged | with_reducible apply canon_execWriteLive | with_reducible apply canon_execCinch | with_reducible apply canon_execDiscardStaged | with_reducible apply canon_packetOther | with_reducible apply canon_ite | with_reducible apply canon_regs | with_reducible apply canon_foldl | with_reducible apply canon_next | with_reducible apply resCanon_ite | dsimp only | simp only [canon_mk] | split)

theorem canon_packetTime (op : Nat) (form : Nat) (c : Cmd) (s : State) (h_s : s.canon = true) : resCanon (packetTime op form c s) = true := by
  unfold packetTime
  repeat' (first | with_reducible assumption | intro _ | with_reducible apply canon_execRefSelectAuto | with_reducible apply canon_execRefSelectForced | with_reducible apply canon_execRefSelectHoldover | with_reducible apply canon_execRefStatus | with_reducible apply canon_execTimeSet | with_reducible apply canon_execPpsAlignMeasure | with_reducible apply canon_execPpsAlignStep | with_reducible apply canon_execCalStartSweep | with_reducible apply canon_execCalStartRecover | with_reducible apply canon_execCalStatus | with_reducible apply canon_execCalLockRelease | with_reducible apply canon_execCalLock | with_reducible apply canon_execCalTableReadInForce | with_reducible apply canon_execCalTableReadWaiting | with_reducible apply canon_packetOther | with_reducible apply canon_ite | with_reducible apply canon_regs | with_reducible apply canon_foldl | with_reducible apply canon_next | with_reducible apply resCanon_ite | dsimp only | simp only [canon_mk] | split)

theorem canon_packetLink (op : Nat) (form : Nat) (c : Cmd) (s : State) (h_s : s.canon = true) : resCanon (packetLink op form c s) = true := by
  unfold packetLink
  repeat' (first | with_reducible assumption | intro _ | with_reducible apply canon_execLaneUp | with_reducible apply canon_execLaneDown | with_reducible apply canon_execLaneRetrain | with_reducible apply canon_execLaneGroupConfig | with_reducible apply canon_execLaneGroupWidth | with_reducible apply canon_execLaneTestStart | with_reducible apply canon_execLaneTestStop | with_reducible apply canon_execLaneTestRead | with_reducible apply canon_execLaneRetire | with_reducible apply canon_execPartnerRead | with_reducible apply canon_execPartnerWrite | with_reducible apply canon_execPartnerTxnStatus | with_reducible apply canon_packetOther | with_reducible apply canon_ite | with_reducible apply canon_regs | with_reducible apply canon_foldl | with_reducible apply canon_next | with_reducible apply resCanon_ite | dsimp only | simp only [canon_mk] | split)

theorem canon_packetData (op : Nat) (form : Nat) (c : Cmd) (s : State) (h_s : s.canon = true) : resCanon (packetData op form c s) = true := by
  unfold packetData
  repeat' (first | with_reducible assumption | intro _ | with_reducible apply canon_execTrigArm | with_reducible apply canon_execTrigDisarm | with_reducible apply canon_execTrigForce | with_reducible apply canon_execSegRead | with_reducible apply canon_execSegReleaseAll | with_reducible apply canon_execSegRelease | with_reducible apply canon_execStatsGateStart | with_reducible apply canon_execStatsGateStop | with_reducible apply canon_execStatsReadLast | with_reducible apply canon_execStatsReadRunning | with_reducible apply canon_execQueueFlush | with_reducible apply canon_execQueueStatusIngress | with_reducible apply canon_execQueueStatusHost | with_reducible apply canon_execQueueStatusAnchor | with_reducible apply canon_packetOther | with_reducible apply canon_ite | with_reducible apply canon_regs | with_reducible apply canon_foldl | with_reducible apply canon_next | with_reducible apply resCanon_ite | dsimp only | simp only [canon_mk] | split)

theorem canon_packetCare (op : Nat) (form : Nat) (c : Cmd) (s : State) (h_s : s.canon = true) : resCanon (packetCare op form c s) = true := by
  unfold packetCare
  repeat' (first | with_reducible assumption | intro _ | with_reducible apply canon_execFaultRead | with_reducible apply canon_execFaultClear | with_reducible apply canon_execFaultHistory | with_reducible apply canon_execAwl | with_reducible apply canon_execPowerDomainOff | with_reducible apply canon_execPowerDomainOn | with_reducible apply canon_execTileRetire | with_reducible apply canon_execSelftest | with_reducible apply canon_execErgClear | with_reducible apply canon_execFwUpdateBegin | with_reducible apply canon_execFwUpdateData | with_reducible apply canon_execFwUpdateEnd | with_reducible apply canon_packetOther | with_reducible apply canon_ite | with_reducible apply canon_regs | with_reducible apply canon_foldl | with_reducible apply canon_next | with_reducible apply resCanon_ite | dsimp only | simp only [canon_mk] | split)

theorem canon_packetExec (op : Nat) (form : Nat) (c : Cmd) (s : State) (h_s : s.canon = true) : resCanon (packetExec op form c s) = true := by
  unfold packetExec
  repeat' (first | with_reducible assumption | intro _ | with_reducible apply canon_packetBasic | with_reducible apply canon_packetTime | with_reducible apply canon_packetLink | with_reducible apply canon_packetData | with_reducible apply canon_packetCare | with_reducible apply canon_ite | with_reducible apply canon_regs | with_reducible apply canon_foldl | with_reducible apply canon_next | with_reducible apply resCanon_ite | dsimp only | simp only [canon_mk] | split)

theorem canon_takePacket (lane : Option Nat) (t : Nat) (h : Word) (ps : List Word) (s : State) (h_s : s.canon = true) : resCanon (takePacket lane t h ps s) = true := by
  unfold takePacket
  repeat' (first | with_reducible assumption | intro _ | with_reducible apply canon_sendReply | with_reducible apply canon_advanceTo | with_reducible apply canon_packetExec | with_reducible apply canon_ite | with_reducible apply canon_regs | with_reducible apply canon_foldl | with_reducible apply canon_next | with_reducible apply resCanon_ite | dsimp only | simp only [canon_mk] | split)

theorem canon_State_hear (s : State) (b : Option Bool) (h_s : s.canon = true) : (State.hear s b).canon = true := by
  unfold State.hear
  repeat' (first | with_reducible assumption | intro _ | with_reducible apply canon_ite | with_reducible apply canon_regs | with_reducible apply canon_foldl | dsimp only | simp only [canon_mk] | split)

theorem canon_takeFrom (r : Nat) (t : Nat) (s : State) (h_s : s.canon = true) : resCanon (takeFrom r t s) = true := by
  unfold takeFrom
  repeat' (first | with_reducible assumption | intro _ | with_reducible apply canon_takePacket | with_reducible apply canon_State_hear | with_reducible apply canon_State_setHlane | with_reducible apply canon_ite | with_reducible apply canon_regs | with_reducible apply canon_foldl | with_reducible apply canon_next | with_reducible apply resCanon_ite | with_reducible apply canon_done | with_reducible apply canon_later | with_reducible apply canon_loose | with_reducible apply canon_system | with_reducible apply canon_fail | with_reducible apply resultCanon_ite | dsimp only | simp only [canon_mk] | split | with_reducible refine canon_of_next (by with_reducible assumption) ?_ | with_reducible refine canon_of_done (by with_reducible assumption) ?_ | with_reducible refine canon_of_later (by with_reducible assumption) ?_ | with_reducible refine canon_of_loose (by with_reducible assumption) ?_ | with_reducible refine canon_of_system (by with_reducible assumption) ?_ | with_reducible refine canon_of_some (by with_reducible assumption) ?_ | with_reducible apply optCanon_ite | with_reducible apply optCanon_some | with_reducible apply optCanon_none | with_reducible apply canon_getD)

theorem canon_execCommandTake (lane : Option Nat) (t : Nat) (s : State) (h_s : s.canon = true) : resCanon (execCommandTake lane t s) = true := by
  unfold execCommandTake
  repeat' (first | with_reducible assumption | intro _ | with_reducible apply canon_takeFrom | with_reducible apply canon_noteGrant | with_reducible apply canon_ite | with_reducible apply canon_regs | with_reducible apply canon_foldl | with_reducible apply canon_next | with_reducible apply resCanon_ite | dsimp only | simp only [canon_mk] | split)

theorem canon_execSmpWriteTransfer (words : List Word) (crc : Option Word) (s : State) (h_s : s.canon = true) : resCanon (execSmpWriteTransfer words crc s) = true := by
  unfold execSmpWriteTransfer
  repeat' (first | with_reducible assumption | intro _ | with_reducible apply canon_ite | with_reducible apply canon_regs | with_reducible apply canon_foldl | with_reducible apply canon_next | with_reducible apply resCanon_ite | dsimp only | simp only [canon_mk] | split)

theorem canon_execSmpReadTransfer (complete : Bool) (s : State) (h_s : s.canon = true) : resCanon (execSmpReadTransfer complete s) = true := by
  unfold execSmpReadTransfer
  repeat' (first | with_reducible assumption | intro _ | with_reducible apply canon_send | with_reducible apply canon_freeChan | with_reducible apply canon_ite | with_reducible apply canon_regs | with_reducible apply canon_foldl | with_reducible apply canon_next | with_reducible apply resCanon_ite | dsimp only | simp only [canon_mk] | split)

theorem canon_abandonPower (s : State) (e : Nat × DomOp) (h_s : s.canon = true) : (abandonPower s e).canon = true := by
  unfold abandonPower
  repeat' (first | with_reducible assumption | intro _ | with_reducible apply canon_State_put | with_reducible apply canon_ite | with_reducible apply canon_regs | with_reducible apply canon_foldl | dsimp only | simp only [canon_mk] | split)

/-- The state left by an abandoned command is canonical. -/
def leftCanon (o : Option (Cmd × Nat × State)) : Prop := ∀ c op t, o = some (c, op, t) → t.canon = true

theorem leftCanon_none : leftCanon none := fun _ _ _ e => by cases e

theorem leftCanon_some {x : Cmd × Nat × State} (h : x.2.2.canon = true) : leftCanon (some x) := fun _ _ _ e => by cases e; exact h

theorem leftCanon_map {α : Type} {o : Option α} {f : α → Cmd × Nat × State} (h : ∀ a, (f a).2.2.canon = true) : leftCanon (o.map f) := by
  cases o with
  | none => exact leftCanon_none
  | some a => exact leftCanon_some (h a)

theorem leftCanon_bind {α : Type} {o : Option α} {f : α → Option (Cmd × Nat × State)} (h : ∀ a, leftCanon (f a)) : leftCanon (o.bind f) := by
  cases o with
  | none => exact leftCanon_none
  | some a => exact h a

/-- Withdrawing a reply keeps the register store canonical. -/
theorem canon_takeReply (s : State) (p : Nat) (h : s.canon = true) {r : Cmd × State} (e : takeReply s p = some r) : r.2.canon = true := by
  unfold takeReply at e
  extract_lets mine at e
  split at e
  · cases e
    exact h
  · obtain ⟨x, _, hx⟩ := List.exists_of_findSome?_eq_some e
    obtain ⟨y, _, hy⟩ := Option.map_eq_some_iff.mp hx
    subst hy
    exact canon_State_setHlane _ _ _ h

--MANUAL inProgress

theorem leftCanon_inProgress (s : State) (p : Nat) (h : s.canon = true) : leftCanon (inProgress s p) := by
  unfold inProgress
  split
  · split
    · exact leftCanon_some h
    · exact leftCanon_none
  · split
    · split
      · exact leftCanon_some h
      · exact leftCanon_map fun _ => h
    · exact leftCanon_map fun _ => h
    · exact leftCanon_map fun _ => h
    · split
      · exact leftCanon_some h
      · exact leftCanon_map fun _ => h
    · exact leftCanon_map fun _ => h
    · exact leftCanon_map fun _ => canon_abandonPower _ _ h
    · exact leftCanon_bind fun _ => leftCanon_map fun _ => canon_State_setTile _ _ _ h
    · exact leftCanon_none

theorem leftCanon_abandoned (s : State) (p : Nat) (h : s.canon = true) : leftCanon (abandoned s p) := by
  unfold abandoned
  split
  · rename_i x e
    exact leftCanon_some (leftCanon_inProgress s p h _ _ _ e)
  · cases e : takeReply s p with
    | none => exact leftCanon_none
    | some r => exact leftCanon_some (canon_takeReply s p h e)

theorem canon_abandoned (s : State) (p : Nat) (h : s.canon = true) (c : Cmd) (op : Nat) (t : State) (e : abandoned s p = some (c, op, t)) : t.canon = true :=
  leftCanon_abandoned s p h c op t e

theorem canon_execLockstepMismatch (partition : Nat) (s : State) (h_s : s.canon = true) : resCanon (execLockstepMismatch partition s) = true := by
  unfold execLockstepMismatch
  repeat' (first | with_reducible assumption | intro _ | with_reducible exact canon_awlTake_eq (by with_reducible assumption) (by with_reducible assumption) | with_reducible apply canon_lockstepFault | with_reducible refine canon_abandoned _ _ ?_ _ _ _ (by with_reducible assumption) | with_reducible apply canon_internalFault | with_reducible apply canon_awlTake | with_reducible apply canon_ite | with_reducible apply canon_regs | with_reducible apply canon_foldl | with_reducible apply canon_next | with_reducible apply resCanon_ite | dsimp only | simp only [canon_mk] | split)

theorem canon_execEngineResyncComplete (s : State) (h_s : s.canon = true) : resCanon (execEngineResyncComplete s) = true := by
  unfold execEngineResyncComplete
  repeat' (first | with_reducible assumption | intro _ | with_reducible apply canon_ite | with_reducible apply canon_regs | with_reducible apply canon_foldl | with_reducible apply canon_next | with_reducible apply resCanon_ite | dsimp only | simp only [canon_mk] | split)

end Sys2Proof.Machine
end

