-- ==== Sys2Proof/Laws/CanonPins.lean ====
section
/-! SUPPORT. The canonical form of the register store is kept by Machine/Pins.lean. -/

set_option linter.all false

namespace Sys2Proof.Machine

theorem canon_loadIr (s : State) (ir : Nat) (h_s : s.canon = true) : (loadIr s ir).canon = true := by
  unfold loadIr
  repeat' (first | with_reducible assumption | intro _ | with_reducible apply canon_ite | with_reducible apply canon_regs | with_reducible apply canon_foldl | dsimp only | simp only [canon_mk] | split)

theorem canon_loadCells (s : State) (cells : List Nat) (h_s : s.canon = true) : (loadCells s cells).canon = true := by
  unfold loadCells
  repeat' (first | with_reducible assumption | intro _ | with_reducible apply canon_ite | with_reducible apply canon_regs | with_reducible apply canon_foldl | dsimp only | simp only [canon_mk] | split)

theorem canon_capture (s : State) (v : Nat) (h_s : s.canon = true) : (capture s v).canon = true := by
  unfold capture
  repeat' (first | with_reducible assumption | intro _ | with_reducible apply canon_send | with_reducible apply canon_ite | with_reducible apply canon_regs | with_reducible apply canon_foldl | dsimp only | simp only [canon_mk] | split)

theorem canon_capturePins (s : State) (board : Nat → Nat) (h_s : s.canon = true) : (capturePins s board).canon = true := by
  unfold capturePins
  repeat' (first | with_reducible assumption | intro _ | with_reducible apply canon_capture | with_reducible apply canon_ite | with_reducible apply canon_regs | with_reducible apply canon_foldl | dsimp only | simp only [canon_mk] | split)

theorem canon_boundaryTest (s : State) (ir : Nat) (h_s : s.canon = true) : (boundaryTest s ir).canon = true := by
  unfold boundaryTest
  repeat' (first | with_reducible assumption | intro _ | with_reducible apply canon_loadIr | with_reducible apply canon_capturePins | with_reducible apply canon_capture | with_reducible apply canon_ite | with_reducible apply canon_regs | with_reducible apply canon_foldl | dsimp only | simp only [canon_mk] | split)

theorem canon_execTestLogicReset (s : State) (h_s : s.canon = true) : resCanon (execTestLogicReset s) = true := by
  unfold execTestLogicReset
  repeat' (first | with_reducible assumption | intro _ | with_reducible apply canon_capture | with_reducible apply canon_loadIr | with_reducible apply canon_ite | with_reducible apply canon_regs | with_reducible apply canon_foldl | with_reducible apply canon_next | with_reducible apply resCanon_ite | dsimp only | simp only [canon_mk] | split)

theorem canon_execExtest (cells : List Nat) (s : State) (h_s : s.canon = true) : resCanon (execExtest cells s) = true := by
  unfold execExtest
  repeat' (first | with_reducible assumption | intro _ | with_reducible apply canon_loadCells | with_reducible apply canon_boundaryTest | with_reducible apply canon_ite | with_reducible apply canon_regs | with_reducible apply canon_foldl | with_reducible apply canon_next | with_reducible apply resCanon_ite | dsimp only | simp only [canon_mk] | split)

theorem canon_execIdcode (s : State) (h_s : s.canon = true) : resCanon (execIdcode s) = true := by
  unfold execIdcode
  repeat' (first | with_reducible assumption | intro _ | with_reducible apply canon_capture | with_reducible apply canon_loadIr | with_reducible apply canon_ite | with_reducible apply canon_regs | with_reducible apply canon_foldl | with_reducible apply canon_next | with_reducible apply resCanon_ite | dsimp only | simp only [canon_mk] | split)

theorem canon_execSamplePreload (cells : List Nat) (pins : List Nat) (s : State) (h_s : s.canon = true) : resCanon (execSamplePreload cells pins s) = true := by
  unfold execSamplePreload
  repeat' (first | with_reducible assumption | intro _ | with_reducible apply canon_loadCells | with_reducible apply canon_capturePins | with_reducible apply canon_loadIr | with_reducible apply canon_ite | with_reducible apply canon_regs | with_reducible apply canon_foldl | with_reducible apply canon_next | with_reducible apply resCanon_ite | dsimp only | simp only [canon_mk] | split)

theorem canon_execClamp (s : State) (h_s : s.canon = true) : resCanon (execClamp s) = true := by
  unfold execClamp
  repeat' (first | with_reducible assumption | intro _ | with_reducible apply canon_capture | with_reducible apply canon_loadIr | with_reducible apply canon_ite | with_reducible apply canon_regs | with_reducible apply canon_foldl | with_reducible apply canon_next | with_reducible apply resCanon_ite | dsimp only | simp only [canon_mk] | split)

theorem canon_execHighz (s : State) (h_s : s.canon = true) : resCanon (execHighz s) = true := by
  unfold execHighz
  repeat' (first | with_reducible assumption | intro _ | with_reducible apply canon_capture | with_reducible apply canon_loadIr | with_reducible apply canon_ite | with_reducible apply canon_regs | with_reducible apply canon_foldl | with_reducible apply canon_next | with_reducible apply resCanon_ite | dsimp only | simp only [canon_mk] | split)

theorem canon_execExtestPulse (s : State) (h_s : s.canon = true) : resCanon (execExtestPulse s) = true := by
  unfold execExtestPulse
  repeat' (first | with_reducible assumption | intro _ | with_reducible apply canon_boundaryTest | with_reducible apply canon_ite | with_reducible apply canon_regs | with_reducible apply canon_foldl | with_reducible apply canon_next | with_reducible apply resCanon_ite | dsimp only | simp only [canon_mk] | split)

theorem canon_execExtestTrain (s : State) (h_s : s.canon = true) : resCanon (execExtestTrain s) = true := by
  unfold execExtestTrain
  repeat' (first | with_reducible assumption | intro _ | with_reducible apply canon_boundaryTest | with_reducible apply canon_ite | with_reducible apply canon_regs | with_reducible apply canon_foldl | with_reducible apply canon_next | with_reducible apply resCanon_ite | dsimp only | simp only [canon_mk] | split)

theorem canon_execBypass (s : State) (h_s : s.canon = true) : resCanon (execBypass s) = true := by
  unfold execBypass
  repeat' (first | with_reducible assumption | intro _ | with_reducible apply canon_capture | with_reducible apply canon_loadIr | with_reducible apply canon_ite | with_reducible apply canon_regs | with_reducible apply canon_foldl | with_reducible apply canon_next | with_reducible apply resCanon_ite | dsimp only | simp only [canon_mk] | split)

end Sys2Proof.Machine
end

