-- ==== Sys2Proof/Laws/State.lean ====
section
/-! SUPPORT. What each update of the state leaves: one lemma per field, and per accessor, of each update. -/

namespace Sys2Proof.Machine

/-! Other register words, all else alike. -/

section
variable (s : State) (r : SMap Word)
theorem State.withRegs_pending : ({ s with regs := r } : State).pending = s.pending := rfl
theorem State.withRegs_tb : ({ s with regs := r } : State).tb = s.tb := rfl
theorem State.withRegs_rf : ({ s with regs := r } : State).rf = s.rf := rfl
theorem State.withRegs_comps : ({ s with regs := r } : State).comps = s.comps := rfl
theorem State.withRegs_inputs : ({ s with regs := r } : State).inputs = s.inputs := rfl
theorem State.withRegs_pgroups : ({ s with regs := r } : State).pgroups = s.pgroups := rfl
theorem State.withRegs_ivals : ({ s with regs := r } : State).ivals = s.ivals := rfl
theorem State.withRegs_anchorQ : ({ s with regs := r } : State).anchorQ = s.anchorQ := rfl
theorem State.withRegs_interps : ({ s with regs := r } : State).interps = s.interps := rfl
theorem State.withRegs_calOps : ({ s with regs := r } : State).calOps = s.calOps := rfl
theorem State.withRegs_lanes : ({ s with regs := r } : State).lanes = s.lanes := rfl
theorem State.withRegs_groups : ({ s with regs := r } : State).groups = s.groups := rfl
theorem State.withRegs_lref : ({ s with regs := r } : State).lref = s.lref := rfl
theorem State.withRegs_models : ({ s with regs := r } : State).models = s.models := rfl
theorem State.withRegs_txns : ({ s with regs := r } : State).txns = s.txns := rfl
theorem State.withRegs_ingress : ({ s with regs := r } : State).ingress = s.ingress := rfl
theorem State.withRegs_toTile : ({ s with regs := r } : State).toTile = s.toTile := rfl
theorem State.withRegs_notices : ({ s with regs := r } : State).notices = s.notices := rfl
theorem State.withRegs_tiles : ({ s with regs := r } : State).tiles = s.tiles := rfl
theorem State.withRegs_links : ({ s with regs := r } : State).links = s.links := rfl
theorem State.withRegs_gates : ({ s with regs := r } : State).gates = s.gates := rfl
theorem State.withRegs_gateDone : ({ s with regs := r } : State).gateDone = s.gateDone := rfl
theorem State.withRegs_accs : ({ s with regs := r } : State).accs = s.accs := rfl
theorem State.withRegs_lastStats : ({ s with regs := r } : State).lastStats = s.lastStats := rfl
theorem State.withRegs_statsFrom : ({ s with regs := r } : State).statsFrom = s.statsFrom := rfl
theorem State.withRegs_defs : ({ s with regs := r } : State).defs = s.defs := rfl
theorem State.withRegs_coreDefs : ({ s with regs := r } : State).coreDefs = s.coreDefs := rfl
theorem State.withRegs_conds : ({ s with regs := r } : State).conds = s.conds := rfl
theorem State.withRegs_decims : ({ s with regs := r } : State).decims = s.decims := rfl
theorem State.withRegs_tin : ({ s with regs := r } : State).tin = s.tin := rfl
theorem State.withRegs_segs : ({ s with regs := r } : State).segs = s.segs := rfl
theorem State.withRegs_pieces : ({ s with regs := r } : State).pieces = s.pieces := rfl
theorem State.withRegs_hqs : ({ s with regs := r } : State).hqs = s.hqs := rfl
theorem State.withRegs_hlanes : ({ s with regs := r } : State).hlanes = s.hlanes := rfl
theorem State.withRegs_cmd : ({ s with regs := r } : State).cmd = s.cmd := rfl
theorem State.withRegs_flt : ({ s with regs := r } : State).flt = s.flt := rfl
theorem State.withRegs_pw : ({ s with regs := r } : State).pw = s.pw := rfl
theorem State.withRegs_jtag : ({ s with regs := r } : State).jtag = s.jtag := rfl
theorem State.withRegs_grants : ({ s with regs := r } : State).grants = s.grants := rfl
theorem State.withRegs_out : ({ s with regs := r } : State).out = s.out := rfl
theorem State.withRegs_freeCount : ({ s with regs := r } : State).freeCount = s.freeCount := rfl
theorem State.withRegs_full : ({ s with regs := r } : State).full = s.full := rfl
theorem State.withRegs_hq (j : Nat) : ({ s with regs := r } : State).hq j = s.hq j := rfl
theorem State.withRegs_lane (j : Nat) : ({ s with regs := r } : State).lane j = s.lane j := rfl
theorem State.withRegs_group (j : Nat) : ({ s with regs := r } : State).group j = s.group j := rfl
theorem State.withRegs_model (j : Nat) : ({ s with regs := r } : State).model j = s.model j := rfl
theorem State.withRegs_txn (j : Nat) : ({ s with regs := r } : State).txn j = s.txn j := rfl
theorem State.withRegs_ing (j : Nat) : ({ s with regs := r } : State).ing j = s.ing j := rfl
theorem State.withRegs_tile (j : Nat) : ({ s with regs := r } : State).tile j = s.tile j := rfl
theorem State.withRegs_hlane (j : Nat) : ({ s with regs := r } : State).hlane j = s.hlane j := rfl
theorem State.withRegs_chan (j : Nat) : ({ s with regs := r } : State).chan j = s.chan j := rfl
theorem State.withRegs_src (j : Nat) : ({ s with regs := r } : State).src j = s.src j := rfl
theorem State.withRegs_tdef (j k : Nat) : ({ s with regs := r } : State).tdef j k = s.tdef j k := rfl
end

/-! `State.setWord` -/

section
variable (s : State) (obj sel idx : Nat) (w : Word)
@[simp] theorem State.setWord_pending : (s.setWord obj sel idx w).pending = s.pending := State.withRegs_pending s _
@[simp] theorem State.setWord_tb : (s.setWord obj sel idx w).tb = s.tb := State.withRegs_tb s _
@[simp] theorem State.setWord_rf : (s.setWord obj sel idx w).rf = s.rf := State.withRegs_rf s _
@[simp] theorem State.setWord_comps : (s.setWord obj sel idx w).comps = s.comps := State.withRegs_comps s _
@[simp] theorem State.setWord_inputs : (s.setWord obj sel idx w).inputs = s.inputs := State.withRegs_inputs s _
@[simp] theorem State.setWord_pgroups : (s.setWord obj sel idx w).pgroups = s.pgroups := State.withRegs_pgroups s _
@[simp] theorem State.setWord_ivals : (s.setWord obj sel idx w).ivals = s.ivals := State.withRegs_ivals s _
@[simp] theorem State.setWord_anchorQ : (s.setWord obj sel idx w).anchorQ = s.anchorQ := State.withRegs_anchorQ s _
@[simp] theorem State.setWord_interps : (s.setWord obj sel idx w).interps = s.interps := State.withRegs_interps s _
@[simp] theorem State.setWord_calOps : (s.setWord obj sel idx w).calOps = s.calOps := State.withRegs_calOps s _
@[simp] theorem State.setWord_lanes : (s.setWord obj sel idx w).lanes = s.lanes := State.withRegs_lanes s _
@[simp] theorem State.setWord_groups : (s.setWord obj sel idx w).groups = s.groups := State.withRegs_groups s _
@[simp] theorem State.setWord_lref : (s.setWord obj sel idx w).lref = s.lref := State.withRegs_lref s _
@[simp] theorem State.setWord_models : (s.setWord obj sel idx w).models = s.models := State.withRegs_models s _
@[simp] theorem State.setWord_txns : (s.setWord obj sel idx w).txns = s.txns := State.withRegs_txns s _
@[simp] theorem State.setWord_ingress : (s.setWord obj sel idx w).ingress = s.ingress := State.withRegs_ingress s _
@[simp] theorem State.setWord_toTile : (s.setWord obj sel idx w).toTile = s.toTile := State.withRegs_toTile s _
@[simp] theorem State.setWord_notices : (s.setWord obj sel idx w).notices = s.notices := State.withRegs_notices s _
@[simp] theorem State.setWord_tiles : (s.setWord obj sel idx w).tiles = s.tiles := State.withRegs_tiles s _
@[simp] theorem State.setWord_links : (s.setWord obj sel idx w).links = s.links := State.withRegs_links s _
@[simp] theorem State.setWord_gates : (s.setWord obj sel idx w).gates = s.gates := State.withRegs_gates s _
@[simp] theorem State.setWord_gateDone : (s.setWord obj sel idx w).gateDone = s.gateDone := State.withRegs_gateDone s _
@[simp] theorem State.setWord_accs : (s.setWord obj sel idx w).accs = s.accs := State.withRegs_accs s _
@[simp] theorem State.setWord_lastStats : (s.setWord obj sel idx w).lastStats = s.lastStats := State.withRegs_lastStats s _
@[simp] theorem State.setWord_statsFrom : (s.setWord obj sel idx w).statsFrom = s.statsFrom := State.withRegs_statsFrom s _
@[simp] theorem State.setWord_defs : (s.setWord obj sel idx w).defs = s.defs := State.withRegs_defs s _
@[simp] theorem State.setWord_coreDefs : (s.setWord obj sel idx w).coreDefs = s.coreDefs := State.withRegs_coreDefs s _
@[simp] theorem State.setWord_conds : (s.setWord obj sel idx w).conds = s.conds := State.withRegs_conds s _
@[simp] theorem State.setWord_decims : (s.setWord obj sel idx w).decims = s.decims := State.withRegs_decims s _
@[simp] theorem State.setWord_tin : (s.setWord obj sel idx w).tin = s.tin := State.withRegs_tin s _
@[simp] theorem State.setWord_segs : (s.setWord obj sel idx w).segs = s.segs := State.withRegs_segs s _
@[simp] theorem State.setWord_pieces : (s.setWord obj sel idx w).pieces = s.pieces := State.withRegs_pieces s _
@[simp] theorem State.setWord_hqs : (s.setWord obj sel idx w).hqs = s.hqs := State.withRegs_hqs s _
@[simp] theorem State.setWord_hlanes : (s.setWord obj sel idx w).hlanes = s.hlanes := State.withRegs_hlanes s _
@[simp] theorem State.setWord_cmd : (s.setWord obj sel idx w).cmd = s.cmd := State.withRegs_cmd s _
@[simp] theorem State.setWord_flt : (s.setWord obj sel idx w).flt = s.flt := State.withRegs_flt s _
@[simp] theorem State.setWord_pw : (s.setWord obj sel idx w).pw = s.pw := State.withRegs_pw s _
@[simp] theorem State.setWord_jtag : (s.setWord obj sel idx w).jtag = s.jtag := State.withRegs_jtag s _
@[simp] theorem State.setWord_grants : (s.setWord obj sel idx w).grants = s.grants := State.withRegs_grants s _
@[simp] theorem State.setWord_out : (s.setWord obj sel idx w).out = s.out := State.withRegs_out s _
@[simp] theorem State.setWord_freeCount : (s.setWord obj sel idx w).freeCount = s.freeCount := State.withRegs_freeCount s _
@[simp] theorem State.setWord_full : (s.setWord obj sel idx w).full = s.full := State.withRegs_full s _
@[simp] theorem State.setWord_hq (j : Nat) : (s.setWord obj sel idx w).hq j = s.hq j := State.withRegs_hq s _ j
@[simp] theorem State.setWord_lane (j : Nat) : (s.setWord obj sel idx w).lane j = s.lane j := State.withRegs_lane s _ j
@[simp] theorem State.setWord_group (j : Nat) : (s.setWord obj sel idx w).group j = s.group j := State.withRegs_group s _ j
@[simp] theorem State.setWord_model (j : Nat) : (s.setWord obj sel idx w).model j = s.model j := State.withRegs_model s _ j
@[simp] theorem State.setWord_txn (j : Nat) : (s.setWord obj sel idx w).txn j = s.txn j := State.withRegs_txn s _ j
@[simp] theorem State.setWord_ing (j : Nat) : (s.setWord obj sel idx w).ing j = s.ing j := State.withRegs_ing s _ j
@[simp] theorem State.setWord_tile (j : Nat) : (s.setWord obj sel idx w).tile j = s.tile j := State.withRegs_tile s _ j
@[simp] theorem State.setWord_hlane (j : Nat) : (s.setWord obj sel idx w).hlane j = s.hlane j := State.withRegs_hlane s _ j
@[simp] theorem State.setWord_chan (j : Nat) : (s.setWord obj sel idx w).chan j = s.chan j := State.withRegs_chan s _ j
@[simp] theorem State.setWord_src (j : Nat) : (s.setWord obj sel idx w).src j = s.src j := State.withRegs_src s _ j
@[simp] theorem State.setWord_tdef (j k : Nat) : (s.setWord obj sel idx w).tdef j k = s.tdef j k := State.withRegs_tdef s _ j k
end

/-! `State.put` -/

section
variable (s : State) (f : Field) (i v : Nat)
@[simp] theorem State.put_pending : (s.put f i v).pending = s.pending := State.withRegs_pending s _
@[simp] theorem State.put_tb : (s.put f i v).tb = s.tb := State.withRegs_tb s _
@[simp] theorem State.put_rf : (s.put f i v).rf = s.rf := State.withRegs_rf s _
@[simp] theorem State.put_comps : (s.put f i v).comps = s.comps := State.withRegs_comps s _
@[simp] theorem State.put_inputs : (s.put f i v).inputs = s.inputs := State.withRegs_inputs s _
@[simp] theorem State.put_pgroups : (s.put f i v).pgroups = s.pgroups := State.withRegs_pgroups s _
@[simp] theorem State.put_ivals : (s.put f i v).ivals = s.ivals := State.withRegs_ivals s _
@[simp] theorem State.put_anchorQ : (s.put f i v).anchorQ = s.anchorQ := State.withRegs_anchorQ s _
@[simp] theorem State.put_interps : (s.put f i v).interps = s.interps := State.withRegs_interps s _
@[simp] theorem State.put_calOps : (s.put f i v).calOps = s.calOps := State.withRegs_calOps s _
@[simp] theorem State.put_lanes : (s.put f i v).lanes = s.lanes := State.withRegs_lanes s _
@[simp] theorem State.put_groups : (s.put f i v).groups = s.groups := State.withRegs_groups s _
@[simp] theorem State.put_lref : (s.put f i v).lref = s.lref := State.withRegs_lref s _
@[simp] theorem State.put_models : (s.put f i v).models = s.models := State.withRegs_models s _
@[simp] theorem State.put_txns : (s.put f i v).txns = s.txns := State.withRegs_txns s _
@[simp] theorem State.put_ingress : (s.put f i v).ingress = s.ingress := State.withRegs_ingress s _
@[simp] theorem State.put_toTile : (s.put f i v).toTile = s.toTile := State.withRegs_toTile s _
@[simp] theorem State.put_notices : (s.put f i v).notices = s.notices := State.withRegs_notices s _
@[simp] theorem State.put_tiles : (s.put f i v).tiles = s.tiles := State.withRegs_tiles s _
@[simp] theorem State.put_links : (s.put f i v).links = s.links := State.withRegs_links s _
@[simp] theorem State.put_gates : (s.put f i v).gates = s.gates := State.withRegs_gates s _
@[simp] theorem State.put_gateDone : (s.put f i v).gateDone = s.gateDone := State.withRegs_gateDone s _
@[simp] theorem State.put_accs : (s.put f i v).accs = s.accs := State.withRegs_accs s _
@[simp] theorem State.put_lastStats : (s.put f i v).lastStats = s.lastStats := State.withRegs_lastStats s _
@[simp] theorem State.put_statsFrom : (s.put f i v).statsFrom = s.statsFrom := State.withRegs_statsFrom s _
@[simp] theorem State.put_defs : (s.put f i v).defs = s.defs := State.withRegs_defs s _
@[simp] theorem State.put_coreDefs : (s.put f i v).coreDefs = s.coreDefs := State.withRegs_coreDefs s _
@[simp] theorem State.put_conds : (s.put f i v).conds = s.conds := State.withRegs_conds s _
@[simp] theorem State.put_decims : (s.put f i v).decims = s.decims := State.withRegs_decims s _
@[simp] theorem State.put_tin : (s.put f i v).tin = s.tin := State.withRegs_tin s _
@[simp] theorem State.put_segs : (s.put f i v).segs = s.segs := State.withRegs_segs s _
@[simp] theorem State.put_pieces : (s.put f i v).pieces = s.pieces := State.withRegs_pieces s _
@[simp] theorem State.put_hqs : (s.put f i v).hqs = s.hqs := State.withRegs_hqs s _
@[simp] theorem State.put_hlanes : (s.put f i v).hlanes = s.hlanes := State.withRegs_hlanes s _
@[simp] theorem State.put_cmd : (s.put f i v).cmd = s.cmd := State.withRegs_cmd s _
@[simp] theorem State.put_flt : (s.put f i v).flt = s.flt := State.withRegs_flt s _
@[simp] theorem State.put_pw : (s.put f i v).pw = s.pw := State.withRegs_pw s _
@[simp] theorem State.put_jtag : (s.put f i v).jtag = s.jtag := State.withRegs_jtag s _
@[simp] theorem State.put_grants : (s.put f i v).grants = s.grants := State.withRegs_grants s _
@[simp] theorem State.put_out : (s.put f i v).out = s.out := State.withRegs_out s _
@[simp] theorem State.put_freeCount : (s.put f i v).freeCount = s.freeCount := State.withRegs_freeCount s _
@[simp] theorem State.put_full : (s.put f i v).full = s.full := State.withRegs_full s _
@[simp] theorem State.put_hq (j : Nat) : (s.put f i v).hq j = s.hq j := State.withRegs_hq s _ j
@[simp] theorem State.put_lane (j : Nat) : (s.put f i v).lane j = s.lane j := State.withRegs_lane s _ j
@[simp] theorem State.put_group (j : Nat) : (s.put f i v).group j = s.group j := State.withRegs_group s _ j
@[simp] theorem State.put_model (j : Nat) : (s.put f i v).model j = s.model j := State.withRegs_model s _ j
@[simp] theorem State.put_txn (j : Nat) : (s.put f i v).txn j = s.txn j := State.withRegs_txn s _ j
@[simp] theorem State.put_ing (j : Nat) : (s.put f i v).ing j = s.ing j := State.withRegs_ing s _ j
@[simp] theorem State.put_tile (j : Nat) : (s.put f i v).tile j = s.tile j := State.withRegs_tile s _ j
@[simp] theorem State.put_hlane (j : Nat) : (s.put f i v).hlane j = s.hlane j := State.withRegs_hlane s _ j
@[simp] theorem State.put_chan (j : Nat) : (s.put f i v).chan j = s.chan j := State.withRegs_chan s _ j
@[simp] theorem State.put_src (j : Nat) : (s.put f i v).src j = s.src j := State.withRegs_src s _ j
@[simp] theorem State.put_tdef (j k : Nat) : (s.put f i v).tdef j k = s.tdef j k := State.withRegs_tdef s _ j k
end

/-! `State.satInc` -/

section
variable (s : State) (f : Field) (i n : Nat)
@[simp] theorem State.satInc_pending : (s.satInc f i n).pending = s.pending := State.withRegs_pending s _
@[simp] theorem State.satInc_tb : (s.satInc f i n).tb = s.tb := State.withRegs_tb s _
@[simp] theorem State.satInc_rf : (s.satInc f i n).rf = s.rf := State.withRegs_rf s _
@[simp] theorem State.satInc_comps : (s.satInc f i n).comps = s.comps := State.withRegs_comps s _
@[simp] theorem State.satInc_inputs : (s.satInc f i n).inputs = s.inputs := State.withRegs_inputs s _
@[simp] theorem State.satInc_pgroups : (s.satInc f i n).pgroups = s.pgroups := State.withRegs_pgroups s _
@[simp] theorem State.satInc_ivals : (s.satInc f i n).ivals = s.ivals := State.withRegs_ivals s _
@[simp] theorem State.satInc_anchorQ : (s.satInc f i n).anchorQ = s.anchorQ := State.withRegs_anchorQ s _
@[simp] theorem State.satInc_interps : (s.satInc f i n).interps = s.interps := State.withRegs_interps s _
@[simp] theorem State.satInc_calOps : (s.satInc f i n).calOps = s.calOps := State.withRegs_calOps s _
@[simp] theorem State.satInc_lanes : (s.satInc f i n).lanes = s.lanes := State.withRegs_lanes s _
@[simp] theorem State.satInc_groups : (s.satInc f i n).groups = s.groups := State.withRegs_groups s _
@[simp] theorem State.satInc_lref : (s.satInc f i n).lref = s.lref := State.withRegs_lref s _
@[simp] theorem State.satInc_models : (s.satInc f i n).models = s.models := State.withRegs_models s _
@[simp] theorem State.satInc_txns : (s.satInc f i n).txns = s.txns := State.withRegs_txns s _
@[simp] theorem State.satInc_ingress : (s.satInc f i n).ingress = s.ingress := State.withRegs_ingress s _
@[simp] theorem State.satInc_toTile : (s.satInc f i n).toTile = s.toTile := State.withRegs_toTile s _
@[simp] theorem State.satInc_notices : (s.satInc f i n).notices = s.notices := State.withRegs_notices s _
@[simp] theorem State.satInc_tiles : (s.satInc f i n).tiles = s.tiles := State.withRegs_tiles s _
@[simp] theorem State.satInc_links : (s.satInc f i n).links = s.links := State.withRegs_links s _
@[simp] theorem State.satInc_gates : (s.satInc f i n).gates = s.gates := State.withRegs_gates s _
@[simp] theorem State.satInc_gateDone : (s.satInc f i n).gateDone = s.gateDone := State.withRegs_gateDone s _
@[simp] theorem State.satInc_accs : (s.satInc f i n).accs = s.accs := State.withRegs_accs s _
@[simp] theorem State.satInc_lastStats : (s.satInc f i n).lastStats = s.lastStats := State.withRegs_lastStats s _
@[simp] theorem State.satInc_statsFrom : (s.satInc f i n).statsFrom = s.statsFrom := State.withRegs_statsFrom s _
@[simp] theorem State.satInc_defs : (s.satInc f i n).defs = s.defs := State.withRegs_defs s _
@[simp] theorem State.satInc_coreDefs : (s.satInc f i n).coreDefs = s.coreDefs := State.withRegs_coreDefs s _
@[simp] theorem State.satInc_conds : (s.satInc f i n).conds = s.conds := State.withRegs_conds s _
@[simp] theorem State.satInc_decims : (s.satInc f i n).decims = s.decims := State.withRegs_decims s _
@[simp] theorem State.satInc_tin : (s.satInc f i n).tin = s.tin := State.withRegs_tin s _
@[simp] theorem State.satInc_segs : (s.satInc f i n).segs = s.segs := State.withRegs_segs s _
@[simp] theorem State.satInc_pieces : (s.satInc f i n).pieces = s.pieces := State.withRegs_pieces s _
@[simp] theorem State.satInc_hqs : (s.satInc f i n).hqs = s.hqs := State.withRegs_hqs s _
@[simp] theorem State.satInc_hlanes : (s.satInc f i n).hlanes = s.hlanes := State.withRegs_hlanes s _
@[simp] theorem State.satInc_cmd : (s.satInc f i n).cmd = s.cmd := State.withRegs_cmd s _
@[simp] theorem State.satInc_flt : (s.satInc f i n).flt = s.flt := State.withRegs_flt s _
@[simp] theorem State.satInc_pw : (s.satInc f i n).pw = s.pw := State.withRegs_pw s _
@[simp] theorem State.satInc_jtag : (s.satInc f i n).jtag = s.jtag := State.withRegs_jtag s _
@[simp] theorem State.satInc_grants : (s.satInc f i n).grants = s.grants := State.withRegs_grants s _
@[simp] theorem State.satInc_out : (s.satInc f i n).out = s.out := State.withRegs_out s _
@[simp] theorem State.satInc_freeCount : (s.satInc f i n).freeCount = s.freeCount := State.withRegs_freeCount s _
@[simp] theorem State.satInc_full : (s.satInc f i n).full = s.full := State.withRegs_full s _
@[simp] theorem State.satInc_hq (j : Nat) : (s.satInc f i n).hq j = s.hq j := State.withRegs_hq s _ j
@[simp] theorem State.satInc_lane (j : Nat) : (s.satInc f i n).lane j = s.lane j := State.withRegs_lane s _ j
@[simp] theorem State.satInc_group (j : Nat) : (s.satInc f i n).group j = s.group j := State.withRegs_group s _ j
@[simp] theorem State.satInc_model (j : Nat) : (s.satInc f i n).model j = s.model j := State.withRegs_model s _ j
@[simp] theorem State.satInc_txn (j : Nat) : (s.satInc f i n).txn j = s.txn j := State.withRegs_txn s _ j
@[simp] theorem State.satInc_ing (j : Nat) : (s.satInc f i n).ing j = s.ing j := State.withRegs_ing s _ j
@[simp] theorem State.satInc_tile (j : Nat) : (s.satInc f i n).tile j = s.tile j := State.withRegs_tile s _ j
@[simp] theorem State.satInc_hlane (j : Nat) : (s.satInc f i n).hlane j = s.hlane j := State.withRegs_hlane s _ j
@[simp] theorem State.satInc_chan (j : Nat) : (s.satInc f i n).chan j = s.chan j := State.withRegs_chan s _ j
@[simp] theorem State.satInc_src (j : Nat) : (s.satInc f i n).src j = s.src j := State.withRegs_src s _ j
@[simp] theorem State.satInc_tdef (j k : Nat) : (s.satInc f i n).tdef j k = s.tdef j k := State.withRegs_tdef s _ j k
end

/-! `State.wrapInc` -/

section
variable (s : State) (f : Field) (i n : Nat)
@[simp] theorem State.wrapInc_pending : (s.wrapInc f i n).pending = s.pending := State.withRegs_pending s _
@[simp] theorem State.wrapInc_tb : (s.wrapInc f i n).tb = s.tb := State.withRegs_tb s _
@[simp] theorem State.wrapInc_rf : (s.wrapInc f i n).rf = s.rf := State.withRegs_rf s _
@[simp] theorem State.wrapInc_comps : (s.wrapInc f i n).comps = s.comps := State.withRegs_comps s _
@[simp] theorem State.wrapInc_inputs : (s.wrapInc f i n).inputs = s.inputs := State.withRegs_inputs s _
@[simp] theorem State.wrapInc_pgroups : (s.wrapInc f i n).pgroups = s.pgroups := State.withRegs_pgroups s _
@[simp] theorem State.wrapInc_ivals : (s.wrapInc f i n).ivals = s.ivals := State.withRegs_ivals s _
@[simp] theorem State.wrapInc_anchorQ : (s.wrapInc f i n).anchorQ = s.anchorQ := State.withRegs_anchorQ s _
@[simp] theorem State.wrapInc_interps : (s.wrapInc f i n).interps = s.interps := State.withRegs_interps s _
@[simp] theorem State.wrapInc_calOps : (s.wrapInc f i n).calOps = s.calOps := State.withRegs_calOps s _
@[simp] theorem State.wrapInc_lanes : (s.wrapInc f i n).lanes = s.lanes := State.withRegs_lanes s _
@[simp] theorem State.wrapInc_groups : (s.wrapInc f i n).groups = s.groups := State.withRegs_groups s _
@[simp] theorem State.wrapInc_lref : (s.wrapInc f i n).lref = s.lref := State.withRegs_lref s _
@[simp] theorem State.wrapInc_models : (s.wrapInc f i n).models = s.models := State.withRegs_models s _
@[simp] theorem State.wrapInc_txns : (s.wrapInc f i n).txns = s.txns := State.withRegs_txns s _
@[simp] theorem State.wrapInc_ingress : (s.wrapInc f i n).ingress = s.ingress := State.withRegs_ingress s _
@[simp] theorem State.wrapInc_toTile : (s.wrapInc f i n).toTile = s.toTile := State.withRegs_toTile s _
@[simp] theorem State.wrapInc_notices : (s.wrapInc f i n).notices = s.notices := State.withRegs_notices s _
@[simp] theorem State.wrapInc_tiles : (s.wrapInc f i n).tiles = s.tiles := State.withRegs_tiles s _
@[simp] theorem State.wrapInc_links : (s.wrapInc f i n).links = s.links := State.withRegs_links s _
@[simp] theorem State.wrapInc_gates : (s.wrapInc f i n).gates = s.gates := State.withRegs_gates s _
@[simp] theorem State.wrapInc_gateDone : (s.wrapInc f i n).gateDone = s.gateDone := State.withRegs_gateDone s _
@[simp] theorem State.wrapInc_accs : (s.wrapInc f i n).accs = s.accs := State.withRegs_accs s _
@[simp] theorem State.wrapInc_lastStats : (s.wrapInc f i n).lastStats = s.lastStats := State.withRegs_lastStats s _
@[simp] theorem State.wrapInc_statsFrom : (s.wrapInc f i n).statsFrom = s.statsFrom := State.withRegs_statsFrom s _
@[simp] theorem State.wrapInc_defs : (s.wrapInc f i n).defs = s.defs := State.withRegs_defs s _
@[simp] theorem State.wrapInc_coreDefs : (s.wrapInc f i n).coreDefs = s.coreDefs := State.withRegs_coreDefs s _
@[simp] theorem State.wrapInc_conds : (s.wrapInc f i n).conds = s.conds := State.withRegs_conds s _
@[simp] theorem State.wrapInc_decims : (s.wrapInc f i n).decims = s.decims := State.withRegs_decims s _
@[simp] theorem State.wrapInc_tin : (s.wrapInc f i n).tin = s.tin := State.withRegs_tin s _
@[simp] theorem State.wrapInc_segs : (s.wrapInc f i n).segs = s.segs := State.withRegs_segs s _
@[simp] theorem State.wrapInc_pieces : (s.wrapInc f i n).pieces = s.pieces := State.withRegs_pieces s _
@[simp] theorem State.wrapInc_hqs : (s.wrapInc f i n).hqs = s.hqs := State.withRegs_hqs s _
@[simp] theorem State.wrapInc_hlanes : (s.wrapInc f i n).hlanes = s.hlanes := State.withRegs_hlanes s _
@[simp] theorem State.wrapInc_cmd : (s.wrapInc f i n).cmd = s.cmd := State.withRegs_cmd s _
@[simp] theorem State.wrapInc_flt : (s.wrapInc f i n).flt = s.flt := State.withRegs_flt s _
@[simp] theorem State.wrapInc_pw : (s.wrapInc f i n).pw = s.pw := State.withRegs_pw s _
@[simp] theorem State.wrapInc_jtag : (s.wrapInc f i n).jtag = s.jtag := State.withRegs_jtag s _
@[simp] theorem State.wrapInc_grants : (s.wrapInc f i n).grants = s.grants := State.withRegs_grants s _
@[simp] theorem State.wrapInc_out : (s.wrapInc f i n).out = s.out := State.withRegs_out s _
@[simp] theorem State.wrapInc_freeCount : (s.wrapInc f i n).freeCount = s.freeCount := State.withRegs_freeCount s _
@[simp] theorem State.wrapInc_full : (s.wrapInc f i n).full = s.full := State.withRegs_full s _
@[simp] theorem State.wrapInc_hq (j : Nat) : (s.wrapInc f i n).hq j = s.hq j := State.withRegs_hq s _ j
@[simp] theorem State.wrapInc_lane (j : Nat) : (s.wrapInc f i n).lane j = s.lane j := State.withRegs_lane s _ j
@[simp] theorem State.wrapInc_group (j : Nat) : (s.wrapInc f i n).group j = s.group j := State.withRegs_group s _ j
@[simp] theorem State.wrapInc_model (j : Nat) : (s.wrapInc f i n).model j = s.model j := State.withRegs_model s _ j
@[simp] theorem State.wrapInc_txn (j : Nat) : (s.wrapInc f i n).txn j = s.txn j := State.withRegs_txn s _ j
@[simp] theorem State.wrapInc_ing (j : Nat) : (s.wrapInc f i n).ing j = s.ing j := State.withRegs_ing s _ j
@[simp] theorem State.wrapInc_tile (j : Nat) : (s.wrapInc f i n).tile j = s.tile j := State.withRegs_tile s _ j
@[simp] theorem State.wrapInc_hlane (j : Nat) : (s.wrapInc f i n).hlane j = s.hlane j := State.withRegs_hlane s _ j
@[simp] theorem State.wrapInc_chan (j : Nat) : (s.wrapInc f i n).chan j = s.chan j := State.withRegs_chan s _ j
@[simp] theorem State.wrapInc_src (j : Nat) : (s.wrapInc f i n).src j = s.src j := State.withRegs_src s _ j
@[simp] theorem State.wrapInc_tdef (j k : Nat) : (s.wrapInc f i n).tdef j k = s.tdef j k := State.withRegs_tdef s _ j k
end

/-! `State.setFull` -/

section
variable (s : State) (f : Nat)
@[simp] theorem State.setFull_pending : (s.setFull f).pending = s.pending := rfl
@[simp] theorem State.setFull_regs : (s.setFull f).regs = s.regs := rfl
@[simp] theorem State.setFull_rf : (s.setFull f).rf = s.rf := rfl
@[simp] theorem State.setFull_comps : (s.setFull f).comps = s.comps := rfl
@[simp] theorem State.setFull_inputs : (s.setFull f).inputs = s.inputs := rfl
@[simp] theorem State.setFull_pgroups : (s.setFull f).pgroups = s.pgroups := rfl
@[simp] theorem State.setFull_ivals : (s.setFull f).ivals = s.ivals := rfl
@[simp] theorem State.setFull_anchorQ : (s.setFull f).anchorQ = s.anchorQ := rfl
@[simp] theorem State.setFull_interps : (s.setFull f).interps = s.interps := rfl
@[simp] theorem State.setFull_calOps : (s.setFull f).calOps = s.calOps := rfl
@[simp] theorem State.setFull_lanes : (s.setFull f).lanes = s.lanes := rfl
@[simp] theorem State.setFull_groups : (s.setFull f).groups = s.groups := rfl
@[simp] theorem State.setFull_lref : (s.setFull f).lref = s.lref := rfl
@[simp] theorem State.setFull_models : (s.setFull f).models = s.models := rfl
@[simp] theorem State.setFull_txns : (s.setFull f).txns = s.txns := rfl
@[simp] theorem State.setFull_ingress : (s.setFull f).ingress = s.ingress := rfl
@[simp] theorem State.setFull_toTile : (s.setFull f).toTile = s.toTile := rfl
@[simp] theorem State.setFull_notices : (s.setFull f).notices = s.notices := rfl
@[simp] theorem State.setFull_tiles : (s.setFull f).tiles = s.tiles := rfl
@[simp] theorem State.setFull_links : (s.setFull f).links = s.links := rfl
@[simp] theorem State.setFull_gates : (s.setFull f).gates = s.gates := rfl
@[simp] theorem State.setFull_gateDone : (s.setFull f).gateDone = s.gateDone := rfl
@[simp] theorem State.setFull_accs : (s.setFull f).accs = s.accs := rfl
@[simp] theorem State.setFull_lastStats : (s.setFull f).lastStats = s.lastStats := rfl
@[simp] theorem State.setFull_statsFrom : (s.setFull f).statsFrom = s.statsFrom := rfl
@[simp] theorem State.setFull_defs : (s.setFull f).defs = s.defs := rfl
@[simp] theorem State.setFull_coreDefs : (s.setFull f).coreDefs = s.coreDefs := rfl
@[simp] theorem State.setFull_conds : (s.setFull f).conds = s.conds := rfl
@[simp] theorem State.setFull_decims : (s.setFull f).decims = s.decims := rfl
@[simp] theorem State.setFull_tin : (s.setFull f).tin = s.tin := rfl
@[simp] theorem State.setFull_segs : (s.setFull f).segs = s.segs := rfl
@[simp] theorem State.setFull_pieces : (s.setFull f).pieces = s.pieces := rfl
@[simp] theorem State.setFull_hqs : (s.setFull f).hqs = s.hqs := rfl
@[simp] theorem State.setFull_hlanes : (s.setFull f).hlanes = s.hlanes := rfl
@[simp] theorem State.setFull_cmd : (s.setFull f).cmd = s.cmd := rfl
@[simp] theorem State.setFull_flt : (s.setFull f).flt = s.flt := rfl
@[simp] theorem State.setFull_pw : (s.setFull f).pw = s.pw := rfl
@[simp] theorem State.setFull_jtag : (s.setFull f).jtag = s.jtag := rfl
@[simp] theorem State.setFull_grants : (s.setFull f).grants = s.grants := rfl
@[simp] theorem State.setFull_out : (s.setFull f).out = s.out := rfl
@[simp] theorem State.setFull_freeCount : (s.setFull f).freeCount = s.freeCount := rfl
@[simp] theorem State.setFull_word (o e j : Nat) : (s.setFull f).word o e j = s.word o e j := rfl
@[simp] theorem State.setFull_get (h : Field) (j : Nat) : (s.setFull f).get h j = s.get h j := rfl
@[simp] theorem State.setFull_flag (h : Field) (j : Nat) : (s.setFull f).flag h j = s.flag h j := rfl
@[simp] theorem State.setFull_hq (j : Nat) : (s.setFull f).hq j = s.hq j := rfl
@[simp] theorem State.setFull_lane (j : Nat) : (s.setFull f).lane j = s.lane j := rfl
@[simp] theorem State.setFull_group (j : Nat) : (s.setFull f).group j = s.group j := rfl
@[simp] theorem State.setFull_model (j : Nat) : (s.setFull f).model j = s.model j := rfl
@[simp] theorem State.setFull_txn (j : Nat) : (s.setFull f).txn j = s.txn j := rfl
@[simp] theorem State.setFull_ing (j : Nat) : (s.setFull f).ing j = s.ing j := rfl
@[simp] theorem State.setFull_tile (j : Nat) : (s.setFull f).tile j = s.tile j := rfl
@[simp] theorem State.setFull_hlane (j : Nat) : (s.setFull f).hlane j = s.hlane j := rfl
@[simp] theorem State.setFull_chan (j : Nat) : (s.setFull f).chan j = s.chan j := rfl
@[simp] theorem State.setFull_src (j : Nat) : (s.setFull f).src j = s.src j := rfl
@[simp] theorem State.setFull_tdef (j k : Nat) : (s.setFull f).tdef j k = s.tdef j k := rfl
end

/-! `State.setHq` -/

section
variable (s : State) (q : Nat) (x : HQueue)
@[simp] theorem State.setHq_pending : (s.setHq q x).pending = s.pending := rfl
@[simp] theorem State.setHq_regs : (s.setHq q x).regs = s.regs := rfl
@[simp] theorem State.setHq_tb : (s.setHq q x).tb = s.tb := rfl
@[simp] theorem State.setHq_rf : (s.setHq q x).rf = s.rf := rfl
@[simp] theorem State.setHq_comps : (s.setHq q x).comps = s.comps := rfl
@[simp] theorem State.setHq_inputs : (s.setHq q x).inputs = s.inputs := rfl
@[simp] theorem State.setHq_pgroups : (s.setHq q x).pgroups = s.pgroups := rfl
@[simp] theorem State.setHq_ivals : (s.setHq q x).ivals = s.ivals := rfl
@[simp] theorem State.setHq_anchorQ : (s.setHq q x).anchorQ = s.anchorQ := rfl
@[simp] theorem State.setHq_interps : (s.setHq q x).interps = s.interps := rfl
@[simp] theorem State.setHq_calOps : (s.setHq q x).calOps = s.calOps := rfl
@[simp] theorem State.setHq_lanes : (s.setHq q x).lanes = s.lanes := rfl
@[simp] theorem State.setHq_groups : (s.setHq q x).groups = s.groups := rfl
@[simp] theorem State.setHq_lref : (s.setHq q x).lref = s.lref := rfl
@[simp] theorem State.setHq_models : (s.setHq q x).models = s.models := rfl
@[simp] theorem State.setHq_txns : (s.setHq q x).txns = s.txns := rfl
@[simp] theorem State.setHq_ingress : (s.setHq q x).ingress = s.ingress := rfl
@[simp] theorem State.setHq_toTile : (s.setHq q x).toTile = s.toTile := rfl
@[simp] theorem State.setHq_notices : (s.setHq q x).notices = s.notices := rfl
@[simp] theorem State.setHq_tiles : (s.setHq q x).tiles = s.tiles := rfl
@[simp] theorem State.setHq_links : (s.setHq q x).links = s.links := rfl
@[simp] theorem State.setHq_gates : (s.setHq q x).gates = s.gates := rfl
@[simp] theorem State.setHq_gateDone : (s.setHq q x).gateDone = s.gateDone := rfl
@[simp] theorem State.setHq_accs : (s.setHq q x).accs = s.accs := rfl
@[simp] theorem State.setHq_lastStats : (s.setHq q x).lastStats = s.lastStats := rfl
@[simp] theorem State.setHq_statsFrom : (s.setHq q x).statsFrom = s.statsFrom := rfl
@[simp] theorem State.setHq_defs : (s.setHq q x).defs = s.defs := rfl
@[simp] theorem State.setHq_coreDefs : (s.setHq q x).coreDefs = s.coreDefs := rfl
@[simp] theorem State.setHq_conds : (s.setHq q x).conds = s.conds := rfl
@[simp] theorem State.setHq_decims : (s.setHq q x).decims = s.decims := rfl
@[simp] theorem State.setHq_tin : (s.setHq q x).tin = s.tin := rfl
@[simp] theorem State.setHq_segs : (s.setHq q x).segs = s.segs := rfl
@[simp] theorem State.setHq_pieces : (s.setHq q x).pieces = s.pieces := rfl
@[simp] theorem State.setHq_hlanes : (s.setHq q x).hlanes = s.hlanes := rfl
@[simp] theorem State.setHq_cmd : (s.setHq q x).cmd = s.cmd := rfl
@[simp] theorem State.setHq_flt : (s.setHq q x).flt = s.flt := rfl
@[simp] theorem State.setHq_pw : (s.setHq q x).pw = s.pw := rfl
@[simp] theorem State.setHq_jtag : (s.setHq q x).jtag = s.jtag := rfl
@[simp] theorem State.setHq_grants : (s.setHq q x).grants = s.grants := rfl
@[simp] theorem State.setHq_out : (s.setHq q x).out = s.out := rfl
@[simp] theorem State.setHq_freeCount : (s.setHq q x).freeCount = s.freeCount := rfl
@[simp] theorem State.setHq_word (o e j : Nat) : (s.setHq q x).word o e j = s.word o e j := rfl
@[simp] theorem State.setHq_get (h : Field) (j : Nat) : (s.setHq q x).get h j = s.get h j := rfl
@[simp] theorem State.setHq_flag (h : Field) (j : Nat) : (s.setHq q x).flag h j = s.flag h j := rfl
@[simp] theorem State.setHq_full : (s.setHq q x).full = s.full := rfl
@[simp] theorem State.setHq_lane (j : Nat) : (s.setHq q x).lane j = s.lane j := rfl
@[simp] theorem State.setHq_group (j : Nat) : (s.setHq q x).group j = s.group j := rfl
@[simp] theorem State.setHq_model (j : Nat) : (s.setHq q x).model j = s.model j := rfl
@[simp] theorem State.setHq_txn (j : Nat) : (s.setHq q x).txn j = s.txn j := rfl
@[simp] theorem State.setHq_ing (j : Nat) : (s.setHq q x).ing j = s.ing j := rfl
@[simp] theorem State.setHq_tile (j : Nat) : (s.setHq q x).tile j = s.tile j := rfl
@[simp] theorem State.setHq_hlane (j : Nat) : (s.setHq q x).hlane j = s.hlane j := rfl
@[simp] theorem State.setHq_chan (j : Nat) : (s.setHq q x).chan j = s.chan j := rfl
@[simp] theorem State.setHq_src (j : Nat) : (s.setHq q x).src j = s.src j := rfl
@[simp] theorem State.setHq_tdef (j k : Nat) : (s.setHq q x).tdef j k = s.tdef j k := rfl
end

/-! `State.setLane` -/

section
variable (s : State) (l : Nat) (x : LaneX)
@[simp] theorem State.setLane_pending : (s.setLane l x).pending = s.pending := rfl
@[simp] theorem State.setLane_regs : (s.setLane l x).regs = s.regs := rfl
@[simp] theorem State.setLane_tb : (s.setLane l x).tb = s.tb := rfl
@[simp] theorem State.setLane_rf : (s.setLane l x).rf = s.rf := rfl
@[simp] theorem State.setLane_comps : (s.setLane l x).comps = s.comps := rfl
@[simp] theorem State.setLane_inputs : (s.setLane l x).inputs = s.inputs := rfl
@[simp] theorem State.setLane_pgroups : (s.setLane l x).pgroups = s.pgroups := rfl
@[simp] theorem State.setLane_ivals : (s.setLane l x).ivals = s.ivals := rfl
@[simp] theorem State.setLane_anchorQ : (s.setLane l x).anchorQ = s.anchorQ := rfl
@[simp] theorem State.setLane_interps : (s.setLane l x).interps = s.interps := rfl
@[simp] theorem State.setLane_calOps : (s.setLane l x).calOps = s.calOps := rfl
@[simp] theorem State.setLane_groups : (s.setLane l x).groups = s.groups := rfl
@[simp] theorem State.setLane_lref : (s.setLane l x).lref = s.lref := rfl
@[simp] theorem State.setLane_models : (s.setLane l x).models = s.models := rfl
@[simp] theorem State.setLane_txns : (s.setLane l x).txns = s.txns := rfl
@[simp] theorem State.setLane_ingress : (s.setLane l x).ingress = s.ingress := rfl
@[simp] theorem State.setLane_toTile : (s.setLane l x).toTile = s.toTile := rfl
@[simp] theorem State.setLane_notices : (s.setLane l x).notices = s.notices := rfl
@[simp] theorem State.setLane_tiles : (s.setLane l x).tiles = s.tiles := rfl
@[simp] theorem State.setLane_links : (s.setLane l x).links = s.links := rfl
@[simp] theorem State.setLane_gates : (s.setLane l x).gates = s.gates := rfl
@[simp] theorem State.setLane_gateDone : (s.setLane l x).gateDone = s.gateDone := rfl
@[simp] theorem State.setLane_accs : (s.setLane l x).accs = s.accs := rfl
@[simp] theorem State.setLane_lastStats : (s.setLane l x).lastStats = s.lastStats := rfl
@[simp] theorem State.setLane_statsFrom : (s.setLane l x).statsFrom = s.statsFrom := rfl
@[simp] theorem State.setLane_defs : (s.setLane l x).defs = s.defs := rfl
@[simp] theorem State.setLane_coreDefs : (s.setLane l x).coreDefs = s.coreDefs := rfl
@[simp] theorem State.setLane_conds : (s.setLane l x).conds = s.conds := rfl
@[simp] theorem State.setLane_decims : (s.setLane l x).decims = s.decims := rfl
@[simp] theorem State.setLane_tin : (s.setLane l x).tin = s.tin := rfl
@[simp] theorem State.setLane_segs : (s.setLane l x).segs = s.segs := rfl
@[simp] theorem State.setLane_pieces : (s.setLane l x).pieces = s.pieces := rfl
@[simp] theorem State.setLane_hqs : (s.setLane l x).hqs = s.hqs := rfl
@[simp] theorem State.setLane_hlanes : (s.setLane l x).hlanes = s.hlanes := rfl
@[simp] theorem State.setLane_cmd : (s.setLane l x).cmd = s.cmd := rfl
@[simp] theorem State.setLane_flt : (s.setLane l x).flt = s.flt := rfl
@[simp] theorem State.setLane_pw : (s.setLane l x).pw = s.pw := rfl
@[simp] theorem State.setLane_jtag : (s.setLane l x).jtag = s.jtag := rfl
@[simp] theorem State.setLane_grants : (s.setLane l x).grants = s.grants := rfl
@[simp] theorem State.setLane_out : (s.setLane l x).out = s.out := rfl
@[simp] theorem State.setLane_freeCount : (s.setLane l x).freeCount = s.freeCount := rfl
@[simp] theorem State.setLane_word (o e j : Nat) : (s.setLane l x).word o e j = s.word o e j := rfl
@[simp] theorem State.setLane_get (h : Field) (j : Nat) : (s.setLane l x).get h j = s.get h j := rfl
@[simp] theorem State.setLane_flag (h : Field) (j : Nat) : (s.setLane l x).flag h j = s.flag h j := rfl
@[simp] theorem State.setLane_full : (s.setLane l x).full = s.full := rfl
@[simp] theorem State.setLane_hq (j : Nat) : (s.setLane l x).hq j = s.hq j := rfl
@[simp] theorem State.setLane_group (j : Nat) : (s.setLane l x).group j = s.group j := rfl
@[simp] theorem State.setLane_model (j : Nat) : (s.setLane l x).model j = s.model j := rfl
@[simp] theorem State.setLane_txn (j : Nat) : (s.setLane l x).txn j = s.txn j := rfl
@[simp] theorem State.setLane_ing (j : Nat) : (s.setLane l x).ing j = s.ing j := rfl
@[simp] theorem State.setLane_tile (j : Nat) : (s.setLane l x).tile j = s.tile j := rfl
@[simp] theorem State.setLane_hlane (j : Nat) : (s.setLane l x).hlane j = s.hlane j := rfl
@[simp] theorem State.setLane_chan (j : Nat) : (s.setLane l x).chan j = s.chan j := rfl
@[simp] theorem State.setLane_src (j : Nat) : (s.setLane l x).src j = s.src j := rfl
@[simp] theorem State.setLane_tdef (j k : Nat) : (s.setLane l x).tdef j k = s.tdef j k := rfl
end

/-! `State.setGroup` -/

section
variable (s : State) (g : Nat) (x : GroupX)
@[simp] theorem State.setGroup_pending : (s.setGroup g x).pending = s.pending := rfl
@[simp] theorem State.setGroup_regs : (s.setGroup g x).regs = s.regs := rfl
@[simp] theorem State.setGroup_tb : (s.setGroup g x).tb = s.tb := rfl
@[simp] theorem State.setGroup_rf : (s.setGroup g x).rf = s.rf := rfl
@[simp] theorem State.setGroup_comps : (s.setGroup g x).comps = s.comps := rfl
@[simp] theorem State.setGroup_inputs : (s.setGroup g x).inputs = s.inputs := rfl
@[simp] theorem State.setGroup_pgroups : (s.setGroup g x).pgroups = s.pgroups := rfl
@[simp] theorem State.setGroup_ivals : (s.setGroup g x).ivals = s.ivals := rfl
@[simp] theorem State.setGroup_anchorQ : (s.setGroup g x).anchorQ = s.anchorQ := rfl
@[simp] theorem State.setGroup_interps : (s.setGroup g x).interps = s.interps := rfl
@[simp] theorem State.setGroup_calOps : (s.setGroup g x).calOps = s.calOps := rfl
@[simp] theorem State.setGroup_lanes : (s.setGroup g x).lanes = s.lanes := rfl
@[simp] theorem State.setGroup_lref : (s.setGroup g x).lref = s.lref := rfl
@[simp] theorem State.setGroup_models : (s.setGroup g x).models = s.models := rfl
@[simp] theorem State.setGroup_txns : (s.setGroup g x).txns = s.txns := rfl
@[simp] theorem State.setGroup_ingress : (s.setGroup g x).ingress = s.ingress := rfl
@[simp] theorem State.setGroup_toTile : (s.setGroup g x).toTile = s.toTile := rfl
@[simp] theorem State.setGroup_notices : (s.setGroup g x).notices = s.notices := rfl
@[simp] theorem State.setGroup_tiles : (s.setGroup g x).tiles = s.tiles := rfl
@[simp] theorem State.setGroup_links : (s.setGroup g x).links = s.links := rfl
@[simp] theorem State.setGroup_gates : (s.setGroup g x).gates = s.gates := rfl
@[simp] theorem State.setGroup_gateDone : (s.setGroup g x).gateDone = s.gateDone := rfl
@[simp] theorem State.setGroup_accs : (s.setGroup g x).accs = s.accs := rfl
@[simp] theorem State.setGroup_lastStats : (s.setGroup g x).lastStats = s.lastStats := rfl
@[simp] theorem State.setGroup_statsFrom : (s.setGroup g x).statsFrom = s.statsFrom := rfl
@[simp] theorem State.setGroup_defs : (s.setGroup g x).defs = s.defs := rfl
@[simp] theorem State.setGroup_coreDefs : (s.setGroup g x).coreDefs = s.coreDefs := rfl
@[simp] theorem State.setGroup_conds : (s.setGroup g x).conds = s.conds := rfl
@[simp] theorem State.setGroup_decims : (s.setGroup g x).decims = s.decims := rfl
@[simp] theorem State.setGroup_tin : (s.setGroup g x).tin = s.tin := rfl
@[simp] theorem State.setGroup_segs : (s.setGroup g x).segs = s.segs := rfl
@[simp] theorem State.setGroup_pieces : (s.setGroup g x).pieces = s.pieces := rfl
@[simp] theorem State.setGroup_hqs : (s.setGroup g x).hqs = s.hqs := rfl
@[simp] theorem State.setGroup_hlanes : (s.setGroup g x).hlanes = s.hlanes := rfl
@[simp] theorem State.setGroup_cmd : (s.setGroup g x).cmd = s.cmd := rfl
@[simp] theorem State.setGroup_flt : (s.setGroup g x).flt = s.flt := rfl
@[simp] theorem State.setGroup_pw : (s.setGroup g x).pw = s.pw := rfl
@[simp] theorem State.setGroup_jtag : (s.setGroup g x).jtag = s.jtag := rfl
@[simp] theorem State.setGroup_grants : (s.setGroup g x).grants = s.grants := rfl
@[simp] theorem State.setGroup_out : (s.setGroup g x).out = s.out := rfl
@[simp] theorem State.setGroup_freeCount : (s.setGroup g x).freeCount = s.freeCount := rfl
@[simp] theorem State.setGroup_word (o e j : Nat) : (s.setGroup g x).word o e j = s.word o e j := rfl
@[simp] theorem State.setGroup_get (h : Field) (j : Nat) : (s.setGroup g x).get h j = s.get h j := rfl
@[simp] theorem State.setGroup_flag (h : Field) (j : Nat) : (s.setGroup g x).flag h j = s.flag h j := rfl
@[simp] theorem State.setGroup_full : (s.setGroup g x).full = s.full := rfl
@[simp] theorem State.setGroup_hq (j : Nat) : (s.setGroup g x).hq j = s.hq j := rfl
@[simp] theorem State.setGroup_lane (j : Nat) : (s.setGroup g x).lane j = s.lane j := rfl
@[simp] theorem State.setGroup_model (j : Nat) : (s.setGroup g x).model j = s.model j := rfl
@[simp] theorem State.setGroup_txn (j : Nat) : (s.setGroup g x).txn j = s.txn j := rfl
@[simp] theorem State.setGroup_ing (j : Nat) : (s.setGroup g x).ing j = s.ing j := rfl
@[simp] theorem State.setGroup_tile (j : Nat) : (s.setGroup g x).tile j = s.tile j := rfl
@[simp] theorem State.setGroup_hlane (j : Nat) : (s.setGroup g x).hlane j = s.hlane j := rfl
@[simp] theorem State.setGroup_chan (j : Nat) : (s.setGroup g x).chan j = s.chan j := rfl
@[simp] theorem State.setGroup_src (j : Nat) : (s.setGroup g x).src j = s.src j := rfl
@[simp] theorem State.setGroup_tdef (j k : Nat) : (s.setGroup g x).tdef j k = s.tdef j k := rfl
end

/-! `State.setModel` -/

section
variable (s : State) (l : Nat) (x : Model)
@[simp] theorem State.setModel_pending : (s.setModel l x).pending = s.pending := rfl
@[simp] theorem State.setModel_regs : (s.setModel l x).regs = s.regs := rfl
@[simp] theorem State.setModel_tb : (s.setModel l x).tb = s.tb := rfl
@[simp] theorem State.setModel_rf : (s.setModel l x).rf = s.rf := rfl
@[simp] theorem State.setModel_comps : (s.setModel l x).comps = s.comps := rfl
@[simp] theorem State.setModel_inputs : (s.setModel l x).inputs = s.inputs := rfl
@[simp] theorem State.setModel_pgroups : (s.setModel l x).pgroups = s.pgroups := rfl
@[simp] theorem State.setModel_ivals : (s.setModel l x).ivals = s.ivals := rfl
@[simp] theorem State.setModel_anchorQ : (s.setModel l x).anchorQ = s.anchorQ := rfl
@[simp] theorem State.setModel_interps : (s.setModel l x).interps = s.interps := rfl
@[simp] theorem State.setModel_calOps : (s.setModel l x).calOps = s.calOps := rfl
@[simp] theorem State.setModel_lanes : (s.setModel l x).lanes = s.lanes := rfl
@[simp] theorem State.setModel_groups : (s.setModel l x).groups = s.groups := rfl
@[simp] theorem State.setModel_lref : (s.setModel l x).lref = s.lref := rfl
@[simp] theorem State.setModel_txns : (s.setModel l x).txns = s.txns := rfl
@[simp] theorem State.setModel_ingress : (s.setModel l x).ingress = s.ingress := rfl
@[simp] theorem State.setModel_toTile : (s.setModel l x).toTile = s.toTile := rfl
@[simp] theorem State.setModel_notices : (s.setModel l x).notices = s.notices := rfl
@[simp] theorem State.setModel_tiles : (s.setModel l x).tiles = s.tiles := rfl
@[simp] theorem State.setModel_links : (s.setModel l x).links = s.links := rfl
@[simp] theorem State.setModel_gates : (s.setModel l x).gates = s.gates := rfl
@[simp] theorem State.setModel_gateDone : (s.setModel l x).gateDone = s.gateDone := rfl
@[simp] theorem State.setModel_accs : (s.setModel l x).accs = s.accs := rfl
@[simp] theorem State.setModel_lastStats : (s.setModel l x).lastStats = s.lastStats := rfl
@[simp] theorem State.setModel_statsFrom : (s.setModel l x).statsFrom = s.statsFrom := rfl
@[simp] theorem State.setModel_defs : (s.setModel l x).defs = s.defs := rfl
@[simp] theorem State.setModel_coreDefs : (s.setModel l x).coreDefs = s.coreDefs := rfl
@[simp] theorem State.setModel_conds : (s.setModel l x).conds = s.conds := rfl
@[simp] theorem State.setModel_decims : (s.setModel l x).decims = s.decims := rfl
@[simp] theorem State.setModel_tin : (s.setModel l x).tin = s.tin := rfl
@[simp] theorem State.setModel_segs : (s.setModel l x).segs = s.segs := rfl
@[simp] theorem State.setModel_pieces : (s.setModel l x).pieces = s.pieces := rfl
@[simp] theorem State.setModel_hqs : (s.setModel l x).hqs = s.hqs := rfl
@[simp] theorem State.setModel_hlanes : (s.setModel l x).hlanes = s.hlanes := rfl
@[simp] theorem State.setModel_cmd : (s.setModel l x).cmd = s.cmd := rfl
@[simp] theorem State.setModel_flt : (s.setModel l x).flt = s.flt := rfl
@[simp] theorem State.setModel_pw : (s.setModel l x).pw = s.pw := rfl
@[simp] theorem State.setModel_jtag : (s.setModel l x).jtag = s.jtag := rfl
@[simp] theorem State.setModel_grants : (s.setModel l x).grants = s.grants := rfl
@[simp] theorem State.setModel_out : (s.setModel l x).out = s.out := rfl
@[simp] theorem State.setModel_freeCount : (s.setModel l x).freeCount = s.freeCount := rfl
@[simp] theorem State.setModel_word (o e j : Nat) : (s.setModel l x).word o e j = s.word o e j := rfl
@[simp] theorem State.setModel_get (h : Field) (j : Nat) : (s.setModel l x).get h j = s.get h j := rfl
@[simp] theorem State.setModel_flag (h : Field) (j : Nat) : (s.setModel l x).flag h j = s.flag h j := rfl
@[simp] theorem State.setModel_full : (s.setModel l x).full = s.full := rfl
@[simp] theorem State.setModel_hq (j : Nat) : (s.setModel l x).hq j = s.hq j := rfl
@[simp] theorem State.setModel_lane (j : Nat) : (s.setModel l x).lane j = s.lane j := rfl
@[simp] theorem State.setModel_group (j : Nat) : (s.setModel l x).group j = s.group j := rfl
@[simp] theorem State.setModel_txn (j : Nat) : (s.setModel l x).txn j = s.txn j := rfl
@[simp] theorem State.setModel_ing (j : Nat) : (s.setModel l x).ing j = s.ing j := rfl
@[simp] theorem State.setModel_tile (j : Nat) : (s.setModel l x).tile j = s.tile j := rfl
@[simp] theorem State.setModel_hlane (j : Nat) : (s.setModel l x).hlane j = s.hlane j := rfl
@[simp] theorem State.setModel_chan (j : Nat) : (s.setModel l x).chan j = s.chan j := rfl
@[simp] theorem State.setModel_src (j : Nat) : (s.setModel l x).src j = s.src j := rfl
@[simp] theorem State.setModel_tdef (j k : Nat) : (s.setModel l x).tdef j k = s.tdef j k := rfl
end

/-! `State.setTxn` -/

section
variable (s : State) (t : Nat) (x : Txn)
@[simp] theorem State.setTxn_pending : (s.setTxn t x).pending = s.pending := rfl
@[simp] theorem State.setTxn_regs : (s.setTxn t x).regs = s.regs := rfl
@[simp] theorem State.setTxn_tb : (s.setTxn t x).tb = s.tb := rfl
@[simp] theorem State.setTxn_rf : (s.setTxn t x).rf = s.rf := rfl
@[simp] theorem State.setTxn_comps : (s.setTxn t x).comps = s.comps := rfl
@[simp] theorem State.setTxn_inputs : (s.setTxn t x).inputs = s.inputs := rfl
@[simp] theorem State.setTxn_pgroups : (s.setTxn t x).pgroups = s.pgroups := rfl
@[simp] theorem State.setTxn_ivals : (s.setTxn t x).ivals = s.ivals := rfl
@[simp] theorem State.setTxn_anchorQ : (s.setTxn t x).anchorQ = s.anchorQ := rfl
@[simp] theorem State.setTxn_interps : (s.setTxn t x).interps = s.interps := rfl
@[simp] theorem State.setTxn_calOps : (s.setTxn t x).calOps = s.calOps := rfl
@[simp] theorem State.setTxn_lanes : (s.setTxn t x).lanes = s.lanes := rfl
@[simp] theorem State.setTxn_groups : (s.setTxn t x).groups = s.groups := rfl
@[simp] theorem State.setTxn_lref : (s.setTxn t x).lref = s.lref := rfl
@[simp] theorem State.setTxn_models : (s.setTxn t x).models = s.models := rfl
@[simp] theorem State.setTxn_ingress : (s.setTxn t x).ingress = s.ingress := rfl
@[simp] theorem State.setTxn_toTile : (s.setTxn t x).toTile = s.toTile := rfl
@[simp] theorem State.setTxn_notices : (s.setTxn t x).notices = s.notices := rfl
@[simp] theorem State.setTxn_tiles : (s.setTxn t x).tiles = s.tiles := rfl
@[simp] theorem State.setTxn_links : (s.setTxn t x).links = s.links := rfl
@[simp] theorem State.setTxn_gates : (s.setTxn t x).gates = s.gates := rfl
@[simp] theorem State.setTxn_gateDone : (s.setTxn t x).gateDone = s.gateDone := rfl
@[simp] theorem State.setTxn_accs : (s.setTxn t x).accs = s.accs := rfl
@[simp] theorem State.setTxn_lastStats : (s.setTxn t x).lastStats = s.lastStats := rfl
@[simp] theorem State.setTxn_statsFrom : (s.setTxn t x).statsFrom = s.statsFrom := rfl
@[simp] theorem State.setTxn_defs : (s.setTxn t x).defs = s.defs := rfl
@[simp] theorem State.setTxn_coreDefs : (s.setTxn t x).coreDefs = s.coreDefs := rfl
@[simp] theorem State.setTxn_conds : (s.setTxn t x).conds = s.conds := rfl
@[simp] theorem State.setTxn_decims : (s.setTxn t x).decims = s.decims := rfl
@[simp] theorem State.setTxn_tin : (s.setTxn t x).tin = s.tin := rfl
@[simp] theorem State.setTxn_segs : (s.setTxn t x).segs = s.segs := rfl
@[simp] theorem State.setTxn_pieces : (s.setTxn t x).pieces = s.pieces := rfl
@[simp] theorem State.setTxn_hqs : (s.setTxn t x).hqs = s.hqs := rfl
@[simp] theorem State.setTxn_hlanes : (s.setTxn t x).hlanes = s.hlanes := rfl
@[simp] theorem State.setTxn_cmd : (s.setTxn t x).cmd = s.cmd := rfl
@[simp] theorem State.setTxn_flt : (s.setTxn t x).flt = s.flt := rfl
@[simp] theorem State.setTxn_pw : (s.setTxn t x).pw = s.pw := rfl
@[simp] theorem State.setTxn_jtag : (s.setTxn t x).jtag = s.jtag := rfl
@[simp] theorem State.setTxn_grants : (s.setTxn t x).grants = s.grants := rfl
@[simp] theorem State.setTxn_out : (s.setTxn t x).out = s.out := rfl
@[simp] theorem State.setTxn_freeCount : (s.setTxn t x).freeCount = s.freeCount := rfl
@[simp] theorem State.setTxn_word (o e j : Nat) : (s.setTxn t x).word o e j = s.word o e j := rfl
@[simp] theorem State.setTxn_get (h : Field) (j : Nat) : (s.setTxn t x).get h j = s.get h j := rfl
@[simp] theorem State.setTxn_flag (h : Field) (j : Nat) : (s.setTxn t x).flag h j = s.flag h j := rfl
@[simp] theorem State.setTxn_full : (s.setTxn t x).full = s.full := rfl
@[simp] theorem State.setTxn_hq (j : Nat) : (s.setTxn t x).hq j = s.hq j := rfl
@[simp] theorem State.setTxn_lane (j : Nat) : (s.setTxn t x).lane j = s.lane j := rfl
@[simp] theorem State.setTxn_group (j : Nat) : (s.setTxn t x).group j = s.group j := rfl
@[simp] theorem State.setTxn_model (j : Nat) : (s.setTxn t x).model j = s.model j := rfl
@[simp] theorem State.setTxn_ing (j : Nat) : (s.setTxn t x).ing j = s.ing j := rfl
@[simp] theorem State.setTxn_tile (j : Nat) : (s.setTxn t x).tile j = s.tile j := rfl
@[simp] theorem State.setTxn_hlane (j : Nat) : (s.setTxn t x).hlane j = s.hlane j := rfl
@[simp] theorem State.setTxn_chan (j : Nat) : (s.setTxn t x).chan j = s.chan j := rfl
@[simp] theorem State.setTxn_src (j : Nat) : (s.setTxn t x).src j = s.src j := rfl
@[simp] theorem State.setTxn_tdef (j k : Nat) : (s.setTxn t x).tdef j k = s.tdef j k := rfl
end

/-! `State.setIng` -/

section
variable (s : State) (g : Nat) (x : Ingress)
@[simp] theorem State.setIng_pending : (s.setIng g x).pending = s.pending := rfl
@[simp] theorem State.setIng_regs : (s.setIng g x).regs = s.regs := rfl
@[simp] theorem State.setIng_tb : (s.setIng g x).tb = s.tb := rfl
@[simp] theorem State.setIng_rf : (s.setIng g x).rf = s.rf := rfl
@[simp] theorem State.setIng_comps : (s.setIng g x).comps = s.comps := rfl
@[simp] theorem State.setIng_inputs : (s.setIng g x).inputs = s.inputs := rfl
@[simp] theorem State.setIng_pgroups : (s.setIng g x).pgroups = s.pgroups := rfl
@[simp] theorem State.setIng_ivals : (s.setIng g x).ivals = s.ivals := rfl
@[simp] theorem State.setIng_anchorQ : (s.setIng g x).anchorQ = s.anchorQ := rfl
@[simp] theorem State.setIng_interps : (s.setIng g x).interps = s.interps := rfl
@[simp] theorem State.setIng_calOps : (s.setIng g x).calOps = s.calOps := rfl
@[simp] theorem State.setIng_lanes : (s.setIng g x).lanes = s.lanes := rfl
@[simp] theorem State.setIng_groups : (s.setIng g x).groups = s.groups := rfl
@[simp] theorem State.setIng_lref : (s.setIng g x).lref = s.lref := rfl
@[simp] theorem State.setIng_models : (s.setIng g x).models = s.models := rfl
@[simp] theorem State.setIng_txns : (s.setIng g x).txns = s.txns := rfl
@[simp] theorem State.setIng_toTile : (s.setIng g x).toTile = s.toTile := rfl
@[simp] theorem State.setIng_notices : (s.setIng g x).notices = s.notices := rfl
@[simp] theorem State.setIng_tiles : (s.setIng g x).tiles = s.tiles := rfl
@[simp] theorem State.setIng_links : (s.setIng g x).links = s.links := rfl
@[simp] theorem State.setIng_gates : (s.setIng g x).gates = s.gates := rfl
@[simp] theorem State.setIng_gateDone : (s.setIng g x).gateDone = s.gateDone := rfl
@[simp] theorem State.setIng_accs : (s.setIng g x).accs = s.accs := rfl
@[simp] theorem State.setIng_lastStats : (s.setIng g x).lastStats = s.lastStats := rfl
@[simp] theorem State.setIng_statsFrom : (s.setIng g x).statsFrom = s.statsFrom := rfl
@[simp] theorem State.setIng_defs : (s.setIng g x).defs = s.defs := rfl
@[simp] theorem State.setIng_coreDefs : (s.setIng g x).coreDefs = s.coreDefs := rfl
@[simp] theorem State.setIng_conds : (s.setIng g x).conds = s.conds := rfl
@[simp] theorem State.setIng_decims : (s.setIng g x).decims = s.decims := rfl
@[simp] theorem State.setIng_tin : (s.setIng g x).tin = s.tin := rfl
@[simp] theorem State.setIng_segs : (s.setIng g x).segs = s.segs := rfl
@[simp] theorem State.setIng_pieces : (s.setIng g x).pieces = s.pieces := rfl
@[simp] theorem State.setIng_hqs : (s.setIng g x).hqs = s.hqs := rfl
@[simp] theorem State.setIng_hlanes : (s.setIng g x).hlanes = s.hlanes := rfl
@[simp] theorem State.setIng_cmd : (s.setIng g x).cmd = s.cmd := rfl
@[simp] theorem State.setIng_flt : (s.setIng g x).flt = s.flt := rfl
@[simp] theorem State.setIng_pw : (s.setIng g x).pw = s.pw := rfl
@[simp] theorem State.setIng_jtag : (s.setIng g x).jtag = s.jtag := rfl
@[simp] theorem State.setIng_grants : (s.setIng g x).grants = s.grants := rfl
@[simp] theorem State.setIng_out : (s.setIng g x).out = s.out := rfl
@[simp] theorem State.setIng_freeCount : (s.setIng g x).freeCount = s.freeCount := rfl
@[simp] theorem State.setIng_word (o e j : Nat) : (s.setIng g x).word o e j = s.word o e j := rfl
@[simp] theorem State.setIng_get (h : Field) (j : Nat) : (s.setIng g x).get h j = s.get h j := rfl
@[simp] theorem State.setIng_flag (h : Field) (j : Nat) : (s.setIng g x).flag h j = s.flag h j := rfl
@[simp] theorem State.setIng_full : (s.setIng g x).full = s.full := rfl
@[simp] theorem State.setIng_hq (j : Nat) : (s.setIng g x).hq j = s.hq j := rfl
@[simp] theorem State.setIng_lane (j : Nat) : (s.setIng g x).lane j = s.lane j := rfl
@[simp] theorem State.setIng_group (j : Nat) : (s.setIng g x).group j = s.group j := rfl
@[simp] theorem State.setIng_model (j : Nat) : (s.setIng g x).model j = s.model j := rfl
@[simp] theorem State.setIng_txn (j : Nat) : (s.setIng g x).txn j = s.txn j := rfl
@[simp] theorem State.setIng_tile (j : Nat) : (s.setIng g x).tile j = s.tile j := rfl
@[simp] theorem State.setIng_hlane (j : Nat) : (s.setIng g x).hlane j = s.hlane j := rfl
@[simp] theorem State.setIng_chan (j : Nat) : (s.setIng g x).chan j = s.chan j := rfl
@[simp] theorem State.setIng_src (j : Nat) : (s.setIng g x).src j = s.src j := rfl
@[simp] theorem State.setIng_tdef (j k : Nat) : (s.setIng g x).tdef j k = s.tdef j k := rfl
end

/-! `State.setTile` -/

section
variable (s : State) (t : Nat) (x : Tile)
@[simp] theorem State.setTile_pending : (s.setTile t x).pending = s.pending := rfl
@[simp] theorem State.setTile_regs : (s.setTile t x).regs = s.regs := rfl
@[simp] theorem State.setTile_tb : (s.setTile t x).tb = s.tb := rfl
@[simp] theorem State.setTile_rf : (s.setTile t x).rf = s.rf := rfl
@[simp] theorem State.setTile_comps : (s.setTile t x).comps = s.comps := rfl
@[simp] theorem State.setTile_inputs : (s.setTile t x).inputs = s.inputs := rfl
@[simp] theorem State.setTile_pgroups : (s.setTile t x).pgroups = s.pgroups := rfl
@[simp] theorem State.setTile_ivals : (s.setTile t x).ivals = s.ivals := rfl
@[simp] theorem State.setTile_anchorQ : (s.setTile t x).anchorQ = s.anchorQ := rfl
@[simp] theorem State.setTile_interps : (s.setTile t x).interps = s.interps := rfl
@[simp] theorem State.setTile_calOps : (s.setTile t x).calOps = s.calOps := rfl
@[simp] theorem State.setTile_lanes : (s.setTile t x).lanes = s.lanes := rfl
@[simp] theorem State.setTile_groups : (s.setTile t x).groups = s.groups := rfl
@[simp] theorem State.setTile_lref : (s.setTile t x).lref = s.lref := rfl
@[simp] theorem State.setTile_models : (s.setTile t x).models = s.models := rfl
@[simp] theorem State.setTile_txns : (s.setTile t x).txns = s.txns := rfl
@[simp] theorem State.setTile_ingress : (s.setTile t x).ingress = s.ingress := rfl
@[simp] theorem State.setTile_toTile : (s.setTile t x).toTile = s.toTile := rfl
@[simp] theorem State.setTile_notices : (s.setTile t x).notices = s.notices := rfl
@[simp] theorem State.setTile_links : (s.setTile t x).links = s.links := rfl
@[simp] theorem State.setTile_gates : (s.setTile t x).gates = s.gates := rfl
@[simp] theorem State.setTile_gateDone : (s.setTile t x).gateDone = s.gateDone := rfl
@[simp] theorem State.setTile_accs : (s.setTile t x).accs = s.accs := rfl
@[simp] theorem State.setTile_lastStats : (s.setTile t x).lastStats = s.lastStats := rfl
@[simp] theorem State.setTile_statsFrom : (s.setTile t x).statsFrom = s.statsFrom := rfl
@[simp] theorem State.setTile_defs : (s.setTile t x).defs = s.defs := rfl
@[simp] theorem State.setTile_coreDefs : (s.setTile t x).coreDefs = s.coreDefs := rfl
@[simp] theorem State.setTile_conds : (s.setTile t x).conds = s.conds := rfl
@[simp] theorem State.setTile_decims : (s.setTile t x).decims = s.decims := rfl
@[simp] theorem State.setTile_tin : (s.setTile t x).tin = s.tin := rfl
@[simp] theorem State.setTile_segs : (s.setTile t x).segs = s.segs := rfl
@[simp] theorem State.setTile_pieces : (s.setTile t x).pieces = s.pieces := rfl
@[simp] theorem State.setTile_hqs : (s.setTile t x).hqs = s.hqs := rfl
@[simp] theorem State.setTile_hlanes : (s.setTile t x).hlanes = s.hlanes := rfl
@[simp] theorem State.setTile_cmd : (s.setTile t x).cmd = s.cmd := rfl
@[simp] theorem State.setTile_flt : (s.setTile t x).flt = s.flt := rfl
@[simp] theorem State.setTile_pw : (s.setTile t x).pw = s.pw := rfl
@[simp] theorem State.setTile_jtag : (s.setTile t x).jtag = s.jtag := rfl
@[simp] theorem State.setTile_grants : (s.setTile t x).grants = s.grants := rfl
@[simp] theorem State.setTile_out : (s.setTile t x).out = s.out := rfl
@[simp] theorem State.setTile_freeCount : (s.setTile t x).freeCount = s.freeCount := rfl
@[simp] theorem State.setTile_word (o e j : Nat) : (s.setTile t x).word o e j = s.word o e j := rfl
@[simp] theorem State.setTile_get (h : Field) (j : Nat) : (s.setTile t x).get h j = s.get h j := rfl
@[simp] theorem State.setTile_flag (h : Field) (j : Nat) : (s.setTile t x).flag h j = s.flag h j := rfl
@[simp] theorem State.setTile_full : (s.setTile t x).full = s.full := rfl
@[simp] theorem State.setTile_hq (j : Nat) : (s.setTile t x).hq j = s.hq j := rfl
@[simp] theorem State.setTile_lane (j : Nat) : (s.setTile t x).lane j = s.lane j := rfl
@[simp] theorem State.setTile_group (j : Nat) : (s.setTile t x).group j = s.group j := rfl
@[simp] theorem State.setTile_model (j : Nat) : (s.setTile t x).model j = s.model j := rfl
@[simp] theorem State.setTile_txn (j : Nat) : (s.setTile t x).txn j = s.txn j := rfl
@[simp] theorem State.setTile_ing (j : Nat) : (s.setTile t x).ing j = s.ing j := rfl
@[simp] theorem State.setTile_hlane (j : Nat) : (s.setTile t x).hlane j = s.hlane j := rfl
@[simp] theorem State.setTile_chan (j : Nat) : (s.setTile t x).chan j = s.chan j := rfl
@[simp] theorem State.setTile_src (j : Nat) : (s.setTile t x).src j = s.src j := rfl
@[simp] theorem State.setTile_tdef (j k : Nat) : (s.setTile t x).tdef j k = s.tdef j k := rfl
end

/-! `State.setHlane` -/

section
variable (s : State) (l : Nat) (x : HLane)
@[simp] theorem State.setHlane_pending : (s.setHlane l x).pending = s.pending := rfl
@[simp] theorem State.setHlane_regs : (s.setHlane l x).regs = s.regs := rfl
@[simp] theorem State.setHlane_tb : (s.setHlane l x).tb = s.tb := rfl
@[simp] theorem State.setHlane_rf : (s.setHlane l x).rf = s.rf := rfl
@[simp] theorem State.setHlane_comps : (s.setHlane l x).comps = s.comps := rfl
@[simp] theorem State.setHlane_inputs : (s.setHlane l x).inputs = s.inputs := rfl
@[simp] theorem State.setHlane_pgroups : (s.setHlane l x).pgroups = s.pgroups := rfl
@[simp] theorem State.setHlane_ivals : (s.setHlane l x).ivals = s.ivals := rfl
@[simp] theorem State.setHlane_anchorQ : (s.setHlane l x).anchorQ = s.anchorQ := rfl
@[simp] theorem State.setHlane_interps : (s.setHlane l x).interps = s.interps := rfl
@[simp] theorem State.setHlane_calOps : (s.setHlane l x).calOps = s.calOps := rfl
@[simp] theorem State.setHlane_lanes : (s.setHlane l x).lanes = s.lanes := rfl
@[simp] theorem State.setHlane_groups : (s.setHlane l x).groups = s.groups := rfl
@[simp] theorem State.setHlane_lref : (s.setHlane l x).lref = s.lref := rfl
@[simp] theorem State.setHlane_models : (s.setHlane l x).models = s.models := rfl
@[simp] theorem State.setHlane_txns : (s.setHlane l x).txns = s.txns := rfl
@[simp] theorem State.setHlane_ingress : (s.setHlane l x).ingress = s.ingress := rfl
@[simp] theorem State.setHlane_toTile : (s.setHlane l x).toTile = s.toTile := rfl
@[simp] theorem State.setHlane_notices : (s.setHlane l x).notices = s.notices := rfl
@[simp] theorem State.setHlane_tiles : (s.setHlane l x).tiles = s.tiles := rfl
@[simp] theorem State.setHlane_links : (s.setHlane l x).links = s.links := rfl
@[simp] theorem State.setHlane_gates : (s.setHlane l x).gates = s.gates := rfl
@[simp] theorem State.setHlane_gateDone : (s.setHlane l x).gateDone = s.gateDone := rfl
@[simp] theorem State.setHlane_accs : (s.setHlane l x).accs = s.accs := rfl
@[simp] theorem State.setHlane_lastStats : (s.setHlane l x).lastStats = s.lastStats := rfl
@[simp] theorem State.setHlane_statsFrom : (s.setHlane l x).statsFrom = s.statsFrom := rfl
@[simp] theorem State.setHlane_defs : (s.setHlane l x).defs = s.defs := rfl
@[simp] theorem State.setHlane_coreDefs : (s.setHlane l x).coreDefs = s.coreDefs := rfl
@[simp] theorem State.setHlane_conds : (s.setHlane l x).conds = s.conds := rfl
@[simp] theorem State.setHlane_decims : (s.setHlane l x).decims = s.decims := rfl
@[simp] theorem State.setHlane_tin : (s.setHlane l x).tin = s.tin := rfl
@[simp] theorem State.setHlane_segs : (s.setHlane l x).segs = s.segs := rfl
@[simp] theorem State.setHlane_pieces : (s.setHlane l x).pieces = s.pieces := rfl
@[simp] theorem State.setHlane_hqs : (s.setHlane l x).hqs = s.hqs := rfl
@[simp] theorem State.setHlane_cmd : (s.setHlane l x).cmd = s.cmd := rfl
@[simp] theorem State.setHlane_flt : (s.setHlane l x).flt = s.flt := rfl
@[simp] theorem State.setHlane_pw : (s.setHlane l x).pw = s.pw := rfl
@[simp] theorem State.setHlane_jtag : (s.setHlane l x).jtag = s.jtag := rfl
@[simp] theorem State.setHlane_grants : (s.setHlane l x).grants = s.grants := rfl
@[simp] theorem State.setHlane_out : (s.setHlane l x).out = s.out := rfl
@[simp] theorem State.setHlane_freeCount : (s.setHlane l x).freeCount = s.freeCount := rfl
@[simp] theorem State.setHlane_word (o e j : Nat) : (s.setHlane l x).word o e j = s.word o e j := rfl
@[simp] theorem State.setHlane_get (h : Field) (j : Nat) : (s.setHlane l x).get h j = s.get h j := rfl
@[simp] theorem State.setHlane_flag (h : Field) (j : Nat) : (s.setHlane l x).flag h j = s.flag h j := rfl
@[simp] theorem State.setHlane_full : (s.setHlane l x).full = s.full := rfl
@[simp] theorem State.setHlane_hq (j : Nat) : (s.setHlane l x).hq j = s.hq j := rfl
@[simp] theorem State.setHlane_lane (j : Nat) : (s.setHlane l x).lane j = s.lane j := rfl
@[simp] theorem State.setHlane_group (j : Nat) : (s.setHlane l x).group j = s.group j := rfl
@[simp] theorem State.setHlane_model (j : Nat) : (s.setHlane l x).model j = s.model j := rfl
@[simp] theorem State.setHlane_txn (j : Nat) : (s.setHlane l x).txn j = s.txn j := rfl
@[simp] theorem State.setHlane_ing (j : Nat) : (s.setHlane l x).ing j = s.ing j := rfl
@[simp] theorem State.setHlane_tile (j : Nat) : (s.setHlane l x).tile j = s.tile j := rfl
@[simp] theorem State.setHlane_chan (j : Nat) : (s.setHlane l x).chan j = s.chan j := rfl
@[simp] theorem State.setHlane_src (j : Nat) : (s.setHlane l x).src j = s.src j := rfl
@[simp] theorem State.setHlane_tdef (j k : Nat) : (s.setHlane l x).tdef j k = s.tdef j k := rfl
end

/-! `State.setChan` -/

section
variable (s : State) (p : Nat) (x : Busy)
@[simp] theorem State.setChan_pending : (s.setChan p x).pending = s.pending := rfl
@[simp] theorem State.setChan_regs : (s.setChan p x).regs = s.regs := rfl
@[simp] theorem State.setChan_tb : (s.setChan p x).tb = s.tb := rfl
@[simp] theorem State.setChan_rf : (s.setChan p x).rf = s.rf := rfl
@[simp] theorem State.setChan_comps : (s.setChan p x).comps = s.comps := rfl
@[simp] theorem State.setChan_inputs : (s.setChan p x).inputs = s.inputs := rfl
@[simp] theorem State.setChan_pgroups : (s.setChan p x).pgroups = s.pgroups := rfl
@[simp] theorem State.setChan_ivals : (s.setChan p x).ivals = s.ivals := rfl
@[simp] theorem State.setChan_anchorQ : (s.setChan p x).anchorQ = s.anchorQ := rfl
@[simp] theorem State.setChan_interps : (s.setChan p x).interps = s.interps := rfl
@[simp] theorem State.setChan_calOps : (s.setChan p x).calOps = s.calOps := rfl
@[simp] theorem State.setChan_lanes : (s.setChan p x).lanes = s.lanes := rfl
@[simp] theorem State.setChan_groups : (s.setChan p x).groups = s.groups := rfl
@[simp] theorem State.setChan_lref : (s.setChan p x).lref = s.lref := rfl
@[simp] theorem State.setChan_models : (s.setChan p x).models = s.models := rfl
@[simp] theorem State.setChan_txns : (s.setChan p x).txns = s.txns := rfl
@[simp] theorem State.setChan_ingress : (s.setChan p x).ingress = s.ingress := rfl
@[simp] theorem State.setChan_toTile : (s.setChan p x).toTile = s.toTile := rfl
@[simp] theorem State.setChan_notices : (s.setChan p x).notices = s.notices := rfl
@[simp] theorem State.setChan_tiles : (s.setChan p x).tiles = s.tiles := rfl
@[simp] theorem State.setChan_links : (s.setChan p x).links = s.links := rfl
@[simp] theorem State.setChan_gates : (s.setChan p x).gates = s.gates := rfl
@[simp] theorem State.setChan_gateDone : (s.setChan p x).gateDone = s.gateDone := rfl
@[simp] theorem State.setChan_accs : (s.setChan p x).accs = s.accs := rfl
@[simp] theorem State.setChan_lastStats : (s.setChan p x).lastStats = s.lastStats := rfl
@[simp] theorem State.setChan_statsFrom : (s.setChan p x).statsFrom = s.statsFrom := rfl
@[simp] theorem State.setChan_defs : (s.setChan p x).defs = s.defs := rfl
@[simp] theorem State.setChan_coreDefs : (s.setChan p x).coreDefs = s.coreDefs := rfl
@[simp] theorem State.setChan_conds : (s.setChan p x).conds = s.conds := rfl
@[simp] theorem State.setChan_decims : (s.setChan p x).decims = s.decims := rfl
@[simp] theorem State.setChan_tin : (s.setChan p x).tin = s.tin := rfl
@[simp] theorem State.setChan_segs : (s.setChan p x).segs = s.segs := rfl
@[simp] theorem State.setChan_pieces : (s.setChan p x).pieces = s.pieces := rfl
@[simp] theorem State.setChan_hqs : (s.setChan p x).hqs = s.hqs := rfl
@[simp] theorem State.setChan_hlanes : (s.setChan p x).hlanes = s.hlanes := rfl
@[simp] theorem State.setChan_flt : (s.setChan p x).flt = s.flt := rfl
@[simp] theorem State.setChan_pw : (s.setChan p x).pw = s.pw := rfl
@[simp] theorem State.setChan_jtag : (s.setChan p x).jtag = s.jtag := rfl
@[simp] theorem State.setChan_grants : (s.setChan p x).grants = s.grants := rfl
@[simp] theorem State.setChan_out : (s.setChan p x).out = s.out := rfl
@[simp] theorem State.setChan_freeCount : (s.setChan p x).freeCount = s.freeCount := rfl
@[simp] theorem State.setChan_word (o e j : Nat) : (s.setChan p x).word o e j = s.word o e j := rfl
@[simp] theorem State.setChan_get (h : Field) (j : Nat) : (s.setChan p x).get h j = s.get h j := rfl
@[simp] theorem State.setChan_flag (h : Field) (j : Nat) : (s.setChan p x).flag h j = s.flag h j := rfl
@[simp] theorem State.setChan_full : (s.setChan p x).full = s.full := rfl
@[simp] theorem State.setChan_hq (j : Nat) : (s.setChan p x).hq j = s.hq j := rfl
@[simp] theorem State.setChan_lane (j : Nat) : (s.setChan p x).lane j = s.lane j := rfl
@[simp] theorem State.setChan_group (j : Nat) : (s.setChan p x).group j = s.group j := rfl
@[simp] theorem State.setChan_model (j : Nat) : (s.setChan p x).model j = s.model j := rfl
@[simp] theorem State.setChan_txn (j : Nat) : (s.setChan p x).txn j = s.txn j := rfl
@[simp] theorem State.setChan_ing (j : Nat) : (s.setChan p x).ing j = s.ing j := rfl
@[simp] theorem State.setChan_tile (j : Nat) : (s.setChan p x).tile j = s.tile j := rfl
@[simp] theorem State.setChan_hlane (j : Nat) : (s.setChan p x).hlane j = s.hlane j := rfl
@[simp] theorem State.setChan_src (j : Nat) : (s.setChan p x).src j = s.src j := rfl
@[simp] theorem State.setChan_tdef (j k : Nat) : (s.setChan p x).tdef j k = s.tdef j k := rfl
end

/-! `State.setComp` -/

section
variable (s : State) (ci : Nat) (x : Comp)
@[simp] theorem State.setComp_pending : (s.setComp ci x).pending = s.pending := rfl
@[simp] theorem State.setComp_regs : (s.setComp ci x).regs = s.regs := rfl
@[simp] theorem State.setComp_tb : (s.setComp ci x).tb = s.tb := rfl
@[simp] theorem State.setComp_rf : (s.setComp ci x).rf = s.rf := rfl
@[simp] theorem State.setComp_inputs : (s.setComp ci x).inputs = s.inputs := rfl
@[simp] theorem State.setComp_pgroups : (s.setComp ci x).pgroups = s.pgroups := rfl
@[simp] theorem State.setComp_ivals : (s.setComp ci x).ivals = s.ivals := rfl
@[simp] theorem State.setComp_anchorQ : (s.setComp ci x).anchorQ = s.anchorQ := rfl
@[simp] theorem State.setComp_interps : (s.setComp ci x).interps = s.interps := rfl
@[simp] theorem State.setComp_calOps : (s.setComp ci x).calOps = s.calOps := rfl
@[simp] theorem State.setComp_lanes : (s.setComp ci x).lanes = s.lanes := rfl
@[simp] theorem State.setComp_groups : (s.setComp ci x).groups = s.groups := rfl
@[simp] theorem State.setComp_lref : (s.setComp ci x).lref = s.lref := rfl
@[simp] theorem State.setComp_models : (s.setComp ci x).models = s.models := rfl
@[simp] theorem State.setComp_txns : (s.setComp ci x).txns = s.txns := rfl
@[simp] theorem State.setComp_ingress : (s.setComp ci x).ingress = s.ingress := rfl
@[simp] theorem State.setComp_toTile : (s.setComp ci x).toTile = s.toTile := rfl
@[simp] theorem State.setComp_notices : (s.setComp ci x).notices = s.notices := rfl
@[simp] theorem State.setComp_tiles : (s.setComp ci x).tiles = s.tiles := rfl
@[simp] theorem State.setComp_links : (s.setComp ci x).links = s.links := rfl
@[simp] theorem State.setComp_gates : (s.setComp ci x).gates = s.gates := rfl
@[simp] theorem State.setComp_gateDone : (s.setComp ci x).gateDone = s.gateDone := rfl
@[simp] theorem State.setComp_accs : (s.setComp ci x).accs = s.accs := rfl
@[simp] theorem State.setComp_lastStats : (s.setComp ci x).lastStats = s.lastStats := rfl
@[simp] theorem State.setComp_statsFrom : (s.setComp ci x).statsFrom = s.statsFrom := rfl
@[simp] theorem State.setComp_defs : (s.setComp ci x).defs = s.defs := rfl
@[simp] theorem State.setComp_coreDefs : (s.setComp ci x).coreDefs = s.coreDefs := rfl
@[simp] theorem State.setComp_conds : (s.setComp ci x).conds = s.conds := rfl
@[simp] theorem State.setComp_decims : (s.setComp ci x).decims = s.decims := rfl
@[simp] theorem State.setComp_tin : (s.setComp ci x).tin = s.tin := rfl
@[simp] theorem State.setComp_segs : (s.setComp ci x).segs = s.segs := rfl
@[simp] theorem State.setComp_pieces : (s.setComp ci x).pieces = s.pieces := rfl
@[simp] theorem State.setComp_hqs : (s.setComp ci x).hqs = s.hqs := rfl
@[simp] theorem State.setComp_hlanes : (s.setComp ci x).hlanes = s.hlanes := rfl
@[simp] theorem State.setComp_cmd : (s.setComp ci x).cmd = s.cmd := rfl
@[simp] theorem State.setComp_flt : (s.setComp ci x).flt = s.flt := rfl
@[simp] theorem State.setComp_pw : (s.setComp ci x).pw = s.pw := rfl
@[simp] theorem State.setComp_jtag : (s.setComp ci x).jtag = s.jtag := rfl
@[simp] theorem State.setComp_grants : (s.setComp ci x).grants = s.grants := rfl
@[simp] theorem State.setComp_out : (s.setComp ci x).out = s.out := rfl
@[simp] theorem State.setComp_freeCount : (s.setComp ci x).freeCount = s.freeCount := rfl
@[simp] theorem State.setComp_word (o e j : Nat) : (s.setComp ci x).word o e j = s.word o e j := rfl
@[simp] theorem State.setComp_get (h : Field) (j : Nat) : (s.setComp ci x).get h j = s.get h j := rfl
@[simp] theorem State.setComp_flag (h : Field) (j : Nat) : (s.setComp ci x).flag h j = s.flag h j := rfl
@[simp] theorem State.setComp_full : (s.setComp ci x).full = s.full := rfl
@[simp] theorem State.setComp_hq (j : Nat) : (s.setComp ci x).hq j = s.hq j := rfl
@[simp] theorem State.setComp_lane (j : Nat) : (s.setComp ci x).lane j = s.lane j := rfl
@[simp] theorem State.setComp_group (j : Nat) : (s.setComp ci x).group j = s.group j := rfl
@[simp] theorem State.setComp_model (j : Nat) : (s.setComp ci x).model j = s.model j := rfl
@[simp] theorem State.setComp_txn (j : Nat) : (s.setComp ci x).txn j = s.txn j := rfl
@[simp] theorem State.setComp_ing (j : Nat) : (s.setComp ci x).ing j = s.ing j := rfl
@[simp] theorem State.setComp_tile (j : Nat) : (s.setComp ci x).tile j = s.tile j := rfl
@[simp] theorem State.setComp_hlane (j : Nat) : (s.setComp ci x).hlane j = s.hlane j := rfl
@[simp] theorem State.setComp_chan (j : Nat) : (s.setComp ci x).chan j = s.chan j := rfl
@[simp] theorem State.setComp_src (j : Nat) : (s.setComp ci x).src j = s.src j := rfl
@[simp] theorem State.setComp_tdef (j k : Nat) : (s.setComp ci x).tdef j k = s.tdef j k := rfl
end

/-! `State.setInp` -/

section
variable (s : State) (i : Nat) (x : Input)
@[simp] theorem State.setInp_pending : (s.setInp i x).pending = s.pending := rfl
@[simp] theorem State.setInp_regs : (s.setInp i x).regs = s.regs := rfl
@[simp] theorem State.setInp_tb : (s.setInp i x).tb = s.tb := rfl
@[simp] theorem State.setInp_rf : (s.setInp i x).rf = s.rf := rfl
@[simp] theorem State.setInp_comps : (s.setInp i x).comps = s.comps := rfl
@[simp] theorem State.setInp_pgroups : (s.setInp i x).pgroups = s.pgroups := rfl
@[simp] theorem State.setInp_ivals : (s.setInp i x).ivals = s.ivals := rfl
@[simp] theorem State.setInp_anchorQ : (s.setInp i x).anchorQ = s.anchorQ := rfl
@[simp] theorem State.setInp_interps : (s.setInp i x).interps = s.interps := rfl
@[simp] theorem State.setInp_calOps : (s.setInp i x).calOps = s.calOps := rfl
@[simp] theorem State.setInp_lanes : (s.setInp i x).lanes = s.lanes := rfl
@[simp] theorem State.setInp_groups : (s.setInp i x).groups = s.groups := rfl
@[simp] theorem State.setInp_lref : (s.setInp i x).lref = s.lref := rfl
@[simp] theorem State.setInp_models : (s.setInp i x).models = s.models := rfl
@[simp] theorem State.setInp_txns : (s.setInp i x).txns = s.txns := rfl
@[simp] theorem State.setInp_ingress : (s.setInp i x).ingress = s.ingress := rfl
@[simp] theorem State.setInp_toTile : (s.setInp i x).toTile = s.toTile := rfl
@[simp] theorem State.setInp_notices : (s.setInp i x).notices = s.notices := rfl
@[simp] theorem State.setInp_tiles : (s.setInp i x).tiles = s.tiles := rfl
@[simp] theorem State.setInp_links : (s.setInp i x).links = s.links := rfl
@[simp] theorem State.setInp_gates : (s.setInp i x).gates = s.gates := rfl
@[simp] theorem State.setInp_gateDone : (s.setInp i x).gateDone = s.gateDone := rfl
@[simp] theorem State.setInp_accs : (s.setInp i x).accs = s.accs := rfl
@[simp] theorem State.setInp_lastStats : (s.setInp i x).lastStats = s.lastStats := rfl
@[simp] theorem State.setInp_statsFrom : (s.setInp i x).statsFrom = s.statsFrom := rfl
@[simp] theorem State.setInp_defs : (s.setInp i x).defs = s.defs := rfl
@[simp] theorem State.setInp_coreDefs : (s.setInp i x).coreDefs = s.coreDefs := rfl
@[simp] theorem State.setInp_conds : (s.setInp i x).conds = s.conds := rfl
@[simp] theorem State.setInp_decims : (s.setInp i x).decims = s.decims := rfl
@[simp] theorem State.setInp_tin : (s.setInp i x).tin = s.tin := rfl
@[simp] theorem State.setInp_segs : (s.setInp i x).segs = s.segs := rfl
@[simp] theorem State.setInp_pieces : (s.setInp i x).pieces = s.pieces := rfl
@[simp] theorem State.setInp_hqs : (s.setInp i x).hqs = s.hqs := rfl
@[simp] theorem State.setInp_hlanes : (s.setInp i x).hlanes = s.hlanes := rfl
@[simp] theorem State.setInp_cmd : (s.setInp i x).cmd = s.cmd := rfl
@[simp] theorem State.setInp_flt : (s.setInp i x).flt = s.flt := rfl
@[simp] theorem State.setInp_pw : (s.setInp i x).pw = s.pw := rfl
@[simp] theorem State.setInp_jtag : (s.setInp i x).jtag = s.jtag := rfl
@[simp] theorem State.setInp_grants : (s.setInp i x).grants = s.grants := rfl
@[simp] theorem State.setInp_out : (s.setInp i x).out = s.out := rfl
@[simp] theorem State.setInp_freeCount : (s.setInp i x).freeCount = s.freeCount := rfl
@[simp] theorem State.setInp_word (o e j : Nat) : (s.setInp i x).word o e j = s.word o e j := rfl
@[simp] theorem State.setInp_get (h : Field) (j : Nat) : (s.setInp i x).get h j = s.get h j := rfl
@[simp] theorem State.setInp_flag (h : Field) (j : Nat) : (s.setInp i x).flag h j = s.flag h j := rfl
@[simp] theorem State.setInp_full : (s.setInp i x).full = s.full := rfl
@[simp] theorem State.setInp_hq (j : Nat) : (s.setInp i x).hq j = s.hq j := rfl
@[simp] theorem State.setInp_lane (j : Nat) : (s.setInp i x).lane j = s.lane j := rfl
@[simp] theorem State.setInp_group (j : Nat) : (s.setInp i x).group j = s.group j := rfl
@[simp] theorem State.setInp_model (j : Nat) : (s.setInp i x).model j = s.model j := rfl
@[simp] theorem State.setInp_txn (j : Nat) : (s.setInp i x).txn j = s.txn j := rfl
@[simp] theorem State.setInp_ing (j : Nat) : (s.setInp i x).ing j = s.ing j := rfl
@[simp] theorem State.setInp_tile (j : Nat) : (s.setInp i x).tile j = s.tile j := rfl
@[simp] theorem State.setInp_hlane (j : Nat) : (s.setInp i x).hlane j = s.hlane j := rfl
@[simp] theorem State.setInp_chan (j : Nat) : (s.setInp i x).chan j = s.chan j := rfl
@[simp] theorem State.setInp_src (j : Nat) : (s.setInp i x).src j = s.src j := rfl
@[simp] theorem State.setInp_tdef (j k : Nat) : (s.setInp i x).tdef j k = s.tdef j k := rfl
end

/-! `State.setPgroup` -/

section
variable (s : State) (g : Nat) (x : PGroup)
@[simp] theorem State.setPgroup_pending : (s.setPgroup g x).pending = s.pending := rfl
@[simp] theorem State.setPgroup_regs : (s.setPgroup g x).regs = s.regs := rfl
@[simp] theorem State.setPgroup_tb : (s.setPgroup g x).tb = s.tb := rfl
@[simp] theorem State.setPgroup_rf : (s.setPgroup g x).rf = s.rf := rfl
@[simp] theorem State.setPgroup_comps : (s.setPgroup g x).comps = s.comps := rfl
@[simp] theorem State.setPgroup_inputs : (s.setPgroup g x).inputs = s.inputs := rfl
@[simp] theorem State.setPgroup_ivals : (s.setPgroup g x).ivals = s.ivals := rfl
@[simp] theorem State.setPgroup_anchorQ : (s.setPgroup g x).anchorQ = s.anchorQ := rfl
@[simp] theorem State.setPgroup_interps : (s.setPgroup g x).interps = s.interps := rfl
@[simp] theorem State.setPgroup_calOps : (s.setPgroup g x).calOps = s.calOps := rfl
@[simp] theorem State.setPgroup_lanes : (s.setPgroup g x).lanes = s.lanes := rfl
@[simp] theorem State.setPgroup_groups : (s.setPgroup g x).groups = s.groups := rfl
@[simp] theorem State.setPgroup_lref : (s.setPgroup g x).lref = s.lref := rfl
@[simp] theorem State.setPgroup_models : (s.setPgroup g x).models = s.models := rfl
@[simp] theorem State.setPgroup_txns : (s.setPgroup g x).txns = s.txns := rfl
@[simp] theorem State.setPgroup_ingress : (s.setPgroup g x).ingress = s.ingress := rfl
@[simp] theorem State.setPgroup_toTile : (s.setPgroup g x).toTile = s.toTile := rfl
@[simp] theorem State.setPgroup_notices : (s.setPgroup g x).notices = s.notices := rfl
@[simp] theorem State.setPgroup_tiles : (s.setPgroup g x).tiles = s.tiles := rfl
@[simp] theorem State.setPgroup_links : (s.setPgroup g x).links = s.links := rfl
@[simp] theorem State.setPgroup_gates : (s.setPgroup g x).gates = s.gates := rfl
@[simp] theorem State.setPgroup_gateDone : (s.setPgroup g x).gateDone = s.gateDone := rfl
@[simp] theorem State.setPgroup_accs : (s.setPgroup g x).accs = s.accs := rfl
@[simp] theorem State.setPgroup_lastStats : (s.setPgroup g x).lastStats = s.lastStats := rfl
@[simp] theorem State.setPgroup_statsFrom : (s.setPgroup g x).statsFrom = s.statsFrom := rfl
@[simp] theorem State.setPgroup_defs : (s.setPgroup g x).defs = s.defs := rfl
@[simp] theorem State.setPgroup_coreDefs : (s.setPgroup g x).coreDefs = s.coreDefs := rfl
@[simp] theorem State.setPgroup_conds : (s.setPgroup g x).conds = s.conds := rfl
@[simp] theorem State.setPgroup_decims : (s.setPgroup g x).decims = s.decims := rfl
@[simp] theorem State.setPgroup_tin : (s.setPgroup g x).tin = s.tin := rfl
@[simp] theorem State.setPgroup_segs : (s.setPgroup g x).segs = s.segs := rfl
@[simp] theorem State.setPgroup_pieces : (s.setPgroup g x).pieces = s.pieces := rfl
@[simp] theorem State.setPgroup_hqs : (s.setPgroup g x).hqs = s.hqs := rfl
@[simp] theorem State.setPgroup_hlanes : (s.setPgroup g x).hlanes = s.hlanes := rfl
@[simp] theorem State.setPgroup_cmd : (s.setPgroup g x).cmd = s.cmd := rfl
@[simp] theorem State.setPgroup_flt : (s.setPgroup g x).flt = s.flt := rfl
@[simp] theorem State.setPgroup_pw : (s.setPgroup g x).pw = s.pw := rfl
@[simp] theorem State.setPgroup_jtag : (s.setPgroup g x).jtag = s.jtag := rfl
@[simp] theorem State.setPgroup_grants : (s.setPgroup g x).grants = s.grants := rfl
@[simp] theorem State.setPgroup_out : (s.setPgroup g x).out = s.out := rfl
@[simp] theorem State.setPgroup_freeCount : (s.setPgroup g x).freeCount = s.freeCount := rfl
@[simp] theorem State.setPgroup_word (o e j : Nat) : (s.setPgroup g x).word o e j = s.word o e j := rfl
@[simp] theorem State.setPgroup_get (h : Field) (j : Nat) : (s.setPgroup g x).get h j = s.get h j := rfl
@[simp] theorem State.setPgroup_flag (h : Field) (j : Nat) : (s.setPgroup g x).flag h j = s.flag h j := rfl
@[simp] theorem State.setPgroup_full : (s.setPgroup g x).full = s.full := rfl
@[simp] theorem State.setPgroup_hq (j : Nat) : (s.setPgroup g x).hq j = s.hq j := rfl
@[simp] theorem State.setPgroup_lane (j : Nat) : (s.setPgroup g x).lane j = s.lane j := rfl
@[simp] theorem State.setPgroup_group (j : Nat) : (s.setPgroup g x).group j = s.group j := rfl
@[simp] theorem State.setPgroup_model (j : Nat) : (s.setPgroup g x).model j = s.model j := rfl
@[simp] theorem State.setPgroup_txn (j : Nat) : (s.setPgroup g x).txn j = s.txn j := rfl
@[simp] theorem State.setPgroup_ing (j : Nat) : (s.setPgroup g x).ing j = s.ing j := rfl
@[simp] theorem State.setPgroup_tile (j : Nat) : (s.setPgroup g x).tile j = s.tile j := rfl
@[simp] theorem State.setPgroup_hlane (j : Nat) : (s.setPgroup g x).hlane j = s.hlane j := rfl
@[simp] theorem State.setPgroup_chan (j : Nat) : (s.setPgroup g x).chan j = s.chan j := rfl
@[simp] theorem State.setPgroup_src (j : Nat) : (s.setPgroup g x).src j = s.src j := rfl
@[simp] theorem State.setPgroup_tdef (j k : Nat) : (s.setPgroup g x).tdef j k = s.tdef j k := rfl
end

/-! `State.setInterp` -/

section
variable (s : State) (n : Nat) (x : Interp)
@[simp] theorem State.setInterp_pending : (s.setInterp n x).pending = s.pending := rfl
@[simp] theorem State.setInterp_regs : (s.setInterp n x).regs = s.regs := rfl
@[simp] theorem State.setInterp_tb : (s.setInterp n x).tb = s.tb := rfl
@[simp] theorem State.setInterp_rf : (s.setInterp n x).rf = s.rf := rfl
@[simp] theorem State.setInterp_comps : (s.setInterp n x).comps = s.comps := rfl
@[simp] theorem State.setInterp_inputs : (s.setInterp n x).inputs = s.inputs := rfl
@[simp] theorem State.setInterp_pgroups : (s.setInterp n x).pgroups = s.pgroups := rfl
@[simp] theorem State.setInterp_ivals : (s.setInterp n x).ivals = s.ivals := rfl
@[simp] theorem State.setInterp_anchorQ : (s.setInterp n x).anchorQ = s.anchorQ := rfl
@[simp] theorem State.setInterp_calOps : (s.setInterp n x).calOps = s.calOps := rfl
@[simp] theorem State.setInterp_lanes : (s.setInterp n x).lanes = s.lanes := rfl
@[simp] theorem State.setInterp_groups : (s.setInterp n x).groups = s.groups := rfl
@[simp] theorem State.setInterp_lref : (s.setInterp n x).lref = s.lref := rfl
@[simp] theorem State.setInterp_models : (s.setInterp n x).models = s.models := rfl
@[simp] theorem State.setInterp_txns : (s.setInterp n x).txns = s.txns := rfl
@[simp] theorem State.setInterp_ingress : (s.setInterp n x).ingress = s.ingress := rfl
@[simp] theorem State.setInterp_toTile : (s.setInterp n x).toTile = s.toTile := rfl
@[simp] theorem State.setInterp_notices : (s.setInterp n x).notices = s.notices := rfl
@[simp] theorem State.setInterp_tiles : (s.setInterp n x).tiles = s.tiles := rfl
@[simp] theorem State.setInterp_links : (s.setInterp n x).links = s.links := rfl
@[simp] theorem State.setInterp_gates : (s.setInterp n x).gates = s.gates := rfl
@[simp] theorem State.setInterp_gateDone : (s.setInterp n x).gateDone = s.gateDone := rfl
@[simp] theorem State.setInterp_accs : (s.setInterp n x).accs = s.accs := rfl
@[simp] theorem State.setInterp_lastStats : (s.setInterp n x).lastStats = s.lastStats := rfl
@[simp] theorem State.setInterp_statsFrom : (s.setInterp n x).statsFrom = s.statsFrom := rfl
@[simp] theorem State.setInterp_defs : (s.setInterp n x).defs = s.defs := rfl
@[simp] theorem State.setInterp_coreDefs : (s.setInterp n x).coreDefs = s.coreDefs := rfl
@[simp] theorem State.setInterp_conds : (s.setInterp n x).conds = s.conds := rfl
@[simp] theorem State.setInterp_decims : (s.setInterp n x).decims = s.decims := rfl
@[simp] theorem State.setInterp_tin : (s.setInterp n x).tin = s.tin := rfl
@[simp] theorem State.setInterp_segs : (s.setInterp n x).segs = s.segs := rfl
@[simp] theorem State.setInterp_pieces : (s.setInterp n x).pieces = s.pieces := rfl
@[simp] theorem State.setInterp_hqs : (s.setInterp n x).hqs = s.hqs := rfl
@[simp] theorem State.setInterp_hlanes : (s.setInterp n x).hlanes = s.hlanes := rfl
@[simp] theorem State.setInterp_cmd : (s.setInterp n x).cmd = s.cmd := rfl
@[simp] theorem State.setInterp_flt : (s.setInterp n x).flt = s.flt := rfl
@[simp] theorem State.setInterp_pw : (s.setInterp n x).pw = s.pw := rfl
@[simp] theorem State.setInterp_jtag : (s.setInterp n x).jtag = s.jtag := rfl
@[simp] theorem State.setInterp_grants : (s.setInterp n x).grants = s.grants := rfl
@[simp] theorem State.setInterp_out : (s.setInterp n x).out = s.out := rfl
@[simp] theorem State.setInterp_freeCount : (s.setInterp n x).freeCount = s.freeCount := rfl
@[simp] theorem State.setInterp_word (o e j : Nat) : (s.setInterp n x).word o e j = s.word o e j := rfl
@[simp] theorem State.setInterp_get (h : Field) (j : Nat) : (s.setInterp n x).get h j = s.get h j := rfl
@[simp] theorem State.setInterp_flag (h : Field) (j : Nat) : (s.setInterp n x).flag h j = s.flag h j := rfl
@[simp] theorem State.setInterp_full : (s.setInterp n x).full = s.full := rfl
@[simp] theorem State.setInterp_hq (j : Nat) : (s.setInterp n x).hq j = s.hq j := rfl
@[simp] theorem State.setInterp_lane (j : Nat) : (s.setInterp n x).lane j = s.lane j := rfl
@[simp] theorem State.setInterp_group (j : Nat) : (s.setInterp n x).group j = s.group j := rfl
@[simp] theorem State.setInterp_model (j : Nat) : (s.setInterp n x).model j = s.model j := rfl
@[simp] theorem State.setInterp_txn (j : Nat) : (s.setInterp n x).txn j = s.txn j := rfl
@[simp] theorem State.setInterp_ing (j : Nat) : (s.setInterp n x).ing j = s.ing j := rfl
@[simp] theorem State.setInterp_tile (j : Nat) : (s.setInterp n x).tile j = s.tile j := rfl
@[simp] theorem State.setInterp_hlane (j : Nat) : (s.setInterp n x).hlane j = s.hlane j := rfl
@[simp] theorem State.setInterp_chan (j : Nat) : (s.setInterp n x).chan j = s.chan j := rfl
@[simp] theorem State.setInterp_src (j : Nat) : (s.setInterp n x).src j = s.src j := rfl
@[simp] theorem State.setInterp_tdef (j k : Nat) : (s.setInterp n x).tdef j k = s.tdef j k := rfl
end

/-! `State.setTdef` -/

section
variable (s : State) (p d : Nat) (x : TDef)
@[simp] theorem State.setTdef_pending : (s.setTdef p d x).pending = s.pending := rfl
@[simp] theorem State.setTdef_regs : (s.setTdef p d x).regs = s.regs := rfl
@[simp] theorem State.setTdef_tb : (s.setTdef p d x).tb = s.tb := rfl
@[simp] theorem State.setTdef_rf : (s.setTdef p d x).rf = s.rf := rfl
@[simp] theorem State.setTdef_comps : (s.setTdef p d x).comps = s.comps := rfl
@[simp] theorem State.setTdef_inputs : (s.setTdef p d x).inputs = s.inputs := rfl
@[simp] theorem State.setTdef_pgroups : (s.setTdef p d x).pgroups = s.pgroups := rfl
@[simp] theorem State.setTdef_ivals : (s.setTdef p d x).ivals = s.ivals := rfl
@[simp] theorem State.setTdef_anchorQ : (s.setTdef p d x).anchorQ = s.anchorQ := rfl
@[simp] theorem State.setTdef_interps : (s.setTdef p d x).interps = s.interps := rfl
@[simp] theorem State.setTdef_calOps : (s.setTdef p d x).calOps = s.calOps := rfl
@[simp] theorem State.setTdef_lanes : (s.setTdef p d x).lanes = s.lanes := rfl
@[simp] theorem State.setTdef_groups : (s.setTdef p d x).groups = s.groups := rfl
@[simp] theorem State.setTdef_lref : (s.setTdef p d x).lref = s.lref := rfl
@[simp] theorem State.setTdef_models : (s.setTdef p d x).models = s.models := rfl
@[simp] theorem State.setTdef_txns : (s.setTdef p d x).txns = s.txns := rfl
@[simp] theorem State.setTdef_ingress : (s.setTdef p d x).ingress = s.ingress := rfl
@[simp] theorem State.setTdef_toTile : (s.setTdef p d x).toTile = s.toTile := rfl
@[simp] theorem State.setTdef_notices : (s.setTdef p d x).notices = s.notices := rfl
@[simp] theorem State.setTdef_tiles : (s.setTdef p d x).tiles = s.tiles := rfl
@[simp] theorem State.setTdef_links : (s.setTdef p d x).links = s.links := rfl
@[simp] theorem State.setTdef_gates : (s.setTdef p d x).gates = s.gates := rfl
@[simp] theorem State.setTdef_gateDone : (s.setTdef p d x).gateDone = s.gateDone := rfl
@[simp] theorem State.setTdef_accs : (s.setTdef p d x).accs = s.accs := rfl
@[simp] theorem State.setTdef_lastStats : (s.setTdef p d x).lastStats = s.lastStats := rfl
@[simp] theorem State.setTdef_statsFrom : (s.setTdef p d x).statsFrom = s.statsFrom := rfl
@[simp] theorem State.setTdef_coreDefs : (s.setTdef p d x).coreDefs = s.coreDefs := rfl
@[simp] theorem State.setTdef_conds : (s.setTdef p d x).conds = s.conds := rfl
@[simp] theorem State.setTdef_decims : (s.setTdef p d x).decims = s.decims := rfl
@[simp] theorem State.setTdef_tin : (s.setTdef p d x).tin = s.tin := rfl
@[simp] theorem State.setTdef_segs : (s.setTdef p d x).segs = s.segs := rfl
@[simp] theorem State.setTdef_pieces : (s.setTdef p d x).pieces = s.pieces := rfl
@[simp] theorem State.setTdef_hqs : (s.setTdef p d x).hqs = s.hqs := rfl
@[simp] theorem State.setTdef_hlanes : (s.setTdef p d x).hlanes = s.hlanes := rfl
@[simp] theorem State.setTdef_cmd : (s.setTdef p d x).cmd = s.cmd := rfl
@[simp] theorem State.setTdef_flt : (s.setTdef p d x).flt = s.flt := rfl
@[simp] theorem State.setTdef_pw : (s.setTdef p d x).pw = s.pw := rfl
@[simp] theorem State.setTdef_jtag : (s.setTdef p d x).jtag = s.jtag := rfl
@[simp] theorem State.setTdef_grants : (s.setTdef p d x).grants = s.grants := rfl
@[simp] theorem State.setTdef_out : (s.setTdef p d x).out = s.out := rfl
@[simp] theorem State.setTdef_freeCount : (s.setTdef p d x).freeCount = s.freeCount := rfl
@[simp] theorem State.setTdef_word (o e j : Nat) : (s.setTdef p d x).word o e j = s.word o e j := rfl
@[simp] theorem State.setTdef_get (h : Field) (j : Nat) : (s.setTdef p d x).get h j = s.get h j := rfl
@[simp] theorem State.setTdef_flag (h : Field) (j : Nat) : (s.setTdef p d x).flag h j = s.flag h j := rfl
@[simp] theorem State.setTdef_full : (s.setTdef p d x).full = s.full := rfl
@[simp] theorem State.setTdef_hq (j : Nat) : (s.setTdef p d x).hq j = s.hq j := rfl
@[simp] theorem State.setTdef_lane (j : Nat) : (s.setTdef p d x).lane j = s.lane j := rfl
@[simp] theorem State.setTdef_group (j : Nat) : (s.setTdef p d x).group j = s.group j := rfl
@[simp] theorem State.setTdef_model (j : Nat) : (s.setTdef p d x).model j = s.model j := rfl
@[simp] theorem State.setTdef_txn (j : Nat) : (s.setTdef p d x).txn j = s.txn j := rfl
@[simp] theorem State.setTdef_ing (j : Nat) : (s.setTdef p d x).ing j = s.ing j := rfl
@[simp] theorem State.setTdef_tile (j : Nat) : (s.setTdef p d x).tile j = s.tile j := rfl
@[simp] theorem State.setTdef_hlane (j : Nat) : (s.setTdef p d x).hlane j = s.hlane j := rfl
@[simp] theorem State.setTdef_chan (j : Nat) : (s.setTdef p d x).chan j = s.chan j := rfl
@[simp] theorem State.setTdef_src (j : Nat) : (s.setTdef p d x).src j = s.src j := rfl
end

/-! `State.setCoreDef` -/

section
variable (s : State) (k p d : Nat) (x : CoreDef)
@[simp] theorem State.setCoreDef_pending : (s.setCoreDef k p d x).pending = s.pending := rfl
@[simp] theorem State.setCoreDef_regs : (s.setCoreDef k p d x).regs = s.regs := rfl
@[simp] theorem State.setCoreDef_tb : (s.setCoreDef k p d x).tb = s.tb := rfl
@[simp] theorem State.setCoreDef_rf : (s.setCoreDef k p d x).rf = s.rf := rfl
@[simp] theorem State.setCoreDef_comps : (s.setCoreDef k p d x).comps = s.comps := rfl
@[simp] theorem State.setCoreDef_inputs : (s.setCoreDef k p d x).inputs = s.inputs := rfl
@[simp] theorem State.setCoreDef_pgroups : (s.setCoreDef k p d x).pgroups = s.pgroups := rfl
@[simp] theorem State.setCoreDef_ivals : (s.setCoreDef k p d x).ivals = s.ivals := rfl
@[simp] theorem State.setCoreDef_anchorQ : (s.setCoreDef k p d x).anchorQ = s.anchorQ := rfl
@[simp] theorem State.setCoreDef_interps : (s.setCoreDef k p d x).interps = s.interps := rfl
@[simp] theorem State.setCoreDef_calOps : (s.setCoreDef k p d x).calOps = s.calOps := rfl
@[simp] theorem State.setCoreDef_lanes : (s.setCoreDef k p d x).lanes = s.lanes := rfl
@[simp] theorem State.setCoreDef_groups : (s.setCoreDef k p d x).groups = s.groups := rfl
@[simp] theorem State.setCoreDef_lref : (s.setCoreDef k p d x).lref = s.lref := rfl
@[simp] theorem State.setCoreDef_models : (s.setCoreDef k p d x).models = s.models := rfl
@[simp] theorem State.setCoreDef_txns : (s.setCoreDef k p d x).txns = s.txns := rfl
@[simp] theorem State.setCoreDef_ingress : (s.setCoreDef k p d x).ingress = s.ingress := rfl
@[simp] theorem State.setCoreDef_toTile : (s.setCoreDef k p d x).toTile = s.toTile := rfl
@[simp] theorem State.setCoreDef_notices : (s.setCoreDef k p d x).notices = s.notices := rfl
@[simp] theorem State.setCoreDef_tiles : (s.setCoreDef k p d x).tiles = s.tiles := rfl
@[simp] theorem State.setCoreDef_links : (s.setCoreDef k p d x).links = s.links := rfl
@[simp] theorem State.setCoreDef_gates : (s.setCoreDef k p d x).gates = s.gates := rfl
@[simp] theorem State.setCoreDef_gateDone : (s.setCoreDef k p d x).gateDone = s.gateDone := rfl
@[simp] theorem State.setCoreDef_accs : (s.setCoreDef k p d x).accs = s.accs := rfl
@[simp] theorem State.setCoreDef_lastStats : (s.setCoreDef k p d x).lastStats = s.lastStats := rfl
@[simp] theorem State.setCoreDef_statsFrom : (s.setCoreDef k p d x).statsFrom = s.statsFrom := rfl
@[simp] theorem State.setCoreDef_defs : (s.setCoreDef k p d x).defs = s.defs := rfl
@[simp] theorem State.setCoreDef_conds : (s.setCoreDef k p d x).conds = s.conds := rfl
@[simp] theorem State.setCoreDef_decims : (s.setCoreDef k p d x).decims = s.decims := rfl
@[simp] theorem State.setCoreDef_tin : (s.setCoreDef k p d x).tin = s.tin := rfl
@[simp] theorem State.setCoreDef_segs : (s.setCoreDef k p d x).segs = s.segs := rfl
@[simp] theorem State.setCoreDef_pieces : (s.setCoreDef k p d x).pieces = s.pieces := rfl
@[simp] theorem State.setCoreDef_hqs : (s.setCoreDef k p d x).hqs = s.hqs := rfl
@[simp] theorem State.setCoreDef_hlanes : (s.setCoreDef k p d x).hlanes = s.hlanes := rfl
@[simp] theorem State.setCoreDef_cmd : (s.setCoreDef k p d x).cmd = s.cmd := rfl
@[simp] theorem State.setCoreDef_flt : (s.setCoreDef k p d x).flt = s.flt := rfl
@[simp] theorem State.setCoreDef_pw : (s.setCoreDef k p d x).pw = s.pw := rfl
@[simp] theorem State.setCoreDef_jtag : (s.setCoreDef k p d x).jtag = s.jtag := rfl
@[simp] theorem State.setCoreDef_grants : (s.setCoreDef k p d x).grants = s.grants := rfl
@[simp] theorem State.setCoreDef_out : (s.setCoreDef k p d x).out = s.out := rfl
@[simp] theorem State.setCoreDef_freeCount : (s.setCoreDef k p d x).freeCount = s.freeCount := rfl
@[simp] theorem State.setCoreDef_word (o e j : Nat) : (s.setCoreDef k p d x).word o e j = s.word o e j := rfl
@[simp] theorem State.setCoreDef_get (h : Field) (j : Nat) : (s.setCoreDef k p d x).get h j = s.get h j := rfl
@[simp] theorem State.setCoreDef_flag (h : Field) (j : Nat) : (s.setCoreDef k p d x).flag h j = s.flag h j := rfl
@[simp] theorem State.setCoreDef_full : (s.setCoreDef k p d x).full = s.full := rfl
@[simp] theorem State.setCoreDef_hq (j : Nat) : (s.setCoreDef k p d x).hq j = s.hq j := rfl
@[simp] theorem State.setCoreDef_lane (j : Nat) : (s.setCoreDef k p d x).lane j = s.lane j := rfl
@[simp] theorem State.setCoreDef_group (j : Nat) : (s.setCoreDef k p d x).group j = s.group j := rfl
@[simp] theorem State.setCoreDef_model (j : Nat) : (s.setCoreDef k p d x).model j = s.model j := rfl
@[simp] theorem State.setCoreDef_txn (j : Nat) : (s.setCoreDef k p d x).txn j = s.txn j := rfl
@[simp] theorem State.setCoreDef_ing (j : Nat) : (s.setCoreDef k p d x).ing j = s.ing j := rfl
@[simp] theorem State.setCoreDef_tile (j : Nat) : (s.setCoreDef k p d x).tile j = s.tile j := rfl
@[simp] theorem State.setCoreDef_hlane (j : Nat) : (s.setCoreDef k p d x).hlane j = s.hlane j := rfl
@[simp] theorem State.setCoreDef_chan (j : Nat) : (s.setCoreDef k p d x).chan j = s.chan j := rfl
@[simp] theorem State.setCoreDef_src (j : Nat) : (s.setCoreDef k p d x).src j = s.src j := rfl
@[simp] theorem State.setCoreDef_tdef (j k : Nat) : (s.setCoreDef k p d x).tdef j k = s.tdef j k := rfl
end

/-! `State.setSeg` -/

section
variable (s : State) (n : Nat) (g : Seg)
@[simp] theorem State.setSeg_pending : (s.setSeg n g).pending = s.pending := rfl
@[simp] theorem State.setSeg_regs : (s.setSeg n g).regs = s.regs := rfl
@[simp] theorem State.setSeg_tb : (s.setSeg n g).tb = s.tb := rfl
@[simp] theorem State.setSeg_rf : (s.setSeg n g).rf = s.rf := rfl
@[simp] theorem State.setSeg_comps : (s.setSeg n g).comps = s.comps := rfl
@[simp] theorem State.setSeg_inputs : (s.setSeg n g).inputs = s.inputs := rfl
@[simp] theorem State.setSeg_pgroups : (s.setSeg n g).pgroups = s.pgroups := rfl
@[simp] theorem State.setSeg_ivals : (s.setSeg n g).ivals = s.ivals := rfl
@[simp] theorem State.setSeg_anchorQ : (s.setSeg n g).anchorQ = s.anchorQ := rfl
@[simp] theorem State.setSeg_interps : (s.setSeg n g).interps = s.interps := rfl
@[simp] theorem State.setSeg_calOps : (s.setSeg n g).calOps = s.calOps := rfl
@[simp] theorem State.setSeg_lanes : (s.setSeg n g).lanes = s.lanes := rfl
@[simp] theorem State.setSeg_groups : (s.setSeg n g).groups = s.groups := rfl
@[simp] theorem State.setSeg_lref : (s.setSeg n g).lref = s.lref := rfl
@[simp] theorem State.setSeg_models : (s.setSeg n g).models = s.models := rfl
@[simp] theorem State.setSeg_txns : (s.setSeg n g).txns = s.txns := rfl
@[simp] theorem State.setSeg_ingress : (s.setSeg n g).ingress = s.ingress := rfl
@[simp] theorem State.setSeg_toTile : (s.setSeg n g).toTile = s.toTile := rfl
@[simp] theorem State.setSeg_notices : (s.setSeg n g).notices = s.notices := rfl
@[simp] theorem State.setSeg_tiles : (s.setSeg n g).tiles = s.tiles := rfl
@[simp] theorem State.setSeg_links : (s.setSeg n g).links = s.links := rfl
@[simp] theorem State.setSeg_gates : (s.setSeg n g).gates = s.gates := rfl
@[simp] theorem State.setSeg_gateDone : (s.setSeg n g).gateDone = s.gateDone := rfl
@[simp] theorem State.setSeg_accs : (s.setSeg n g).accs = s.accs := rfl
@[simp] theorem State.setSeg_lastStats : (s.setSeg n g).lastStats = s.lastStats := rfl
@[simp] theorem State.setSeg_statsFrom : (s.setSeg n g).statsFrom = s.statsFrom := rfl
@[simp] theorem State.setSeg_defs : (s.setSeg n g).defs = s.defs := rfl
@[simp] theorem State.setSeg_coreDefs : (s.setSeg n g).coreDefs = s.coreDefs := rfl
@[simp] theorem State.setSeg_conds : (s.setSeg n g).conds = s.conds := rfl
@[simp] theorem State.setSeg_decims : (s.setSeg n g).decims = s.decims := rfl
@[simp] theorem State.setSeg_tin : (s.setSeg n g).tin = s.tin := rfl
@[simp] theorem State.setSeg_pieces : (s.setSeg n g).pieces = s.pieces := rfl
@[simp] theorem State.setSeg_hqs : (s.setSeg n g).hqs = s.hqs := rfl
@[simp] theorem State.setSeg_hlanes : (s.setSeg n g).hlanes = s.hlanes := rfl
@[simp] theorem State.setSeg_cmd : (s.setSeg n g).cmd = s.cmd := rfl
@[simp] theorem State.setSeg_flt : (s.setSeg n g).flt = s.flt := rfl
@[simp] theorem State.setSeg_pw : (s.setSeg n g).pw = s.pw := rfl
@[simp] theorem State.setSeg_jtag : (s.setSeg n g).jtag = s.jtag := rfl
@[simp] theorem State.setSeg_grants : (s.setSeg n g).grants = s.grants := rfl
@[simp] theorem State.setSeg_out : (s.setSeg n g).out = s.out := rfl
@[simp] theorem State.setSeg_freeCount : (s.setSeg n g).freeCount = s.freeCount := rfl
@[simp] theorem State.setSeg_word (o e j : Nat) : (s.setSeg n g).word o e j = s.word o e j := rfl
@[simp] theorem State.setSeg_get (h : Field) (j : Nat) : (s.setSeg n g).get h j = s.get h j := rfl
@[simp] theorem State.setSeg_flag (h : Field) (j : Nat) : (s.setSeg n g).flag h j = s.flag h j := rfl
@[simp] theorem State.setSeg_full : (s.setSeg n g).full = s.full := rfl
@[simp] theorem State.setSeg_hq (j : Nat) : (s.setSeg n g).hq j = s.hq j := rfl
@[simp] theorem State.setSeg_lane (j : Nat) : (s.setSeg n g).lane j = s.lane j := rfl
@[simp] theorem State.setSeg_group (j : Nat) : (s.setSeg n g).group j = s.group j := rfl
@[simp] theorem State.setSeg_model (j : Nat) : (s.setSeg n g).model j = s.model j := rfl
@[simp] theorem State.setSeg_txn (j : Nat) : (s.setSeg n g).txn j = s.txn j := rfl
@[simp] theorem State.setSeg_ing (j : Nat) : (s.setSeg n g).ing j = s.ing j := rfl
@[simp] theorem State.setSeg_tile (j : Nat) : (s.setSeg n g).tile j = s.tile j := rfl
@[simp] theorem State.setSeg_hlane (j : Nat) : (s.setSeg n g).hlane j = s.hlane j := rfl
@[simp] theorem State.setSeg_chan (j : Nat) : (s.setSeg n g).chan j = s.chan j := rfl
@[simp] theorem State.setSeg_src (j : Nat) : (s.setSeg n g).src j = s.src j := rfl
@[simp] theorem State.setSeg_tdef (j k : Nat) : (s.setSeg n g).tdef j k = s.tdef j k := rfl
end

/-! `State.setGates` -/

section
variable (s : State) (pk : Nat) (gs : List Gate)
@[simp] theorem State.setGates_pending : (s.setGates pk gs).pending = s.pending := rfl
@[simp] theorem State.setGates_regs : (s.setGates pk gs).regs = s.regs := rfl
@[simp] theorem State.setGates_tb : (s.setGates pk gs).tb = s.tb := rfl
@[simp] theorem State.setGates_rf : (s.setGates pk gs).rf = s.rf := rfl
@[simp] theorem State.setGates_comps : (s.setGates pk gs).comps = s.comps := rfl
@[simp] theorem State.setGates_inputs : (s.setGates pk gs).inputs = s.inputs := rfl
@[simp] theorem State.setGates_pgroups : (s.setGates pk gs).pgroups = s.pgroups := rfl
@[simp] theorem State.setGates_ivals : (s.setGates pk gs).ivals = s.ivals := rfl
@[simp] theorem State.setGates_anchorQ : (s.setGates pk gs).anchorQ = s.anchorQ := rfl
@[simp] theorem State.setGates_interps : (s.setGates pk gs).interps = s.interps := rfl
@[simp] theorem State.setGates_calOps : (s.setGates pk gs).calOps = s.calOps := rfl
@[simp] theorem State.setGates_lanes : (s.setGates pk gs).lanes = s.lanes := rfl
@[simp] theorem State.setGates_groups : (s.setGates pk gs).groups = s.groups := rfl
@[simp] theorem State.setGates_lref : (s.setGates pk gs).lref = s.lref := rfl
@[simp] theorem State.setGates_models : (s.setGates pk gs).models = s.models := rfl
@[simp] theorem State.setGates_txns : (s.setGates pk gs).txns = s.txns := rfl
@[simp] theorem State.setGates_ingress : (s.setGates pk gs).ingress = s.ingress := rfl
@[simp] theorem State.setGates_toTile : (s.setGates pk gs).toTile = s.toTile := rfl
@[simp] theorem State.setGates_notices : (s.setGates pk gs).notices = s.notices := rfl
@[simp] theorem State.setGates_tiles : (s.setGates pk gs).tiles = s.tiles := rfl
@[simp] theorem State.setGates_links : (s.setGates pk gs).links = s.links := rfl
@[simp] theorem State.setGates_gateDone : (s.setGates pk gs).gateDone = s.gateDone := rfl
@[simp] theorem State.setGates_accs : (s.setGates pk gs).accs = s.accs := rfl
@[simp] theorem State.setGates_lastStats : (s.setGates pk gs).lastStats = s.lastStats := rfl
@[simp] theorem State.setGates_statsFrom : (s.setGates pk gs).statsFrom = s.statsFrom := rfl
@[simp] theorem State.setGates_defs : (s.setGates pk gs).defs = s.defs := rfl
@[simp] theorem State.setGates_coreDefs : (s.setGates pk gs).coreDefs = s.coreDefs := rfl
@[simp] theorem State.setGates_conds : (s.setGates pk gs).conds = s.conds := rfl
@[simp] theorem State.setGates_decims : (s.setGates pk gs).decims = s.decims := rfl
@[simp] theorem State.setGates_tin : (s.setGates pk gs).tin = s.tin := rfl
@[simp] theorem State.setGates_segs : (s.setGates pk gs).segs = s.segs := rfl
@[simp] theorem State.setGates_pieces : (s.setGates pk gs).pieces = s.pieces := rfl
@[simp] theorem State.setGates_hqs : (s.setGates pk gs).hqs = s.hqs := rfl
@[simp] theorem State.setGates_hlanes : (s.setGates pk gs).hlanes = s.hlanes := rfl
@[simp] theorem State.setGates_cmd : (s.setGates pk gs).cmd = s.cmd := rfl
@[simp] theorem State.setGates_flt : (s.setGates pk gs).flt = s.flt := rfl
@[simp] theorem State.setGates_pw : (s.setGates pk gs).pw = s.pw := rfl
@[simp] theorem State.setGates_jtag : (s.setGates pk gs).jtag = s.jtag := rfl
@[simp] theorem State.setGates_grants : (s.setGates pk gs).grants = s.grants := rfl
@[simp] theorem State.setGates_out : (s.setGates pk gs).out = s.out := rfl
@[simp] theorem State.setGates_freeCount : (s.setGates pk gs).freeCount = s.freeCount := rfl
@[simp] theorem State.setGates_word (o e j : Nat) : (s.setGates pk gs).word o e j = s.word o e j := rfl
@[simp] theorem State.setGates_get (h : Field) (j : Nat) : (s.setGates pk gs).get h j = s.get h j := rfl
@[simp] theorem State.setGates_flag (h : Field) (j : Nat) : (s.setGates pk gs).flag h j = s.flag h j := rfl
@[simp] theorem State.setGates_full : (s.setGates pk gs).full = s.full := rfl
@[simp] theorem State.setGates_hq (j : Nat) : (s.setGates pk gs).hq j = s.hq j := rfl
@[simp] theorem State.setGates_lane (j : Nat) : (s.setGates pk gs).lane j = s.lane j := rfl
@[simp] theorem State.setGates_group (j : Nat) : (s.setGates pk gs).group j = s.group j := rfl
@[simp] theorem State.setGates_model (j : Nat) : (s.setGates pk gs).model j = s.model j := rfl
@[simp] theorem State.setGates_txn (j : Nat) : (s.setGates pk gs).txn j = s.txn j := rfl
@[simp] theorem State.setGates_ing (j : Nat) : (s.setGates pk gs).ing j = s.ing j := rfl
@[simp] theorem State.setGates_tile (j : Nat) : (s.setGates pk gs).tile j = s.tile j := rfl
@[simp] theorem State.setGates_hlane (j : Nat) : (s.setGates pk gs).hlane j = s.hlane j := rfl
@[simp] theorem State.setGates_chan (j : Nat) : (s.setGates pk gs).chan j = s.chan j := rfl
@[simp] theorem State.setGates_src (j : Nat) : (s.setGates pk gs).src j = s.src j := rfl
@[simp] theorem State.setGates_tdef (j k : Nat) : (s.setGates pk gs).tdef j k = s.tdef j k := rfl
end

/-! `State.setCondx` -/

section
variable (s : State) (c : Nat) (x : CondX)
@[simp] theorem State.setCondx_pending : (s.setCondx c x).pending = s.pending := rfl
@[simp] theorem State.setCondx_regs : (s.setCondx c x).regs = s.regs := rfl
@[simp] theorem State.setCondx_tb : (s.setCondx c x).tb = s.tb := rfl
@[simp] theorem State.setCondx_rf : (s.setCondx c x).rf = s.rf := rfl
@[simp] theorem State.setCondx_comps : (s.setCondx c x).comps = s.comps := rfl
@[simp] theorem State.setCondx_inputs : (s.setCondx c x).inputs = s.inputs := rfl
@[simp] theorem State.setCondx_pgroups : (s.setCondx c x).pgroups = s.pgroups := rfl
@[simp] theorem State.setCondx_ivals : (s.setCondx c x).ivals = s.ivals := rfl
@[simp] theorem State.setCondx_anchorQ : (s.setCondx c x).anchorQ = s.anchorQ := rfl
@[simp] theorem State.setCondx_interps : (s.setCondx c x).interps = s.interps := rfl
@[simp] theorem State.setCondx_calOps : (s.setCondx c x).calOps = s.calOps := rfl
@[simp] theorem State.setCondx_lanes : (s.setCondx c x).lanes = s.lanes := rfl
@[simp] theorem State.setCondx_groups : (s.setCondx c x).groups = s.groups := rfl
@[simp] theorem State.setCondx_lref : (s.setCondx c x).lref = s.lref := rfl
@[simp] theorem State.setCondx_models : (s.setCondx c x).models = s.models := rfl
@[simp] theorem State.setCondx_txns : (s.setCondx c x).txns = s.txns := rfl
@[simp] theorem State.setCondx_ingress : (s.setCondx c x).ingress = s.ingress := rfl
@[simp] theorem State.setCondx_toTile : (s.setCondx c x).toTile = s.toTile := rfl
@[simp] theorem State.setCondx_notices : (s.setCondx c x).notices = s.notices := rfl
@[simp] theorem State.setCondx_tiles : (s.setCondx c x).tiles = s.tiles := rfl
@[simp] theorem State.setCondx_links : (s.setCondx c x).links = s.links := rfl
@[simp] theorem State.setCondx_gates : (s.setCondx c x).gates = s.gates := rfl
@[simp] theorem State.setCondx_gateDone : (s.setCondx c x).gateDone = s.gateDone := rfl
@[simp] theorem State.setCondx_accs : (s.setCondx c x).accs = s.accs := rfl
@[simp] theorem State.setCondx_lastStats : (s.setCondx c x).lastStats = s.lastStats := rfl
@[simp] theorem State.setCondx_statsFrom : (s.setCondx c x).statsFrom = s.statsFrom := rfl
@[simp] theorem State.setCondx_defs : (s.setCondx c x).defs = s.defs := rfl
@[simp] theorem State.setCondx_coreDefs : (s.setCondx c x).coreDefs = s.coreDefs := rfl
@[simp] theorem State.setCondx_decims : (s.setCondx c x).decims = s.decims := rfl
@[simp] theorem State.setCondx_tin : (s.setCondx c x).tin = s.tin := rfl
@[simp] theorem State.setCondx_segs : (s.setCondx c x).segs = s.segs := rfl
@[simp] theorem State.setCondx_pieces : (s.setCondx c x).pieces = s.pieces := rfl
@[simp] theorem State.setCondx_hqs : (s.setCondx c x).hqs = s.hqs := rfl
@[simp] theorem State.setCondx_hlanes : (s.setCondx c x).hlanes = s.hlanes := rfl
@[simp] theorem State.setCondx_cmd : (s.setCondx c x).cmd = s.cmd := rfl
@[simp] theorem State.setCondx_flt : (s.setCondx c x).flt = s.flt := rfl
@[simp] theorem State.setCondx_pw : (s.setCondx c x).pw = s.pw := rfl
@[simp] theorem State.setCondx_jtag : (s.setCondx c x).jtag = s.jtag := rfl
@[simp] theorem State.setCondx_grants : (s.setCondx c x).grants = s.grants := rfl
@[simp] theorem State.setCondx_out : (s.setCondx c x).out = s.out := rfl
@[simp] theorem State.setCondx_freeCount : (s.setCondx c x).freeCount = s.freeCount := rfl
@[simp] theorem State.setCondx_word (o e j : Nat) : (s.setCondx c x).word o e j = s.word o e j := rfl
@[simp] theorem State.setCondx_get (h : Field) (j : Nat) : (s.setCondx c x).get h j = s.get h j := rfl
@[simp] theorem State.setCondx_flag (h : Field) (j : Nat) : (s.setCondx c x).flag h j = s.flag h j := rfl
@[simp] theorem State.setCondx_full : (s.setCondx c x).full = s.full := rfl
@[simp] theorem State.setCondx_hq (j : Nat) : (s.setCondx c x).hq j = s.hq j := rfl
@[simp] theorem State.setCondx_lane (j : Nat) : (s.setCondx c x).lane j = s.lane j := rfl
@[simp] theorem State.setCondx_group (j : Nat) : (s.setCondx c x).group j = s.group j := rfl
@[simp] theorem State.setCondx_model (j : Nat) : (s.setCondx c x).model j = s.model j := rfl
@[simp] theorem State.setCondx_txn (j : Nat) : (s.setCondx c x).txn j = s.txn j := rfl
@[simp] theorem State.setCondx_ing (j : Nat) : (s.setCondx c x).ing j = s.ing j := rfl
@[simp] theorem State.setCondx_tile (j : Nat) : (s.setCondx c x).tile j = s.tile j := rfl
@[simp] theorem State.setCondx_hlane (j : Nat) : (s.setCondx c x).hlane j = s.hlane j := rfl
@[simp] theorem State.setCondx_chan (j : Nat) : (s.setCondx c x).chan j = s.chan j := rfl
@[simp] theorem State.setCondx_src (j : Nat) : (s.setCondx c x).src j = s.src j := rfl
@[simp] theorem State.setCondx_tdef (j k : Nat) : (s.setCondx c x).tdef j k = s.tdef j k := rfl
end

/-! `State.setRefx` -/

section
variable (s : State) (r : Nat) (x : RefX)
@[simp] theorem State.setRefx_pending : (s.setRefx r x).pending = s.pending := rfl
@[simp] theorem State.setRefx_regs : (s.setRefx r x).regs = s.regs := rfl
@[simp] theorem State.setRefx_tb : (s.setRefx r x).tb = s.tb := rfl
@[simp] theorem State.setRefx_comps : (s.setRefx r x).comps = s.comps := rfl
@[simp] theorem State.setRefx_inputs : (s.setRefx r x).inputs = s.inputs := rfl
@[simp] theorem State.setRefx_pgroups : (s.setRefx r x).pgroups = s.pgroups := rfl
@[simp] theorem State.setRefx_ivals : (s.setRefx r x).ivals = s.ivals := rfl
@[simp] theorem State.setRefx_anchorQ : (s.setRefx r x).anchorQ = s.anchorQ := rfl
@[simp] theorem State.setRefx_interps : (s.setRefx r x).interps = s.interps := rfl
@[simp] theorem State.setRefx_calOps : (s.setRefx r x).calOps = s.calOps := rfl
@[simp] theorem State.setRefx_lanes : (s.setRefx r x).lanes = s.lanes := rfl
@[simp] theorem State.setRefx_groups : (s.setRefx r x).groups = s.groups := rfl
@[simp] theorem State.setRefx_lref : (s.setRefx r x).lref = s.lref := rfl
@[simp] theorem State.setRefx_models : (s.setRefx r x).models = s.models := rfl
@[simp] theorem State.setRefx_txns : (s.setRefx r x).txns = s.txns := rfl
@[simp] theorem State.setRefx_ingress : (s.setRefx r x).ingress = s.ingress := rfl
@[simp] theorem State.setRefx_toTile : (s.setRefx r x).toTile = s.toTile := rfl
@[simp] theorem State.setRefx_notices : (s.setRefx r x).notices = s.notices := rfl
@[simp] theorem State.setRefx_tiles : (s.setRefx r x).tiles = s.tiles := rfl
@[simp] theorem State.setRefx_links : (s.setRefx r x).links = s.links := rfl
@[simp] theorem State.setRefx_gates : (s.setRefx r x).gates = s.gates := rfl
@[simp] theorem State.setRefx_gateDone : (s.setRefx r x).gateDone = s.gateDone := rfl
@[simp] theorem State.setRefx_accs : (s.setRefx r x).accs = s.accs := rfl
@[simp] theorem State.setRefx_lastStats : (s.setRefx r x).lastStats = s.lastStats := rfl
@[simp] theorem State.setRefx_statsFrom : (s.setRefx r x).statsFrom = s.statsFrom := rfl
@[simp] theorem State.setRefx_defs : (s.setRefx r x).defs = s.defs := rfl
@[simp] theorem State.setRefx_coreDefs : (s.setRefx r x).coreDefs = s.coreDefs := rfl
@[simp] theorem State.setRefx_conds : (s.setRefx r x).conds = s.conds := rfl
@[simp] theorem State.setRefx_decims : (s.setRefx r x).decims = s.decims := rfl
@[simp] theorem State.setRefx_tin : (s.setRefx r x).tin = s.tin := rfl
@[simp] theorem State.setRefx_segs : (s.setRefx r x).segs = s.segs := rfl
@[simp] theorem State.setRefx_pieces : (s.setRefx r x).pieces = s.pieces := rfl
@[simp] theorem State.setRefx_hqs : (s.setRefx r x).hqs = s.hqs := rfl
@[simp] theorem State.setRefx_hlanes : (s.setRefx r x).hlanes = s.hlanes := rfl
@[simp] theorem State.setRefx_cmd : (s.setRefx r x).cmd = s.cmd := rfl
@[simp] theorem State.setRefx_flt : (s.setRefx r x).flt = s.flt := rfl
@[simp] theorem State.setRefx_pw : (s.setRefx r x).pw = s.pw := rfl
@[simp] theorem State.setRefx_jtag : (s.setRefx r x).jtag = s.jtag := rfl
@[simp] theorem State.setRefx_grants : (s.setRefx r x).grants = s.grants := rfl
@[simp] theorem State.setRefx_out : (s.setRefx r x).out = s.out := rfl
@[simp] theorem State.setRefx_freeCount : (s.setRefx r x).freeCount = s.freeCount := rfl
@[simp] theorem State.setRefx_word (o e j : Nat) : (s.setRefx r x).word o e j = s.word o e j := rfl
@[simp] theorem State.setRefx_get (h : Field) (j : Nat) : (s.setRefx r x).get h j = s.get h j := rfl
@[simp] theorem State.setRefx_flag (h : Field) (j : Nat) : (s.setRefx r x).flag h j = s.flag h j := rfl
@[simp] theorem State.setRefx_full : (s.setRefx r x).full = s.full := rfl
@[simp] theorem State.setRefx_hq (j : Nat) : (s.setRefx r x).hq j = s.hq j := rfl
@[simp] theorem State.setRefx_lane (j : Nat) : (s.setRefx r x).lane j = s.lane j := rfl
@[simp] theorem State.setRefx_group (j : Nat) : (s.setRefx r x).group j = s.group j := rfl
@[simp] theorem State.setRefx_model (j : Nat) : (s.setRefx r x).model j = s.model j := rfl
@[simp] theorem State.setRefx_txn (j : Nat) : (s.setRefx r x).txn j = s.txn j := rfl
@[simp] theorem State.setRefx_ing (j : Nat) : (s.setRefx r x).ing j = s.ing j := rfl
@[simp] theorem State.setRefx_tile (j : Nat) : (s.setRefx r x).tile j = s.tile j := rfl
@[simp] theorem State.setRefx_hlane (j : Nat) : (s.setRefx r x).hlane j = s.hlane j := rfl
@[simp] theorem State.setRefx_chan (j : Nat) : (s.setRefx r x).chan j = s.chan j := rfl
@[simp] theorem State.setRefx_src (j : Nat) : (s.setRefx r x).src j = s.src j := rfl
@[simp] theorem State.setRefx_tdef (j k : Nat) : (s.setRefx r x).tdef j k = s.tdef j k := rfl
end

/-! `State.setSrc` -/

section
variable (s : State) (n : Nat) (x : SrcX)
@[simp] theorem State.setSrc_pending : (s.setSrc n x).pending = s.pending := rfl
@[simp] theorem State.setSrc_regs : (s.setSrc n x).regs = s.regs := rfl
@[simp] theorem State.setSrc_tb : (s.setSrc n x).tb = s.tb := rfl
@[simp] theorem State.setSrc_rf : (s.setSrc n x).rf = s.rf := rfl
@[simp] theorem State.setSrc_comps : (s.setSrc n x).comps = s.comps := rfl
@[simp] theorem State.setSrc_inputs : (s.setSrc n x).inputs = s.inputs := rfl
@[simp] theorem State.setSrc_pgroups : (s.setSrc n x).pgroups = s.pgroups := rfl
@[simp] theorem State.setSrc_ivals : (s.setSrc n x).ivals = s.ivals := rfl
@[simp] theorem State.setSrc_anchorQ : (s.setSrc n x).anchorQ = s.anchorQ := rfl
@[simp] theorem State.setSrc_interps : (s.setSrc n x).interps = s.interps := rfl
@[simp] theorem State.setSrc_calOps : (s.setSrc n x).calOps = s.calOps := rfl
@[simp] theorem State.setSrc_lanes : (s.setSrc n x).lanes = s.lanes := rfl
@[simp] theorem State.setSrc_groups : (s.setSrc n x).groups = s.groups := rfl
@[simp] theorem State.setSrc_lref : (s.setSrc n x).lref = s.lref := rfl
@[simp] theorem State.setSrc_models : (s.setSrc n x).models = s.models := rfl
@[simp] theorem State.setSrc_txns : (s.setSrc n x).txns = s.txns := rfl
@[simp] theorem State.setSrc_ingress : (s.setSrc n x).ingress = s.ingress := rfl
@[simp] theorem State.setSrc_toTile : (s.setSrc n x).toTile = s.toTile := rfl
@[simp] theorem State.setSrc_notices : (s.setSrc n x).notices = s.notices := rfl
@[simp] theorem State.setSrc_tiles : (s.setSrc n x).tiles = s.tiles := rfl
@[simp] theorem State.setSrc_links : (s.setSrc n x).links = s.links := rfl
@[simp] theorem State.setSrc_gates : (s.setSrc n x).gates = s.gates := rfl
@[simp] theorem State.setSrc_gateDone : (s.setSrc n x).gateDone = s.gateDone := rfl
@[simp] theorem State.setSrc_accs : (s.setSrc n x).accs = s.accs := rfl
@[simp] theorem State.setSrc_lastStats : (s.setSrc n x).lastStats = s.lastStats := rfl
@[simp] theorem State.setSrc_statsFrom : (s.setSrc n x).statsFrom = s.statsFrom := rfl
@[simp] theorem State.setSrc_defs : (s.setSrc n x).defs = s.defs := rfl
@[simp] theorem State.setSrc_coreDefs : (s.setSrc n x).coreDefs = s.coreDefs := rfl
@[simp] theorem State.setSrc_conds : (s.setSrc n x).conds = s.conds := rfl
@[simp] theorem State.setSrc_decims : (s.setSrc n x).decims = s.decims := rfl
@[simp] theorem State.setSrc_tin : (s.setSrc n x).tin = s.tin := rfl
@[simp] theorem State.setSrc_segs : (s.setSrc n x).segs = s.segs := rfl
@[simp] theorem State.setSrc_pieces : (s.setSrc n x).pieces = s.pieces := rfl
@[simp] theorem State.setSrc_hqs : (s.setSrc n x).hqs = s.hqs := rfl
@[simp] theorem State.setSrc_hlanes : (s.setSrc n x).hlanes = s.hlanes := rfl
@[simp] theorem State.setSrc_cmd : (s.setSrc n x).cmd = s.cmd := rfl
@[simp] theorem State.setSrc_pw : (s.setSrc n x).pw = s.pw := rfl
@[simp] theorem State.setSrc_jtag : (s.setSrc n x).jtag = s.jtag := rfl
@[simp] theorem State.setSrc_grants : (s.setSrc n x).grants = s.grants := rfl
@[simp] theorem State.setSrc_out : (s.setSrc n x).out = s.out := rfl
@[simp] theorem State.setSrc_freeCount : (s.setSrc n x).freeCount = s.freeCount := rfl
@[simp] theorem State.setSrc_word (o e j : Nat) : (s.setSrc n x).word o e j = s.word o e j := rfl
@[simp] theorem State.setSrc_get (h : Field) (j : Nat) : (s.setSrc n x).get h j = s.get h j := rfl
@[simp] theorem State.setSrc_flag (h : Field) (j : Nat) : (s.setSrc n x).flag h j = s.flag h j := rfl
@[simp] theorem State.setSrc_full : (s.setSrc n x).full = s.full := rfl
@[simp] theorem State.setSrc_hq (j : Nat) : (s.setSrc n x).hq j = s.hq j := rfl
@[simp] theorem State.setSrc_lane (j : Nat) : (s.setSrc n x).lane j = s.lane j := rfl
@[simp] theorem State.setSrc_group (j : Nat) : (s.setSrc n x).group j = s.group j := rfl
@[simp] theorem State.setSrc_model (j : Nat) : (s.setSrc n x).model j = s.model j := rfl
@[simp] theorem State.setSrc_txn (j : Nat) : (s.setSrc n x).txn j = s.txn j := rfl
@[simp] theorem State.setSrc_ing (j : Nat) : (s.setSrc n x).ing j = s.ing j := rfl
@[simp] theorem State.setSrc_tile (j : Nat) : (s.setSrc n x).tile j = s.tile j := rfl
@[simp] theorem State.setSrc_hlane (j : Nat) : (s.setSrc n x).hlane j = s.hlane j := rfl
@[simp] theorem State.setSrc_chan (j : Nat) : (s.setSrc n x).chan j = s.chan j := rfl
@[simp] theorem State.setSrc_tdef (j k : Nat) : (s.setSrc n x).tdef j k = s.tdef j k := rfl
end

/-! `send` -/

section
variable (s : State) (x : Out)
@[simp] theorem send_pending : (send s x).pending = s.pending := rfl
@[simp] theorem send_regs : (send s x).regs = s.regs := rfl
@[simp] theorem send_tb : (send s x).tb = s.tb := rfl
@[simp] theorem send_rf : (send s x).rf = s.rf := rfl
@[simp] theorem send_comps : (send s x).comps = s.comps := rfl
@[simp] theorem send_inputs : (send s x).inputs = s.inputs := rfl
@[simp] theorem send_pgroups : (send s x).pgroups = s.pgroups := rfl
@[simp] theorem send_ivals : (send s x).ivals = s.ivals := rfl
@[simp] theorem send_anchorQ : (send s x).anchorQ = s.anchorQ := rfl
@[simp] theorem send_interps : (send s x).interps = s.interps := rfl
@[simp] theorem send_calOps : (send s x).calOps = s.calOps := rfl
@[simp] theorem send_lanes : (send s x).lanes = s.lanes := rfl
@[simp] theorem send_groups : (send s x).groups = s.groups := rfl
@[simp] theorem send_lref : (send s x).lref = s.lref := rfl
@[simp] theorem send_models : (send s x).models = s.models := rfl
@[simp] theorem send_txns : (send s x).txns = s.txns := rfl
@[simp] theorem send_ingress : (send s x).ingress = s.ingress := rfl
@[simp] theorem send_toTile : (send s x).toTile = s.toTile := rfl
@[simp] theorem send_notices : (send s x).notices = s.notices := rfl
@[simp] theorem send_tiles : (send s x).tiles = s.tiles := rfl
@[simp] theorem send_links : (send s x).links = s.links := rfl
@[simp] theorem send_gates : (send s x).gates = s.gates := rfl
@[simp] theorem send_gateDone : (send s x).gateDone = s.gateDone := rfl
@[simp] theorem send_accs : (send s x).accs = s.accs := rfl
@[simp] theorem send_lastStats : (send s x).lastStats = s.lastStats := rfl
@[simp] theorem send_statsFrom : (send s x).statsFrom = s.statsFrom := rfl
@[simp] theorem send_defs : (send s x).defs = s.defs := rfl
@[simp] theorem send_coreDefs : (send s x).coreDefs = s.coreDefs := rfl
@[simp] theorem send_conds : (send s x).conds = s.conds := rfl
@[simp] theorem send_decims : (send s x).decims = s.decims := rfl
@[simp] theorem send_tin : (send s x).tin = s.tin := rfl
@[simp] theorem send_segs : (send s x).segs = s.segs := rfl
@[simp] theorem send_pieces : (send s x).pieces = s.pieces := rfl
@[simp] theorem send_hqs : (send s x).hqs = s.hqs := rfl
@[simp] theorem send_hlanes : (send s x).hlanes = s.hlanes := rfl
@[simp] theorem send_cmd : (send s x).cmd = s.cmd := rfl
@[simp] theorem send_flt : (send s x).flt = s.flt := rfl
@[simp] theorem send_pw : (send s x).pw = s.pw := rfl
@[simp] theorem send_jtag : (send s x).jtag = s.jtag := rfl
@[simp] theorem send_grants : (send s x).grants = s.grants := rfl
@[simp] theorem send_freeCount : (send s x).freeCount = s.freeCount := rfl
@[simp] theorem send_word (o e j : Nat) : (send s x).word o e j = s.word o e j := rfl
@[simp] theorem send_get (h : Field) (j : Nat) : (send s x).get h j = s.get h j := rfl
@[simp] theorem send_flag (h : Field) (j : Nat) : (send s x).flag h j = s.flag h j := rfl
@[simp] theorem send_full : (send s x).full = s.full := rfl
@[simp] theorem send_hq (j : Nat) : (send s x).hq j = s.hq j := rfl
@[simp] theorem send_lane (j : Nat) : (send s x).lane j = s.lane j := rfl
@[simp] theorem send_group (j : Nat) : (send s x).group j = s.group j := rfl
@[simp] theorem send_model (j : Nat) : (send s x).model j = s.model j := rfl
@[simp] theorem send_txn (j : Nat) : (send s x).txn j = s.txn j := rfl
@[simp] theorem send_ing (j : Nat) : (send s x).ing j = s.ing j := rfl
@[simp] theorem send_tile (j : Nat) : (send s x).tile j = s.tile j := rfl
@[simp] theorem send_hlane (j : Nat) : (send s x).hlane j = s.hlane j := rfl
@[simp] theorem send_chan (j : Nat) : (send s x).chan j = s.chan j := rfl
@[simp] theorem send_src (j : Nat) : (send s x).src j = s.src j := rfl
@[simp] theorem send_tdef (j k : Nat) : (send s x).tdef j k = s.tdef j k := rfl
end

/-! Reading back. -/

@[simp] theorem State.hq_setHq (s : State) (q : Nat) (x : HQueue) : (s.setHq q x).hq q = x := by simp [State.setHq, State.hq]
theorem State.hq_setHq_ne (s : State) {q j : Nat} (x : HQueue) (h : j ≠ q) : (s.setHq q x).hq j = s.hq j := by
  simp [State.setHq, State.hq, mget_mset_ne _ _ _ h]
@[simp] theorem State.lane_setLane (s : State) (l : Nat) (x : LaneX) : (s.setLane l x).lane l = x := by simp [State.setLane, State.lane]
theorem State.lane_setLane_ne (s : State) {l j : Nat} (x : LaneX) (h : j ≠ l) : (s.setLane l x).lane j = s.lane j := by
  simp [State.setLane, State.lane, mget_mset_ne _ _ _ h]
@[simp] theorem State.group_setGroup (s : State) (g : Nat) (x : GroupX) : (s.setGroup g x).group g = x := by simp [State.setGroup, State.group]
theorem State.group_setGroup_ne (s : State) {g j : Nat} (x : GroupX) (h : j ≠ g) : (s.setGroup g x).group j = s.group j := by
  simp [State.setGroup, State.group, mget_mset_ne _ _ _ h]
@[simp] theorem State.model_setModel (s : State) (l : Nat) (x : Model) : (s.setModel l x).model l = x := by simp [State.setModel, State.model]
theorem State.model_setModel_ne (s : State) {l j : Nat} (x : Model) (h : j ≠ l) : (s.setModel l x).model j = s.model j := by
  simp [State.setModel, State.model, mget_mset_ne _ _ _ h]
@[simp] theorem State.txn_setTxn (s : State) (t : Nat) (x : Txn) : (s.setTxn t x).txn t = x := by simp [State.setTxn, State.txn]
theorem State.txn_setTxn_ne (s : State) {t j : Nat} (x : Txn) (h : j ≠ t) : (s.setTxn t x).txn j = s.txn j := by
  simp [State.setTxn, State.txn, mget_mset_ne _ _ _ h]
@[simp] theorem State.ing_setIng (s : State) (g : Nat) (x : Ingress) : (s.setIng g x).ing g = x := by simp [State.setIng, State.ing]
theorem State.ing_setIng_ne (s : State) {g j : Nat} (x : Ingress) (h : j ≠ g) : (s.setIng g x).ing j = s.ing j := by
  simp [State.setIng, State.ing, mget_mset_ne _ _ _ h]
@[simp] theorem State.tile_setTile (s : State) (t : Nat) (x : Tile) : (s.setTile t x).tile t = x := by simp [State.setTile, State.tile]
theorem State.tile_setTile_ne (s : State) {t j : Nat} (x : Tile) (h : j ≠ t) : (s.setTile t x).tile j = s.tile j := by
  simp [State.setTile, State.tile, mget_mset_ne _ _ _ h]
@[simp] theorem State.hlane_setHlane (s : State) (l : Nat) (x : HLane) : (s.setHlane l x).hlane l = x := by simp [State.setHlane, State.hlane]
theorem State.hlane_setHlane_ne (s : State) {l j : Nat} (x : HLane) (h : j ≠ l) : (s.setHlane l x).hlane j = s.hlane j := by
  simp [State.setHlane, State.hlane, mget_mset_ne _ _ _ h]
@[simp] theorem State.chan_setChan (s : State) (p : Nat) (x : Busy) : (s.setChan p x).chan p = x := by simp [State.setChan, State.chan]
theorem State.chan_setChan_ne (s : State) {p j : Nat} (x : Busy) (h : j ≠ p) : (s.setChan p x).chan j = s.chan j := by
  simp [State.setChan, State.chan, mget_mset_ne _ _ _ h]
@[simp] theorem State.comp_setComp (s : State) (ci : Nat) (x : Comp) : (s.setComp ci x).comp ci = x := by simp [State.setComp, State.comp]
theorem State.comp_setComp_ne (s : State) {ci j : Nat} (x : Comp) (h : j ≠ ci) : (s.setComp ci x).comp j = s.comp j := by
  simp [State.setComp, State.comp, mget_mset_ne _ _ _ h]
@[simp] theorem State.inp_setInp (s : State) (i : Nat) (x : Input) : (s.setInp i x).inp i = x := by simp [State.setInp, State.inp]
theorem State.inp_setInp_ne (s : State) {i j : Nat} (x : Input) (h : j ≠ i) : (s.setInp i x).inp j = s.inp j := by
  simp [State.setInp, State.inp, mget_mset_ne _ _ _ h]
@[simp] theorem State.pgroup_setPgroup (s : State) (g : Nat) (x : PGroup) : (s.setPgroup g x).pgroup g = x := by simp [State.setPgroup, State.pgroup]
theorem State.pgroup_setPgroup_ne (s : State) {g j : Nat} (x : PGroup) (h : j ≠ g) : (s.setPgroup g x).pgroup j = s.pgroup j := by
  simp [State.setPgroup, State.pgroup, mget_mset_ne _ _ _ h]
@[simp] theorem State.interp_setInterp (s : State) (n : Nat) (x : Interp) : (s.setInterp n x).interp n = x := by simp [State.setInterp, State.interp]
theorem State.interp_setInterp_ne (s : State) {n j : Nat} (x : Interp) (h : j ≠ n) : (s.setInterp n x).interp j = s.interp j := by
  simp [State.setInterp, State.interp, mget_mset_ne _ _ _ h]
@[simp] theorem State.condx_setCondx (s : State) (c : Nat) (x : CondX) : (s.setCondx c x).condx c = x := by simp [State.setCondx, State.condx]
theorem State.condx_setCondx_ne (s : State) {c j : Nat} (x : CondX) (h : j ≠ c) : (s.setCondx c x).condx j = s.condx j := by
  simp [State.setCondx, State.condx, mget_mset_ne _ _ _ h]
@[simp] theorem State.src_setSrc (s : State) (n : Nat) (x : SrcX) : (s.setSrc n x).src n = x := by simp [State.setSrc, State.src]
theorem State.src_setSrc_ne (s : State) {n j : Nat} (x : SrcX) (h : j ≠ n) : (s.setSrc n x).src j = s.src j := by
  simp [State.setSrc, State.src, mget_mset_ne _ _ _ h]
@[simp] theorem State.gateList_setGates (s : State) (k : Nat) (x : List Gate) : (s.setGates k x).gateList k = x := by simp [State.setGates, State.gateList]
theorem State.gateList_setGates_ne (s : State) {k j : Nat} (x : List Gate) (h : j ≠ k) : (s.setGates k x).gateList j = s.gateList j := by
  simp [State.setGates, State.gateList, mget_mset_ne _ _ _ h]

end Sys2Proof.Machine
end

