-- ==== Sys2Proof/Laws/Ops.lean ====
section
/-! SUPPORT. What each shared operation can do: device time, records and events, faults on their way, replies, and the checks that a
command passes. -/

namespace Sys2Proof.Machine

/-! ### Register words -/

/-- A word put in force changes nothing else. -/
theorem State.setWord_frame (s : State) (o e i : Nat) (w : Word) : ∃ r, s.setWord o e i w = { s with regs := r } := ⟨_, rfl⟩
/-- A field written changes register words alone. -/
theorem State.put_frame (s : State) (f : Field) (i v : Nat) : ∃ r, s.put f i v = { s with regs := r } := ⟨_, rfl⟩
/-- A count changes register words alone. -/
theorem State.satInc_frame (s : State) (f : Field) (i n : Nat) : ∃ r, s.satInc f i n = { s with regs := r } := ⟨_, rfl⟩
/-- A count changes register words alone. -/
theorem State.wrapInc_frame (s : State) (f : Field) (i n : Nat) : ∃ r, s.wrapInc f i n = { s with regs := r } := ⟨_, rfl⟩

/-! ### Records and events -/

/-- A record for an enabled queue joins what is on its way there. -/
theorem emit_of_enabled (s : State) (q : Nat) (x : Rec) (h : s.queueEn q = true) :
    emit s q x = s.setHq q ((s.hq q).take [x]) := by simp [emit, h]

/-- A record for a disabled queue is counted. -/
theorem emit_of_disabled (s : State) (q : Nat) (x : Rec) (h : s.queueEn q = false) : emit s q x = s.satInc F.qhb_rec_dropped q 1 := by
  simp [emit, h]

/-- A record changes host queues and register words alone. -/
theorem emit_frame (s : State) (q : Nat) (x : Rec) : ∃ r h, emit s q x = { s with regs := r, hqs := h } := by
  unfold emit
  split
  · exact ⟨s.regs, _, rfl⟩
  · obtain ⟨r, e⟩ := s.satInc_frame F.qhb_rec_dropped q 1
    exact ⟨r, s.hqs, e⟩

/-- A record changes no register word but the count of its own queue's dropped records. -/
theorem emit_word (s : State) (q : Nat) (x : Rec) {o e i : Nat} (h : wkey o e i ≠ wkey 5 7 q) : (emit s q x).word o e i = s.word o e i := by
  unfold emit
  split
  · rfl
  · exact s.word_setWord_ne _ h

/-- One record to each of a list of enabled queues changes host queues alone. -/
theorem emitList_frame (x : Rec) : (qs : List Nat) → (s : State) → (∀ q ∈ qs, s.queueEn q = true) →
    ∃ h, qs.foldl (fun s q => emit s q x) s = { s with hqs := h }
  | [], s, _ => ⟨s.hqs, rfl⟩
  | q :: qs, s, hq => by
    have e := emit_of_enabled s q x (hq q (by simp))
    obtain ⟨h, e'⟩ := emitList_frame x qs (s.setHq q ((s.hq q).take [x])) fun p hp => hq p (by simp [hp])
    exact ⟨h, by rw [List.foldl_cons, e, e']; rfl⟩

/-- One record to every enabled queue changes host queues alone. -/
theorem emitAll_frame (s : State) (x : Rec) : ∃ h, emitAll s x = { s with hqs := h } :=
  emitList_frame x s.enabledQueues s fun q hq => by
    have := (List.mem_filter.mp hq).2
    simpa using this

/-- An EPOCH record that waits at each of a list of queues changes host queues alone. -/
theorem epochList_frame (x : Rec) : (qs : List Nat) → (s : State) →
    ∃ h, qs.foldl (fun s q => s.setHq q { (s.hq q).take [] with epochDue := some x }) s = { s with hqs := h }
  | [], s => ⟨s.hqs, rfl⟩
  | q :: qs, s => by
    obtain ⟨h, e⟩ := epochList_frame x qs (s.setHq q { (s.hq q).take [] with epochDue := some x })
    exact ⟨h, by rw [List.foldl_cons, e]; rfl⟩

/-- An EPOCH record that waits at every enabled host queue changes host queues alone. -/
theorem epochAll_frame (s : State) (x : Rec) : ∃ h, epochAll s x = { s with hqs := h } := epochList_frame x s.enabledQueues s

/-- A dated record changes host queues and register words alone. -/
theorem emitFor_frame (s : State) (q full : Nat) (x : Rec) : ∃ r h, emitFor s q full x = { s with regs := r, hqs := h } := by
  unfold emitFor
  split
  · exact ⟨s.regs, _, rfl⟩
  · exact emit_frame s q x

/-- An event changes host queues and register words alone. -/
theorem event_frame (s : State) (p a b c d : Nat) (ws : List Word) : ∃ r h, event s p a b c d ws = { s with regs := r, hqs := h } :=
  emit_frame s _ _

/-- Events to two partitions change host queues and register words alone. -/
theorem eventBoth_frame (s : State) (p a b c d : Nat) (ws : List Word) : ∃ r h, eventBoth s p a b c d ws = { s with regs := r, hqs := h } := by
  obtain ⟨r, h, e⟩ := event_frame s 0 a b c d ws
  unfold eventBoth
  split
  · exact ⟨r, h, e⟩
  · obtain ⟨r', h', e'⟩ := event_frame (event s 0 a b c d ws) p a b c d ws
    refine ⟨r', h', ?_⟩
    rw [e'] 
    rw [e]

/-! ### Device time -/

/-- Two time bases in a row. -/
theorem State.withTb_withTb (s : State) (a b : TimeBase) : ({ ({ s with tb := a } : State) with tb := b } : State) = { s with tb := b } := rfl

/-- Device time put at a full count, with another time base. -/
theorem State.setFull_withTb (s : State) (f : Nat) (b : TimeBase) : ({ s.setFull f with tb := b } : State) = { s with tb := b } :=
  State.withTb_withTb s _ b

/-- Device time put at a full count. -/
theorem State.setFull_tb (s : State) (f : Nat) : (s.setFull f).tb = { s.tb with epoch := BitVec.ofNat 16 (f / 2 ^ 54), coarse := BitVec.ofNat 54 f } := rfl

/-- A tick beside an epoch and a coarse count. -/
theorem TimeBase.withTick (b : TimeBase) (t : Nat) (e : BitVec 16) (c : BitVec 54) :
    ({ ({ b with epoch := e, coarse := c } : TimeBase) with tick := t } : TimeBase) = { b with tick := t, epoch := e, coarse := c } := rfl

/-- The time base after `n` ticks. -/
def laterTb (s : State) (n : Nat) : TimeBase :=
  { s.tb with tick := s.tb.tick + n, epoch := BitVec.ofNat 16 ((s.full + n) / 2 ^ 54), coarse := BitVec.ofNat 54 (s.full + n) }

/-- Device time that advances changes the time base, and where the coarse count wraps sends the EPOCH records. -/
theorem advance_eq (s : State) (n : Nat) : advance s n =
    if s.tb.coarse.toNat + n < 2 ^ 54 then { s with tb := laterTb s n }
    else epochAll { s with tb := laterTb s n } (epochRec false s.tb.epoch.toNat (laterTb s n).epoch.toNat 0 0) := by
  have e : ({ (s.setFull (s.full + n)).tb with tick := s.tb.tick + n } : TimeBase) = laterTb s n := by
    rw [State.setFull_tb]
    exact TimeBase.withTick s.tb _ _ _
  have e' : (s.setFull (s.full + n)).tb.epoch = (laterTb s n).epoch := by rw [State.setFull_tb, laterTb]
  unfold advance
  simp only [State.setFull_withTb, e]
  simp only [e']

/-- Device time that advances changes the time base, and host queues when the epoch moves. -/
theorem advance_frame (s : State) (n : Nat) : ∃ h, advance s n = { s with tb := laterTb s n, hqs := h } := by
  rw [advance_eq]
  generalize laterTb s n = y
  split
  · exact ⟨s.hqs, rfl⟩
  · obtain ⟨h, e⟩ := epochAll_frame { s with tb := y } (epochRec false s.tb.epoch.toNat y.epoch.toNat 0 0)
    exact ⟨h, by rw [e]⟩

/-- The time base after `n` ticks. -/
theorem advance_tb (s : State) (n : Nat) : (advance s n).tb = laterTb s n := by
  obtain ⟨h, e⟩ := advance_frame s n
  rw [e]

/-- The device time after `n` ticks. -/
theorem advance_full (s : State) (n : Nat) : (advance s n).full = (s.full + n) % 2 ^ 70 := by
  simp only [State.full, advance_tb, laterTb]
  simp only [BitVec.toNat_ofNat]
  omega

/-- Going to a tick changes the time base, and host queues when the epoch moves. -/
theorem advanceTo_frame (s : State) (n : Nat) : ∃ t h, advanceTo s n = { s with tb := t, hqs := h } := by
  unfold advanceTo
  split
  · exact ⟨s.tb, s.hqs, rfl⟩
  · exact ⟨_, advance_frame s _⟩

/-- The tick gone to, unless it has passed. -/
theorem advanceTo_tick (s : State) (n : Nat) : (advanceTo s n).tb.tick = max s.tb.tick n := by
  unfold advanceTo
  split
  · omega
  · rw [advance_tb, laterTb]
    simp only
    omega

/-- Going to a full count changes the time base, and host queues when the epoch moves. -/
theorem advanceFull_frame (s : State) (n : Nat) : ∃ t h, advanceFull s n = { s with tb := t, hqs := h } := by
  unfold advanceFull
  split
  · exact ⟨s.tb, s.hqs, rfl⟩
  · exact ⟨_, advance_frame s _⟩

/-- A device time is below the end of the last epoch. -/
theorem State.full_lt (s : State) : s.full < 2 ^ 70 := by
  have h1 := s.tb.epoch.isLt
  have h2 := s.tb.coarse.isLt
  unfold State.full
  omega

/-- The full count gone to, unless it has passed. -/
theorem advanceFull_full (s : State) {n : Nat} (h : n < 2 ^ 70) : (advanceFull s n).full = max s.full n := by
  unfold advanceFull
  split
  · omega
  · rw [advance_full]
    omega

/-! ### Faults on their way, and replies -/

/-- A fault sent to the collector joins what is on its way there, or is nothing where its element is off. -/
theorem raise_eq (s : State) (n cause sub : Nat) (inj : Bool) : raise s n cause sub inj =
    { s with flt := { s.flt with inflight := if s.srcOff n = true then s.flt.inflight else s.flt.inflight ++ [{ source := n, cause := cause, sub := sub, injected := inj }] } } := by
  unfold raise
  split <;> rfl

/-- A fault sent to the collector changes the collector alone. -/
theorem raise_frame (s : State) (n cause sub : Nat) (inj : Bool) : ∃ f, raise s n cause sub inj = { s with flt := f } := ⟨_, raise_eq s n cause sub inj⟩

/-- A check of a word changes no more than the counts of Awl. -/
theorem awlTake_frame (s : State) (n : Nat) : ∃ f, (awlTake s n).1 = { s with flt := f } := by
  unfold awlTake
  split
  · exact ⟨s.flt, rfl⟩
  · exact ⟨_, rfl⟩

/-- A checker with no count of Awl pending finds what is there. -/
theorem awlTake_none {s : State} {n : Nat} (h : mget 0 s.flt.awl n = 0) : awlTake s n = (s, false) := by simp [awlTake, h]

/-- A channel that becomes free changes the engines alone. -/
theorem freeChan_frame (s : State) (p : Nat) : ∃ m, freeChan s p = { s with cmd := m } := by
  unfold freeChan
  dsimp only
  split <;> exact ⟨_, rfl⟩

/-- A reply changes the channels, the ports, and the replies of host lanes alone. -/
theorem sendReply_frame (s : State) (c : Cmd) (op stat d : Nat) (ws : List Word) (b : Bool) :
    ∃ m h, sendReply s c op stat d ws b = { s with cmd := m, hlanes := h } := by
  unfold sendReply
  dsimp only
  split
  · exact ⟨_, s.hlanes, rfl⟩
  · split
    · exact ⟨s.cmd, _, rfl⟩
    · split
      · obtain ⟨m, e⟩ := freeChan_frame s c.part
        exact ⟨m, s.hlanes, e⟩
      · exact ⟨s.cmd, s.hlanes, rfl⟩

/-- The end of a command changes the channels, the ports, and the replies of host lanes alone. -/
theorem finish_frame (s : State) (c : Cmd) (op stat d : Nat) (ws : List Word) : ∃ m h, finish s c op stat d ws = { s with cmd := m, hlanes := h } := by
  unfold finish
  dsimp only
  obtain ⟨m, h, e⟩ := sendReply_frame (s.setChan c.part { op := op, since := if (s.chan c.part).op = 0xFF then s.tb.tick else (s.chan c.part).since }) c op stat d ws true
  exact ⟨m, h, by rw [e]; rfl⟩

/-- The words of a reply that fits one packet. -/
theorem replyPackets_short (op p tag st d : Nat) {ws : List Word} (h : ws.length ≤ 255) :
    replyPackets (ws.length + 1) op p tag st d ws = [replyHeader op p tag ws.length st 0 d :: ws] := by
  simp [replyPackets, h]

/-! ### The checks of a command -/

/-- A command that passes rows 3 to 6 of R377 is settled as its body answers, at the device time of its arrival. -/
theorem runCmd_eq (op : Nat) (c : Cmd) (body : State → Result) (s : State) (h1 : canArrive s c = true) (h2 : isBound (advanceTo s c.tick) c = true)
    (h3 : (advanceTo s c.tick).chanBusy c.part = false) (h4 : ((advanceTo s c.tick).phase = 7 && !recoveryOpcode op) = false)
    (h5 : (c.part = 0 || (advanceTo s c.tick).flag F.part0_claimed c.part || openOpcode op) = true)
    (h6 : mget 0 (advanceTo s c.tick).flt.awl (dieSource 15 7) = 0) :
    runCmd op c body s = settle (advanceTo s c.tick) c op (body (advanceTo s c.tick)) := by
  unfold runCmd
  simp only [h1, h2, h3, h4, h5, awlTake_none h6, Bool.not_true, Bool.false_eq_true, if_false]

/-- A command that the engines cannot take changes nothing. -/
theorem runCmd_idle (op : Nat) (c : Cmd) (body : State → Result) (s : State) (h : canArrive s c = false) : runCmd op c body s = s := by
  simp [runCmd, h]

/-- The first stages of R508 with the right header and number of words. -/
theorem checked_eq (c : Cmd) (sys : Bool) (n : Nat) (k : Result) (h1 : (sys && c.part ≠ 0) = false) (h2 : c.resv = 0) (h3 : c.params.length = n) :
    checked c sys n k = k := by
  simp only [checked, h1, h2, h3]
  simp

/-- A check that does not refuse. -/
theorem refuseIf_false {b : Bool} (st d : Nat) (k : Result) (h : b = false) : refuseIf b st d k = k := by simp [refuseIf, h]
/-- A check that refuses. -/
theorem refuseIf_true {b : Bool} (st d : Nat) (k : Result) (h : b = true) : refuseIf b st d k = .fail st d [] := by simp [refuseIf, h]

end Sys2Proof.Machine
end

