-- ==== Sys2Proof/Laws/Frames.lean ====
section
/-! SUPPORT. What the shared operations leave alone, field by field and accessor by accessor. -/

namespace Sys2Proof.Machine

/-! `advanceTo` -/

section
variable (s : State) (n : Nat)
@[simp] theorem advanceTo_pending : (advanceTo s n).pending = s.pending := by obtain ⟨_, _, e⟩ := advanceTo_frame s n; rw [e]
@[simp] theorem advanceTo_regs : (advanceTo s n).regs = s.regs := by obtain ⟨_, _, e⟩ := advanceTo_frame s n; rw [e]
@[simp] theorem advanceTo_rf : (advanceTo s n).rf = s.rf := by obtain ⟨_, _, e⟩ := advanceTo_frame s n; rw [e]
@[simp] theorem advanceTo_comps : (advanceTo s n).comps = s.comps := by obtain ⟨_, _, e⟩ := advanceTo_frame s n; rw [e]
@[simp] theorem advanceTo_inputs : (advanceTo s n).inputs = s.inputs := by obtain ⟨_, _, e⟩ := advanceTo_frame s n; rw [e]
@[simp] theorem advanceTo_pgroups : (advanceTo s n).pgroups = s.pgroups := by obtain ⟨_, _, e⟩ := advanceTo_frame s n; rw [e]
@[simp] theorem advanceTo_ivals : (advanceTo s n).ivals = s.ivals := by obtain ⟨_, _, e⟩ := advanceTo_frame s n; rw [e]
@[simp] theorem advanceTo_anchorQ : (advanceTo s n).anchorQ = s.anchorQ := by obtain ⟨_, _, e⟩ := advanceTo_frame s n; rw [e]
@[simp] theorem advanceTo_interps : (advanceTo s n).interps = s.interps := by obtain ⟨_, _, e⟩ := advanceTo_frame s n; rw [e]
@[simp] theorem advanceTo_calOps : (advanceTo s n).calOps = s.calOps := by obtain ⟨_, _, e⟩ := advanceTo_frame s n; rw [e]
@[simp] theorem advanceTo_lanes : (advanceTo s n).lanes = s.lanes := by obtain ⟨_, _, e⟩ := advanceTo_frame s n; rw [e]
@[simp] theorem advanceTo_groups : (advanceTo s n).groups = s.groups := by obtain ⟨_, _, e⟩ := advanceTo_frame s n; rw [e]
@[simp] theorem advanceTo_lref : (advanceTo s n).lref = s.lref := by obtain ⟨_, _, e⟩ := advanceTo_frame s n; rw [e]
@[simp] theorem advanceTo_models : (advanceTo s n).models = s.models := by obtain ⟨_, _, e⟩ := advanceTo_frame s n; rw [e]
@[simp] theorem advanceTo_txns : (advanceTo s n).txns = s.txns := by obtain ⟨_, _, e⟩ := advanceTo_frame s n; rw [e]
@[simp] theorem advanceTo_ingress : (advanceTo s n).ingress = s.ingress := by obtain ⟨_, _, e⟩ := advanceTo_frame s n; rw [e]
@[simp] theorem advanceTo_toTile : (advanceTo s n).toTile = s.toTile := by obtain ⟨_, _, e⟩ := advanceTo_frame s n; rw [e]
@[simp] theorem advanceTo_notices : (advanceTo s n).notices = s.notices := by obtain ⟨_, _, e⟩ := advanceTo_frame s n; rw [e]
@[simp] theorem advanceTo_tiles : (advanceTo s n).tiles = s.tiles := by obtain ⟨_, _, e⟩ := advanceTo_frame s n; rw [e]
@[simp] theorem advanceTo_links : (advanceTo s n).links = s.links := by obtain ⟨_, _, e⟩ := advanceTo_frame s n; rw [e]
@[simp] theorem advanceTo_gates : (advanceTo s n).gates = s.gates := by obtain ⟨_, _, e⟩ := advanceTo_frame s n; rw [e]
@[simp] theorem advanceTo_gateDone : (advanceTo s n).gateDone = s.gateDone := by obtain ⟨_, _, e⟩ := advanceTo_frame s n; rw [e]
@[simp] theorem advanceTo_accs : (advanceTo s n).accs = s.accs := by obtain ⟨_, _, e⟩ := advanceTo_frame s n; rw [e]
@[simp] theorem advanceTo_lastStats : (advanceTo s n).lastStats = s.lastStats := by obtain ⟨_, _, e⟩ := advanceTo_frame s n; rw [e]
@[simp] theorem advanceTo_statsFrom : (advanceTo s n).statsFrom = s.statsFrom := by obtain ⟨_, _, e⟩ := advanceTo_frame s n; rw [e]
@[simp] theorem advanceTo_defs : (advanceTo s n).defs = s.defs := by obtain ⟨_, _, e⟩ := advanceTo_frame s n; rw [e]
@[simp] theorem advanceTo_coreDefs : (advanceTo s n).coreDefs = s.coreDefs := by obtain ⟨_, _, e⟩ := advanceTo_frame s n; rw [e]
@[simp] theorem advanceTo_conds : (advanceTo s n).conds = s.conds := by obtain ⟨_, _, e⟩ := advanceTo_frame s n; rw [e]
@[simp] theorem advanceTo_decims : (advanceTo s n).decims = s.decims := by obtain ⟨_, _, e⟩ := advanceTo_frame s n; rw [e]
@[simp] theorem advanceTo_tin : (advanceTo s n).tin = s.tin := by obtain ⟨_, _, e⟩ := advanceTo_frame s n; rw [e]
@[simp] theorem advanceTo_segs : (advanceTo s n).segs = s.segs := by obtain ⟨_, _, e⟩ := advanceTo_frame s n; rw [e]
@[simp] theorem advanceTo_pieces : (advanceTo s n).pieces = s.pieces := by obtain ⟨_, _, e⟩ := advanceTo_frame s n; rw [e]
@[simp] theorem advanceTo_hlanes : (advanceTo s n).hlanes = s.hlanes := by obtain ⟨_, _, e⟩ := advanceTo_frame s n; rw [e]
@[simp] theorem advanceTo_cmd : (advanceTo s n).cmd = s.cmd := by obtain ⟨_, _, e⟩ := advanceTo_frame s n; rw [e]
@[simp] theorem advanceTo_flt : (advanceTo s n).flt = s.flt := by obtain ⟨_, _, e⟩ := advanceTo_frame s n; rw [e]
@[simp] theorem advanceTo_pw : (advanceTo s n).pw = s.pw := by obtain ⟨_, _, e⟩ := advanceTo_frame s n; rw [e]
@[simp] theorem advanceTo_jtag : (advanceTo s n).jtag = s.jtag := by obtain ⟨_, _, e⟩ := advanceTo_frame s n; rw [e]
@[simp] theorem advanceTo_grants : (advanceTo s n).grants = s.grants := by obtain ⟨_, _, e⟩ := advanceTo_frame s n; rw [e]
@[simp] theorem advanceTo_out : (advanceTo s n).out = s.out := by obtain ⟨_, _, e⟩ := advanceTo_frame s n; rw [e]
@[simp] theorem advanceTo_freeCount : (advanceTo s n).freeCount = s.freeCount := by obtain ⟨_, _, e⟩ := advanceTo_frame s n; rw [e]
@[simp] theorem advanceTo_word (o e j : Nat) : (advanceTo s n).word o e j = s.word o e j := by obtain ⟨_, _, e⟩ := advanceTo_frame s n; rw [e]; rfl
@[simp] theorem advanceTo_get (h : Field) (j : Nat) : (advanceTo s n).get h j = s.get h j := by obtain ⟨_, _, e⟩ := advanceTo_frame s n; rw [e]; rfl
@[simp] theorem advanceTo_flag (h : Field) (j : Nat) : (advanceTo s n).flag h j = s.flag h j := by obtain ⟨_, _, e⟩ := advanceTo_frame s n; rw [e]; rfl
@[simp] theorem advanceTo_lane (j : Nat) : (advanceTo s n).lane j = s.lane j := by obtain ⟨_, _, e⟩ := advanceTo_frame s n; rw [e]; rfl
@[simp] theorem advanceTo_group (j : Nat) : (advanceTo s n).group j = s.group j := by obtain ⟨_, _, e⟩ := advanceTo_frame s n; rw [e]; rfl
@[simp] theorem advanceTo_model (j : Nat) : (advanceTo s n).model j = s.model j := by obtain ⟨_, _, e⟩ := advanceTo_frame s n; rw [e]; rfl
@[simp] theorem advanceTo_txn (j : Nat) : (advanceTo s n).txn j = s.txn j := by obtain ⟨_, _, e⟩ := advanceTo_frame s n; rw [e]; rfl
@[simp] theorem advanceTo_ing (j : Nat) : (advanceTo s n).ing j = s.ing j := by obtain ⟨_, _, e⟩ := advanceTo_frame s n; rw [e]; rfl
@[simp] theorem advanceTo_tile (j : Nat) : (advanceTo s n).tile j = s.tile j := by obtain ⟨_, _, e⟩ := advanceTo_frame s n; rw [e]; rfl
@[simp] theorem advanceTo_hlane (j : Nat) : (advanceTo s n).hlane j = s.hlane j := by obtain ⟨_, _, e⟩ := advanceTo_frame s n; rw [e]; rfl
@[simp] theorem advanceTo_chan (j : Nat) : (advanceTo s n).chan j = s.chan j := by obtain ⟨_, _, e⟩ := advanceTo_frame s n; rw [e]; rfl
@[simp] theorem advanceTo_src (j : Nat) : (advanceTo s n).src j = s.src j := by obtain ⟨_, _, e⟩ := advanceTo_frame s n; rw [e]; rfl
@[simp] theorem advanceTo_tdef (j k : Nat) : (advanceTo s n).tdef j k = s.tdef j k := by obtain ⟨_, _, e⟩ := advanceTo_frame s n; rw [e]; rfl
end

/-! `advanceFull` -/

section
variable (s : State) (n : Nat)
@[simp] theorem advanceFull_pending : (advanceFull s n).pending = s.pending := by obtain ⟨_, _, e⟩ := advanceFull_frame s n; rw [e]
@[simp] theorem advanceFull_regs : (advanceFull s n).regs = s.regs := by obtain ⟨_, _, e⟩ := advanceFull_frame s n; rw [e]
@[simp] theorem advanceFull_rf : (advanceFull s n).rf = s.rf := by obtain ⟨_, _, e⟩ := advanceFull_frame s n; rw [e]
@[simp] theorem advanceFull_comps : (advanceFull s n).comps = s.comps := by obtain ⟨_, _, e⟩ := advanceFull_frame s n; rw [e]
@[simp] theorem advanceFull_inputs : (advanceFull s n).inputs = s.inputs := by obtain ⟨_, _, e⟩ := advanceFull_frame s n; rw [e]
@[simp] theorem advanceFull_pgroups : (advanceFull s n).pgroups = s.pgroups := by obtain ⟨_, _, e⟩ := advanceFull_frame s n; rw [e]
@[simp] theorem advanceFull_ivals : (advanceFull s n).ivals = s.ivals := by obtain ⟨_, _, e⟩ := advanceFull_frame s n; rw [e]
@[simp] theorem advanceFull_anchorQ : (advanceFull s n).anchorQ = s.anchorQ := by obtain ⟨_, _, e⟩ := advanceFull_frame s n; rw [e]
@[simp] theorem advanceFull_interps : (advanceFull s n).interps = s.interps := by obtain ⟨_, _, e⟩ := advanceFull_frame s n; rw [e]
@[simp] theorem advanceFull_calOps : (advanceFull s n).calOps = s.calOps := by obtain ⟨_, _, e⟩ := advanceFull_frame s n; rw [e]
@[simp] theorem advanceFull_lanes : (advanceFull s n).lanes = s.lanes := by obtain ⟨_, _, e⟩ := advanceFull_frame s n; rw [e]
@[simp] theorem advanceFull_groups : (advanceFull s n).groups = s.groups := by obtain ⟨_, _, e⟩ := advanceFull_frame s n; rw [e]
@[simp] theorem advanceFull_lref : (advanceFull s n).lref = s.lref := by obtain ⟨_, _, e⟩ := advanceFull_frame s n; rw [e]
@[simp] theorem advanceFull_models : (advanceFull s n).models = s.models := by obtain ⟨_, _, e⟩ := advanceFull_frame s n; rw [e]
@[simp] theorem advanceFull_txns : (advanceFull s n).txns = s.txns := by obtain ⟨_, _, e⟩ := advanceFull_frame s n; rw [e]
@[simp] theorem advanceFull_ingress : (advanceFull s n).ingress = s.ingress := by obtain ⟨_, _, e⟩ := advanceFull_frame s n; rw [e]
@[simp] theorem advanceFull_toTile : (advanceFull s n).toTile = s.toTile := by obtain ⟨_, _, e⟩ := advanceFull_frame s n; rw [e]
@[simp] theorem advanceFull_notices : (advanceFull s n).notices = s.notices := by obtain ⟨_, _, e⟩ := advanceFull_frame s n; rw [e]
@[simp] theorem advanceFull_tiles : (advanceFull s n).tiles = s.tiles := by obtain ⟨_, _, e⟩ := advanceFull_frame s n; rw [e]
@[simp] theorem advanceFull_links : (advanceFull s n).links = s.links := by obtain ⟨_, _, e⟩ := advanceFull_frame s n; rw [e]
@[simp] theorem advanceFull_gates : (advanceFull s n).gates = s.gates := by obtain ⟨_, _, e⟩ := advanceFull_frame s n; rw [e]
@[simp] theorem advanceFull_gateDone : (advanceFull s n).gateDone = s.gateDone := by obtain ⟨_, _, e⟩ := advanceFull_frame s n; rw [e]
@[simp] theorem advanceFull_accs : (advanceFull s n).accs = s.accs := by obtain ⟨_, _, e⟩ := advanceFull_frame s n; rw [e]
@[simp] theorem advanceFull_lastStats : (advanceFull s n).lastStats = s.lastStats := by obtain ⟨_, _, e⟩ := advanceFull_frame s n; rw [e]
@[simp] theorem advanceFull_statsFrom : (advanceFull s n).statsFrom = s.statsFrom := by obtain ⟨_, _, e⟩ := advanceFull_frame s n; rw [e]
@[simp] theorem advanceFull_defs : (advanceFull s n).defs = s.defs := by obtain ⟨_, _, e⟩ := advanceFull_frame s n; rw [e]
@[simp] theorem advanceFull_coreDefs : (advanceFull s n).coreDefs = s.coreDefs := by obtain ⟨_, _, e⟩ := advanceFull_frame s n; rw [e]
@[simp] theorem advanceFull_conds : (advanceFull s n).conds = s.conds := by obtain ⟨_, _, e⟩ := advanceFull_frame s n; rw [e]
@[simp] theorem advanceFull_decims : (advanceFull s n).decims = s.decims := by obtain ⟨_, _, e⟩ := advanceFull_frame s n; rw [e]
@[simp] theorem advanceFull_tin : (advanceFull s n).tin = s.tin := by obtain ⟨_, _, e⟩ := advanceFull_frame s n; rw [e]
@[simp] theorem advanceFull_segs : (advanceFull s n).segs = s.segs := by obtain ⟨_, _, e⟩ := advanceFull_frame s n; rw [e]
@[simp] theorem advanceFull_pieces : (advanceFull s n).pieces = s.pieces := by obtain ⟨_, _, e⟩ := advanceFull_frame s n; rw [e]
@[simp] theorem advanceFull_hlanes : (advanceFull s n).hlanes = s.hlanes := by obtain ⟨_, _, e⟩ := advanceFull_frame s n; rw [e]
@[simp] theorem advanceFull_cmd : (advanceFull s n).cmd = s.cmd := by obtain ⟨_, _, e⟩ := advanceFull_frame s n; rw [e]
@[simp] theorem advanceFull_flt : (advanceFull s n).flt = s.flt := by obtain ⟨_, _, e⟩ := advanceFull_frame s n; rw [e]
@[simp] theorem advanceFull_pw : (advanceFull s n).pw = s.pw := by obtain ⟨_, _, e⟩ := advanceFull_frame s n; rw [e]
@[simp] theorem advanceFull_jtag : (advanceFull s n).jtag = s.jtag := by obtain ⟨_, _, e⟩ := advanceFull_frame s n; rw [e]
@[simp] theorem advanceFull_grants : (advanceFull s n).grants = s.grants := by obtain ⟨_, _, e⟩ := advanceFull_frame s n; rw [e]
@[simp] theorem advanceFull_out : (advanceFull s n).out = s.out := by obtain ⟨_, _, e⟩ := advanceFull_frame s n; rw [e]
@[simp] theorem advanceFull_freeCount : (advanceFull s n).freeCount = s.freeCount := by obtain ⟨_, _, e⟩ := advanceFull_frame s n; rw [e]
@[simp] theorem advanceFull_word (o e j : Nat) : (advanceFull s n).word o e j = s.word o e j := by obtain ⟨_, _, e⟩ := advanceFull_frame s n; rw [e]; rfl
@[simp] theorem advanceFull_get (h : Field) (j : Nat) : (advanceFull s n).get h j = s.get h j := by obtain ⟨_, _, e⟩ := advanceFull_frame s n; rw [e]; rfl
@[simp] theorem advanceFull_flag (h : Field) (j : Nat) : (advanceFull s n).flag h j = s.flag h j := by obtain ⟨_, _, e⟩ := advanceFull_frame s n; rw [e]; rfl
@[simp] theorem advanceFull_lane (j : Nat) : (advanceFull s n).lane j = s.lane j := by obtain ⟨_, _, e⟩ := advanceFull_frame s n; rw [e]; rfl
@[simp] theorem advanceFull_group (j : Nat) : (advanceFull s n).group j = s.group j := by obtain ⟨_, _, e⟩ := advanceFull_frame s n; rw [e]; rfl
@[simp] theorem advanceFull_model (j : Nat) : (advanceFull s n).model j = s.model j := by obtain ⟨_, _, e⟩ := advanceFull_frame s n; rw [e]; rfl
@[simp] theorem advanceFull_txn (j : Nat) : (advanceFull s n).txn j = s.txn j := by obtain ⟨_, _, e⟩ := advanceFull_frame s n; rw [e]; rfl
@[simp] theorem advanceFull_ing (j : Nat) : (advanceFull s n).ing j = s.ing j := by obtain ⟨_, _, e⟩ := advanceFull_frame s n; rw [e]; rfl
@[simp] theorem advanceFull_tile (j : Nat) : (advanceFull s n).tile j = s.tile j := by obtain ⟨_, _, e⟩ := advanceFull_frame s n; rw [e]; rfl
@[simp] theorem advanceFull_hlane (j : Nat) : (advanceFull s n).hlane j = s.hlane j := by obtain ⟨_, _, e⟩ := advanceFull_frame s n; rw [e]; rfl
@[simp] theorem advanceFull_chan (j : Nat) : (advanceFull s n).chan j = s.chan j := by obtain ⟨_, _, e⟩ := advanceFull_frame s n; rw [e]; rfl
@[simp] theorem advanceFull_src (j : Nat) : (advanceFull s n).src j = s.src j := by obtain ⟨_, _, e⟩ := advanceFull_frame s n; rw [e]; rfl
@[simp] theorem advanceFull_tdef (j k : Nat) : (advanceFull s n).tdef j k = s.tdef j k := by obtain ⟨_, _, e⟩ := advanceFull_frame s n; rw [e]; rfl
end

/-! `raise` -/

section
variable (s : State) (n c k : Nat) (b : Bool)
@[simp] theorem raise_pending : (raise s n c k b).pending = s.pending := by obtain ⟨_, e⟩ := raise_frame s n c k b; rw [e]
@[simp] theorem raise_regs : (raise s n c k b).regs = s.regs := by obtain ⟨_, e⟩ := raise_frame s n c k b; rw [e]
@[simp] theorem raise_tb : (raise s n c k b).tb = s.tb := by obtain ⟨_, e⟩ := raise_frame s n c k b; rw [e]
@[simp] theorem raise_rf : (raise s n c k b).rf = s.rf := by obtain ⟨_, e⟩ := raise_frame s n c k b; rw [e]
@[simp] theorem raise_comps : (raise s n c k b).comps = s.comps := by obtain ⟨_, e⟩ := raise_frame s n c k b; rw [e]
@[simp] theorem raise_inputs : (raise s n c k b).inputs = s.inputs := by obtain ⟨_, e⟩ := raise_frame s n c k b; rw [e]
@[simp] theorem raise_pgroups : (raise s n c k b).pgroups = s.pgroups := by obtain ⟨_, e⟩ := raise_frame s n c k b; rw [e]
@[simp] theorem raise_ivals : (raise s n c k b).ivals = s.ivals := by obtain ⟨_, e⟩ := raise_frame s n c k b; rw [e]
@[simp] theorem raise_anchorQ : (raise s n c k b).anchorQ = s.anchorQ := by obtain ⟨_, e⟩ := raise_frame s n c k b; rw [e]
@[simp] theorem raise_interps : (raise s n c k b).interps = s.interps := by obtain ⟨_, e⟩ := raise_frame s n c k b; rw [e]
@[simp] theorem raise_calOps : (raise s n c k b).calOps = s.calOps := by obtain ⟨_, e⟩ := raise_frame s n c k b; rw [e]
@[simp] theorem raise_lanes : (raise s n c k b).lanes = s.lanes := by obtain ⟨_, e⟩ := raise_frame s n c k b; rw [e]
@[simp] theorem raise_groups : (raise s n c k b).groups = s.groups := by obtain ⟨_, e⟩ := raise_frame s n c k b; rw [e]
@[simp] theorem raise_lref : (raise s n c k b).lref = s.lref := by obtain ⟨_, e⟩ := raise_frame s n c k b; rw [e]
@[simp] theorem raise_models : (raise s n c k b).models = s.models := by obtain ⟨_, e⟩ := raise_frame s n c k b; rw [e]
@[simp] theorem raise_txns : (raise s n c k b).txns = s.txns := by obtain ⟨_, e⟩ := raise_frame s n c k b; rw [e]
@[simp] theorem raise_ingress : (raise s n c k b).ingress = s.ingress := by obtain ⟨_, e⟩ := raise_frame s n c k b; rw [e]
@[simp] theorem raise_toTile : (raise s n c k b).toTile = s.toTile := by obtain ⟨_, e⟩ := raise_frame s n c k b; rw [e]
@[simp] theorem raise_notices : (raise s n c k b).notices = s.notices := by obtain ⟨_, e⟩ := raise_frame s n c k b; rw [e]
@[simp] theorem raise_tiles : (raise s n c k b).tiles = s.tiles := by obtain ⟨_, e⟩ := raise_frame s n c k b; rw [e]
@[simp] theorem raise_links : (raise s n c k b).links = s.links := by obtain ⟨_, e⟩ := raise_frame s n c k b; rw [e]
@[simp] theorem raise_gates : (raise s n c k b).gates = s.gates := by obtain ⟨_, e⟩ := raise_frame s n c k b; rw [e]
@[simp] theorem raise_gateDone : (raise s n c k b).gateDone = s.gateDone := by obtain ⟨_, e⟩ := raise_frame s n c k b; rw [e]
@[simp] theorem raise_accs : (raise s n c k b).accs = s.accs := by obtain ⟨_, e⟩ := raise_frame s n c k b; rw [e]
@[simp] theorem raise_lastStats : (raise s n c k b).lastStats = s.lastStats := by obtain ⟨_, e⟩ := raise_frame s n c k b; rw [e]
@[simp] theorem raise_statsFrom : (raise s n c k b).statsFrom = s.statsFrom := by obtain ⟨_, e⟩ := raise_frame s n c k b; rw [e]
@[simp] theorem raise_defs : (raise s n c k b).defs = s.defs := by obtain ⟨_, e⟩ := raise_frame s n c k b; rw [e]
@[simp] theorem raise_coreDefs : (raise s n c k b).coreDefs = s.coreDefs := by obtain ⟨_, e⟩ := raise_frame s n c k b; rw [e]
@[simp] theorem raise_conds : (raise s n c k b).conds = s.conds := by obtain ⟨_, e⟩ := raise_frame s n c k b; rw [e]
@[simp] theorem raise_decims : (raise s n c k b).decims = s.decims := by obtain ⟨_, e⟩ := raise_frame s n c k b; rw [e]
@[simp] theorem raise_tin : (raise s n c k b).tin = s.tin := by obtain ⟨_, e⟩ := raise_frame s n c k b; rw [e]
@[simp] theorem raise_segs : (raise s n c k b).segs = s.segs := by obtain ⟨_, e⟩ := raise_frame s n c k b; rw [e]
@[simp] theorem raise_pieces : (raise s n c k b).pieces = s.pieces := by obtain ⟨_, e⟩ := raise_frame s n c k b; rw [e]
@[simp] theorem raise_hqs : (raise s n c k b).hqs = s.hqs := by obtain ⟨_, e⟩ := raise_frame s n c k b; rw [e]
@[simp] theorem raise_hlanes : (raise s n c k b).hlanes = s.hlanes := by obtain ⟨_, e⟩ := raise_frame s n c k b; rw [e]
@[simp] theorem raise_cmd : (raise s n c k b).cmd = s.cmd := by obtain ⟨_, e⟩ := raise_frame s n c k b; rw [e]
@[simp] theorem raise_pw : (raise s n c k b).pw = s.pw := by obtain ⟨_, e⟩ := raise_frame s n c k b; rw [e]
@[simp] theorem raise_jtag : (raise s n c k b).jtag = s.jtag := by obtain ⟨_, e⟩ := raise_frame s n c k b; rw [e]
@[simp] theorem raise_grants : (raise s n c k b).grants = s.grants := by obtain ⟨_, e⟩ := raise_frame s n c k b; rw [e]
@[simp] theorem raise_out : (raise s n c k b).out = s.out := by obtain ⟨_, e⟩ := raise_frame s n c k b; rw [e]
@[simp] theorem raise_freeCount : (raise s n c k b).freeCount = s.freeCount := by obtain ⟨_, e⟩ := raise_frame s n c k b; rw [e]
@[simp] theorem raise_word (o e j : Nat) : (raise s n c k b).word o e j = s.word o e j := by obtain ⟨_, e⟩ := raise_frame s n c k b; rw [e]; rfl
@[simp] theorem raise_get (h : Field) (j : Nat) : (raise s n c k b).get h j = s.get h j := by obtain ⟨_, e⟩ := raise_frame s n c k b; rw [e]; rfl
@[simp] theorem raise_flag (h : Field) (j : Nat) : (raise s n c k b).flag h j = s.flag h j := by obtain ⟨_, e⟩ := raise_frame s n c k b; rw [e]; rfl
@[simp] theorem raise_full : (raise s n c k b).full = s.full := by obtain ⟨_, e⟩ := raise_frame s n c k b; rw [e]; rfl
@[simp] theorem raise_hq (j : Nat) : (raise s n c k b).hq j = s.hq j := by obtain ⟨_, e⟩ := raise_frame s n c k b; rw [e]; rfl
@[simp] theorem raise_lane (j : Nat) : (raise s n c k b).lane j = s.lane j := by obtain ⟨_, e⟩ := raise_frame s n c k b; rw [e]; rfl
@[simp] theorem raise_group (j : Nat) : (raise s n c k b).group j = s.group j := by obtain ⟨_, e⟩ := raise_frame s n c k b; rw [e]; rfl
@[simp] theorem raise_model (j : Nat) : (raise s n c k b).model j = s.model j := by obtain ⟨_, e⟩ := raise_frame s n c k b; rw [e]; rfl
@[simp] theorem raise_txn (j : Nat) : (raise s n c k b).txn j = s.txn j := by obtain ⟨_, e⟩ := raise_frame s n c k b; rw [e]; rfl
@[simp] theorem raise_ing (j : Nat) : (raise s n c k b).ing j = s.ing j := by obtain ⟨_, e⟩ := raise_frame s n c k b; rw [e]; rfl
@[simp] theorem raise_tile (j : Nat) : (raise s n c k b).tile j = s.tile j := by obtain ⟨_, e⟩ := raise_frame s n c k b; rw [e]; rfl
@[simp] theorem raise_hlane (j : Nat) : (raise s n c k b).hlane j = s.hlane j := by obtain ⟨_, e⟩ := raise_frame s n c k b; rw [e]; rfl
@[simp] theorem raise_chan (j : Nat) : (raise s n c k b).chan j = s.chan j := by obtain ⟨_, e⟩ := raise_frame s n c k b; rw [e]; rfl
@[simp] theorem raise_tdef (j k : Nat) : (raise s n c k b).tdef j k = s.tdef j k := by obtain ⟨_, e⟩ := raise_frame s n c k b; rw [e]; rfl
end

/-! `emit` -/

section
variable (s : State) (q : Nat) (x : Rec)
@[simp] theorem emit_pending : (emit s q x).pending = s.pending := by obtain ⟨_, _, e⟩ := emit_frame s q x; rw [e]
@[simp] theorem emit_tb : (emit s q x).tb = s.tb := by obtain ⟨_, _, e⟩ := emit_frame s q x; rw [e]
@[simp] theorem emit_rf : (emit s q x).rf = s.rf := by obtain ⟨_, _, e⟩ := emit_frame s q x; rw [e]
@[simp] theorem emit_comps : (emit s q x).comps = s.comps := by obtain ⟨_, _, e⟩ := emit_frame s q x; rw [e]
@[simp] theorem emit_inputs : (emit s q x).inputs = s.inputs := by obtain ⟨_, _, e⟩ := emit_frame s q x; rw [e]
@[simp] theorem emit_pgroups : (emit s q x).pgroups = s.pgroups := by obtain ⟨_, _, e⟩ := emit_frame s q x; rw [e]
@[simp] theorem emit_ivals : (emit s q x).ivals = s.ivals := by obtain ⟨_, _, e⟩ := emit_frame s q x; rw [e]
@[simp] theorem emit_anchorQ : (emit s q x).anchorQ = s.anchorQ := by obtain ⟨_, _, e⟩ := emit_frame s q x; rw [e]
@[simp] theorem emit_interps : (emit s q x).interps = s.interps := by obtain ⟨_, _, e⟩ := emit_frame s q x; rw [e]
@[simp] theorem emit_calOps : (emit s q x).calOps = s.calOps := by obtain ⟨_, _, e⟩ := emit_frame s q x; rw [e]
@[simp] theorem emit_lanes : (emit s q x).lanes = s.lanes := by obtain ⟨_, _, e⟩ := emit_frame s q x; rw [e]
@[simp] theorem emit_groups : (emit s q x).groups = s.groups := by obtain ⟨_, _, e⟩ := emit_frame s q x; rw [e]
@[simp] theorem emit_lref : (emit s q x).lref = s.lref := by obtain ⟨_, _, e⟩ := emit_frame s q x; rw [e]
@[simp] theorem emit_models : (emit s q x).models = s.models := by obtain ⟨_, _, e⟩ := emit_frame s q x; rw [e]
@[simp] theorem emit_txns : (emit s q x).txns = s.txns := by obtain ⟨_, _, e⟩ := emit_frame s q x; rw [e]
@[simp] theorem emit_ingress : (emit s q x).ingress = s.ingress := by obtain ⟨_, _, e⟩ := emit_frame s q x; rw [e]
@[simp] theorem emit_toTile : (emit s q x).toTile = s.toTile := by obtain ⟨_, _, e⟩ := emit_frame s q x; rw [e]
@[simp] theorem emit_notices : (emit s q x).notices = s.notices := by obtain ⟨_, _, e⟩ := emit_frame s q x; rw [e]
@[simp] theorem emit_tiles : (emit s q x).tiles = s.tiles := by obtain ⟨_, _, e⟩ := emit_frame s q x; rw [e]
@[simp] theorem emit_links : (emit s q x).links = s.links := by obtain ⟨_, _, e⟩ := emit_frame s q x; rw [e]
@[simp] theorem emit_gates : (emit s q x).gates = s.gates := by obtain ⟨_, _, e⟩ := emit_frame s q x; rw [e]
@[simp] theorem emit_gateDone : (emit s q x).gateDone = s.gateDone := by obtain ⟨_, _, e⟩ := emit_frame s q x; rw [e]
@[simp] theorem emit_accs : (emit s q x).accs = s.accs := by obtain ⟨_, _, e⟩ := emit_frame s q x; rw [e]
@[simp] theorem emit_lastStats : (emit s q x).lastStats = s.lastStats := by obtain ⟨_, _, e⟩ := emit_frame s q x; rw [e]
@[simp] theorem emit_statsFrom : (emit s q x).statsFrom = s.statsFrom := by obtain ⟨_, _, e⟩ := emit_frame s q x; rw [e]
@[simp] theorem emit_defs : (emit s q x).defs = s.defs := by obtain ⟨_, _, e⟩ := emit_frame s q x; rw [e]
@[simp] theorem emit_coreDefs : (emit s q x).coreDefs = s.coreDefs := by obtain ⟨_, _, e⟩ := emit_frame s q x; rw [e]
@[simp] theorem emit_conds : (emit s q x).conds = s.conds := by obtain ⟨_, _, e⟩ := emit_frame s q x; rw [e]
@[simp] theorem emit_decims : (emit s q x).decims = s.decims := by obtain ⟨_, _, e⟩ := emit_frame s q x; rw [e]
@[simp] theorem emit_tin : (emit s q x).tin = s.tin := by obtain ⟨_, _, e⟩ := emit_frame s q x; rw [e]
@[simp] theorem emit_segs : (emit s q x).segs = s.segs := by obtain ⟨_, _, e⟩ := emit_frame s q x; rw [e]
@[simp] theorem emit_pieces : (emit s q x).pieces = s.pieces := by obtain ⟨_, _, e⟩ := emit_frame s q x; rw [e]
@[simp] theorem emit_hlanes : (emit s q x).hlanes = s.hlanes := by obtain ⟨_, _, e⟩ := emit_frame s q x; rw [e]
@[simp] theorem emit_cmd : (emit s q x).cmd = s.cmd := by obtain ⟨_, _, e⟩ := emit_frame s q x; rw [e]
@[simp] theorem emit_flt : (emit s q x).flt = s.flt := by obtain ⟨_, _, e⟩ := emit_frame s q x; rw [e]
@[simp] theorem emit_pw : (emit s q x).pw = s.pw := by obtain ⟨_, _, e⟩ := emit_frame s q x; rw [e]
@[simp] theorem emit_jtag : (emit s q x).jtag = s.jtag := by obtain ⟨_, _, e⟩ := emit_frame s q x; rw [e]
@[simp] theorem emit_grants : (emit s q x).grants = s.grants := by obtain ⟨_, _, e⟩ := emit_frame s q x; rw [e]
@[simp] theorem emit_out : (emit s q x).out = s.out := by obtain ⟨_, _, e⟩ := emit_frame s q x; rw [e]
@[simp] theorem emit_freeCount : (emit s q x).freeCount = s.freeCount := by obtain ⟨_, _, e⟩ := emit_frame s q x; rw [e]
@[simp] theorem emit_full : (emit s q x).full = s.full := by obtain ⟨_, _, e⟩ := emit_frame s q x; rw [e]; rfl
@[simp] theorem emit_lane (j : Nat) : (emit s q x).lane j = s.lane j := by obtain ⟨_, _, e⟩ := emit_frame s q x; rw [e]; rfl
@[simp] theorem emit_group (j : Nat) : (emit s q x).group j = s.group j := by obtain ⟨_, _, e⟩ := emit_frame s q x; rw [e]; rfl
@[simp] theorem emit_model (j : Nat) : (emit s q x).model j = s.model j := by obtain ⟨_, _, e⟩ := emit_frame s q x; rw [e]; rfl
@[simp] theorem emit_txn (j : Nat) : (emit s q x).txn j = s.txn j := by obtain ⟨_, _, e⟩ := emit_frame s q x; rw [e]; rfl
@[simp] theorem emit_ing (j : Nat) : (emit s q x).ing j = s.ing j := by obtain ⟨_, _, e⟩ := emit_frame s q x; rw [e]; rfl
@[simp] theorem emit_tile (j : Nat) : (emit s q x).tile j = s.tile j := by obtain ⟨_, _, e⟩ := emit_frame s q x; rw [e]; rfl
@[simp] theorem emit_hlane (j : Nat) : (emit s q x).hlane j = s.hlane j := by obtain ⟨_, _, e⟩ := emit_frame s q x; rw [e]; rfl
@[simp] theorem emit_chan (j : Nat) : (emit s q x).chan j = s.chan j := by obtain ⟨_, _, e⟩ := emit_frame s q x; rw [e]; rfl
@[simp] theorem emit_src (j : Nat) : (emit s q x).src j = s.src j := by obtain ⟨_, _, e⟩ := emit_frame s q x; rw [e]; rfl
@[simp] theorem emit_tdef (j k : Nat) : (emit s q x).tdef j k = s.tdef j k := by obtain ⟨_, _, e⟩ := emit_frame s q x; rw [e]; rfl
end

/-! `event` -/

section
variable (s : State) (p a b c d : Nat) (ws : List Word)
@[simp] theorem event_pending : (event s p a b c d ws).pending = s.pending := by obtain ⟨_, _, e⟩ := event_frame s p a b c d ws; rw [e]
@[simp] theorem event_tb : (event s p a b c d ws).tb = s.tb := by obtain ⟨_, _, e⟩ := event_frame s p a b c d ws; rw [e]
@[simp] theorem event_rf : (event s p a b c d ws).rf = s.rf := by obtain ⟨_, _, e⟩ := event_frame s p a b c d ws; rw [e]
@[simp] theorem event_comps : (event s p a b c d ws).comps = s.comps := by obtain ⟨_, _, e⟩ := event_frame s p a b c d ws; rw [e]
@[simp] theorem event_inputs : (event s p a b c d ws).inputs = s.inputs := by obtain ⟨_, _, e⟩ := event_frame s p a b c d ws; rw [e]
@[simp] theorem event_pgroups : (event s p a b c d ws).pgroups = s.pgroups := by obtain ⟨_, _, e⟩ := event_frame s p a b c d ws; rw [e]
@[simp] theorem event_ivals : (event s p a b c d ws).ivals = s.ivals := by obtain ⟨_, _, e⟩ := event_frame s p a b c d ws; rw [e]
@[simp] theorem event_anchorQ : (event s p a b c d ws).anchorQ = s.anchorQ := by obtain ⟨_, _, e⟩ := event_frame s p a b c d ws; rw [e]
@[simp] theorem event_interps : (event s p a b c d ws).interps = s.interps := by obtain ⟨_, _, e⟩ := event_frame s p a b c d ws; rw [e]
@[simp] theorem event_calOps : (event s p a b c d ws).calOps = s.calOps := by obtain ⟨_, _, e⟩ := event_frame s p a b c d ws; rw [e]
@[simp] theorem event_lanes : (event s p a b c d ws).lanes = s.lanes := by obtain ⟨_, _, e⟩ := event_frame s p a b c d ws; rw [e]
@[simp] theorem event_groups : (event s p a b c d ws).groups = s.groups := by obtain ⟨_, _, e⟩ := event_frame s p a b c d ws; rw [e]
@[simp] theorem event_lref : (event s p a b c d ws).lref = s.lref := by obtain ⟨_, _, e⟩ := event_frame s p a b c d ws; rw [e]
@[simp] theorem event_models : (event s p a b c d ws).models = s.models := by obtain ⟨_, _, e⟩ := event_frame s p a b c d ws; rw [e]
@[simp] theorem event_txns : (event s p a b c d ws).txns = s.txns := by obtain ⟨_, _, e⟩ := event_frame s p a b c d ws; rw [e]
@[simp] theorem event_ingress : (event s p a b c d ws).ingress = s.ingress := by obtain ⟨_, _, e⟩ := event_frame s p a b c d ws; rw [e]
@[simp] theorem event_toTile : (event s p a b c d ws).toTile = s.toTile := by obtain ⟨_, _, e⟩ := event_frame s p a b c d ws; rw [e]
@[simp] theorem event_notices : (event s p a b c d ws).notices = s.notices := by obtain ⟨_, _, e⟩ := event_frame s p a b c d ws; rw [e]
@[simp] theorem event_tiles : (event s p a b c d ws).tiles = s.tiles := by obtain ⟨_, _, e⟩ := event_frame s p a b c d ws; rw [e]
@[simp] theorem event_links : (event s p a b c d ws).links = s.links := by obtain ⟨_, _, e⟩ := event_frame s p a b c d ws; rw [e]
@[simp] theorem event_gates : (event s p a b c d ws).gates = s.gates := by obtain ⟨_, _, e⟩ := event_frame s p a b c d ws; rw [e]
@[simp] theorem event_gateDone : (event s p a b c d ws).gateDone = s.gateDone := by obtain ⟨_, _, e⟩ := event_frame s p a b c d ws; rw [e]
@[simp] theorem event_accs : (event s p a b c d ws).accs = s.accs := by obtain ⟨_, _, e⟩ := event_frame s p a b c d ws; rw [e]
@[simp] theorem event_lastStats : (event s p a b c d ws).lastStats = s.lastStats := by obtain ⟨_, _, e⟩ := event_frame s p a b c d ws; rw [e]
@[simp] theorem event_statsFrom : (event s p a b c d ws).statsFrom = s.statsFrom := by obtain ⟨_, _, e⟩ := event_frame s p a b c d ws; rw [e]
@[simp] theorem event_defs : (event s p a b c d ws).defs = s.defs := by obtain ⟨_, _, e⟩ := event_frame s p a b c d ws; rw [e]
@[simp] theorem event_coreDefs : (event s p a b c d ws).coreDefs = s.coreDefs := by obtain ⟨_, _, e⟩ := event_frame s p a b c d ws; rw [e]
@[simp] theorem event_conds : (event s p a b c d ws).conds = s.conds := by obtain ⟨_, _, e⟩ := event_frame s p a b c d ws; rw [e]
@[simp] theorem event_decims : (event s p a b c d ws).decims = s.decims := by obtain ⟨_, _, e⟩ := event_frame s p a b c d ws; rw [e]
@[simp] theorem event_tin : (event s p a b c d ws).tin = s.tin := by obtain ⟨_, _, e⟩ := event_frame s p a b c d ws; rw [e]
@[simp] theorem event_segs : (event s p a b c d ws).segs = s.segs := by obtain ⟨_, _, e⟩ := event_frame s p a b c d ws; rw [e]
@[simp] theorem event_pieces : (event s p a b c d ws).pieces = s.pieces := by obtain ⟨_, _, e⟩ := event_frame s p a b c d ws; rw [e]
@[simp] theorem event_hlanes : (event s p a b c d ws).hlanes = s.hlanes := by obtain ⟨_, _, e⟩ := event_frame s p a b c d ws; rw [e]
@[simp] theorem event_cmd : (event s p a b c d ws).cmd = s.cmd := by obtain ⟨_, _, e⟩ := event_frame s p a b c d ws; rw [e]
@[simp] theorem event_flt : (event s p a b c d ws).flt = s.flt := by obtain ⟨_, _, e⟩ := event_frame s p a b c d ws; rw [e]
@[simp] theorem event_pw : (event s p a b c d ws).pw = s.pw := by obtain ⟨_, _, e⟩ := event_frame s p a b c d ws; rw [e]
@[simp] theorem event_jtag : (event s p a b c d ws).jtag = s.jtag := by obtain ⟨_, _, e⟩ := event_frame s p a b c d ws; rw [e]
@[simp] theorem event_grants : (event s p a b c d ws).grants = s.grants := by obtain ⟨_, _, e⟩ := event_frame s p a b c d ws; rw [e]
@[simp] theorem event_out : (event s p a b c d ws).out = s.out := by obtain ⟨_, _, e⟩ := event_frame s p a b c d ws; rw [e]
@[simp] theorem event_freeCount : (event s p a b c d ws).freeCount = s.freeCount := by obtain ⟨_, _, e⟩ := event_frame s p a b c d ws; rw [e]
@[simp] theorem event_full : (event s p a b c d ws).full = s.full := by obtain ⟨_, _, e⟩ := event_frame s p a b c d ws; rw [e]; rfl
@[simp] theorem event_lane (j : Nat) : (event s p a b c d ws).lane j = s.lane j := by obtain ⟨_, _, e⟩ := event_frame s p a b c d ws; rw [e]; rfl
@[simp] theorem event_group (j : Nat) : (event s p a b c d ws).group j = s.group j := by obtain ⟨_, _, e⟩ := event_frame s p a b c d ws; rw [e]; rfl
@[simp] theorem event_model (j : Nat) : (event s p a b c d ws).model j = s.model j := by obtain ⟨_, _, e⟩ := event_frame s p a b c d ws; rw [e]; rfl
@[simp] theorem event_txn (j : Nat) : (event s p a b c d ws).txn j = s.txn j := by obtain ⟨_, _, e⟩ := event_frame s p a b c d ws; rw [e]; rfl
@[simp] theorem event_ing (j : Nat) : (event s p a b c d ws).ing j = s.ing j := by obtain ⟨_, _, e⟩ := event_frame s p a b c d ws; rw [e]; rfl
@[simp] theorem event_tile (j : Nat) : (event s p a b c d ws).tile j = s.tile j := by obtain ⟨_, _, e⟩ := event_frame s p a b c d ws; rw [e]; rfl
@[simp] theorem event_hlane (j : Nat) : (event s p a b c d ws).hlane j = s.hlane j := by obtain ⟨_, _, e⟩ := event_frame s p a b c d ws; rw [e]; rfl
@[simp] theorem event_chan (j : Nat) : (event s p a b c d ws).chan j = s.chan j := by obtain ⟨_, _, e⟩ := event_frame s p a b c d ws; rw [e]; rfl
@[simp] theorem event_src (j : Nat) : (event s p a b c d ws).src j = s.src j := by obtain ⟨_, _, e⟩ := event_frame s p a b c d ws; rw [e]; rfl
@[simp] theorem event_tdef (j k : Nat) : (event s p a b c d ws).tdef j k = s.tdef j k := by obtain ⟨_, _, e⟩ := event_frame s p a b c d ws; rw [e]; rfl
end

/-! `eventBoth` -/

section
variable (s : State) (p a b c d : Nat) (ws : List Word)
@[simp] theorem eventBoth_pending : (eventBoth s p a b c d ws).pending = s.pending := by obtain ⟨_, _, e⟩ := eventBoth_frame s p a b c d ws; rw [e]
@[simp] theorem eventBoth_tb : (eventBoth s p a b c d ws).tb = s.tb := by obtain ⟨_, _, e⟩ := eventBoth_frame s p a b c d ws; rw [e]
@[simp] theorem eventBoth_rf : (eventBoth s p a b c d ws).rf = s.rf := by obtain ⟨_, _, e⟩ := eventBoth_frame s p a b c d ws; rw [e]
@[simp] theorem eventBoth_comps : (eventBoth s p a b c d ws).comps = s.comps := by obtain ⟨_, _, e⟩ := eventBoth_frame s p a b c d ws; rw [e]
@[simp] theorem eventBoth_inputs : (eventBoth s p a b c d ws).inputs = s.inputs := by obtain ⟨_, _, e⟩ := eventBoth_frame s p a b c d ws; rw [e]
@[simp] theorem eventBoth_pgroups : (eventBoth s p a b c d ws).pgroups = s.pgroups := by obtain ⟨_, _, e⟩ := eventBoth_frame s p a b c d ws; rw [e]
@[simp] theorem eventBoth_ivals : (eventBoth s p a b c d ws).ivals = s.ivals := by obtain ⟨_, _, e⟩ := eventBoth_frame s p a b c d ws; rw [e]
@[simp] theorem eventBoth_anchorQ : (eventBoth s p a b c d ws).anchorQ = s.anchorQ := by obtain ⟨_, _, e⟩ := eventBoth_frame s p a b c d ws; rw [e]
@[simp] theorem eventBoth_interps : (eventBoth s p a b c d ws).interps = s.interps := by obtain ⟨_, _, e⟩ := eventBoth_frame s p a b c d ws; rw [e]
@[simp] theorem eventBoth_calOps : (eventBoth s p a b c d ws).calOps = s.calOps := by obtain ⟨_, _, e⟩ := eventBoth_frame s p a b c d ws; rw [e]
@[simp] theorem eventBoth_lanes : (eventBoth s p a b c d ws).lanes = s.lanes := by obtain ⟨_, _, e⟩ := eventBoth_frame s p a b c d ws; rw [e]
@[simp] theorem eventBoth_groups : (eventBoth s p a b c d ws).groups = s.groups := by obtain ⟨_, _, e⟩ := eventBoth_frame s p a b c d ws; rw [e]
@[simp] theorem eventBoth_lref : (eventBoth s p a b c d ws).lref = s.lref := by obtain ⟨_, _, e⟩ := eventBoth_frame s p a b c d ws; rw [e]
@[simp] theorem eventBoth_models : (eventBoth s p a b c d ws).models = s.models := by obtain ⟨_, _, e⟩ := eventBoth_frame s p a b c d ws; rw [e]
@[simp] theorem eventBoth_txns : (eventBoth s p a b c d ws).txns = s.txns := by obtain ⟨_, _, e⟩ := eventBoth_frame s p a b c d ws; rw [e]
@[simp] theorem eventBoth_ingress : (eventBoth s p a b c d ws).ingress = s.ingress := by obtain ⟨_, _, e⟩ := eventBoth_frame s p a b c d ws; rw [e]
@[simp] theorem eventBoth_toTile : (eventBoth s p a b c d ws).toTile = s.toTile := by obtain ⟨_, _, e⟩ := eventBoth_frame s p a b c d ws; rw [e]
@[simp] theorem eventBoth_notices : (eventBoth s p a b c d ws).notices = s.notices := by obtain ⟨_, _, e⟩ := eventBoth_frame s p a b c d ws; rw [e]
@[simp] theorem eventBoth_tiles : (eventBoth s p a b c d ws).tiles = s.tiles := by obtain ⟨_, _, e⟩ := eventBoth_frame s p a b c d ws; rw [e]
@[simp] theorem eventBoth_links : (eventBoth s p a b c d ws).links = s.links := by obtain ⟨_, _, e⟩ := eventBoth_frame s p a b c d ws; rw [e]
@[simp] theorem eventBoth_gates : (eventBoth s p a b c d ws).gates = s.gates := by obtain ⟨_, _, e⟩ := eventBoth_frame s p a b c d ws; rw [e]
@[simp] theorem eventBoth_gateDone : (eventBoth s p a b c d ws).gateDone = s.gateDone := by obtain ⟨_, _, e⟩ := eventBoth_frame s p a b c d ws; rw [e]
@[simp] theorem eventBoth_accs : (eventBoth s p a b c d ws).accs = s.accs := by obtain ⟨_, _, e⟩ := eventBoth_frame s p a b c d ws; rw [e]
@[simp] theorem eventBoth_lastStats : (eventBoth s p a b c d ws).lastStats = s.lastStats := by obtain ⟨_, _, e⟩ := eventBoth_frame s p a b c d ws; rw [e]
@[simp] theorem eventBoth_statsFrom : (eventBoth s p a b c d ws).statsFrom = s.statsFrom := by obtain ⟨_, _, e⟩ := eventBoth_frame s p a b c d ws; rw [e]
@[simp] theorem eventBoth_defs : (eventBoth s p a b c d ws).defs = s.defs := by obtain ⟨_, _, e⟩ := eventBoth_frame s p a b c d ws; rw [e]
@[simp] theorem eventBoth_coreDefs : (eventBoth s p a b c d ws).coreDefs = s.coreDefs := by obtain ⟨_, _, e⟩ := eventBoth_frame s p a b c d ws; rw [e]
@[simp] theorem eventBoth_conds : (eventBoth s p a b c d ws).conds = s.conds := by obtain ⟨_, _, e⟩ := eventBoth_frame s p a b c d ws; rw [e]
@[simp] theorem eventBoth_decims : (eventBoth s p a b c d ws).decims = s.decims := by obtain ⟨_, _, e⟩ := eventBoth_frame s p a b c d ws; rw [e]
@[simp] theorem eventBoth_tin : (eventBoth s p a b c d ws).tin = s.tin := by obtain ⟨_, _, e⟩ := eventBoth_frame s p a b c d ws; rw [e]
@[simp] theorem eventBoth_segs : (eventBoth s p a b c d ws).segs = s.segs := by obtain ⟨_, _, e⟩ := eventBoth_frame s p a b c d ws; rw [e]
@[simp] theorem eventBoth_pieces : (eventBoth s p a b c d ws).pieces = s.pieces := by obtain ⟨_, _, e⟩ := eventBoth_frame s p a b c d ws; rw [e]
@[simp] theorem eventBoth_hlanes : (eventBoth s p a b c d ws).hlanes = s.hlanes := by obtain ⟨_, _, e⟩ := eventBoth_frame s p a b c d ws; rw [e]
@[simp] theorem eventBoth_cmd : (eventBoth s p a b c d ws).cmd = s.cmd := by obtain ⟨_, _, e⟩ := eventBoth_frame s p a b c d ws; rw [e]
@[simp] theorem eventBoth_flt : (eventBoth s p a b c d ws).flt = s.flt := by obtain ⟨_, _, e⟩ := eventBoth_frame s p a b c d ws; rw [e]
@[simp] theorem eventBoth_pw : (eventBoth s p a b c d ws).pw = s.pw := by obtain ⟨_, _, e⟩ := eventBoth_frame s p a b c d ws; rw [e]
@[simp] theorem eventBoth_jtag : (eventBoth s p a b c d ws).jtag = s.jtag := by obtain ⟨_, _, e⟩ := eventBoth_frame s p a b c d ws; rw [e]
@[simp] theorem eventBoth_grants : (eventBoth s p a b c d ws).grants = s.grants := by obtain ⟨_, _, e⟩ := eventBoth_frame s p a b c d ws; rw [e]
@[simp] theorem eventBoth_out : (eventBoth s p a b c d ws).out = s.out := by obtain ⟨_, _, e⟩ := eventBoth_frame s p a b c d ws; rw [e]
@[simp] theorem eventBoth_freeCount : (eventBoth s p a b c d ws).freeCount = s.freeCount := by obtain ⟨_, _, e⟩ := eventBoth_frame s p a b c d ws; rw [e]
@[simp] theorem eventBoth_full : (eventBoth s p a b c d ws).full = s.full := by obtain ⟨_, _, e⟩ := eventBoth_frame s p a b c d ws; rw [e]; rfl
@[simp] theorem eventBoth_lane (j : Nat) : (eventBoth s p a b c d ws).lane j = s.lane j := by obtain ⟨_, _, e⟩ := eventBoth_frame s p a b c d ws; rw [e]; rfl
@[simp] theorem eventBoth_group (j : Nat) : (eventBoth s p a b c d ws).group j = s.group j := by obtain ⟨_, _, e⟩ := eventBoth_frame s p a b c d ws; rw [e]; rfl
@[simp] theorem eventBoth_model (j : Nat) : (eventBoth s p a b c d ws).model j = s.model j := by obtain ⟨_, _, e⟩ := eventBoth_frame s p a b c d ws; rw [e]; rfl
@[simp] theorem eventBoth_txn (j : Nat) : (eventBoth s p a b c d ws).txn j = s.txn j := by obtain ⟨_, _, e⟩ := eventBoth_frame s p a b c d ws; rw [e]; rfl
@[simp] theorem eventBoth_ing (j : Nat) : (eventBoth s p a b c d ws).ing j = s.ing j := by obtain ⟨_, _, e⟩ := eventBoth_frame s p a b c d ws; rw [e]; rfl
@[simp] theorem eventBoth_tile (j : Nat) : (eventBoth s p a b c d ws).tile j = s.tile j := by obtain ⟨_, _, e⟩ := eventBoth_frame s p a b c d ws; rw [e]; rfl
@[simp] theorem eventBoth_hlane (j : Nat) : (eventBoth s p a b c d ws).hlane j = s.hlane j := by obtain ⟨_, _, e⟩ := eventBoth_frame s p a b c d ws; rw [e]; rfl
@[simp] theorem eventBoth_chan (j : Nat) : (eventBoth s p a b c d ws).chan j = s.chan j := by obtain ⟨_, _, e⟩ := eventBoth_frame s p a b c d ws; rw [e]; rfl
@[simp] theorem eventBoth_src (j : Nat) : (eventBoth s p a b c d ws).src j = s.src j := by obtain ⟨_, _, e⟩ := eventBoth_frame s p a b c d ws; rw [e]; rfl
@[simp] theorem eventBoth_tdef (j k : Nat) : (eventBoth s p a b c d ws).tdef j k = s.tdef j k := by obtain ⟨_, _, e⟩ := eventBoth_frame s p a b c d ws; rw [e]; rfl
end

/-! `sendReply` -/

section
variable (s : State) (c : Cmd) (op st d : Nat) (ws : List Word) (b : Bool)
@[simp] theorem sendReply_pending : (sendReply s c op st d ws b).pending = s.pending := by obtain ⟨_, _, e⟩ := sendReply_frame s c op st d ws b; rw [e]
@[simp] theorem sendReply_regs : (sendReply s c op st d ws b).regs = s.regs := by obtain ⟨_, _, e⟩ := sendReply_frame s c op st d ws b; rw [e]
@[simp] theorem sendReply_tb : (sendReply s c op st d ws b).tb = s.tb := by obtain ⟨_, _, e⟩ := sendReply_frame s c op st d ws b; rw [e]
@[simp] theorem sendReply_rf : (sendReply s c op st d ws b).rf = s.rf := by obtain ⟨_, _, e⟩ := sendReply_frame s c op st d ws b; rw [e]
@[simp] theorem sendReply_comps : (sendReply s c op st d ws b).comps = s.comps := by obtain ⟨_, _, e⟩ := sendReply_frame s c op st d ws b; rw [e]
@[simp] theorem sendReply_inputs : (sendReply s c op st d ws b).inputs = s.inputs := by obtain ⟨_, _, e⟩ := sendReply_frame s c op st d ws b; rw [e]
@[simp] theorem sendReply_pgroups : (sendReply s c op st d ws b).pgroups = s.pgroups := by obtain ⟨_, _, e⟩ := sendReply_frame s c op st d ws b; rw [e]
@[simp] theorem sendReply_ivals : (sendReply s c op st d ws b).ivals = s.ivals := by obtain ⟨_, _, e⟩ := sendReply_frame s c op st d ws b; rw [e]
@[simp] theorem sendReply_anchorQ : (sendReply s c op st d ws b).anchorQ = s.anchorQ := by obtain ⟨_, _, e⟩ := sendReply_frame s c op st d ws b; rw [e]
@[simp] theorem sendReply_interps : (sendReply s c op st d ws b).interps = s.interps := by obtain ⟨_, _, e⟩ := sendReply_frame s c op st d ws b; rw [e]
@[simp] theorem sendReply_calOps : (sendReply s c op st d ws b).calOps = s.calOps := by obtain ⟨_, _, e⟩ := sendReply_frame s c op st d ws b; rw [e]
@[simp] theorem sendReply_lanes : (sendReply s c op st d ws b).lanes = s.lanes := by obtain ⟨_, _, e⟩ := sendReply_frame s c op st d ws b; rw [e]
@[simp] theorem sendReply_groups : (sendReply s c op st d ws b).groups = s.groups := by obtain ⟨_, _, e⟩ := sendReply_frame s c op st d ws b; rw [e]
@[simp] theorem sendReply_lref : (sendReply s c op st d ws b).lref = s.lref := by obtain ⟨_, _, e⟩ := sendReply_frame s c op st d ws b; rw [e]
@[simp] theorem sendReply_models : (sendReply s c op st d ws b).models = s.models := by obtain ⟨_, _, e⟩ := sendReply_frame s c op st d ws b; rw [e]
@[simp] theorem sendReply_txns : (sendReply s c op st d ws b).txns = s.txns := by obtain ⟨_, _, e⟩ := sendReply_frame s c op st d ws b; rw [e]
@[simp] theorem sendReply_ingress : (sendReply s c op st d ws b).ingress = s.ingress := by obtain ⟨_, _, e⟩ := sendReply_frame s c op st d ws b; rw [e]
@[simp] theorem sendReply_toTile : (sendReply s c op st d ws b).toTile = s.toTile := by obtain ⟨_, _, e⟩ := sendReply_frame s c op st d ws b; rw [e]
@[simp] theorem sendReply_notices : (sendReply s c op st d ws b).notices = s.notices := by obtain ⟨_, _, e⟩ := sendReply_frame s c op st d ws b; rw [e]
@[simp] theorem sendReply_tiles : (sendReply s c op st d ws b).tiles = s.tiles := by obtain ⟨_, _, e⟩ := sendReply_frame s c op st d ws b; rw [e]
@[simp] theorem sendReply_links : (sendReply s c op st d ws b).links = s.links := by obtain ⟨_, _, e⟩ := sendReply_frame s c op st d ws b; rw [e]
@[simp] theorem sendReply_gates : (sendReply s c op st d ws b).gates = s.gates := by obtain ⟨_, _, e⟩ := sendReply_frame s c op st d ws b; rw [e]
@[simp] theorem sendReply_gateDone : (sendReply s c op st d ws b).gateDone = s.gateDone := by obtain ⟨_, _, e⟩ := sendReply_frame s c op st d ws b; rw [e]
@[simp] theorem sendReply_accs : (sendReply s c op st d ws b).accs = s.accs := by obtain ⟨_, _, e⟩ := sendReply_frame s c op st d ws b; rw [e]
@[simp] theorem sendReply_lastStats : (sendReply s c op st d ws b).lastStats = s.lastStats := by obtain ⟨_, _, e⟩ := sendReply_frame s c op st d ws b; rw [e]
@[simp] theorem sendReply_statsFrom : (sendReply s c op st d ws b).statsFrom = s.statsFrom := by obtain ⟨_, _, e⟩ := sendReply_frame s c op st d ws b; rw [e]
@[simp] theorem sendReply_defs : (sendReply s c op st d ws b).defs = s.defs := by obtain ⟨_, _, e⟩ := sendReply_frame s c op st d ws b; rw [e]
@[simp] theorem sendReply_coreDefs : (sendReply s c op st d ws b).coreDefs = s.coreDefs := by obtain ⟨_, _, e⟩ := sendReply_frame s c op st d ws b; rw [e]
@[simp] theorem sendReply_conds : (sendReply s c op st d ws b).conds = s.conds := by obtain ⟨_, _, e⟩ := sendReply_frame s c op st d ws b; rw [e]
@[simp] theorem sendReply_decims : (sendReply s c op st d ws b).decims = s.decims := by obtain ⟨_, _, e⟩ := sendReply_frame s c op st d ws b; rw [e]
@[simp] theorem sendReply_tin : (sendReply s c op st d ws b).tin = s.tin := by obtain ⟨_, _, e⟩ := sendReply_frame s c op st d ws b; rw [e]
@[simp] theorem sendReply_segs : (sendReply s c op st d ws b).segs = s.segs := by obtain ⟨_, _, e⟩ := sendReply_frame s c op st d ws b; rw [e]
@[simp] theorem sendReply_pieces : (sendReply s c op st d ws b).pieces = s.pieces := by obtain ⟨_, _, e⟩ := sendReply_frame s c op st d ws b; rw [e]
@[simp] theorem sendReply_hqs : (sendReply s c op st d ws b).hqs = s.hqs := by obtain ⟨_, _, e⟩ := sendReply_frame s c op st d ws b; rw [e]
@[simp] theorem sendReply_flt : (sendReply s c op st d ws b).flt = s.flt := by obtain ⟨_, _, e⟩ := sendReply_frame s c op st d ws b; rw [e]
@[simp] theorem sendReply_pw : (sendReply s c op st d ws b).pw = s.pw := by obtain ⟨_, _, e⟩ := sendReply_frame s c op st d ws b; rw [e]
@[simp] theorem sendReply_jtag : (sendReply s c op st d ws b).jtag = s.jtag := by obtain ⟨_, _, e⟩ := sendReply_frame s c op st d ws b; rw [e]
@[simp] theorem sendReply_grants : (sendReply s c op st d ws b).grants = s.grants := by obtain ⟨_, _, e⟩ := sendReply_frame s c op st d ws b; rw [e]
@[simp] theorem sendReply_out : (sendReply s c op st d ws b).out = s.out := by obtain ⟨_, _, e⟩ := sendReply_frame s c op st d ws b; rw [e]
@[simp] theorem sendReply_freeCount : (sendReply s c op st d ws b).freeCount = s.freeCount := by obtain ⟨_, _, e⟩ := sendReply_frame s c op st d ws b; rw [e]
@[simp] theorem sendReply_word (o e j : Nat) : (sendReply s c op st d ws b).word o e j = s.word o e j := by obtain ⟨_, _, e⟩ := sendReply_frame s c op st d ws b; rw [e]; rfl
@[simp] theorem sendReply_get (h : Field) (j : Nat) : (sendReply s c op st d ws b).get h j = s.get h j := by obtain ⟨_, _, e⟩ := sendReply_frame s c op st d ws b; rw [e]; rfl
@[simp] theorem sendReply_flag (h : Field) (j : Nat) : (sendReply s c op st d ws b).flag h j = s.flag h j := by obtain ⟨_, _, e⟩ := sendReply_frame s c op st d ws b; rw [e]; rfl
@[simp] theorem sendReply_full : (sendReply s c op st d ws b).full = s.full := by obtain ⟨_, _, e⟩ := sendReply_frame s c op st d ws b; rw [e]; rfl
@[simp] theorem sendReply_hq (j : Nat) : (sendReply s c op st d ws b).hq j = s.hq j := by obtain ⟨_, _, e⟩ := sendReply_frame s c op st d ws b; rw [e]; rfl
@[simp] theorem sendReply_lane (j : Nat) : (sendReply s c op st d ws b).lane j = s.lane j := by obtain ⟨_, _, e⟩ := sendReply_frame s c op st d ws b; rw [e]; rfl
@[simp] theorem sendReply_group (j : Nat) : (sendReply s c op st d ws b).group j = s.group j := by obtain ⟨_, _, e⟩ := sendReply_frame s c op st d ws b; rw [e]; rfl
@[simp] theorem sendReply_model (j : Nat) : (sendReply s c op st d ws b).model j = s.model j := by obtain ⟨_, _, e⟩ := sendReply_frame s c op st d ws b; rw [e]; rfl
@[simp] theorem sendReply_txn (j : Nat) : (sendReply s c op st d ws b).txn j = s.txn j := by obtain ⟨_, _, e⟩ := sendReply_frame s c op st d ws b; rw [e]; rfl
@[simp] theorem sendReply_ing (j : Nat) : (sendReply s c op st d ws b).ing j = s.ing j := by obtain ⟨_, _, e⟩ := sendReply_frame s c op st d ws b; rw [e]; rfl
@[simp] theorem sendReply_tile (j : Nat) : (sendReply s c op st d ws b).tile j = s.tile j := by obtain ⟨_, _, e⟩ := sendReply_frame s c op st d ws b; rw [e]; rfl
@[simp] theorem sendReply_src (j : Nat) : (sendReply s c op st d ws b).src j = s.src j := by obtain ⟨_, _, e⟩ := sendReply_frame s c op st d ws b; rw [e]; rfl
@[simp] theorem sendReply_tdef (j k : Nat) : (sendReply s c op st d ws b).tdef j k = s.tdef j k := by obtain ⟨_, _, e⟩ := sendReply_frame s c op st d ws b; rw [e]; rfl
end

/-! `finish` -/

section
variable (s : State) (c : Cmd) (op st d : Nat) (ws : List Word)
@[simp] theorem finish_pending : (finish s c op st d ws).pending = s.pending := by obtain ⟨_, _, e⟩ := finish_frame s c op st d ws; rw [e]
@[simp] theorem finish_regs : (finish s c op st d ws).regs = s.regs := by obtain ⟨_, _, e⟩ := finish_frame s c op st d ws; rw [e]
@[simp] theorem finish_tb : (finish s c op st d ws).tb = s.tb := by obtain ⟨_, _, e⟩ := finish_frame s c op st d ws; rw [e]
@[simp] theorem finish_rf : (finish s c op st d ws).rf = s.rf := by obtain ⟨_, _, e⟩ := finish_frame s c op st d ws; rw [e]
@[simp] theorem finish_comps : (finish s c op st d ws).comps = s.comps := by obtain ⟨_, _, e⟩ := finish_frame s c op st d ws; rw [e]
@[simp] theorem finish_inputs : (finish s c op st d ws).inputs = s.inputs := by obtain ⟨_, _, e⟩ := finish_frame s c op st d ws; rw [e]
@[simp] theorem finish_pgroups : (finish s c op st d ws).pgroups = s.pgroups := by obtain ⟨_, _, e⟩ := finish_frame s c op st d ws; rw [e]
@[simp] theorem finish_ivals : (finish s c op st d ws).ivals = s.ivals := by obtain ⟨_, _, e⟩ := finish_frame s c op st d ws; rw [e]
@[simp] theorem finish_anchorQ : (finish s c op st d ws).anchorQ = s.anchorQ := by obtain ⟨_, _, e⟩ := finish_frame s c op st d ws; rw [e]
@[simp] theorem finish_interps : (finish s c op st d ws).interps = s.interps := by obtain ⟨_, _, e⟩ := finish_frame s c op st d ws; rw [e]
@[simp] theorem finish_calOps : (finish s c op st d ws).calOps = s.calOps := by obtain ⟨_, _, e⟩ := finish_frame s c op st d ws; rw [e]
@[simp] theorem finish_lanes : (finish s c op st d ws).lanes = s.lanes := by obtain ⟨_, _, e⟩ := finish_frame s c op st d ws; rw [e]
@[simp] theorem finish_groups : (finish s c op st d ws).groups = s.groups := by obtain ⟨_, _, e⟩ := finish_frame s c op st d ws; rw [e]
@[simp] theorem finish_lref : (finish s c op st d ws).lref = s.lref := by obtain ⟨_, _, e⟩ := finish_frame s c op st d ws; rw [e]
@[simp] theorem finish_models : (finish s c op st d ws).models = s.models := by obtain ⟨_, _, e⟩ := finish_frame s c op st d ws; rw [e]
@[simp] theorem finish_txns : (finish s c op st d ws).txns = s.txns := by obtain ⟨_, _, e⟩ := finish_frame s c op st d ws; rw [e]
@[simp] theorem finish_ingress : (finish s c op st d ws).ingress = s.ingress := by obtain ⟨_, _, e⟩ := finish_frame s c op st d ws; rw [e]
@[simp] theorem finish_toTile : (finish s c op st d ws).toTile = s.toTile := by obtain ⟨_, _, e⟩ := finish_frame s c op st d ws; rw [e]
@[simp] theorem finish_notices : (finish s c op st d ws).notices = s.notices := by obtain ⟨_, _, e⟩ := finish_frame s c op st d ws; rw [e]
@[simp] theorem finish_tiles : (finish s c op st d ws).tiles = s.tiles := by obtain ⟨_, _, e⟩ := finish_frame s c op st d ws; rw [e]
@[simp] theorem finish_links : (finish s c op st d ws).links = s.links := by obtain ⟨_, _, e⟩ := finish_frame s c op st d ws; rw [e]
@[simp] theorem finish_gates : (finish s c op st d ws).gates = s.gates := by obtain ⟨_, _, e⟩ := finish_frame s c op st d ws; rw [e]
@[simp] theorem finish_gateDone : (finish s c op st d ws).gateDone = s.gateDone := by obtain ⟨_, _, e⟩ := finish_frame s c op st d ws; rw [e]
@[simp] theorem finish_accs : (finish s c op st d ws).accs = s.accs := by obtain ⟨_, _, e⟩ := finish_frame s c op st d ws; rw [e]
@[simp] theorem finish_lastStats : (finish s c op st d ws).lastStats = s.lastStats := by obtain ⟨_, _, e⟩ := finish_frame s c op st d ws; rw [e]
@[simp] theorem finish_statsFrom : (finish s c op st d ws).statsFrom = s.statsFrom := by obtain ⟨_, _, e⟩ := finish_frame s c op st d ws; rw [e]
@[simp] theorem finish_defs : (finish s c op st d ws).defs = s.defs := by obtain ⟨_, _, e⟩ := finish_frame s c op st d ws; rw [e]
@[simp] theorem finish_coreDefs : (finish s c op st d ws).coreDefs = s.coreDefs := by obtain ⟨_, _, e⟩ := finish_frame s c op st d ws; rw [e]
@[simp] theorem finish_conds : (finish s c op st d ws).conds = s.conds := by obtain ⟨_, _, e⟩ := finish_frame s c op st d ws; rw [e]
@[simp] theorem finish_decims : (finish s c op st d ws).decims = s.decims := by obtain ⟨_, _, e⟩ := finish_frame s c op st d ws; rw [e]
@[simp] theorem finish_tin : (finish s c op st d ws).tin = s.tin := by obtain ⟨_, _, e⟩ := finish_frame s c op st d ws; rw [e]
@[simp] theorem finish_segs : (finish s c op st d ws).segs = s.segs := by obtain ⟨_, _, e⟩ := finish_frame s c op st d ws; rw [e]
@[simp] theorem finish_pieces : (finish s c op st d ws).pieces = s.pieces := by obtain ⟨_, _, e⟩ := finish_frame s c op st d ws; rw [e]
@[simp] theorem finish_hqs : (finish s c op st d ws).hqs = s.hqs := by obtain ⟨_, _, e⟩ := finish_frame s c op st d ws; rw [e]
@[simp] theorem finish_flt : (finish s c op st d ws).flt = s.flt := by obtain ⟨_, _, e⟩ := finish_frame s c op st d ws; rw [e]
@[simp] theorem finish_pw : (finish s c op st d ws).pw = s.pw := by obtain ⟨_, _, e⟩ := finish_frame s c op st d ws; rw [e]
@[simp] theorem finish_jtag : (finish s c op st d ws).jtag = s.jtag := by obtain ⟨_, _, e⟩ := finish_frame s c op st d ws; rw [e]
@[simp] theorem finish_grants : (finish s c op st d ws).grants = s.grants := by obtain ⟨_, _, e⟩ := finish_frame s c op st d ws; rw [e]
@[simp] theorem finish_out : (finish s c op st d ws).out = s.out := by obtain ⟨_, _, e⟩ := finish_frame s c op st d ws; rw [e]
@[simp] theorem finish_freeCount : (finish s c op st d ws).freeCount = s.freeCount := by obtain ⟨_, _, e⟩ := finish_frame s c op st d ws; rw [e]
@[simp] theorem finish_word (o e j : Nat) : (finish s c op st d ws).word o e j = s.word o e j := by obtain ⟨_, _, e⟩ := finish_frame s c op st d ws; rw [e]; rfl
@[simp] theorem finish_get (h : Field) (j : Nat) : (finish s c op st d ws).get h j = s.get h j := by obtain ⟨_, _, e⟩ := finish_frame s c op st d ws; rw [e]; rfl
@[simp] theorem finish_flag (h : Field) (j : Nat) : (finish s c op st d ws).flag h j = s.flag h j := by obtain ⟨_, _, e⟩ := finish_frame s c op st d ws; rw [e]; rfl
@[simp] theorem finish_full : (finish s c op st d ws).full = s.full := by obtain ⟨_, _, e⟩ := finish_frame s c op st d ws; rw [e]; rfl
@[simp] theorem finish_hq (j : Nat) : (finish s c op st d ws).hq j = s.hq j := by obtain ⟨_, _, e⟩ := finish_frame s c op st d ws; rw [e]; rfl
@[simp] theorem finish_lane (j : Nat) : (finish s c op st d ws).lane j = s.lane j := by obtain ⟨_, _, e⟩ := finish_frame s c op st d ws; rw [e]; rfl
@[simp] theorem finish_group (j : Nat) : (finish s c op st d ws).group j = s.group j := by obtain ⟨_, _, e⟩ := finish_frame s c op st d ws; rw [e]; rfl
@[simp] theorem finish_model (j : Nat) : (finish s c op st d ws).model j = s.model j := by obtain ⟨_, _, e⟩ := finish_frame s c op st d ws; rw [e]; rfl
@[simp] theorem finish_txn (j : Nat) : (finish s c op st d ws).txn j = s.txn j := by obtain ⟨_, _, e⟩ := finish_frame s c op st d ws; rw [e]; rfl
@[simp] theorem finish_ing (j : Nat) : (finish s c op st d ws).ing j = s.ing j := by obtain ⟨_, _, e⟩ := finish_frame s c op st d ws; rw [e]; rfl
@[simp] theorem finish_tile (j : Nat) : (finish s c op st d ws).tile j = s.tile j := by obtain ⟨_, _, e⟩ := finish_frame s c op st d ws; rw [e]; rfl
@[simp] theorem finish_src (j : Nat) : (finish s c op st d ws).src j = s.src j := by obtain ⟨_, _, e⟩ := finish_frame s c op st d ws; rw [e]; rfl
@[simp] theorem finish_tdef (j k : Nat) : (finish s c op st d ws).tdef j k = s.tdef j k := by obtain ⟨_, _, e⟩ := finish_frame s c op st d ws; rw [e]; rfl
end

end Sys2Proof.Machine
end

