-- ==== Sys2Proof/Tests/Slice0.lean ====
section
/-! SUPPORT. Tests: ill-formed commands that the checks refuse; and for each statement, states and operands that meet the hypotheses of its
clauses, with what one step makes of them. The states are built by the helpers of the first section; the expected values are the
spec's, or follow by hand from its tables. -/

namespace Sys2Proof.Tests

set_option Elab.async false

open Sys2Proof Sys2Proof.Machine Sys2Proof.Claims

/-- A device in RUNNING with the domains `ds` on. -/
def up (ds : List Nat) : State := ds.foldl (fun s d => s.put F.pws_pstate d 3) (State.reset.put F.pwg_phase 0 6)

/-- A command of partition 0 on the serial management port, taken at tick 0. -/
def cmd (ps : List Word) : Cmd := { tick := 0, lane := none, part := 0, tag := 7, resv := 0, params := ps }

/-- What a command leaves. -/
def after (i : Instr) (s : State) : State :=
  match exec i s with
  | .next t => t
  | _ => s

/-- The last reply on the serial management port answers a command so. -/
def told (t : State) (c : Cmd) (op st d : Nat) (ws : List Word) : Bool :=
  (t.cmd.smpOut.getLast?.map fun r => r.packets) == some (replyPackets (ws.length + 1) op c.part c.tag st d ws)

/-- The command was carried out and is answered so: it counts as accepted and its channel is busy with it. -/
def did (t u : State) (c : Cmd) (op st d : Nat) (ws : List Word) : Bool :=
  told t c op st d ws && t.get F.part3_accepted c.part == plus u F.part3_accepted c.part 1 && (t.chan c.part).op == op

/-- The register words outside `ks` are the same. -/
def sameIn (u v : State) (ks : List Nat) : Bool :=
  ((u.regs ++ v.regs).map fun e => e.1).all fun k => ks.contains k || regGet u.regs k == regGet v.regs k

/-- The key of the counts of a partition, which every accepted command changes. -/
def counts (p : Nat) : Nat := wkey 12 3 p

/-- A frame as it is sent whole: every block valid, its CRC that of its start and words. -/
def frameOf (kind : Nat) (ws : List Word) : Frame :=
  { seqStart := 9, seqEnd := 9, kind := kind, words := ws, blocksOk := true, crc := frameCrc (frameStart 9 kind 0) ws }

/-- All of a list. -/
def ok (bs : List Bool) : Bool := bs.all id

/-! ### Ill-formed commands -/

theorem test_ill_formed_commands : ok [
    !wellFormed (.nop { cmd [] with part := 256 }), !wellFormed (.nop { cmd [] with tag := 65536 }), !wellFormed (.nop { cmd [] with resv := 65536 }),
    !wellFormed (.nop { cmd [] with lane := some 1024 }), !wellFormed (.nop { cmd [] with params := List.replicate 256 0#64 }), wellFormed (.nop (cmd []))] = true := by decide +kernel

/-! ### The queue and reset -/

theorem test_step_runs_front : ok (
    let t := match step { up [] with pending := [.bypass, .cinchCancel] } with
      | .next t => t
      | _ => up []
    [t.pending == [.cinchCancel], t.jtag.ir == 0xFF]) = true := by decide +kernel
theorem test_idle_step : ok (
    let t := advance (up []) 1
    [t.tb.tick == 1, t.full == 1, (up []).pending.isEmpty, t.regs == (up []).regs]) = true := by decide +kernel
theorem test_reset_canonical : State.reset.canon = true := by decide
theorem test_field_write : ok (
    let t := State.reset.put F.pws_switches 3 0x1FFFF
    [t.get F.pws_switches 3 == 0xFFFF, t.get F.pws_pstate 3 == State.reset.get F.pws_pstate 3, sameIn State.reset t [wkey 13 1 3], t.canon,
      decide (F.pws_switches.hi < 64)]) = true := by decide +kernel

/-! ### The engines -/

theorem test_engine_not_bound : ok (
    let c := { cmd [] with part := 5 }
    let t := after (.cinch c) (up [])
    [canArrive (up []) c, !isBound (up []) c, told t c 0x13 stNotOwner 0 [], t.get F.part3_not_owner 5 == 1, (t.chan 5).op == 0xFF]) = true := by decide +kernel
theorem test_engine_busy : ok (
    let s := (up []).setChan 0 { op := 0x13, since := 0 }
    let c := { cmd [] with tick := 3200 }
    let t := after (.nop c) s
    [canArrive s c, isBound s c, s.chanBusy 0, told t c 0x00 stBusy 0 [0x1300000000000002#64], t.get F.part3_busy_replies 0 == 1]) = true := by decide +kernel
theorem test_engine_recovery : ok (
    let s := State.reset.put F.pwg_phase 0 7
    let c := cmd []
    [canArrive s c, isBound s c, told (after (.discardStaged c) s) c 0x14 stBadOpcode 0 [], told (after (.nop c) s) c 0x00 stOk 0 []]) = true := by decide +kernel
theorem test_engine_unclaimed : ok (
    let s := (up []).setWord 12 1 9 0x8003000000000000#64
    let c := { cmd [] with part := 9, lane := some 3 }
    let t := after (.discardStaged c) s
    [canArrive s c, isBound s c, !s.flag F.part0_claimed 9, t.get F.part3_not_owner 9 == 1, t.get F.part3_accepted 9 == 0,
      (after (.nop c) s).get F.part3_accepted 9 == 1]) = true := by decide +kernel
theorem test_busy_word_system : ok (
    let s := { up [] with cmd := { (up []).cmd with sysOp := some { op := 0x62, cmd := cmd [], since := 0 } }, tb := { (up []).tb with tick := 1600 * (2 ^ 32) } }
    [busyWord s 3 == 0x62008000FFFFFFFF#64]) = true := by decide +kernel
theorem test_reply_header : replyHeader 0x43 0xFE 0xABCD 255 0x08 1 0x7FFF = 0x43FEABCDFF08FFFF#64 := by decide +kernel
theorem test_reply_on_lane : ok (
    let s := (up [0]).put F.lsa_state 0 5
    let c := { cmd [] with lane := some 0 }
    let t := after (.nop c) s
    [canArrive s c, s.laneUp 0, (t.hlane 0).replies.map (fun r => r.packets) == [[[0x0000000700000000#64]]], (t.chan 0).op == 0, t.cmd.smpOut.isEmpty,
      ((after (.nop c) (up [0])).chan 0).op == 0xFF]) = true := by decide +kernel
theorem test_take_from_lane : ok (
    let h : Word := 0x1300000B01000000#64
    let s := ((up [0]).put F.lsa_state 0 5).setHlane 0 { HLane.init with rx := [[h, 0x1000#64]] }
    let t := after (.commandTake (some 0) 5) s
    let h2 : Word := 0x0000000C00000000#64
    let two := s.setHlane 1 { HLane.init with rx := [[h2]] }
    let n := { two with grants := [(0, [(1, 32)])] }
    let v := after (.commandTake (some 1) 5) two
    [s.takers == [1], s.granted 0 s.portCount s.takers 1 == 1, two.takers == [1, 2], two.granted 0 two.portCount two.takers 2 == 2, v.grants == [(0, [(1, 1)])],
      (v.hlane 1).rx.isEmpty, n.portCount == 33, n.granted 0 n.portCount n.takers 2 == 1, (t.hlane 0).rx.isEmpty, t.cmd.cinches.map (fun j => (j.cmd.tag, j.cmd.params, j.accepted)) == [(0x0B, [0x1000#64], 5)]]) = true := by decide +kernel
theorem test_take_wrong_length : ok (
    let h : Word := 0x1300000B02000000#64
    let s := { up [] with cmd := { (up []).cmd with smpIn := some [h, 0x1000#64] } }
    let t := after (.commandTake none 5) s
    [t.cmd.smpIn.isNone, told t { cmd [] with tag := 0x0B } 0x13 stBadParam 0 [], t.cmd.cinches.isEmpty,
      after (.commandTake none 5) { s with cmd := { s.cmd with resync := true } } == { s with cmd := { s.cmd with resync := true } }]) = true := by decide +kernel
theorem test_command_frame : ok (
    let s := (up [0]).put F.lsa_state 1 5
    let f := frameOf 6 [5#64]
    let g := s.groupOf 1
    let marked := s.setGroup g { s.group g with badBlock := true }
    let full := s.setHlane 1 { HLane.init with rx := [[1#64], [2#64], [3#64], [4#64]] }
    [s.host 1, s.laneUp 1, frameOk f [6], ((after (.hostFrameReceive 1 f) s).hlane 1).rx == [[5#64]], (after (.commandFrameReceive 1 f) full).get F.lsc_cmd_drops 1 == 1,
      (after (.hostFrameReceive 1 { f with crc := f.crc + 1 }) s).get F.ltsd_frames_bad g == 1,
      (after (.hostFrameReceive 1 f) marked).get F.ltsd_frames_bad g == 1, ((after (.hostFrameReceive 1 f) marked).hlane 1).rx.isEmpty,
      ((after (.commandFrameReceive 1 { frameOf 6 [5#64, 6#64] with bytes := 3 }) s).hlane 1).rx == [[5#64, 6#64]], after (.hostFrameReceive 1 f) (up [0]) == up [0]]) = true := by decide +kernel
theorem test_smp_write : ok (
    let ws : List Word := [0x0000000700000000#64]
    let t := after (.smpWriteTransfer ws (some (BitVec.ofNat 64 (crc32 ws)))) (up [])
    [(up []).smpReady, t.cmd.smpIn == some ws, after (.smpWriteTransfer ws (some 1#64)) (up []) == up [],
      after (.smpWriteTransfer ws (some (BitVec.ofNat 64 (crc32 ws)))) (sendReply (up []) (cmd []) 0 0 0 [] true) == sendReply (up []) (cmd []) 0 0 0 [] true]) = true := by decide +kernel
theorem test_smp_read : ok (
    let s := after (.nop (cmd [])) (up [])
    let t := after (.smpReadTransfer true) s
    let p : List Word := [0x0000000700000000#64]
    [s.smpReady, s.chanBusy 0, t.out == [.smpReply [0x8000000000000000#64, 0x0000000700000000#64, BitVec.ofNat 64 (crc32 p)]], !t.chanBusy 0, t.cmd.smpOut.isEmpty,
      (after (.smpReadTransfer false) s).out == [.smpReply [0x8000000000000000#64]], (after (.smpReadTransfer true) State.reset).out == [.smpReply [0#64]]]) = true := by decide +kernel
theorem test_nop_identify_status : ok (
    let c := cmd []
    let s := up []
    [accepts s c 0x00 0, accepts s c 0x01 0, accepts s c 0x02 0, did (after (.nop c) s) s c 0x00 stOk 0 [], sameIn s (after (.nop c) s) [counts 0],
      (after (.identify c) s).cmd.smpOut.map (fun r => r.packets.map fun p => (p.getD 1 0#64, p.length)) == [[(0x5C20B0B0B1140020#64, 3)]],
      did (after (.status c) s) s c 0x02 stOk 0 [0#64, 0x8000000000004000#64 ||| BitVec.ofNat 64 (s.get F.part0_claim_smp 0 * 2 ^ 11)]]) = true := by decide +kernel
theorem test_claim : ok (
    let s := (up [0]).setWord 12 1 9 0x8003000000000000#64
    let c := { cmd [0x12345678#64] with part := 9, lane := some 3 }
    let t := after (.partitionClaim c) s
    let s2 := freeChan t 9
    [accepts s c 0x08 1, !stray (c.par 0) [(31, 0)], t.flag F.part0_claimed 9, t.get F.part0_claimant 9 == 0x12345678, t.get F.part0_claim_lane 9 == 3,
      sameIn s t [wkey 12 0 9, counts 9], accepts s2 { c with params := [1#64] } 0x08 1, (after (.partitionClaim { c with params := [1#64] }) s2).get F.part0_claimant 9 == 0x12345678,
      accepts s2 { c with params := [] } 0x09 0, !(after (.partitionRelease { c with params := [] }) s2).flag F.part0_claimed 9]) = true := by decide +kernel
theorem test_release_by_partition_0 : ok (
    let s := ((up []).put F.part0_claimed 9 1).put F.part0_claimant 9 5
    let c := cmd [9#64]
    let busy := s.setChan 9 { op := 0x13, since := 0 }
    [accepts0 s c 0x09 1, did (after (.partitionRelease c) s) s c 0x09 stOk 0 [], !(after (.partitionRelease c) s).flag F.part0_claimed 9,
      told (after (.partitionRelease c) busy) c 0x09 stBusy 0 [0x1309000000000000#64], told (after (.partitionRelease (cmd [0#64])) s) c 0x09 stBadParam 1 []]) = true := by decide +kernel
theorem test_bind : ok (
    let s := up [0]
    let c := cmd [BitVec.ofNat 64 (9 * 1024 + 7)]
    let t := after (.partitionBind c) s
    let full := (s.setWord 12 1 9 0x8000800180028003#64).setWord 12 2 9 0x8004800580068100#64
    let b := freeChan t 0
    [accepts0 s c 0x0A 1, s.host 7, s.laneState 7 != 10, t.bound 9 == [7], sameIn s t [wkey 12 1 9, counts 0], (full.bound 9).length == 8,
      told (after (.partitionBind c) full) c 0x0A stNoResource 0 [], told (after (.partitionBind (cmd [BitVec.ofNat 64 (9 * 1024 + 8)])) s) c 0x0A stBadParam 1 [],
      accepts0 b c 0x0A 1, (b.bound 9).count 7 == 1, (after (.partitionUnbind c) b).bound 9 == [], did (after (.partitionBind c) b) b c 0x0A stOk 0 []]) = true := by decide +kernel
theorem test_unbind_of_a_named_lane : ok (
    let s := up [0]
    let c := cmd [0#64]
    [accepts0 s c 0x0A 1, s.enabledQueues.contains 0, s.get F.qhc_lane 0 == 0, told (after (.partitionUnbind c) s) c 0x0A stBadParam 1 []]) = true := by decide +kernel
theorem test_lockstep : ok (
    let s := { up [] with cmd := { (up []).cmd with sysOp := some { op := 0x62, cmd := cmd [], since := 0 } } }
    let t := after (.lockstepMismatch 0) s
    [6 ≤ s.phase, t.cmd.resync, t.flt.inflight.map (fun r => (r.source, r.cause)) == [(0x80F7, 0x03), (0x80F8, 0x15)], told t (cmd []) 0x62 stInternal 0 [],
      !(after .engineResyncComplete t).cmd.resync, after (.lockstepMismatch 0) t == t, (after (.lockstepMismatch 0) (up [])).flt.inflight.length == 1]) = true := by decide +kernel
/-- The length of what left last on TDO. -/
def tdoLength (t : State) : Nat :=
  match t.out.getLast? with
  | some (.tdo n _) => n
  | _ => 0
theorem test_jtag : ok (
    let s := { up [] with pw := { (up []).pw with tapHold := true } }
    let low := { s with pw := { s.pw with resetLow := true }, jtag := { s.jtag with cells := [(0, 1), (3, 1)] } }
    let code := fun (i : Instr) => ((after i s).jtag.ir, (after i s).jtag.shift)
    [code .bypass == (0xFF, 0), !(after .bypass s).pw.tapHold, (after .clamp s).pw.tapHold, code .clamp == (3, 0), code .idcode == (1, 0x15C205AF), code .highz == (4, 0),
      code .extestPulse == (5, 0), code .extestTrain == (6, 0), code .testLogicReset == (1, 0x15C205AF), (after .idcode s).out == [.tdo 32 0x15C205AF],
      (after .bypass s).out == [.tdo 1 0], tdoLength (after .extestPulse low) == 2184, tdoLength (after .extestTrain low) == 2184, (after .extestPulse low).jtag.cells == [(0, 1), (3, 1)],
      (after .extestPulse low).freeCount == 35]) = true := by decide +kernel
theorem test_boundary_cells_whole : (List.replicate 2184 1).length = 2184 ∧ ∀ x ∈ List.replicate 2184 1, x < 2 := by
  refine ⟨List.length_replicate, fun x h => ?_⟩
  rw [List.eq_of_mem_replicate h]
  exact Nat.one_lt_two
theorem test_boundary_cells : ok (
    let cells := [1, 0, 0, 1]
    let low := { up [] with pw := { (up []).pw with resetLow := true } }
    let t := after (.extest cells) low
    let v := after (.samplePreload cells [1, 1]) (up [])
    [(t.jtag.ir, t.jtag.cells, tdoLength t) == (0, [(0, 1), (3, 1)], 2184), (after (.extest cells) (up [])).jtag.cells == [], (after (.extest cells) (up [])).jtag.shift == 0,
      (v.jtag.ir, v.jtag.cells) == (2, [(0, 1), (3, 1)]), Nat.testBit v.jtag.shift 1, !Nat.testBit v.jtag.shift 2, Nat.testBit v.jtag.shift 2163, Nat.testBit v.jtag.shift 2160, !Nat.testBit v.jtag.shift 2169,
      !Nat.testBit (after (.samplePreload cells [1, 1]) { up [] with pw := { (up []).pw with rails := 2 } }).jtag.shift 1]) = true := by decide +kernel
/-- The reset with an instruction in the test access port. -/
def tapped (ir : Nat) (cells : SMap Nat) : State := { State.reset with jtag := { State.reset.jtag with ir := ir, cells := cells }, pw := { State.reset.pw with resetLow := true } }
theorem test_pins_in_reset : ok (
    let s := tapped 0x01 []
    let z := tapped 0x04 [(2128, 1), (2160, 1)]
    let e := tapped 0x00 [(2128, 1), (2160, 1), (2161, 1), (2166, 1), (2183, 1)]
    let b := tapped 0x03 [(2168, 1), (2169, 1), (2171, 1), (2182, 1)]
    [s.pw.resetLow, s.throttlePin 0 == some false, s.faultN, s.attnN, s.bootClk == some false, s.bootCsN == some true, s.bootIo 1 == none, s.smpDio == none,
      z.throttlePin 0 == none, z.faultN, z.attnN, z.bootClk == none, z.bootCsN == none, z.smpDio == none,
      e.throttlePin 0 == some true, e.throttlePin 1 == some false, e.faultN, !e.attnN, e.bootClk == some false, e.bootCsN == some true, e.bootIo 0 == none, e.smpDio == some false,
      b.bootIo 0 == some true, b.bootIo 1 == none, b.smpDio == none, b.throttlePin 0 == none]) = true := by decide +kernel
theorem test_ill_formed_clears : ok ([.laneStatusClr (cmd []) 1024, .laneTimingClr (cmd []) 1024, .precisionStatusClr (cmd []) 128, .chanStatusClr (cmd []) 5242880,
    .filterStatusClr (cmd []) 5242880, .groupMergeClr (cmd []) 1024, .tileMergeClr (cmd []) 320, .tileHistoryClr (cmd []) 320, .trigMissedClr (cmd []) 4096,
    .segStatusClr (cmd []) 256, .queueIngressClr (cmd []) 1024, .queueIngressFlagClear (cmd []) 1024 0#64, .queueHostClr (cmd []) 16384,
    .queueHostFlagClear (cmd []) 16384 0#64, .queueAnchorClr (cmd []) 5, .partCountersClr (cmd []) 256, .faultsrcSourceClr (cmd []) 65536,
    .powerStatusClr (cmd []) 30].map fun i => !wellFormed i) = true := by decide +kernel
theorem test_ill_formed_lanes : ok (
    let f := frameOf 6 [5#64]
    [.commandFrameReceive 1024 f, .hostFrameReceive 1024 f, .hostFrameReceive 0 { f with words := [] }, .hostFrameReceive 0 { f with kind := 16 },
      .hostFrameReceive 0 { f with seqStart := 65536 }, .hostFrameReceive 0 { f with seqEnd := 65536 },
      .hostFrameReceive 0 { f with bytes := 0 }, .hostFrameReceive 0 { f with bytes := 9 }, .hostFrameReceive 0 { f with crc := 2 ^ 32 },
      .hostFrameReceive 0 { f with low := 2 ^ 36 }, .commandTake (some 1024) 0, .lockstepMismatch 256,
      .signalDetect 1024, .signalLoss 1024, .capabilityBlockReceive 1024 0#64 0, .capExchTimeout 1024, .trainingNotReady 1024, .prbsWindowEnd 1024 0 0,
      .alignmentMarkerReceive 1024 0 0 0 0, .alignmentMarkerReceive 0 8 0 0 0, .alignmentMarkerSend 1024, .alignTimeout 1024, .blockReceive 1024 true true none,
      .codewordDecode 1024 0 true 0, .linkRequestReceive 1024 0#64, .linkResponseReceive 1024 0#64, .linkRequestTimeout 1024, .checkerLock 1024 [],
      .checkerLockLoss 1024 0 0, .errorInjection 1024, .beaconSend 1024 0 0 false, .beaconSend 0 0 1024 false, .echoReceive 1024 0#64 0 0 false, .echoReceive 0 0#64 0 1024 false, .echoFollowUpReceive 1024 0#64,
      .modelFitComplete 1024, .acquireTimeout 1024, .suspectTimeout 1024, .halfWrapLimit 1024, .hitFrameReceive 1024 f false 0, .hitConversion 1024 0 false,
      .txnResponseReceive 1024 f, .pauseRepeat 1024, .frameCommit 1024, .frameRewind 1024 0 0, .hostLaneSend 1024 0 false, .idleRecord 1024, .receiversReady 1024,
      .lrefLoss 4, .lrefPresent 4].map fun i => !wellFormed i) = true := by decide +kernel
theorem test_ill_formed_events : ok ([.writeLiveAdopt 5 0 0 0, .writeLiveAdopt 15 64 0 0, .writeLiveAdopt 15 0 256 0, .refEdgeLoss 3 0, .refFreqMeasure 3 0 0 0,
    .waitToRestoreExpiry 3, .boundaryNotice 320, .comparatorTransition 128 true 0, .overRateEnd 128, .overRateWindowEnd 128, .stampRelease 128,
    .conversionComplete 128 0 0 true, .conversionComplete 0 4 0 true, .conversionComplete 0 0 1024 true, .overdriveOnset 64 0, .overdriveEnd 64 0, .disturbedEnd 8,
    .totTimeout 128, .intervalTimeout 64, .randomSourceSample 1536 0 true, .randomSourceSample 0 1024 true, .tableInstall 1536, .lockTimeout 1536,
    .asideAbandon 1536, .asideReturn 1536, .txnTimeout 4096, .retryWaitTimeout 4096, .doneTimeout 4096, .quarantineTimeout 4096, .tileHitArrival 320 0,
    .tileHitArrival 0 1025, .commitToken 320 0 false, .commitToken 0 1025 false, .caravanClose 320 false, .hostCaravanClose 16384, .shedLevelChange 320, .linkShed 4 0 true,
    .linkShed 0 5 true, .tileRemapAccept 320, .tileRemapBoundary 320, .heldRetirementRemap 320, .gateStart 256 0, .gateStart 0 16,
    .gateComplete 320 0 0, .trigInEdge 8 0 8 true, .armBoundary 256 0, .armBoundary 0 8, .disarmBoundary 256 0, .candidateForward 5 0 0, .candidateJudge 256 0,
    .segmentBuild 1048576, .oasisBufferGrant 0 320, .oasisWaitTimeout 1048576 0, .holdTimeout 1048576, .hostRecordWrite 16384 false, .spillWrite 2 0,
    .spillWrite 0 16384, .flushEffect 16384, .escalationExpiry 65536, .causeEnd 65536, .powerCycleComplete 30, .scrubRead 11 0 true, .saddlePacketFail 5 0 0,
    .saddlePacketFail 0 12 0, .saddlePacketFail 0 1 0, .saddlePacketFail 8 9 0, .saddlePacketFail 0 8 1024, .voteDisagreement 7, .supplyMonitor 14 true, .thermalShutdown 12, .thermalRecovery 5,
    .domainOffComplete 30, .domainOnComplete 30, .startupPhase (2 ^ 30), .extest [2], .samplePreload [0] [], .calSweepTimeout 256].map fun i => !wellFormed i) = true := by decide +kernel
theorem test_ill_formed_interps : ok (
    let m : LockMeasure := { bias := 0, widths := [], slowStage := 0, fastStage := 0, dacs := [] }
    [!wellFormed (.lockSettled 1536 m), wellFormed (.lockSettled 1535 m)]) = true := by decide +kernel

/-! ### Objects -/

theorem test_read_obj : ok (
    let s := (up [16]).setWord 8 0 5 0x1234567800000000#64
    let c := cmd [descWord 8 0 5 2]
    let off := cmd [descWord 4 2 32 1]
    let ch := cmd [descWord 3 0 0 1]
    [accepts s c 0x10 1, descOk (c.par 0), s.access 0 8 0 5 false 0#64 0#64, s.access 0 8 0 6 false 0#64 0#64, !s.placeGone 8 0 5, plainWord 8 0, !s.wordOff 8 0 5,
      did (after (.readObjLive c) s) s c 0x10 stOk 0 [0x1234567800000000#64, resetWord 8 0 6], did (after (.readObjStaged c) s) s c 0x10 stOk 0 [0x1234567800000000#64, resetWord 8 0 6],
      descOk (off.par 0), s.wordOff 4 2 32, did (after (.readObjLive off) s) s off 0x10 stOk 0 [0#64],
      descOk (ch.par 0), !s.wordOff 3 0 0, did (after (.readObjLive ch) s) s ch 0x10 stOk 0 [resetWord 3 0 0]]) = true := by decide +kernel
theorem test_read_obj_staged_form : ok (
    let s := { up [16] with cmd := { (up [16]).cmd with staged := [(wkey 8 0 5, { part := 0, word := 0x1234567800000000#64 })] } }
    let c := cmd [descWord 8 0 5 1]
    [accepts s c 0x10 1, did (after (.readObjStaged c) s) s c 0x10 stOk 0 [0x1234567800000000#64], did (after (.readObjLive c) s) s c 0x10 stOk 0 [resetWord 8 0 5]]) = true := by decide +kernel
theorem test_read_obj_tile : ok (
    let s := (up [16]).setWord 4 6 3 0x1200000000000000#64
    let s := { s with cmd := { s.cmd with prev := [(wkey 4 6 3, { old := 0x1100000000000000#64, full := 4096, cinch := none })] } }
    let c := cmd [descWord 4 6 3 1]
    let g := cmd [descWord 1 5 63 1]
    [descOk (c.par 0), s.access 0 4 6 3 false 0#64 0#64, !s.placeGone 4 6 3, s.wordFor 4 6 3 (s.k0 3 * 4096) == 0x1100000000000000#64,
      did (after (.readObjLive c) s) s c 0x10 stOk 0 [0x1100000000000000#64], did (after (.readObjLive g) (up [0])) (up [0]) g 0x10 stOk 0 [(up [0]).word 1 5 63]]) = true := by decide +kernel
theorem test_write_staged : ok (
    let s := up [16]
    let c := cmd [descWord 8 0 5 1, 0xFFFFFFFF00000000#64, 0x0010000000000000#64]
    let t := after (.writeStaged c) s
    let b := freeChan t 0
    let d := cmd []
    [accepts s c 0x11 3, descOk (c.par 0), checksPass false c s, did t s c 0x11 stOk 0 [], t.stagedFor 0 8 0 5 == merge (resetWord 8 0 5) 0x0010000000000000#64 0xFFFFFFFF00000000#64,
      sameIn s t [counts 0], s.stagedFor 0 8 0 5 == resetWord 8 0 5, accepts b d 0x14 0, did (after (.discardStaged d) b) b d 0x14 stOk 1 [], (after (.discardStaged d) b).cmd.staged.isEmpty]) = true := by decide +kernel
theorem test_write_live_rw : ok (
    let s := up []
    let c := cmd [descWord 11 64 0 1, 0x0000004000000000#64, 0x0000004000000000#64]
    let t := after (.writeLive c) s
    [accepts s c 0x12 3, descOk (c.par 0), checksPass true c s, c.par 1 &&& stMask 11 64 == 0#64, did t s c 0x12 stOk 0 [], t.flag F.fgc_fault_n_sw 0,
      t.word 11 64 0 == merge (s.word 11 64 0) 0x0000004000000000#64 0x0000004000000000#64, sameIn s t [wkey 11 64 0, counts 0]]) = true := by decide +kernel
theorem test_write_live_st : ok (
    let s := up [16]
    let mask : Word := 0xFFFFFFFF00000000#64
    let c := cmd [descWord 8 0 5 1, mask, 0x0010000000000000#64]
    let t := after (.writeLive c) s
    let new := merge (s.liveCopy 8 0 5) 0x0010000000000000#64 mask
    [accepts s c 0x12 3, descOk (c.par 0), checksPass true c s, mask &&& ~~~(stMask 8 0) == 0#64, s.wordDies 8 0 5 new == [0], did t s c 0x12 stOk 0 [],
      (mfind t.cmd.written (wkey 8 0 5)).map (fun x => (x.word, x.waiting)) == some (new, [0]), sameIn s t [counts 0]]) = true := by decide +kernel
theorem test_write_live_off : ok (
    let s := up []
    let new := setBits (s.word 2 0 5) 59 52 7
    let v := applyLive s 2 0 5 (fieldMask 59 52) new
    let two := cmd [descWord 8 0 5 2, 0xFFFFFFFF00000000#64, 0x0010000000000000#64, 0x0020000000000000#64]
    [s.wordDies 2 0 5 new == [], quietWord 2 0, fieldMask 59 52 &&& ~~~(stMask 2 0) == 0#64, s.cmd.written == [], v.get F.grp_owner 5 == 7, sameIn s v [wkey 2 0 5],
      accepts (up [16]) two 0x12 4, checksPass true two (up [16]), (after (.writeLive two) (up [16])).cmd.written.map (fun e => (e.1, e.2.word)) ==
        [(wkey 8 0 5, 0x0010000000000000#64), (wkey 8 0 6, 0x0020000000000000#64)]]) = true := by decide +kernel
theorem test_write_live_inconsistent : ok (
    let w : Word := setBits (setBits (resetWord 6 2 1) 63 36 9) 35 8 4
    let s := { up [16] with cmd := { (up [16]).cmd with written := [(wkey 6 2 1, { mask := pairMask 6 2, word := w, waiting := [0], bad := [] })] } }
    let t := after (.writeLiveAdopt 0 6 2 1) s
    let u := after (.writeLiveAdopt 0 6 2 1) t
    [quietWord 6 2, s.brokenMask (s.dieView 0) 6 2 1 == pairMask 6 2, t.word 6 2 1 == resetWord 6 2 1, t.cmd.written.map (fun e => (e.2.waiting, e.2.bad)) == [([], [0])],
      t.flt.inflight.map (fun r => (r.source, r.cause)) == [(0x8000, 0x0A)], u.flt == t.flt, u.cmd.written.map (fun e => e.2.bad) == [[0]]]) = true := by decide +kernel
theorem test_write_live_adopted : ok (
    let s := freeChan (after (.writeLive (cmd [descWord 8 0 5 1, 0xFFFFFFFF00000000#64, 0x0010000000000000#64])) (up [16])) 0
    let t := after (.writeLiveAdopt 0 8 0 5) s
    [quietWord 8 0, s.wordDies 8 0 5 0#64 == [0], s.brokenMask (s.dieView 0) 8 0 5 == 0#64, t.full == 4096, t.word 8 0 5 == 0x0010000000000000#64,
      (mfind t.cmd.prev (wkey 8 0 5)).map (fun p => p.full) == some 4096]) = true := by decide +kernel
theorem test_cinch_life : ok (
    let s := after (.writeStaged (cmd [descWord 8 0 5 1, 0xFFFFFFFF00000000#64, 0x0010000000000000#64])) (up [16])
    let b := freeChan s 0
    let c := cmd [0#64]
    let t := after (.cinch c) b
    let u := after (.cinchCheckEnd 100) t
    let v := after (.cinchGo 200) u
    let w := after .cinchBoundary v
    [accepts b c 0x13 1, t.cmd.cinches.length == 1, u.cmd.cinches.map (fun j => (j.full, j.chosen)) == [(12288, true)], told v c 0x13 stOk 1 [12288#64],
      v.cmd.staged.isEmpty, nextGone v.cmd.gone == some { part := 0, words := [(wkey 8 0 5, 0x0010000000000000#64)], full := 12288 },
      w.full == 12288, w.word 8 0 5 == 0x0010000000000000#64, w.cmd.gone.isEmpty, (mfind w.cmd.prev (wkey 8 0 5)).map (fun p => p.cinch) == some (some 12288)]) = true := by decide +kernel
theorem test_cinch_cancel : ok (
    let s := after (.cinchCheckEnd 0) (after (.cinch (cmd [0#64])) (up [16]))
    let t := after .cinchCancel s
    let last := { s with cmd := { s.cmd with cinches := s.cmd.cinches.map fun j => { j with attempts := 7 } } }
    [s.cmd.cinches.map (fun j => (j.full, j.attempts)) == [(8192, 0)], t.full == 6144, t.cmd.cinches.map (fun j => (j.full, j.attempts)) == [(16384, 1)],
      told (after .cinchCancel last) (cmd [0#64]) 0x13 stTimeout 0 []]) = true := by decide +kernel
theorem test_cinch_conflict : ok (
    let s := up []
    let s := { s with cmd := { s.cmd with staged := [(wkey 5 5 3, { part := 0, word := setBits (s.word 5 5 3) 63 53 (1024 + 300) })] } }
    let t := after (.cinch (cmd [0#64])) s
    [!(t.failing 0).isEmpty, told (after (.cinchCheckEnd 0) t) (cmd [0#64]) 0x13 stStagedConflict 0 [descWord 5 5 3 1],
      (after (.cinchCheckEnd 0) t).cmd.staged.length == 1]) = true := by decide +kernel

/-- A W1C row clears the first counter of its word and is answered. -/
def clearsOne (i : Instr) (obj sel idx : Nat) (f : Field) : Bool :=
  let s := (up [0, 16, 27]).put f idx 3
  let t := after i s
  mayWrite s (cmd []) obj sel idx 1#64 1#64 && t.get f idx == (if f == F.part3_accepted then 1 else 0) && t.get F.part3_accepted 0 == 1 && told t (cmd []) 0x12 stOk 0 []

theorem test_clr_lane : ok [clearsOne (.laneStatusClr (cmd []) 63) 1 3 63 F.lsb_retrains, clearsOne (.laneTimingClr (cmd []) 63) 1 11 63 F.ltsd_frames_bad,
    clearsOne (.groupMergeClr (cmd []) 1023) 2 1 1023 F.gmrg_replays, clearsOne (.queueIngressClr (cmd []) 63) 5 4 63 F.qia_drops] = true := by decide +kernel
theorem test_clr_precision : ok [clearsOne (.precisionStatusClr (cmd []) 126) 3 21 63 F.psta_merged, clearsOne (.precisionStatusClr (cmd []) 127) 3 22 63 (F.psta_merged.at 1)] = true := by decide +kernel
theorem test_clr_channel : ok [clearsOne (.chanStatusClr (cmd []) 524287) 3 1 524287 F.chst_hits, clearsOne (.filterStatusClr (cmd []) 1) 3 3 1 F.fist_filtered,
    clearsOne (.tileMergeClr (cmd []) 31) 4 5 31 F.tmd_discards, clearsOne (.tileHistoryClr (cmd []) 31) 4 8 31 F.thb_needed_drops] = true := by decide +kernel
theorem test_clr_engines : ok [clearsOne (.trigMissedClr (cmd []) 4087) 6 4 4087 F.trsb_missed, clearsOne (.segStatusClr (cmd []) 255) 7 3 4080 F.segb_oasis_empty,
    clearsOne (.queueHostClr (cmd []) 16383) 5 8 16383 F.qhb_flushed, clearsOne (.queueAnchorClr (cmd []) 4) 5 9 4 F.qan_prec_drops,
    clearsOne (.partCountersClr (cmd []) 0) 12 3 0 F.part3_accepted] = true := by decide +kernel
theorem test_clr_care : ok [clearsOne (.faultsrcGlobalClr (cmd [])) 11 65 0 F.fgs_accepted_all, clearsOne (.faultsrcSourceClr (cmd []) 0x9003) 11 3 0x9003 F.fss_data_lost,
    clearsOne (.powerStatusClr (cmd []) 29) 13 1 29 F.pws_cycles] = true := by decide +kernel
theorem test_queue_flags : ok (
    let s := (((up [0]).put F.qia_overrun 63 1).put F.qia_full 63 1).put F.qha_overrun 16383 1
    let f1 : Word := 0x4000#64
    let f2 : Word := 0x1000000000#64
    let t := after (.queueIngressFlagClear (cmd []) 63 f1) s
    [mayWrite s (cmd []) 5 2 63 f1 f1, f1 &&& ~~~(maskOf (wordSpec 5 2) [.w1c]) == 0#64, !t.flag F.qia_overrun 63, t.flag F.qia_full 63, sameIn s t [wkey 5 2 63, counts 0],
      mayWrite s (cmd []) 5 6 16383 f2 f2, f2 &&& ~~~(maskOf (wordSpec 5 6) [.w1c]) == 0#64, !(after (.queueHostFlagClear (cmd []) 16383 f2) s).flag F.qha_overrun 16383,
      mayWrite s (cmd []) 11 64 0 (fieldMask 38 38) (setBits 0#64 38 38 1), (after (.faultNSw (cmd []) true) s).flag F.fgc_fault_n_sw 0]) = true := by decide +kernel

/-! ### Time base -/

/-- The selector LOCKED on reference 1, which with reference 2 is GOOD; automatic mode without reverting. -/
def locked (ds : List Nat) : State :=
  let s := ((up ds).put F.refsel0_revert 0 0).put F.refsel0_mode 0 0
  let s := ((s.put F.refst0_sel_state 0 2).put F.refst0_selected 0 1).put F.refst0_target 0 3
  ((((s.put F.refst0_provisional 0 0).put F.refs_state 1 4).put F.refs_state 2 4).put F.refsel0_refc_en 0 1).put F.lsa_state 0 5 |>.put F.lsa_rate 0 2

theorem test_reference_events : ok (
    let s := locked []
    let f := fun (s : State) (r : Nat) (d : Int) => after (.refFreqMeasure r d 77 9) s
    [(after (.refEdgeLoss 1 9) s).refState 1 == 0, (after (.refEdgeLoss 1 9) s).refState 2 == 4, (after (.refEdgeLoss 1 9) s).tb.tick == 9, s.refcExists,
      (f s 1 (s.freqLimit + 1)).refState 1 == 1, (f s 0 s.freqLimit).refState 0 == 2, (f s 1 0).rf.osc.log == [(9, 77)], (f s 1 0).refState 1 == 4,
      (f (holdOsc s) 1 0).rf.osc.log.length == 1, ((f (s.put F.refs_state 1 1) 1 0).refx 1).okRun == 1, after (.refFreqMeasure 2 0 0 9) (up []) == up [],
      (f ((s.put F.refs_state 1 1).setRefx 1 { s.refx 1 with okRun := 99 }) 1 0).refState 1 == 3]) = true := by decide +kernel
theorem test_monitor_second : ok (
    let s := (locked [27]).put F.refsel0_xmeas_en 0 1
    let a := (upTo 0 5).foldl (fun (m : RegSum) k => m.add (7 + k * 1638400) (k = 3)) RegSum.init
    let v := { s with rf := { s.rf with sums := [(1, a)] } }
    let t := after (.refMonitorSecond true 9) v
    let vs : Voters := [(0, 0), (1, 60000), (2, 1000)]
    let far := (s.put F.refs_state 1 4).setRefx 1 { s.refx 1 with okRun := 9 }
    let near := (s.put F.refs_state 2 5).setRefx 2 { s.refx 2 with clearRun := 9 }
    [t.flag F.refs_warm_pin 0, t.get F.refy_y_tb 1 == 0, yOf a == some 0, a.n == 4, t.get F.refy_y_tb 0 == 0x80000000, t.rf.sums.isEmpty,
      (after (.refMonitorSecond false 9) (v.put F.refsel0_xmeas_en 0 0)).get F.refy_y_tb 1 == 0x80000000, s.get F.refsel1_persist 0 == 10, s.get F.refsel1_drift_limit 0 == 5000,
      departs vs 50000 1 60000, (monitorRef far vs 1 (some 60000) false true).refState 1 == 5, !departs vs 50000 2 1000,
      (monitorRef near vs 2 (some 1000) false true).refState 2 == 3]) = true := by decide +kernel
theorem test_ref_status : ok (
    let s := locked []
    let s := { (s.put F.refst0_sel_state 0 4) with rf := { s.rf with holdAt := some 0, ppsLast := some 0 } }
    let c := { cmd [] with tick := 1600000000 }
    let w := refStatusWords (advanceTo s 1600000000)
    [accepts s c 0x21 0, (after (.refStatus c) s).cmd.smpOut.map (fun r => r.packets.map List.length) == [[10]], bits (w.getD 0 0#64) 31 16 == 1, bits (w.getD 4 0#64) 63 48 == 1,
      bits (w.getD 7 0#64) 36 36 == 1, (advanceTo s 1600000000).wtrRunning == none]) = true := by decide +kernel
theorem test_selector : ok (
    let s := (locked []).put F.refst0_sel_state 0 1
    let s := { s with rf := { s.rf with lockFrom := some 5, lockTo := 144000005 } }
    let w := ((locked []).put F.refst0_sel_state 0 3).put F.refst0_target 0 2
    let w := { w with rf := { w.rf with switchAt := some 5 } }
    let t := after .switchComplete w
    let lock := fun (p f : Int) (t : Nat) => after (.acquireLock p f t) s
    [s.selState == 1, s.refState s.selected == 4, s.rf.sel.isNone, (lock 250 (-1000) 160000005).selState == 2, (lock (-250) 1000 160000004).selState == 1,
      (lock 251 0 160000005).rf.lockFrom == none, (lock 0 0 160000006).rf.lockFrom == some 144000006, (lock 0 0 160000006).selState == 1,
      (after (.switchBuildOut (-3)) w).rf.buildOut == some (-3), (after (.switchBuildOut (-3)) w).loopBw == 3, (after (.switchBuildOut (-3)) w).tb.tick == 1600005,
      t.selState == 2, t.selected == 2, t.target == 3, t.tb.tick == 3200005, t.loopBw == t.get F.refsel0_loop_bw 0, t.get F.refst0_switch_count 0 == 1,
      selSettle (locked []) == locked []]) = true := by decide +kernel
theorem test_selector_steady : steady (locked []) := by
  refine ⟨by decide +kernel, by decide +kernel, fun h => absurd h (by decide +kernel), fun _ => by decide +kernel⟩
theorem test_wait_to_restore : ok (
    let s := (((locked []).put F.refsel0_revert 0 1).put F.refs_state 0 4).setRefx 0 { RefX.init with wtr := some 0 }
    let u := advanceTo s (s.get F.refsel0_wtr_s 0 * 1600000000)
    let t := after (.waitToRestoreExpiry 0) s
    [u.selMode == 0, u.selState == 2, u.refState u.selected == 4, u.revertTo == some 0, t.selState == 3, t.target == 0, t.selected == 1, t.rf.switchAt == some u.tb.tick,
      !t.rf.loopClosed, t.rf.osc.held.isSome]) = true := by decide +kernel
theorem test_ref_select : ok (
    let s := locked []
    let c := fun (w : Word) => cmd [w]
    let f := after (.refSelectForced (c 2#64)) s
    let a := after (.refSelectAuto (c 0#64)) s
    let h := after (.refSelectHoldover (c 0#64)) s
    let g := after (.refSelectForced (c 1#64)) s
    [accepts0 s (c 0#64) 0x20 1, a.selMode == 0, a.selState == 2, told a (c 0#64) 0x20 stOk 0 [], h.selState == 4, h.selMode == 2, told h (c 0#64) 0x20 stOk 0 [], h.rf.osc.held.isSome,
      h.flt.inflight.map (fun r => (r.source, r.cause)) == [(0x9003, 0x14)], g.selState == 2, g.selMode == 1, told g (c 1#64) 0x20 stOk 0 [], f.selState == 3, f.target == 2,
      (f.rf.sel.map fun p => p.started) == some true, (f.chan 0).op == 0x20, f.cmd.smpOut.isEmpty, told (after (.refSelectForced (c 0#64)) s) (c 0#64) 0x20 stBadParam 1 []]) = true := by decide +kernel
theorem test_ref_select_elsewhere : ok (
    let c := cmd [0#64]
    let sw := ((locked []).put F.refst0_sel_state 0 3).put F.refst0_target 0 2
    let t := after (.refSelectHoldover c) sw
    let ho := (((locked []).put F.refs_state 1 0).put F.refs_state 2 0).put F.refst0_sel_state 0 4
    [!sw.refLost sw.target, t.selState == 3, (t.rf.sel.map fun p => p.started) == some false, t.selMode == 0, ho.best ho.candidate == none, accepts0 ho c 0x20 1,
      told (after (.refSelectAuto c) ho) c 0x20 stOk 0 [], told (after (.refSelectHoldover c) ho) c 0x20 stOk 0 [], (after (.refSelectHoldover c) ho).selMode == 2]) = true := by decide +kernel
theorem test_time_set : ok (
    let s := up []
    let c := cmd [3#64, 0x1000#64]
    let t := after (.timeSet c) s
    let v := after .timeSetBoundary t
    [accepts0 s c 0x22 2, s.quiescent, (t.tb.step.map fun p => (p.atFull, p.newFull)) == some (4096, 3 * 2 ^ 54 + 4096), v.full == 3 * 2 ^ 54 + 4096,
      told v c 0x22 stOk 0 [3#64, 0x1000#64, 0x1000#64],
      told (after .timeSetBoundary (t.put F.chan_mode 0 1)) c 0x22 stBadParam 0 [], told (after (.timeSet c) (s.put F.chan_mode 0 1)) c 0x22 stBadParam 0 []]) = true := by decide +kernel
theorem test_pps_align : ok (
    let s := (up []).put F.refsel0_pps_en 0 1
    let c := cmd [0#64, 0x2000#64]
    let pol := decide (s.get F.refsel0_pps_pol 0 = 1)
    let m := after (.ppsAlignMeasure c) s
    let p := after (.ppsAlignStep c) s
    [accepts0 s c 0x23 2, m.rf.pps == some { cmd := c, step := false, full := 0x2000, deadline := 2400000000 }, told (after (.ppsEdge pol 0x1FF0) m) c 0x23 stOk 0 [0x1FF0#64, 0x10#64],
      ((after (.ppsEdge pol 0x1FF0) p).tb.step.map fun q => (q.atFull, q.newFull)) == some (0x3000, 0x3010),
      told (after .timeSetBoundary (after (.ppsEdge pol 0x1FF0) p)) c 0x23 stOk 0 [0x1FF0#64, 0x10#64], (after .timeSetBoundary (after (.ppsEdge pol 0x1FF0) p)).full == 0x3010, (after (.ppsEdge (!pol) 5) s).rf == s.rf,
      told (after .ppsAlignTimeout m) c 0x23 stTimeout 0 [], (after .ppsAlignTimeout m).tb.tick == 2400000000,
      told (after (.ppsAlignStep c) (s.put F.chan_mode 0 1)) c 0x23 stBadParam 0 []]) = true := by decide +kernel
theorem test_wrap : ok (
    let s := (up []).setFull (2 ^ 54 - 1)
    let t := after .coarseWrap s
    [t.tb.coarse == 0, t.tb.epoch == 1, s.enabledQueues == [0], (t.hq 0).incoming.isEmpty, (t.hq 0).epochDue == some (epochRec false 0 1 0 0), ((t.hq 0).take [single [5#64]]).incoming == [epochRec false 0 1 0 0, single [5#64]], ((t.hq 0).take [single [5#64]]).epochDue.isNone]) = true := by decide +kernel
theorem test_caravan_boundary : ok (
    let s := up [16, 0]
    let t := after (.caravanBoundary []) s
    let v := after (.caravanBoundary [(0, 1)]) s
    [t.full == 4096, t.coreOn 0, (mfind t.notices 0).map (·.1) == some 4096, t.flt == s.flt, v.tb.laneAdopt == [0],
      v.flt.inflight == [{ source := 0x8083, cause := 0x09, sub := 0, injected := false }], (mfind t.notices 0).map (·.2) == some (3584 * 1024),
      (after (.caravanBoundary []) v).tb.laneErr == [], (after (.caravanBoundary []) v).tb.laneAdopt == []]) = true := by decide +kernel

/-! ### Precision inputs and calibration -/

/-- Input 0 with comparator 0 enabled for channel 0, which is in mode 1, and slots 0 and 1 of its pool in service. -/
def timing : State :=
  ((((up [16, 27]).put F.pcmp_en 0 1).put F.chan_mode 0 1).put F.cala_state 0 3).put F.cala_state 1 3

/-- A stamp in the middle of tick 10. -/
def stamp10 : Stamp :=
  { edge := 1024000, time := some 10752, slot := 0, lead := true, pulse := .none, coarseOnly := true, disturbed := false, overdrive := false, merged := false }

theorem test_edge_is_held : ok (
    let s := timing
    let t := after (.comparatorTransition 0 true 1024050) s
    let held := (t.comp 0).held
    let none2 := (s.put F.cala_state 0 1).put F.cala_state 1 1
    let c := after (.comparatorTransition 0 true 1024050) none2
    [s.inputLive 0, s.selects 0 0 true == some true, s.freeSlot 0 1024050 == some 0, held.map (fun x => (x.edge, x.time, x.slot)) == [(1024050, none, 0)],
      mget [] (t.comp 0).slots 0 == [{ edge := 1024050, raw := 1024050, disturbed := false }], (t.comp 0).lastStamped == some 1024050, t.freeSlot 0 1024051 == some 1,
      (c.comp 0).held.map (fun x => (x.time, x.coarseOnly)) == [(some 10752, true)], none2.stampAt 0 10 8192 == 10752, c.get F.psta_coarse_only 0 == 1,
      ((after (.comparatorTransition 0 true (1024050 + 196607)) t).comp 0).held.length == 1, (after (.comparatorTransition 0 true (1024050 + 196607)) t).get F.psta_merged 0 == 1,
      ((after (.comparatorTransition 0 true (1024050 + 196608)) t).comp 0).held.length == 2, s.selects 1 0 true == none,
      (after (.comparatorTransition 1 true 1024050) s).comps == s.comps, !(up [16]).inputLive 0]) = true := by decide +kernel
theorem test_trailing_edge : ok (
    let s := timing.put F.pcmp_tot_en 0 1
    let a := after (.comparatorTransition 0 true 1024050) s
    let b := after (.comparatorTransition 0 false 2048050) a
    let l := after (.comparatorTransition 0 false 1024050) s
    [s.selects 0 0 false == some false, (a.comp 0).openPulse == some 1024050, (b.comp 0).openPulse == none,
      (b.comp 0).held.map (fun x => (x.edge, x.lead, x.pulse)) == [(1024050, true, .closed 2048050), (2048050, false, .none)], (l.comp 0).held.isEmpty, l.get F.pstb_late_trail 0 == 1]) = true := by
  decide +kernel
theorem test_stamp_release : ok (
    let s := timing.setComp 0 { Comp.init with held := [stamp10] }
    let u := advanceFull s (holdEnd 1024000)
    let t := after (.stampRelease 0) s
    let tr : Stamp := { stamp10 with edge := 2048000, time := some 20992, lead := false, disturbed := true }
    let p := timing.setComp 0 { Comp.init with held := [{ stamp10 with pulse := .closed 2048000 }, tr] }
    let q := after (.stampRelease 0) p
    let r := (timing.put F.refsel0_xmeas_en 0 1).setComp 120 { Comp.init with held := [stamp10] }
    let m := after (.stampRelease 120) r
    let hit := fun (s : State) => (mget [] s.anchorQ 0).map fun h => (h.chan, h.time, h.tot, h.flags)
    [u.pastHold 1024000, u.boundChanAt 0 10 == some 0, (s.comp 0).clear 1024000, !u.routed 0 10, (t.comp 0).held.isEmpty, hit t == [(0, 10752, 0, 4)],
      (p.comp 0).clear 2048000, (q.comp 0).held.isEmpty, hit q == [(0, 10752, 1280, 6)], r.routed 60 10, (m.comp 120).held.isEmpty, (mget RegSum.init m.rf.sums 0).n == 1]) = true := by
  decide +kernel
theorem test_over_rate_end : ok (
    let s := (timing.setComp 0 { Comp.init with lastRaw := some 1024000, run := 16 }).put F.pstb_over_rate_now 0 1
    let t := after (.overRateEnd 0) s
    [(t.comp 0).run == 0, t.get F.pstb_over_rate_now 0 == 0, t.tb.tick == 12]) = true := by decide +kernel
theorem test_conversion : ok (
    let tab : BinTable := { entries := [100, 200], hist := [], n := 0, d := 0, held := false, full := 0, atTick := 0 }
    let v0 : InConv := { edge := 1024000, raw := 1024000, disturbed := false }
    let b := timing.setComp 0 { Comp.init with held := [{ stamp10 with time := none, coarseOnly := false }], slots := [(0, [v0, { v0 with raw := 3000000 }])] }
    let s := b.setInterp 0 { b.interp 0 with inForce := some tab }
    let t := after (.conversionComplete 0 0 1 true) s
    let v := after (.conversionComplete 0 0 1 false) s
    let n := after (.conversionComplete 0 0 1 true) b
    let held := fun (s : State) => (s.comp 0).held.map fun x => (x.time, x.coarseOnly)
    [mget [] (s.comp 0).slots 0 == [v0, { v0 with raw := 3000000 }], (s.interp 0).tableFor 10 == some tab, mget 0 s.flt.awl (interpSource 0) == 0, t.tb.tick == 20,
      (t.comp 0).slots == [(0, [{ v0 with raw := 3000000 }])], held t == [(some 10253, false)], v.flt.inflight.map (fun r => (r.source, r.cause)) == [(0x1000, 0x02)],
      v.tb.tick == 21, held v == [(some 10752, true)], v.get F.psta_coarse_only 0 == 1, (b.interp 0).tableFor 10 == none, held n == [(some 10752, true)], n.flt.inflight.isEmpty]) = true := by
  decide +kernel
theorem test_over_rate_window : ok (
    let s := timing.setComp 0 { Comp.init with held := [stamp10], windows := [(0, { count := 300, overRate := true })] }
    let t := after (.overRateWindowEnd 0) s
    let l := after (.overRateWindowEnd 0) (timing.setComp 0 { Comp.init with held := [{ stamp10 with edge := 30000000, time := none }, stamp10], windows := [(0, { count := 20, overRate := true })] })
    [((s.comp 0).overWindow.map fun p => p.1) == some 0, (t.comp 0).windows.isEmpty, t.get F.pstb_over_rate_windows 0 == 1, (t.comp 0).held.isEmpty,
      (mget [] t.anchorQ 0).map (fun h => (h.time, h.overRate, h.transitions)) == [(0, true, 255)], t.full == 256, (l.comp 0).held.map (fun st => st.edge) == [30000000]]) = true := by
  decide +kernel
theorem test_overdrive : ok (
    let s := timing
    let t := after (.overdriveOnset 9 5) s
    let v := after (.overdriveEnd 9 25) t
    let w := after (.disturbedEnd 1) v
    [s.domOn 27, !s.flag F.pstb_overdrive_now 9, t.flag F.pstb_overdrive_now 9, t.flag (F.pstb_overdrive_now.at 1) 9, t.get F.pstb_overdrive_events 9 == 1, t.get (F.pstb_overdrive_events.at 1) 9 == 1,
      t.flag F.pstb_disturbed_now 15, t.pgroup 1 == { opened := true, toFull := none }, !v.flag F.pstb_overdrive_now 9, v.pgroup 1 == { opened := true, toFull := some 105 },
      (v.inp 9).overTo == some 25, w.pgroup 1 == { opened := false, toFull := some 105 }, !w.flag F.pstb_disturbed_now 8, w.full == 105,
      (after (.overdriveEnd 9 25) (after (.overdriveOnset 8 6) t)).pgroup 1 == { opened := true, toFull := none }]) = true := by decide +kernel
theorem test_pulse_timeout : ok (
    let s := timing.setComp 0 { Comp.init with held := [{ stamp10 with pulse := .opened }], openPulse := some 1024000 }
    let t := after (.totTimeout 0) s
    [(t.comp 0).openPulse.isNone, (t.comp 0).held.map (fun x => x.pulse) == [.timedOut]]) = true := by decide +kernel
theorem test_interval_timeout : ok (
    let a : IvEdge := { start := true, comp := 0, edge := 1024000, time := some 10752, flags := 2, merged := true, ended := false }
    let s := { timing with inputs := [(0, { overTo := none, armed := some a, wait := [] })] }
    let t := after (.intervalTimeout 0) s
    let next := fun (time : Int) => { timing with inputs := [(0, { overTo := none, armed := some a, wait := [{ a with edge := 90000000, time := some time }] })] }
    let w := after (.intervalTimeout 0) (next (10752 + 2 ^ 40))
    let g := after (.intervalTimeout 0) (next 10753)
    [(s.inp 0).armed == some a, (s.inp 0).wait.isEmpty, (t.inp 0).armed.isNone, t.get F.pstb_ival_timeouts 0 == 1,
      (mget [] t.anchorQ 0).map (fun h => (h.time, h.flags, h.merged, h.timeout)) == [(10752, 2, true, true)], ((w.inp 0).armed.map fun e => e.edge) == some 90000000,
      w.get F.pstb_ival_timeouts 0 == 1, (g.inp 0).armed.isNone, (g.inp 0).wait.isEmpty, g.get F.pstb_ival_timeouts 0 == 1]) = true := by
  decide +kernel
theorem test_sample : ok (
    let s := timing.put F.cala_state 513 3
    let l := (up [0]).put F.cala_state 512 3
    let p := s.setInterp 1 { s.interp 1 with pend := [{ full := 0, code := 7, live := false }, { full := 256, code := 8, live := false }, { full := 300, code := 9, live := true }] }
    let p := (p.setComp 0 { Comp.init with windows := [(1, { count := 20, overRate := true })] }).setFull 512
    let t := after (.randomSourceSample 1 1023 true) p
    let v := after (.randomSourceSample 512 1025 true) l
    [s.domOn (interpDomain 1), p.interpIdle 1, p.sourceUsed 1, (p.interp 1).need == none, (t.interp 1).pend == [{ full := 512, code := 1023, live := false }], (t.interp 1).n == 1,
      mget 0 (t.interp 1).hist 7 == 1, l.domOn (interpDomain 512), l.interpIdle 512, l.sourceUsed 512, decide ((l.interp 512).n < l.setSize 512), (v.interp 512).n == 1,
      mget 0 (v.interp 512).hist 1 == 1, (after (.randomSourceSample 1 3 false) s).flt.inflight.map (fun r => r.source) == [0x1001]]) = true := by decide +kernel
theorem test_table_install : ok (
    let tab : BinTable := { entries := [100, 200], hist := [], n := 0, d := 0, held := false, full := 4096, atTick := 0 }
    let s := timing.setInterp 1 { timing.interp 1 with waiting := some tab, inForce := some { tab with full := 1 } }
    let t := after (.tableInstall 1) s
    let v := after (.tableInstall 1) (s.put F.cala_state 1 2)
    let a := (s.setInterp 1 { timing.interp 1 with waiting := some { tab with aside := true } }).put F.cala_state 1 4
    [(t.interp 1).inForce == some { tab with atTick := 4096 }, (t.interp 1).waiting.isNone, (t.interp 1).prior == some { tab with full := 1 }, v.get F.cala_state 1 == 3,
      (s.interp 1).need == none, (after (.tableInstall 1) a).get F.cala_state 1 == 3, (after (.tableInstall 1) (s.put F.cala_state 1 4)).get F.cala_state 1 == 4]) = true := by decide +kernel
theorem test_lock : ok (
    let s := (timing.put F.cala_state 1 1).setInterp 1 { timing.interp 1 with lockAt := some 0 }
    let m : LockMeasure := { bias := 77, widths := List.replicate 16 1953 ++ List.replicate 16 1954 ++ List.replicate 8 2000, slowStage := 1, fastStage := 2, dacs := [5] }
    let t := after (.lockSettled 1 m) s
    let v := after (.lockTimeout 1) s
    [m.widths.length == 40, sumOver (fun i => m.widths.getD i 0) (s.interp 1).sel.taps == 62512, t.get F.cala_state 1 == 2, (t.interp 1).lockAt.isNone, (t.interp 1).bias == 77,
      (t.interp 1).widths == m.widths, (t.interp 1).sel.slowStage == 1, t.get F.calb_slow_stage 1 == 1, t.get F.calb_fast_stage 1 == 2, t.get F.calb_spares_used 1 == 0,
      !t.flag F.cala_dac_used 1, (after (.lockSettled 1 { m with widths := List.replicate 40 1956 }) s).get F.cala_state 1 == 1, v.get F.cala_state 1 == 1, v.tb.tick == 1600000,
      v.get F.calb_lock_count 1 == 1, v.flt.inflight == [{ source := 0x1001, cause := 0x0C, sub := 0, injected := false }]]) = true := by decide +kernel
theorem test_aside : ok (
    let old : Selection := { taps := upTo 4 32, slowStage := 1, fastStage := 1, dacs := [] }
    let tab : BinTable := { entries := [], hist := [], n := 0, d := 0, held := false, full := 4096, atTick := 0 }
    let s := (timing.put F.cala_state 1 4).put F.calg_aside_rate 0 0
    let s := s.setInterp 1 { s.interp 1 with prevSel := some old, n := 5, waiting := some { tab with aside := true }, inForce := some tab }
    let t := after (.asideAbandon 1) s
    let v := after (.asideReturn 1) t
    [(s.interp 1).abandonAt.isNone, decide (s.get F.calg_aside_rate 0 * 1000 ≤ s.liveEdges 0), (t.interp 1).abandonAt == some 0, (t.interp 1).sel == old, (t.interp 1).n == 0,
      (t.interp 1).waiting == none, t.get F.cala_state 1 == 4, (t.interp 1).need == none, v.get F.cala_state 1 == 3, (v.interp 1).inForce == some tab, v.tb.tick == 160]) = true := by decide +kernel
theorem test_sweep : ok (
    let s := timing
    let c := cmd [0x0001000000000000#64]
    let t := after (.calStartSweep c) s
    let v := after (.calSweepTimeout 0) t
    [calTargets s c 0x28 == [1], t.calOps == [{ cmd := c, recover := false, targets := [1], bad := 0, deadline := 16000000000 }], (t.interp 1).n == 0,
      told v c 0x28 stTimeout 0 [], v.calOps.isEmpty, (after (.calStartRecover c) s).get F.cala_state 1 == 1]) = true := by decide +kernel
theorem test_cal_status : ok (
    let s := timing
    let c := cmd [0x2000000000000004#64]
    [accepts s c 0x29 1, scopeTargets 1 0 == some [0, 1, 2, 3], (after (.calStatus c) s).cmd.smpOut.map (fun r => r.packets.map List.length) == [[9]]]) = true := by decide +kernel
theorem test_cal_lock : ok (
    let tab : BinTable := { entries := [], hist := [], n := 0, d := 0, held := false, full := 4096, atTick := 0 }
    let s := timing.setInterp 1 { timing.interp 1 with waiting := some tab }
    let c := cmd [0x0001000000000000#64]
    let t := after (.calLock c) s
    let v := after (.calLockRelease c) (freeChan t 0)
    let k := after (.calLockRelease c) ((timing.put F.cala_locked 2 1).put F.calc_locked 0 1)
    let held := fun (s : State) => (s.interp 1).waiting.map fun y => y.held
    [calTargets s c 0x2A == [1], did t s c 0x2A stOk 0 [], t.flag F.cala_locked 1, t.flag F.calc_locked 0, t.get F.cala_state 1 == 3, held t == some true, !v.flag F.cala_locked 1,
      held v == some false, !v.flag F.calc_locked 0, k.flag F.calc_locked 0, (k.interp 1).waiting == none]) = true := by decide +kernel
theorem test_cal_table_read : ok (
    let tab : BinTable := { entries := upTo 0 1024, hist := [], n := 0, d := 0, held := false, full := 4096, atTick := 0 }
    let s := timing.setInterp 1 { timing.interp 1 with inForce := some tab }
    let w := timing.setInterp 1 { timing.interp 1 with waiting := some tab }
    let c := cmd [0x0001000000000000#64]
    let out := fun (i : Instr) (s : State) => (after i s).cmd.smpOut.flatMap fun r => r.packets.flatMap fun p => p.drop 1
    [calTargets s c 0x2B == [1], (out (.calTableReadInForce c) s).length == 258, (out (.calTableReadInForce c) s).getD 1 0#64 == 4096#64,
      (out (.calTableReadInForce c) s).getD 2 0#64 == 0x0003000200010000#64, (out (.calTableReadInForce c) s).getD 257 0#64 == 0x03FF03FE03FD03FC#64,
      (out (.calTableReadWaiting c) w).take 3 == [0x002C000000000000#64, 0#64, 0x0003000200010000#64],
      told (after (.calTableReadWaiting c) s) c 0x2B stNoResource 0 [], told (after (.calTableReadInForce c) w) c 0x2B stNoResource 0 []]) = true := by decide +kernel

/-- What is measured beside a set in which nothing needs correcting. -/
def measured (span : Nat) : SetMeasure := { span := span, slowPeriod := 17000, meanDelay := 0, slow := [], fast := [], binsOk := true, dacs := none }
/-- A complete set of 1,024 samples whose counts are `h`, with `live` of them live samples of one code. -/
def fullSet (h : SMap Nat) (live : Nat) : State :=
  let s := ((timing.put F.calg_samples_log2 0 10).put F.calg_bin_trig 0 20).put F.calg_span_trig 0 31
  s.setInterp 1 { s.interp 1 with hist := h, n := 1024, liveHist := if live = 0 then [] else [(0, live)], liveN := live }

theorem test_set_rejected : ok (
    let s := fullSet [] 0
    let m := measured 61249
    let x := s.interp 1
    let y : BinTable := { entries := [], hist := x.hist, n := x.n, d := 0, held := false, full := 0, atTick := 0 }
    let t := after (.sampleSetComplete 1 m) s
    let b := after (.sampleSetComplete 1 m) (s.put F.cala_state 1 2)
    [decide (0 < x.n), decide (s.setSize 1 ≤ x.n), !s.correlated 1, plausible y m x.setStep none == 2, !s.needsCorrection x.hist x.n m,
      t.get F.cala_last_result 1 == 2, b.get F.cala_last_result 1 == 2, b.get F.cala_state 1 == 1, (b.interp 1).lockAt == some 0, (b.interp 1).n == 0, b.get F.calb_sets_rejected 1 == 1]) = true := by decide +kernel
theorem test_set_uneven : ok (
    let s := (fullSet [] 0).put F.calg_reject_limit 0 3
    let m := measured 62500
    let x := s.interp 1
    let y : BinTable := { entries := [], hist := x.hist, n := x.n, d := 0, held := false, full := 0, atTick := 0 }
    let t := after (.sampleSetComplete 1 m) s
    [plausible y m x.setStep none == 4, !s.needsCorrection x.hist x.n m, decide (x.rejRun + 1 < s.get F.calg_reject_limit 0), (t.interp 1).n == 0, (t.interp 1).waiting.isNone,
      t.get F.cala_state 1 == 3, t.get F.cala_last_result 1 == 4, t.get F.calb_sets_rejected 1 == 1, t.get F.cala_reject_run 1 == 1]) = true := by decide +kernel
theorem test_set_correlated : ok (
    let s := fullSet [(0, 1000), (5, 24)] 900
    let s := s.setInterp 1 { s.interp 1 with liveTaps := [(0, 900)] }
    let t := after (.sampleSetComplete 1 (measured 62500)) s
    [s.correlated 1, (t.interp 1).n == 124, (t.interp 1).liveN == 0, (t.interp 3).holdSets == 8, t.flag F.cala_live_rejected 0]) = true := by decide +kernel

/-- A histogram of one sample for each of `n` codes from `a`. -/
def flat : Nat → Nat → SMap Nat
  | 0, _ => []
  | n + 1, a => (a, 1) :: flat n (a + 1)

/-- A code of a flat histogram has one sample. -/
theorem flat_get (n a k : Nat) (h1 : a ≤ k) (h2 : k < a + n) : mget 0 (flat n a) k = 1 := by
  induction n generalizing a with
  | zero => omega
  | succ n ih =>
    unfold flat mget mfind
    by_cases h : a = k
    · simp [h]
    · simpa [h, mget] using ih (a + 1) (by omega) (by omega)

/-- Every code of the flat histogram of 1,024 samples has one. -/
theorem flat_codes (x : Nat) (h : x ∈ histList (flat 1024 0)) : x = 1 := by
  simp only [histList, upTo, List.mem_map, List.mem_range] at h
  obtain ⟨k, ⟨j, hj, rfl⟩, rfl⟩ := h
  exact flat_get 1024 0 _ (by omega) (by omega)

/-- A test that one sample fails, no code of the flat histogram passes. -/
theorem flat_any (p : Nat → Bool) (h : p 1 = false) : (histList (flat 1024 0)).any p = false := by
  rw [List.any_eq_false]
  intro x hx
  simp [flat_codes x hx, h]

/-- A test that one sample fails, no entry of the flat histogram passes. -/
theorem flat_all (n a : Nat) (p : Nat × Nat → Bool) (h : ∀ k, p (k, 1) = false) : (flat n a).any p = false := by
  induction n generalizing a with
  | zero => rfl
  | succ n ih => simp [flat, h, ih]

/-- Interpolator 1 in a calibration state with a complete set of one sample for each code, and a first set or none. -/
def evenSet (st : Nat) (first : Option BinTable) : State :=
  let s := ((((timing.put F.calg_samples_log2 0 10).put F.calg_bin_trig 0 20).put F.calg_span_trig 0 31).put F.cala_state 1 st).put F.calg_aside_en 0 1
  { (s.put F.cala_state 2 3).put F.cala_state 3 3 with interps := [(1, { Interp.init with hist := flat 1024 0, n := 1024, first := first })] }

theorem test_set_accepted :
    let m := measured 62500
    let y0 : BinTable := { entries := [], hist := [], n := 0, d := 0, held := false, full := 0, atTick := 0 }
    let y : BinTable := { entries := tableEntries (flat 1024 0) 1024 0, hist := flat 1024 0, n := 1024, d := 0, held := false, full := 0, atTick := 0 }
    ∀ e ∈ ([(3, none), (2, none), (2, some y0)] : List (Nat × Option BinTable)), let s := evenSet e.1 e.2
      let x := s.interp 1
      x.hist = flat 1024 0 ∧ x.n = 1024 ∧ x.first = e.2 ∧ s.get F.cala_state 1 = e.1 ∧ s.setSize 1 ≤ 1024 ∧ s.correlated 1 = false ∧
        plausible y m x.setStep (e.2.map (·, 6)) = 1 ∧ s.needsCorrection x.hist x.n m = false ∧ s.needsCorrection x.hist x.n { m with slowPeriod := 17981 } = true := by
  intro m y0 y e he s x
  have hx : x = { Interp.init with hist := flat 1024 0, n := 1024, first := e.2 } := rfl
  have h1 : s.get F.calg_span_trig 0 = 31 := by fin_cases he <;> decide +kernel
  have h2 : s.get F.calg_bin_trig 0 = 20 := by fin_cases he <;> decide +kernel
  refine ⟨by simp [hx], by simp [hx], by simp [hx], by fin_cases he <;> decide +kernel, by fin_cases he <;> decide +kernel, ?_, ?_, ?_, ?_⟩
  · have h : (s.interp 1).liveN = 0 := rfl
    simp [State.correlated, h]
  · have hp : ∀ a, a = none ∨ a = some (y0, 6) → plausible y m x.setStep a = 1 := by
      rintro a (rfl | rfl) <;> simp [plausible, flat_any, m, y, y0, measured, entryStep]
    fin_cases he <;> exact hp _ (by simp)
  · simp [State.needsCorrection, State.spanOk, h1, h2, hx, m, measured, flat_all]
  · simp [State.needsCorrection, m, measured]

theorem test_aside_choice : ok (
    let s := timing.put F.calg_span_trig 0 31
    let s := (((s.put F.calg_aside_en 0 1).put F.cala_state 2 3).put F.cala_state 3 3).setInterp 1 { s.interp 1 with widths := List.replicate 32 1953 ++ List.replicate 8 1956 }
    let m := { measured 62500 with slow := [18100, 17900, 17000, 16000], fast := [17950, 17839, 17000, 15000] }
    [s.asideAllowed 1, !s.flag F.cala_locked 1, s.correction 1 m == some { taps := [32] ++ upTo 1 31, slowStage := 1, fastStage := 1, dacs := [] },
      s.correction 1 { m with binsOk := false } == none, s.correction 1 { m with slow := [], dacs := some [3] } != none]) = true := by decide +kernel

/-! ### Lanes -/

/-- A capability block of rates 1 and 2, RS(528,514), width 1 and format 0, with partner_id 0x55, member 0 and an acknowledgement, of role `r`. -/
def capBlock (r : Nat) : Word :=
  let w := pack [(63, 56, 1), (55, 51, 6), (50, 49, 1), (48, 45, 1), (44, 43, 1), (40, 39, r), (38, 23, 0x55), (19, 19, 1)]
  w ||| BitVec.ofNat 64 (crc16 w)

/-- Lane 16 alone in its group, in state `st`, with what is behind it. -/
def lane16 (st : Nat) (x : LaneX) : State := (((up [0]).put F.lane_en 16 1).put F.lsa_state 16 st).setLane 16 x

/-- Lane 16 after its exchange, trying rate 2. -/
def trained : LaneX := { LaneX.init with cap := some (capBlock 1), capRun := 3, ackSeen := true, capDone := true, common := [2, 1], tryRate := 2 }

/-- The mode of a run of one at rate 2. -/
def mode2 : RunMode := { rate := 2, fec := 0, code := 0, pid := some 0x55 }

/-- Lane 16 UP as a run of one of its partner-facing group, at rate 2. -/
def link : State :=
  let s := (((lane16 5 trained).put F.lsa_rate 16 2).put F.grp_run_valid 16 1).put F.grp_run_first 16 16
  s.setGroup 16 { s.group 16 with passed := [16], mode := mode2 }

/-- Host-facing lane 0 UP as a run of one. -/
def hostUp : State :=
  let s := (((up [0]).put F.lsa_state 0 5).put F.grp_run_valid 0 1).put F.grp_run_first 0 0
  s.setGroup 0 { s.group 0 with passed := [0], mode := mode2 }

/-- A command of partition 0 on lane 0. -/
def onLane (ps : List Word) : Cmd := { cmd ps with lane := some 0 }

/-- The blocks that leave, with their content. -/
def blocks (s : State) : List (Nat × Nat × Nat) := s.out.filterMap fun o => match o with
  | .block l ty c => some (l, ty, c)
  | _ => none

/-- What leaves on host lanes: the lane and the words of each frame. -/
def hostFrames (s : State) : List (Nat × List Word) := s.out.filterMap fun o => match o with
  | .hostFrame l _ ws _ _ => some (l, ws)
  | _ => none

theorem test_lane_up_down : ok (
    let s := up [0]
    let c := cmd [16#64]
    let t := after (.laneUp c) s
    let v := after (.laneDown c) (freeChan t 0)
    let d := onLane [0#64]
    let w := after (.laneDown d) (hostUp.put F.lane_en 0 1)
    [accepts s c 0x30 1, laneOk s c 16, s.domOn (laneDomain 16), did t s c 0x30 stOk 0 [], t.flag F.lane_en 16, t.laneState 16 == 1, accepts (freeChan t 0) c 0x31 1,
      v.laneState 16 == 0, !v.flag F.lane_en 16, did v (freeChan t 0) c 0x31 stOk 0 [], told (after (.laneUp c) (up [])) c 0x30 stNoResource 0 [], accepts hostUp d 0x31 1, laneOk hostUp d 0,
      w.laneState 0 == 0, !w.flag F.lane_en 0, hostFrames w == [(0, [replyHeader 0x31 0 7 0 stOk 0 0])]]) = true := by decide +kernel
theorem test_lane_retrain : ok (
    let c := cmd [16#64]
    let t := after (.laneRetrain c) link
    let d := onLane [0#64]
    let w := after (.laneRetrain d) hostUp
    [accepts link c 0x32 1, laneOk link c 16, link.groupUp 16, noRequest link 16, link.laneState (link.linkLane 16) == 5, did t link c 0x32 stOk 0 [], t.out == [.block 16 0x69 (2 ^ 46)],
      ((t.group 16).req.map fun r => (r.kind, r.deadline)) == some (1, 16000000), told (after (.laneRetrain c) (up [0])) c 0x32 stLinkDown 0 [], accepts hostUp d 0x32 1,
      hostFrames w == [(0, [replyHeader 0x32 0 7 0 stOk 0 0])], blocks w == [(0, 0x69, 2 ^ 46)]]) = true := by decide +kernel
theorem test_lane_group : ok (
    let s := (up [0]).setGroup 16 { GroupX.init with isolated := true }
    let c := cmd [BitVec.ofNat 64 (1024 + 16)]
    let t := after (.laneGroupConfig c) s
    let w := after (.laneGroupWidth (cmd [16#64])) (freeChan t 0)
    let cut := after (.laneGroupConfig (cmd [17#64])) (freeChan t 0)
    [accepts0 s c 0x33 1, s.laneState 16 == 0, s.host 17 == s.host 16, did t s c 0x33 stOk 0 [], t.groupOf 17 == 16, t.groupWidth 16 == 2, t.get F.grp_width_lim 16 == 1,
      t.flag F.ltsb_isolated 17, w.get F.grp_width_lim 16 == 0, told (after (.laneGroupWidth (cmd [BitVec.ofNat 64 (2048 + 16)])) (freeChan t 0)) (cmd []) 0x33 stBadParam 1 [],
      cut.groupOf 16 == 16, cut.groupWidth 16 == 1, cut.groupOf 17 == 17]) = true := by decide +kernel
/-- A group of lanes 16 and 17 with lane 17 UP alone at rate 2; lane 16 passed that rate too where `both`. -/
def pair17 (both : Bool) : State :=
  let s := ((link.put F.grp_width_cfg 16 1).put F.grp_width_lim 16 1).put F.grp_run_first 16 17
  let one := setBits (setBits (capBlock 1) 22 20 1) 15 0 0
  let s := (s.put F.lsa_state 17 5).setLane 17 { trained with cap := some (setBits one 15 0 (crc16 one)) }
  let s := ((s.put F.lsa_state 16 6).put F.grp_width_cfg 17 1).put F.grp_member 17 1
  s.setGroup 16 { s.group 16 with passed := if both then [16, 17] else [], mode := mode2 }

theorem test_width_request : ok (
    let s := pair17 true
    let c := cmd [16#64]
    let w := s.put F.grp_width_lim 16 0
    let t := after (.laneGroupWidth c) s
    let n := pair17 false
    let v := after (.laneGroupWidth c) n
    let same := after (.laneGroupWidth c) link
    [accepts0 s c 0x33 1, s.groupUp 16, noRequest s 16, s.linkLane 16 == 17, w.chooseRun 16 (w.widthLanes 16) == some (16, 0), s.runLanes 16 == [17], t.get F.grp_width_lim 16 == 0,
      blocks t == [(17, 0x69, 2 * 2 ^ 46)], (n.put F.grp_width_lim 16 0).chooseRun 16 ((n.put F.grp_width_lim 16 0).widthLanes 16) == none, !v.groupUp 16, v.laneState 16 == 2, v.laneState 17 == 2,
      link.chooseRun 16 (link.widthLanes 16) == some (16, 0), did same (link.put F.grp_width_lim 16 0) c 0x33 stOk 0 [], same.groupUp 16]) = true := by decide +kernel
/-- The sequence of x^7 + x^6 + 1 from its all-ones state: 7 bits, and `n` more. -/
def prbs7 (n : Nat) : List Bool :=
  (List.range n).foldl (fun bs _ => bs ++ [xor (bs.getD (bs.length - 6) false) (bs.getD (bs.length - 7) false)]) (List.replicate 7 true)

/-- PAM4 symbols of a bit sequence: 00, 01, 11 and 10 are the levels 0 to 3. -/
def pam4 : List Bool → List Nat
  | a :: b :: rest => (if a then (if b then 2 else 3) else if b then 1 else 0) :: pam4 rest
  | _ => []

theorem test_lane_test : ok (
    let s := ((up [0]).put F.ltest_inject 16 3).put F.ltest_rx_pattern 16 1
    let c := cmd [16#64]
    let t := after (.laneTestStart c) s
    let bits := (prbs7 64).map b2n
    let v := after (.checkerLock 16 bits) t
    let p := after (.checkerLock 16 (pam4 (prbs7 65))) (t.put F.ltest_test_rate 16 2)
    let l := (t.put F.ltest_loopback 16 1).put F.ltest_tx_pattern 16 1
    let k := after (.checkerLock 16 bits) l
    let late := { k with tb := { k.tb with tick := 128 } }
    let r := after (.laneTestRead c) (freeChan late 0)
    let x := after (.laneTestStop c) (freeChan late 0)
    [accepts s c 0x34 1, laneOk s c 16, t.laneState 16 == 8, t.get F.ltb_injections 16 == 1, (prbs7 64).length == 71, v.flag F.lta_locked 16, v.bitsSinceLock 16 == 0, p.flag F.lta_locked 16,
      !(after (.checkerLock 16 (bits.set 70 0)) t).flag F.lta_locked 16 || !(after (.checkerLock 16 (bits.set 70 1)) t).flag F.lta_locked 16,
      !(after (.checkerLock 16 bits) (t.put F.ltest_loopback 16 1)).flag F.lta_locked 16, k.flag F.lta_locked 16, late.bitsSinceLock 16 == 825, r.get F.ltb_bits_checked 16 == 825,
      r.get F.lta_bit_errors 16 == 0, r.bitsSinceLock 16 == 0, r.laneState 16 == 8, x.laneState 16 == 0, !x.flag F.lta_locked 16, x.get F.ltb_bits_checked 16 == 825,
      did (after (.laneTestRead c) s) s c 0x34 stOk 0 [0#64, 0#64], did (after (.laneTestStop c) s) s c 0x34 stOk 0 [],
      told (after (.laneTestStart c) (freeChan t 0)) c 0x34 stBadParam 1 []]) = true := by decide +kernel
theorem test_checker : ok (
    let s := ((((up [0]).put F.lsa_state 16 8).put F.lta_locked 16 1).put F.ltest_inject 16 4).put F.ltest_burst_len 16 5
    let s := s.put F.ltest_period_log2 16 10
    let t := after (.checkerLockLoss 16 100 7) s
    let v := after (.errorInjection 16) (s.put F.ltest_loopback 16 1)
    [t.get F.ltb_bits_checked 16 == 100, t.get F.lta_bit_errors 16 == 7, t.get F.lta_sync_losses 16 == 1, !t.flag F.lta_locked 16, v.get F.ltb_injections 16 == 1, v.tb.tick == 159,
      (v.lane 16).injected == 1, v.injectAt 16 == 318, v.get F.lta_bit_errors 16 == 5, (after (.errorInjection 16) s).get F.lta_bit_errors 16 == 0]) = true := by decide +kernel
theorem test_signal : ok (
    let s := lane16 1 LaneX.init
    let t := after (.signalDetect 16) s
    [t.laneState 16 == 2, t.get F.lsa_rate 16 == 7, t.out.length == 1, (after (.signalLoss 16) t).laneState 16 == 1, t.span 16 == [16], link.runLanes 16 == [16], link.span 16 == [16],
      (after (.signalLoss 16) link).laneState 16 == 1, !(after (.signalLoss 16) link).groupUp 16]) = true := by decide +kernel
theorem test_capability : ok (
    let w := capBlock 1
    let q := setBits (setBits w 19 19 0) 15 0 0
    let q := setBits q 15 0 (crc16 q)
    let s := lane16 2 LaneX.init
    let a := after (.capabilityBlockReceive 16 w 0) s
    let b := after (.capabilityBlockReceive 16 w 0) a
    let t := after (.capabilityBlockReceive 16 w 0) b
    let v := after (.capabilityBlockReceive 16 (capBlock 2) 0) (lane16 2 { LaneX.init with cap := some (capBlock 2), capRun := 2, ackSeen := true })
    let n := after (.capabilityBlockReceive 16 q 0) (lane16 2 { LaneX.init with cap := some q, capRun := 2 })
    let m := after (.capabilityBlockReceive 16 w 0) n
    [capValid w, capValid q, (a.lane 16).capRun == 1, (b.lane 16).capRun == 2, commonRates w == [2, 1], capRole w == 1, capMember w == 0, t.laneState 16 == 3, t.get F.lsa_rate 16 == 2,
      t.get F.lsa_partner_id 16 == 0x55, t.trains 16, t.out.length == 3, v.laneState 16 == 1, v.flag F.lsa_role_mismatch 16, v.get F.lsc_cap_fails 16 == 1, n.laneState 16 == 2,
      (n.lane 16).capRun == 3, n.get F.lsa_partner_id 16 == 0x55, m.laneState 16 == 3]) = true := by decide +kernel
theorem test_capability_timeout : ok (
    let t := after (.capExchTimeout 16) (lane16 2 LaneX.init)
    [t.laneState 16 == 1, t.get F.lsc_cap_fails 16 == 1, t.tb.tick == 160000000]) = true := by decide +kernel
theorem test_lref : ok (
    let s := lane16 1 LaneX.init
    let t := after (.lrefPresent 0) { (lane16 0 LaneX.init) with lref := [(0, 1)] }
    let l := after (.lrefLoss 0) s
    [t.laneState 16 == 1, t.laneState 17 == 0, t.lref.isEmpty, l.laneState 16 == 0, mget 0 l.lref 0 == 1,
      l.flt.inflight.contains { source := 0x8084, cause := 0x08, sub := 0, injected := false }]) = true := by decide +kernel
theorem test_training : ok (
    let s := lane16 3 trained
    let r := after (.receiversReady 16) s
    let t := after (.prbsWindowEnd 16 0 0) r
    let f := after (.trainingNotReady 16) s
    let last := after (.trainingNotReady 16) (lane16 3 { trained with tryRate := 1 })
    [s.trains 16, (r.lane 16).ready, Nat.testBit (capWidths (capBlock 1)) 0, s.memberOk 16 16 (s.refPid 16), t.laneState 16 == 4, t.get F.lsa_rate 16 == 2,
      (t.group 16).nextRun == some (16, 0), (t.group 16).passed == [16], f.laneState 16 == 3, f.get F.lsa_rate 16 == 1, f.tb.tick == 800000000,
      last.laneState 16 == 1, last.get F.lsc_train_fails 16 == 1]) = true := by decide +kernel
theorem test_training_of_two : ok (
    let s := (lane16 3 trained).put F.grp_width_cfg 16 1
    let s := ((s.put F.grp_member 17 1).put F.lsa_state 17 3).setLane 17 trained
    [s.span 16 == [16, 17], s.trains 17, ((after (.trainingNotReady 16) s).lane 16).result == some false,
      ((after (.prbsWindowEnd 16 0 0) (s.setLane 16 { trained with ready := true })).lane 16).result == some true,
      ((after (.prbsWindowEnd 16 1 0) (s.setLane 16 { trained with ready := true, tryRate := 4 })).lane 16).result == some true]) = true := by decide +kernel
theorem test_alignment : ok (
    let s := (lane16 4 trained).setGroup 16 { GroupX.init with nextRun := some (16, 0), passed := [16], mode := mode2 }
    let a := after (.alignmentMarkerReceive 16 0 9 0 0) s
    let b := after (.alignmentMarkerReceive 16 0 10 0 7) a
    [(a.lane 16).mkCount == some 9, (a.lane 16).mkSeen == 1, (a.lane 16).locked, b.laneState 16 == 5, b.groupUp 16, b.runLanes 16 == [16],
      (b.group 16).period == { marks := [], since := 7, bad := 0 }]) = true := by decide +kernel
/-- The period a group is receiving. -/
def atPeriod (s : State) (marks : List (Nat × Nat × Bool)) (bad : Nat) : State :=
  s.setGroup 16 { s.group 16 with period := { marks := marks, since := 0, bad := bad } }

/-- Lanes 16 and 17 UP as one run. -/
def pairUp : State :=
  let s := (pair17 true).put F.grp_run_first 16 16
  (s.put F.lsa_state 16 5).setGroup 16 { s.group 16 with mode := { mode2 with code := 1 } }

theorem test_markers_in_up : ok (
    let one := markTicks 2
    let s := atPeriod link [] 0
    let t := after (.alignmentMarkerReceive 16 0 10 128 one) s
    let v := after (.alignmentMarkerReceive 16 0 10 129 one) s
    let bad := after (.alignmentMarkerReceive 16 1 10 0 one) s
    let third := after (.alignmentMarkerReceive 16 1 10 0 one) (atPeriod link [] 2)
    let late := after (.alignmentMarkerReceive 16 0 10 0 (4 * one)) s
    let p := atPeriod pairUp [] 0
    let half := after (.alignmentMarkerReceive 16 0 10 0 one) p
    let whole := after (.alignmentMarkerReceive 17 1 10 0 one) half
    let again := after (.alignmentMarkerReceive 16 0 11 0 (2 * one)) half
    let lost := after (.alignmentMarkerReceive 16 0 11 0 (2 * one)) (half.setGroup 16 { half.group 16 with period := { (half.group 16).period with bad := 2 } })
    [one == 32567, link.runLanes 16 == [16], (t.group 16).period == { marks := [], since := one, bad := 0 }, t.get F.grp_skew_max 16 == 160, t.laneState 16 == 5, v.laneState 16 == 4, !v.groupUp 16,
      v.get F.grp_align_losses 16 == 1, (bad.group 16).period == { marks := [], since := one, bad := 1 }, bad.groupUp 16, !third.groupUp 16, !late.groupUp 16, pairUp.runLanes 16 == [16, 17],
      (half.group 16).period == { marks := [(16, 10, true)], since := one, bad := 0 }, (whole.group 16).period == { marks := [], since := one, bad := 0 },
      (again.group 16).period == { marks := [(16, 11, true)], since := 2 * one, bad := 1 }, !lost.groupUp 16, lost.laneState 17 == 4, lost.get F.grp_align_losses 17 == 1]) = true := by decide +kernel
theorem test_marker_send : ok (
    let x := link.setLane 16 { trained with sent := 1023 }
    let a := (lane16 4 trained).setGroup 16 { GroupX.init with nextRun := some (16, 0), mkTx := 5 }
    let w := link.setGroup 16 { link.group 16 with nextRun := some (16, 0) }
    let v := after (.alignmentMarkerSend 16) w
    let r := pairUp.put F.lsa_state 16 10
    [blocks (after (.alignmentMarkerSend 16) link) == [(16, 0x0F, 0)], fillerDue x 16 1 == [.block 16 0x1E 0], blocks (after (.alignmentMarkerSend 16) x) == [(16, 0x1E, 0), (16, 0x0F, 0)],
      blocks (after (.alignmentMarkerSend 16) a) == [(16, 0x0F, 5 * 2 ^ 37)], ((after (.alignmentMarkerSend 16) link).group 16).mkTx == 1, !v.groupUp 16, v.laneState 16 == 4,
      blocks (after (.alignmentMarkerSend 16) r) == [(17, 0x0F, 2 ^ 53)]]) = true := by decide +kernel
theorem test_align_timeout : ok (
    let s := (lane16 4 trained).setGroup 16 { GroupX.init with mode := mode2 }
    let t := after (.alignTimeout 16) s
    let v := after (.alignTimeout 16) (s.setGroup 16 { GroupX.init with mode := { mode2 with rate := 0 } })
    [s.memberOk 16 16 (s.refPid 16), t.laneState 16 == 7, t.trains 16, t.get F.lsb_retrains 16 == 1, (t.group 16).retrains == [1600000], t.tb.tick == 1600000, v.laneState 16 == 2]) = true := by
  decide +kernel
theorem test_blocks : ok (
    let s := lane16 4 { LaneX.init with locked := true, invalid := 1 }
    let t := after (.blockReceive 16 true false none) (lane16 2 LaneX.init)
    let bad := lane16 2 { LaneX.init with headers := List.replicate 31 true, locked := true }
    let v := after (.blockReceive 16 false false none) bad
    let u := after (.blockReceive 16 true false none) s
    let d := after (.blockReceive 16 true false (some (pack [(63, 56, 0x33)]))) (lane16 4 { LaneX.init with locked := true })
    [(t.lane 16).headers == [false], (t.lane 16).locked, !(t.group 16).badBlock, v.get F.lsb_lock_losses 16 == 1, (v.lane 16).headers.isEmpty, !(v.lane 16).locked, held 64000000 == 32,
      (u.lane 16).invalid == 0, (u.group 16).badBlock, (d.group 16).distrust == 1, !s.host 16]) = true := by decide +kernel
theorem test_codewords : ok (
    let s := (lane16 4 trained).put F.lsa_fec 16 1
    let t := after (.codewordDecode 16 7 true 5) s
    let v := after (.codewordDecode 16 8 true 5) s
    [(after (.codewordDecode 16 0 true 5) s).tb.tick == 5, (after (.codewordDecode 16 0 false 5) s).get F.lsb_lock_losses 16 == 1, t.get F.lsb_fec_corrected 16 == 1, t.laneState 16 == 4,
      v.get F.lsb_fec_uncorr 16 == 1, (v.lane 16).ucw == [5], (v.lane 16).invalid == 80]) = true := by decide +kernel
theorem test_link_requests : ok (
    let w : Word := BitVec.ofNat 64 (7 * 2 ^ 48 + 2 * 2 ^ 46 + 2 ^ 44 + 2 ^ 41)
    let may : Word := BitVec.ofNat 64 (7 * 2 ^ 48 + 2 * 2 ^ 46)
    let re : Word := BitVec.ofNat 64 (7 * 2 ^ 48 + 2 ^ 46)
    let r : LinkReq := { rn := 7, kind := 1, width := 0, first := 0, deadline := 9, crossed := false }
    let mine := link.setGroup 16 { link.group 16 with req := some r }
    let t := after (.linkRequestReceive 16 w) mine
    let third := after (.linkRequestReceive 16 w) (link.setGroup 16 { link.group 16 with req := some r, crossedRun := 2 })
    let a := after (.linkRequestReceive 16 may) link
    let b := after (.linkRequestReceive 16 re) (link.put F.lane_retrain_limit 16 1)
    let no := after (.linkResponseReceive 16 may) mine
    let yes := after (.linkResponseReceive 16 re) (link.setGroup 16 { link.group 16 with req := some { r with kind := 2 } })
    let late := after (.linkRequestTimeout 16) mine
    [(after (.linkRequestReceive 16 w) link).out == [.block 16 0x96 (7 * 2 ^ 48 + 2 * 2 ^ 46)], link.runOk 16 (link.widthLanes 16) 16 0, blocks a == [(16, 0x96, 7 * 2 ^ 48 + 2 ^ 46)],
      (a.group 16).nextRun == some (16, 0), (blocks b).contains (16, 0x96, 7 * 2 ^ 48 + 2 ^ 46), !b.groupUp 16, (b.group 16).retrains == [0], b.get F.lsb_retrains 16 == 1,
      t.out == [.block 16 0x96 (7 * 2 ^ 48 + 3 * 2 ^ 46)], t.get F.lsc_crossings 16 == 1, (t.group 16).crossedRun == 1, third.laneState 16 == 9, (no.group 16).req.isNone, no.groupUp 16,
      (yes.group 16).nextRun == some (16, 0), !late.groupUp 16, late.laneState 16 == 2]) = true := by decide +kernel
theorem test_lane_retire : ok (
    let s := up [0]
    let c := cmd [16#64]
    let t := after (.laneRetire c) s
    let few := (List.range 24).foldl (fun s l => s.put F.lsa_state (256 * (l / 8) + l % 8 + 256) 10) s
    [accepts0 s c 0x35 1, laneOk s c 16, s.span 16 == [16], !s.groupUp 16, did t s c 0x35 stOk 0 [], t.laneState 16 == 10, t.flag F.fsa_retired 16, t.flt.toRecord == [retireEntry 16 0 0],
      decide (8 < s.hostLanes), (after (.laneRetire (cmd [0#64])) s).laneState 0 == 10, few.hostLanes == 8, told (after (.laneRetire (cmd [0#64])) few) (cmd []) 0x35 stBadParam 1 []]) = true := by decide +kernel

/-! ### Partner time and transactions -/

/-- A table of lane 16's interpolator: code 7 is 300 fine LSB. -/
def laneTab : BinTable := { entries := List.replicate 7 0 ++ [4800], hist := [], n := 0, d := 0, held := false, full := 0, atTick := 0 }

/-- The link of lane 16 with timing on, its interpolator in TRACK with a table in force, and its model in state `st`. -/
def timed (st : Nat) (m : Model) : State :=
  let s := ((((link.put F.ltc_timing_en 16 1).put F.lsa_echo 16 1).put F.cala_state 528 3).put F.ltsb_mstate 16 st).setModel 16 m
  s.setInterp 528 { s.interp 528 with inForce := some laneTab }

/-- A pair of unit slope. -/
def pairAt (k : Nat) : Pair := { u := 16000 * k, d := 16000 * k + 320, t4 := 1000 * k }

/-- A beacon and its echo, exact. -/
def bn3 : Beacon := { bn := 3, t1 := 1024, coarse := false, sent := 1 }
/-- The echo of `bn3`. -/
def echo3 : Echo := { beacon := bn3, t2 := 5000, t4 := 4096, coarse := false }
/-- A model that waits for the follow-up of `bn3`. -/
def waits : Model := { Model.init with beacons := [bn3], echoes := [echo3] }
/-- The follow-up of `bn3`, t3 − 5000 fine LSB after its echo. -/
def follow (t3 : Nat) : Word := BitVec.ofNat 64 (3 * 2 ^ 48 + t3)
/-- The pair of that exchange. -/
def pair3 : Pair := { u := 88000, d := 40960, t4 := 4096 }
/-- The line on which that pair lies, and one 40,960 beside it. -/
def onLine (x : Model) (d : Int) : Model := { x with fitted := true, u := 88000, d := d }

theorem test_lane_stamps : ok (
    let s := timed 1 Model.init
    [stampOf s 16 102400 7 true == some (1324, false), stampOf s 16 102400 7 false == some (1536, true), stampOf (s.put F.cala_state 528 1) 16 102400 7 true == some (1536, true),
      stampOf (s.setModel 16 { Model.init with busyUntil := 102401 }) 16 102400 7 true == some (1536, true), stampOf (s.setModel 16 { Model.init with busyUntil := 102400 }) 16 102400 7 true == some (1324, false),
      stampOf (s.setInterp 528 Interp.init) 16 102400 7 true == some (1536, true)]) = true := by decide +kernel
theorem test_beacon : ok (
    let old : Beacon := { bn := 9, t1 := 0, coarse := false, sent := 0 }
    let s := timed 1 { Model.init with nextBn := 255, prevT1 := 77 }
    let t := after (.beaconSend 16 102400 7 true) s
    let far := timed 1 { Model.init with beacons := [old, { old with bn := 10, sent := 1 }], echoes := [{ beacon := old, t2 := 0, t4 := 0, coarse := false }], nextBn := 9 }
    let v := after (.beaconSend 16 (163841 * 102400) 7 true) far
    let two := (pairUp.put F.ltc_timing_en 16 1).put F.ltc_timing_en 17 1
    let w := after (.beaconSend 17 102400 7 false) two
    [s.sendsBeacons 16, (advanceTo s 1).beaconDue 16, ((t.model 16).beacons.map fun b => (b.bn, b.coarse, b.sent)) == [(255, false, 1)],
      (t.model 16).nextBn == 0, blocks t == [(16, 0x3C, 255 * 2 ^ 48 + 77)], (t.model 16).beaconAt == 1, s.beaconLane 16 == some 16, (t.group 16).beacons == 1,
      !t.beaconDue 16, (after (.beaconSend 16 (3 * 102400) 7 true) t).out == t.out, !(advanceTo s 1000).beaconDue 16, (after (.beaconSend 16 102400000 7 true) s).out.isEmpty,
      ((v.model 16).beacons.map (·.bn)) == [10, 9], (v.model 16).echoes.isEmpty, v.get F.ltsc_exch_lost 16 == 1, two.beaconLane 16 == some 16, (w.model 17).nextBn == 1, (w.group 16).beacons == 0,
      (blocks (after (.beaconSend 16 102400 7 true) (s.put F.ltc_timing_en 16 0))).isEmpty]) = true := by decide +kernel
theorem test_second_beacon : ok (
    let s := timed 1 Model.init
    let s := s.setGroup 16 { s.group 16 with beacons := 1 }
    let q := s.setTxn 0 { Txn.init with st := .quarantine, quar := 1, group := 16 }
    let d := s.setTxn 0 { Txn.init with st := .done, quar := 1, group := 16 }
    let r := s.setTxn 0 { Txn.init with st := .retryWait, group := 16, op := 1, len := 2, addr := 8 }
    let run := after (.beaconSend 16 102400 7 true)
    let v := run r
    [(run q).txn 0 == Txn.init, (run d).txn 0 == { Txn.init with st := .done, group := 16 }, blocks (run q) == [(16, 0x3C, 0)], (v.txn 0).st == .retrying, (v.txn 0).mate == some 1,
      (v.txn 1).st == .outstanding, (v.txn 1).isRetry, (v.txn 1).mate == some 0, (v.txn 1).addr == 8, (v.txn 1).len == 2]) = true := by decide +kernel
theorem test_echo : ok (
    let s := timed 1 { Model.init with beacons := [bn3] }
    let w : Word := BitVec.ofNat 64 (3 * 2 ^ 48 + 5)
    let t := after (.echoReceive 16 w 204800 7 true) s
    let again := after (.echoReceive 16 (w + 1) 8192000 7 true) t
    let late := after (.echoReceive 16 w (163842 * 102400) 7 true) s
    let e := fun (v : State) => (v.model 16).echoes.map fun e => (e.beacon.bn, e.t2, e.coarse)
    [!s.host 16, (s.runLanes (s.groupOf 16)).contains 16, e t == [(3, 5, false)], e again == [(3, 6, false)], (again.model 16).beacons == [bn3],
      late.get F.ltsd_late_echo 16 == 1, (late.model 16).beacons == [bn3], e (after (.echoReceive 16 w (163841 * 102400) 7 true) s) == [(3, 5, false)],
      e (after (.echoReceive 16 w 204800 7 false) s) == [(3, 5, true)]]) = true := by decide +kernel
theorem test_follow_up : ok (
    let f := (timed 1 waits).put F.ltc_fit_log2 16 6
    let t := after (.echoFollowUpReceive 16 (follow 6000)) f
    let back := after (.echoFollowUpReceive 16 (follow 4999)) f
    let long := after (.echoFollowUpReceive 16 (follow 8073)) f
    let coarse := after (.echoFollowUpReceive 16 (follow 6000)) ((timed 2 { waits with echoes := [{ echo3 with coarse := true }], window := [pairAt 1] }))
    let slow := after (.echoFollowUpReceive 16 (follow 16389001)) ((timed 2 { waits with echoes := [{ echo3 with t4 := 17000000 }] }))
    let seen := after (.echoFollowUpReceive 16 (follow 6000)) ((timed 1 { waits with lastT2 := some (2 ^ 40, 0) }))
    [(t.model 16).window == [pair3], t.get F.ltsb_mstate 16 == 1, (t.model 16).echoes.isEmpty, (t.model 16).beacons.isEmpty, (t.model 16).lastT2 == some (5000, 1024), (t.model 16).lastAccept == some 0,
      back.get F.ltsc_exch_lost 16 == 1, (back.model 16).window.isEmpty, long.get F.ltsc_exch_lost 16 == 1, coarse.get F.ltsc_exch_lost 16 == 1, (coarse.model 16).window == [pairAt 1],
      coarse.get F.ltsb_mstate 16 == 2, slow.get F.ltsc_exch_lost 16 == 1, (seen.model 16).lastT2 == some (2 ^ 40 + 5000, 1024)]) = true := by decide +kernel
theorem test_follow_up_in_valid : ok (
    let limit := fun (s : State) => s.put F.ltc_step_limit 16 1
    let s := limit (timed 2 (onLine waits 40960))
    let t := after (.echoFollowUpReceive 16 (follow 6000)) s
    let due := after (.echoFollowUpReceive 16 (follow 6000)) (limit (timed 2 (onLine { waits with sinceFit := 4095, window := [pairAt 1] } 40960)))
    let far := limit (timed 2 (onLine waits 0))
    let u := after (.echoFollowUpReceive 16 (follow 6000)) far
    [!decide (s.stepLimit 16 < ((s.model 16).resid pair3).natAbs), t.get F.ltsb_mstate 16 == 2, (t.model 16).window == [pair3], (t.model 16).fitDue == none, (t.model 16).sinceFit == 1,
      (due.model 16).fitDue == some [pair3] || (due.model 16).fitDue == some [pairAt 1, pair3], (due.model 16).sinceFit == 0, decide (far.get F.ltc_step_limit 16 * 1024 < ((far.model 16).resid pair3).natAbs),
      u.get F.ltsb_mstate 16 == 3, (u.model 16).held == [pair3], (u.model 16).window.isEmpty]) = true := by decide +kernel
theorem test_follow_up_in_suspect : ok (
    let limit := fun (s : State) => s.put F.ltc_step_limit 16 1
    let held := List.replicate 15 { pair3 with u := 87999 }
    let back := after (.echoFollowUpReceive 16 (follow 6000)) (limit (timed 3 (onLine { waits with held := [pair3] } 40960)))
    let s := limit (timed 3 (onLine { waits with held := held } 0))
    let t := after (.echoFollowUpReceive 16 (follow 6000)) s
    [back.get F.ltsb_mstate 16 == 2, (back.model 16).held.isEmpty, back.get F.ltsc_outliers 16 == 1, held.all fun q => decide (0 ≤ (s.model 16).resid q) == decide (0 ≤ (s.model 16).resid pair3),
      t.get F.ltsb_mstate 16 == 2, (t.model 16).window == held ++ [pair3], (t.model 16).held.isEmpty, t.get F.ltsc_steps 16 == 1]) = true := by decide +kernel
theorem test_follow_up_in_resume : ok (
    let limit := fun (s : State) => s.put F.ltc_step_limit 16 1
    let t := after (.echoFollowUpReceive 16 (follow 6000)) (limit (timed 5 (onLine { waits with held := List.replicate 15 pair3 } 40960)))
    let v := after (.echoFollowUpReceive 16 (follow 6000)) (limit (timed 5 (onLine { waits with window := [pairAt 1] } 0)))
    [(t.model 16).held.isEmpty, t.get F.ltsb_mstate 16 == 2, (v.model 16).window.isEmpty, v.get F.ltsb_mstate 16 == 1]) = true := by decide +kernel
theorem test_first_fit : ok (
    let x : Model := { waits with window := (upTo 0 63).map pairAt }
    let t := after (.echoFollowUpReceive 16 (follow 6000)) ((timed 1 x).put F.ltc_fit_log2 16 6)
    [(t.model 16).fitted, (t.model 16).window.length == 64, t.get F.ltsb_mstate 16 == 2]) = true := by decide +kernel
theorem test_fit : ok (
    let s := timed 2 { Model.init with fitDue := some [pairAt 0, pairAt 1, pairAt 2] }
    let t := after (.modelFitComplete 16) s
    [(t.model 16).u == 32000, (t.model 16).d == 32320, (t.model 16).fitted, (t.model 16).fitDue.isNone, t.get F.ltsa_offset 16 == 20, t.get F.ltsb_mstate 16 == 2]) = true := by decide +kernel
theorem test_model_timeouts : ok (
    let s := timed 1 { Model.init with enteredAt := 5 }
    let t := after (.acquireTimeout 16) s
    let v := after (.suspectTimeout 16) (timed 3 { Model.init with enteredAt := 5, fitted := true, window := [pairAt 0] })
    let w := timed 2 { Model.init with lastAccept := some 3, fitted := true, window := [pairAt 0] }
    let a := after (.halfWrapLimit 16) w
    let n := after (.halfWrapLimit 16) (w.put F.ltc_timing_en 16 0)
    [t.get F.ltsb_mstate 16 == 1, (t.model 16).enteredAt == 16000005, v.get F.ltsb_mstate 16 == 1, (v.model 16).window.isEmpty, (v.model 16).fitted, v.tb.tick == 160005,
      (a.model 16).window.isEmpty, a.get F.ltsb_mstate 16 == 1, w.timed 16, n.get F.ltsb_mstate 16 == 0, !(n.model 16).fitted]) = true := by decide +kernel
theorem test_acquire_empties : ok (
    let f : IFrame := { seq := 0, words := [pack [(63, 63, 1)]], hits := 3, arrival := 0, stage := 0, rewinds := 0, all := [], reread := false, fit := none, mark := none, lost := 0, sheds := [], p64 := true }
    let s := (timed 1 Model.init).setIng 16 { Ingress.init with frames := [f] }
    let u := advanceTo s 16000000
    let t := after (.acquireTimeout 16) s
    [u.modelLane 16 == none, (u.runLanes 16).head? == some 16, (t.ing 16).frames.isEmpty, markCount f.p64 f.words == 1, t.get F.qia_drops 16 == 4]) = true := by decide +kernel
theorem test_partner_read_write : ok (
    let c := cmd [BitVec.ofNat 64 (16 * 2 ^ 54 + 2 * 2 ^ 46 + 0x100)]
    let w := { c with params := c.params ++ [1#64, 2#64] }
    let t := after (.partnerRead c) link
    let v := after (.partnerWrite w) link
    let start := frameStart 0 2 0
    let sent := fun (ws : List Word) => [Out.frame 16 start ws (frameEnd start ws) (link.group 16).dealt]
    [mayAsk link c 16 2 0x100 0, mayAsk link w 16 2 0x100 0, accepts link c 0x38 1, accepts link w 0x39 3, did t link c 0x38 stOk 0 [0#64], did v link w 0x39 stOk 0 [0#64],
      (t.txn 0).st == .outstanding, (t.txn 0).addr == 0x100, noFill t.out == sent [requestWord 0 1 2 0x100], noFill v.out == sent [requestWord 0 2 2 0x100, 1#64, 2#64],
      (t.txn 0).deadline == link.get F.ltc_txn_timeout 16 * 160000]) = true := by decide +kernel
theorem test_txn_status : ok (
    let c := cmd [4095#64]
    let x : Txn := { Txn.init with st := .done, group := 16, stat := 0, data := [9#64] }
    let s := link.setTxn 4095 x
    let q := after (.partnerTxnStatus c) (link.setTxn 4095 { x with quar := 2 })
    let l := after (.partnerTxnStatus c) (link.setTxn 4095 { x with quar := 1 })
    [accepts s c 0x3A 1, (after (.partnerTxnStatus c) s).txn 4095 == Txn.init, told (after (.partnerTxnStatus c) s) c 0x3A stOk 0 [pack [(63, 61, TxnState.done.code), (39, 32, 1)], 9#64],
      told (after (.partnerTxnStatus c) link) c 0x3A stBadParam 1 [], (q.txn 4095).st == .quarantine, (q.txn 4095).deadline == link.get F.ltc_txn_timeout 16 * 160000, (l.txn 4095).st == .quarantine,
      ((after (.partnerTxnStatus c) (s.setTxn 4095 { x with st := .outstanding })).txn 4095).st == .outstanding]) = true := by decide +kernel
theorem test_txn_response : ok (
    let s := link.setTxn 5 { Txn.init with st := .outstanding, group := 16, op := 1, len := 1, isRetry := true, mate := some 4 }
    let s := s.setTxn 4 { Txn.init with st := .retrying, group := 16, op := 1, len := 1, mate := some 5 }
    let f := frameOf 3 [BitVec.ofNat 64 (5 * 2 ^ 52 + 2 ^ 50 + 2 ^ 42 + 7 * 2 ^ 34), 9#64]
    let t := after (.txnResponseReceive 16 f) s
    let bad := after (.txnResponseReceive 16 { f with crc := f.crc + 1 }) s
    let cut := after (.txnResponseReceive 16 f) (s.setLane 16 { s.lane 16 with invalid := 1 })
    [s.groupUp 16, frameOk (frameBlocks s 16 f).2 [1, 3], (t.txn 5).st == .done, (t.txn 5).data == [9#64], (t.txn 5).pstatus == 7, (t.txn 4).st == .done, (t.txn 4).data == [9#64],
      (after (.txnResponseReceive 16 f) link).get F.ltsd_unsolicited 16 == 1, bad.get F.ltsd_frames_bad 16 == 1, bad.txns == s.txns, cut.get F.ltsd_frames_bad 16 == 1,
      (cut.txn 5).st == .outstanding]) = true := by decide +kernel
theorem test_txn_timeouts : ok (
    let s := fun (x : Txn) => link.setTxn 5 { x with group := 16, deadline := 100 }
    let o := after (.txnTimeout 5) (s { Txn.init with st := .outstanding })
    let r := after (.retryWaitTimeout 5) ((s { Txn.init with st := .retryWait }).put F.grp_run_valid 16 0)
    let d := after (.doneTimeout 5) (s { Txn.init with st := .done })
    let q := fun k => after (.doneTimeout 5) (s { Txn.init with st := .done, quar := k })
    let e := after (.quarantineTimeout 5) (s { Txn.init with st := .quarantine, quar := 2 })
    [(o.txn 5).st == .done, (o.txn 5).stat == stTimeout, (o.txn 5).quar == 2, (o.txn 5).deadline == 160000100, (r.txn 5).stat == stOutcomeUnknown, d.txn 5 == Txn.init,
      d.tb.tick == 100, ((q 1).txn 5).st == .quarantine, ((q 2).txn 5).st == .quarantine, e.txn 5 == Txn.init]) = true := by decide +kernel

/-! ### Lane ingress, the Saddle and the merge -/

/-- A frame of hit words. -/
def hitFrame (ws : List Word) : Frame := frameOf 1 ws

/-- A P64 low-threshold hit of local channel `l` at partner time `u`, 7 in its time over threshold, coarse. -/
def hitWord (l u : Nat) : Word := pack [(63, 62, 1), (61, 44, l), (43, 14, u), (13, 2, 7), (1, 1, 0), (0, 0, 1)]

/-- A frame in a lane ingress queue. -/
def inQueue (n st : Nat) (ws : List Word) : IFrame :=
  { seq := n, words := ws, hits := ws.length, arrival := 8192000, stage := st, rewinds := 0, all := [], reread := false, fit := none, mark := none, lost := 0, sheds := [], p64 := true }

/-- The UP group of lane 16 under P64, whose map takes local channels 100 to 109 to channels 20 to 29 of logical tile 0, channel 25 in mode 1. -/
def feed : State :=
  let s := ((link.put F.pws_pstate 16 3).put F.lsa_fmt_p64 16 1).setWord 2 2 16 (pack [(63, 63, 1), (62, 45, 100), (44, 26, 10), (22, 0, 20)])
  (s.put F.chan_mode 25 1).setFull 8192

/-- A hit on its way to a tile. -/
def anyHit (c t : Nat) : THit :=
  { chan := c, time := t, tot := 7, flags := 0, merged := false, overRate := false, timeout := false, transitions := 0, src := 16, frame := 3, mirage := 0, ref := 0 }

theorem test_hit_frame_receive : ok (
    let f := hitFrame [hitWord 105 1, hitWord 0 2, 0#64]
    let t := after (.hitFrameReceive 16 f false 40) feed
    let h : IFrame := { inQueue 0 0 f.words with hits := 2, arrival := (8192 + 40) * 1024 }
    let full := feed.setIng 16 { Ingress.init with frames := [inQueue 0 0 (List.replicate 128 0#64)], next := 1, wp := 128 }
    let u := after (.hitFrameReceive 16 f false 40) (full.put F.qic_erg_quota 16 0)
    let b := after (.hitFrameReceive 16 { f with crc := f.crc + 1 } false 40) feed
    let some120 := feed.setIng 16 { Ingress.init with frames := [inQueue 0 0 (List.replicate 120 0#64)], next := 1, wp := 120 }
    let two := after (.hitFrameReceive 16 f true 40) some120
    let v := after (.hitFrameReceive 16 f true 40) full
    [feed.groupUp 16, !feed.host 16, (t.ing 16).frames == [h], (t.ing 16).next == 1, (t.ing 16).wp == 3, t.get F.qia_drops 16 == 0, u.get F.qia_drops 16 == 2, u.get F.qib_overrun_hits 16 == 2,
      u.flag F.qia_ovr_quota 16, u.flag F.qia_overrun 16, !u.flag F.qia_ovr_bw 16, (u.ing 16).frames == (full.ing 16).frames, (u.ing 16).wp == 128, b.ingress == feed.ingress, b.get F.ltsd_frames_bad 16 == 1,
      (two.ing 16).frames.length == 2, decide ((full.ing 16).lines 3 ≤ full.ingCapacity 16), v.flag F.qia_ovr_bw 16, !v.flag F.qia_ovr_quota 16, v.get F.qib_overrun_hits 16 == 2, (v.ing 16).frames == (full.ing 16).frames]) = true := by decide +kernel
theorem test_frame_commit : ok (
    let f := { inQueue 3 1 [hitWord 105 1, hitWord 0 2] with all := [0, 2], lost := 1 }
    let s := feed.setIng 16 { Ingress.init with frames := [f, inQueue 4 1 []], next := 5 }
    let t := after (.frameCommit 16) s
    [s.acked 16 f, !s.heldAtB 16 f, (t.ing 16).frames == [inQueue 4 1 []], t.get F.qia_drops 16 == 1, t.toTile == [(linkOf 0 16, [(linkKey 0 16, .token 16 3), (linkKey 2 16, .token 16 3)])],
      after (.frameCommit 16) (toTile s 2 16 (.hit (anyHit 25 9))) == toTile s 2 16 (.hit (anyHit 25 9))]) = true := by decide +kernel
theorem test_conversion_none : ok (
    let f := inQueue 3 0 [hitWord 105 1]
    let s := feed.setIng 16 { Ingress.init with frames := [f], next := 4 }
    let t := after (.hitConversion 16 1 false) s
    let bad := fun (v : State) => after (.hitConversion 16 1 true) v
    let one := bad s
    let two := bad one
    let valid := bad ((s.put F.ltsb_mstate 16 2).setIng 16 { Ingress.init with frames := [{ f with reread := true }], next := 4 })
    [s.fitFor 16 f == none, s.runLanes 16 == [16], s.get F.ltsb_mstate 16 == 0, t.get F.qia_drops 16 == 1, t.get F.qib_ecc_corr 16 == 1, (t.ing 16).frames.isEmpty, t.toTile == s.toTile,
      (one.ing 16).frames == [{ f with reread := true }], one.get F.qia_drops 16 == 0, (two.ing 16).frames.isEmpty, two.get F.qia_drops 16 == 1, two.get F.qis_frames_ecc 16 == 1,
      two.get F.qib_ecc_corr 16 == 2, valid.get F.qis_frames_ecc 16 == 1, (valid.ing 16).frames.isEmpty]) = true := by decide +kernel
theorem test_pause_repeat : ok (
    let x : Ingress := { Ingress.init with pausing := true, repeatAt := 100 }
    let s := ((feed.put F.qic_pause_hold 16 5).put F.qic_press_en 16 1).setIng 16 x
    let p := s.put F.qia_paused 16 1
    let t := after (.pauseRepeat 16) p
    let v := after (.pauseRepeat 16) s
    let start := frameStart 0 4 0
    let sent := fun (op : Nat) => let ws := [pack [(63, 56, op), (55, 40, 5)]]; [Out.frame 16 start ws (frameEnd start ws) (s.group 16).dealt]
    [p.flag F.qic_press_en 16, noFill t.out == sent 1, t.ing 16 == { x with repeatAt := 6500 }, t.tb.tick == 100, !s.pressed 16, noFill v.out == sent 2, !(v.ing 16).pausing]) = true := by decide +kernel
theorem test_hit_conversion : ok (
    let f := inQueue 3 0 [hitWord 105 131000]
    let s := (feed.put F.ltsb_mstate 16 2).setIng 16 { Ingress.init with frames := [f], next := 4 }
    let t := after (.hitConversion 16 0 false) s
    let h := { anyHit 25 131000 with flags := 4 }
    let far := after (.hitConversion 16 0 false) (s.setIng 16 { Ingress.init with frames := [inQueue 3 0 [hitWord 105 9000000]], next := 4 })
    let w48 : Word := BitVec.ofNat 64 (2 ^ 46 + 105 * 2 ^ 30 + 32750 * 64 + 31 * 2 + 1)
    let g48 := { inQueue 3 0 [w48] with p64 := false }
    let dual := ((s.put F.lsa_dual_thr 16 1).put F.chan_mode 26 1).setIng 16 { Ingress.init with frames := [{ g48 with words := [w48 <<< 16, 0#64] }], next := 4 }
    let v := after (.hitConversion 16 0 false) dual
    [s.fitFor 16 f == some Model.init, frameWords true f.words == [(hitWord 105 131000).toNat], wordKind true (hitWord 105 131000).toNat == 1, s.mapChan 16 105 127 == some 25, s.modeAt 25 127 == 1, !s.chanGone 25 127, s.domOn 16,
      s.shedLevel 16 0 == 0, t.toTile == [(linkOf 0 16, [(linkKey 0 16, .hit h)])], t.get F.qia_drops 16 == 0, (t.ing 16).frames.map (fun r => (r.seq, r.stage, r.all, r.lost)) == [(3, 1, [0], 0)],
      (mget [] far.toTile (linkOf 0 16)).map (fun x => match x.2 with | .hit h => h.mirage | _ => 9) == [1],
      frameWords false [w48 <<< 16, 0#64] == [w48.toNat] || (frameWords false [w48 <<< 16, 0#64]).head? == some w48.toNat, wordKind false w48.toNat == 1,
      (mget [] v.toTile (linkOf 0 16)).map (fun x => match x.2 with | .hit h => (h.chan, h.time, h.tot, h.flags) | _ => (0, 0, 0, 0)) == [(26, 131000, 4095, 0)]]) = true := by decide +kernel
theorem test_tile_arrival_commit : ok (
    let h := anyHit 25 (8192 * 1024 + 5)
    let s := toTile feed 0 16 (.hit h)
    let t := after (.tileHitArrival 0 16) s
    let v := toTile t 0 16 (.token 16 3)
    let w := after (.commitToken 0 16 false) v
    let x := after (.commitToken 0 16 false) (v.setTile 0 { v.tile 0 with k0 := 3 })
    let behind := after (.commitToken 0 16 false) (v.setTile 0 { v.tile 0 with marks := [(16, h.time)] })
    let ahead := toTile (toTile t 2 16 (.hit (anyHit 25 9))) 0 16 (.token 16 3)
    let e := after (.commitToken 0 16 true) ahead
    let m := after (.tileHitArrival 0 16) (toTile feed 0 16 (.marker 16 3 9))
    let p := { h with src := 1024, frame := 0 }
    let a := after (.tileHitArrival 0 1024) { feed with anchorQ := [(0, [p])] }
    let off := after (.tileHitArrival 0 1024) (({ feed with anchorQ := [(0, [p])] } : State).setTile 0 { Tile.init with k0 := 3 })
    [t.tile 0 == { Tile.init with prov := [.hit h], buf := 1 }, t.toTile.isEmpty, v.k0 0 == 0, w.tile 0 == { Tile.init with hits := [h] }, w.get F.chst_hits 25 == 1,
      w.toTile.isEmpty, (x.tile 0).hits.isEmpty, (x.tile 0).buf == 0, x.get F.tma_wadi_hits 0 == 1, (behind.tile 0).hits.isEmpty, behind.get F.tma_mirage_hits 0 == 1, (after (.commitToken 0 16 false) ahead) == ahead,
      e.tile 0 == { Tile.init with hits := [h] }, mget [] e.toTile (linkOf 0 16) == [(linkKey 2 16, .hit (anyHit 25 9))], (m.tile 0).prov == [.marker 16 3 9], (m.tile 0).buf == 0, (a.tile 0).hits == [p], a.get F.chst_hits 25 == 1,
      a.anchorQ.isEmpty, off.get F.tma_wadi_hits 0 == 1]) = true := by decide +kernel
theorem test_frame_rewind : ok (
    let f := fun (n r : Nat) => { inQueue n 1 [hitWord 105 1] with all := [0], rewinds := r }
    let s := feed.setIng 16 { Ingress.init with frames := [f 2 0, f 3 2, f 4 0], next := 5 }
    let t := after (.frameRewind 16 1 0x3000) s
    let u := after (.frameRewind 16 1 0x3000) (s.setIng 16 { s.ing 16 with frames := [f 2 0, f 3 3, f 4 0] })
    [!isSource 0x3000, (t.ing 16).frames.map (fun h => (h.seq, h.stage, h.rewinds)) == [(2, 1, 0), (3, 0, 3), (4, 0, 1)], t.get F.gmrg_replays 16 == 2,
      (u.ing 16).frames.map (fun h => h.seq) == [2, 4], u.get F.gmrg_replay_lost 16 == 1, u.get F.qia_drops 16 == 1]) = true := by decide +kernel
theorem test_shed_level : ok (
    let s := fun (n v : Nat) => ((feed.put F.tmc_shed_hi 0 3).put F.tmc_shed_lo 0 2).setTile 0 { Tile.init with buf := n, frontier := v, lastLevel := some 1000 }
    let t := after (.shedLevelChange 0) (s 384 4195304)
    let d := after (.shedLevelChange 0) ((s 256 4195304).put F.tmd_shed_level 0 2)
    [t.get F.tmd_shed_level 0 == 1, t.tile 0 == { (s 384 4195304).tile 0 with lastLevel := some 4195304, levels := [(4195304, 1)] }, sameIn (s 384 0) t [wkey 4 5 0], d.get F.tmd_shed_level 0 == 1,
      after (.shedLevelChange 0) (s 384 4195303) == s 384 4195303, after (.shedLevelChange 0) (s 383 4195304) == s 383 4195304,
      mget 0 (after (.linkShed 3 4 true) feed).links 28 == 1, (after (.linkShed 3 4 true) feed).links.length == 1]) = true := by decide +kernel
theorem test_boundary_notice : ok (
    let s := ({ feed with notices := [(0, 9000, 8500000)] } : State).setTile 5 { Tile.init with notice := 4, frontier := 7, marks := [(1024, 3)] }
    let t := after (.boundaryNotice 5) s
    [t == { s with tiles := t.tiles }, (t.tile 5).notice == 9000, mget 0 (t.tile 5).marks 1024 == 8500000, (t.tile 5).frontier == 9216000]) = true := by decide +kernel
theorem test_caravan_close : ok (
    let x : Tile := { Tile.init with hits := [anyHit 25 5000, anyHit 25 4194304], frontier := 4194303 }
    let fed := (feed.put F.gmrg_wait_en 16 1).setGroup 16 { feed.group 16 with markerUp := true, waitFrom := some 0 }
    let s := fed.setTile 0 { x with marks := [(16, 4194303)] }
    let t := after (.caravanClose 0 false) s
    let w := fed.setTile 0 { x with marks := [(16, 4194302)] }
    let limit := 4194304 + fed.get F.tmc_close_timeout 0 * 1638400
    let l := fed.setTile 0 { x with marks := [(16, 4194302)], frontier := limit }
    let v := after (.caravanClose 0 false) l
    [s.canClose 0, s.waitedFor 0 0 == [16], t.k0 0 == 1, (t.tile 0).hits == [anyHit 25 4194304], t.get F.tmd_late_closes 0 == 0, after (.caravanClose 0 false) w == w,
      v.k0 0 == 1, v.get F.tmd_late_closes 0 == 1, (t.hq 0).hits.length == 1]) = true := by decide +kernel
theorem test_host_caravan_close : ok (
    let q := fun (t c : Nat) => ({ caravan := 0, time := t, chan := c, words := [BitVec.ofNat 64 c] } : QHit)
    let s := ((feed.put F.chan_mode 26 1).setTile 0 { Tile.init with k0 := 1 }).setHq 0 { HQueue.init with hits := [q 9 25, q 5 26, q 5 25], carried := true, nextK := some 0 }
    let t := after (.hostCaravanClose 0) s
    let r := (t.hq 0).incoming
    [s.queueEn 0, !s.gatesWait 0 0, !s.segsWait 0 0, !s.candsWait 0 0, s.queueTiles 0 0 == [0], t == { s with hqs := t.hqs }, r.length == 5,
      (r.drop 1).take 3 == ([25, 26, 25].map fun c => { words := [BitVec.ofNat 64 c], first := false, last := false, seg := none }), r.map (fun e => e.first) == [true, false, false, false, false],
      r.map (fun e => e.last) == [false, false, false, false, true], (r.head?.bind fun e => e.words.head?) == some (pack [(63, 60, 2), (53, 0, 0)]), (t.hq 0).nextK == some 1,
      (t.hq 0).seq == 1, after (.hostCaravanClose 0) feed == feed]) = true := by decide +kernel
theorem test_tile_retire : ok (
    let c := cmd [3#64]
    let u := feed
    let t := after (.tileRetire c) u
    let r : Remap := { cmd := some c, full := none, fault := false, state := 1, phys := 16 }
    let gone := feed.put F.tileMap_state 3 2
    let busy := feed.setTile 9 { Tile.init with remap := some r }
    let second := after (.tileRetire c) (feed.put F.tileMap_state 9 1)
    [accepts0 u c 0x61 1, !u.tileGone 3 u.full, u.domOn (tileDomain 3), !u.remapping 3, (t.tile 3).remap == some r, t.flag F.fsa_retired (physSource 0 0 3),
      t.flt.toRecord == [retireEntry (physSource 0 0 3) 0 0], (t.chan 0).op == 0x61, t.cmd.smpOut.isEmpty, ((second.tile 3).remap.map fun r => (r.state, r.phys)) == some (2, 31),
      gone.tileGone 3 gone.full, told (after (.tileRetire c) gone) c 0x61 stRetired 0 [], busy.remapping 3, told (after (.tileRetire c) busy) c 0x61 stNoResource 0 []]) = true := by decide +kernel
theorem test_tile_remap : ok (
    let c := cmd [3#64]
    let r : Remap := { cmd := some c, full := none, fault := false, state := 1, phys := 16 }
    let s := feed.setTile 3 { Tile.init with remap := some r }
    let t := after (.tileRemapAccept 3) s
    let b := after (.tileRemapBoundary 3) t
    let z := after (.tileRemapBoundary 3) (t.setTile 3 { Tile.init with remap := some { r with full := some 12288, state := 2, phys := 31 } })
    let h := after (.heldRetirementRemap 3) (feed.setTile 3 { Tile.init with held := true })
    [told t c 0x61 stOk 0 [12288#64], t.flag F.tmd_remap_pending 3, (t.tile 3).remap == some { r with full := some 12288, cmd := none }, sameIn s t [wkey 4 5 3],
      b.get F.tileMap_state 3 == 1, b.get F.tileMap_phys 3 == 16, !b.flag F.tmd_remap_pending 3, (b.tile 3).remap == none, b.full == 12288, (b.tile 3).dead == none,
      b.cmd.prev == [(wkey 4 0 3, { old := resetWord 4 0 3, full := 12288, cinch := none })], (z.tile 3).dead == some 12288, sameIn t b [wkey 4 0 3, wkey 4 5 3],
      !(h.tile 3).held, ((h.tile 3).remap.map fun r => (r.fault, r.full, r.cmd, r.state, r.phys)) == some (true, none, none, 1, 16),
      h.full == 8192, (after (.heldRetirementRemap 4) (b.setTile 4 { Tile.init with held := true })).full == 16384]) = true := by decide +kernel

/-! ### Statistics, triggers and segments -/

/-- Channel 25 in mode 3 on profile 1 of partition 0 at full count 9,000, its tile powered. -/
def counting : State :=
  ((((up [0, 16]).put F.chan_mode 25 3).put F.chan_gate_prof 25 1).put F.gprof_length 1 4096).setFull 9000

theorem test_gate_start_command : ok (
    let c := cmd [BitVec.ofNat 64 (2 ^ 60 + 3), 0#64]
    let t := after (.statsGateStart c) counting
    let e := { c with params := [BitVec.ofNat 64 (2 ^ 60), BitVec.ofNat 64 17192] }
    let v := after (.statsGateStart e) counting
    let l := { c with params := [BitVec.ofNat 64 (2 ^ 60), BitVec.ofNat 64 17191] }
    [accepts counting c 0x48 2, did t counting c 0x48 stOk 0 [20480#64], t.get F.gsta_gstate 1 == 1, t.get F.gsta_gates_left 1 == 3, !t.flag F.gsta_continuous 1,
      t.get F.gstb_start 1 == 20480, t.gateList 1 == [{ no := 0, s := 20480, len := 0 }], sameIn counting t [wkey 8 1 1, wkey 8 2 1, counts 0],
      did v counting e 0x48 stOk 0 [17192#64], v.flag F.gsta_continuous 1, told (after (.statsGateStart l) counting) l 0x48 stBadParam 2 []]) = true := by decide +kernel
theorem test_gate_stop : ok (
    let c := cmd [BitVec.ofNat 64 (2 ^ 60)]
    let w := (counting.put F.gsta_gstate 1 1).setGates 1 [{ no := 4, s := 0, len := 4096 }, { no := 0, s := 12288, len := 0 }]
    let r := ((counting.put F.gsta_gstate 1 2).put F.gsta_continuous 1 1).setGates 1 [{ no := 4, s := 8192, len := 4096 }]
    let t := after (.statsGateStop c) w
    let v := after (.statsGateStop c) r
    [accepts w c 0x48 1, did t w c 0x48 stOk 0 [], t.get F.gsta_gstate 1 == 0, t.gateList 1 == [{ no := 4, s := 0, len := 4096 }], did v r c 0x48 stOk 0 [],
      v.get F.gsta_gstate 1 == 3, v.flag F.gsta_continuous 1, v.gateList 1 == r.gateList 1, sameIn r v [wkey 8 1 1, counts 0],
      did (after (.statsGateStop c) counting) counting c 0x48 stOk 0 []]) = true := by decide +kernel
theorem test_gate_begins : ok (
    let w := ((counting.put F.gsta_gstate 1 1).put F.gsta_gates_left 1 2).setGates 1 [{ no := 0, s := 12288, len := 0 }]
    let t := after (.gateStart 0 1) w
    let v := after (.gateStart 0 1) t
    let e := after (.gateStart 0 1) v
    [t.full == 12288, t.get F.gsta_gstate 1 == 2, t.get F.gsta_gate_no 1 == 0, t.get F.gsta_gates_left 1 == 1, (t.gateList 1).getLast? == some { no := 0, s := 12288, len := 4096 },
      v.full == 16384, v.get F.gsta_gate_no 1 == 1, v.get F.gsta_gates_left 1 == 0, (v.gateList 1).getLast? == some { no := 1, s := 16384, len := 4096 },
      e.full == 20480, e.get F.gsta_gstate 1 == 0]) = true := by decide +kernel

/-- A gate of profile 1 that has ended, with two edges of channel 25 in it, 1,000 fine LSB apart. -/
def ended : State :=
  let g : Gate := { no := 6, s := 4096, len := 4096 }
  let a : Acc := { Acc.start 4096 none with prof := 1, n := 2, t1 := 1200, t2 := 1100 }
  let s := (counting.setTile 0 { Tile.init with k0 := 2 }).setGates 1 [g]
  { s with accs := [(25, [a])] }

theorem test_gate_complete : ok (
    let g : Gate := { no := 6, s := 4096, len := 4096 }
    let t := after (.gateComplete 0 0 1) ended
    let w := mget [] t.lastStats 25
    let none0 := { ended with accs := [], lastStats := [(25, [9#64])] }
    let wait := ((ended.put F.chan_phase_mode 25 2).put F.chan_phase_ref 25 (64 * 16384)).put F.pws_pstate 17 3
    let far := wait.put F.pws_pstate 17 0
    [ended.dueGate 0 1 == some g, ended.gateChans 0 1 g == [25], ended.refOf 25 g == none, ended.queueEn 0, (ended.accOf 25 1 g).n == 2, t.gateIsDone 0 1 g,
      w == statsWords ended 25 1 g, w[5]? == some (BitVec.ofNat 64 (1000 * 2 ^ 20)), w[6]? == some (BitVec.ofNat 64 (100 * 2 ^ 20)), w[1]? == some (pack [(63, 32, 6), (31, 0, 2)]),
      (t.hq 0).place.map (fun p => p.recs.length) == [2], (mget [] (after (.gateComplete 0 0 1) none0).lastStats 25).isEmpty, wait.refOf 25 g == some (64 * 16384),
      wait.refReady (chanTile (64 * 16384)) g == !wait.domOn (tileDomain (chanTile (64 * 16384))), far.refReady (chanTile (64 * 16384)) g == !far.domOn (tileDomain (chanTile (64 * 16384))),
      (after (.gateComplete 0 0 1) far).gateIsDone 0 1 g == far.refReady (chanTile (64 * 16384)) g]) = true := by decide +kernel
theorem test_stats_read : ok (
    let c := cmd [25#64]
    let t := after (.gateComplete 0 0 1) ended
    let r := ended.setTile 0 { Tile.init with k0 := 1 }
    [accepts t c 0x49 1, !t.chanGone 25 t.full, t.statsOn 25 t.full, did (after (.statsReadLast c) t) t c 0x49 stOk 0 (mget [] t.lastStats 25),
      told (after (.statsReadLast c) ended) c 0x49 stNoResource 0 [],
      did (after (.statsReadRunning c) r) r c 0x49 stOk 0 [pack [(63, 32, 6), (31, 0, 2)], 1200#64, 0#64, 1100#64], t.runningGate 25 == none,
      did (after (.statsReadRunning c) t) t c 0x49 stOk 0 [0#64, 0#64, 0#64, 0#64], told (after (.statsReadLast c) (up [0, 16])) c 0x49 stBadParam 1 []]) = true := by decide +kernel
theorem test_even_train : ok (
    let x := fun (n a p : Nat) => ({ Acc.start 0 none with n := n, t1 := sumOver (fun i => a + i * p) (upTo 0 n), t2 := sumOver (fun i => i * (a + i * p)) (upTo 0 n) } : Acc)
    [gateP (x 7 123456 98765) == 98765 * 2 ^ 20, gateAField (x 7 123456 98765) == 123456 * 2 ^ 20, (x 7 123456 98765).fits, gateP (x 2 5 (2 ^ 44 - 1)) == (2 ^ 44 - 1) * 2 ^ 20,
      gateAField (x 2 (2 ^ 43 - 1) 0) == (2 ^ 43 - 1) * 2 ^ 20, gateP (x 3 9 0) == 0]) = true := by decide +kernel

/-- Definition 2 of partition 0 with quotas and an Oasis. -/
def quotas : State := (((((up [0, 16]).put F.segp_desc_quota 0 4).put F.segp_buf_quota 0 2).put F.segg_oasis_gib 0 1).put F.trig_rearm 2 100).setFull 9000

theorem test_trig_arm : ok (
    let c := cmd [BitVec.ofNat 64 (2 * 2 ^ 61 + 5)]
    let d := cmd [BitVec.ofNat 64 (2 * 2 ^ 61)]
    let t := after (.trigArm c) quotas
    let a := after (.armBoundary 0 2) t
    let v := after (.trigDisarm d) (freeChan a 0)
    let z := after (.disarmBoundary 0 2) v
    [accepts quotas c 0x40 1, did t quotas c 0x40 stOk 0 [20480#64], t.get F.trsa_tstate 2 == 1, t.get F.trsa_left 2 == 5, (t.tdef 0 2).wins == [{ start := 20480 * 1024, stop := none, left := some 5 }],
      sameIn quotas t [wkey 6 3 2, counts 0], told (after (.trigArm c) (quotas.put F.segp_buf_quota 0 0)) c 0x40 stNoResource 0 [],
      a.get F.trsa_tstate 2 == 2, a.full == 20480, did v (freeChan a 0) d 0x41 stOk 0 [28672#64], v.get F.trsa_tstate 2 == 3,
      (v.tdef 0 2).wins == [{ start := 20480 * 1024, stop := some (28672 * 1024), left := some 5 }], a.get F.trsa_left 2 == 5, z.get F.trsa_tstate 2 == 0, z.get F.trsa_left 2 == 0, z.full == 28672,
      did (after (.trigDisarm d) quotas) quotas d 0x41 stOk 0 [20480#64]]) = true := by decide +kernel
/-- A window from a time on, with no end. -/
def openWin (at_ : Nat) : ArmWin := { start := at_, stop := none, left := none }

theorem test_trig_force_and_pin : ok (
    let c := cmd [BitVec.ofNat 64 (2 * 2 ^ 61), 0#64]
    let later := cmd [BitVec.ofNat 64 (2 * 2 ^ 61), BitVec.ofNat 64 (9001 * 1024)]
    let s := (((quotas.put F.trsa_tstate 2 2).put F.trig_force_src 2 1).put F.trig_tin_mask 2 0x10).setTdef 0 2 { TDef.init with wins := [openWin (4096 * 1024)] }
    let t := after (.trigForce c) s
    let f := s.put F.trigg_tin_filter 0 3
    let p := after (.trigInEdge 4 7 4 true) f
    let q := after (.trigInEdge 5 7 4 true) f
    let short := after (.trigInEdge 4 7 3 true) f
    let back := after (.trigInEdge 4 12 1 false) p
    let pair := after (.trigInEdge 5 8 4 true) (after (.trigInEdge 4 7 4 true) (f.put F.trig_tin_mask 2 0x30))
    let low := after (.trigInEdge 4 7 3 true) (f.put F.trigg_tin_pol 0 0x10)
    [accepts s c 0x42 2, did t s c 0x42 stOk 0 [BitVec.ofNat 64 (9000 * 1024)], (t.tdef 0 2).cands == [{ time := 9000 * 1024, source := 0, chan := 0, miss := false }],
      did (after (.trigForce later) s) s later 0x42 stOk 0 [BitVec.ofNat 64 (9001 * 1024)], p.tb.tick == 10,
      (p.tdef 0 2).cands == [{ time := 9007 * 1024, source := 12, chan := 0, miss := false }], p.tin == 0x10, (q.tdef 0 2).cands.isEmpty, q.tin == 0x20,
      short.tb.tick == 9, short.tin == 0, (short.tdef 0 2).cands.isEmpty, back.tin == 0, (back.tdef 0 2).cands == (p.tdef 0 2).cands, low.tin == 0x10, low.tb.tick == 7, (low.tdef 0 2).cands.isEmpty,
      (pair.tdef 0 2).cands.map (fun x => (x.time, x.source)) == [(9007 * 1024, 12), (9008 * 1024, 13)], pair.tb.tick == 11, (after (.trigInEdge 4 12 3 true) p).tb.tick == 12, (after (.trigInEdge 4 12 0 false) p).tin == 0x10,
      told (after (.trigForce c) quotas) c 0x42 stBadParam 1 []]) = true := by decide +kernel
theorem test_candidate_forward : ok (
    let x : Cand := { time := 5000 * 1024, source := 16, chan := 25, miss := false }
    let s := ((((quotas.put F.chan_mode 25 1).put F.filt_cond 25 1).put F.filt_cond_trig 25 2).setTdef 0 2 { TDef.init with wins := [openWin 0] }).setCoreDef 0 0 2
      { CoreDef.init with found := [x], lastFwd := some (4000 * 1024) }
    let w := after (.candidateForward 0 0 2) s
    let r := s.setTile 0 { Tile.init with k0 := 2 }
    let t := after (.candidateForward 0 0 2) r
    let n := after (.candidateForward 0 0 2) (r.put F.trig_rearm 2 1001)
    [s.condTiles 0 == [0], r.condDone 0 [x] == some 8192, s.coreOn 0, (w.coreDef 0 0 2).found == [x], w.defs == s.defs, (t.coreDef 0 0 2).complete == 8192, (t.coreDef 0 0 2).found.isEmpty,
      (t.coreDef 0 0 2).lastFwd == some (5000 * 1024), (t.tdef 0 2).cands == [x], (n.tdef 0 2).cands == [{ x with miss := true }],
      (n.coreDef 0 0 2).lastFwd == some (4000 * 1024)]) = true := by decide +kernel
theorem test_candidate_judge : ok (
    let x : Cand := { time := 5000 * 1024, source := 9, chan := 0, miss := false }
    let d : TDef := { TDef.init with wins := [openWin 0], cands := [x], last := some (4899 * 1024) }
    let s := ((((quotas.put F.trsa_tstate 2 2).put F.chan_mode 25 2).put F.filt_seg_mask 25 4).put F.trsa_continuous 2 1).setTdef 0 2 d
    let judge := after (.candidateJudge 0 2)
    let t := judge s
    let g := mfind t.segs 0
    let m := judge (s.setTdef 0 2 { d with last := some (4901 * 1024) })
    let q := judge (s.put F.segp_desc_quota 0 0)
    let full := judge (s.setTdef 0 2 { d with outstanding := 256 })
    let far := judge (s.setTdef 0 2 { d with cands := [{ x with miss := true }] })
    let one := judge (s.setTdef 0 2 { d with wins := [{ openWin 0 with left := some 1 }] })
    let two := judge (s.setTdef 0 2 { d with wins := [{ openWin 0 with left := some 2 }] })
    let out := judge (s.setTdef 0 2 { d with wins := [openWin (5001 * 1024)] })
    let dark := (s.put F.filt_cond 25 1).put F.filt_cond_trig 25 2
    let wait := dark.put F.trig_cond_src 2 1
    let late := s.setTdef 0 2 { d with cands := [{ x with time := 9000 * 1024 }] }
    [s.tinLag 0 2 5000 == 0, s.freeDesc 0 == some 0, (g.map fun h => (h.time, h.part, h.d, h.source, h.built, h.tiles)) == some (5000 * 1024, 0, 2, 9, false, [0]),
      (t.tdef 0 2).last == some (5000 * 1024), (t.tdef 0 2).outstanding == 1, t.get F.trsa_trig_no 2 == 1, t.get F.trsb_missed 2 == 0, m.get F.trsb_missed 2 == 1,
      (m.tdef 0 2).cands.isEmpty, m.segs.isEmpty, (m.tdef 0 2).last == some (4901 * 1024), q.get F.trsb_missed 2 == 1, q.segs.isEmpty, full.get F.trsb_missed 2 == 1, far.get F.trsb_missed 2 == 1,
      (one.tdef 0 2).wins == [{ start := 0, stop := some (5000 * 1024), left := some 0 }], (two.tdef 0 2).wins == [{ openWin 0 with left := some 1 }], (out.tdef 0 2).cands.isEmpty, out.segs.isEmpty,
      out.get F.trsb_missed 2 == 0, dark.feedDies 0 2 == [0], (judge dark).get F.trsa_trig_no 2 == 1, judge wait == wait, judge late == late]) = true := by decide +kernel
/-- A segment of definition 2 at full count 5,000 with one of tile 0's hits in its window, not yet built. -/
def segment : Seg :=
  { part := 0, d := 2, trigNo := 1, time := 5000 * 1024, source := 9, misses := 0, pre := 10, post := 10, queue := 0, hold := false, holdMs := 0, cuts := [], tiles := [0],
    built := false, flags := 0, eSeg := 0, missing := 0, hits := [], st := 0, need := [], left := [], toWrite := 0, deadline := none }

/-- The history of tile 0 holds three hits of channel 25, of which two lie in the segment's window. -/
def history : State :=
  let s := (((quotas.put F.pws_pstate 28 3).put F.chan_mode 25 2).put F.filt_seg_mask 25 4).setTile 0
    { Tile.init with k0 := 3, eh := 77, ring := [anyHit 25 (4989 * 1024), anyHit 25 (5010 * 1024)], ext := [anyHit 25 (4990 * 1024)] }
  s.setSeg 0 segment

theorem test_segment_build : ok (
    let t := after (.segmentBuild 0) history
    let w := after (.segmentBuild 0) (history.put F.segg_oasis_gib 0 0)
    let h := mfind t.segs 0
    [history.segClosed segment 0, (h.map fun g => (g.built, g.eSeg, g.st, g.missing, g.tiles)) == some (true, 77, 1, 0, [0]),
      (h.map fun g => g.hits) == some [anyHit 25 (4990 * 1024), anyHit 25 (5010 * 1024)], t.pieces.isEmpty, t.get F.segb_bufs_used 0 == 1,
      ((mfind w.segs 0).map fun g => g.st) == some 0, w.pieces.map (fun p => (p.desc, p.tile, p.has, p.lacks)) == [(0, 0, 0, 1)]]) = true := by decide +kernel
theorem test_oasis : ok (
    let s := after (.segmentBuild 0) (history.put F.segg_oasis_gib 0 0)
    let one := s.put F.segg_oasis_gib 0 1
    let two := { one with pieces := [{ desc := 0, tile := 0, has := 0, lacks := 2, since := 0 }] }
    let t := after (.oasisBufferGrant 0 0) one
    let v := after (.oasisBufferGrant 0 0) two
    let more := { s with pieces := s.pieces ++ [{ desc := 0, tile := 70, has := 0, lacks := 1, since := 0 }] }
    let d := after (.oasisWaitTimeout 0 0) more
    [t.pieces.isEmpty, ((mfind t.segs 0).map fun g => g.st) == some 1, v.pieces == [{ desc := 0, tile := 0, has := 1, lacks := 1, since := 0 }], sameIn two v [wkey 7 4 0],
      after (.oasisBufferGrant 0 0) s == s, d.pieces.map (fun p => p.tile) == [70], d.get F.segb_oasis_empty 0 == 1, d.tb.tick == 16000,
      ((mfind d.segs 0).map fun g => (g.hits, g.missing)) == some ([], 1)]) = true := by decide +kernel
theorem test_held_segments : ok (
    let held := { segment with st := 2, hold := true, deadline := some 500, hits := [anyHit 25 (4990 * 1024)], built := true }
    let s := ((quotas.setSeg 7 held).put F.sega_held 0 1).put F.sega_desc_used 0 1
    let two := (s.setSeg 9 { held with part := 3 }).setSeg 11 held
    let t := after (.holdTimeout 7) s
    let c := cmd [7#64]
    let all := cmd [0x8000000000000000#64]
    let r := after (.segRead c) s
    let v := after (.segRelease c) s
    let a := after (.segReleaseAll all) two
    [t.segs.isEmpty, t.get F.sega_held 0 == 0, t.get F.sega_desc_used 0 == 0, t.tb.tick == 500, accepts s c 0x43 1, did r s c 0x43 stOk 0 [],
      (r.hq 0).place.map (fun p => (p.b, p.recs)) == [(7, segRecs 7 held false held.hits none)], did v s c 0x44 stOk 1 [], v.segs.isEmpty, v.get F.sega_held 0 == 0,
      sameIn s v [wkey 7 3 0, wkey 7 4 0, counts 0], did a two all 0x44 stOk 2 [], a.segs.map (fun e => e.1) == [9], told (after (.segRead c) quotas) c 0x43 stBadParam 1 []]) = true := by decide +kernel

/-! ### Host queues and host lanes -/

/-- A record of `n` words that is a unit of its own, of a kind. -/
def rec (kind n : Nat) : Rec := single (pack [(63, 60, kind)] :: List.replicate (n - 1) 0#64)

/-- A device with queue 0 at work and in state `h`. -/
def queue0 (h : HQueue) : State := (up [0]).setHq 0 h

theorem test_queue_flush : ok (
    let c := cmd [0#64]
    let q := queue0 { HQueue.init with recs := [rec 11 3, rec 11 3] }
    let s := { q with cmd := { q.cmd with smpOut := [] } }
    let t := after (.queueFlush c) s
    let e := after (.flushEffect 0) t
    let g := after (.flushEffect 0) (t.setHq 0 { t.hq 0 with incoming := [{ rec 1 2 with first := false }] })
    let reply : Reply := { part := 0, packets := [[replyHeader 0x50 0 7 1 stOk 0 0, 2#64]], frees := false }
    [accepts s c 0x50 1, s.domOn (4 * s.queueDie 0), (t.hq 0).flush == some c, (t.hq 0).recs.length == 2, t.get F.part3_accepted 0 == 1, t.cmd.smpOut.isEmpty, (t.chan 0).op == 0xFF,
      told (after (.queueFlush c) t) c 0x50 stNoResource 0 [], (e.hq 0).recs.isEmpty, e.get F.qhb_flushed 0 == 2, (e.hq 0).flush == none, e.cmd.smpOut == [reply],
      (g.hq 0).flushing, (g.hq 0).flush == some c, (g.hq 0).flushCount == 2, g.cmd.smpOut.isEmpty, g.get F.qhb_flushed 0 == 2]) = true := by decide +kernel
theorem test_queue_status : ok (
    let s := (((up [0]).put F.qia_drops 3 9).put F.qhb_flushed 3 8).put F.qan_fill 3 7
    let c := cmd [3#64]
    [accepts s c 0x52 1, did (after (.queueStatusIngress c) s) s c 0x52 stOk 0 [s.word 5 1 3, s.word 5 2 3, s.word 5 3 3, s.word 5 4 3],
      did (after (.queueStatusHost c) s) s c 0x52 stOk 0 [s.word 5 5 3, s.word 5 6 3, s.word 5 7 3, s.word 5 8 3], did (after (.queueStatusAnchor c) s) s c 0x52 stOk 0 [s.word 5 9 3],
      s.word 5 9 3 ≠ 0, told (after (.queueStatusAnchor (cmd [5#64])) s) c 0x52 stBadParam 1 []]) = true := by decide +kernel
/-- What queue 0 still has room for: the record `r`, with `extra` lines of reserve, the spill write of its tail waiting or not. -/
def roomFor (s : State) (spill : Bool) (extra : Nat) (r : Rec) : Bool :=
  (s.setHq 0 { s.hq 0 with incoming := (s.hq 0).incoming.drop 1, stalled := spill }).fits 0 extra r

theorem test_record_write : ok (
    let r := rec 11 3
    let s := queue0 { HQueue.init with incoming := [r] }
    let t := after (.hostRecordWrite 0 false) s
    let spilt := queue0 { HQueue.init with incoming := [r], recs := [rec 11 127], wp := 127 }
    let off := s.put F.qhc_en 0 0
    let f := queue0 { HQueue.init with incoming := [{ r with first := false, last := false }], flushing := true, flush := some (cmd []), flushCount := 4 }
    let x := after (.hostRecordWrite 0 false) off
    let y := after (.hostRecordWrite 0 false) f
    let e := after (.hostRecordWrite 0 false) (f.setHq 0 { f.hq 0 with incoming := [{ r with first := false }] })
    let z := after (.hostRecordWrite 0 true) spilt
    let d := after (.hostRecordWrite 0 true) (spilt.setHq 0 { spilt.hq 0 with incoming := [{ r with first := true, last := false }] })
    [roomFor s false 0 r, (t.hq 0).recs == [r], (t.hq 0).wp == 3, (t.hq 0).incoming.isEmpty, t.get F.qhb_rec_dropped 0 == 0, t.get F.qha_fill 0 == 1, (x.hq 0).recs.isEmpty, x.get F.qhb_rec_dropped 0 == 1,
      (y.hq 0).recs.isEmpty, (y.hq 0).flushCount == 5, y.get F.qhb_flushed 0 == 1, (e.hq 0).flush == none, !(e.hq 0).flushing, !roomFor spilt true 0 r, roomFor spilt false 0 r, (z.hq 0).recs == [rec 11 127],
      z.get F.qhb_rec_dropped 0 == 1, z.flag F.qha_overrun 0, !(z.hq 0).dropping, (d.hq 0).dropping]) = true := by decide +kernel
theorem test_caravan_records : ok (
    let o := { rec 2 2 with last := false }
    let h : Rec := { words := [pack [(63, 60, 1)]], first := false, last := false, seg := none }
    let z : Rec := { words := closeWords 5 { late := [], remap := false, shed := false }, first := false, last := true, seg := none }
    let s := queue0 { HQueue.init with incoming := [o, h, h, z] }
    let w := fun (b : Bool) (s : State) => after (.hostRecordWrite 0 b) s
    let a := w false s
    let b := w false a
    let room := b.setHq 0 { b.hq 0 with recs := (b.hq 0).recs ++ [{ rec 11 125 with start := 3 }], wp := 128 }
    let lost := w true room
    let c := w false (lost.setHq 0 { lost.hq 0 with recs := (b.hq 0).recs, wp := 3 })
    let none1 := w true ((w true room).setHq 0 { (w true room).hq 0 with recs := (b.hq 0).recs ++ [{ rec 11 200 with start := 3 }], wp := 203 })
    let noOpen := w true (queue0 { HQueue.init with incoming := [o], recs := [rec 11 144], wp := 144 })
    let last := (c.hq 0).recs.getLast?
    [roomFor s false 2 o, (a.hq 0).inCaravan, (a.hq 0).recs == [o], (a.hq 0).wp == 2, (b.hq 0).recs.map (fun r => (r.start, r.words)) == [(0, o.words), (2, h.words)], (b.hq 0).sent == 1, (lost.hq 0).lost == 1, (lost.hq 0).dropping,
      (lost.hq 0).recs == (room.hq 0).recs, !(c.hq 0).inCaravan, (last.map fun r => (r.words.getD 1 0#64, bits (r.words.headD 0#64) 14 14)) == some (pack [(63, 32, 1), (31, 0, 1)], 1),
      none1.get F.qhs_caravans_lost 0 == 1, !(none1.hq 0).inCaravan, noOpen.get F.qhs_caravans_lost 0 == 1, (noOpen.hq 0).caravanLost, (noOpen.hq 0).recs == [rec 11 144]]) = true := by decide +kernel
theorem test_spill : ok (
    let h : HQueue := { HQueue.init with recs := [rec 11 136], wp := 136, stalled := true }
    let on := ((up [0, 28]).setHq 0 h).put F.qha_fill 0 17
    let f : IFrame := { seq := 0, words := List.replicate 136 0#64, hits := 0, arrival := 0, stage := 0, rewinds := 0, all := [], reread := false, fit := none, mark := none, lost := 0, sheds := [] }
    let x : Ingress := { Ingress.init with frames := [f], next := 1, wp := 136, stalled := true }
    let g := (((up [0, 28]).setIng 16 x).put F.qis_fill 16 17).put F.qic_erg_quota 16 1
    let t := after (.spillWrite 1 0) on
    let i := after (.spillWrite 0 16) g
    let few := on.put F.qha_fill 0 8
    let off := on.put F.pws_pstate 28 0
    let none0 := g.put F.qic_erg_quota 16 0
    [on.stackOn (on.queueDie 0), h.lines 0 == 17, regLines 0 == 16, t.hq 0 == { h with mid := 1, stalled := false }, !t.flag F.qha_full 0, x.lines 0 == 17, (i.ing 16).mid == 1, !(i.ing 16).stalled, (i.ing 16).frames == [f],
      after (.spillWrite 1 0) few == few, after (.spillWrite 1 0) off == off, after (.spillWrite 0 16) none0 == none0]) = true := by decide +kernel
/-- Host lane 0 is UP and carries queue 0. -/
def carries (h : HQueue) : State := hostUp.setHq 0 h

/-- What leaves on a host lane with some words. -/
def flitOut (seq kind low : Nat) (ws : List Word) : Out :=
  .hostFrame 0 (frameStart seq kind low) ws (frameEnd (frameStart seq kind low) ws) 0

theorem test_host_lane_replies : ok (
    let r : Reply := { part := 3, packets := [[1#64], [2#64]], frees := true }
    let lane := fun (s : State) (x : HLane) => s.setHlane 0 x
    let s := (lane (carries { HQueue.init with recs := [rec 11 3] }) { HLane.init with replies := [r], txSeq := 9 }).setChan 3 { op := 1, since := 0 }
    let t := after (.hostLaneSend 0 0 false) s
    let v := after (.hostLaneSend 0 0 false) (lane t { t.hlane 0 with owed := false })
    let turn := after (.hostLaneSend 0 0 false) t
    let late := after (.hostLaneSend 0 0 false) (lane s { s.hlane 0 with owed := true, replies := [{ r with flits := 16 }] })
    let alone := after (.hostLaneSend 0 0 false) (lane hostUp { HLane.init with replies := [r], owed := true })
    [s.host 0, s.laneUp 0, noFill t.out == [flitOut 9 7 0 [1#64]], (t.hlane 0).replies == [{ r with packets := [[2#64]] }], (t.hlane 0).owed, (t.chan 3).op == 1, t.hqs == s.hqs, t.regs == s.regs,
      (v.hlane 0).replies.isEmpty, (v.chan 3).op == 0xFF, v.hqs == s.hqs, (turn.hlane 0).replies == [{ r with packets := [[2#64]], flits := 1 }], !(turn.hlane 0).owed, (turn.hq 0).recs.isEmpty,
      (late.hlane 0).replies.map (fun r => r.packets) == [[[2#64]]], hostUp.turnOf 0 == none, (alone.hlane 0).replies.map (fun r => r.packets) == [[[2#64]]]]) = true := by decide +kernel
theorem test_host_lane_records : ok (
    let s := carries { HQueue.init with recs := [rec 11 5] }
    let t := after (.hostLaneSend 0 3 false) s
    let b := after (.hostLaneSend 0 0 true) s
    let e := carries HQueue.init
    let i := after (.idleRecord 0) e
    let j := after (.idleRecord 0) i
    let long := carries { HQueue.init with recs := [rec 11 70] }
    let l1 := after (.hostLaneSend 0 9 false) long
    let l2 := after (.hostLaneSend 0 0 false) l1
    let r : Reply := { part := 3, packets := [[1#64]], frees := true }
    let few := after (.hostLaneSend 0 9 false) (s.setHlane 0 { HLane.init with replies := [r], owed := true })
    [s.turnOf 0 == some (0, s.get F.qhc_weight 0), s.get F.qhc_weight 0 ≠ 0, noFill t.out == [flitOut 0 5 (8 * 2 ^ 16) ((rec 11 5).words ++ [0#64, 0#64, 0#64])], t.get F.qha_ecc_corr 0 == 3,
      (t.hq 0).recs.isEmpty, (t.hlane 0).turn == 1, (t.hlane 0).rest.isEmpty, (b.hq 0).recs.isEmpty, b.out.isEmpty, b.get F.qhs_rec_ecc 0 == 1, b.get F.qhb_rec_dropped 0 == 1, e.turnOf 0 == none,
      after (.hostLaneSend 0 0 true) e == e, i.tb.tick == 0, (i.hlane 0).idleAt == some 0, j.tb.tick == 4096, (l1.hlane 0).rest.length == 6, l1.get F.qha_ecc_corr 0 == 9, (l1.hlane 0).left == 0 || (l1.hq 0).recs.isEmpty,
      hostFrames l2 == [(0, (rec 11 70).words.take 64), (0, List.replicate 8 0#64)], (l2.hlane 0).rest.isEmpty, hostFrames few == [(0, (rec 11 5).words.take 4)], (few.hlane 0).rest.length == 1, few.get F.qha_ecc_corr 0 == 4,
      (noFill j.out).getLast? == some (flitOut 1 5 (16 * 2 ^ 16 + 2 ^ 15) [0#64, BitVec.ofNat 64 (4096 * 1024), 0#64, 0#64])]) = true := by decide +kernel

/-! ### Faults -/

theorem test_fault_commands : ok (
    let n := 0x0803
    let s := (((up [0]).put F.fsa_state n 1).setGroup 3 { GroupX.init with isolated := true }).put F.ltsb_isolated 3 1
    let c := cmd [BitVec.ofNat 64 n]
    let t := after (.faultClear c) s
    let m := cmd [0x8006#64]
    let p := (((up [0, 16]).put F.fsa_state 0x8006 2).put F.fsa_last_cause 0x8006 0x16).setSrc 0x8006 { SrcX.init with present := true }
    let q := p.setSrc 0x8006 { SrcX.init with timer := some 9 }
    let q := { q with flt := { q.flt with holders := [5, 0x8006] } }
    let v := after (.faultClear m) q
    let h := { s with flt := { s.flt with history := [(1#64, 2#64), (3#64, 4#64)] } }
    [isSource n, isIsolation n, accepts s c 0x58 1, did (after (.faultRead c) s) s c 0x58 stOk 0 [s.word 11 0 n, s.fsaWord n, s.word 11 2 n, s.word 11 3 n],
      did (after (.faultHistory (cmd [])) h) h (cmd []) 0x5A stOk 0 [1#64, 2#64, 3#64, 4#64], did t s c 0x59 stOk 0 [], t.get F.fsa_state n == 0, !(t.group 3).isolated,
      t.get F.ltsb_isolated 3 == 0, p.causePresent 0x8006, told (after (.faultClear m) p) m 0x59 stCausePresent 0 [], (after (.faultClear m) p).get F.fsa_state 0x8006 == 2,
      !q.causePresent 0x8006, did v q m 0x59 stOk 0 [], v.get F.fsa_state 0x8006 == 0, (v.src 0x8006).timer == none, v.flt.holders == [5], sameIn q v [wkey 11 1 0x8006, counts 0],
      did (after (.faultClear c) (up [0])) (up [0]) c 0x59 stOk 0 []]) = true := by decide +kernel
theorem test_awl : ok (
    let c := cmd [BitVec.ofNat 64 (0x8001 * 2 ^ 48 + 65535)]
    let s := up [16]
    let t := after (.awl c) s
    [hasChecker 0x8001, accepts0 s c 0x5B 1, !s.srcOff 0x8001, did t s c 0x5B stOk 0 [], t.flt.awl == [(0x8001, 65535)], told (after (.awl c) (up [])) c 0x5B stNoResource 0 [],
      told (after (.awl c) (s.put F.fsa_retired 0x8001 1)) c 0x5B stRetired 0 []]) = true := by decide +kernel

/-- A fault of source `n` waits with a cause. -/
def waiting (s : State) (n cause : Nat) : State := { s with flt := { s.flt with inflight := [{ source := n, cause := cause, sub := 0, injected := false }] } }

theorem test_fault_accepted : ok (
    let n := 0x0003
    let s := waiting (((up [0]).put F.fgc_window 0 1).put F.fsc_pulse_en n 1) n 0x01
    let s := (s.put F.fsc_retire_en n 0).setFull 77
    let t := after (.faultRaise 0) s
    let two := { s with flt := { s.flt with counted := [(n, [1, 2])] } }
    let late := { two with tb := { two.tb with tick := 16000002 } }
    let w := t.flt.history.getLast?
    [isSource n, s.get F.fsc_sev n == 1, t.flt.inflight.isEmpty, t.get F.fsa_sev_held n == 1, t.get F.fsa_last_cause n == 1, t.get F.fsa_accepted n == 1, t.get F.fgs_accepted_all 0 == 1,
      t.word 11 2 n == BitVec.ofNat 64 (77 * 1024), t.get F.fgs_next_seq 0 == 1, w == some (pack [(63, 48, n), (47, 46, 1), (45, 38, 1), (37, 35, 1)], BitVec.ofNat 64 (77 * 1024)),
      t.flt.pulseEnd == some (s.get F.fgc_pulse_us 0 * 1600), t.get F.fsa_state n == 1, (t.src n).timer == some (s.get F.fsc_esc_ms n * 1600000), !t.flag F.fsa_permanent n,
      (after (.faultRaise 0) two).flag F.fsa_permanent n, !(after (.faultRaise 0) late).flag F.fsa_permanent n,
      after (.faultRaise 0) (s.put F.fsa_state n 2) == { s.put F.fsa_state n 2 with flt := { s.flt with inflight := [] } },
      (after (.faultRaise 0) (s.put F.fsc_sev n 0)).get F.fsa_state n == 0]) = true := by decide +kernel
theorem test_fault_monitor_note : ok (
    let n := 0x80F6
    let s := (((up []).put F.fsc_sev n 0).put F.fsc_retire_en n 0).setSrc n { SrcX.init with present := true }
    let t := after (.faultRaise 0) (waiting s n 0x16)
    let iso := after (.faultRaise 0) (waiting (((up [0]).put F.fsc_sev 0x0803 0).put F.fsc_retire_en 0x0803 0) 0x0803 0x0F)
    [t.get F.fsa_state n == 1, (t.src n).timer == none, after (.causeEnd n) t == t, iso.get F.fsa_state 0x0803 == 1,
      (after (.causeEnd n) (t.setSrc n SrcX.init)).get F.fsa_state n == 0]) = true := by decide +kernel
theorem test_fault_turn : ok (
    let r := fun (n : Nat) => ({ source := n, cause := 0x01, sub := 0, injected := false } : FaultRep)
    let s := { up [0] with flt := { (up [0]).flt with inflight := [r 3, r 4] } }
    let due := { s with grants := [(1, [(3, sourceCount - 1)])] }
    let t := after (.faultRaise 1) due
    let v := after (.faultRaise 1) s
    [s.faultNext (r 4) 1 == 1, due.faultNext (r 4) 1 == 0, t.flt.inflight == [r 4], t.get F.fsa_accepted 3 == 1, v.flt.inflight == [r 3], v.get F.fsa_accepted 4 == 1,
      mget [] v.grants 1 == [(3, 1)]]) = true := by decide +kernel
theorem test_permanent_faults : ok (
    let with2 := fun (n : Nat) => let s := waiting (((up [0]).put F.fgc_window 0 1).put F.fsc_retire_en n 1) n 0x01; { s with flt := { s.flt with counted := [(n, [1, 2])] } }
    let act := fun (s : State) => s.flt.history.map fun e => (bits e.1 37 35, bits e.1 34 34)
    let t := after (.faultRaise 0) (with2 3)
    let g := after (.faultRaise 0) (with2 0x0404)
    let q := after (.faultRaise 0) (with2 0x4005)
    let i := after (.faultRaise 0) (with2 0x0803)
    [elementKey 3 0 == 3, wholeElement 3, t.flag F.fsa_retired 3, t.flag F.fsa_permanent 3, t.flt.toRecord == [retireEntry 3 0 0], act t == [(1, 1), (2, 1)], (g.ing 4).linesLost == 1, act g == [(1, 1), (2, 1)],
      (q.hq 5).linesLost == 1, act q == [(1, 1), (2, 1)], neverRetired 0x0803, i.flag F.fsa_permanent 0x0803, act i == [(1, 1)], !i.flag F.fsa_retired 0x0803]) = true := by decide +kernel
theorem test_escalation : ok (
    let on := fun (n sev : Nat) => (((up [0]).put F.fsa_state n 1).put F.fsa_sev_held n sev).setSrc n { SrcX.init with timer := some 50 }
    let a := after (.escalationExpiry 3) (on 3 1)
    let b := after (.escalationExpiry 0x0803) (on 0x0803 1)
    let c := after (.escalationExpiry 3) ((on 3 2).put F.fsc_retire_en 3 0)
    let r := after (.escalationExpiry 3) ((on 3 2).put F.fsc_retire_en 3 1)
    let d := after (.escalationExpiry 0x80F7) (on 0x80F7 3)
    let e := after (.escalationExpiry 0x0404) (on 0x0404 3)
    let m := (((on 0x8006 1).put F.pws_pstate 16 3).put F.fsa_last_cause 0x8006 0x16).setSrc 0x8006 { SrcX.init with timer := some 50, present := true }
    let act := fun (s : State) => s.flt.history.getLast?.map fun e => bits e.1 37 35
    [a.get F.fsa_state 3 == 0, a.tb.tick == 50, (a.src 3).timer == none, b.get F.fsa_state 0x0803 == 1, c.get F.fsa_state 3 == 2, act c == some 5, r.get F.fsa_state 3 == 2, act r == some 2, r.flag F.fsa_retired 3,
      (on 0x80F7 3).srcDomains 0x80F7 == [], (after (.escalationExpiry 0x8006) m).get F.fsa_state 0x8006 == 1,
      d.get F.fsa_state 0x80F7 == 2, d.flt.holders == [0x80F7], act d == some 4, !d.faultN, (on 0x0404 3).srcDomains 0x0404 == [0], inRange (on 0x0404 3), e.get F.pws_pstate 0 == 5,
      act e == some 3, e.flt.holders.isEmpty, (after (.escalationExpiry 3) ((on 3 2).put F.fsa_state 3 2)).flt.history.isEmpty]) = true := by decide +kernel
theorem test_fault_n_pulse : ok (
    let s := { up [] with flt := { (up []).flt with pulseEnd := some 30 } }
    let t := after .faultNPulseEnd s
    [!s.faultN, t.tb.tick == 30, t.flt.pulseEnd == none, t.faultN, !(t.put F.fgc_fault_n_sw 0 1).faultN]) = true := by decide +kernel
/-- The faults on their way: source, cause and sub field. -/
def raised (s : State) : List (Nat × Nat × Nat) := s.flt.inflight.map fun r => (r.source, r.cause, r.sub)

theorem test_scrub_frames : ok (
    let f := inQueue 3 0 [hitWord 105 1, hitWord 105 2]
    let s := feed.setIng 16 { Ingress.init with frames := [inQueue 2 1 [], f], next := 4 }
    let at1 := 1024 + 16
    let bad := fun (v : State) => after (.scrubRead 0 at1 true) v
    let one := bad s
    let two := bad one
    let fixed := after (.scrubRead 0 at1 false) one
    [fixed.get F.qib_ecc_corr 16 == 1, (fixed.ing 16).frames == (s.ing 16).frames, (one.ing 16).frames == [inQueue 2 1 [], { f with reread := true }], (two.ing 16).frames == [inQueue 2 1 []], two.get F.qis_frames_ecc 16 == 1,
      two.get F.qia_drops 16 == 2, two.get F.fss_data_lost 0x0410 == 2, raised two == [(0x0410, 0x01, 0)], after (.scrubRead 0 (2 * 1024 + 16) true) s == s,
      after (.scrubRead 0 (2 * 1024 + 16) false) s == s]) = true := by decide +kernel
theorem test_scrub_records : ok (
    let o := { rec 2 2 with last := false }
    let m : Rec := { words := [1#64], first := false, last := false, seg := none }
    let l : Rec := { words := [2#64], first := false, last := true, seg := none }
    let s := queue0 { HQueue.init with recs := [rec 11 3, { o with start := 3 }, { m with start := 5 }, { l with start := 6 }, { rec 11 3 with start := 7 }], wp := 10 }
    let unit := after (.scrubRead 1 16384 true) s
    let one := after (.scrubRead 1 0 true) s
    [(unit.hq 0).recs == [rec 11 3, { rec 11 3 with start := 7 }], unit.get F.qhs_rec_ecc 0 == 1, unit.get F.qhb_rec_dropped 0 == 3, raised unit == [(0x4000, 0x01, 0)], (one.hq 0).recs == (s.hq 0).recs.drop 1,
      !s.flag F.qhc_mode 0, one.get F.qhb_rec_dropped 0 == 1, (after (.scrubRead 1 (5 * 16384) true) s).hqs == s.hqs, (after (.scrubRead 1 0 false) s).get F.qha_ecc_corr 0 == 1]) = true := by decide +kernel
theorem test_scrub_tiles : ok (
    let line := fun (a : Nat) => (upTo 0 8).map fun i => anyHit 25 (a + i)
    let x : Tile := { Tile.init with hits := [anyHit 25 1, anyHit 25 2], ring := line 1000 ++ line 2000, ext := line 100 ++ line 200, extOn := [0, 2], eh := 7 }
    let s := (up [0, 8, 16, 28, 29]).setTile 0 x
    let src := s.tileSource 0 s.full
    let ring := after (.scrubRead 2 0 true) s
    let tail := after (.scrubRead 2 1 true) s
    let ext := after (.scrubRead 2 (4096 + 1) true) s
    let h := after (.scrubRead 4 1 true) s
    [ring.tile 0 == { x with ring := line 2000, eh := 2000 }, ring.word 4 7 0 == devWord 2000, raised ring == [(src, 0x01, 0)], tail.tile 0 == { x with ring := line 1000, eh := 2008 },
      ext.tile 0 == { x with ext := line 100, extOn := [0], eh := 1000 }, raised ext == [(dieSource 10 5, 0x01, 0)], after (.scrubRead 2 2 true) s == s, after (.scrubRead 2 (4096 + 2) true) s == s,
      h.tile 0 == { x with hits := [anyHit 25 1] }, h.get F.fss_data_lost src == 1, raised h == [(src, 0x01, 0)], after (.scrubRead 4 2 true) s == s]) = true := by decide +kernel
theorem test_scrub_sums : ok (
    let s := ({ up [0, 16, 28] with accs := [(25, [{ Acc.start 4096 (some 5) with n := 2, flags := 1 }])] } : State)
    let s := ((s.put F.chan_mode 25 3).setGates 0 [{ no := 0, s := 4096, len := 8192 }]).setFull 9000
    let a := after (.scrubRead 3 25 true) s
    [s.gatesOpen 25 == [{ no := 0, s := 4096, len := 8192 }], a.accList 25 == [{ Acc.start 4096 none with flags := 0x29, resume := 12288 }], raised a == [(physSource 0 0 0, 0x17, 25)]]) = true := by
  decide +kernel
theorem test_scrub_tables : ok (
    let t1 := { laneTab with n := 1 }
    let full : Interp := { Interp.init with inForce := some laneTab, waiting := some t1, first := some t1, n := 5, hist := [(3, 5)] }
    let s := ((up [0]).put F.cala_state 528 3).setInterp 528 full
    let bad := fun (p : Nat) => after (.scrubRead p 528 true) s
    let gone := after (.scrubRead 5 528 true) ((s.put F.cala_state 528 5).setInterp 528 { full with retired := true })
    let none0 := up [0]
    [((bad 5).interp 528).inForce == none, ((bad 5).interp 528).waiting == none, ((bad 5).interp 528).first == none, ((bad 5).interp 528).n == 0, (bad 5).get F.cala_state 528 == 1, raised (bad 5) == [(interpSource 528, 0x01, 0)],
      (bad 6).interp 528 == { full with waiting := none }, (bad 6).get F.cala_state 528 == 3, (bad 8).interp 528 == full.dropSet, ((bad 8).interp 528).n == 0, (bad 9).interp 528 == { full with first := none },
      gone.get F.cala_state 528 == 5, (gone.interp 528).inForce == none, ([5, 6, 8, 9].all fun p => after (.scrubRead p 528 true) none0 == none0)]) = true := by decide +kernel
theorem test_scrub_erg : ok (
    let s := (quotas.put F.pws_pstate 28 3).put F.segb_bufs_used 0 3
    let g := { segment with built := true, st := 2, bufOn := [(0, [0, 1]), (70, [0])], hits := [anyHit 25 1, anyHit (64 * 16384) 2] }
    let h := s.setSeg 5 g
    let t := after (.scrubRead 10 (5 * 512) true) h
    let once := after (.scrubRead 7 9 false) { s with flt := { s.flt with awl := [(dieSource 8 5, 2)] } }
    let b := after (.scrubRead 7 9 false) once
    let e := fun (n : Nat) => { s with lanes := [(0, { LaneX.init with fill := n })] }
    [s.stackOn 0, once.flt.ergReread == [9], once.flt.inflight.isEmpty, mget 0 once.flt.awl (dieSource 8 5) == 1, (after (.scrubRead 7 9 false) { once with flt := { once.flt with awl := [] } }).flt == s.flt,
      b.flt.ergReread.isEmpty, b.flt.inflight == [{ source := dieSource 8 5, cause := 0x01, sub := 9, injected := true }], mget 0 b.flt.awl (dieSource 8 5) == 0, after (.scrubRead 7 (2 ^ 22) true) s == s,
      mfind t.segs 5 == some (g.dropPiece 0), t.get F.segb_bufs_used 0 == 1, raised t == [(dieSource 8 5, 0x01, 0)], after (.scrubRead 10 (6 * 512) true) h == h, after (.scrubRead 11 0 true) (e 0) == e 0,
      after (.scrubRead 11 0 false) (e 1) == e 1, raised (after (.scrubRead 11 0 true) (e 1)) == [(0, 0x01, 0)], (after (.scrubRead 11 0 true) (e 1)).get F.fss_data_lost 0 == 1]) = true := by decide +kernel
theorem test_saddle : ok (
    let s := up [16, 17, 18, 19]
    let k := (0 * 16 + 8) * 1024 + 7
    let t := after (.saddlePacketFail 0 8 7) s
    let n := { s with flt := { s.flt with saddleRun := [(k - 1, 3), (k, 12), (k + 2048, 4)] } }
    let v := after (.saddlePacketFail 0 8 7) n
    let a := after (.saddlePacketFail 15 3 0) s
    [isLink 0 8, isLink 15 3, !isLink 0 1, !isLink 8 9, t.flt.saddleRun == [(k, 1)], t.flt.inflight.isEmpty, v.flt.saddleRun == [(k + 2048, 4)], v.flt.inflight.map (fun r => (r.source, r.cause, r.injected)) == [(0x8001, 0x05, false)],
      a.flt.saddleRun.length == 1, after (.saddlePacketFail 0 1 7) s == s, after (.saddlePacketFail 0 8 1024) s == s,
      (after (.voteDisagreement 1) s).flt.inflight == [{ source := 0x8012, cause := 0x04, sub := 0, injected := false }], after (.voteDisagreement 6) s == s,
      ((after (.supplyMonitor 0 true) s).src 0x8006).present, (after (.supplyMonitor 0 true) s).flt.inflight.length == 1,
      !((after (.supplyMonitor 0 false) (after (.supplyMonitor 0 true) s)).src 0x8006).present]) = true := by decide +kernel
theorem test_retirement_record : ok (
    let s := { up [] with flt := { (up []).flt with toRecord := [5#64, 6#64] } }
    let t := after .retirementRecordWrite s
    [t.pw.recA == [5#64], t.pw.recB == [5#64], t.flt.toRecord == [6#64], !t.flag F.pwg_rec_full 0]) = true := by decide +kernel
theorem test_power_cycle_end : ok (
    let y : Cycle := { domain := 16, back := [16] }
    let s := (up []).put F.pws_pstate 16 5
    let s := { s with pw := { s.pw with cycles := [y] } }
    let t := after (.powerCycleComplete 16) s
    let h := after (.powerCycleComplete 16) { s with pw := { s.pw with hot := [0] } }
    let group := ((up []).put F.pws_pstate 0 5).put F.pws_pstate 1 5
    let both := after (.powerCycleComplete 0) { group with pw := { group.pw with cycles := [{ domain := 0, back := [0, 1] }] } }
    let alone := { group with pw := { group.pw with cycles := [{ domain := 1, back := [1] }, { domain := 0, back := [0] }] } }
    let unfed := after (.powerCycleComplete 1) alone
    let op : DomOp := { cmd := cmd [], on := true, until1 := 0, waits := true }
    let w := after (.powerCycleComplete 16) { s with pw := { s.pw with ops := [(16, op)] } }
    [t.get F.pws_pstate 16 == 3, t.pw.cycles.isEmpty, h.get F.pws_pstate 16 == 0, both.get F.pws_pstate 0 == 3, both.get F.pws_pstate 1 == 3, unfed.get F.pws_pstate 1 == 0, unfed.get F.pws_pstate 0 == 5,
      unfed.pw.cycles.map (·.domain) == [0], w.get F.pws_pstate 16 == 3, w.pw.ops.isEmpty, told w (cmd []) 0x60 stOk 0 []]) = true := by decide +kernel

/-- Copy A of the retirement record has no room. -/
def fullRecord : State :=
  { up [] with flt := { (up []).flt with toRecord := [5#64] }, pw := { (up []).pw with recA := List.replicate 32767 0#64 } }

theorem test_full_record : fullRecord.flt.toRecord = [5#64] ∧ 32767 ≤ fullRecord.pw.recA.length := by
  refine ⟨rfl, ?_⟩
  show 32767 ≤ (List.replicate 32767 (0 : Word)).length
  rw [List.length_replicate]

/-! ### Power, start-up and system-wide operations -/

/-- A rail is within its tolerance. -/
def railed (d : Nat) (s : State) : State := s.put F.pws_rail_ok d 1

theorem test_power_domain : ok (
    let c := cmd [16#64]
    let s := railed 16 (up [0])
    let t := after (.powerDomainOn c) s
    let u := after (.domainOnComplete 16) t
    let v := after (.powerDomainOff c) (freeChan u 0)
    let w := after (.domainOffComplete 16) (v.setTile 3 { Tile.init with hits := [anyHit 25 1] })
    let cyc := { s with pw := { s.pw with cycles := [{ domain := 16, back := [16] }] } }
    let z := after (.powerDomainOn c) cyc
    [accepts0 s c 0x60 1, !s.inCycle 16, powerCheck s 16 true == none, t.get F.pws_pstate 16 == 1, ((mfind t.pw.ops 16).map fun o => (o.on, o.waits)) == some (true, false),
      (t.chan 0).op == 0x60, t.cmd.smpOut.isEmpty, sameIn s t [wkey 13 1 16, wkey 13 2 0, counts 0], told u c 0x60 stOk 0 [], u.get F.pws_pstate 16 == 3, u.get F.pws_switches 16 == 1,
      u.pw.ops.isEmpty, v.get F.pws_pstate 16 == 4, w.get F.pws_pstate 16 == 0, w.get F.pws_switches 16 == 2, (w.tile 3).hits.isEmpty, w.word 4 1 3 == resetWord 4 1 3,
      did (after (.powerDomainOn c) (freeChan u 0)) (freeChan u 0) c 0x60 stOk 0 [], told (after (.powerDomainOn c) { up [0] with pw := { (up [0]).pw with rails := 2 ^ 16 - 1 } }) c 0x60 stNoResource 0 [], cyc.inCycle 16,
      ((mfind z.pw.ops 16).map fun o => o.waits) == some true, z.get F.pws_pstate 16 == 0]) = true := by decide +kernel
theorem test_power_refusals : ok (
    let c := cmd [0#64]
    let s := up [0, 1]
    let o := (up [0, 16]).put F.chan_mode 25 1
    let d := after (.domainOnComplete 16) (after (.thermalShutdown 0) (after (.powerDomainOn (cmd [16#64])) (railed 16 (up [0]))))
    [powerCheck s 0 false == some stBadParam, told (after (.powerDomainOff c) s) c 0x60 stBadParam 0 [], powerCheck o 16 false == some stBadParam,
      powerCheck (railed 1 (up [])) 1 true == some stBadParam, told d (cmd [16#64]) 0x60 stNoResource 0 [], d.get F.pws_pstate 16 == 0]) = true := by decide +kernel
theorem test_power_needs : ok (
    let c := cmd [1#64]
    let lane := railed 1 (railed 0 (up [0]))
    let t := after (.powerDomainOn c) lane
    let on := after (.domainOnComplete 1) t
    let gone := after (.domainOnComplete 1) (t.put F.pws_pstate 0 0)
    let cyc := { (up [0]).put F.pws_pstate 1 5 with pw := { (up [0]).pw with cycles := [{ domain := 1, back := [1] }] } }
    let hot := { railed 16 (up []) with pw := { (up []).pw with hot := [0] } }
    let thermal := after (.domainOffComplete 16) (after (.thermalShutdown 0) (after (.powerDomainOff (cmd [16#64])) (up [0, 16])))
    [powerCheck lane 1 true == none, on.get F.pws_pstate 1 == 3, on.get F.pws_switches 1 == 1, told on c 0x60 stOk 0 [], gone.get F.pws_pstate 1 == 0, gone.pw.ops.isEmpty, told gone c 0x60 stNoResource 0 [],
      cyc.cycling 1, powerCheck cyc 0 false == some stBadParam, powerCheck hot 16 true == some stNoResource, powerCheck ((railed 16 (up [])).put F.pws_pstate 16 6) 16 true == some stNoResource,
      powerCheck (railed 16 (up [])) 16 true == none, thermal.get F.pws_pstate 16 == 0, thermal.pw.ops.isEmpty, told thermal (cmd [16#64]) 0x60 stOk 0 []]) = true := by decide +kernel
theorem test_stack_goes_off : ok (
    let line := fun (a : Nat) => (upTo 0 8).map fun i => anyHit 25 (a + i)
    let s := (up [0, 8, 16, 28, 29]).setTile 0 { Tile.init with ext := line 100 ++ line 200, extOn := [2, 0] }
    let op : DomOp := { cmd := cmd [28#64], on := false, until1 := 0, waits := false }
    let off := { s.put F.pws_pstate 28 4 with pw := { s.pw with ops := [(28, op)] } }
    let t := after (.domainOffComplete 28) (off.put F.pws_pstate 28 4)
    [s.stackOn 0, s.stackOn 2, !t.stackOn 0, t.get F.pws_pstate 28 == 0, off.stackOn 0, (t.tile 0).extOn == [2], (t.tile 0).ext == line 100, inRange s]) = true := by decide +kernel
theorem test_thermal : ok (
    let s := (up [16, 17, 18]).put F.pws_rail_ok 16 1
    let t := after (.thermalShutdown 0) s
    let a := after (.thermalShutdown 15) s
    let r := after (.thermalRecovery 15) a
    [inRange s, !t.domOn 16, !t.domOn 17, t.domOn 18, t.pw.hot == [0], t.get F.pws_switches 16 == 1, (t.src 0x8006).present, !t.pw.hotAnchor, a.pw.hotAnchor, !a.faultN,
      r.pw.hot.isEmpty, !r.pw.hotAnchor, r.faultN]) = true := by decide +kernel
theorem test_reset : ok (
    let s := { ((up [0, 16]).setFull 900) with out := [.smpReply []], jtag := { ir := 4, cells := [] } }
    let t := after (.resetAssert 16000) s
    let p := after (.pwrGoodFall 1600) s
    let u := after .resetRelease t
    [after (.resetAssert 3199) s == s, after (.pwrGoodFall 319) s == s, t.pw.resetLow, t.out == s.out, t.regs.isEmpty, t.pw.pwrGood, !p.pw.pwrGood, u.phase == 1, u.full == 0,
      !u.pw.resetLow, u.pw.tapHold == takesPins t.jtag.ir, after .resetRelease s == s, (after (.resetAssert 16000) { s with tin := 5 }).tin == 5,
      t.jtag == s.jtag, t.freeCount == s.freeCount, t.pw.slots == s.pw.slots, (after (.startupPhase 0) t) == t]) = true := by decide +kernel
theorem test_reset_cuts_flash : ok (
    let w := retireEntry 5 0 0
    let s := { up [0] with flt := { (up [0]).flt with toRecord := [w] } }
    let t := fun v => cutRecord v true s
    [(after (.resetAssert 16000) s).freeCount == 1 + 2 ^ 23, entryOk w, (t 4#64).pw.recA == [0#64], (t 4#64).recordEntries.isEmpty, (t 0#64).pw.recB == [0#64], (t 0#64).recordEntries == [w]]) = true := by decide +kernel

/-- Start-up in a phase. -/
def starting (p : Nat) : State := State.reset.put F.pwg_phase 0 p

theorem test_startup_phases : ok (
    let rails := 2 ^ 30 - 1
    let s := starting 3
    let t := after (.startupPhase rails) s
    let two := s.setImage 1 { Image.shipped with generation := 2 }
    let one := s.setImage 0 Image.bad
    let f := after (.startupPhase rails) (one.setImage 1 { Image.shipped with generation := 0 })
    let r := after (.startupPhase rails) one
    let eng := { starting 4 with pw := { (starting 4).pw with recA := [retireEntry 5 0 0], recB := [retireEntry 5 0 0, retireEntry 6 0 0] } }
    let sup := after .imageReadyTimeout (two.setImage 1 Image.shipped)
    let lost := after .imageReadyTimeout t
    [(after (.startupPhase rails) (starting 1)).phase == 2, after (.startupPhase rails) { starting 1 with pw := { (starting 1).pw with tapHold := true } } == { starting 1 with pw := { (starting 1).pw with tapHold := true } },
      (after (.startupPhase rails) (starting 2)).get F.pwg_quad 0 == b2n (starting 2).directory.quad, (after (.startupPhase rails) (starting 2)).phase == 3, t.phase == 4, t.pw.slot == 0, t.get F.pwg_slot_bad 0 == 2,
      t.get F.pwg_fallback 0 == 0, (after (.startupPhase rails) two).pw.slot == 1, f.phase == 4, f.pw.slot == 1, f.get F.pwg_fallback 0 == 1, r.phase == 7, r.get F.pws_pstate 26 == 3,
      eng.phase == 4, !eng.pw.resetLow, !eng.pw.tapHold, eng.recordEntries == [retireEntry 5 0 0, retireEntry 6 0 0], isSource 0x1800, sup.phase == 3, lost.phase == 7, lost.tb.tick == 1600000000,
      after (.startupPhase rails) (up []) == up []]) = true := by decide +kernel
theorem test_startup_fallback : ok (
    let s := (after (.startupPhase 0) (starting 3)).setImage 1 Image.shipped
    let t := after .imageReadyTimeout s
    let v := after .imageReadyTimeout t
    [s.phase == 4, t.phase == 4, t.pw.slot == 1, t.get F.pwg_fallback 0 == 1, t.pw.tried == [0, 1], v.phase == 7]) = true := by decide +kernel
theorem test_startup_domains : ok (
    let s := (starting 5).put F.pwd_boot_on 28 0
    let s := { s with pw := { s.pw with stage := 1 } }
    let t := after (.startupPhase (2 ^ 28)) s
    let u := after (.startupPhase (2 ^ 29)) (s.put F.pwd_boot_on 29 1)
    let w := { (starting 5).put F.pwd_boot_on 27 0 with pw := { s.pw with stage := 4 } }
    let v := after (.startupPhase (2 ^ 27)) w
    let hot := s.put F.pwd_boot_on 29 1
    let h := after (.startupPhase (2 ^ 29)) { hot with pw := { hot.pw with hot := [10] } }
    let third := (starting 5).put F.pwd_boot_on 1 1
    let unfed := after (.startupPhase 2) { third with pw := { third.pw with stage := 2 } }
    [t.get F.pws_pstate 28 == 0, t.flag F.pws_rail_ok 28, t.get F.pws_pstate 29 == 6, !t.flag F.pws_rail_ok 29, t.pw.stage == 2, t.phase == 5, u.get F.pws_pstate 29 == 3,
      v.get F.pws_pstate 27 == 0, v.phase == 6, h.get F.pws_pstate 29 == 0, h.flag F.pws_rail_ok 29, unfed.get F.pws_pstate 1 == 0, unfed.flag F.pws_rail_ok 1, unfed.get F.pws_pstate 2 == 6]) = true := by decide +kernel
theorem test_system_operations : ok (
    let c := cmd [3#64]
    let n := cmd []
    let s := up []
    let t := after (.selftest c) s
    let busy := s.setChan 5 { op := 0x10, since := 0 }
    let e := after (.ergClear n) s
    let d := after (.selftestComplete [{ bit := 1, failed := [], tested := 4, run := true }]) t
    let f := after .ergClearComplete e
    let line := (upTo 0 8).map fun i => anyHit 25 (100 + i)
    let erg := (up [0, 16, 28]).setTile 0 { Tile.init with ext := line, extOn := [0] }
    let g := after .ergClearComplete { erg with cmd := { erg.cmd with sysOp := some { op := 0x63, cmd := n, since := 0 } } }
    [s.ergIdle, s.busyPart == none, accepts0 s c 0x62 1, accepts0 s n 0x63 0, (t.cmd.sysOp.map fun o => (o.op, o.since)) == some (0x62, 0), t.chanBusy 9, t.cmd.smpOut.isEmpty,
      busy.busyPart == some 5, told (after (.selftest c) busy) c 0x62 stBusy 0 [busyWord busy 5], (e.cmd.sysOp.map fun o => o.op) == some 0x63,
      told d c 0x62 stOk 0 [pack [(55, 54, 2)], pack [(63, 56, 1)]], d.cmd.sysOp == none, told f n 0x63 stOk 0 [], f.cmd.sysOp == none, stacksOf erg.domOn == [0], (g.tile 0).ext.isEmpty, told g n 0x63 stOk 0 []]) = true := by decide +kernel
theorem test_firmware : ok (
    let s := up []
    let ws := [1#64, 0x0500000000000000#64]
    let b := cmd [1#64, 16#64, BitVec.ofNat 64 (crc32 ws)]
    let t := freeChan (after (.fwUpdateBegin b) s) 0
    let d := cmd (0#64 :: ws)
    let u := freeChan (after (.fwUpdateData d) t) 0
    let e := after (.fwUpdateEnd (cmd [])) u
    let v := after (.fwImageWritten true) e
    let x := after (.fwImageWritten false) e
    let short := after (.fwImageWritten true) (after (.fwUpdateEnd (cmd [])) t)
    let late := after .fwSessionTimeout u
    let wrong := after (.fwImageWritten true) (match e.cmd.fw with
      | some f => { e with cmd := { e.cmd with fw := some { f with crc := f.crc + 1 } } }
      | none => e)
    let rec1 := after (.fwImageWritten true) { e with flt := { e.flt with toRecord := [retireEntry 5 0 0] } }
    [accepts0 s b 0x70 3, told t b 0x70 stOk 0 [], (t.cmd.fw.map fun f => (f.slot, f.length, f.direct, f.next)) == some (1, 16, true, 0), !(t.image 1).valid, told u d 0x70 stOk 0 [],
      (u.cmd.fw.map fun f => (f.data, f.next)) == some ([(0, 1#64), (1, 0x0500000000000000#64)], 16), told (after (.fwUpdateData (cmd (8#64 :: ws))) t) d 0x70 stBadParam 1 [],
      (e.cmd.sysOp.map fun o => o.op) == some 0x70, told v (cmd []) 0x70 stOk 0 [], (v.image 1).generation == 2, (v.image 1).major == 5, v.cmd.fw == none, !(x.image 1).valid,
      x.flt.inflight.map (fun r => (r.source, r.cause)) == [(0x80F8, 0x15)], short.flt.inflight.length == 1, short.pw == t.pw, wrong.pw == e.pw, wrong.cmd.fw == none, wrong.flt.inflight.map (fun r => (r.source, r.cause)) == [(0x80F8, 0x15)], rec1.pw.recA == [retireEntry 5 0 0], rec1.flt.toRecord.isEmpty, late.cmd.fw == none, late.tb.tick == 96000000000,
      told (after (.fwUpdateBegin (cmd [0#64, 16#64, 0#64])) s) b 0x70 stBadParam 1 []]) = true := by decide +kernel
theorem test_directory : ok (
    let s := (State.reset.put F.pwd_boot_on 3 0)
    let s := (upTo 0 30).foldl (fun s i => if i = 3 then s else s.put F.pwd_boot_on i 1) s
    let t := after .directoryRewrite { s with pw := { s.pw with dirDirty := true }, flt := { s.flt with toRecord := [retireEntry 5 0 0] } }
    [s.useA, t.directory.seq == 2, t.pw.dirA == s.pw.dirA, !t.pw.dirDirty, t.flt.toRecord.isEmpty, t.pw.recA == [retireEntry 5 0 0], t.directory.bootOn == 0x3FFFFFF7#30, after .directoryRewrite s == s]) = true := by decide +kernel

/-! ### The stages that all commands share -/

/-- A partition 9 bound to host lane 3, which is UP, and claimed. -/
def nine : State := (((up [0]).setWord 12 1 9 0x8003000000000000#64).put F.part0_claimed 9 1).put F.lsa_state 3 5

/-- The packets of the replies that wait on lane 3. -/
def toThree (t : State) : List (List (List Word)) := (t.hlane 3).replies.map fun r => r.packets

theorem test_engine_stages : ok (
    let s := up []
    let c := { cmd [16#64] with part := 9, lane := some 3 }
    let awl := { s with flt := { s.flt with awl := [(0x80F7, 1)] } }
    let t := after (.nop (cmd [])) awl
    [passes nine c 0x60, toThree (after (.powerDomainOn c) nine) == [replyPackets 1 0x60 9 7 stNotOwner 0 []], canArrive awl (cmd []), told t (cmd []) 0x00 stInternal 0 [],
      t.flt.inflight.map (fun r => (r.source, r.cause, r.injected)) == [(0x80F7, 0x03, true), (0x80F8, 0x15, false)], t.flt.awl.isEmpty, t.cmd.resync,
      told (after (.nop { cmd [] with resv := 1 }) s) (cmd []) 0x00 stBadParam 0 [], told (after (.powerDomainOn (cmd [])) s) (cmd []) 0x60 stBadParam 0 [],
      told (after (.nop (cmd [0#64])) s) (cmd []) 0x00 stBadParam 1 [], told (after (.powerDomainOn (cmd [32#64])) s) (cmd []) 0x60 stBadParam 1 [],
      told (after (.laneUp (cmd [16#64, 0#64])) (up [0])) (cmd []) 0x30 stBadParam 2 []]) = true := by decide +kernel
theorem test_engine_unknown : ok (
    let put := fun (h : Word) (s : State) => after (.commandTake none 0) { s with cmd := { s.cmd with smpIn := some [h, 0#64] } }
    let wrong : Word := 0x7700000701000000#64
    let busy := (up []).setChan 0 { op := 0x13, since := 0 }
    let far := put 0x7705000701000000#64 (up [])
    let form := { nine with hlanes := mset HLane.init nine.hlanes 3 { nine.hlane 3 with rx := [[0x6009000701070000#64, 0#64]] } }
    [!knownOp 0x77, told (put wrong (up [])) (cmd []) 0x77 stBadOpcode 0 [], told (put wrong busy) (cmd []) 0x77 stBusy 0 [0x1300000000000000#64],
      far.get F.part3_not_owner 5 == 1, told far { cmd [] with part := 5 } 0x77 stNotOwner 0 [], told (put 0x1300000701020000#64 (up [])) (cmd []) 0x13 stBadParam 0 [],
      knownOp 0x60, sysOnly 0x60, toThree (after (.commandTake (some 3) 0) form) == [replyPackets 1 0x60 9 7 stNotOwner 0 []]]) = true := by decide +kernel
theorem test_binding_waits : ok (
    let s := (up [0]).put F.lsa_state 7 5
    let t := after (.partitionBind (cmd [BitVec.ofNat 64 (9 * 1024 + 7)])) s
    let f := frameOf 6 [0x0209000700000000#64]
    let early := after (.hostFrameReceive 7 f) t
    let late := after (.hostFrameReceive 7 f) (freeChan t 0)
    let gone := (up [0]).setWord 12 1 9 0x8007000000000000#64 |>.put F.lsa_state 7 10
    let u := after (.partitionUnbind (cmd [BitVec.ofNat 64 (9 * 1024 + 7)])) gone
    [t.cmd.binding == some (9, 7, true), !t.boundNow 9 7, (freeChan t 0).boundNow 9 7, (early.hlane 7).heard == [false], (late.hlane 7).heard == [true],
      (after (.commandTake (some 7) 0) (freeChan early 0)).get F.part3_not_owner 9 == 1, (after (.commandTake (some 7) 0) late).get F.part3_not_owner 9 == 0,
      told u (cmd []) 0x0A stOk 0 [], u.bound 9 == []]) = true := by decide +kernel
theorem test_abandoned_reply : ok (
    let s := after (.nop (cmd [])) (up [])
    let t := after (.lockstepMismatch 0) s
    [(s.chan 0).op == 0x00, s.cmd.smpOut.length == 1, t.cmd.smpOut.length == 1, told t (cmd []) 0x00 stInternal 0 [], t.flt.inflight.map (fun r => r.source) == [0x80F7, 0x80F8]]) = true := by
  decide +kernel

/-! ### Refused writes, spaced Cinches -/

/-- A staged write, or one that acts at once, is refused with a status, a detail and words, and leaves the pending words as they were. -/
def refusesWrite (live : Bool) (s : State) (ps : List Word) (st d : Nat) (ws : List Word) : Bool :=
  let c := cmd ps
  let op := if live then 0x12 else 0x11
  let t := after (if live then .writeLive c else .writeStaged c) s
  accepts s c op (2 + (descOf (c.par 0)).count) && descOk (c.par 0) && !checksPass live c s && told t c op st d ws && t.cmd.staged == s.cmd.staged && t.cmd.written == s.cmd.written

theorem test_write_refusals : ok (
    let s := up [16]
    let mask : Word := 0xFFFFFFFF00000000#64
    let ok1 : Word := 0x0010000000000000#64
    let three := { s with cmd := { s.cmd with staged := [(wkey 8 0 5, { part := 3, word := ok1 })] } }
    let c9 := { cmd [descWord 9 1 0 1, 0#64, 0#64] with part := 9, lane := some 3 }
    let hist := (List.range 128).foldl (fun s k => s.setWord 3 0 (k + 1) 0x6000008000000000#64) s
    [refusesWrite false s [descWord 8 0 5 2, mask, ok1, 0x0000063F00000000#64] stBadParam 4 [], toThree (after (.writeStaged c9) nine) == [replyPackets 1 0x11 9 7 stNotOwner 0 []],
      refusesWrite false s [descWord 8 0 5 1, 1#64, 1#64] stBadParam 2 [], refusesWrite true s [descWord 4 6 0 1, 0xFF00000000000000#64, 0#64] stBadParam 2 [],
      refusesWrite true (up [0]) [descWord 5 2 16 1, 0x4000#64, 0#64] stBadParam 3 [], refusesWrite false (s.put F.tileMap_state 0 2) [descWord 3 0 7 1, 0#64, 0#64] stRetired 0 [],
      refusesWrite false s [descWord 4 1 64 1, 0#64, 0#64] stNoResource 0 [], refusesWrite false s [descWord 3 0 7 1, 0x0000060000000000#64 ||| 0x7FFFFF#64, 0x0000040000000007#64] stBadParam 3 [],
      refusesWrite true hist [descWord 3 0 0 1, 0xE000018000000000#64, 0x6000008000000000#64] stNoResource 0 [],
      refusesWrite true three [descWord 8 0 5 1, mask, ok1] stStagedConflict 0 [], refusesWrite false three [descWord 8 0 5 1, mask, ok1] stStagedConflict 0 [3#64]]) = true := by decide +kernel
theorem test_cinch_spaced : ok (
    let s := { up [16] with cmd := { (up [16]).cmd with prev := [(wkey 8 0 5, { old := 0#64, full := 8192, cinch := some 8192 })] } }
    let w := freeChan (after (.writeStaged (cmd [descWord 8 0 5 1, 0xFFFFFFFF00000000#64, 0x0010000000000000#64])) s) 0
    let c := cmd [0#64]
    let j := after (.cinchCheckEnd 100) (after (.cinch c) w)
    let g := after (.cinchGo 200) j
    let b := after .cinchBoundary g
    [j.cmd.cinches.map (fun j => (j.full, j.spaced)) == [(532480, true)], g.cmd.smpOut == w.cmd.smpOut, (g.chan 0).op == 0x13, g.cmd.gone.map (fun x => (x.full, x.reply)) == [(532480, some c)], g.cmd.staged.isEmpty,
      told b c 0x13 stOk 1 [532480#64], b.full == 532480, b.word 8 0 5 == 0x0010000000000000#64]) = true := by decide +kernel

/-! ### Time, partners, lanes and queues -/

theorem test_second_of_voters : ok (
    let sum := fun (period : Nat) => (upTo 0 5).foldl (fun (m : RegSum) k => m.add (7 + k * period) (k = 3)) RegSum.init
    let s := (((locked [27]).put F.refsel0_xmeas_en 0 1).put F.refs_state 0 4).put F.refs_state 2 4
    let at1 := fun (st : Nat) (period : Nat) (x : RefX) => ({ (s.put F.refs_state 1 st).setRefx 1 x with rf := { (s.setRefx 1 x).rf with sums := [(0, sum 1638400), (1, sum period), (2, sum 1638400)] } } : State)
    let second := fun (v : State) => after (.refMonitorSecond true 9) v
    let far := second (at1 4 1638500 { s.refx 1 with okRun := 9 })
    [far.refState 1 == 5, far.refState 0 == 4, far.refState 2 == 4, (second (at1 4 1638500 { s.refx 1 with okRun := 8 })).refState 1 == 4,
      (second (at1 5 1638400 { s.refx 1 with clearRun := 9 })).refState 1 == 3, (second (at1 3 1638400 { s.refx 1 with qualRun := s.get F.refsel1_qual_s 0 - 1 })).refState 1 == 4]) = true := by decide +kernel
theorem test_epoch_waits : ok (
    let q := fun (t c : Nat) => ({ caravan := 0, time := t, chan := c, words := [BitVec.ofNat 64 c] } : QHit)
    let s := (feed.setTile 0 { Tile.init with k0 := 1 }).setHq 0 { HQueue.init with hits := [q 5 25], carried := true, nextK := some 0, epochDue := some (single [5#64]) }
    let t := after (.hostCaravanClose 0) s
    let v := after (.hostCaravanClose 0) { s with tb := { s.tb with epoch := 1#16 } }
    [(t.hq 0).incoming.length == 4, (t.hq 0).incoming.head? == some (single [5#64]), (t.hq 0).epochDue.isNone, (v.hq 0).incoming.length == 3, (v.hq 0).epochDue == some (single [5#64])]) = true := by decide +kernel
theorem test_monitor_edges_alone : ok (
    let s := timing.put F.refsel0_xmeas_en 0 1
    let t := after (.comparatorTransition 120 true 1124050) (after (.comparatorTransition 120 true 1024050) s)
    let p := timing.put F.pcmp_tot_en 0 1
    let late := after (.comparatorTransition 0 false 4300051) (after (.comparatorTransition 0 true 1024050) p)
    let last := after (.comparatorTransition 0 false 4300050) (after (.comparatorTransition 0 true 1024050) p)
    [!s.foreground 120 10, (t.comp 120).held.length == 2, t.get F.psta_merged 60 == 0, t.get F.psta_coarse_only 60 == 0, (late.comp 0).openPulse.isNone,
      (late.comp 0).held.map (fun x => x.pulse) == [.timedOut], late.get F.pstb_late_trail 0 == 1, (last.comp 0).held.map (fun x => x.pulse) == [.closed 4300050, .none], last.get F.pstb_late_trail 0 == 0]) = true := by decide +kernel
theorem test_echo_after_its_exchange : ok (
    let s := timed 1 { Model.init with ended := [bn3] }
    let w : Word := BitVec.ofNat 64 (3 * 2 ^ 48 + 5)
    [(after (.echoReceive 16 w (163841 * 102400) 7 true) s).get F.ltsd_late_echo 16 == 0, (after (.echoReceive 16 w (163842 * 102400) 7 true) s).get F.ltsd_late_echo 16 == 1,
      ((after (.echoReceive 16 w 204800 7 true) s).model 16).echoes.isEmpty]) = true := by decide +kernel
theorem test_lane_commands_off : ok (
    let s := up []
    let c := cmd [16#64]
    let phase5 := (lane16 1 LaneX.init).put F.pwg_phase 0 5
    [laneOk s c 16, told (after (.laneDown c) s) c 0x31 stNoResource 0 [], told (after (.laneRetrain c) s) c 0x32 stNoResource 0 [], told (after (.laneTestStart c) s) c 0x34 stNoResource 0 [],
      told (after (.laneTestStop c) s) c 0x34 stNoResource 0 [], told (after (.laneTestRead c) s) c 0x34 stNoResource 0 [], told (after (.laneRetire c) s) c 0x35 stNoResource 0 [],
      (after (.signalDetect 16) phase5).laneState 16 == 2, (after (.signalDetect 16) phase5).out.isEmpty]) = true := by decide +kernel
theorem test_queue_turns : ok (
    let off := (queue0 { HQueue.init with incoming := [rec 11 3] }).put F.pws_pstate 0 0
    let t := after (.hostRecordWrite 0 false) off
    let h : HQueue := { HQueue.init with recs := [rec 11 136], wp := 136, stalled := true }
    let two := (((((up [0, 28]).setHq 0 h).setHq 1 h).put F.qha_fill 0 17).put F.qha_fill 1 17).put F.qhc_quota 1 1
    let due := { two with grants := [(2, [(1, two.spillPorts 0 - 1)])] }
    let p := (link.put F.qia_pressure 16 1).setIng 16 { Ingress.init with pausing := true }
    let c := cmd [16#64]
    let v := after (.queueStatusIngress c) p
    [off.queueEn 0, (t.hq 0).recs.isEmpty, (t.hq 0).incoming.isEmpty, ((after (.spillWrite 1 1) two).hq 1).mid == 1, (after (.spillWrite 1 1) two).grants == [(2, [(1, 1)])],
      after (.spillWrite 1 1) due == due, ((after (.spillWrite 1 0) due).hq 0).mid == 1, !v.flag F.qia_pressure 16, !(v.ing 16).pausing, told v c 0x52 stOk 0 [v.word 5 1 16, v.word 5 2 16, v.word 5 3 16, v.word 5 4 16]]) = true := by decide +kernel

/-! ### Faults, power and the boot flash -/

theorem test_scrub_anchor : ok (
    let x := fun (t : Nat) => anyHit 25 t
    let s := { up [0] with anchorQ := [(1, [x 1, x 2, x 3])] }
    let t := after (.scrubRead 12 (1 * 2 ^ 13 + 1) true) s
    let q := queue0 { HQueue.init with recs := [rec 11 3], wp := 3 }
    let awl := { q with flt := { q.flt with awl := [(0x4000, 2)] } }
    let once := { quotas.put F.pws_pstate 28 3 with flt := { quotas.flt with ergReread := [9] } }
    [mget [] t.anchorQ 1 == [x 1, x 3], t.get F.qan_prec_drops 1 == 1, raised t == [(0x80F2, 0x01, 0)], after (.scrubRead 12 (1 * 2 ^ 13 + 1) false) s == s, after (.scrubRead 12 (1 * 2 ^ 13 + 3) true) s == s,
      awl.scrubSource 1 0 == some 0x4000, after (.scrubRead 1 0 false) awl == after (.scrubRead 1 0 true) awl, ((after (.scrubRead 1 0 false) awl).hq 0).recs.isEmpty, once.stackOn 0, inRange once,
      after (.scrubRead 13 0 true) s == s]) = true := by decide +kernel
theorem test_escalation_after_verdict : ok (
    let on := fun (n sev : Nat) (x : SrcX) => (((up [0]).put F.fsa_state n 1).put F.fsa_sev_held n sev).setSrc n { x with timer := some 50 }
    let r := after (.escalationExpiry 3) ((on 3 2 { SrcX.init with retired := true }).put F.fsc_retire_en 3 1)
    let e := after (.escalationExpiry 0x0404) ((on 0x0404 3 SrcX.init).put F.pws_pstate 0 4)
    [r.get F.fsa_state 3 == 2, r.flt.history.getLast?.map (fun h => bits h.1 37 35) == some 5, !r.flag F.fsa_retired 3, e.get F.pws_pstate 0 == 0, e.get F.fsa_state 0x0404 == 2]) = true := by decide +kernel
theorem test_flash_commands : ok (
    let program := fun (a n : Nat) => [Out.boot 0x06 0 0, .boot 0x12 a n, .boot 0x05 0 1]
    let erase := fun (op a : Nat) => [Out.boot 0x06 0 0, .boot op a 0, .boot 0x05 0 1]
    let s := { up [] with flt := { (up []).flt with toRecord := [retireEntry 5 0 0] } }
    let t := after .retirementRecordWrite s
    let busy := { s with pw := { s.pw with dirDirty := true } }
    let d := after .directoryRewrite { up [] with pw := { (up []).pw with dirDirty := true } }
    let b := after (.fwUpdateBegin (cmd [1#64, 48#64, 0#64])) (up [])
    let w := after (.fwUpdateData (cmd [0#64, 1#64, 2#64])) (freeChan b 0)
    let v := after (.fwUpdateData (cmd [16#64, 1#64, 2#64, 3#64, 4#64])) (freeChan w 0)
    [!s.flashBusy, t.out == program 0x40008 8 ++ program 0x80008 8, t.freeCount == s.freeCount, busy.flashBusy, !busy.flt.toRecord.isEmpty, busy.pw.recA.isEmpty, busy.pw.recB.isEmpty, (up []).useA,
      d.out == erase 0x21 0x1000 ++ program 0x1000 24, (b.cmd.fw.map fun f => (f.direct, f.erasing)) == some (true, true), b.out.length == 3072, b.out.take 3 == erase 0xDC 0x4100000,
      b.out.drop 3069 == erase 0xDC 0x80F0000, w.out == b.out, (w.cmd.fw.map fun f => f.erasing) == some false, v.out.drop 3072 == program 0x4100020 16]) = true := by decide +kernel
theorem test_session_times_out_in_a_selftest : ok (
    let b := freeChan (after (.fwUpdateBegin (cmd [1#64, 48#64, 0#64])) (up [])) 0
    let during := fun (op : Nat) => { b with cmd := { b.cmd with sysOp := some { op := op, cmd := cmd [], since := 0 } } }
    [(after .fwSessionTimeout (during 0x62)).cmd.fw == none, after .fwSessionTimeout (during 0x70) == during 0x70]) = true := by decide +kernel
theorem test_startup_finds_rails : ok (
    let t := after (.startupPhase 5) (starting 1)
    let two := after (.startupPhase 5) (starting 2)
    [t.pw.rails == 5, t.flag F.pws_rail_ok 0, !t.flag F.pws_rail_ok 1, t.flag F.pws_rail_ok 2, two.out == [.boot 0x13 0 24, .boot 0x13 0x1000 24], two.pw.rails == 5]) = true := by decide +kernel
theorem test_reset_directory : ok [State.reset.pw.dirA.valid, crc32 State.reset.pw.dirA.body == State.reset.pw.dirA.crc, crc32 State.reset.pw.dirB.body == State.reset.pw.dirB.crc,
    !Directory.none.valid, Directory.none.khz == 12500] = true := by decide +kernel
theorem test_selftest_failure : ok (
    let c := cmd [8#64]
    let t := after (.selftest c) (up [0])
    let d := after (.selftestComplete [{ bit := 3, failed := [(5, 0), (0x0405, 0)], tested := 0, run := true }]) t
    [isSource 5, covers 3 5, !covers 3 0x0405, t.testable 5, told d c 0x62 stOk 0 [pack [(63, 56, 3), (55, 54, 1), (53, 32, 1), (31, 0, 64)]], raised d == [(5, 0x01, 0)]]) = true := by decide +kernel

end Sys2Proof.Tests
end

section
/-! PROOF. Rows of numbers, sums over lists, and bits: what the proofs below read off them. -/

namespace Sys2Proof.Machine

theorem bits_zero (hi lo : Nat) : bits 0#64 hi lo = 0 := by simp [bits]

theorem b2n_lt_two (b : Bool) : b2n b < 2 := by cases b <;> decide

theorem upTo_zero (n : Nat) : upTo 0 n = List.range n := by simp [upTo]

theorem upTo_succ (a n : Nat) : upTo a (n + 1) = upTo a n ++ [a + n] := by
  simp [upTo, List.range_succ]

theorem upTo_cons (a n : Nat) : upTo a (n + 1) = a :: upTo (a + 1) n := by
  simp [upTo, List.range_succ_eq_map, Function.comp_def, Nat.add_assoc, Nat.add_comm 1]

theorem sumOver_append {α : Type} (f : α → Nat) (xs ys : List α) : sumOver f (xs ++ ys) = sumOver f xs + sumOver f ys := by
  induction xs with
  | nil => simp [sumOver]
  | cons x xs ih => simp [sumOver, ih, Nat.add_assoc]

end Sys2Proof.Machine
end

section
/-! PROOF. The checks that a command has passed, and what NOP, IDENTIFY and STATUS answer (R8, R377, R382, R411). -/

namespace Sys2Proof.Machine

open Sys2Proof.Claims

/-! ### A command that passes -/

/-- What the engines' checks up to row 6 of R377 have found of a command that passes them. -/
theorem passes_iff (s : State) (c : Cmd) (op : Nat) : passes s c op = true ↔
    canArrive s c = true ∧ isBound (advanceTo s c.tick) c = true ∧ (advanceTo s c.tick).chanBusy c.part = false ∧
      ((advanceTo s c.tick).phase = 7 && !recoveryOpcode op) = false ∧
      (c.part = 0 || (advanceTo s c.tick).flag F.part0_claimed c.part || openOpcode op) = true ∧
      mget 0 (advanceTo s c.tick).flt.awl (dieSource 15 7) = 0 := by
  simp only [passes, Bool.and_eq_true, Bool.not_eq_true', decide_eq_true_eq, and_assoc]

/-- A command that passes is settled as its row 7 answers. -/
theorem runCmd_of_passes {s : State} {c : Cmd} {op : Nat} (h : passes s c op = true) (body : State → Result) :
    runCmd op c body s = settle (advanceTo s c.tick) c op (body (advanceTo s c.tick)) := by
  obtain ⟨arrives, bound, free, recovery, claimed, awl⟩ := (passes_iff s c op).mp h
  exact runCmd_eq op c body s arrives bound free recovery claimed awl

/-- While a command passes, no system-wide operation is under way. -/
theorem sysOp_of_passes {s : State} {c : Cmd} {op : Nat} (h : passes s c op = true) : s.cmd.sysOp = none := by
  obtain ⟨-, -, free, -⟩ := (passes_iff s c op).mp h
  simp only [State.chanBusy, Bool.or_eq_false_iff, advanceTo_cmd] at free
  simpa using free.2

theorem accepts_iff (s : State) (c : Cmd) (op n : Nat) : accepts s c op n = true ↔ passes s c op = true ∧ c.resv = 0 ∧ c.params.length = n := by
  simp only [accepts, Bool.and_eq_true, decide_eq_true_eq, and_assoc]

/-- The checks of stages 1 and 3 let an accepted command without words through. -/
theorem checked_noMore_zero {c : Cmd} (hr : c.resv = 0) (hn : c.params.length = 0) (k : Result) : checked c false 0 (noMore c 0 k) = k := by
  rw [checked_eq c false 0 _ rfl hr hn]
  exact refuseIf_false _ _ _ (by simp [hn])

/-- An accepted command without words, of any partition, whose row 7 answers at once and leaves what it found. -/
theorem ends_of_accepts {i : Instr} {s : State} {c : Cmd} {op : Nat} {ws : State → List Word} (h : accepts s c op 0 = true)
    (he : exec i s = .next (runCmd op c (fun u => checked c false 0 (noMore c 0 (.done u stOk 0 (ws u)))) s)) :
    ends i s c op (advanceTo s c.tick) stOk 0 (ws (advanceTo s c.tick)) := by
  obtain ⟨hp, hr, hn⟩ := (accepts_iff s c op 0).mp h
  rw [ends, he, runCmd_of_passes hp, checked_noMore_zero hr hn]
  rfl

/-! ### The words of IDENTIFY and STATUS -/

/-- IDENTIFY word 0 (R8). -/
def identifyWord0 (s : State) : Word :=
  pack [(63, 48, 0x5C20), (47, 40, 0xB0), (39, 32, 0xB0), (31, 24, 0xB1), (23, 20, 1), (19, 16, 4), (8, 0, (upTo 0 1024).countP s.host)]

/-- IDENTIFY word 1 (R8). -/
def identifyWord1 (s : State) : Word :=
  let i := s.image s.pw.slot
  pack ((31, 0, Config.serial.toNat) :: if s.phase = 7 then [(39, 32, 0xFF)] else [(63, 56, i.major), (55, 48, i.minor), (47, 40, i.patch), (39, 32, s.pw.slot)])

/-- The fields of IDENTIFY word 0. -/
theorem bits_identifyWord0 (s : State) :
    bits (identifyWord0 s) 63 48 = 0x5C20 ∧ bits (identifyWord0 s) 47 40 = 0xB0 ∧ bits (identifyWord0 s) 39 32 = 0xB0 ∧
      bits (identifyWord0 s) 31 24 = 0xB1 ∧ bits (identifyWord0 s) 23 20 = 1 ∧ bits (identifyWord0 s) 19 16 = 4 ∧
      bits (identifyWord0 s) 15 9 = 0 ∧ bits (identifyWord0 s) 8 0 = ((List.range 1024).filter s.host).length % 512 := by
  simp [identifyWord0, pack, bits_setBits_self, bits_setBits_apart, bits_zero, upTo_zero, List.countP_eq_length_filter]

/-- The fused serial number in IDENTIFY word 1. -/
theorem bits_identifyWord1_serial (s : State) : bits (identifyWord1 s) 31 0 = Config.serial.toNat := by
  have h := Nat.mod_eq_of_lt Config.serial.isLt
  by_cases hp : s.phase = 7 <;> simp [identifyWord1, hp, pack, bits_setBits_self, bits_setBits_apart, h]

/-- In recovery IDENTIFY names no firmware, and slot 0xFF. -/
theorem bits_identifyWord1_recovery {s : State} (hp : s.phase = 7) :
    bits (identifyWord1 s) 63 40 = 0 ∧ bits (identifyWord1 s) 39 32 = 0xFF := by
  simp [identifyWord1, hp, pack, bits_setBits_self, bits_setBits_apart, bits_zero]

/-- The running firmware and its slot. -/
theorem bits_identifyWord1_running {s : State} (hp : s.phase ≠ 7) :
    bits (identifyWord1 s) 63 56 = (s.image s.pw.slot).major % 256 ∧ bits (identifyWord1 s) 55 48 = (s.image s.pw.slot).minor % 256 ∧
      bits (identifyWord1 s) 47 40 = (s.image s.pw.slot).patch % 256 ∧ bits (identifyWord1 s) 39 32 = s.pw.slot % 256 := by
  simp [identifyWord1, hp, pack, bits_setBits_self, bits_setBits_apart]

/-- PART word 0 as a command of its partition shows it while no system-wide operation is under way: the word in force, with the command on the channel. -/
theorem bits_partWord_self {s : State} (h : s.cmd.sysOp = none) (p op : Nat) :
    bits (s.partWord p p op) 63 21 = bits (s.word 12 0 p) 63 21 ∧ bits (s.partWord p p op) 20 13 = op % 256 ∧
      bits (s.partWord p p op) 12 12 = 0 ∧ bits (s.partWord p p op) 11 11 = s.get F.part0_claim_smp p := by
  simp [State.partWord, h, bits_setBits_self, bits_setBits_apart, b2n]
  rfl

end Sys2Proof.Machine

namespace Sys2Proof

open Sys2Proof.Machine Sys2Proof.Claims

/-- Settles O14: each of the three answers at once with the state as it found it; the rest is the fields of the reply words. -/
theorem nopIdentifyStatus : Obligations.NopIdentifyStatus := by
  intro c s
  refine ⟨fun h => ends_of_accepts (ws := fun _ => []) h rfl, fun h => ?_, fun h => ?_⟩
  · have done := ends_of_accepts (i := .identify c) (ws := fun u => [identifyWord0 u, identifyWord1 u]) h rfl
    obtain ⟨part, anchor, lane, core, package, erg, spare, hosts⟩ := bits_identifyWord0 (advanceTo s c.tick)
    exact ⟨_, _, done, part, anchor, lane, core, package, erg, spare, hosts, bits_identifyWord1_serial _, bits_identifyWord1_recovery,
      bits_identifyWord1_running⟩
  · obtain ⟨passed, -⟩ := (accepts_iff s c 0x02 0).mp h
    have done := ends_of_accepts (i := .status c) (ws := fun u => [devWord u.nowFine, u.partWord c.part c.part 0x02]) h rfl
    have free : (advanceTo s c.tick).cmd.sysOp = none := by rw [advanceTo_cmd, sysOp_of_passes passed]
    exact ⟨_, done, bits_partWord_self free c.part 0x02⟩

end Sys2Proof
end


section
/-! PROOF. The order of the engines' checks: rows 3 to 6 of R377, and the stages that all commands share (R508). -/

namespace Sys2Proof.Machine

open Sys2Proof.Claims

/-! ### The stages that all commands share -/

/-- What the stages of R508 that all commands share make of the answer `r` of row 7: partition 0 alone, the header and the least number of words, a surplus word
after a form without words, and the fields of the one word of `onlyFields` with a surplus word after it. -/
def commonStages (op form : Nat) (c : Cmd) (r : Result) : Prop :=
  (sysOnly op = true → c.part ≠ 0 → r = .fail stNotOwner 0 []) ∧
  ((sysOnly op = true → c.part = 0) →
    (c.resv ≠ 0 ∨ c.params.length < leastWords op form → r = .fail stBadParam 0 []) ∧
    (c.resv = 0 → noWords op form = true → c.params ≠ [] → r = .fail stBadParam 1 []) ∧
    (∀ fs, c.resv = 0 → onlyFields op = some fs →
      (c.params.length = 1 → stray (c.par 0) fs = true → r = .fail stBadParam 1 []) ∧
      (c.params.length = 2 → [0x0A, 0x30, 0x31, 0x32, 0x34, 0x35, 0x3A].contains op → stray (c.par 0) fs = false → r = .fail stBadParam 2 [])))

section
variable {op form : Nat} {c : Cmd} {k : Result}

theorem checked_notOwner {sys : Bool} (n : Nat) (hs : sys = true) (hp : c.part ≠ 0) : checked c sys n k = .fail stNotOwner 0 [] := by
  simp [checked, hs, hp]

theorem checked_badHeader {sys : Bool} {n : Nat} (hs : sys = true → c.part = 0) (h : c.resv ≠ 0 ∨ c.params.length < n) :
    checked c sys n k = .fail stBadParam 0 [] := by
  have hp : (sys && c.part ≠ 0) = false := by cases sys <;> simp_all
  unfold checked
  rw [hp]
  by_cases hr : c.resv = 0
  · simp [hr, h.resolve_left (not_not_intro hr)]
  · simp [hr]

theorem checked_passed {sys : Bool} {n : Nat} (hs : sys = true → c.part = 0) (hr : c.resv = 0) (hn : n ≤ c.params.length) :
    checked c sys n k = k := by
  have hp : (sys && c.part ≠ 0) = false := by cases sys <;> simp_all
  unfold checked
  rw [hp]
  simp [hr, Nat.not_lt.mpr hn]

/-- A form with words whose opcode is none of `onlyFields` has the first two stages alone. -/
theorem commonStages_of_header {r : Result} (hw : noWords op form = false) (hf : onlyFields op = none)
    (owner : sysOnly op = true → c.part ≠ 0 → r = .fail stNotOwner 0 [])
    (header : (sysOnly op = true → c.part = 0) → c.resv ≠ 0 ∨ c.params.length < leastWords op form → r = .fail stBadParam 0 []) :
    commonStages op form c r :=
  ⟨owner, fun hs => ⟨header hs, fun _ h => absurd (hw.symm.trans h) (by decide), fun fs _ h => absurd (hf.symm.trans h) (by simp)⟩⟩

/-- The same, where `checked` makes the first two stages, with at least the words that the form has. -/
theorem commonStages_checked {n : Nat} (hw : noWords op form = false) (hf : onlyFields op = none) (hn : leastWords op form ≤ n) :
    commonStages op form c (checked c (sysOnly op) n k) :=
  commonStages_of_header hw hf (checked_notOwner n) fun hs h => checked_badHeader hs (h.imp_right fun hl => Nat.lt_of_lt_of_le hl hn)

/-- A form without words. -/
theorem commonStages_noWords (hf : onlyFields op = none) (hn : leastWords op form = 0) :
    commonStages op form c (checked c (sysOnly op) 0 (noMore c 0 k)) := by
  refine ⟨checked_notOwner 0, fun hs => ⟨fun h => checked_badHeader hs (hn ▸ h), fun hr _ hp => ?_, fun fs _ h => absurd (hf.symm.trans h) (by simp)⟩⟩
  rw [checked_passed hs hr (Nat.zero_le _)]
  exact refuseIf_true _ _ _ (decide_eq_true (List.length_pos_iff.mpr hp))

/-- A form of one word with fields: its check `b` refuses a 1 outside them, and nothing else where a surplus word is next. -/
theorem commonStages_fields {fs : List (Nat × Nat)} {b : Bool} (hf : onlyFields op = some fs) (hw : noWords op form = false) (hn : leastWords op form = 1)
    (hb : stray (c.par 0) fs = true → b = true)
    (hq : [0x0A, 0x30, 0x31, 0x32, 0x34, 0x35, 0x3A].contains op → stray (c.par 0) fs = false → b = false) :
    commonStages op form c (checked c (sysOnly op) 1 (refuseIf b stBadParam 1 (noMore c 1 k))) := by
  refine ⟨checked_notOwner 1, fun hs => ⟨fun h => checked_badHeader hs (hn ▸ h), fun _ h => absurd (hw.symm.trans h) (by decide), fun fs' hr h => ?_⟩⟩
  obtain rfl : fs = fs' := Option.some.inj (hf.symm.trans h)
  refine ⟨fun hl hx => ?_, fun hl ho hx => ?_⟩
  · rw [checked_passed hs hr (by omega), refuseIf_true _ _ _ (hb hx)]
  · rw [checked_passed hs hr (by omega), refuseIf_false _ _ _ (hq ho hx)]
    exact refuseIf_true _ _ _ (by simp [hl])

/-- The same where the fields are all that is checked of the word. -/
theorem commonStages_onlyFields {fs : List (Nat × Nat)} (hf : onlyFields op = some fs) (hw : noWords op form = false) (hn : leastWords op form = 1) :
    commonStages op form c (checked c (sysOnly op) 1 (refuseIf (stray (c.par 0) fs) stBadParam 1 (noMore c 1 k))) :=
  commonStages_fields hf hw hn id fun _ h => h

/-- The same where no surplus word is looked at before other checks of the word. -/
theorem commonStages_fieldsMore {fs : List (Nat × Nat)} {b : Bool} (hf : onlyFields op = some fs) (hw : noWords op form = false) (hn : leastWords op form = 1)
    (hq : [0x0A, 0x30, 0x31, 0x32, 0x34, 0x35, 0x3A].contains op = false) (hb : stray (c.par 0) fs = true → b = true) :
    commonStages op form c (checked c (sysOnly op) 1 (refuseIf b stBadParam 1 (noMore c 1 k))) :=
  commonStages_fields hf hw hn hb fun ho => absurd (hq.symm.trans ho) (by decide)

end

/-! ### Row 7 of each command -/

/-- The operations that find the device free of commands go on. -/
theorem alone_of_free {s : State} (h : s.busyPart = none) (k : Result) : alone s k = k := by simp [alone, h]

/-- A command is taken by the engines with a row 7 that makes the common stages first. -/
def hasRow7 (i : Instr) (op form : Nat) (c : Cmd) : Prop :=
  ∃ body : State → Result, (∀ s, exec i s = .next (settled i (runCmd op c body s))) ∧
    ∀ u : State, u.busyPart = none ∨ ¬ [0x62, 0x63, 0x70].contains op → commonStages op form c (body u)

theorem hasRow7_intro {i : Instr} {op form op' form' : Nat} {c c' : Cmd} (h : some (op', form', c') = some (op, form, c)) (body : State → Result)
    (he : ∀ s, exec i s = .next (settled i (runCmd op' c' body s)))
    (hb : ∀ u : State, u.busyPart = none ∨ ¬ [0x62, 0x63, 0x70].contains op' → commonStages op' form' c' (body u)) : hasRow7 i op form c := by
  cases h
  exact ⟨body, he, hb⟩


/-- A system-wide operation that meets the guard of `hasRow7` finds every channel free. -/
theorem free_of_guard {op : Nat} {u : State} (hop : [0x62, 0x63, 0x70].contains op = true) (h : u.busyPart = none ∨ ¬ [0x62, 0x63, 0x70].contains op) :
    u.busyPart = none := h.resolve_right (not_not_intro hop)

theorem commonStages_releaseBody (c : Cmd) (u : State) : commonStages 0x09 0 c (releaseBody c u) :=
  commonStages_of_header rfl rfl (fun h => absurd h (by decide)) fun _ h => by
    have hr : c.resv ≠ 0 := h.resolve_right (Nat.not_lt_zero _)
    simp [releaseBody, hr]

theorem commonStages_writeBody {op : Nat} {c : Cmd} (hw : noWords op 0 = false) (hf : onlyFields op = none) (hs : sysOnly op = false)
    (hn : leastWords op 0 = 2) (live : Bool) (u : State) : commonStages op 0 c (writeBody live c u) :=
  commonStages_of_header hw hf (fun h => absurd (hs.symm.trans h) (by decide)) fun _ h => by
    rw [hn] at h
    by_cases hr : c.resv = 0
    · simp [writeBody, hr, h.resolve_left (not_not_intro hr)]
    · simp [writeBody, hr]

theorem commonStages_selftestBody (c : Cmd) {u : State} (h : u.busyPart = none) : commonStages 0x62 0 c (selftestBody c u) := by
  rw [selftestBody, alone_of_free h]
  exact commonStages_fieldsMore rfl rfl rfl rfl fun hx => by simp [hx]

theorem commonStages_ergClearBody (c : Cmd) {u : State} (h : u.busyPart = none) : commonStages 0x63 0 c (ergClearBody c u) := by
  rw [ergClearBody, alone_of_free h]
  exact commonStages_noWords rfl rfl

theorem commonStages_fwDataBody (c : Cmd) (u : State) : commonStages 0x70 1 c (fwDataBody c u) :=
  commonStages_of_header rfl rfl (fun _ hp => by simp [fwDataBody, hp]) fun hs h => by
    have he : c.resv ≠ 0 ∨ c.params = [] := h.imp_right fun hl => List.length_eq_zero_iff.mp (Nat.lt_one_iff.mp hl)
    simp [fwDataBody, hs rfl, he]

theorem commonStages_fwEndBody (c : Cmd) {u : State} (h : u.busyPart = none) : commonStages 0x70 2 c (fwEndBody c u) := by
  rw [fwEndBody, alone_of_free h]
  exact commonStages_noWords rfl rfl

/-- Every command whose packet reaches the engines has a row 7 that makes the common stages first. -/
theorem hasRow7_of_packet {i : Instr} {op form : Nat} {c : Cmd} (h : packet i = some (op, form, c)) : hasRow7 i op form c := by
  cases i with
  | nop c => exact hasRow7_intro h (nopBody c) (fun _ => rfl) fun _ _ => commonStages_noWords rfl rfl
  | identify c => exact hasRow7_intro h (identifyBody c) (fun _ => rfl) fun _ _ => commonStages_noWords rfl rfl
  | status c => exact hasRow7_intro h (statusBody c) (fun _ => rfl) fun _ _ => commonStages_noWords rfl rfl
  | partitionClaim c => exact hasRow7_intro h (claimBody c) (fun _ => rfl) fun _ _ => commonStages_checked rfl rfl le_rfl
  | partitionRelease c => exact hasRow7_intro h (releaseBody c) (fun _ => rfl) fun u _ => commonStages_releaseBody c u
  | partitionBind c => exact hasRow7_intro h (bindBody c) (fun _ => rfl) fun _ _ => commonStages_onlyFields rfl rfl rfl
  | partitionUnbind c => exact hasRow7_intro h (unbindBody c) (fun _ => rfl) fun _ _ => commonStages_onlyFields rfl rfl rfl
  | readObjLive c => exact hasRow7_intro h (readBody false c) (fun _ => rfl) fun _ _ => commonStages_checked rfl rfl le_rfl
  | readObjStaged c => exact hasRow7_intro h (readBody true c) (fun _ => rfl) fun _ _ => commonStages_checked rfl rfl le_rfl
  | writeStaged c => exact hasRow7_intro h (writeBody false c) (fun _ => rfl) fun u _ => commonStages_writeBody rfl rfl rfl rfl false u
  | writeLive c => exact hasRow7_intro h (writeBody true c) (fun _ => rfl) fun u _ => commonStages_writeBody rfl rfl rfl rfl true u
  | cinch c => exact hasRow7_intro h (cinchBody c) (fun _ => rfl) fun _ _ => commonStages_checked rfl rfl le_rfl
  | discardStaged c => exact hasRow7_intro h (discardBody c) (fun _ => rfl) fun _ _ => commonStages_noWords rfl rfl
  | refSelectAuto c => exact hasRow7_intro h (refSelect 0 c) (fun _ => rfl) fun _ _ => commonStages_checked rfl rfl le_rfl
  | refSelectForced c => exact hasRow7_intro h (refSelect 1 c) (fun _ => rfl) fun _ _ => commonStages_checked rfl rfl le_rfl
  | refSelectHoldover c => exact hasRow7_intro h (refSelect 2 c) (fun _ => rfl) fun _ _ => commonStages_checked rfl rfl le_rfl
  | refStatus c => exact hasRow7_intro h (refStatusBody c) (fun _ => rfl) fun _ _ => commonStages_noWords rfl rfl
  | timeSet c => exact hasRow7_intro h (timeSetBody c) (fun _ => rfl) fun _ _ => commonStages_checked rfl rfl le_rfl
  | ppsAlignMeasure c => exact hasRow7_intro h (ppsAlignBody false c) (fun _ => rfl) fun _ _ => commonStages_checked rfl rfl le_rfl
  | ppsAlignStep c => exact hasRow7_intro h (ppsAlignBody true c) (fun _ => rfl) fun _ _ => commonStages_checked rfl rfl le_rfl
  | calStartSweep c => exact hasRow7_intro h (calStartSweep c) (fun _ => rfl) fun _ _ => commonStages_checked rfl rfl le_rfl
  | calStartRecover c => exact hasRow7_intro h (calStartRecover c) (fun _ => rfl) fun _ _ => commonStages_checked rfl rfl le_rfl
  | calStatus c => exact hasRow7_intro h (calStatusBody c) (fun _ => rfl) fun _ _ => commonStages_checked rfl rfl le_rfl
  | calLock c => exact hasRow7_intro h (calLockBody c) (fun _ => rfl) fun _ _ => commonStages_checked rfl rfl le_rfl
  | calLockRelease c => exact hasRow7_intro h (calLockReleaseBody c) (fun _ => rfl) fun _ _ => commonStages_checked rfl rfl le_rfl
  | calTableReadInForce c => exact hasRow7_intro h (calTableRead false c) (fun _ => rfl) fun _ _ => commonStages_checked rfl rfl le_rfl
  | calTableReadWaiting c => exact hasRow7_intro h (calTableRead true c) (fun _ => rfl) fun _ _ => commonStages_checked rfl rfl le_rfl
  | laneUp c => exact hasRow7_intro h (laneUpBody c) (fun _ => rfl) fun _ _ => commonStages_onlyFields rfl rfl rfl
  | laneDown c => exact hasRow7_intro h (laneDownBody c) (fun _ => rfl) fun _ _ => commonStages_onlyFields rfl rfl rfl
  | laneRetrain c => exact hasRow7_intro h (laneRetrainBody c) (fun _ => rfl) fun _ _ => commonStages_onlyFields rfl rfl rfl
  | laneGroupConfig c => exact hasRow7_intro h (laneGroupConfigBody c) (fun _ => rfl) fun _ _ => commonStages_fieldsMore rfl rfl rfl rfl fun hx => by simp [hx]
  | laneGroupWidth c => exact hasRow7_intro h (laneGroupWidthBody c) (fun _ => rfl) fun _ _ => commonStages_onlyFields rfl rfl rfl
  | laneTestStart c => exact hasRow7_intro h (laneTestStartBody c) (fun _ => rfl) fun _ _ => commonStages_onlyFields rfl rfl rfl
  | laneTestStop c => exact hasRow7_intro h (laneTestStopBody c) (fun _ => rfl) fun _ _ => commonStages_onlyFields rfl rfl rfl
  | laneTestRead c => exact hasRow7_intro h (laneTestReadBody c) (fun _ => rfl) fun _ _ => commonStages_onlyFields rfl rfl rfl
  | laneRetire c => exact hasRow7_intro h (laneRetireBody c) (fun _ => rfl) fun _ _ => commonStages_onlyFields rfl rfl rfl
  | partnerRead c => exact hasRow7_intro h (partnerTxn 1 c) (fun _ => rfl) fun _ _ => commonStages_checked rfl rfl le_rfl
  | partnerWrite c => exact hasRow7_intro h (partnerTxn 2 c) (fun _ => rfl) fun _ _ => commonStages_checked rfl rfl (Nat.le_add_right 1 _)
  | partnerTxnStatus c => exact hasRow7_intro h (partnerTxnStatusBody c) (fun _ => rfl) fun _ _ => commonStages_onlyFields rfl rfl rfl
  | trigArm c => exact hasRow7_intro h (trigArmBody c) (fun _ => rfl) fun _ _ => commonStages_checked rfl rfl le_rfl
  | trigDisarm c => exact hasRow7_intro h (trigDisarmBody c) (fun _ => rfl) fun _ _ => commonStages_checked rfl rfl le_rfl
  | trigForce c => exact hasRow7_intro h (trigForceBody c) (fun _ => rfl) fun _ _ => commonStages_checked rfl rfl le_rfl
  | segRead c => exact hasRow7_intro h (segReadBody c) (fun _ => rfl) fun _ _ => commonStages_checked rfl rfl le_rfl
  | segRelease c => exact hasRow7_intro h (segReleaseBody c) (fun _ => rfl) fun _ _ => commonStages_checked rfl rfl le_rfl
  | segReleaseAll c => exact hasRow7_intro h (segReleaseAllBody c) (fun _ => rfl) fun _ _ => commonStages_checked rfl rfl le_rfl
  | statsGateStart c => exact hasRow7_intro h (statsGateStart c) (fun _ => rfl) fun _ _ => commonStages_checked rfl rfl le_rfl
  | statsGateStop c => exact hasRow7_intro h (statsGateStop c) (fun _ => rfl) fun _ _ => commonStages_checked rfl rfl le_rfl
  | statsReadLast c => exact hasRow7_intro h (statsRead false c) (fun _ => rfl) fun _ _ => commonStages_checked rfl rfl le_rfl
  | statsReadRunning c => exact hasRow7_intro h (statsRead true c) (fun _ => rfl) fun _ _ => commonStages_checked rfl rfl le_rfl
  | queueFlush c => exact hasRow7_intro h (queueFlushBody c) (fun _ => rfl) fun _ _ => commonStages_checked rfl rfl le_rfl
  | queueStatusIngress c => exact hasRow7_intro h (queueStatusIngressBody c) (fun _ => rfl) fun _ _ => commonStages_checked rfl rfl le_rfl
  | queueStatusHost c => exact hasRow7_intro h (queueStatusHostBody c) (fun _ => rfl) fun _ _ => commonStages_checked rfl rfl le_rfl
  | queueStatusAnchor c => exact hasRow7_intro h (queueStatusAnchorBody c) (fun _ => rfl) fun _ _ => commonStages_checked rfl rfl le_rfl
  | faultRead c => exact hasRow7_intro h (faultReadBody c) (fun _ => rfl) fun _ _ => commonStages_checked rfl rfl le_rfl
  | faultClear c => exact hasRow7_intro h (faultClearBody c) (fun _ => rfl) fun _ _ => commonStages_checked rfl rfl le_rfl
  | faultHistory c => exact hasRow7_intro h (faultHistoryBody c) (fun _ => rfl) fun _ _ => commonStages_noWords rfl rfl
  | awl c => exact hasRow7_intro h (awlBody c) (fun _ => rfl) fun _ _ => commonStages_checked rfl rfl le_rfl
  | powerDomainOn c => exact hasRow7_intro h (powerBody true c) (fun _ => rfl) fun _ _ => commonStages_fieldsMore rfl rfl rfl rfl fun hx => by simp [hx]
  | powerDomainOff c => exact hasRow7_intro h (powerBody false c) (fun _ => rfl) fun _ _ => commonStages_fieldsMore rfl rfl rfl rfl fun hx => by simp [hx]
  | tileRetire c => exact hasRow7_intro h (tileRetireBody c) (fun _ => rfl) fun _ _ => commonStages_fieldsMore rfl rfl rfl rfl fun hx => by simp [hx]
  | selftest c => exact hasRow7_intro h (selftestBody c) (fun _ => rfl) fun u hg => commonStages_selftestBody c (free_of_guard rfl hg)
  | ergClear c => exact hasRow7_intro h (ergClearBody c) (fun _ => rfl) fun u hg => commonStages_ergClearBody c (free_of_guard rfl hg)
  | fwUpdateBegin c => exact hasRow7_intro h (fwBeginBody c) (fun _ => rfl) fun _ _ => commonStages_checked rfl rfl le_rfl
  | fwUpdateData c => exact hasRow7_intro h (fwDataBody c) (fun _ => rfl) fun u _ => commonStages_fwDataBody c u
  | fwUpdateEnd c => exact hasRow7_intro h (fwEndBody c) (fun _ => rfl) fun u hg => commonStages_fwEndBody c (free_of_guard rfl hg)
  | _ => cases h

/-! ### Rows 3 to 6 -/

section
variable {op : Nat} {c : Cmd} {s : State} (body : State → Result)

/-- Row 3: a lane or port that is not bound to the partition. -/
theorem runCmd_unbound (arrives : canArrive s c = true) (unbound : isBound (advanceTo s c.tick) c = false) :
    runCmd op c body s = sendReply ((advanceTo s c.tick).satInc F.part3_not_owner c.part 1) c op stNotOwner 0 [] false := by
  simp [runCmd, arrives, unbound]

/-- Row 4: a channel that is busy. -/
theorem runCmd_busy (arrives : canArrive s c = true) (bound : isBound (advanceTo s c.tick) c = true)
    (busy : (advanceTo s c.tick).chanBusy c.part = true) :
    runCmd op c body s =
      sendReply ((advanceTo s c.tick).satInc F.part3_busy_replies c.part 1) c op stBusy 0 [busyWord (advanceTo s c.tick) c.part] false := by
  simp [runCmd, arrives, bound, busy]

/-- Row 5: an opcode outside those of recovery. -/
theorem runCmd_recovery (arrives : canArrive s c = true) (bound : isBound (advanceTo s c.tick) c = true)
    (free : (advanceTo s c.tick).chanBusy c.part = false) (recovery : (advanceTo s c.tick).phase = 7) (closed : recoveryOpcode op = false) :
    runCmd op c body s = finish (advanceTo s c.tick) c op stBadOpcode 0 [] := by
  simp [runCmd, arrives, bound, free, recovery, closed]

/-- Row 6: a partition that is not claimed. -/
theorem runCmd_unclaimed (arrives : canArrive s c = true) (bound : isBound (advanceTo s c.tick) c = true)
    (free : (advanceTo s c.tick).chanBusy c.part = false) (running : (advanceTo s c.tick).phase ≠ 7) (part : c.part ≠ 0)
    (unclaimed : (advanceTo s c.tick).flag F.part0_claimed c.part = false) (closed : openOpcode op = false) :
    runCmd op c body s = finish ((advanceTo s c.tick).satInc F.part3_not_owner c.part 1) c op stNotOwner 0 [] := by
  simp only [runCmd, arrives, bound, free, running, part, unclaimed, closed]
  simp

/-- A checker with a count of Awl pending finds what it checks failing. -/
theorem awlTake_pending {u : State} {n : Nat} (h : mget 0 u.flt.awl n ≠ 0) : (awlTake u n).2 = true := by
  unfold awlTake
  split
  · next h0 => exact absurd h0 h
  · rfl

/-- A count of Awl pending for the lockstep, met by a command of partition 0. -/
theorem runCmd_lockstep (arrives : canArrive s c = true) (bound : isBound (advanceTo s c.tick) c = true)
    (free : (advanceTo s c.tick).chanBusy c.part = false) (running : (advanceTo s c.tick).phase ≠ 7) (part : c.part = 0)
    (awl : mget 0 (advanceTo s c.tick).flt.awl (dieSource 15 7) ≠ 0) :
    runCmd op c body s = internalFault (lockstepFault (awlTake (advanceTo s c.tick) (dieSource 15 7)).1 true) c op := by
  simp only [runCmd, arrives, bound, free, running, awlTake_pending awl]
  simp [part]

end

/-- A command that passes and whose row 7 refuses it, not for a busy channel, is answered so and does nothing else. -/
theorem exec_refused {i : Instr} {op : Nat} {c : Cmd} {s : State} {body : State → Result} (he : exec i s = .next (settled i (runCmd op c body s)))
    (hp : passes s c op = true) {st d : Nat} (hst : st ≠ stBusy) (hb : body (advanceTo s c.tick) = .fail st d []) :
    exec i s = .next (settled i (finish (advanceTo s c.tick) c op st d [])) := by
  rw [he, runCmd_of_passes hp, hb]
  simp [settle, hst]

end Sys2Proof.Machine

namespace Sys2Proof

open Sys2Proof.Machine Sys2Proof.Claims

/-- Settles O7: every command is `runCmd` with a row 7 that makes the common stages first. The detail 0 of missing words and the index of a surplus one are the
model's choice (log 9), and so is ST_INTERNAL for a command past rows 3 to 6 that meets a count of Awl (log 18). -/
theorem engineChecksInOrder : Obligations.EngineChecksInOrder := by
  intro i op form c s hi arrives
  obtain ⟨body, he, stages⟩ := hasRow7_of_packet hi
  have run := he s
  refine ⟨fun unbound => ?_, fun bound busy => ?_, fun bound free recovery closed => ?_, fun bound free running part unclaimed closed => ?_,
    fun bound free running part awl => ?_, fun passed guard => ?_⟩
  · rw [run, runCmd_unbound body arrives unbound]
  · rw [run, runCmd_busy body arrives bound busy]
  · rw [run, runCmd_recovery body arrives bound free recovery closed]
  · rw [run, runCmd_unclaimed body arrives bound free running part unclaimed closed]
  · rw [run, runCmd_lockstep body arrives bound free running part awl]
  · have refused := fun (st d : Nat) (hst : st ≠ stBusy) => exec_refused (st := st) (d := d) run passed hst
    have owner : stNotOwner ≠ stBusy := by decide
    have param : stBadParam ≠ stBusy := by decide
    obtain ⟨alien, rest⟩ := stages (advanceTo s c.tick) guard
    refine ⟨fun sys part => refused _ _ owner (alien sys part), fun sys => ?_⟩
    obtain ⟨header, surplus, fields⟩ := rest sys
    refine ⟨fun h => refused _ _ param (header h), fun hr hw hp => refused _ _ param (surplus hr hw hp), fun fs hr hf => ?_⟩
    obtain ⟨outside, second⟩ := fields fs hr hf
    exact ⟨fun hl hx => refused _ _ param (outside hl hx), fun hl ho hx => refused _ _ param (second hl ho hx)⟩

end Sys2Proof
end

section
/-! PROOF. The test access port: what its instructions capture and load, and the pins that they take (R500 to R503). -/

namespace Sys2Proof.Machine

/-! ### Sums of bits -/

/-- The sum of bits at rising places, with one more bit. -/
theorem sumOver_bits_succ (f : Nat → Nat) (n : Nat) :
    sumOver (fun i => f i * 2 ^ i) (upTo 0 (n + 1)) = 2 ^ n * f n + sumOver (fun i => f i * 2 ^ i) (upTo 0 n) := by
  rw [upTo_succ, sumOver_append]
  simp [sumOver, Nat.mul_comm, Nat.add_comm]

theorem sumOver_bits_lt (f : Nat → Nat) (h : ∀ i, f i < 2) (n : Nat) : sumOver (fun i => f i * 2 ^ i) (upTo 0 n) < 2 ^ n := by
  induction n with
  | zero => simp [upTo, sumOver]
  | succ n ih =>
    have hn : 2 ^ n * f n ≤ 2 ^ n * 1 := Nat.mul_le_mul_left _ (Nat.le_of_lt_succ (h n))
    rw [sumOver_bits_succ, Nat.pow_succ]
    omega

/-- Bit k of a sum of bits at rising places is the bit at k. -/
theorem testBit_sumOver_bits (f : Nat → Nat) (h : ∀ i, f i < 2) {n k : Nat} (hk : k < n) :
    Nat.testBit (sumOver (fun i => f i * 2 ^ i) (upTo 0 n)) k = decide (f k = 1) := by
  induction n with
  | zero => omega
  | succ n ih =>
    rw [sumOver_bits_succ, Nat.testBit_two_pow_mul_add _ (sumOver_bits_lt f h n)]
    by_cases hkn : k < n
    · rw [if_pos hkn, ih hkn]
    · obtain rfl : k = n := by omega
      rw [if_neg hkn, Nat.sub_self, Nat.testBit_zero, Nat.mod_eq_of_lt (h k)]

/-! ### What the boundary register captures and takes -/

/-- A cell captures one bit when the levels that the board gives are bits. -/
theorem captured_lt_two (s : State) (board : Nat → Nat) (hb : ∀ i, board i < 2) (i : Nat) : s.captured board i < 2 := by
  unfold State.captured
  split
  · decide
  · split
    · exact b2n_lt_two _
    · split
      · exact b2n_lt_two _
      · exact hb i

/-- What a cell captures depends neither on start-up's wait for the port nor on how many free values have been drawn. -/
theorem captured_loadIr (s : State) (ir n : Nat) (board : Nat → Nat) (i : Nat) :
    ({ loadIr s ir with freeCount := n } : State).captured board i = ({ s with jtag := { s.jtag with ir := ir } } : State).captured board i := rfl

/-- The cells of a list, loaded one by one from number a on. -/
theorem mget_loadCells_foldl (cells : List Nat) (hc : ∀ x ∈ cells, x < 2) (a k : Nat) (m : SMap Nat) :
    mget 0 (((upTo a cells.length).zip cells).foldl (fun m x => mset 0 m x.1 (x.2 % 2)) m) k =
      if a ≤ k then cells.getD (k - a) (mget 0 m k) else mget 0 m k := by
  induction cells generalizing a m with
  | nil => simp [upTo]
  | cons x cells ih =>
    rw [List.length_cons, upTo_cons, List.zip_cons_cons, List.foldl_cons, ih fun y hy => hc y (List.mem_cons_of_mem x hy)]
    have hx : x % 2 = x := Nat.mod_eq_of_lt (hc x List.mem_cons_self)
    rcases Nat.lt_trichotomy k a with hk | rfl | hk
    · rw [if_neg (by omega), if_neg (by omega), mget_mset_ne _ _ _ (by omega)]
    · simp [hx]
    · obtain ⟨d, rfl⟩ : ∃ d, k = a + (d + 1) := ⟨k - a - 1, by omega⟩
      rw [if_pos (by omega), if_pos (by omega), mget_mset_ne _ _ _ (by omega)]
      simp [show a + (d + 1) - (a + 1) = d by omega]

/-- Each cell of the boundary register is the one of the list that it takes. -/
theorem loadCells_getElem? (s : State) {cells : List Nat} (hl : cells.length = 2184) (hc : ∀ x ∈ cells, x < 2) {k : Nat} (hk : k < 2184) :
    cells[k]? = some (mget 0 (loadCells s cells).jtag.cells k) := by
  have e := mget_loadCells_foldl cells hc 0 k []
  rw [hl, if_pos (Nat.zero_le k), Nat.sub_zero] at e
  simp only [loadCells]
  rw [e, List.getD_eq_getElem?_getD, List.getElem?_eq_getElem (hl ▸ hk), Option.getD_some]

/-- The boundary register's cells are all that it takes. -/
theorem loadCells_frame (s : State) (cells : List Nat) : ∃ m, loadCells s cells = { s with jtag := { s.jtag with cells := m } } := ⟨_, rfl⟩

/-! ### An instruction is loaded and captures -/

/-- The instruction code `ir` is loaded, the value `v` is captured and leaves on TDO in `n` bits, start-up's wait goes on only where the code takes pins,
and nothing else changes but the port and the free values drawn. -/
def shiftedOut (s : State) (ir v n : Nat) (t : State) : Prop :=
  t.jtag.ir = ir ∧ t.jtag.shift = v ∧ t.out = s.out ++ [.tdo n v] ∧
    t.pw = { s.pw with tapHold := s.pw.tapHold && takesPins ir } ∧ t = { s with jtag := t.jtag, pw := t.pw, out := t.out, freeCount := t.freeCount }

theorem shiftedOut_capture (s : State) (ir v k : Nat) {n : Nat} (hn : (loadIr s ir).tapLength = n) :
    shiftedOut s ir v n (capture { loadIr s ir with freeCount := k } v) := by
  subst hn
  exact ⟨rfl, rfl, rfl, rfl, rfl⟩

/-- The cells taken after a capture are no part of what has left. -/
theorem shiftedOut_loadCells {s t : State} {ir v n : Nat} (h : shiftedOut s ir v n t) (cells : List Nat) : shiftedOut s ir v n (loadCells t cells) := by
  obtain ⟨hir, hv, hout, hpw, hrest⟩ := h
  obtain ⟨m, e⟩ := loadCells_frame t cells
  rw [e]
  refine ⟨hir, hv, hout, hpw, ?_⟩
  conv_lhs => rw [hrest]

/-- CLAMP, HIGHZ and BYPASS select a register of one bit. -/
theorem tapLength_loadIr_bypass (s : State) {ir : Nat} (h : ir ∈ [0x03, 0x04, 0xFF]) : (loadIr s ir).tapLength = 1 := by
  simp only [List.mem_cons, List.not_mem_nil, or_false] at h
  rcases h with rfl | rfl | rfl <;> simp [State.tapLength, loadIr]

/-- The register of an instruction that takes the pins: the boundary register while RESET_N is low, else as BYPASS. -/
theorem tapLength_loadIr_boundary (s : State) {ir : Nat} (h : ir ∈ [0x00, 0x05, 0x06]) : (loadIr s ir).tapLength = if s.pw.resetLow then 2184 else 1 := by
  have hc : [0x00, 0x05, 0x06].contains ir = true := List.contains_iff_mem.mpr h
  have h1 : ir ≠ 0x01 := by rintro rfl; revert h; decide
  have h2 : ir ≠ 0x02 := by rintro rfl; revert h; decide
  simp only [State.tapLength, loadIr, h1, h2, hc]
  simp

/-- The levels that the board drives and the test receivers find while an instruction takes the pins: free values (log 4). -/
def freeLevels (s : State) (i : Nat) : Nat := b2n (bit (Config.freeValue (s.freeCount + i / 64)) (i % 64))

/-- An instruction that takes the pins acts as BYPASS while RESET_N is high. -/
theorem boundaryTest_high (s : State) (ir : Nat) (h : s.pw.resetLow = false) : boundaryTest s ir = capture (loadIr s ir) 0 := by
  simp [boundaryTest, loadIr, h]

/-- An instruction that takes the pins captures them while RESET_N is low. -/
theorem boundaryTest_low (s : State) (ir : Nat) (h : s.pw.resetLow = true) :
    boundaryTest s ir = capturePins { loadIr s ir with freeCount := s.freeCount + 35 } (freeLevels s) := by
  simp [boundaryTest, loadIr, h]
  rfl

/-- EXTEST, EXTEST_PULSE and EXTEST_TRAIN while RESET_N is high. -/
theorem shiftedOut_boundaryTest_high (s : State) {ir : Nat} (hir : ir ∈ [0x00, 0x05, 0x06]) (h : s.pw.resetLow = false) :
    shiftedOut s ir 0 1 (boundaryTest s ir) := by
  rw [boundaryTest_high s ir h]
  exact shiftedOut_capture s ir 0 s.freeCount (by rw [tapLength_loadIr_boundary s hir, h]; rfl)

/-- What the boundary register captures under EXTEST, EXTEST_PULSE and EXTEST_TRAIN, as one number. -/
def pinsCaptured (s : State) (ir : Nat) (board : Nat → Nat) : Nat :=
  sumOver (fun i => ({ s with jtag := { s.jtag with ir := ir } } : State).captured board i * 2 ^ i) (upTo 0 2184)

/-- Bit k of what is captured is the level that cell k captures. -/
theorem testBit_pinsCaptured (s : State) (ir : Nat) {board : Nat → Nat} (hb : ∀ i, board i < 2) {k : Nat} (hk : k < 2184) :
    Nat.testBit (pinsCaptured s ir board) k = decide (({ s with jtag := { s.jtag with ir := ir } } : State).captured board k = 1) :=
  testBit_sumOver_bits _ (captured_lt_two _ board hb) hk

/-- The pins captured after an instruction is loaded. -/
theorem capturePins_loadIr (s : State) (ir n : Nat) (board : Nat → Nat) :
    capturePins { loadIr s ir with freeCount := n } board = capture { loadIr s ir with freeCount := n } (pinsCaptured s ir board) := by
  simp only [capturePins, pinsCaptured, captured_loadIr]

/-- EXTEST, EXTEST_PULSE and EXTEST_TRAIN while RESET_N is low. -/
theorem shiftedOut_boundaryTest_low (s : State) {ir : Nat} (hir : ir ∈ [0x00, 0x05, 0x06]) (h : s.pw.resetLow = true) :
    shiftedOut s ir (pinsCaptured s ir (freeLevels s)) 2184 (boundaryTest s ir) := by
  rw [boundaryTest_low s ir h, capturePins_loadIr]
  exact shiftedOut_capture s ir _ _ (by rw [tapLength_loadIr_boundary s hir, h]; rfl)

theorem freeLevels_lt_two (s : State) (i : Nat) : freeLevels s i < 2 := b2n_lt_two _

/-- While RESET_N is high no free value is drawn. -/
theorem boundaryTest_high_freeCount (s : State) (ir : Nat) (h : s.pw.resetLow = false) : (boundaryTest s ir).freeCount = s.freeCount := by
  rw [boundaryTest_high s ir h]
  rfl

theorem boundaryTest_cells (s : State) (ir : Nat) : (boundaryTest s ir).jtag.cells = s.jtag.cells := by
  unfold boundaryTest
  dsimp only
  split <;> rfl

/-- What EXTEST with `cells`, EXTEST_PULSE or EXTEST_TRAIN, of code `ir`, does: as BYPASS while RESET_N is high, and while it is low a capture of the pins,
after which EXTEST's cells are taken and the others keep theirs. -/
def boundaryTestDone (s : State) (cells : List Nat) (i : Instr) (ir : Nat) : Prop :=
  ∃ t v, exec i s = .next t ∧
    (s.pw.resetLow = false → shiftedOut s ir 0 1 t ∧ t.jtag.cells = s.jtag.cells ∧ t.freeCount = s.freeCount) ∧
    (s.pw.resetLow = true → shiftedOut s ir v 2184 t ∧
      (∀ k < 2184, ir = 0x00 → cells[k]? = some (mget 0 t.jtag.cells k)) ∧ (ir ≠ 0x00 → t.jtag.cells = s.jtag.cells) ∧
      ∀ k < 2184, Nat.testBit v k = decide (({ s with jtag := { s.jtag with ir := ir } } : State).captured (freeLevels s) k = 1))

/-- EXTEST_PULSE and EXTEST_TRAIN are a boundary test that keeps the cells. -/
theorem boundaryTestDone_keeping (s : State) (cells : List Nat) (i : Instr) (ir : Nat) (hir : ir ∈ [0x00, 0x05, 0x06]) (h0 : ir ≠ 0x00)
    (he : exec i s = .next (boundaryTest s ir)) : boundaryTestDone s cells i ir :=
  ⟨_, pinsCaptured s ir (freeLevels s), he,
    fun high => ⟨shiftedOut_boundaryTest_high s hir high, boundaryTest_cells s ir, boundaryTest_high_freeCount s ir high⟩,
    fun low => ⟨shiftedOut_boundaryTest_low s hir low, fun _ _ h => absurd h h0, fun _ => boundaryTest_cells s ir,
      fun _ hk => testBit_pinsCaptured s ir (freeLevels_lt_two s) hk⟩⟩

/-- EXTEST is a boundary test, and takes its cells after it while RESET_N is low. -/
theorem boundaryTestDone_extest (s : State) {cells : List Nat} (hl : cells.length = 2184) (hc : ∀ x ∈ cells, x < 2) :
    boundaryTestDone s cells (.extest cells) 0x00 := by
  have hir : 0x00 ∈ [0x00, 0x05, 0x06] := List.mem_cons_self
  refine ⟨if s.pw.resetLow then loadCells (boundaryTest s 0x00) cells else boundaryTest s 0x00, pinsCaptured s 0x00 (freeLevels s), rfl,
    fun high => ?_, fun low => ?_⟩
  · rw [if_neg (by simp [high])]
    exact ⟨shiftedOut_boundaryTest_high s hir high, boundaryTest_cells s 0x00, boundaryTest_high_freeCount s 0x00 high⟩
  · rw [if_pos low]
    exact ⟨shiftedOut_loadCells (shiftedOut_boundaryTest_low s hir low) cells, fun _ hk _ => loadCells_getElem? _ hl hc hk, fun h => absurd rfl h,
      fun _ hk => testBit_pinsCaptured s 0x00 (freeLevels_lt_two s) hk⟩

/-! ### The pins -/

/-- While no instruction takes the pins, each shows the device's own level. -/
theorem pinLevel_own {s : State} (h : s.tapDrives = false) (i : Nat) (en : Bool) (own : Option Bool) : s.pinLevel i en own = own := by
  simp [State.pinLevel, h]

/-- HIGHZ releases every pin. -/
theorem pinLevel_highz {s : State} (h : s.tapDrives = true) (hir : s.jtag.ir = 0x04) (i : Nat) (en : Bool) (own : Option Bool) :
    s.pinLevel i en own = none := by
  simp [State.pinLevel, State.tapLevel, h, hir]

/-- Under the other instructions that take the pins each follows its cell while its driver is enabled. -/
theorem pinLevel_cell {s : State} (h : s.tapDrives = true) (hir : s.jtag.ir ≠ 0x04) (i : Nat) (en : Bool) (own : Option Bool) :
    s.pinLevel i en own = if en = true then some (s.cell i) else none := by
  cases en <;> simp [State.pinLevel, State.tapLevel, h, hir]

/-- In reset the pins show nothing of what runs. -/
theorem pinsLive_of_resetLow {s : State} (h : s.pw.resetLow = true) : s.pinsLive = false := by simp [State.pinsLive, h]

theorem throttle_of_resetLow {s : State} (h : s.pw.resetLow = true) (p : Nat) : s.throttle p = false := by
  simp [State.throttle, pinsLive_of_resetLow h]

theorem faultN_of_resetLow {s : State} (h : s.pw.resetLow = true) (hd : s.tapDrives = false) : s.faultN = true := by
  simp [State.faultN, h, hd]

theorem attnN_of_resetLow {s : State} (h : s.pw.resetLow = true) (hd : s.tapDrives = false) : s.attnN = true := by
  simp [State.attnN, hd, pinsLive_of_resetLow h]

theorem faultN_of_tapDrives {s : State} (h : s.tapDrives = true) : s.faultN = s.tapReleases 2161 := by simp [State.faultN, h]

theorem attnN_of_tapDrives {s : State} (h : s.tapDrives = true) : s.attnN = s.tapReleases 2162 := by simp [State.attnN, h]

/-- The instructions whose pins follow the cells take the pins. -/
theorem takesPins_of_follows {ir : Nat} (h : [0x00, 0x03, 0x05, 0x06].contains ir = true) : takesPins ir = true := by
  simp only [List.contains_iff_mem, List.mem_cons, List.not_mem_nil, or_false] at h
  rcases h with rfl | rfl | rfl | rfl <;> rfl

theorem tapReleases_cell {s : State} (h : s.jtag.ir ≠ 0x04) (i : Nat) : s.tapReleases i = s.cell i := by simp [State.tapReleases, h]

end Sys2Proof.Machine

namespace Sys2Proof

open Sys2Proof.Machine Sys2Proof.Claims

/-- Settles O18: each instruction is a capture after the load of its code, and each pin is one `pinLevel`. That EXTEST captures before its cells are taken, that
EXTEST_PULSE and EXTEST_TRAIN keep the cells and that CLAMP and HIGHZ capture 0 are the model's choices (log 45). -/
theorem testAccessPort : Obligations.TestAccessPort := by
  intro s
  have loaded : ∀ (i : Instr) (ir v n : Nat), exec i s = .next (capture (loadIr s ir) v) → (loadIr s ir).tapLength = n →
      ∃ t, exec i s = .next t ∧ shiftedOut s ir v n t ∧ t.jtag.cells = s.jtag.cells ∧ t.freeCount = s.freeCount :=
    fun i ir v n he hn => ⟨_, he, shiftedOut_capture s ir v s.freeCount hn, rfl, rfl⟩
  refine ⟨?_, ?_, ?_, ?_, ?_, ?_⟩
  · have short := fun (ir : Nat) (h : ir ∈ [0x03, 0x04, 0xFF]) => tapLength_loadIr_bypass s h
    exact List.forall_mem_cons.2 ⟨loaded .testLogicReset 0x01 _ _ rfl rfl, List.forall_mem_cons.2 ⟨loaded .idcode 0x01 _ _ rfl rfl,
      List.forall_mem_cons.2 ⟨loaded .clamp 0x03 _ _ rfl (short _ (by decide)), List.forall_mem_cons.2 ⟨loaded .highz 0x04 _ _ rfl (short _ (by decide)),
        List.forall_mem_cons.2 ⟨loaded .bypass 0xFF _ _ rfl (short _ (by decide)), List.forall_mem_nil _⟩⟩⟩⟩⟩
  · intro cells hl hc
    have keeping := boundaryTestDone_keeping s cells
    exact List.forall_mem_cons.2 ⟨boundaryTestDone_extest s hl hc, List.forall_mem_cons.2 ⟨keeping .extestPulse 0x05 (by decide) (by decide) rfl,
      List.forall_mem_cons.2 ⟨keeping .extestTrain 0x06 (by decide) (by decide) rfl, List.forall_mem_nil _⟩⟩⟩
  · intro cells pins hl hc
    have hb : ∀ i, levels pins i < 2 := fun i => Nat.mod_lt _ Nat.two_pos
    refine ⟨_, pinsCaptured s 0x02 (levels pins), rfl, shiftedOut_loadCells ?_ cells, rfl, fun k hk =>
      ⟨loadCells_getElem? _ hl hc hk, testBit_pinsCaptured s 0x02 hb hk⟩⟩
    rw [show capturePins (loadIr s 0x02) (levels pins) = _ from capturePins_loadIr s 0x02 s.freeCount (levels pins)]
    exact shiftedOut_capture s 0x02 _ _ rfl
  · intro hlow hir
    have hd : s.tapDrives = false := by simp [State.tapDrives, hir]
    refine ⟨fun p => ?_, faultN_of_resetLow hlow hd, attnN_of_resetLow hlow hd, pinLevel_own hd _ _ _, pinLevel_own hd _ _ _,
      fun k => pinLevel_own hd _ _ _, pinLevel_own hd _ _ _⟩
    rw [State.throttlePin, pinLevel_own hd, throttle_of_resetLow hlow]
  · intro hlow hir
    have hd : s.tapDrives = true := by simp [State.tapDrives, takesPins, hlow, hir]
    refine ⟨fun p => pinLevel_highz hd hir _ _ _, ?_, ?_, pinLevel_highz hd hir _ _ _, pinLevel_highz hd hir _ _ _,
      fun k => pinLevel_highz hd hir _ _ _, pinLevel_highz hd hir _ _ _⟩
    · simp [faultN_of_tapDrives hd, State.tapReleases, hir]
    · simp [attnN_of_tapDrives hd, State.tapReleases, hir]
  · intro hlow hir
    have hne : s.jtag.ir ≠ 0x04 := by
      intro e
      rw [e] at hir
      exact absurd hir (by decide)
    have hd : s.tapDrives = true := by
      have : takesPins s.jtag.ir = true := takesPins_of_follows hir
      simp [State.tapDrives, hlow, this]
    have hpin := pinLevel_cell hd hne
    exact ⟨fun p => hpin _ _ _, by rw [faultN_of_tapDrives hd, tapReleases_cell hne], by rw [attnN_of_tapDrives hd, tapReleases_cell hne],
      hpin _ _ _, hpin _ _ _, fun k => hpin _ _ _, hpin _ _ _⟩

end Sys2Proof
end

section
/-! PROOF. The state right after reset (R29, R59, R379, R382, R466). -/

namespace Sys2Proof.Machine

/-- The reset word of the key of a place. -/
theorem resetKey_wkey {o e i : Nat} (he : e < 256) (hi : i < 2 ^ 24) : resetKey (wkey o e i) = resetWord o e i := by
  have obj : keyObj (wkey o e i) = o := by simp only [keyObj, wkey]; omega
  have sel : keySel (wkey o e i) = e := by simp only [keySel, wkey]; omega
  have idx : keyIdx (wkey o e i) = i := by simp only [keyIdx, wkey]; omega
  rw [resetKey, obj, sel, idx]

theorem regGet_reset (k : Nat) : regGet State.reset.regs k = resetKey k := rfl

/-- Right after reset every word reads its reset word. -/
theorem word_reset {o e i : Nat} (he : e < 256) (hi : i < 2 ^ 24) : State.reset.word o e i = resetWord o e i := by
  rw [State.word, regGet_reset, resetKey_wkey he hi]

theorem get_reset (f : Field) {i : Nat} (he : f.sel < 256) (hi : i < 2 ^ 24) :
    State.reset.get f i = bits (resetWord f.obj f.sel i) f.hi f.lo := by
  rw [State.get, word_reset he hi]

/-- Partition 0 is claimed at reset, and no other partition is (R379). -/
theorem claimed_reset {p : Nat} (hp : p < 256) : State.reset.flag F.part0_claimed p = decide (p = 0) := by
  have e : resetWord 12 0 p = if p = 0 then 0x80000000001FE000#64 else 0x00000000001FE000#64 := rfl
  rw [State.flag, get_reset F.part0_claimed (by decide) (by omega)]
  simp only [F.part0_claimed, e]
  by_cases h : p = 0 <;> simp only [h] <;> decide

/-- A partition other than 0 is bound to no lane at reset. -/
theorem bound_reset {p : Nat} (h0 : p ≠ 0) (hp : p < 256) : State.reset.bound p = [] := by
  have e1 : resetWord 12 1 p = if p = 0 then 0x8000810082008300#64 else 0#64 := rfl
  have e2 : resetWord 12 2 p = 0#64 := rfl
  simp only [State.bound, word_reset (show 1 < 256 by decide) (show p < 2 ^ 24 by omega), word_reset (show 2 < 256 by decide) (show p < 2 ^ 24 by omega),
    e1, e2, h0, if_false]
  decide

/-- Lanes 0 to 7 of each lane die are host-facing at reset, and no other lane is (R29). -/
theorem host_reset {l : Nat} (hl : l < 1024) : State.reset.host l = decide (l % 256 < 8) := by
  have e : resetWord 1 0 l = if decide (l % 256 < 8) = true then 0xE209F40000000000#64 else 0x2209F40000000000#64 := rfl
  rw [State.host, State.flag, get_reset F.lane_role (by decide) (by omega)]
  simp only [F.lane_role, e]
  cases decide (l % 256 < 8) <;> decide

theorem laneState_reset {l : Nat} (hl : l < 1024) : State.reset.laneState l = 0 := by
  have e : resetWord 1 1 l = 0x0E03000000000000#64 := rfl
  rw [State.laneState, get_reset F.lsa_state (by decide) (by omega)]
  simp only [F.lsa_state, e]
  decide

theorem groupOwner_reset {g : Nat} (hg : g < 1024) : State.reset.groupOwner g = 0 := by
  have e : resetWord 2 0 g = 0#64 := rfl
  rw [State.groupOwner, get_reset F.grp_owner (by decide) (by omega)]
  simp only [F.grp_owner, e, bits_zero]

theorem chanPart_reset {c : Nat} (hc : c < 5 * 2 ^ 20) : State.reset.get F.chan_part c = 0 := by
  have e : resetWord 3 0 c = 0#64 := rfl
  rw [get_reset F.chan_part (by decide) (by omega)]
  simp only [F.chan_part, e, bits_zero]

end Sys2Proof.Machine

namespace Sys2Proof

open Sys2Proof.Machine

/-- Settles O3: the values that State.reset holds, and for the words their reset words. -/
theorem resetState : Obligations.ResetState :=
  ⟨by decide, rfl, by decide, rfl, rfl, rfl, rfl, rfl, fun _ => rfl, regGet_reset, rfl, fun _ hp => claimed_reset hp, by decide,
    fun _ h0 hp => bound_reset (Nat.ne_of_gt h0) hp, fun _ hl => host_reset hl, fun _ hl => laneState_reset hl, fun _ hg => groupOwner_reset hg,
    fun _ hc => chanPart_reset hc⟩

end Sys2Proof
end

section
/-! PROOF. The taking of a packet by the command engines (R22, R369, R373, R377, R411). -/

namespace Sys2Proof.Machine

open Sys2Proof.Claims

/-! ### The rows of the command table -/

/-- A header with the opcode and form of a row is that row's command; SEG_RELEASE is the form for all segments where parameter bit 63 says so. -/
theorem packetExec_of_packet {i : Instr} {op form : Nat} {c : Cmd} (h : packet i = some (op, form, c))
    (hseg : op = 0x44 → (bit (c.par 0) 63 = true ↔ i = .segReleaseAll c)) (s : State) : packetExec op form c s = exec i s := by
  cases i with
  | segRelease c =>
    cases h
    have one : bit (c.par 0) 63 ≠ true := by simp [hseg rfl]
    exact if_neg one
  | segReleaseAll c =>
    cases h
    have all : bit (c.par 0) 63 = true := by simp [hseg rfl]
    exact if_pos all
  | _ => cases h <;> rfl

/-- The opcode of a row is in the table. -/
theorem knownOp_of_packet {i : Instr} {op form : Nat} {c : Cmd} (h : packet i = some (op, form, c)) : knownOp op = true := by
  cases i <;> cases h <;> rfl

section
variable {op form : Nat} {c : Cmd} (s : State) (h : ∀ i, packet i ≠ some (op, form, c))
include h

theorem packetBasic_of_noRow : packetBasic op form c s = packetOther op c s := by
  unfold packetBasic
  split
  · exact absurd rfl (h (.nop c))
  · exact absurd rfl (h (.identify c))
  · exact absurd rfl (h (.status c))
  · exact absurd rfl (h (.partitionClaim c))
  · exact absurd rfl (h (.partitionRelease c))
  · exact absurd rfl (h (.partitionBind c))
  · exact absurd rfl (h (.partitionUnbind c))
  · exact absurd rfl (h (.readObjLive c))
  · exact absurd rfl (h (.readObjStaged c))
  · exact absurd rfl (h (.writeStaged c))
  · exact absurd rfl (h (.writeLive c))
  · exact absurd rfl (h (.cinch c))
  · exact absurd rfl (h (.discardStaged c))
  · rfl

theorem packetTime_of_noRow : packetTime op form c s = packetOther op c s := by
  unfold packetTime
  split
  · exact absurd rfl (h (.refSelectAuto c))
  · exact absurd rfl (h (.refSelectForced c))
  · exact absurd rfl (h (.refSelectHoldover c))
  · exact absurd rfl (h (.refStatus c))
  · exact absurd rfl (h (.timeSet c))
  · exact absurd rfl (h (.ppsAlignMeasure c))
  · exact absurd rfl (h (.ppsAlignStep c))
  · exact absurd rfl (h (.calStartSweep c))
  · exact absurd rfl (h (.calStartRecover c))
  · exact absurd rfl (h (.calStatus c))
  · exact absurd rfl (h (.calLockRelease c))
  · exact absurd rfl (h (.calLock c))
  · exact absurd rfl (h (.calTableReadInForce c))
  · exact absurd rfl (h (.calTableReadWaiting c))
  · rfl

theorem packetLink_of_noRow : packetLink op form c s = packetOther op c s := by
  unfold packetLink
  split
  · exact absurd rfl (h (.laneUp c))
  · exact absurd rfl (h (.laneDown c))
  · exact absurd rfl (h (.laneRetrain c))
  · exact absurd rfl (h (.laneGroupConfig c))
  · exact absurd rfl (h (.laneGroupWidth c))
  · exact absurd rfl (h (.laneTestStart c))
  · exact absurd rfl (h (.laneTestStop c))
  · exact absurd rfl (h (.laneTestRead c))
  · exact absurd rfl (h (.laneRetire c))
  · exact absurd rfl (h (.partnerRead c))
  · exact absurd rfl (h (.partnerWrite c))
  · exact absurd rfl (h (.partnerTxnStatus c))
  · rfl

theorem packetData_of_noRow : packetData op form c s = packetOther op c s := by
  unfold packetData
  split
  · exact absurd rfl (h (.trigArm c))
  · exact absurd rfl (h (.trigDisarm c))
  · exact absurd rfl (h (.trigForce c))
  · exact absurd rfl (h (.segRead c))
  · exact absurd rfl (h (.segRelease c))
  · exact absurd rfl (h (.statsGateStart c))
  · exact absurd rfl (h (.statsGateStop c))
  · exact absurd rfl (h (.statsReadLast c))
  · exact absurd rfl (h (.statsReadRunning c))
  · exact absurd rfl (h (.queueFlush c))
  · exact absurd rfl (h (.queueStatusIngress c))
  · exact absurd rfl (h (.queueStatusHost c))
  · exact absurd rfl (h (.queueStatusAnchor c))
  · rfl

theorem packetCare_of_noRow : packetCare op form c s = packetOther op c s := by
  unfold packetCare
  split
  · exact absurd rfl (h (.faultRead c))
  · exact absurd rfl (h (.faultClear c))
  · exact absurd rfl (h (.faultHistory c))
  · exact absurd rfl (h (.awl c))
  · exact absurd rfl (h (.powerDomainOff c))
  · exact absurd rfl (h (.powerDomainOn c))
  · exact absurd rfl (h (.tileRetire c))
  · exact absurd rfl (h (.selftest c))
  · exact absurd rfl (h (.ergClear c))
  · exact absurd rfl (h (.fwUpdateBegin c))
  · exact absurd rfl (h (.fwUpdateData c))
  · exact absurd rfl (h (.fwUpdateEnd c))
  · rfl

/-- A header whose opcode and form are no row. -/
theorem packetExec_of_noRow : packetExec op form c s = packetOther op c s := by
  rw [packetExec, packetBasic_of_noRow s h, packetTime_of_noRow s h, packetLink_of_noRow s h, packetData_of_noRow s h, packetCare_of_noRow s h]
  simp only [ite_self]

end

/-- An opcode that is not in the table. -/
theorem packetExec_of_unknown {op : Nat} (form : Nat) (c : Cmd) (s : State) (h : knownOp op = false) :
    packetExec op form c s = .next (runUnknown op c s) := by
  have noRow : ∀ i, packet i ≠ some (op, form, c) := fun i hi => by simp [knownOp_of_packet hi] at h
  rw [packetExec_of_noRow s noRow, packetOther, h]
  rfl

/-- A command that passes, with a form that is not listed for its opcode. -/
theorem runCmd_formBody {s : State} {op : Nat} {c : Cmd} (h : passes s c op = true) :
    runCmd op c (formBody op c) s =
      finish (advanceTo s c.tick) c op (if sysOnly op && decide (c.part ≠ 0) then stNotOwner else stBadParam) 0 [] := by
  rw [runCmd_of_passes h, formBody]
  split <;> rfl

/-! ### The requesters of the engines -/

theorem mem_of_mfind {α : Type} {m : SMap α} {k : Nat} {v : α} (h : mfind m k = some v) : (k, v) ∈ m := by
  induction m with
  | nil => simp [mfind] at h
  | cons e rest ih =>
    obtain ⟨k', v'⟩ := e
    by_cases hk : k' = k
    · simp only [mfind, hk, if_true, Option.some.injEq] at h
      simp [hk, h]
    · rw [mfind, if_neg hk] at h
      exact List.mem_cons_of_mem _ (ih h)

/-- Whether the engines can take a command turns on nothing of it but where it comes from. -/
theorem canArrive_packetCmd (s : State) (c : Cmd) (t : Nat) (h : Word) (ps : List Word) : canArrive s (packetCmd c.lane t h ps) = canArrive s c := rfl

/-- The requesters that wait: the port with a packet, and each lane with a frame in its buffer, while the engines can take it. -/
theorem requester_mem_takers (s : State) (c : Cmd) : requester c.lane ∈ s.takers ↔
    canArrive s c = true ∧ match c.lane with
      | none => s.cmd.smpIn.isSome = true
      | some l => ∃ x, (l, x) ∈ s.hlanes ∧ x.rx ≠ [] := by
  rw [← canArrive_packetCmd s c 0 0 []]
  cases c.lane with
  | none =>
    simp only [State.takers, requester]
    simp
    tauto
  | some l =>
    simp only [State.takers, requester]
    simp
    tauto

/-- A lane that listed no frames holds none. -/
theorem hlanes_mem_of_rx {s : State} {l : Nat} {f : List Word} {rest : List (List Word)} (h : (s.hlane l).rx = f :: rest) :
    (l, s.hlane l) ∈ s.hlanes := by
  cases e : mfind s.hlanes l with
  | none => simp [State.hlane, mget, e, HLane.init] at h
  | some x =>
    have : s.hlane l = x := by simp [State.hlane, mget, e]
    rw [this]
    exact mem_of_mfind e

/-- The oldest packet at its port makes its port wait for the engines. -/
theorem takers_of_oldest {s : State} {c : Cmd} {h : Word} {rest : List (List Word)} (arrives : canArrive s c = true) (ho : oldest s c h rest) :
    requester c.lane ∈ s.takers := by
  rw [requester_mem_takers]
  refine ⟨arrives, ?_⟩
  unfold oldest at ho
  split at ho
  · next l e =>
    simp only [e]
    exact ⟨_, hlanes_mem_of_rx ho, by simp [ho]⟩
  · next e =>
    simp [e, ho]

/-- The packet of a lane leaves its buffer with the binding that it met, which is forgotten with its command. -/
theorem takeFrom_lane {s w : State} {l t : Nat} {h : Word} {ps : List Word} {rest : List (List Word)} (hx : (s.hlane l).rx = (h :: ps) :: rest)
    (hw : takePacket (some l) t h ps
      ((s.setHlane l { s.hlane l with rx := rest, heard := (s.hlane l).heard.drop 1 }).hear (s.hlane l).heard.head?) = .next w) :
    takeFrom (l + 1) t s = .next (w.hear none) := by
  simp only [takeFrom, hx, hw]

/-- The packet at the serial management port leaves it. -/
theorem takeFrom_port {s w : State} {t : Nat} {h : Word} {ps : List Word} (hx : s.cmd.smpIn = some (h :: ps))
    (hw : takePacket none t h ps { s with cmd := { s.cmd with smpIn := none } } = .next w) : takeFrom 0 t s = .next w := by
  simp only [takeFrom, hx, hw]

/-- The engines take the oldest packet of the requester that is granted. -/
theorem exec_commandTake {s w : State} {c : Cmd} {h : Word} {rest : List (List Word)} (arrives : canArrive s c = true)
    (granted : s.granted 0 s.portCount s.takers (requester c.lane) = requester c.lane) (ho : oldest s c h rest)
    (hw : takePacket c.lane c.tick h c.params (taken s c rest) = .next w) : exec (.commandTake c.lane c.tick) s = .next (unheard c w) := by
  have waits : s.takers.contains (requester c.lane) = true := by simpa using takers_of_oldest arrives ho
  have run : exec (.commandTake c.lane c.tick) s = takeFrom (requester c.lane) c.tick (noteGrant s 0 s.takers (requester c.lane)) := by
    simp only [exec, execCommandTake, waits, granted]
    rfl
  rw [run]
  obtain ⟨t, lane, part, tag, resv, ps⟩ := c
  cases lane with
  | none => exact takeFrom_port ho hw
  | some l => exact takeFrom_lane ho hw

/-! ### Who is granted -/

/-- A requester that waits alone is granted. -/
theorem granted_alone {s : State} {a n r : Nat} {ws : List Nat} (h : ws = [r]) : s.granted a n ws r = r := by
  subst h
  simp [State.granted, canWait, sortBy, upTo]

/-- The requester that has waited longest is one of those that wait, or the one named. -/
theorem foldl_least_mem (left : Nat → Nat) : (ws : List Nat) → (m : Nat) → ws.foldl (fun m r => if left r < left m then r else m) m ∈ m :: ws
  | [], m => by simp
  | r :: ws, m => by
    have h := foldl_least_mem left ws (if left r < left m then r else m)
    rw [List.foldl_cons]
    split at h <;> rename_i hl <;> simp only [hl, if_true, if_false] <;> simp only [List.mem_cons] at h ⊢ <;> tauto

/-- Where the one named waits, the one granted waits. -/
theorem granted_mem {s : State} {a n r : Nat} {ws : List Nat} (h : r ∈ ws) : s.granted a n ws r ∈ ws := by
  unfold State.granted
  dsimp only
  split
  · exact h
  · rcases List.mem_cons.mp (foldl_least_mem (fun r => n - mget 0 (mget [] s.grants a) r) ws r) with e | e
    · rw [e]
      exact h
    · exact e

end Sys2Proof.Machine

namespace Sys2Proof

open Sys2Proof.Machine Sys2Proof.Claims

/-- Settles O10: what is taken is `takePacket` of the oldest packet, which is the command of its row where there is one; a command that the engines cannot take
is no requester, and its row 7 is not reached. -/
theorem enginesTakePackets : Obligations.EnginesTakePackets := by
  refine ⟨?_, ?_, fun lane s => ⟨granted_alone, fun h => ?_⟩⟩
  · intro op form c h rest s part tag resv hop hform arrives granted ho
    subst hop hform
    have cmd : packetCmd c.lane c.tick h c.params = c := by
      simp only [packetCmd, ← part, ← tag, ← resv]
    have gives := fun {w : State} => exec_commandTake (w := w) arrives granted ho
    simp only [takePacket, cmd] at gives
    refine ⟨fun words => gives (if_pos words.symm), fun words => ?_⟩
    simp only [words, ne_eq, not_true_eq_false, if_false] at gives
    refine ⟨fun i hi hseg => ?_, fun unknown => ?_, fun noRow known passed => gives ?_⟩
    · obtain ⟨body, run, -⟩ := hasRow7_of_packet hi
      exact ⟨_, run _, gives ((packetExec_of_packet hi hseg _).trans (run _))⟩
    · have run := packetExec_of_unknown (bits h 23 16) c (taken s c rest) unknown
      refine ⟨fun unbound => gives (run.trans ?_), fun bound busy => gives (run.trans ?_), fun bound free => gives (run.trans ?_)⟩
      · simp [runUnknown, unbound]
      · simp [runUnknown, bound, busy]
      · simp [runUnknown, bound, free]
    · rw [packetExec_of_noRow _ noRow, packetOther, known, if_pos rfl, runCmd_formBody passed]
  · intro i op form c s hi idle
    obtain ⟨body, run, -⟩ := hasRow7_of_packet hi
    have waits : s.takers.contains (requester c.lane) = false := by simp [requester_mem_takers, idle]
    refine ⟨by rw [run, runCmd_idle op c body s idle], ?_⟩
    simp only [exec, execCommandTake, waits]
    rfl
  · rw [List.contains_iff_mem] at h ⊢
    exact granted_mem h

end Sys2Proof
end

section
/-! PROOF. The coarse wrap and the caravan boundary (R18, R19, R60, R218, R360). -/

namespace Sys2Proof.Machine

/-! ### EPOCH records that wait -/

theorem nodup_distinct (l : List Nat) : (distinct l).Nodup := by
  induction l with
  | nil => exact List.nodup_nil
  | cons y l ih => exact List.nodup_cons.mpr ⟨by simp, ih.filter _⟩

theorem nodup_enabledQueues (s : State) : s.enabledQueues.Nodup := (nodup_distinct _).filter _

theorem queueEn_of_mem {s : State} {q : Nat} (h : q ∈ s.enabledQueues) : s.queueEn q = true := (List.mem_filter.mp h).2

/-- An EPOCH record waits at a host queue, behind one that waited already. -/
def withEpoch (x : Rec) (s : State) (q : Nat) : State := s.setHq q { (s.hq q).take [] with epochDue := some x }

theorem epochAll_eq (s : State) (x : Rec) : epochAll s x = s.enabledQueues.foldl (withEpoch x) s := rfl

/-- A queue outside a list keeps what it holds while EPOCH records wait at those of the list. -/
theorem hq_withEpoch_of_not_mem (x : Rec) {q : Nat} {qs : List Nat} {s : State} (h : q ∉ qs) : (qs.foldl (withEpoch x) s).hq q = s.hq q := by
  induction qs generalizing s with
  | nil => rfl
  | cons p qs ih =>
    obtain ⟨hp, hqs⟩ := List.ne_and_not_mem_of_not_mem_cons h
    rw [List.foldl_cons, ih hqs, withEpoch, State.hq_setHq_ne _ _ hp]

/-- Each queue of a list has the EPOCH record waiting. -/
theorem hq_withEpoch (x : Rec) {q : Nat} {qs : List Nat} {s : State} (hn : qs.Nodup) (h : q ∈ qs) :
    (qs.foldl (withEpoch x) s).hq q = { (s.hq q).take [] with epochDue := some x } := by
  induction qs generalizing s with
  | nil => cases h
  | cons p qs ih =>
    obtain ⟨hp, hqs⟩ := List.nodup_cons.mp hn
    rw [List.foldl_cons]
    rcases List.mem_cons.mp h with rfl | h
    · rw [hq_withEpoch_of_not_mem x hp, withEpoch, State.hq_setHq]
    · have hne : q ≠ p := fun e => hp (e ▸ h)
      rw [ih hqs h, withEpoch, State.hq_setHq_ne _ _ hne]

/-- A record for a queue at which an EPOCH record waits goes behind it. -/
theorem incoming_emit_of_epochDue {s : State} {q : Nat} {e : Rec} (hq : s.queueEn q = true) (he : (s.hq q).epochDue = some e) (r : Rec) :
    ((emit s q r).hq q).incoming = (s.hq q).incoming ++ [e, r] := by
  rw [emit_of_enabled s q r hq, State.hq_setHq, HQueue.take, he]
  simp

/-! ### The coarse wrap -/

/-- Device time that advances to the end of the coarse count. -/
theorem advance_wrap (s : State) : advance s (2 ^ 54 - s.tb.coarse.toNat) =
    epochAll { s with tb := laterTb s (2 ^ 54 - s.tb.coarse.toNat) }
      (epochRec false s.tb.epoch.toNat (laterTb s (2 ^ 54 - s.tb.coarse.toNat)).epoch.toNat 0 0) := by
  have h := s.tb.coarse.isLt
  rw [advance_eq, if_neg (by omega)]

theorem laterTb_wrap (s : State) : (laterTb s (2 ^ 54 - s.tb.coarse.toNat)).coarse = 0#54 ∧
    (laterTb s (2 ^ 54 - s.tb.coarse.toNat)).epoch = s.tb.epoch + 1#16 := by
  have h := s.tb.coarse.isLt
  have e : s.full + (2 ^ 54 - s.tb.coarse.toNat) = (s.tb.epoch.toNat + 1) * 2 ^ 54 := by
    rw [State.full]
    omega
  simp only [laterTb, e]
  constructor <;> apply BitVec.eq_of_toNat_eq <;> simp only [BitVec.toNat_ofNat, BitVec.toNat_add] <;> omega

theorem advance_wrap_tb (s : State) : (advance s (2 ^ 54 - s.tb.coarse.toNat)).tb.coarse = 0#54 ∧
    (advance s (2 ^ 54 - s.tb.coarse.toNat)).tb.epoch = s.tb.epoch + 1#16 := by
  rw [advance_tb]
  exact laterTb_wrap s

/-- At the wrap the EPOCH record waits at an enabled queue. -/
theorem advance_wrap_hq (s : State) {q : Nat} (h : q ∈ s.enabledQueues) : (advance s (2 ^ 54 - s.tb.coarse.toNat)).hq q =
    { (s.hq q).take [] with epochDue := some (epochRec false s.tb.epoch.toNat (s.tb.epoch + 1#16).toNat 0 0) } := by
  obtain ⟨-, epoch⟩ := laterTb_wrap s
  rw [advance_wrap, epoch, epochAll_eq]
  exact hq_withEpoch _ (nodup_enabledQueues s) h

theorem advance_queueEn (s : State) (n q : Nat) : (advance s n).queueEn q = s.queueEn q := by
  obtain ⟨_, e⟩ := advance_frame s n
  rw [e]
  rfl

/-! ### The lane dies' check -/

/-- The check of one lane die changes the time base and the faults on their way alone. -/
theorem laneDieCheck_frame (s : State) (n : Nat) : ∃ e a f, laneDieCheck s n = { s with tb := { s.tb with laneErr := e, laneAdopt := a }, flt := f } := by
  unfold laneDieCheck
  split
  · exact ⟨s.tb.laneErr, _, s.flt, rfl⟩
  · split
    · exact ⟨_, _, s.flt, rfl⟩
    · obtain ⟨f, e⟩ := raise_frame { s with tb := { s.tb with laneAdopt := s.tb.laneAdopt ++ [n] } } (dieSource (8 + n) 3) 0x09 0 false
      exact ⟨s.tb.laneErr, _, f, e⟩

theorem laneDieChecks_frame (ds : List Nat) (s : State) :
    ∃ e a f, ds.foldl laneDieCheck s = { s with tb := { s.tb with laneErr := e, laneAdopt := a }, flt := f } := by
  induction ds generalizing s with
  | nil => exact ⟨s.tb.laneErr, s.tb.laneAdopt, s.flt, rfl⟩
  | cons d ds ih =>
    obtain ⟨e1, a1, f1, h1⟩ := laneDieCheck_frame s d
    obtain ⟨e2, a2, f2, h2⟩ := ih (laneDieCheck s d)
    exact ⟨e2, a2, f2, by rw [List.foldl_cons, h2, h1]⟩

/-- A lane die's difference from the anchor's count, and whether it will adopt that count, are in `t` as in `s`. -/
def sameLaneDie (n : Nat) (s t : State) : Prop :=
  mget 0 t.tb.laneErr n = mget 0 s.tb.laneErr n ∧ (n ∈ t.tb.laneAdopt ↔ n ∈ s.tb.laneAdopt)

theorem mget_merase_self {α : Type} (d : α) (m : SMap α) (k : Nat) : mget d (merase m k) k = d := by simp [mget, mfind_merase_self]

theorem mget_merase_ne {α : Type} (d : α) (m : SMap α) {k j : Nat} (h : j ≠ k) : mget d (merase m k) j = mget d m j := by
  simp [mget, mfind_merase_ne m h]

/-- A check leaves the other lane dies alone. -/
theorem laneDieCheck_other {n m : Nat} (h : n ≠ m) (s : State) : sameLaneDie n s (laneDieCheck s m) := by
  unfold sameLaneDie laneDieCheck
  split
  · simp [h]
  · split
    · simp [h, mget_merase_ne 0 s.tb.laneErr h]
    · simp [h]

theorem laneDieChecks_other {n : Nat} {ds : List Nat} (h : n ∉ ds) (s : State) : sameLaneDie n s (ds.foldl laneDieCheck s) := by
  induction ds generalizing s with
  | nil => exact ⟨rfl, Iff.rfl⟩
  | cons d ds ih =>
    obtain ⟨hd, hds⟩ := List.ne_and_not_mem_of_not_mem_cons h
    obtain ⟨e1, a1⟩ := laneDieCheck_other hd s
    obtain ⟨e2, a2⟩ := ih hds (laneDieCheck s d)
    exact ⟨e2.trans e1, a2.trans a1⟩

/-- The numbers below 4 before and after one of them. -/
theorem laneDies_split {n : Nat} (h : n < 4) : ∃ ds es, [0, 1, 2, 3] = ds ++ n :: es ∧ n ∉ ds ∧ n ∉ es := by
  have mem : n ∈ [0, 1, 2, 3] := by
    simp only [List.mem_cons, List.not_mem_nil, or_false]
    omega
  obtain ⟨ds, es, e⟩ := List.append_of_mem mem
  have nodup : (ds ++ n :: es).Nodup := e ▸ (by decide : [0, 1, 2, 3].Nodup)
  obtain ⟨-, tail, apart⟩ := List.nodup_append.mp nodup
  exact ⟨ds, es, e, fun hm => apart n hm n List.mem_cons_self rfl, (List.nodup_cons.mp tail).1⟩

/-- Of the four checks a lane die meets its own alone. -/
theorem laneDieChecks_at {n : Nat} (h : n < 4) (s : State) :
    ∃ v, sameLaneDie n s v ∧ sameLaneDie n (laneDieCheck v n) ([0, 1, 2, 3].foldl laneDieCheck s) := by
  obtain ⟨ds, es, e, hds, hes⟩ := laneDies_split h
  refine ⟨ds.foldl laneDieCheck s, laneDieChecks_other hds s, ?_⟩
  rw [e, List.foldl_append, List.foldl_cons]
  exact laneDieChecks_other hes _

/-- A lane die whose count agrees has nothing to adopt. -/
theorem laneDieCheck_agreeing {s : State} {n : Nat} (h : mget 0 s.tb.laneErr n = 0) : n ∉ (laneDieCheck s n).tb.laneAdopt := by
  simp [laneDieCheck, h]

/-- A lane die that disagreed at the boundary before adopts the anchor's count. -/
theorem laneDieCheck_adopting {s : State} {n : Nat} (h : mget 0 s.tb.laneErr n ≠ 0) (ha : n ∈ s.tb.laneAdopt) :
    mget 0 (laneDieCheck s n).tb.laneErr n = 0 ∧ n ∉ (laneDieCheck s n).tb.laneAdopt := by
  simp [laneDieCheck, h, ha, mget_merase_self]

/-- A lane die's first disagreement. -/
theorem laneDieCheck_first {s : State} {n : Nat} (h : mget 0 s.tb.laneErr n ≠ 0) (ha : n ∉ s.tb.laneAdopt) :
    laneDieCheck s n = raise { s with tb := { s.tb with laneAdopt := s.tb.laneAdopt ++ [n] } } (dieSource (8 + n) 3) 0x09 0 false := by
  simp [laneDieCheck, h, ha]

/-- A lane die that agrees and had nothing to adopt. -/
theorem laneDieCheck_quiet {s : State} {n : Nat} (h : mget 0 s.tb.laneErr n = 0) (ha : n ∉ s.tb.laneAdopt) : laneDieCheck s n = s := by
  have keep : s.tb.laneAdopt.filter (· ≠ n) = s.tb.laneAdopt := by
    rw [List.filter_eq_self]
    intro m hm
    simpa using fun e : m = n => ha (e ▸ hm)
  rw [laneDieCheck, if_pos h, keep]

theorem laneDieChecks_quiet {s : State} {ds : List Nat} (h : ∀ d ∈ ds, mget 0 s.tb.laneErr d = 0 ∧ d ∉ s.tb.laneAdopt) : ds.foldl laneDieCheck s = s := by
  induction ds with
  | nil => rfl
  | cons d ds ih =>
    obtain ⟨agrees, none⟩ := h d List.mem_cons_self
    rw [List.foldl_cons, laneDieCheck_quiet agrees none]
    exact ih fun e he => h e (List.mem_cons_of_mem d he)

/-- The first disagreement of one lane die, where the others agree and none has anything to adopt. -/
theorem laneDieChecks_first {s : State} {n : Nat} (h : n < 4) (hn : mget 0 s.tb.laneErr n ≠ 0) (hm : ∀ m, m ≠ n → mget 0 s.tb.laneErr m = 0)
    (ha : s.tb.laneAdopt = []) :
    [0, 1, 2, 3].foldl laneDieCheck s = raise { s with tb := { s.tb with laneAdopt := [n] } } (dieSource (8 + n) 3) 0x09 0 false := by
  obtain ⟨ds, es, e, hds, hes⟩ := laneDies_split h
  have before : ds.foldl laneDieCheck s = s := laneDieChecks_quiet fun d hd => ⟨hm d (fun e => hds (e ▸ hd)), by simp [ha]⟩
  have first := laneDieCheck_first hn (s := s) (by simp [ha])
  rw [ha, List.nil_append] at first
  rw [e, List.foldl_append, before, List.foldl_cons, first]
  refine laneDieChecks_quiet fun d hd => ?_
  have hne : d ≠ n := fun e => hes (e ▸ hd)
  exact ⟨by rw [raise_tb]; exact hm d hne, by rw [raise_tb]; simpa using hne⟩

/-- Where every count agrees the checks raise nothing. -/
theorem laneDieChecks_flt {s : State} (ds : List Nat) (h : s.tb.laneErr = []) : (ds.foldl laneDieCheck s).flt = s.flt := by
  induction ds generalizing s with
  | nil => rfl
  | cons d ds ih =>
    have e : laneDieCheck s d = { s with tb := { s.tb with laneAdopt := s.tb.laneAdopt.filter (· ≠ d) } } := by simp [laneDieCheck, h, mget, mfind]
    rw [List.foldl_cons, e]
    exact ih h

/-! ### Flow control of a group -/

/-- A field beside the written one, whether or not its word has another place. -/
theorem State.get_put_disjoint (s : State) (f g : Field) (i j v : Nat) (hf : f.lo ≤ f.hi ∧ f.hi < 64) (hg : g.lo ≤ g.hi ∧ g.hi < 64)
    (h : f.hi < g.lo ∨ g.hi < f.lo) : (s.put f i v).get g j = s.get g j := by
  by_cases e : wkey g.obj g.sel j = wkey f.obj f.sel i
  · simp only [State.get, State.put, State.word, State.setWord, regGet, regSet, e, mget_mset_self]
    exact bits_setBits_apart hf.1 hf.2 hg.1 hg.2 h
  · exact State.get_put_ne s f g i j v e

/-- What a lane sends changes what has left alone. -/
theorem transmit_frame (s : State) (x : Out) : ∃ o, transmit s x = { s with out := o } := by
  unfold transmit
  split
  · exact ⟨_, rfl⟩
  · exact ⟨s.out, rfl⟩

/-- Blocks that a lane sends change its count of blocks and what has left. -/
theorem passBlocks_frame (s : State) (l n : Nat) : ∃ m o, passBlocks s l n = { s with lanes := m, out := o } := by
  unfold passBlocks
  dsimp only
  split
  · exact ⟨s.lanes, s.out, rfl⟩
  · split
    · exact ⟨_, _, rfl⟩
    · exact ⟨_, s.out, rfl⟩

theorem passBlocksList_frame (f : Nat → Nat) (ls : List Nat) (s : State) :
    ∃ m o, ls.foldl (fun s l => passBlocks s l (f l)) s = { s with lanes := m, out := o } := by
  induction ls generalizing s with
  | nil => exact ⟨s.lanes, s.out, rfl⟩
  | cons l ls ih =>
    obtain ⟨m, o, e⟩ := passBlocks_frame s l (f l)
    obtain ⟨m', o', e'⟩ := ih (passBlocks s l (f l))
    exact ⟨m', o', by rw [List.foldl_cons, e', e]⟩

/-- Blocks dealt to a run change its lanes, its group and what has left. -/
theorem dealBlocks_frame (s : State) (g n : Nat) : ∃ m k o, dealBlocks s g n = { s with lanes := m, groups := k, out := o } := by
  obtain ⟨m, o, e⟩ := passBlocksList_frame (fun l => dealtTo (s.runLanes g).length (s.group g).dealt (l - (s.runLanes g).headD 0) n) (s.runLanes g) s
  unfold dealBlocks
  dsimp only
  rw [e]
  exact ⟨m, _, o, rfl⟩

/-- A frame to a partner changes the lanes of the run, the group and what has left. -/
theorem sendFrame_frame (s : State) (g kind : Nat) (ws : List Word) : ∃ m k o, sendFrame s g kind ws = { s with lanes := m, groups := k, out := o } := by
  unfold sendFrame
  dsimp only
  obtain ⟨m, k, o, e⟩ := dealBlocks_frame (s.setGroup g { s.group g with txSeq := ((s.group g).txSeq + 1) % 65536 }) g (ws.length + 2)
  rw [e]
  obtain ⟨o', e'⟩ := transmit_frame { s.setGroup g { s.group g with txSeq := ((s.group g).txSeq + 1) % 65536 } with lanes := m, groups := k, out := o }
    (.frame g (frameStart (s.group g).txSeq kind 0) ws (frameEnd (frameStart (s.group g).txSeq kind 0) ws) (s.group g).dealt)
  exact ⟨m, k, o', by rw [e']; rfl⟩

/-- A flow-control frame changes the lanes of the run, the group and what has left. -/
theorem pauseFrame_frame (s : State) (g op : Nat) : ∃ m k o, pauseFrame s g op = { s with lanes := m, groups := k, out := o } := sendFrame_frame s g 4 _

/-- The pause of a group, as it settles, changes register words, lanes, groups, ingress queues and what has left. -/
theorem pauseSettle_frame (s : State) (g : Nat) :
    ∃ r m k i o, pauseSettle s g = { s with regs := r, lanes := m, groups := k, ingress := i, out := o } := by
  unfold pauseSettle
  dsimp only
  generalize s.pressed g = press
  obtain ⟨r, e⟩ := s.put_frame F.qia_pressure g (b2n press)
  rw [e]
  split
  · obtain ⟨m, k, o, e1⟩ := pauseFrame_frame { s with regs := r } g 1
    rw [e1]
    obtain ⟨r', e2⟩ := State.satInc_frame { s with regs := r, lanes := m, groups := k, out := o } F.qis_pauses g 1
    rw [e2]
    exact ⟨r', m, k, _, o, rfl⟩
  · split
    · split
      · obtain ⟨m, k, o, e1⟩ := pauseFrame_frame { s with regs := r } g 2
        rw [e1]
        exact ⟨r, m, k, _, o, rfl⟩
      · exact ⟨r, s.lanes, s.groups, _, s.out, rfl⟩
    · exact ⟨r, s.lanes, s.groups, s.ingress, s.out, rfl⟩

@[simp] theorem pauseFrame_get (s : State) (g op : Nat) (h : Field) (j : Nat) : (pauseFrame s g op).get h j = s.get h j := by
  obtain ⟨_, _, _, e⟩ := pauseFrame_frame s g op
  rw [e]
  rfl

/-- No field above bit 19 changes with the pause of a group. -/
theorem pauseSettle_get (s : State) (g : Nat) (h : Field) (j : Nat) (hh : h.lo ≤ h.hi ∧ h.hi < 64) (hl : 19 < h.lo) :
    (pauseSettle s g).get h j = s.get h j := by
  have press := fun (u : State) (v : Nat) => State.get_put_disjoint u F.qia_pressure h g j v (by decide) hh (.inl (by simp only [F.qia_pressure]; omega))
  have count := fun (u : State) (v : Nat) => State.get_put_disjoint u F.qis_pauses h g j v (by decide) hh (.inl hl)
  unfold pauseSettle
  dsimp only
  generalize s.pressed g = b
  split
  · rw [State.setIng_get, State.satInc, count, pauseFrame_get, press]
  · split
    · rw [State.setIng_get]
      split
      · rw [pauseFrame_get, press]
      · rw [press]
    · rw [press]

/-! ### A caravan boundary -/

/-- What a caravan boundary's groups leave alone: device time, the notices, the faults on their way, and which domains are on. -/
def boundaryKeeps (s t : State) : Prop :=
  t.tb = s.tb ∧ t.notices = s.notices ∧ t.flt = s.flt ∧ ∀ d, t.get F.pws_pstate d = s.get F.pws_pstate d

theorem boundaryKeeps_refl (s : State) : boundaryKeeps s s := ⟨rfl, rfl, rfl, fun _ => rfl⟩

theorem boundaryKeeps_trans {s t u : State} (h : boundaryKeeps s t) (h' : boundaryKeeps t u) : boundaryKeeps s u := by
  obtain ⟨b, n, f, p⟩ := h
  obtain ⟨b', n', f', p'⟩ := h'
  exact ⟨b'.trans b, n'.trans n, f'.trans f, fun d => (p' d).trans (p d)⟩

/-- A status bit of a group below the state code of a domain. -/
theorem boundaryKeeps_put (s : State) (f : Field) (i v : Nat) (hf : f.lo ≤ f.hi ∧ f.hi < 61) : boundaryKeeps s (s.put f i v) :=
  ⟨State.put_tb .., State.put_notices .., State.put_flt .., fun _ =>
    State.get_put_disjoint _ _ _ _ _ _ ⟨hf.1, by omega⟩ (by decide) (.inl hf.2)⟩

theorem boundaryKeeps_pauseSettle (s : State) (g : Nat) : boundaryKeeps s (pauseSettle s g) := by
  refine ⟨?_, ?_, ?_, fun d => pauseSettle_get s g _ d (by decide) (by decide)⟩ <;>
    · obtain ⟨_, _, _, _, _, e⟩ := pauseSettle_frame s g
      rw [e]

/-- A group that passes a caravan boundary. -/
theorem boundaryKeeps_groupBoundary (s : State) (g : Nat) : boundaryKeeps s (groupBoundary s g) := by
  have stale : boundaryKeeps s (if s.flag F.gmrg_stale g && !s.staleFor g (s.full / 4096) then s.put F.gmrg_stale g 0 else s) := by
    split
    · exact boundaryKeeps_put s F.gmrg_stale g 0 (by decide)
    · exact boundaryKeeps_refl s
  unfold groupBoundary
  dsimp only
  generalize (if s.flag F.gmrg_stale g && !s.staleFor g (s.full / 4096) then s.put F.gmrg_stale g 0 else s) = u at stale ⊢
  have waited : boundaryKeeps s (if u.host g then u else showWaited u g) := by
    split
    · exact stale
    · exact boundaryKeeps_trans stale (boundaryKeeps_put u F.gmrg_waited g _ (by decide))
  generalize (if u.host g then u else showWaited u g) = v at waited ⊢
  split
  · exact boundaryKeeps_trans waited (boundaryKeeps_pauseSettle v g)
  · exact waited

theorem boundaryKeeps_groups (gs : SMap GroupX) (s : State) : boundaryKeeps s (gs.foldl (fun s e => groupBoundary s e.1) s) := by
  induction gs generalizing s with
  | nil => exact boundaryKeeps_refl s
  | cons e gs ih => exact boundaryKeeps_trans (boundaryKeeps_groupBoundary s e.1) (ih (groupBoundary s e.1))

theorem coreOn_of_keeps {s t : State} (h : boundaryKeeps s t) (k : Nat) : t.coreOn k = s.coreOn k := by
  obtain ⟨-, -, -, p⟩ := h
  simp only [State.coreOn, State.domOn, p]

/-- Upsets move lane dies' own counts. -/
def withUpsets (upset : List (Nat × Nat)) (u : State) : State :=
  upset.foldl (fun s u => if u.1 < 4 then
    { s with tb := { s.tb with laneErr := mset 0 s.tb.laneErr u.1 ((mget 0 s.tb.laneErr u.1 + u.2) % 2 ^ 54) } } else s) u

theorem withUpsets_frame (upset : List (Nat × Nat)) (u : State) : ∃ e, withUpsets upset u = { u with tb := { u.tb with laneErr := e } } := by
  unfold withUpsets
  induction upset generalizing u with
  | nil => exact ⟨u.tb.laneErr, rfl⟩
  | cons x upset ih =>
    rw [List.foldl_cons]
    split
    · obtain ⟨e, h⟩ := ih { u with tb := { u.tb with laneErr := mset 0 u.tb.laneErr x.1 ((mget 0 u.tb.laneErr x.1 + x.2) % 2 ^ 54) } }
      exact ⟨e, h⟩
    · exact ih u

/-- The notices sent to a list of core dies. -/
theorem mfind_notices (b : Nat) (mark : Nat → Nat) (hb : b ≠ 0) {k : Nat} (ks : List Nat) (m : SMap (Nat × Nat)) (h : k ∈ ks) :
    mfind (ks.foldl (fun m k => mset (0, 0) m k (b, mark k)) m) k = some (b, mark k) := by
  induction ks using List.reverseRecOn with
  | nil => cases h
  | append_singleton ks j ih =>
    rw [List.foldl_append, List.foldl_cons, List.foldl_nil, mset, if_neg (by simp [hb])]
    by_cases e : k = j
    · rw [e, mfind_minsert_self]
    · rw [mfind_minsert_ne _ _ e]
      exact ih (by simpa [e] using h)

theorem anchorMark_le (s : State) (k b : Nat) : s.anchorMark k b ≤ (b - 512) * 1024 := by
  unfold State.anchorMark
  dsimp only
  split
  · exact Nat.min_le_left _ _
  · exact Nat.le_refl _

/-- Going to a full count leaves the lane dies' own counts. -/
theorem advanceFull_laneDies (s : State) (n : Nat) :
    (advanceFull s n).tb.laneErr = s.tb.laneErr ∧ (advanceFull s n).tb.laneAdopt = s.tb.laneAdopt := by
  unfold advanceFull
  split
  · exact ⟨rfl, rfl⟩
  · simp only [advance_tb, laterTb, and_self]

/-- The lane dies check their counts after upsets. -/
def lanesChecked (upset : List (Nat × Nat)) (u : State) : State := [0, 1, 2, 3].foldl laneDieCheck (withUpsets upset u)

theorem lanesChecked_nil (u : State) : lanesChecked [] u = [0, 1, 2, 3].foldl laneDieCheck u := rfl

/-- The notices of a boundary `b` with the anchor's markers, to the core dies that are on. -/
def withNotices (b : Nat) (v : State) : State :=
  { v with notices := ([0, 1, 2, 3, 4].filter v.coreOn).foldl (fun m k => mset (0, 0) m k (b, v.anchorMark k b)) v.notices }

theorem withNotices_tb (b : Nat) (v : State) : (withNotices b v).tb = v.tb := rfl
theorem withNotices_flt (b : Nat) (v : State) : (withNotices b v).flt = v.flt := rfl
theorem withNotices_coreOn (b : Nat) (v : State) (k : Nat) : (withNotices b v).coreOn k = v.coreOn k := rfl

/-- At a boundary other than 0 every core die that is on has been sent it, with a marker at least 512 ticks before it. -/
theorem withNotices_notice {b : Nat} (hb : b ≠ 0) {v : State} {k : Nat} (hk : k < 5) (on : v.coreOn k = true) :
    ∃ m, mfind (withNotices b v).notices k = some (b, m) ∧ m ≤ (b - 512) * 1024 := by
  refine ⟨_, mfind_notices b (fun k => v.anchorMark k b) hb _ _ (List.mem_filter.mpr ⟨?_, on⟩), anchorMark_le v k b⟩
  simp only [List.mem_cons, List.not_mem_nil, or_false]
  omega

/-- At a caravan boundary the lane dies check their counts, the notices are sent, and the groups pass it. -/
theorem caravanBoundary_keeps (upset : List (Nat × Nat)) (s : State) :
    ∃ t, exec (.caravanBoundary upset) s = .next t ∧
      boundaryKeeps (withNotices (advanceFull s (nextBoundary s.full)).full (lanesChecked upset (advanceFull s (nextBoundary s.full)))) t :=
  ⟨_, rfl, boundaryKeeps_groups _ _⟩

/-- The state `u` at a caravan boundary before the lane dies' check: device time alone has gone on. -/
theorem caravanBoundary_later {s : State} (upset : List (Nat × Nat)) (room : nextBoundary s.full < 2 ^ 70) :
    ∃ u t, exec (.caravanBoundary upset) s = .next t ∧ u.full = nextBoundary s.full ∧ u.tb.laneErr = s.tb.laneErr ∧ u.tb.laneAdopt = s.tb.laneAdopt ∧
      u.flt = s.flt ∧ (∀ d, u.domOn d = s.domOn d) ∧ boundaryKeeps (withNotices u.full (lanesChecked upset u)) t := by
  obtain ⟨t, run, keeps⟩ := caravanBoundary_keeps upset s
  obtain ⟨errs, adopts⟩ := advanceFull_laneDies s (nextBoundary s.full)
  refine ⟨_, t, run, ?_, errs, adopts, advanceFull_flt .., fun d => by simp [State.domOn], keeps⟩
  rw [advanceFull_full s room, nextBoundary]
  omega

/-- The checks leave the device time. -/
theorem lanesChecked_full (upset : List (Nat × Nat)) (u : State) : (lanesChecked upset u).full = u.full := by
  obtain ⟨e, h⟩ := withUpsets_frame upset u
  obtain ⟨e', a, f, h'⟩ := laneDieChecks_frame [0, 1, 2, 3] (withUpsets upset u)
  rw [lanesChecked, h', h]
  rfl

theorem lanesChecked_agreeing {n : Nat} (h : n < 4) {u : State} (agrees : mget 0 u.tb.laneErr n = 0) : n ∉ (lanesChecked [] u).tb.laneAdopt := by
  obtain ⟨v, ⟨err, -⟩, -, adopt⟩ := laneDieChecks_at h u
  rw [lanesChecked_nil, adopt]
  exact laneDieCheck_agreeing (err.trans agrees)

theorem lanesChecked_adopting {n : Nat} (h : n < 4) {u : State} (errs : mget 0 u.tb.laneErr n ≠ 0) (ha : n ∈ u.tb.laneAdopt) :
    mget 0 (lanesChecked [] u).tb.laneErr n = 0 ∧ n ∉ (lanesChecked [] u).tb.laneAdopt := by
  obtain ⟨v, ⟨err, was⟩, err', adopt⟩ := laneDieChecks_at h u
  rw [lanesChecked_nil, err', adopt]
  exact laneDieCheck_adopting (err ▸ errs) (was.mpr ha)

/-- The count of a lane die is an element of the die's cluster 0. -/
theorem srcOff_laneCount {n : Nat} (h : n < 4) (s : State) : s.srcOff (dieSource (8 + n) 3) = !s.domOn (4 * n) := by
  have place : ¬(0x4000 ≤ dieSource (8 + n) 3 ∧ dieSource (8 + n) 3 ≤ 0x7FFF) := by
    simp only [dieSource]
    omega
  have domains : ∀ n < 4, sourceDomains (dieSource (8 + n) 3) = [4 * n] := by decide
  simp [State.srcOff, State.srcDomains, place, domains n h]

/-- A fault of a source that is not off is on its way to the collector. -/
theorem raise_inflight {s : State} {n cause sub : Nat} {inj : Bool} (h : s.srcOff n = false) :
    (raise s n cause sub inj).flt.inflight = s.flt.inflight ++ [{ source := n, cause := cause, sub := sub, injected := inj }] := by
  rw [raise, h]
  rfl

theorem full_of_tb {s t : State} (h : t.tb = s.tb) : t.full = s.full := by rw [State.full, h, State.full]

/-- The first disagreement of a lane die. -/
theorem lanesChecked_first {n x : Nat} (h : n < 4) {u : State} (errs : u.tb.laneErr = []) (adopts : u.tb.laneAdopt = []) (hx : x % 2 ^ 54 ≠ 0) :
    (lanesChecked [(n, x)] u).tb.laneAdopt = [n] ∧ (u.domOn (4 * n) = true →
      (lanesChecked [(n, x)] u).flt.inflight = u.flt.inflight ++ [{ source := dieSource (8 + n) 3, cause := 0x09, sub := 0, injected := false }]) := by
  obtain ⟨e, frame⟩ := withUpsets_frame [(n, x)] u
  have moved : (withUpsets [(n, x)] u).tb.laneErr = mset 0 [] n (x % 2 ^ 54) := by
    simp [withUpsets, h, errs, mget, mfind]
  rw [lanesChecked]
  generalize withUpsets [(n, x)] u = v at frame moved ⊢
  have first := laneDieChecks_first (s := v) h (by rw [moved, mget_mset_self]; exact hx) (fun m hm => by rw [moved, mget_mset_ne _ _ _ hm]; rfl)
    (by rw [frame]; exact adopts)
  rw [first]
  refine ⟨by rw [raise_tb], fun on => ?_⟩
  have live : State.srcOff { v with tb := { v.tb with laneAdopt := [n] } } (dieSource (8 + n) 3) = false := by
    rw [srcOff_laneCount h]
    have same : State.domOn { v with tb := { v.tb with laneAdopt := [n] } } (4 * n) = u.domOn (4 * n) := by
      rw [frame]
      rfl
    rw [same, on]
    rfl
  have flt : v.flt = u.flt := by rw [frame]
  rw [raise_inflight live, flt]

end Sys2Proof.Machine

namespace Sys2Proof

open Sys2Proof.Machine

/-- Settles O31: at the wrap each enabled queue has its EPOCH record once; at a caravan boundary each lane die meets its own check alone, and the groups that pass
the boundary leave time, notices, faults and domains. The place of the EPOCH record is the model's choice (log 32). -/
theorem wrapAndCaravanBoundary : Obligations.WrapAndCaravanBoundary := by
  refine ⟨fun s => ⟨_, rfl, (advance_wrap_tb s).1, (advance_wrap_tb s).2, fun q hq => ?_⟩, fun upset s room => ?_⟩
  · have waits := advance_wrap_hq s hq
    refine ⟨by rw [waits, HQueue.take, List.append_nil], by rw [waits], incoming_emit_of_epochDue ?_ (by rw [waits])⟩
    rw [advance_queueEn]
    exact queueEn_of_mem hq
  · obtain ⟨u, t, run, later, errs, adopts, sameFlt, sameOn, keeps⟩ := caravanBoundary_later upset room
    have cores := coreOn_of_keeps keeps
    obtain ⟨tb, notices, flt, -⟩ := keeps
    rw [withNotices_tb] at tb
    rw [withNotices_flt] at flt
    have full : t.full = u.full := (full_of_tb tb).trans (lanesChecked_full upset u)
    rw [← later]
    refine ⟨t, run, full, fun k hk on => ?_, ?_, ?_, ?_, ?_⟩
    · rw [notices, full]
      have sent : (lanesChecked upset u).coreOn k = true := by rw [← withNotices_coreOn u.full, ← cores k, on]
      exact withNotices_notice (by rw [later, nextBoundary]; omega) hk sent
    · rintro rfl none
      rw [flt, lanesChecked_nil, laneDieChecks_flt _ (errs.trans none), sameFlt]
    · rintro n hn rfl agrees
      rw [tb]
      exact lanesChecked_agreeing hn (errs ▸ agrees)
    · rintro n x hn rfl none quiet hx
      obtain ⟨adopt, fault⟩ := lanesChecked_first hn (errs.trans none) (adopts.trans quiet) hx
      rw [tb, flt, ← sameFlt]
      exact ⟨adopt, fun on => fault ((sameOn _).trans on)⟩
    · rintro n hn rfl err ha
      rw [tb]
      exact lanesChecked_adopting hn (errs ▸ err) (adopts ▸ ha)

end Sys2Proof
end

section
/-! PROOF. Two refuted statements about power domains and start-up (R394, R443, R446, R466): a core die that goes off or comes on makes READ_OBJ follow the copies that
dies hold of a word, and a state may hold a copy of a domain's state word, which one die alone has. -/

namespace Sys2Proof.Machine

open Sys2Proof.Claims

/-- The anchor's copy of the state word of domain `d`, where it reads ON. -/
def strayCopy (d : Nat) : SMap (SMap DieCopy) := [(wkey 13 1 d, [(15, { word := 0x6000000000000000#64, changes := [] })])]

/-- The command that switches domain 16 off. -/
def offCmd : Cmd := { tick := 0, lane := none, part := 0, tag := 0, resv := 0, params := [16#64] }

def offOp : DomOp := { cmd := offCmd, on := false, until1 := 0, waits := false }

/-- Domain 16 in STOPPING, with a stray copy of its own state word. -/
def stoppingStray : State :=
  let s := State.reset.put F.pws_pstate 16 4
  { s with pw := { s.pw with ops := [(16, offOp)] }, cmd := { s.cmd with copies := strayCopy 16 } }

/-- The end of the switch-off leaves the domain ON. -/
theorem stoppingStray_run : ∃ t, exec (.domainOffComplete 16) stoppingStray = .next t ∧ t.get F.pws_pstate 16 = 3 := by
  refine ⟨powerDone ((domainStop stoppingStray 16 0).satInc F.pws_switches 16 1) 16 offOp stOk, rfl, ?_⟩
  decide +kernel

/-- Phase DOMAINS before its stage of the core-die domains, with a stray copy of the state word of domain 0. -/
def coreStageStray : State :=
  let s := State.reset.put F.pwg_phase 0 5
  { s with pw := { s.pw with stage := 3 }, cmd := { s.cmd with copies := strayCopy 0 } }

/-- The stage of the core-die domains, with the rail of domain 16 alone, leaves domain 0 of a lane die ON. -/
theorem coreStageStray_run :
    (match exec (.startupPhase (2 ^ 16)) coreStageStray with
      | .next t => t.get F.pws_pstate 0
      | _ => 0) = 3 := by
  decide +kernel

end Sys2Proof.Machine

namespace Sys2Proof

open Sys2Proof.Machine Sys2Proof.Claims

/-- Refutes O58: the clause of a switch-off that ends says nothing of the copies that dies hold (`cmd.copies`), and with a copy of the state word of domain 16 that reads
ON the domain is ON after it, since a core die that goes off makes READ_OBJ's word follow its copies (R394). The copies that the model's own steps make are of words
that several dies use, and a domain's state word is not one: the statement lacks that hypothesis. The ST_NO_RESOURCE of its other clauses is the model's choice
(logs 39 and 40), on which nothing here turns. -/
theorem not_powerDomainSwitching : ¬ Obligations.PowerDomainSwitching := by
  rintro ⟨-, off, -⟩
  obtain ⟨ends, -⟩ := off 16 offOp stoppingStray (by decide) rfl rfl rfl rfl (by decide)
  obtain ⟨v, run, isOff, -⟩ := ends (by decide +kernel)
  obtain ⟨t, ran, isOn⟩ := stoppingStray_run
  obtain rfl : t = finish v offOp.cmd 0x60 stOk 0 [] := Host.Outcome.next.inj (ran.symm.trans run)
  rw [finish_get, isOff] at isOn
  exact absurd isOn (by decide)

/-- Refutes O59: the clause of a stage of phase DOMAINS says nothing of the copies that dies hold (`cmd.copies`), and with a copy of the state word of domain 0 that
reads ON the stage of the core-die domains leaves domain 0 ON, which is not of that stage: a core die that comes on makes READ_OBJ's word follow its copies (R394). After
a reset no copy is held, and the model's own steps make none of a domain's state word: the statement lacks that hypothesis. What a reset keeps (log 44), the fallback
and `rail_ok` (log 41) and the flash (R499) are in clauses on which nothing here turns. -/
theorem not_resetAndStartup : ¬ Obligations.ResetAndStartup := by
  rintro ⟨-, -, phases, -⟩
  obtain ⟨-, -, -, -, -, stages, -⟩ := phases (2 ^ 16) coreStageStray rfl rfl
  obtain ⟨t, run, -, -, -, -, -, others⟩ := stages (by decide +kernel) (by decide)
  have same : t.get F.pws_pstate 0 = 0 := (others 0 (by decide) (by decide)).trans (by decide +kernel)
  have isOn := coreStageStray_run
  rw [run] at isOn
  exact absurd (same.symm.trans isOn) (by decide)

end Sys2Proof
end

section
/-! PROOF. Tile retirement and the tile map (R24 to R27, R229 to R232, R435). -/

namespace Sys2Proof.Machine

open Sys2Proof.Claims

/-! ### The words of TILE_RETIRE -/

/-- A field of a small number. -/
theorem bits_ofNat {v hi lo : Nat} (h1 : lo ≤ hi) (h2 : hi < 64) : bits (BitVec.ofNat 64 v) hi lo = v / 2 ^ lo % 2 ^ (hi - lo + 1) := by
  apply Nat.eq_of_testBit_eq
  intro i
  rw [testBit_bits h1 h2, Nat.testBit_mod_two_pow, Nat.testBit_div_two_pow, BitVec.getLsbD_ofNat]
  by_cases h : i ≤ hi - lo
  · have inside : lo + i < 64 := by omega
    have width : i < hi - lo + 1 := by omega
    simp [h, inside, width, Nat.add_comm]
  · have width : ¬i < hi - lo + 1 := by omega
    simp [h, width]

/-- A number that fits a field from bit 0 has no stray bits outside it. -/
theorem stray_ofNat {v hi : Nat} (h : v < 2 ^ (hi + 1)) (h2 : hi < 64) : stray (BitVec.ofNat 64 v) [(hi, 0)] = false := by
  simp only [stray, List.foldl, BitVec.zero_or, ne_eq, decide_not, Bool.not_eq_false', decide_eq_true_eq]
  apply BitVec.eq_of_getLsbD_eq
  intro i hi64
  rw [BitVec.getLsbD_and, BitVec.getLsbD_not, getLsbD_fieldMask (Nat.zero_le hi) h2, BitVec.getLsbD_ofNat, BitVec.getLsbD_zero]
  by_cases hle : i ≤ hi
  · simp [hle]
  · have high : v.testBit i = false := Nat.testBit_lt_two_pow (h.trans_le (Nat.pow_le_pow_right (by omega) (by omega)))
    simp [high]

/-- A word with one field from bit 0. -/
theorem pack_low (hi v : Nat) (h : hi < 64) : pack [(hi, 0, v)] = BitVec.ofNat 64 (v % 2 ^ (hi + 1)) := by
  apply BitVec.eq_of_getLsbD_eq
  intro i hi64
  simp only [pack, List.foldl]
  rw [getLsbD_setBits (Nat.zero_le hi) h, BitVec.getLsbD_ofNat, BitVec.getLsbD_ofNat, Nat.testBit_mod_two_pow]
  by_cases hle : i ≤ hi
  · have width : i < hi + 1 := by omega
    simp [hle, hi64, width]
  · have width : ¬i < hi + 1 := by omega
    simp [hle, width]

/-! ### The map of a tile -/

theorem mem_clusterOf (n : Nat) : n ∈ clusterOf n := by
  simp only [clusterOf, upTo, List.mem_map, List.mem_range]
  exact ⟨n % 16, by omega, by omega⟩

/-- While no change of its cluster is in progress a tile has none. -/
theorem remap_of_remapping {s : State} {n : Nat} (h : s.remapping n = false) : (s.tile n).remap = none := by
  have none := List.any_eq_false.mp h n (mem_clusterOf n)
  simpa using none

/-- A change without a boundary leaves a tile's map as it is. -/
theorem tileSource_setRemap {s : State} {n : Nat} (h : (s.tile n).remap = none) {r : Remap} (hr : r.full = none) (full : Nat) :
    (s.setTile n { s.tile n with remap := some r }).tileSource n full = s.tileSource n full := by
  simp only [State.tileSource, State.mapFor, State.tile_setTile, h, hr]
  rfl

/-- A flag that is set. -/
theorem flag_put_one (s : State) (f : Field) (i : Nat) (h1 : f.lo ≤ f.hi) (h2 : f.hi < 64) : (s.put f i 1).flag f i = true := by
  have self := State.get_put_self s f i 1 h1 h2
  rw [Nat.mod_eq_of_lt (Nat.one_lt_two_pow (by omega))] at self
  exact decide_eq_true self

/-- A retirement marks the physical tile that serves a logical tile. -/
theorem flag_retirePhys (s : State) (n : Nat) : (retirePhys s n).flag F.fsa_retired (s.tileSource n s.full) = true :=
  flag_put_one s F.fsa_retired _ (by decide) (by decide)

/-! ### TILE_RETIRE -/

/-- The change of its map that a tile waits with, by the command that asked for it. -/
def State.retireMap (s : State) (c : Option Cmd) (n : Nat) : Remap :=
  { cmd := c, full := none, fault := c.isNone, state := if s.spareUsed n then 2 else 1, phys := if s.spareUsed n then 31 else 16 }

/-- An accepted TILE_RETIRE: the tile waits with the map it will have, and its physical tile is retired. -/
def retiring (s : State) (c : Cmd) (n : Nat) : State := retirePhys (s.setTile n { s.tile n with remap := some (s.retireMap (some c) n) }) n

theorem retireMap_eq (s : State) (c : Option Cmd) (n : Nat) :
    s.retireMap c n = { cmd := c, full := none, fault := c.isNone, state := (s.nextMap n).1, phys := (s.nextMap n).2 } := by
  unfold State.retireMap State.nextMap
  split <;> rfl

theorem retiring_source {s : State} {n : Nat} (free : s.remapping n = false) (c : Cmd) :
    (s.setTile n { s.tile n with remap := some (s.retireMap (some c) n) }).tileSource n s.full = s.tileSource n s.full :=
  tileSource_setRemap (remap_of_remapping free) rfl s.full

theorem retiring_flag {s : State} {n : Nat} (free : s.remapping n = false) (c : Cmd) :
    (retiring s c n).flag F.fsa_retired (s.tileSource n s.full) = true := by
  have flag := flag_retirePhys (s.setTile n { s.tile n with remap := some (s.retireMap (some c) n) }) n
  rwa [State.setTile_full, retiring_source free] at flag

theorem retiring_flt {s : State} {n : Nat} (free : s.remapping n = false) (c : Cmd) :
    (retiring s c n).flt = { s.flt with toRecord := s.flt.toRecord ++ [retireEntry (s.tileSource n s.full) 0 0] } := by
  simp only [retiring, retirePhys, recordRetirement, State.setTile_full, retiring_source free, State.put_flt, State.setTile_flt]

/-- Row 7 of TILE_RETIRE of the tile with the number of its word. -/
theorem tileRetireBody_eq {c : Cmd} {n : Nat} (hn : n < 320) (hw : c.par 0 = BitVec.ofNat 64 n) (hp : c.part = 0) (hr : c.resv = 0)
    (hl : c.params.length = 1) (s : State) : tileRetireBody c s =
      refuseIf (s.tileGone n s.full) stRetired 0 (refuseIf (!s.domOn (tileDomain n)) stNoResource 0 (refuseIf (s.remapping n) stNoResource 0
        (.later (retiring s c n)))) := by
  have die : bits (c.par 0) 8 6 = n / 64 := by
    rw [hw, bits_ofNat (by decide) (by decide)]
    omega
  have tile : n / 64 * 64 + bits (c.par 0) 5 0 = n := by
    rw [hw, bits_ofNat (by decide) (by decide)]
    omega
  have fits : (stray (c.par 0) [(8, 0)] || decide (5 ≤ n / 64)) = false := by
    have small : ¬5 ≤ n / 64 := by omega
    rw [hw, stray_ofNat (by omega) (by decide)]
    simp [small]
  unfold tileRetireBody
  rw [checked_eq c true 1 _ (by simp [hp]) hr hl]
  dsimp only
  rw [die, tile, refuseIf_false _ _ _ fits, noMore, refuseIf_false _ _ _ (by simp [hl]), retiring, retireMap_eq]
  rfl

/-! ### The boundary of a change -/

theorem sameWords_setWord (s : State) (o e i : Nat) (w : Word) : sameWords s (s.setWord o e i w) [wkey o e i] := by
  intro k hk
  exact mget_mset_ne' _ _ _ _ (by simpa using hk)

theorem sameWords_put (s : State) (f : Field) (i v : Nat) : sameWords s (s.put f i v) [wkey f.obj f.sel i] := sameWords_setWord _ _ _ _ _

theorem sameWords_trans {s t u : State} {k l : Nat} (h : sameWords s t [k]) (h' : sameWords t u [l]) : sameWords s u [k, l] := by
  intro j hj
  obtain ⟨hk, hl⟩ := List.ne_and_not_mem_of_not_mem_cons hj
  exact (h' j hl).trans (h j (by simpa using hk))

/-- The acceptance of a change that a command waits for. -/
theorem exec_tileRemapAccept {n : Nat} {r : Remap} {c : Cmd} {s : State} (hr : (s.tile n).remap = some r) (hf : r.full = none)
    (hfault : r.fault = false) (hc : r.cmd = some c) : exec (.tileRemapAccept n) s =
      .next (finish ((s.setTile n { s.tile n with remap := some { r with full := some (nextBoundary s.full), cmd := none } }).put F.tmd_remap_pending n 1)
        c 0x61 stOk 0 [BitVec.ofNat 64 (nextBoundary s.full % 2 ^ 54)]) := by
  rw [← pack_low 53 _ (by decide)]
  show execTileRemapAccept n s = _
  simp only [execTileRemapAccept, hr, hf, hfault, hc]
  rfl

/-- The map word of a tile with a state and a physical tile. -/
def mapWord (w : Word) (r : Remap) : Word := setBits (setBits w 15 14 r.state) 13 9 r.phys

theorem mapWord_state (w : Word) {r : Remap} (h : r.state < 4) : bits (mapWord w r) 15 14 = r.state := by
  rw [mapWord, bits_setBits_apart (by decide) (by decide) (by decide) (by decide) (by decide), bits_setBits_self (by decide) (by decide)]
  omega

theorem mapWord_phys (w : Word) {r : Remap} (h : r.phys < 32) : bits (mapWord w r) 13 9 = r.phys := by
  rw [mapWord, bits_setBits_self (by decide) (by decide)]
  omega

/-- The words of a tile whose change reaches its boundary: the map, and no change pending. -/
def withMap (s : State) (n : Nat) (r : Remap) : State := (s.setWord 4 0 n (mapWord (s.word 4 0 n) r)).put F.tmd_remap_pending n 0

theorem sameWords_withMap (s : State) (n : Nat) (r : Remap) : sameWords s (withMap s n r) [wkey 4 0 n, wkey 4 5 n] :=
  sameWords_trans (sameWords_setWord s 4 0 n _) (sameWords_put _ _ _ _)

theorem withMap_word (s : State) (n : Nat) (r : Remap) : (withMap s n r).word 4 0 n = mapWord (s.word 4 0 n) r := by
  have other : wkey 4 0 n ≠ wkey F.tmd_remap_pending.obj F.tmd_remap_pending.sel n := by
    simp only [wkey, F.tmd_remap_pending]
    omega
  rw [withMap, State.put, State.word_setWord_ne (s.setWord 4 0 n _) _ other, State.word_setWord]

theorem withMap_pending (s : State) (n : Nat) (r : Remap) : (withMap s n r).flag F.tmd_remap_pending n = false :=
  decide_eq_false (by rw [withMap, State.get_put_self _ _ _ _ (by decide) (by decide)]; decide)

/-- The map word of a tile before a boundary, with its earlier changes. -/
def mapPrev (s : State) (n b : Nat) : Prev :=
  { old := s.word 4 0 n, full := b, cinch := none, older := ((mfind s.cmd.prev (wkey 4 0 n)).map fun p => p.changes).getD [] }

/-- A change at its boundary: the map word, the previous word kept, and the tile. -/
theorem exec_tileRemapBoundary {n b : Nat} {r : Remap} {s : State} (hr : (s.tile n).remap = some r) (hb : r.full = some b) :
    ∃ t, exec (.tileRemapBoundary n) s = .next t ∧ t.regs = (withMap (advanceFull s b) n r).regs ∧ (t.tile n).remap = none ∧
      (r.state = 2 → (t.tile n).dead = some b) ∧ t.tb = (advanceFull s b).tb ∧
      mfind t.cmd.prev (wkey 4 0 n) = some (mapPrev (advanceFull s b) n b) := by
  show ∃ t, execTileRemapBoundary n s = .next t ∧ _
  simp only [execTileRemapBoundary, hr, hb]
  generalize advanceFull s b = u
  refine ⟨_, rfl, rfl, ?_, fun gone => ?_, rfl, mfind_minsert_self ..⟩
  · rw [State.tile_setTile]
  · rw [State.tile_setTile]
    exact if_pos gone

end Sys2Proof.Machine
end

section
/-! PROOF. What the closing of caravans and the rewinding of frames leave of device time and of the changes of the tile map (R229, R232). -/

namespace Sys2Proof.Machine

/-- Device time, and each tile's change of its map and whether a retirement is held for it. -/
def mapView (s : State) : TimeBase × (Nat → Option Remap × Bool) := (s.tb, fun n => ((s.tile n).remap, (s.tile n).held))

theorem mapView_of_same {s t : State} (tb : t.tb = s.tb) (tiles : t.tiles = s.tiles) : mapView t = mapView s := by
  simp only [mapView, State.tile, tb, tiles]

/-- A tile changes, but for its map and what is held for it. -/
theorem mapView_setTile {s : State} {n : Nat} {x : Tile} (remap : x.remap = (s.tile n).remap) (held : x.held = (s.tile n).held) :
    mapView (s.setTile n x) = mapView s := by
  refine Prod.ext rfl (funext fun j => ?_)
  by_cases h : j = n
  · subst h
    simp only [mapView, State.tile_setTile, remap, held]
  · simp only [mapView, State.tile_setTile_ne s x h]

/-- A step for each of a list leaves what each of its steps leaves. -/
theorem mapView_foldl {α : Type} {f : State → α → State} (h : ∀ s a, mapView (f s a) = mapView s) (l : List α) (s : State) :
    mapView (l.foldl f s) = mapView s := by
  induction l generalizing s with
  | nil => rfl
  | cons a l ih => rw [List.foldl_cons, ih, h]

@[simp] theorem mapView_put (s : State) (f : Field) (i v : Nat) : mapView (s.put f i v) = mapView s :=
  mapView_of_same (State.put_tb ..) (State.put_tiles ..)
@[simp] theorem mapView_setWord (s : State) (o e i : Nat) (w : Word) : mapView (s.setWord o e i w) = mapView s :=
  mapView_of_same (State.setWord_tb ..) (State.setWord_tiles ..)
@[simp] theorem mapView_satInc (s : State) (f : Field) (i v : Nat) : mapView (s.satInc f i v) = mapView s :=
  mapView_of_same (State.satInc_tb ..) (State.satInc_tiles ..)
@[simp] theorem mapView_setHq (s : State) (q : Nat) (x : HQueue) : mapView (s.setHq q x) = mapView s := rfl
@[simp] theorem mapView_setGroup (s : State) (g : Nat) (x : GroupX) : mapView (s.setGroup g x) = mapView s := rfl
@[simp] theorem mapView_setIng (s : State) (g : Nat) (x : Ingress) : mapView (s.setIng g x) = mapView s := rfl
@[simp] theorem mapView_setCondx (s : State) (c : Nat) (x : CondX) : mapView (s.setCondx c x) = mapView s := rfl
@[simp] theorem mapView_setCoreDef (s : State) (k p d : Nat) (x : CoreDef) : mapView (s.setCoreDef k p d x) = mapView s := rfl
@[simp] theorem mapView_event (s : State) (p a b c d : Nat) (ws : List Word) : mapView (event s p a b c d ws) = mapView s :=
  mapView_of_same (event_tb ..) (event_tiles ..)

/-! ### Statistics and conditions -/

@[simp] theorem mapView_withAccs (s : State) (m : SMap (List Acc)) : mapView { s with accs := m } = mapView s := rfl

@[simp] theorem mapView_editAcc (s : State) (c pk gate : Nat) (f : Acc → Acc) : mapView (editAcc s c pk gate f) = mapView s := rfl

@[simp] theorem mapView_flagGates (s : State) (c full n : Nat) (flag : BitVec 16) : mapView (flagGates s c full n flag) = mapView s := by
  unfold flagGates
  split
  · exact mapView_foldl (fun s g => mapView_editAcc ..) _ _
  · rfl

@[simp] theorem mapView_flagGate (s : State) (c full : Nat) (flag : BitVec 16) : mapView (flagGate s c full flag) = mapView s := mapView_flagGates ..

@[simp] theorem mapView_accumulate (s : State) (h : THit) : mapView (accumulate s h) = mapView s := by
  unfold accumulate
  dsimp only
  split <;> rfl

@[simp] theorem mapView_accIntervals (s : State) (c before : Nat) : mapView (accIntervals s c before) = mapView s := by
  refine mapView_foldl (fun s v => ?_) _ _
  dsimp only
  split
  · split <;> rfl
  · rfl

@[simp] theorem mapView_markOpen (s : State) (c pk full : Nat) (f : Acc → Acc) : mapView (markOpen s c pk full f) = mapView s :=
  mapView_foldl (fun _ _ => mapView_editAcc ..) _ _

@[simp] theorem mapView_discardOpen (s : State) (c pk full : Nat) : mapView (discardOpen s c pk full) = mapView s := rfl

@[simp] theorem mapView_statsChange (s : State) (c full : Nat) : mapView (statsChange s c full) = mapView s := by
  simp only [statsChange, apply_ite mapView, mapView_markOpen, mapView_discardOpen, mapView_withAccs, ite_self]

@[simp] theorem mapView_fire (s : State) (c full time : Nat) : mapView (fire s c full time) = mapView s := by
  simp only [fire, apply_ite mapView, mapView_setCoreDef, mapView_satInc, ite_self]

@[simp] theorem mapView_condLow (s : State) (h : THit) : mapView (condLow s h) = mapView s := by
  unfold condLow
  dsimp only
  split
  · simp only [apply_ite mapView, mapView_fire, ite_self]
  · split <;> simp only [mapView_setCondx, apply_ite mapView, mapView_fire, ite_self]
  · rfl
  · rfl
  · rfl

@[simp] theorem mapView_condHigh (s : State) (h : THit) : mapView (condHigh s h) = mapView s := by
  unfold condHigh
  dsimp only
  split
  · rfl
  · split
    · rfl
    · exact mapView_foldl (fun s t => by simp only [apply_ite mapView, mapView_fire, ite_self]) _ _
    · rfl

@[simp] theorem mapView_condEnd (full stop : Nat) (s : State) (c : Nat) : mapView (condEnd full stop s c) = mapView s := by
  unfold condEnd
  dsimp only
  split
  · exact mapView_foldl (fun s t => mapView_fire ..) _ _
  · rfl
  · split
    · simp only [apply_ite mapView, mapView_fire, mapView_setCondx, ite_self]
    · rfl
  · rfl

@[simp] theorem mapView_condRestart (s : State) (c full : Nat) : mapView (condRestart s c full) = mapView s := rfl

/-! ### History -/

@[simp] theorem mapView_putEh (s : State) (tile t : Nat) : mapView (putEh s tile t) = mapView s := by
  rw [putEh, mapView_setWord]
  exact mapView_setTile rfl rfl

@[simp] theorem mapView_dropLine (s : State) (tile : Nat) (line : List THit) (needed : Bool) : mapView (dropLine s tile line needed) = mapView s := by
  simp only [dropLine, apply_ite mapView, mapView_satInc, mapView_putEh, ite_self]

@[simp] theorem mapView_trimExt (n : Nat) (s : State) (tile cap floor : Nat) : mapView (trimExt n s tile cap floor) = mapView s := by
  induction n generalizing s with
  | zero => rfl
  | succ n ih =>
    unfold trimExt
    dsimp only
    split
    · rfl
    · rw [ih, mapView_dropLine]
      exact mapView_setTile rfl rfl

@[simp] theorem mapView_spillLine (s : State) (tile : Nat) (line : List THit) : mapView (spillLine s tile line) = mapView s := mapView_setTile rfl rfl

@[simp] theorem mapView_trimRing (n : Nat) (s : State) (tile cap floor : Nat) (busy : Bool) :
    mapView (trimRing n s tile cap floor busy) = mapView s := by
  induction n generalizing s with
  | zero => rfl
  | succ n ih =>
    unfold trimRing
    dsimp only
    split
    · rfl
    · rw [ih]
      simp only [apply_ite mapView, mapView_satInc, mapView_dropLine, mapView_trimExt, mapView_spillLine, ite_self]
      exact mapView_setTile rfl rfl

@[simp] theorem mapView_writeRing (s : State) (tile full : Nat) (hs : List THit) (busy : Bool) : mapView (writeRing s tile full hs busy) = mapView s := by
  unfold writeRing
  dsimp only
  rw [mapView_trimRing]
  exact mapView_setTile rfl rfl

@[simp] theorem mapView_clearHistory (s : State) (tile full : Nat) (ring : Bool) : mapView (clearHistory s tile full ring) = mapView s := by
  unfold clearHistory
  dsimp only
  rw [mapView_putEh, mapView_satInc]
  exact mapView_setTile rfl rfl

/-! ### A tile closes a caravan -/

@[simp] theorem mapView_sumsRead (s : State) (chans : List Nat) : mapView (sumsRead s chans) = mapView s := by
  refine (mapView_foldl (fun s c => ?_) _ _).trans rfl
  split <;> rfl

@[simp] theorem mapView_chanChange (full : Nat) (s : State) (c : Nat) : mapView (chanChange full s c) = mapView s := by
  unfold chanChange
  dsimp only
  split
  · rfl
  · simp only [apply_ite mapView, mapView_condRestart, ite_self]
    refine Eq.trans ?_ (mapView_statsChange s c full)
    split
    · split <;> rfl
    · rfl

@[simp] theorem mapView_tileBoundary (s : State) (tile full : Nat) : mapView (tileBoundary s tile full) = mapView s := by
  unfold tileBoundary
  dsimp only
  refine (mapView_setTile ?_ ?_).trans ?_
  · rfl
  · rfl
  simp only [apply_ite mapView, mapView_clearHistory, mapView_foldl (mapView_chanChange full), mapView_sumsRead, ite_self,
    mapView_foldl (f := fun s c => condRestart { s with accs := mset [] s.accs c ((s.accList c).map fun a => { a with last := none }) } c full) (fun _ _ => rfl)]

@[simp] theorem mapView_toQueue (s : State) (k : Nat) (h : THit) : mapView (toQueue s k h) = mapView s := by
  simp only [toQueue, apply_ite mapView, mapView_setHq, mapView_satInc, ite_self]

@[simp] theorem mapView_decimate (s : State) (c full : Nat) : mapView (decimate s c full).1 = mapView s := by
  unfold decimate
  dsimp only
  split <;> rfl

@[simp] theorem mapView_binnedHit (k : Nat) (s : State) (h : THit) : mapView (binnedHit k s h) = mapView s := by
  simp only [binnedHit, apply_ite mapView, mapView_toQueue, mapView_decimate, mapView_accumulate, mapView_condHigh, mapView_condLow, mapView_satInc,
    mapView_flagGates, ite_self]

@[simp] theorem mapView_showWaited (s : State) (g : Nat) : mapView (showWaited s g) = mapView s := rfl

@[simp] theorem mapView_lateGroup (k : Nat) (s : State) (g : Nat) : mapView (lateGroup k s g) = mapView s := by
  simp only [lateGroup, apply_ite mapView, mapView_showWaited, mapView_setGroup, mapView_put, mapView_satInc, ite_self]

@[simp] theorem mapView_closeOne (s : State) (tile : Nat) (late : List Nat) (anyLate remap busy : Bool) :
    mapView (closeOne s tile late anyLate remap busy) = mapView s := by
  have queues : ∀ (qs : List Nat) (f : State → Nat → HQueue) (u : State),
      mapView (qs.foldl (fun s q => if s.queueEn q then s.setHq q (f s q) else s) u) = mapView u := by
    intro qs f u
    exact mapView_foldl (fun s q => by simp only [apply_ite mapView, mapView_setHq, ite_self]) qs u
  unfold closeOne
  dsimp only
  simp only [apply_ite mapView, queues, mapView_foldl (mapView_lateGroup _), mapView_satInc, mapView_writeRing, mapView_foldl (mapView_condEnd _ _),
    mapView_foldl (f := fun s c => accIntervals s c _) (fun s c => mapView_accIntervals s c _), mapView_foldl (mapView_binnedHit _), ite_self]
  refine (mapView_setTile ?_ ?_).trans (mapView_tileBoundary ..)
  · rfl
  · rfl

theorem mapView_closeUpTo (n : Nat) (s : State) (tile full : Nat) : mapView (closeUpTo n s tile full) = mapView s := by
  induction n generalizing s with
  | zero => rfl
  | succ n ih =>
    unfold closeUpTo
    split
    · rw [ih, mapView_closeOne]
    · rfl

/-! ### A frame is converted again -/

@[simp] theorem mapView_pauseSettle (s : State) (g : Nat) : mapView (pauseSettle s g) = mapView s := by
  obtain ⟨_, _, _, _, _, e⟩ := pauseSettle_frame s g
  rw [e]
  rfl

@[simp] theorem mapView_ingSettle (s : State) (g : Nat) : mapView (ingSettle s g) = mapView s := by
  unfold ingSettle
  dsimp only
  simp only [mapView_pauseSettle, apply_ite mapView, mapView_event, mapView_put, mapView_setIng, ite_self]

@[simp] theorem mapView_pressTile (s : State) (tile : Nat) : mapView (pressTile s tile) = mapView s :=
  mapView_foldl (fun s e => by simp only [apply_ite mapView, mapView_pauseSettle, ite_self]) _ _

@[simp] theorem mapView_dropItems (g : Nat) (f : IFrame) (s : State) (t : Nat) : mapView (dropItems g f s t) = mapView s := by
  unfold dropItems
  dsimp only
  rw [mapView_pressTile, mapView_satInc]
  refine (mapView_setTile ?_ ?_).trans ?_
  · rfl
  · rfl
  · rfl

@[simp] theorem mapView_takeFrame (s : State) (g : Nat) (f : IFrame) : mapView (takeFrame s g f) = mapView s := rfl
@[simp] theorem mapView_putFrame (s : State) (g : Nat) (f : IFrame) : mapView (putFrame s g f) = mapView s := rfl
@[simp] theorem mapView_dropGroup (s : State) (g n : Nat) : mapView (dropGroup s g n) = mapView s := rfl
@[simp] theorem mapView_gapNote (s : State) (g : Nat) : mapView (gapNote s g) = mapView s := rfl

@[simp] theorem mapView_rewind (s : State) (g idx : Nat) : mapView (rewind s g idx) = mapView s := by
  unfold rewind
  dsimp only
  split
  · rfl
  · split
    · rfl
    · split
      · simp only [mapView_ingSettle, mapView_gapNote, mapView_satInc, mapView_dropGroup, mapView_foldl (mapView_dropItems g _), mapView_takeFrame]
      · simp only [mapView_ingSettle, mapView_satInc, mapView_setGroup]
        rw [mapView_foldl (fun s h => mapView_putFrame ..), mapView_foldl (fun s f => mapView_foldl (mapView_dropItems g f) f.all s)]

theorem mapView_rewindCaught (n : Nat) (s : State) (g tile : Nat) : mapView (rewindCaught n s g tile) = mapView s := by
  induction n generalizing s with
  | zero => rfl
  | succ n ih =>
    unfold rewindCaught
    split
    · rw [ih, mapView_rewind]
    · rfl

/-! ### A change of the map by the fault collector -/

theorem mapView_unreadable (s : State) (tile : Nat) : mapView (unreadable s tile) = mapView s := by
  unfold unreadable
  dsimp only
  rw [mapView_foldl (fun s h => mapView_flagGate ..)]
  exact (mapView_setTile (s := s) rfl rfl)

/-- The change that the collector begins: of device time and the tiles' maps nothing else moves. -/
theorem mapView_faultRemap (s : State) (n : Nat) :
    ∃ u, mapView u = mapView s ∧ mapView (faultRemap s n) = mapView (u.setTile n { u.tile n with remap := some (s.retireMap none n) }) := by
  refine ⟨unreadable s n, mapView_unreadable s n, ?_⟩
  unfold faultRemap
  dsimp only
  rw [mapView_foldl (fun s g => mapView_rewindCaught ..), mapView_closeUpTo, retireMap_eq]
  rfl

theorem faultRemap_tb (s : State) (n : Nat) : (faultRemap s n).tb = s.tb := by
  obtain ⟨u, same, e⟩ := mapView_faultRemap s n
  exact (congrArg Prod.fst e).trans (congrArg Prod.fst same)

/-- The tile waits with the map it will have, and what is held for it stays. -/
theorem faultRemap_tile (s : State) (n : Nat) : ((faultRemap s n).tile n).remap = some (s.retireMap none n) ∧ ((faultRemap s n).tile n).held = (s.tile n).held := by
  obtain ⟨u, same, e⟩ := mapView_faultRemap s n
  generalize faultRemap s n = t at e ⊢
  have tile : (mapView t).2 n = (some (s.retireMap none n), (u.tile n).held) := by
    rw [e]
    simp only [mapView, State.tile_setTile]
  have held : (u.tile n).held = (s.tile n).held := congrArg (fun v => (v.2 n).2) same
  exact ⟨congrArg Prod.fst tile, (congrArg Prod.snd tile).trans held⟩

/-- At the boundary of a held retirement the tile holds it no longer. -/
def released (s : State) (n : Nat) : State :=
  (advanceFull s (s.lastMapChange n + 4096)).setTile n { (advanceFull s (s.lastMapChange n + 4096)).tile n with held := false }

theorem released_spareUsed (s : State) (n : Nat) : (released s n).spareUsed n = s.spareUsed n := by
  have regs : (released s n).regs = s.regs := by rw [released, State.setTile_regs, advanceFull_regs]
  have get : ∀ f j, (released s n).get f j = s.get f j := fun f j => by rw [State.get, State.word, regs, State.get, State.word]
  simp only [State.spareUsed, State.flag, get]

theorem exec_heldRetirementRemap {s : State} {n : Nat} (held : (s.tile n).held = true) (free : s.remapping n = false) :
    exec (.heldRetirementRemap n) s = .next (faultRemap (released s n) n) := by
  show execHeldRetirementRemap n s = _
  rw [execHeldRetirementRemap, if_pos (by simp [held, free]), released]

/-- A held retirement begins its change. -/
theorem faultRemap_released (s : State) (n : Nat) : ((faultRemap (released s n) n).tile n).held = false ∧
    ((faultRemap (released s n) n).tile n).remap = some (s.retireMap none n) ∧
    (faultRemap (released s n) n).tb = (advanceFull s (s.lastMapChange n + 4096)).tb := by
  obtain ⟨remap, held⟩ := faultRemap_tile (released s n) n
  refine ⟨?_, ?_, ?_⟩
  · rw [held, released, State.tile_setTile]
  · rw [remap, State.retireMap, released_spareUsed, State.retireMap]
  · rw [faultRemap_tb, released, State.setTile_tb]

/-- The change that a held retirement begins at the boundary after the pending one. -/
theorem began_of_held (s : State) (n : Nat) (held : (s.tile n).held = true) (free : s.remapping n = false) :
    ∃ t r, exec (.heldRetirementRemap n) s = .next t ∧ (t.tile n).held = false ∧ (t.tile n).remap = some r ∧
      t.tb = (advanceFull s (s.lastMapChange n + 4096)).tb ∧ r.fault = true ∧ r.full = none ∧ r.cmd = none ∧
      r.state = (if s.spareUsed n then 2 else 1) ∧ r.phys = (if s.spareUsed n then 31 else 16) := by
  obtain ⟨unheld, remap, tb⟩ := faultRemap_released s n
  exact ⟨_, _, exec_heldRetirementRemap held free, unheld, remap, tb, rfl, rfl, rfl, rfl, rfl⟩

end Sys2Proof.Machine
end

section
namespace Sys2Proof

open Sys2Proof.Machine Sys2Proof.Claims

/-- Settles O48: an accepted TILE_RETIRE is the command's row 7; a change's acceptance and its boundary are one step each; the collector's change moves, of device time
and the tiles' maps, that tile's map alone. -/
theorem tileMapChanges : Obligations.TileMapChanges := by
  refine ⟨fun c n s hn hw => ?_, fun n r c s hn hr hf hfault hc => ?_, fun n b r s hn hr hb hst hph => ?_, fun n s hn held free => ?_⟩
  · dsimp only
    intro h
    obtain ⟨h1, part⟩ := Bool.and_eq_true_iff.mp h
    obtain ⟨hp, resv, len⟩ := (accepts_iff s c 0x61 1).mp h1
    have run : exec (.tileRetire c) s = .next (settle (advanceTo s c.tick) c 0x61 (tileRetireBody c (advanceTo s c.tick))) :=
      congrArg Host.Outcome.next (runCmd_of_passes hp _)
    rw [tileRetireBody_eq hn hw (of_decide_eq_true part) resv len] at run
    generalize advanceTo s c.tick = u at run ⊢
    refine ⟨fun gone => ?_, fun here on busy => ?_, fun here on free => ?_⟩
    · rw [run, refuseIf_true _ _ _ gone]
      rfl
    · rw [run, refuseIf_false _ _ _ here, refuseIf_false _ _ _ (by simp [on]), refuseIf_true _ _ _ busy]
      rfl
    · rw [refuseIf_false _ _ _ here, refuseIf_false _ _ _ (by simp [on]), refuseIf_false _ _ _ free] at run
      exact ⟨retiring u c n, run, rfl, retiring_flag free c, retiring_flt free c, State.tile_setTile ..⟩
  · refine ⟨_, exec_tileRemapAccept hr hf hfault hc, ?_, ?_, fun k hk => sameWords_put (s.setTile n _) F.tmd_remap_pending n 1 k hk⟩
    · exact flag_put_one _ _ _ (by decide) (by decide)
    · rw [State.put_tile, State.tile_setTile]
  · dsimp only
    obtain ⟨t, run, regs, done, dead, tb, prev⟩ := exec_tileRemapBoundary hr hb
    generalize advanceFull s b = u at regs tb prev ⊢
    have map : t.word 4 0 n = mapWord (u.word 4 0 n) r := (congrArg (regGet · _) regs).trans (withMap_word u n r)
    refine ⟨t, run, ?_, ?_, ?_, ?_, done, dead, prev, tb⟩
    · exact (congrArg (bits · 15 14) map).trans (mapWord_state _ hst)
    · exact (congrArg (bits · 13 9) map).trans (mapWord_phys _ hph)
    · have pending := withMap_pending u n r
      rw [State.flag, State.get, State.word, ← regs] at pending
      exact pending
    · intro k hk
      rw [regs]
      exact sameWords_withMap u n r k hk
  · exact began_of_held s n held free

end Sys2Proof
end


section
/-! PROOF. What the selector and the references leave alone: every register word but their own, device time, and the monitor's sums (R46, R51, R54, R57, R69). -/

namespace Sys2Proof.Machine

open Sys2Proof.Claims

/-! ### Register words left alone -/

theorem sameWords_of_regs {s t : State} (h : t.regs = s.regs) (ks : List Nat) : sameWords s t ks := fun _ _ => by rw [h]

theorem sameWords_put_of_mem {ks : List Nat} (s : State) (f : Field) (i v : Nat) (h : wkey f.obj f.sel i ∈ ks) : sameWords s (s.put f i v) ks :=
  fun _ hk => mget_mset_ne' _ _ _ _ fun e => hk (e ▸ h)

/-- A field of a word left alone. -/
theorem get_of_sameWords {s t : State} {ks : List Nat} (h : sameWords s t ks) (f : Field) (j : Nat) (hk : wkey f.obj f.sel j ∉ ks) :
    t.get f j = s.get f j :=
  congrArg (bits · f.hi f.lo) (h _ hk)

/-- A record changes no register word but the count of its queue's dropped records. -/
theorem sameWords_emit {ks : List Nat} (s : State) (q : Nat) (x : Rec) (h : wkey 5 7 q ∈ ks) : sameWords s (emit s q x) ks := by
  unfold emit
  split
  · exact sameWords_of_regs (State.setHq_regs ..) ks
  · exact sameWords_put_of_mem s F.qhb_rec_dropped q _ h

/-! ### Words, device time and the monitor's sums -/

/-- Outside the register words `ks`, `t` has the words of `s`, and its device time and the sums of the reference monitor are those of `s`. -/
def leaves (ks : List Nat) (s t : State) : Prop := t.tb = s.tb ∧ t.rf.sums = s.rf.sums ∧ sameWords s t ks

section
variable {ks : List Nat} {s t : State}

theorem leaves_refl (ks : List Nat) (s : State) : leaves ks s s := ⟨rfl, rfl, fun _ _ => rfl⟩

theorem leaves.trans {u : State} (h : leaves ks s t) (h' : leaves ks t u) : leaves ks s u := by
  obtain ⟨tb, sums, words⟩ := h
  obtain ⟨tb', sums', words'⟩ := h'
  exact ⟨tb'.trans tb, sums'.trans sums, fun k hk => (words' k hk).trans (words k hk)⟩

theorem leaves.mono {ls : List Nat} (h : leaves ks s t) (sub : ∀ k ∈ ks, k ∈ ls) : leaves ls s t := by
  obtain ⟨tb, sums, words⟩ := h
  exact ⟨tb, sums, fun k hk => words k fun hk' => hk (sub k hk')⟩

theorem leaves.get (h : leaves ks s t) (f : Field) (j : Nat) (hk : wkey f.obj f.sel j ∉ ks) : t.get f j = s.get f j := by
  obtain ⟨-, -, words⟩ := h
  exact get_of_sameWords words f j hk

theorem leaves.put (h : leaves ks s t) (f : Field) (i v : Nat) (hk : wkey f.obj f.sel i ∈ ks) : leaves ks s (t.put f i v) :=
  h.trans ⟨State.put_tb .., by rw [State.put_rf], sameWords_put_of_mem t f i v hk⟩

theorem leaves.event (h : leaves ks s t) (a b c d : Nat) (ws : List Word) (hk : wkey 5 7 0 ∈ ks) : leaves ks s (event t 0 a b c d ws) :=
  h.trans ⟨event_tb .., by rw [event_rf], sameWords_emit t _ _ hk⟩

theorem leaves.raise (h : leaves ks s t) (n c k : Nat) (b : Bool) : leaves ks s (raise t n c k b) :=
  h.trans ⟨raise_tb .., by rw [raise_rf], sameWords_of_regs (raise_regs ..) ks⟩

theorem leaves.finish (h : leaves ks s t) (c : Cmd) (op st d : Nat) (ws : List Word) : leaves ks s (finish t c op st d ws) :=
  h.trans ⟨finish_tb .., by rw [finish_rf], sameWords_of_regs (finish_regs ..) ks⟩

/-- What stands behind a reference and the selector, but for the monitor's sums. -/
theorem leaves.withRf (h : leaves ks s t) {x : RefSys} (hx : x.sums = t.rf.sums := by rfl) : leaves ks s { t with rf := x } := h.trans ⟨rfl, hx, fun _ _ => rfl⟩

theorem leaves.withFlt (h : leaves ks s t) (x : FaultSys) : leaves ks s { t with flt := x } := h.trans ⟨rfl, rfl, fun _ _ => rfl⟩

end

/-! ### The selector -/

/-- The words that the selector writes: its own of REF_STATUS, the mode of REFSEL, and the dropped records of queue 0. -/
def selectorWords : List Nat := [wkey 32 0 0, wkey 9 0 0, wkey 5 7 0]

section
variable {s t : State}

theorem leaves.refEvent (h : leaves selectorWords s t) (n code : Nat) : leaves selectorWords s (refEvent t n code) := h.event _ _ _ _ _ (by decide)

theorem leaves.setSel (h : leaves selectorWords s t) (st : Nat) : leaves selectorWords s (setSel t st) :=
  (h.put F.refst0_sel_state 0 st (by decide)).refEvent ..

theorem leaves_holdOsc (ks : List Nat) (s : State) : leaves ks s (holdOsc s) := ⟨rfl, rfl, fun _ _ => rfl⟩

theorem leaves_closeLoop (ks : List Nat) (s : State) (wide : Bool) : leaves ks s (closeLoop s wide) := ⟨rfl, rfl, fun _ _ => rfl⟩

theorem leaves.startSwitch (h : leaves selectorWords s t) (r : Nat) : leaves selectorWords s (startSwitch t r) := by
  have held := (h.put F.refst0_target 0 r (by decide)).trans (leaves_holdOsc _ _)
  exact held.withRf.setSel 3

/-- The oscillator is held, and neither a reference nor a target is shown. -/
def noReference (s : State) : State := (((holdOsc s).put F.refst0_target 0 3).put F.refst0_selected 0 3).put F.refst0_provisional 0 0

/-- The start of holdover is noted, with no switch in progress. -/
def holdoverNoted (s : State) : State := { noReference s with rf := { (noReference s).rf with holdAt := some (noReference s).tb.tick, switchAt := none } }

theorem enterHoldover_eq (s : State) : enterHoldover s = raise (setSel (holdoverNoted s) 4) 0x9003 0x14 0 false := rfl

theorem leaves_noReference (s : State) : leaves selectorWords s (noReference s) :=
  (((leaves_holdOsc _ s).put F.refst0_target 0 3 (by decide)).put F.refst0_selected 0 3 (by decide)).put F.refst0_provisional 0 0 (by decide)

theorem leaves.enterHoldover (h : leaves selectorWords s t) : leaves selectorWords s (enterHoldover t) := by
  rw [enterHoldover_eq]
  exact (((h.trans (leaves_noReference t)).withRf).setSel 4).raise ..

theorem leaves.startAcquire (h : leaves selectorWords s t) (r : Nat) (p : Bool) : leaves selectorWords s (startAcquire t r p) := by
  have steers := (h.trans (leaves_closeLoop _ t false)).withRf (x := { (closeLoop t false).rf with lockFrom := none, lockTo := 0 })
  exact ((steers.put F.refst0_selected 0 r (by decide)).put F.refst0_provisional 0 (b2n p) (by decide)).setSel 1

/-- A transition of the selector (R51). -/
theorem leaves_selOnce (s : State) : leaves selectorWords s (selOnce s) := by
  have same := leaves_refl selectorWords s
  unfold selOnce
  split
  case h_1 =>
    split
    · exact same.startAcquire ..
    · split
      · exact same.startAcquire ..
      · exact same
  case h_2 =>
    split
    · exact ((same.put F.refst0_selected 0 3 (by decide)).put F.refst0_provisional 0 0 (by decide)).setSel 0
    · exact same
  case h_3 =>
    dsimp only
    split
    · split
      · exact same.startSwitch _
      · exact same.enterHoldover
    · split
      · split
        · split
          · exact (same.put F.refst0_provisional 0 0 (by decide)).refEvent ..
          · exact same.startSwitch _
        · exact same
      · split
        · exact same.startSwitch _
        · exact same
  case h_4 =>
    split
    · exact same.enterHoldover
    · exact same
  case h_5 =>
    split
    · exact same.startSwitch _
    · exact same

theorem leaves.selReact (h : leaves selectorWords s t) : leaves selectorWords s (selReact t) := by
  unfold Machine.selReact
  split
  · exact h
  · exact ((h.trans (leaves_selOnce t)).trans (leaves_selOnce _)).trans (leaves_selOnce _)

/-- REF_SELECT, if one is pending, is answered ST_OK and pending no longer, or waits on. -/
theorem selReply_cases (s : State) : selReply s = s ∨
    ∃ p, s.rf.sel = some p ∧ selReply s = finish { s with rf := { s.rf with sel := none } } p.cmd 0x20 stOk 0 [] := by
  unfold selReply
  split
  · exact .inl rfl
  · next p pending =>
    refine iteInduction (motive := fun t => t = s ∨ ∃ p, s.rf.sel = some p ∧ t = finish { s with rf := { s.rf with sel := none } } p.cmd 0x20 stOk 0 []) ?_ ?_
    · exact fun _ => .inr ⟨p, pending, rfl⟩
    · exact fun _ => .inl rfl

theorem leaves.selReply (h : leaves selectorWords s t) : leaves selectorWords s (selReply t) := by
  obtain e | ⟨p, -, e⟩ := selReply_cases t
  · rw [e]
    exact h
  · rw [e]
    exact h.withRf.finish ..

/-- The mode that a pending REF_SELECT sets as its own change begins (R57). -/
def withMode (s : State) (p : SelPend) : State :=
  (State.put { s with rf := { s.rf with sel := some { p with started := true } } } F.refsel0_mode 0 p.form).put F.refsel0_forced 0 p.ref

theorem leaves.withMode (h : leaves selectorWords s t) (p : SelPend) : leaves selectorWords s (withMode t p) :=
  (h.withRf.put F.refsel0_mode 0 p.form (by decide)).put F.refsel0_forced 0 p.ref (by decide)

/-- What REF_SELECT does once no switch is in progress. -/
theorem selPerform_eq {p : SelPend} (pending : s.rf.sel = some p) (fresh : p.started = false) (still : s.selState ≠ 3) :
    selPerform s = match p.form with
      | 0 => selReact (withMode s p)
      | 1 =>
        if (withMode s p).selState = 2 && (withMode s p).selected = p.ref then withMode s p
        else if (withMode s p).selState = 0 || (withMode s p).selState = 1 then startAcquire (withMode s p) p.ref false
        else startSwitch (withMode s p) p.ref
      | _ => if (withMode s p).selState = 4 then withMode s p else enterHoldover (withMode s p) := by
  simp only [selPerform, pending, fresh, still, decide_false, Bool.or_self, Bool.false_eq_true, if_false]
  rfl

/-- A REF_SELECT that has begun its change, or that waits for a switch, changes nothing. -/
theorem selPerform_idle (h : ∀ p, s.rf.sel = some p → p.started = true ∨ s.selState = 3) : selPerform s = s := by
  unfold selPerform
  split
  · rfl
  · next p pending => exact if_pos (by simpa using h p pending)

theorem leaves.selPerform (h : leaves selectorWords s t) : leaves selectorWords s (selPerform t) := by
  by_cases idle : ∀ p, t.rf.sel = some p → p.started = true ∨ t.selState = 3
  · rw [selPerform_idle idle]
    exact h
  · push Not at idle
    obtain ⟨p, pending, fresh, still⟩ := idle
    rw [selPerform_eq pending (by simpa using fresh) still]
    have moded := h.withMode p
    split
    · exact moded.selReact
    · split
      · exact moded
      · split
        · exact moded.startAcquire ..
        · exact moded.startSwitch _
    · split
      · exact moded
      · exact moded.enterHoldover

/-- Whatever the selector does, it writes its own words alone. -/
theorem leaves_selSettle (s : State) : leaves selectorWords s (selSettle s) := (leaves_refl _ s).selReact.selPerform.selReply

end

theorem selSettle_tb (s : State) : (selSettle s).tb = s.tb := by
  obtain ⟨tb, -⟩ := leaves_selSettle s
  exact tb

/-- The words of the references, and every other word behind the selector's. -/
theorem selSettle_get (s : State) (f : Field) (j : Nat) (h : wkey 32 0 0 < wkey f.obj f.sel j) : (selSettle s).get f j = s.get f j :=
  (leaves_selSettle s).get f j fun mem => by
    simp only [selectorWords, List.mem_cons, List.not_mem_nil, or_false] at mem
    simp only [wkey] at h mem
    omega

@[simp] theorem selSettle_refState (s : State) (r : Nat) : (selSettle s).refState r = s.refState r :=
  selSettle_get s F.refs_state r (by simp only [wkey, F.refs_state]; omega)

/-! ### A reference -/

/-- The words that a change of a reference's state writes. -/
def stateWords (r : Nat) : List Nat := [wkey 32 2 r, wkey 5 7 0]

/-- A reference in a state with its timers, and the EVENT. -/
def inState (s : State) (r st : Nat) (x : RefX) : State := refEvent ((s.setRefx r x).put F.refs_state r st) r st

theorem setRef_same {s : State} {r st : Nat} (h : s.refState r = st) : setRef s r st = s := if_pos h

/-- A reference that takes another state: beside it, a fault may be on its way. -/
theorem setRef_cases {s : State} {r st : Nat} (h : s.refState r ≠ st) : ∃ x f, setRef s r st = { inState s r st x with flt := f } := by
  unfold setRef
  rw [if_neg h]
  extract_lets _ x u v
  have entered : v = inState s r st x := rfl
  refine ⟨x, ?_⟩
  rw [← entered]
  clear_value v
  have fault := fun n c => raise_frame v n c 0 false
  split
  · split
    · exact fault _ _
    · split
      · exact fault _ _
      · exact ⟨v.flt, rfl⟩
  · exact ⟨v.flt, rfl⟩

theorem leaves_inState (s : State) (r st : Nat) (x : RefX) : leaves (stateWords r) s (inState s r st x) :=
  ((leaves_refl _ s).withRf.put F.refs_state r st (List.mem_cons_self ..)).event _ _ _ _ _ (List.mem_cons_of_mem _ (List.mem_cons_self ..))

theorem leaves_setRef (s : State) (r st : Nat) : leaves (stateWords r) s (setRef s r st) := by
  by_cases same : s.refState r = st
  · rw [setRef_same same]
    exact leaves_refl _ s
  · obtain ⟨x, f, e⟩ := setRef_cases same
    rw [e]
    exact (leaves_inState s r st x).withFlt f

theorem setRef_refx_ne (s : State) {r j : Nat} (st : Nat) (h : j ≠ r) : (setRef s r st).refx j = s.refx j := by
  by_cases same : s.refState r = st
  · rw [setRef_same same]
  · obtain ⟨x, f, e⟩ := setRef_cases same
    have refs : (inState s r st x).rf.refs = mset RefX.init s.rf.refs r x := by
      rw [inState, refEvent, event_rf, State.put_rf]
      rfl
    rw [e, State.refx]
    exact (congrArg (mget RefX.init · j) refs).trans (mget_mset_ne _ _ _ h)

theorem inState_refState (s : State) (r : Nat) {st : Nat} (x : RefX) (h : st < 8) : (inState s r st x).refState r = st := by
  have key : wkey F.refs_state.obj F.refs_state.sel r ∉ [wkey 5 7 0] := by
    simp only [wkey, F.refs_state, List.mem_singleton]
    omega
  have put := State.get_put_self (s.setRefx r x) F.refs_state r st (by decide) (by decide)
  rw [inState, State.refState, refEvent, ((leaves_refl [wkey 5 7 0] _).event _ _ _ _ _ (List.mem_cons_self ..)).get _ _ key, put]
  exact Nat.mod_eq_of_lt h

theorem setRef_refState (s : State) (r : Nat) {st : Nat} (h : st < 8) : (setRef s r st).refState r = st := by
  by_cases same : s.refState r = st
  · rw [setRef_same same, same]
  · obtain ⟨x, f, e⟩ := setRef_cases same
    rw [e]
    exact inState_refState s r x h

theorem setRef_refState_ne (s : State) {r j : Nat} (st : Nat) (h : j ≠ r) : (setRef s r st).refState j = s.refState j :=
  (leaves_setRef s r st).get F.refs_state j (by
    simp only [stateWords, wkey, F.refs_state, List.mem_cons, List.not_mem_nil, or_false]
    omega)

end Sys2Proof.Machine
end


section
/-! PROOF. What a reference's edges, its frequency and the monitor's second make of it, and the words of REF_STATUS (R36, R37, R42 to R48, R68). -/

namespace Sys2Proof.Machine

open Sys2Proof.Claims

/-! ### Edges and frequency -/

@[simp] theorem advanceTo_refState (s : State) (t r : Nat) : (advanceTo s t).refState r = s.refState r := advanceTo_get ..

theorem setRef_tb (s : State) (r st : Nat) : (setRef s r st).tb = s.tb := by
  obtain ⟨tb, -⟩ := leaves_setRef s r st
  exact tb

/-- The control word in force is noted while the loop is closed. -/
def noted (u : State) (word : Int) : State := if u.rf.osc.held.isNone then noteWord u word else u

theorem noted_frame (u : State) (word : Int) : ∃ x, noted u word = { u with rf := { u.rf with osc := x } } := by
  unfold noted
  split
  · exact ⟨_, rfl⟩
  · exact ⟨u.rf.osc, rfl⟩

@[simp] theorem noted_refState (u : State) (word : Int) (r : Nat) : (noted u word).refState r = u.refState r := by
  obtain ⟨x, e⟩ := noted_frame u word
  rw [e]
  rfl

@[simp] theorem noted_refx (u : State) (word : Int) (r : Nat) : (noted u word).refx r = u.refx r := by
  obtain ⟨x, e⟩ := noted_frame u word
  rw [e]
  rfl

@[simp] theorem noted_freqLimit (u : State) (word : Int) : (noted u word).freqLimit = u.freqLimit := by
  obtain ⟨x, e⟩ := noted_frame u word
  rw [e]
  rfl

/-- A reference enters the first state after ABSENT or OFF_FREQ. -/
def begins (s : State) (ref : Nat) : State := selSettle (setRef s ref (firstState ref))

/-- What a measured deviation makes of a reference that exists (R37, R46). -/
def frequencyRes (ref : Nat) (dev : Int) (s : State) : Res :=
  if dev.natAbs > s.freqLimit then
    if s.refState ref = 0 then .next s
    else .next (selSettle ((setRef s ref 1).setRefx ref { (setRef s ref 1).refx ref with okRun := 0 }))
  else
    match s.refState ref with
    | 0 => .next (begins s ref)
    | 1 =>
      if 100 ≤ (s.refx ref).okRun + 1 then .next (begins s ref)
      else .next (s.setRefx ref { s.refx ref with okRun := (s.refx ref).okRun + 1 })
    | _ => .next s

theorem exec_refFreqMeasure {ref : Nat} {s : State} (h : ref < 3) (here : ref = 2 → s.refcExists = true) (dev word : Int) (t : Nat) :
    exec (.refFreqMeasure ref dev word t) s = frequencyRes ref dev (noted (advanceTo s t) word) := by
  have measured : ¬((decide (3 ≤ ref) || (decide (ref = 2) && !s.refcExists)) = true) := by
    by_cases hc : ref = 2
    · simp [hc, here hc]
    · simp [hc, h]
  exact if_neg measured

section
variable {ref : Nat} {dev : Int} {s : State}

theorem frequencyRes_out_absent (out : s.freqLimit < dev.natAbs) (absent : s.refState ref = 0) : frequencyRes ref dev s = .next s := by
  rw [frequencyRes, if_pos out, if_pos absent]

theorem frequencyRes_out (out : s.freqLimit < dev.natAbs) (present : s.refState ref ≠ 0) : frequencyRes ref dev s =
    .next (selSettle ((setRef s ref 1).setRefx ref { (setRef s ref 1).refx ref with okRun := 0 })) := by
  rw [frequencyRes, if_pos out, if_neg present]

theorem frequencyRes_absent (within : ¬s.freqLimit < dev.natAbs) (absent : s.refState ref = 0) : frequencyRes ref dev s = .next (begins s ref) := by
  rw [frequencyRes, if_neg within]
  simp only [absent]

theorem frequencyRes_done (within : ¬s.freqLimit < dev.natAbs) (off : s.refState ref = 1) (done : 99 ≤ (s.refx ref).okRun) :
    frequencyRes ref dev s = .next (begins s ref) := by
  rw [frequencyRes, if_neg within]
  simp only [off]
  exact if_pos (by omega)

theorem frequencyRes_counts (within : ¬s.freqLimit < dev.natAbs) (off : s.refState ref = 1) (few : (s.refx ref).okRun < 99) :
    frequencyRes ref dev s = .next (s.setRefx ref { s.refx ref with okRun := (s.refx ref).okRun + 1 }) := by
  rw [frequencyRes, if_neg within]
  simp only [off]
  exact if_neg (by omega)

theorem frequencyRes_on (within : ¬s.freqLimit < dev.natAbs) (on : 2 ≤ s.refState ref) : frequencyRes ref dev s = .next s := by
  rw [frequencyRes, if_neg within]
  split
  · omega
  · omega
  · rfl

end

theorem firstState_lt (r : Nat) : firstState r < 8 := by
  unfold firstState
  split <;> decide

/-- A change of a reference's timers is no change of a state. -/
theorem setRefx_refState (s : State) (r j : Nat) (x : RefX) : (s.setRefx r x).refState j = s.refState j := rfl

theorem begins_refState (s : State) (ref : Nat) : (begins s ref).refState ref = if ref = 0 then 2 else 3 := by
  rw [begins, selSettle_refState, setRef_refState _ _ (firstState_lt ref), firstState]

theorem begins_refState_ne (s : State) {ref r : Nat} (h : r ≠ ref) : (begins s ref).refState r = s.refState r := by
  rw [begins, selSettle_refState, setRef_refState_ne _ _ h]

@[simp] theorem refx_setRefx (s : State) (r : Nat) (x : RefX) : (s.setRefx r x).refx r = x := mget_mset_self ..

/-- What a measured deviation does to the states (R37, R46). -/
theorem frequencyRes_states (ref : Nat) (dev : Int) (n : State) :
    ∃ v, frequencyRes ref dev n = .next v ∧ (∀ r, r ≠ ref → v.refState r = n.refState r) ∧
      (n.freqLimit < dev.natAbs → v.refState ref = (if n.refState ref = 0 then 0 else 1)) ∧
      (dev.natAbs ≤ n.freqLimit →
        (n.refState ref = 0 → v.refState ref = (if ref = 0 then 2 else 3)) ∧
        (n.refState ref = 1 → 99 ≤ (n.refx ref).okRun → v.refState ref = (if ref = 0 then 2 else 3)) ∧
        (n.refState ref = 1 → (n.refx ref).okRun < 99 →
          v.refState ref = 1 ∧ (v.refx ref).okRun = (n.refx ref).okRun + 1 ∧ v = { n with rf := v.rf }) ∧
        (2 ≤ n.refState ref → v = n)) := by
  by_cases out : n.freqLimit < dev.natAbs
  · have beyond : ¬dev.natAbs ≤ n.freqLimit := by omega
    by_cases absent : n.refState ref = 0
    · exact ⟨n, frequencyRes_out_absent out absent, fun _ _ => rfl, fun _ => by rw [absent, if_pos rfl], fun h => absurd h beyond⟩
    · refine ⟨_, frequencyRes_out out absent, fun r hr => ?_, fun _ => ?_, fun h => absurd h beyond⟩
      · rw [selSettle_refState, setRefx_refState, setRef_refState_ne _ _ hr]
      · rw [selSettle_refState, setRefx_refState, setRef_refState _ _ (by decide), if_neg absent]
  · obtain absent | off | on : n.refState ref = 0 ∨ n.refState ref = 1 ∨ 2 ≤ n.refState ref := by omega
    · refine ⟨_, frequencyRes_absent out absent, fun r hr => begins_refState_ne n hr, fun h => absurd h out, fun _ => ⟨fun _ => begins_refState n ref, ?_, ?_, ?_⟩⟩ <;>
        · intro other
          omega
    · by_cases few : (n.refx ref).okRun < 99
      · refine ⟨_, frequencyRes_counts out off few, fun _ _ => rfl, fun h => absurd h out,
          fun _ => ⟨fun _ => by omega, fun _ _ => by omega, fun _ _ => ⟨off, ?_, rfl⟩, fun _ => by omega⟩⟩
        rw [refx_setRefx]
      · exact ⟨_, frequencyRes_done out off (by omega), fun r hr => begins_refState_ne n hr, fun h => absurd h out,
          fun _ => ⟨fun _ => begins_refState n ref, fun _ _ => begins_refState n ref, fun _ h => absurd h few, fun _ => by omega⟩⟩
    · exact ⟨n, frequencyRes_on out on, fun _ _ => rfl, fun h => absurd h out, fun _ => ⟨fun _ => by omega, fun _ => by omega, fun _ => by omega, fun _ => rfl⟩⟩

end Sys2Proof.Machine
end


section
/-! PROOF. The reference monitor's second (R42 to R48). -/

namespace Sys2Proof.Machine

open Sys2Proof.Claims

/-! ### What is shown of a reference -/

/-- A reference's deviation from the median of the other voters. -/
def deviation (vs : Voters) (r : Nat) (y : Option Int) : Option Int :=
  match y, median (others vs r) with
  | some v, some w => some (v - w)
  | _, _ => none

/-- A measured reference is a voter that departs (R48). -/
def isAway (s : State) (vs : Voters) (r : Nat) (y : Option Int) : Bool :=
  match y with
  | some v => (vs.any fun e => e.1 = r) && departs vs (s.get F.refsel1_drift_limit 0 * 10) r v
  | none => false

/-- What the monitor shows of a reference in a second: its y, its deviation, and the seconds of its departure. -/
def monitorShown (s : State) (r : Nat) (y d : Option Int) (away : Bool) : State :=
  let s := (s.put F.refy_y_tb r (yField y)).put F.refy_y_dev r (yField d)
  let s := { s with rf := { s.rf with devs := match d with
    | some v => mset 0 s.rf.devs r v
    | none => s.rf.devs } }
  s.put F.refs_depart_s r (if away then satAdd 16 (s.get F.refs_depart_s r) 1 else 0)

/-- The words that a second of the monitor writes for a reference. -/
def monitorWords (r : Nat) : List Nat := [wkey 32 1 r, wkey 32 2 r, wkey 5 7 0]

theorem leaves_monitorShown (s : State) (r : Nat) (y d : Option Int) (away : Bool) : leaves (monitorWords r) s (monitorShown s r y d away) := by
  have words := ((leaves_refl (monitorWords r) s).put F.refy_y_tb r (yField y) (by simp [monitorWords, F.refy_y_tb])).put F.refy_y_dev r (yField d)
    (by simp [monitorWords, F.refy_y_dev])
  exact words.withRf.put F.refs_depart_s r _ (by simp [monitorWords, F.refs_depart_s])

theorem monitorShown_refx (s : State) (r : Nat) (y d : Option Int) (away : Bool) (j : Nat) : (monitorShown s r y d away).refx j = s.refx j := rfl

/-- A field of a reference's second word, beside the seconds of departure. -/
theorem monitorShown_get (s : State) {r : Nat} (hr : r < 3) (y d : Option Int) (away : Bool) (f : Field) {j : Nat} (hj : j < 3)
    (hf : f.obj = 32 ∧ f.sel = 2 ∧ f.lo ≤ f.hi ∧ f.hi < 32) : (monitorShown s r y d away).get f j = s.get f j := by
  obtain ⟨obj, sel, order, low⟩ := hf
  have other : wkey f.obj f.sel j ≠ wkey 32 1 r := by
    simp only [wkey, obj, sel]
    omega
  unfold monitorShown
  dsimp only
  rw [State.get_put_disjoint _ F.refs_depart_s f r j _ (by decide) ⟨order, by omega⟩ (.inr low)]
  exact (State.get_put_ne _ F.refy_y_dev f r j _ other).trans (State.get_put_ne _ F.refy_y_tb f r j _ other)

theorem monitorShown_refState (s : State) {r : Nat} (hr : r < 3) (y d : Option Int) (away : Bool) {j : Nat} (hj : j < 3) :
    (monitorShown s r y d away).refState j = s.refState j :=
  monitorShown_get s hr y d away F.refs_state hj (by decide)

theorem yField_lt (y : Option Int) : yField y < 2 ^ 32 := by
  unfold yField
  split
  · decide
  · simp only [ofSigned]
    omega

theorem monitorShown_y (s : State) (r : Nat) (y d : Option Int) (away : Bool) : (monitorShown s r y d away).get F.refy_y_tb r = yField y := by
  have other : wkey F.refy_y_tb.obj F.refy_y_tb.sel r ≠ wkey F.refs_depart_s.obj F.refs_depart_s.sel r := by
    simp only [wkey, F.refy_y_tb, F.refs_depart_s]
    omega
  unfold monitorShown
  dsimp only
  rw [State.get_put_ne _ F.refs_depart_s _ _ _ _ other]
  refine (State.get_put_apart (s.put F.refy_y_tb r (yField y)) F.refy_y_dev F.refy_y_tb r _ rfl rfl (by decide) (by decide) (by decide) (by decide) (by decide)).trans ?_
  rw [State.get_put_self _ _ _ _ (by decide) (by decide)]
  exact Nat.mod_eq_of_lt (yField_lt y)

/-! ### What is made of it -/

/-- What becomes of a reference: `s` is the state before the second, `w` the one that shows it. -/
def monitorJudged (s w : State) (vs : Voters) (r : Nat) (d : Option Int) (away measured : Bool) : State :=
  let x := s.refx r
  let persist := s.get F.refsel1_persist 0
  match w.refState r with
  | 2 =>
    let settled := !measured || (others vs r).isEmpty ||
      (match d with
       | some v => decide (v.natAbs ≤ w.get F.refsel1_warm_limit 0 * 10)
       | none => false)
    let n := if (w.flag F.refs_warm_pin 0 || !w.flag F.refsel0_warm_pin_en 0) && settled then x.warmRun + 1 else 0
    if w.get F.refsel1_warm_persist 0 ≤ n then setRef w r 3 else w.setRefx r { x with warmRun := n }
  | 3 =>
    let gone := if away then x.okRun + 1 else 0
    let n := if away then 0 else x.qualRun + 1
    if persist ≤ gone then setRef w r 5
    else if w.get F.refsel1_qual_s 0 ≤ n then setRef w r 4
    else w.setRefx r { x with qualRun := n, okRun := gone }
  | 4 =>
    let gone := if away then x.okRun + 1 else 0
    if persist ≤ gone then setRef w r 5 else w.setRefx r { x with okRun := gone }
  | 5 =>
    let n := if away then 0 else x.clearRun + 1
    if persist ≤ n then setRef w r 3 else w.setRefx r { x with clearRun := n }
  | _ => w

theorem monitorRef_eq (s : State) (vs : Voters) (r : Nat) (y : Option Int) (dis measured : Bool) : monitorRef s vs r y dis measured =
    monitorJudged s (monitorShown s r y (deviation vs r y) (isAway s vs r y || dis)) vs r (deviation vs r y) (isAway s vs r y) measured := rfl

/-- Of `w`, a reference takes a state in `t`, or its timers change, or nothing does. -/
def turned (w : State) (r : Nat) (t : State) : Prop := (∃ st, t = setRef w r st) ∨ (∃ x, t = w.setRefx r x) ∨ t = w

theorem turned_setRefx (w : State) (r : Nat) (x : RefX) : turned w r (w.setRefx r x) := .inr (.inl ⟨x, rfl⟩)

theorem turned_ite {w t : State} {r : Nat} (h : turned w r t) (p : Prop) [Decidable p] (st : Nat) : turned w r (if p then setRef w r st else t) :=
  iteInduction (fun _ => .inl ⟨st, rfl⟩) (fun _ => h)

theorem monitorJudged_cases (s w : State) (vs : Voters) (r : Nat) (d : Option Int) (away measured : Bool) :
    turned w r (monitorJudged s w vs r d away measured) := by
  unfold monitorJudged
  dsimp only
  generalize w.refState r = n
  match n with
  | 2 => exact turned_ite (turned_setRefx ..) ..
  | 3 => exact turned_ite (turned_ite (turned_setRefx ..) ..) ..
  | 4 => exact turned_ite (turned_setRefx ..) ..
  | 5 => exact turned_ite (turned_setRefx ..) ..
  | 0 | 1 | n + 6 => exact .inr (.inr rfl)

section
variable {s w : State} {vs : Voters} {r : Nat} {d : Option Int} {away measured : Bool}

theorem monitorJudged_qualify (h : w.refState r = 3) : monitorJudged s w vs r d away measured =
    if s.get F.refsel1_persist 0 ≤ (if away then (s.refx r).okRun + 1 else 0) then setRef w r 5
    else if w.get F.refsel1_qual_s 0 ≤ (if away then 0 else (s.refx r).qualRun + 1) then setRef w r 4
    else w.setRefx r { s.refx r with qualRun := if away then 0 else (s.refx r).qualRun + 1, okRun := if away then (s.refx r).okRun + 1 else 0 } := by
  unfold monitorJudged
  simp only [h]

theorem monitorJudged_good (h : w.refState r = 4) : monitorJudged s w vs r d away measured =
    if s.get F.refsel1_persist 0 ≤ (if away then (s.refx r).okRun + 1 else 0) then setRef w r 5
    else w.setRefx r { s.refx r with okRun := if away then (s.refx r).okRun + 1 else 0 } := by
  unfold monitorJudged
  simp only [h]

theorem monitorJudged_drifting (h : w.refState r = 5) : monitorJudged s w vs r d away measured =
    if s.get F.refsel1_persist 0 ≤ (if away then 0 else (s.refx r).clearRun + 1) then setRef w r 3
    else w.setRefx r { s.refx r with clearRun := if away then 0 else (s.refx r).clearRun + 1 } := by
  unfold monitorJudged
  simp only [h]

end

theorem leaves_monitorRef (s : State) (vs : Voters) (r : Nat) (y : Option Int) (dis measured : Bool) :
    leaves (monitorWords r) s (monitorRef s vs r y dis measured) := by
  rw [monitorRef_eq]
  have shown := leaves_monitorShown s r y (deviation vs r y) (isAway s vs r y || dis)
  generalize monitorShown s r y (deviation vs r y) (isAway s vs r y || dis) = w at shown ⊢
  obtain ⟨st, e⟩ | ⟨x, e⟩ | e := monitorJudged_cases s w vs r (deviation vs r y) (isAway s vs r y) measured
  · rw [e]
    exact shown.trans ((leaves_setRef w r st).mono (by simp [stateWords, monitorWords]))
  · rw [e]
    exact shown.withRf
  · rw [e]
    exact shown

theorem monitorRef_refx_ne (s : State) (vs : Voters) {r j : Nat} (y : Option Int) (dis measured : Bool) (h : j ≠ r) :
    (monitorRef s vs r y dis measured).refx j = s.refx j := by
  rw [monitorRef_eq]
  obtain ⟨st, e⟩ | ⟨x, e⟩ | e := monitorJudged_cases s (monitorShown s r y (deviation vs r y) (isAway s vs r y || dis)) vs r (deviation vs r y) (isAway s vs r y) measured
  · rw [e, setRef_refx_ne _ _ h, monitorShown_refx]
  · rw [e, ← monitorShown_refx s r y (deviation vs r y) (isAway s vs r y || dis) j]
    exact mget_mset_ne _ _ _ h
  · rw [e, monitorShown_refx]

/-- A change of a reference's state writes the state alone in the reference's words. -/
theorem setRef_get (s : State) {r : Nat} (st : Nat) (f : Field) {j : Nat} (hf : f.lo ≤ f.hi ∧ f.hi < 64 ∧ 2 < f.lo) (hj : wkey f.obj f.sel j ≠ wkey 5 7 0) :
    (setRef s r st).get f j = s.get f j := by
  obtain ⟨order, width, high⟩ := hf
  by_cases same : s.refState r = st
  · rw [setRef_same same]
  · obtain ⟨x, t, e⟩ := setRef_cases same
    have sent := ((leaves_refl [wkey 5 7 0] ((s.setRefx r x).put F.refs_state r st)).event 1 st stOk r [State.selWord ((s.setRefx r x).put F.refs_state r st)]
      (List.mem_singleton_self _)).get f j (by simpa using hj)
    rw [e]
    exact sent.trans (State.get_put_disjoint _ F.refs_state f r j st (by decide) ⟨order, width⟩ (.inl high))

/-- A second of the monitor leaves the warm pin. -/
theorem monitorRef_warmPin (s : State) (vs : Voters) {r : Nat} (hr : r < 3) (y : Option Int) (dis measured : Bool) :
    (monitorRef s vs r y dis measured).get F.refs_warm_pin 0 = s.get F.refs_warm_pin 0 := by
  rw [monitorRef_eq]
  have shown := monitorShown_get s hr y (deviation vs r y) (isAway s vs r y || dis) F.refs_warm_pin (j := 0) (by decide) (by decide)
  generalize monitorShown s r y (deviation vs r y) (isAway s vs r y || dis) = w at shown ⊢
  obtain ⟨st, e⟩ | ⟨x, e⟩ | e := monitorJudged_cases s w vs r (deviation vs r y) (isAway s vs r y) measured
  · rw [e, setRef_get _ _ _ (by decide) (by decide), shown]
  · rw [e, ← shown]
    rfl
  · rw [e, shown]

/-- The y that a second of the monitor shows. -/
theorem monitorRef_y (s : State) (vs : Voters) (r : Nat) (y : Option Int) (dis measured : Bool) :
    (monitorRef s vs r y dis measured).get F.refy_y_tb r = yField y := by
  rw [monitorRef_eq]
  have shown := monitorShown_y s r y (deviation vs r y) (isAway s vs r y || dis)
  generalize monitorShown s r y (deviation vs r y) (isAway s vs r y || dis) = w at shown ⊢
  obtain ⟨st, e⟩ | ⟨x, e⟩ | e := monitorJudged_cases s w vs r (deviation vs r y) (isAway s vs r y) measured
  · rw [e, setRef_get _ _ _ (by decide) (by simp only [wkey, F.refy_y_tb]; omega), shown]
  · rw [e, ← shown]
    rfl
  · rw [e, shown]

/-- What a second of the monitor makes of a voter's state (R46, R48). -/
theorem monitorRef_states (s : State) (vs : Voters) {r : Nat} (hr : r < 3) (y : Option Int) (dis measured : Bool) :
    (isAway s vs r y = true → s.refState r = 3 ∨ s.refState r = 4 → s.get F.refsel1_persist 0 ≤ (s.refx r).okRun + 1 → (monitorRef s vs r y dis measured).refState r = 5) ∧
      (isAway s vs r y = false → s.refState r = 5 → s.get F.refsel1_persist 0 ≤ (s.refx r).clearRun + 1 → (monitorRef s vs r y dis measured).refState r = 3) ∧
      (isAway s vs r y = false → s.refState r = 3 → 0 < s.get F.refsel1_persist 0 → s.get F.refsel1_qual_s 0 ≤ (s.refx r).qualRun + 1 →
        (monitorRef s vs r y dis measured).refState r = 4) ∧
      (isAway s vs r y = false → s.refState r = 4 → 0 < s.get F.refsel1_persist 0 → (monitorRef s vs r y dis measured).refState r = 4) := by
  have state := monitorShown_refState s hr y (deviation vs r y) (isAway s vs r y || dis) hr
  have qual := (leaves_monitorShown s r y (deviation vs r y) (isAway s vs r y || dis)).get F.refsel1_qual_s 0 (by
    simp only [monitorWords, wkey, F.refsel1_qual_s, List.mem_cons, List.not_mem_nil, or_false]
    omega)
  rw [monitorRef_eq]
  generalize monitorShown s r y (deviation vs r y) (isAway s vs r y || dis) = w at state qual ⊢
  refine ⟨fun away voter long => ?_, fun near drifting long => ?_, fun near qualify some long => ?_, fun near good some => ?_⟩
  · rw [away]
    obtain qualify | good := voter
    · rw [monitorJudged_qualify (state.trans qualify), if_pos rfl, if_pos long]
      exact setRef_refState w r (by decide)
    · rw [monitorJudged_good (state.trans good), if_pos rfl, if_pos long]
      exact setRef_refState w r (by decide)
  · rw [near, monitorJudged_drifting (state.trans drifting), if_neg Bool.false_ne_true, if_pos long]
    exact setRef_refState w r (by decide)
  · rw [near, monitorJudged_qualify (state.trans qualify), if_neg Bool.false_ne_true, if_neg (by omega), if_neg Bool.false_ne_true, if_pos (by omega)]
    exact setRef_refState w r (by decide)
  · rw [near, monitorJudged_good (state.trans good), if_neg Bool.false_ne_true, if_neg (by omega)]
    exact (setRefx_refState ..).trans (state.trans good)

/-! ### The three references -/

/-- A second of the monitor for the three references in turn. -/
def monitorAll (s : State) (vs : Voters) (y : Nat → Option Int) (dis : Nat → Bool) (measured : Bool) : State :=
  monitorRef (monitorRef (monitorRef s vs 0 (y 0) (dis 0) measured) vs 1 (y 1) (dis 1) measured) vs 2 (y 2) (dis 2) measured

/-- The words that the monitor's second writes for references other than `r`. -/
def otherWords (r : Nat) : List Nat := ([0, 1, 2].filter (· ≠ r)).flatMap monitorWords

/-- As a reference's turn comes, the references before it have changed nothing of its own, and those after it change nothing of it either. -/
theorem monitorAll_turn (s : State) (vs : Voters) (y : Nat → Option Int) (dis : Nat → Bool) (measured : Bool) {r : Nat} (hr : r < 3) :
    ∃ c, leaves (otherWords r) s c ∧ c.refx r = s.refx r ∧ leaves (otherWords r) (monitorRef c vs r (y r) (dis r) measured) (monitorAll s vs y dis measured) := by
  have step := fun u j => leaves_monitorRef u vs j (y j) (dis j) measured
  have timers := fun u {j} (h : r ≠ j) => monitorRef_refx_ne u vs (y j) (dis j) measured h
  match r with
  | 0 =>
    refine ⟨s, leaves_refl _ s, rfl, ?_⟩
    exact ((step _ 1).mono (by decide)).trans ((step _ 2).mono (by decide))
  | 1 => exact ⟨_, (step s 0).mono (by decide), timers s (by decide), (step _ 2).mono (by decide)⟩
  | 2 =>
    refine ⟨_, ((step s 0).mono (by decide)).trans ((step _ 1).mono (by decide)), ?_, leaves_refl _ _⟩
    exact (timers _ (by decide)).trans (timers s (by decide))

/-- Of the warm pin nothing changes. -/
theorem monitorAll_warmPin (s : State) (vs : Voters) (y : Nat → Option Int) (dis : Nat → Bool) (measured : Bool) :
    (monitorAll s vs y dis measured).get F.refs_warm_pin 0 = s.get F.refs_warm_pin 0 := by
  simp only [monitorAll, monitorRef_warmPin _ _ (show (0 : Nat) < 3 by decide), monitorRef_warmPin _ _ (show (1 : Nat) < 3 by decide),
    monitorRef_warmPin _ _ (show (2 : Nat) < 3 by decide)]

theorem otherWords_lt (r : Nat) {f : Field} {j : Nat} (h : wkey f.obj f.sel j < wkey 32 0 0) (h0 : wkey f.obj f.sel j ≠ wkey 5 7 0) :
    wkey f.obj f.sel j ∉ otherWords r := by
  simp only [otherWords, monitorWords, List.mem_flatMap, List.mem_cons, List.not_mem_nil, or_false, not_exists, not_and]
  rintro q - (e | e | e)
  · simp only [wkey] at e h
    omega
  · simp only [wkey] at e h
    omega
  · exact h0 e

/-- A reference's own words. -/
theorem otherWords_own {r : Nat} (hr : r < 3) {e : Nat} (he : e = 1 ∨ e = 2) : wkey 32 e r ∉ otherWords r := by
  obtain rfl | rfl := he <;>
    · simp only [otherWords, monitorWords, List.mem_flatMap, List.mem_filter, List.mem_cons, List.not_mem_nil, or_false, not_exists, not_and, wkey, decide_eq_true_eq]
      rintro q ⟨low, other⟩ same
      omega

/-! ### The second -/

theorem leaves_ambiguity (s : State) (vs : Voters) (drifted : List Nat) : leaves selectorWords s (ambiguity s vs drifted) := by
  unfold ambiguity
  extract_lets limit persist runs any calm dep found left verdict _ u
  have same : leaves selectorWords s u := (leaves_refl selectorWords s).withRf
  clear_value u
  split
  · split
    · exact ((same.put F.refst0_ambiguous 0 1 (by decide)).event _ _ _ _ _ (by decide)).raise ..
    · exact same
  · split
    · exact ((same.withRf (x := { u.rf with ambig := [] })).put F.refst0_ambiguous 0 0 (by decide)).event _ _ _ _ _ (by decide)
    · exact same

/-- The stamps of the monitored inputs are measured (R41, R443). -/
def measuring (s : State) : Bool := s.flag F.refsel0_xmeas_en 0 && s.domOn 27

/-- What the sums of a second give for each monitored input. -/
def secondY (s : State) (r : Nat) : Option Int := if measuring s then yOf (mget RegSum.init s.rf.sums r) else none

/-- The sums begin anew, and the holdover oscillator's y is kept. -/
def sumsTaken (s : State) : State := { s with rf := { s.rf with sums := [], holdY := secondY s 3 } }

/-- The ensemble is a voter (R43). -/
def ensembleVotes (s : State) : Bool :=
  s.flag F.refsel0_ens_en 0 && decide (s.get F.refsel1_ens_min 0 ≤ s.rateTerms.length) && !s.rateTerms.isEmpty &&
    decide (middleSpan s.rateTerms ≤ s.get F.refsel1_drift_limit 0 * 10)

/-- The ensemble's words. -/
def ensembleShown (s : State) : State :=
  (((s.put F.refpps_ens_lanes 0 (min 1023 s.rateTerms.length)).put F.refpps_ens_voter 0 (b2n (ensembleVotes s))).put F.refens_y_ens 0
    (yField (median s.rateTerms))).put F.refens_ens_spread 0 (min (2 ^ 32 - 1) (middleSpan s.rateTerms))

/-- The voters by the references' states, their y and the ensemble's (R44). -/
def votersOf (s : State) (y : Nat → Option Int) (ens : Bool) (yE : Option Int) : Voters :=
  ([0, 1, 2].filterMap fun r =>
    match y r with
    | some v => if s.refState r = 3 || s.refState r = 4 || s.refState r = 5 then some (r, v) else none
    | none => none) ++ (match ens, yE with
    | true, some v => [(3, v)]
    | _, _ => [])

/-- A pair of voters with a reference in it differs. -/
def disagrees (s : State) (vs : Voters) (r : Nat) : Bool :=
  voterPairs.any fun p => (p.2.1 = r || p.2.2 = r) && differ vs (s.get F.refsel1_drift_limit 0 * 10) p.2.1 p.2.2

/-- The state as the second of the monitor begins: the warm pin, the sums taken and the ensemble shown. -/
def secondBegun (warm : Bool) (u : State) : State := ensembleShown (sumsTaken (u.put F.refs_warm_pin 0 (b2n warm)))

/-- What the voters make of the references, and the selector of that. -/
def secondJudged (s : State) (vs : Voters) (y : Nat → Option Int) (measured : Bool) : State :=
  selSettle (ambiguity (monitorAll s vs y (disagrees s vs) measured) vs
    (([0, 1, 2].filter fun r => s.refState r != 5).filter fun r => (monitorAll s vs y (disagrees s vs) measured).refState r = 5))

theorem exec_refMonitorSecond (warm : Bool) (t : Nat) (s : State) : exec (.refMonitorSecond warm t) s =
    .next (secondJudged (secondBegun warm (advanceTo s t))
      (votersOf (secondBegun warm (advanceTo s t)) (secondY ((advanceTo s t).put F.refs_warm_pin 0 (b2n warm)))
        (ensembleVotes (sumsTaken ((advanceTo s t).put F.refs_warm_pin 0 (b2n warm)))) (median (sumsTaken ((advanceTo s t).put F.refs_warm_pin 0 (b2n warm))).rateTerms))
      (secondY ((advanceTo s t).put F.refs_warm_pin 0 (b2n warm))) (measuring ((advanceTo s t).put F.refs_warm_pin 0 (b2n warm)))) := rfl

end Sys2Proof.Machine
end


section
/-! PROOF. What the reference monitor's second leaves (R42 to R48). -/

namespace Sys2Proof.Machine

open Sys2Proof.Claims

/-! ### As the second begins -/

section
variable (warm : Bool) (u : State)

/-- A field of another word, or beside bit 6. -/
theorem warmed_get (v : Nat) (f : Field) (j : Nat) (hf : f.lo ≤ f.hi ∧ f.hi < 64) (h : (f.hi < 6 ∨ 6 < f.lo) ∨ wkey f.obj f.sel j ≠ wkey 32 2 0) :
    (u.put F.refs_warm_pin 0 v).get f j = u.get f j := by
  obtain beside | other := h
  · exact State.get_put_disjoint u F.refs_warm_pin f 0 j v (by decide) hf beside.symm
  · exact State.get_put_ne u F.refs_warm_pin f 0 j v other

theorem warmed_rateTerms (v : Nat) : (u.put F.refs_warm_pin 0 v).rateTerms = u.rateTerms := by
  simp only [State.rateTerms, State.put_models, warmed_get u v F.ltsb_mstate _ (by decide) (.inl (by decide)), warmed_get u v F.ltsb_rate _ (by decide) (.inl (by decide))]

theorem warmed_measuring (v : Nat) : measuring (u.put F.refs_warm_pin 0 v) = measuring u := by
  simp only [measuring, State.flag, State.domOn, warmed_get u v F.refsel0_xmeas_en 0 (by decide) (.inr (by decide)),
    warmed_get u v F.pws_pstate 27 (by decide) (.inr (by decide))]

theorem warmed_secondY (v : Nat) : secondY (u.put F.refs_warm_pin 0 v) = secondY u := by
  funext r
  rw [secondY, warmed_measuring, State.put_rf, secondY]

theorem sumsTaken_get (f : Field) (j : Nat) : (sumsTaken u).get f j = u.get f j := rfl

theorem sumsTaken_rateTerms : (sumsTaken u).rateTerms = u.rateTerms := rfl

theorem warmed_ensembleVotes (v : Nat) : ensembleVotes (sumsTaken (u.put F.refs_warm_pin 0 v)) = ensembleVotes u := by
  simp only [ensembleVotes, sumsTaken_rateTerms, warmed_rateTerms, State.flag, sumsTaken_get, warmed_get u v F.refsel0_ens_en 0 (by decide) (.inr (by decide)),
    warmed_get u v F.refsel1_ens_min 0 (by decide) (.inr (by decide)), warmed_get u v F.refsel1_drift_limit 0 (by decide) (.inr (by decide))]

theorem leaves_ensembleShown (s : State) : leaves [wkey 32 7 0, wkey 32 8 0] s (ensembleShown s) := by
  have lanes := (leaves_refl [wkey 32 7 0, wkey 32 8 0] s).put F.refpps_ens_lanes 0 (min 1023 s.rateTerms.length) (List.mem_cons_self ..)
  have voter := lanes.put F.refpps_ens_voter 0 (b2n (ensembleVotes s)) (List.mem_cons_self ..)
  have median := voter.put F.refens_y_ens 0 (yField (median s.rateTerms)) (List.mem_cons_of_mem _ (List.mem_cons_self ..))
  exact median.put F.refens_ens_spread 0 (min (2 ^ 32 - 1) (middleSpan s.rateTerms)) (List.mem_cons_of_mem _ (List.mem_cons_self ..))

theorem secondBegun_get (f : Field) (j : Nat) (hf : f.lo ≤ f.hi ∧ f.hi < 64) (h : (f.hi < 6 ∨ 6 < f.lo) ∨ wkey f.obj f.sel j ≠ wkey 32 2 0)
    (hk : wkey f.obj f.sel j ∉ [wkey 32 7 0, wkey 32 8 0]) : (secondBegun warm u).get f j = u.get f j :=
  ((leaves_ensembleShown _).get f j hk).trans ((sumsTaken_get _ f j).trans (warmed_get u _ f j hf h))

theorem ensembleShown_rf (s : State) : (ensembleShown s).rf = s.rf := by
  simp only [ensembleShown, State.put_rf]

theorem secondBegun_rf : (secondBegun warm u).rf = { u.rf with sums := [], holdY := secondY (u.put F.refs_warm_pin 0 (b2n warm)) 3 } := by
  rw [secondBegun, ensembleShown_rf]
  rfl

theorem secondBegun_refState {r : Nat} (hr : r < 3) : (secondBegun warm u).refState r = u.refState r :=
  secondBegun_get warm u F.refs_state r (by decide) (.inl (by decide)) (by
    simp only [wkey, F.refs_state, List.mem_cons, List.not_mem_nil, or_false]
    omega)

theorem secondBegun_refx (r : Nat) : (secondBegun warm u).refx r = u.refx r := by
  rw [State.refx, secondBegun_rf]
  rfl

theorem secondBegun_sums : (secondBegun warm u).rf.sums = [] := by
  rw [secondBegun_rf]

theorem secondBegun_warmPin : (secondBegun warm u).flag F.refs_warm_pin 0 = warm := by
  rw [State.flag, secondBegun, (leaves_ensembleShown _).get F.refs_warm_pin 0 (by decide), sumsTaken_get, State.get_put_self _ _ _ _ (by decide) (by decide)]
  cases warm <;> rfl

/-- The voters of the second. -/
theorem votersOf_secondBegun : votersOf (secondBegun warm u) (secondY u) (ensembleVotes u) (median u.rateTerms) = secondVoters u := by
  have refs : ([0, 1, 2].filterMap fun r =>
      match secondY u r with
      | some v => if (secondBegun warm u).refState r = 3 || (secondBegun warm u).refState r = 4 || (secondBegun warm u).refState r = 5 then some (r, v) else none
      | none => none) = [0, 1, 2].filterMap fun r => (secondY u r).bind fun v => if u.refState r = 3 ∨ u.refState r = 4 ∨ u.refState r = 5 then some (r, v) else none := by
    refine List.filterMap_congr fun r mem => ?_
    have hr : r < 3 := by
      simp only [List.mem_cons, List.not_mem_nil, or_false] at mem
      omega
    rw [secondBegun_refState warm u hr]
    cases secondY u r with
    | none => rfl
    | some v => simp [or_assoc]
  have ens : (match ensembleVotes u, median u.rateTerms with
      | true, some v => [((3 : Nat), v)]
      | _, _ => []) = if ensembleVotes u then (median u.rateTerms).toList.map fun v => (3, v) else [] := by
    cases ensembleVotes u <;> cases median u.rateTerms <;> rfl
  exact congrArg₂ (· ++ ·) refs ens

end

/-- The monitor's second (R42 to R48). -/
theorem exec_refMonitorSecond_eq (warm : Bool) (t : Nat) (s : State) : exec (.refMonitorSecond warm t) s =
    .next (secondJudged (secondBegun warm (advanceTo s t)) (secondVoters (advanceTo s t)) (secondY (advanceTo s t)) (measuring (advanceTo s t))) := by
  have terms : (sumsTaken ((advanceTo s t).put F.refs_warm_pin 0 (b2n warm))).rateTerms = (advanceTo s t).rateTerms :=
    (sumsTaken_rateTerms _).trans (warmed_rateTerms _ _)
  rw [exec_refMonitorSecond, warmed_secondY, warmed_ensembleVotes, warmed_measuring, terms, votersOf_secondBegun]

/-! ### What the second leaves -/

section
variable {b : State} {vs : Voters} {y : Nat → Option Int} {measured : Bool}

/-- After the references have had their turns, the selector's words alone are written. -/
theorem leaves_secondJudged (b : State) (vs : Voters) (y : Nat → Option Int) (measured : Bool) :
    leaves selectorWords (monitorAll b vs y (disagrees b vs) measured) (secondJudged b vs y measured) :=
  (leaves_ambiguity ..).trans (leaves_selSettle _)

theorem secondJudged_sums (b : State) (vs : Voters) (y : Nat → Option Int) (measured : Bool) : (secondJudged b vs y measured).rf.sums = b.rf.sums := by
  obtain ⟨c, ⟨-, before, -⟩, -, -, after, -⟩ := monitorAll_turn b vs y (disagrees b vs) measured (r := 0) (by decide)
  obtain ⟨-, turn, -⟩ := leaves_monitorRef c vs 0 (y 0) (disagrees b vs 0) measured
  obtain ⟨-, last, -⟩ := leaves_secondJudged b vs y measured
  rw [last, after, turn, before]

theorem secondJudged_warmPin (b : State) (vs : Voters) (y : Nat → Option Int) (measured : Bool) :
    (secondJudged b vs y measured).flag F.refs_warm_pin 0 = b.flag F.refs_warm_pin 0 := by
  rw [State.flag, (leaves_secondJudged b vs y measured).get F.refs_warm_pin 0 (by decide), monitorAll_warmPin, State.flag]

theorem secondJudged_y (b : State) (vs : Voters) (y : Nat → Option Int) (measured : Bool) {r : Nat} (hr : r < 3) :
    (secondJudged b vs y measured).get F.refy_y_tb r = yField (y r) := by
  obtain ⟨c, -, -, after⟩ := monitorAll_turn b vs y (disagrees b vs) measured hr
  have own : wkey F.refy_y_tb.obj F.refy_y_tb.sel r ∉ selectorWords := by
    simp only [selectorWords, wkey, F.refy_y_tb, List.mem_cons, List.not_mem_nil, or_false]
    omega
  rw [(leaves_secondJudged b vs y measured).get F.refy_y_tb r own, after.get F.refy_y_tb r (otherWords_own hr (.inl rfl)), monitorRef_y]

/-- A reference's state after the second is what its turn has made of it. -/
theorem secondJudged_refState (b : State) (vs : Voters) (y : Nat → Option Int) (measured : Bool) {r : Nat} (hr : r < 3) :
    ∃ c, leaves (otherWords r) b c ∧ c.refx r = b.refx r ∧
      (secondJudged b vs y measured).refState r = (monitorRef c vs r (y r) (disagrees b vs r) measured).refState r := by
  obtain ⟨c, before, timers, after⟩ := monitorAll_turn b vs y (disagrees b vs) measured hr
  have own : wkey F.refs_state.obj F.refs_state.sel r ∉ selectorWords := by
    simp only [selectorWords, wkey, F.refs_state, List.mem_cons, List.not_mem_nil, or_false]
    omega
  exact ⟨c, before, timers, ((leaves_secondJudged b vs y measured).get F.refs_state r own).trans (after.get F.refs_state r (otherWords_own hr (.inr rfl)))⟩

end

/-- Of the voters of a second, those with a reference's number have its y. -/
theorem y_of_mem_secondVoters {u : State} {r : Nat} {v : Int} (hr : r < 3) (h : (r, v) ∈ secondVoters u) : secondY u r = some v := by
  obtain ref | ens := List.mem_append.mp h
  · obtain ⟨q, -, e⟩ := List.mem_filterMap.mp ref
    obtain ⟨v', hv, e'⟩ := Option.bind_eq_some_iff.mp e
    split at e'
    · obtain ⟨rfl, rfl⟩ := Prod.mk.inj (Option.some.inj e')
      exact hv
    · cases e'
  · split at ens
    · obtain ⟨v', -, e⟩ := List.mem_map.mp ens
      obtain ⟨rfl, -⟩ := Prod.mk.inj e
      omega
    · cases ens

/-- A voter that departs, as the monitor finds it. -/
theorem isAway_secondVoters {u : State} {r : Nat} (hr : r < 3) : isAway u (secondVoters u) r (secondY u r) =
    (secondVoters u).any fun e => e.1 = r && departs (secondVoters u) (u.get F.refsel1_drift_limit 0 * 10) r e.2 := by
  have y := fun v => y_of_mem_secondVoters (u := u) (v := v) hr
  generalize secondVoters u = vs at y ⊢
  rw [Bool.eq_iff_iff]
  constructor
  · intro away
    unfold isAway at away
    split at away
    · next v hv =>
      obtain ⟨voter, gone⟩ := Bool.and_eq_true_iff.mp away
      obtain ⟨⟨q, w⟩, mem, same⟩ := List.any_eq_true.mp voter
      obtain rfl : q = r := of_decide_eq_true same
      obtain rfl : w = v := Option.some.inj ((y w mem).symm.trans hv)
      exact List.any_eq_true.mpr ⟨_, mem, by simp [gone]⟩
    · cases away
  · intro away
    obtain ⟨⟨q, w⟩, mem, gone⟩ := List.any_eq_true.mp away
    obtain ⟨same, gone⟩ := Bool.and_eq_true_iff.mp gone
    obtain rfl : q = r := of_decide_eq_true same
    have voter : (vs.any fun e => e.1 = q) = true := List.any_eq_true.mpr ⟨_, mem, by simp⟩
    simp only [isAway, y w mem, voter, gone, Bool.and_true]

theorem isAway_congr {s u : State} (h : s.get F.refsel1_drift_limit 0 = u.get F.refsel1_drift_limit 0) (vs : Voters) (r : Nat) (y : Option Int) :
    isAway s vs r y = isAway u vs r y := by
  simp only [isAway, h]

/-- What a second of the monitor makes of the voters (R46, R48). -/
theorem refMonitorSecond_states (warm : Bool) (u : State) {r : Nat} (hr : r < 3) :
    let v := secondJudged (secondBegun warm u) (secondVoters u) (secondY u) (measuring u)
    let away := isAway u (secondVoters u) r (secondY u r)
    (away = true → u.refState r = 3 ∨ u.refState r = 4 → u.get F.refsel1_persist 0 ≤ (u.refx r).okRun + 1 → v.refState r = 5) ∧
      (away = false → u.refState r = 5 → u.get F.refsel1_persist 0 ≤ (u.refx r).clearRun + 1 → v.refState r = 3) ∧
      (away = false → u.refState r = 3 → 0 < u.get F.refsel1_persist 0 → u.get F.refsel1_qual_s 0 ≤ (u.refx r).qualRun + 1 → v.refState r = 4) ∧
      (away = false → u.refState r = 4 → 0 < u.get F.refsel1_persist 0 → v.refState r = 4) := by
  intro v away
  obtain ⟨c, before, timers, after⟩ := secondJudged_refState (secondBegun warm u) (secondVoters u) (secondY u) (measuring u) hr
  have setting : ∀ f : Field, f.obj = 9 → f.sel = 1 → f.lo ≤ f.hi ∧ f.hi < 64 → c.get f 0 = u.get f 0 := fun f obj sel hf => by
    rw [before.get f 0 (otherWords_lt r (by rw [obj, sel]; decide) (by rw [obj, sel]; decide)),
      secondBegun_get warm u f 0 hf (.inr (by rw [obj, sel]; decide)) (by rw [obj, sel]; decide)]
  have state : c.refState r = u.refState r := (before.get F.refs_state r (otherWords_own hr (.inr rfl))).trans (secondBegun_refState warm u hr)
  have made := monitorRef_states c (secondVoters u) hr (secondY u r) (disagrees (secondBegun warm u) (secondVoters u) r) (measuring u)
  rw [← after, state, timers, secondBegun_refx, setting F.refsel1_persist rfl rfl (by decide), setting F.refsel1_qual_s rfl rfl (by decide),
    isAway_congr (setting F.refsel1_drift_limit rfl rfl (by decide))] at made
  exact made

end Sys2Proof.Machine
end


section
/-! PROOF. The reference monitor's events, and REF_STATUS (R35 to R48, R68). -/

namespace Sys2Proof.Machine

open Sys2Proof.Claims

/-! ### REF_STATUS -/

/-- REF_STATUS word 0 with the seconds of holdover. -/
def heldWord (s : State) : Word :=
  match s.rf.holdAt with
  | some t0 => if s.selState = 4 then setBits (s.word 0x20 0 0) 31 16 (secondsSince s t0 16) else s.word 0x20 0 0
  | none => s.word 0x20 0 0

theorem selWord_idle {s : State} (h : s.wtrRunning = none) : s.selWord = heldWord s := by
  unfold State.selWord
  dsimp only
  rw [h]
  rfl

theorem selWord_running {s : State} {r n : Nat} (h : s.wtrRunning = some (r, n)) :
    s.selWord = setBits (setBits (heldWord s) 33 32 r) 47 38 (min 1023 n) := by
  unfold State.selWord
  dsimp only
  rw [h]
  rfl

/-- A field of REF_STATUS word 0 below the wait-to-restore timer's. -/
theorem bits_selWord (s : State) {hi lo : Nat} (order : lo ≤ hi) (width : hi < 64) (h : hi < 32 ∨ 48 ≤ lo) : bits s.selWord hi lo = bits (heldWord s) hi lo := by
  cases e : s.wtrRunning with
  | none => rw [selWord_idle e]
  | some p =>
    rw [selWord_running e, bits_setBits_apart (by decide) (by decide) order width (by omega), bits_setBits_apart (by decide) (by decide) order width (by omega)]

/-- A field of it beside the seconds of holdover. -/
theorem bits_heldWord (s : State) {hi lo : Nat} (order : lo ≤ hi) (width : hi < 64) (h : hi < 16 ∨ 31 < lo) :
    bits (heldWord s) hi lo = bits (s.word 0x20 0 0) hi lo := by
  unfold heldWord
  split
  · split
    · exact bits_setBits_apart (by decide) (by decide) order width (by omega)
    · rfl
  · rfl

/-- A number of seconds in 16 bits. -/
theorem secondsSince_sixteen (s : State) (t0 : Nat) : secondsSince s t0 16 = min 65535 ((s.tb.tick - t0) / 1600000000) := rfl

theorem bits_heldWord_held {s : State} {t0 : Nat} (holdover : s.selState = 4) (since : s.rf.holdAt = some t0) :
    bits (heldWord s) 31 16 = min 65535 ((s.tb.tick - t0) / 1600000000) := by
  unfold heldWord
  rw [since]
  dsimp only
  rw [if_pos holdover, bits_setBits_self (by decide) (by decide), secondsSince_sixteen]
  omega

/-- REF_STATUS's second word of a reference. -/
def refWord (s : State) (r : Nat) : Word :=
  setBits (setBits (s.word 0x20 2 r) 63 48 (secondsSince s (s.refx r).since 16)) 7 7 (b2n (s.votes r))

/-- An edge has come in the last 1.5 s. -/
def ppsRecent (s : State) : Bool :=
  match s.rf.ppsLast with
  | some t0 => decide (s.tb.tick ≤ t0 + 1500 * Config.milli)
  | none => false

theorem refStatusWords_eq (s : State) : refStatusWords s =
    [s.selWord, s.word 0x20 1 0, refWord s 0, s.word 0x20 1 1, refWord s 1, s.word 0x20 1 2, refWord s 2,
      setBits (s.word 0x20 7 0) 36 36 (b2n (ppsRecent s)), s.word 0x20 8 0] := rfl

theorem b2n_mod_two_iff (b : Bool) : b2n b % 2 = 1 ↔ b = true := by cases b <;> decide

theorem bits_refWord (s : State) (r : Nat) : bits (refWord s r) 63 48 = min 65535 ((s.tb.tick - (s.refx r).since) / 1600000000) ∧
    bits (refWord s r) 47 8 = bits (s.word 0x20 2 r) 47 8 ∧ (bits (refWord s r) 7 7 = 1 ↔ s.votes r = true) ∧
    bits (refWord s r) 6 0 = bits (s.word 0x20 2 r) 6 0 := by
  unfold refWord
  refine ⟨?_, ?_, ?_, ?_⟩
  · rw [bits_setBits_apart (by decide) (by decide) (by decide) (by decide) (by decide), bits_setBits_self (by decide) (by decide), secondsSince_sixteen]
    omega
  · rw [bits_setBits_apart (by decide) (by decide) (by decide) (by decide) (by decide),
      bits_setBits_apart (by decide) (by decide) (by decide) (by decide) (by decide)]
  · rw [bits_setBits_self (by decide) (by decide)]
    exact b2n_mod_two_iff _
  · rw [bits_setBits_apart (by decide) (by decide) (by decide) (by decide) (by decide),
      bits_setBits_apart (by decide) (by decide) (by decide) (by decide) (by decide)]

theorem ppsRecent_iff (s : State) : ppsRecent s = true ↔ ∃ t0, s.rf.ppsLast = some t0 ∧ s.tb.tick ≤ t0 + 2400000000 := by
  unfold ppsRecent
  cases s.rf.ppsLast with
  | none => simp
  | some t0 =>
    refine ⟨fun h => ⟨t0, rfl, of_decide_eq_true h⟩, fun ⟨t, e, h⟩ => decide_eq_true ?_⟩
    rw [Option.some.inj e]
    exact h

theorem bits_ppsWord (s : State) (w : Word) : bits (setBits w 36 36 (b2n (ppsRecent s))) 63 37 = bits w 63 37 ∧
    bits (setBits w 36 36 (b2n (ppsRecent s))) 35 0 = bits w 35 0 ∧
    (bits (setBits w 36 36 (b2n (ppsRecent s))) 36 36 = 1 ↔ ∃ t0, s.rf.ppsLast = some t0 ∧ s.tb.tick ≤ t0 + 2400000000) := by
  refine ⟨bits_setBits_apart (by decide) (by decide) (by decide) (by decide) (by decide),
    bits_setBits_apart (by decide) (by decide) (by decide) (by decide) (by decide), ?_⟩
  rw [bits_setBits_self (by decide) (by decide), ← ppsRecent_iff]
  exact b2n_mod_two_iff _

/-- The words that REF_STATUS gives of each reference. -/
theorem refStatusWords_ref (s : State) {r : Nat} (hr : r < 3) :
    (refStatusWords s)[1 + 2 * r]? = some (s.word 0x20 1 r) ∧ (refStatusWords s)[2 + 2 * r]? = some (refWord s r) := by
  rw [refStatusWords_eq]
  match r with
  | 0 | 1 | 2 => exact ⟨rfl, rfl⟩

/-! ### A reference's edges, frequency and second -/

/-- Lost edges (R36). -/
theorem exec_refEdgeLoss {ref : Nat} (h : ref < 3) (t : Nat) (s : State) : exec (.refEdgeLoss ref t) s = .next (selSettle (setRef (advanceTo s t) ref 0)) :=
  if_pos h

/-- REF_C's frequency is not measured where no lane carries it (R35). -/
theorem exec_refFreqMeasure_gone {ref : Nat} {s : State} (carried : ref = 2) (gone : s.refcExists = false) (dev word : Int) (t : Nat) :
    exec (.refFreqMeasure ref dev word t) s = .next s :=
  if_pos (by simp [carried, gone])

theorem yField_secondY (u : State) (r : Nat) : yField (secondY u r) =
    if u.flag F.refsel0_xmeas_en 0 = true ∧ u.domOn 27 = true then yField (yOf (mget RegSum.init u.rf.sums r)) else 0x80000000 := by
  by_cases both : u.flag F.refsel0_xmeas_en 0 = true ∧ u.domOn 27 = true
  · obtain ⟨enabled, on⟩ := both
    rw [if_pos ⟨enabled, on⟩, secondY, measuring, enabled, on]
    rfl
  · have unmeasured : ¬ measuring u = true := fun m => both (Bool.and_eq_true_iff.mp m)
    rw [if_neg both, secondY, if_neg unmeasured]
    rfl

end Sys2Proof.Machine

namespace Sys2Proof

open Sys2Proof.Machine Sys2Proof.Claims

/-- Settles O27: each event is the selector's settling of the state that the event makes of its reference, and what settles writes none of the references' states. -/
theorem referenceEvents : Obligations.ReferenceEvents := by
  refine ⟨fun ref t s h => ?_, fun ref t dev word s h => ?_, fun warm t s => ?_, fun warm t s => ?_, ?_⟩
  · refine ⟨_, exec_refEdgeLoss h t s, ?_, ?_, fun r _ other => ?_⟩
    · rw [selSettle_refState, setRef_refState _ _ (by decide)]
    · rw [selSettle_tb, setRef_tb, advanceTo_tick]
    · rw [selSettle_refState, setRef_refState_ne _ _ other, advanceTo_refState]
  · refine ⟨fun carried gone => exec_refFreqMeasure_gone carried gone dev word t, fun here => ?_⟩
    obtain ⟨v, made, others, out, within⟩ := frequencyRes_states ref dev (noted (advanceTo s t) word)
    simp only [noted_refState, noted_refx, noted_freqLimit] at others out within
    exact ⟨v, (exec_refFreqMeasure h here dev word t).trans made, fun r _ other => (others r other).trans (advanceTo_refState s t r), out, within⟩
  · refine ⟨_, exec_refMonitorSecond_eq warm t s, ?_, ?_, fun r hr => ?_⟩
    · rw [secondJudged_warmPin, secondBegun_warmPin]
    · rw [secondJudged_sums, secondBegun_sums]
    · rw [secondJudged_y _ _ _ _ hr, yField_secondY]
  · refine ⟨_, exec_refMonitorSecond_eq warm t s, fun r hr => ?_⟩
    have made := refMonitorSecond_states warm (advanceTo s t) hr
    rw [isAway_secondVoters hr] at made
    simpa only [Bool.not_eq_true] using made
  · intro c s u accepted
    refine ⟨_, ends_of_accepts (ws := refStatusWords) accepted rfl, rfl, ⟨_, rfl, ?_, ?_, ?_, ?_⟩, fun r hr => ?_, ⟨_, rfl, bits_ppsWord u _⟩, rfl⟩
    · rw [bits_selWord _ (by decide) (by decide) (by decide), bits_heldWord _ (by decide) (by decide) (by decide)]
    · rw [bits_selWord _ (by decide) (by decide) (by decide), bits_heldWord _ (by decide) (by decide) (by decide)]
    · intro holdover t0 since
      rw [bits_selWord _ (by decide) (by decide) (by decide)]
      exact bits_heldWord_held holdover since
    · intro idle
      rw [selWord_idle idle, bits_heldWord _ (by decide) (by decide) (by decide)]
    · obtain ⟨first, second⟩ := refStatusWords_ref u hr
      exact ⟨first, _, second, bits_refWord u r⟩

end Sys2Proof
end


section
/-! PROOF. The selector's transitions, one at a time (R39, R51 to R56). -/

namespace Sys2Proof.Machine

open Sys2Proof.Claims

/-! ### The best of the references -/

theorem insertBy_perm {α : Type} (le : α → α → Bool) (x : α) (l : List α) : (insertBy le x l).Perm (x :: l) := by
  induction l with
  | nil => exact .refl _
  | cons y rest ih =>
    unfold insertBy
    split
    · exact .refl _
    · exact (ih.cons y).trans (.swap x y rest)

theorem sortBy_perm {α : Type} (le : α → α → Bool) (l : List α) : (sortBy le l).Perm l := by
  induction l with
  | nil => exact .refl _
  | cons x rest ih => exact (insertBy_perm le x (sortBy le rest)).trans (ih.cons x)

theorem best_admitted {s : State} {ok : Nat → Bool} {r : Nat} (h : s.best ok = some r) : r < 3 ∧ ok r = true := by
  have mem := (sortBy_perm _ _).mem_iff.mp (List.mem_of_head? h)
  obtain ⟨low, admitted⟩ := List.mem_filter.mp mem
  simp only [List.mem_cons, List.not_mem_nil, or_false] at low
  exact ⟨by omega, admitted⟩

theorem best_eq_none {s : State} {ok : Nat → Bool} (h : ∀ r < 3, ok r = false) : s.best ok = none := by
  cases e : s.best ok with
  | none => rfl
  | some r =>
    obtain ⟨low, admitted⟩ := best_admitted e
    rw [h r low] at admitted
    cases admitted

theorem admitted_of_best_none {s : State} {ok : Nat → Bool} (h : s.best ok = none) {r : Nat} (hr : r < 3) : ok r = false := by
  have empty := (List.head?_eq_none_iff.mp h) ▸ (sortBy_perm (fun a b => decide (s.prio a * 4 + a ≤ s.prio b * 4 + b)) ([0, 1, 2].filter ok)).symm
  have none := List.filter_eq_nil_iff.mp empty.eq_nil r (by
    simp only [List.mem_cons, List.not_mem_nil, or_false]
    omega)
  simpa using none

/-! ### A state of the selector -/

section
variable (s : State) (st : Nat)

theorem setSel_get (f : Field) (j : Nat) (h : wkey f.obj f.sel j ≠ wkey 5 7 0) : (setSel s st).get f j = (s.put F.refst0_sel_state 0 st).get f j :=
  ((leaves_refl [wkey 5 7 0] _).event 1 st stOk 3 _ (List.mem_singleton_self _)).get f j (by simpa using h)

@[simp] theorem setSel_rf : (setSel s st).rf = s.rf := by rw [setSel, refEvent, event_rf, State.put_rf]

@[simp] theorem setSel_tb : (setSel s st).tb = s.tb := by rw [setSel, refEvent, event_tb, State.put_tb]

@[simp] theorem setSel_flt : (setSel s st).flt = s.flt := by rw [setSel, refEvent, event_flt, State.put_flt]

variable {st} in
theorem setSel_selState (h : st < 8) : (setSel s st).selState = st := by
  rw [State.selState, setSel_get _ _ _ _ (by decide), State.get_put_self _ _ _ _ (by decide) (by decide)]
  exact Nat.mod_eq_of_lt h

/-- A field beside the selector's state. -/
theorem setSel_get_apart (f : Field) (j : Nat) (h : wkey f.obj f.sel j ≠ wkey 5 7 0) (hf : f.lo ≤ f.hi ∧ f.hi < 64) (beside : 2 < f.lo) :
    (setSel s st).get f j = s.get f j := by
  rw [setSel_get _ _ _ _ h]
  exact State.get_put_disjoint s F.refst0_sel_state f 0 j st (by decide) hf (.inl beside)

/-- The references' states are not the selector's. -/
@[simp] theorem setSel_refState (r : Nat) : (setSel s st).refState r = s.refState r :=
  ((leaves_refl selectorWords s).setSel st).get F.refs_state r (by
    simp only [selectorWords, wkey, F.refs_state, List.mem_cons, List.not_mem_nil, or_false]
    omega)

end

/-! ### A transition where none is due -/

section
variable {s : State}

theorem selReact_fixed (h : selOnce s = s) : selReact s = s := by
  unfold selReact
  rw [h, h, h, ite_self]

/-- With no REF_SELECT pending, nothing follows where no transition is due. -/
theorem selSettle_idle (none : s.rf.sel = none) (h : selOnce s = s) : selSettle s = s := by
  rw [selSettle, selReact_fixed h, selPerform_idle fun p e => by rw [none] at e; cases e]
  unfold selReply
  rw [none]

/-- In LOCKED on a reference that serves it, the lock not provisional. -/
theorem selOnce_locked (locked : s.selState = 2) (kept : s.refLost s.selected = false) (steady : ¬(s.selMode = 0 ∧ s.refState s.selected = 5))
    (firm : s.flag F.refst0_provisional 0 = false) :
    selOnce s = s.revertTo.elim s (startSwitch s) := by
  have serves : ¬((s.refLost s.selected || (decide (s.selMode = 0) && decide (s.refState s.selected = 5))) = true) := by simpa [kept] using steady
  unfold selOnce
  simp only [locked]
  rw [if_neg serves, firm, if_neg Bool.false_ne_true]
  cases s.revertTo with
  | none => rfl
  | some r => rfl

theorem selOnce_steady (locked : s.selState = 2) (h : steady s) : selOnce s = s := by
  obtain ⟨kept, drifts, provisional, firm⟩ := h
  cases p : s.flag F.refst0_provisional 0 with
  | false => rw [selOnce_locked locked kept drifts p, firm p, Option.elim_none]
  | true =>
    have serves : ¬((s.refLost s.selected || (decide (s.selMode = 0) && decide (s.refState s.selected = 5))) = true) := by simpa [kept] using drifts
    unfold selOnce
    simp only [locked]
    rw [if_neg serves, p, if_pos rfl, provisional p]

/-- A switch to a target that is not lost goes on. -/
theorem selOnce_switching (switching : s.selState = 3) (kept : s.refLost s.target = false) : selOnce s = s := by
  unfold selOnce
  simp only [switching]
  rw [kept, if_neg Bool.false_ne_true]

/-- During a switch REF_SELECT is not answered. -/
theorem selReply_switching (switching : s.selState = 3) : selReply s = s := by
  unfold selReply
  rw [switching]
  split
  · rfl
  · next p _ =>
    refine if_neg fun met => ?_
    obtain ⟨-, met⟩ := Bool.and_eq_true_iff.mp met
    split at met <;> simp at met

theorem selSettle_switching (switching : s.selState = 3) (kept : s.refLost s.target = false) : selSettle s = s := by
  rw [selSettle, selReact_fixed (selOnce_switching switching kept), selPerform_idle fun _ _ => .inr switching, selReply_switching switching]

/-- In HOLDOVER, with no candidate. -/
theorem selOnce_holdover (holdover : s.selState = 4) (none : s.best s.candidate = none) : selOnce s = s := by
  unfold selOnce
  simp only [holdover]
  rw [none]

/-- A GOOD reference is not lost. -/
theorem refLost_of_good {r : Nat} (good : s.refState r = 4) : s.refLost r = false := by
  rw [State.refLost, good]
  rfl

/-- A reversion is to a GOOD reference. -/
theorem revertTo_good {r : Nat} (h : s.revertTo = some r) : r < 3 ∧ s.refState r = 4 := by
  unfold State.revertTo at h
  split at h
  · obtain ⟨low, admitted⟩ := best_admitted h
    simp only [State.candidate, Bool.and_eq_true, decide_eq_true_eq] at admitted
    exact ⟨low, admitted.1.1.1⟩
  · cases h

end

/-! ### The oscillator held -/

theorem meanWord_congr {s u : State} (tick : s.tb.tick = u.tb.tick) (log : s.rf.osc.log = u.rf.osc.log)
    (window : s.get F.refsel2_hold_avg_s 0 = u.get F.refsel2_hold_avg_s 0) : s.meanWord = u.meanWord := by
  simp only [State.meanWord, tick, log, window]

/-- The oscillator held of a selected reference that does not drift (R39). -/
theorem holdOsc_held {s : State} (good : s.refState s.selected = 4) :
    (holdOsc s).rf.osc.held = some (s.meanWord + Config.tempModel s.freeCount) := by
  have word : (holdOsc s).rf.osc.held = some (s.meanWord + Config.tempModel s.freeCount - if s.refState s.selected = 5 then mget 0 s.rf.devs s.selected else 0) := rfl
  rw [word, good, if_neg (by decide), Int.sub_zero]

/-! ### A switch begins -/

/-- The oscillator is held as a switch begins. -/
def switchHeld (s : State) : State := { holdOsc s with rf := { (holdOsc s).rf with switchAt := some s.tb.tick, buildOut := none } }

theorem switchHeld_get (s : State) (f : Field) (j : Nat) : (switchHeld s).get f j = s.get f j := rfl

theorem switchHeld_cmd (s : State) : (switchHeld s).cmd = s.cmd := rfl

section
variable (s : State) (r : Nat)

theorem startSwitch_eq : startSwitch s r = setSel (switchHeld (s.put F.refst0_target 0 r)) 3 := rfl

theorem startSwitch_rf : (startSwitch s r).rf = (switchHeld (s.put F.refst0_target 0 r)).rf := by
  rw [startSwitch_eq, setSel_rf]

theorem startSwitch_switchAt : (startSwitch s r).rf.switchAt = some s.tb.tick := by
  rw [startSwitch_rf, switchHeld, State.put_tb]

theorem startSwitch_loopClosed : (startSwitch s r).rf.loopClosed = false := by
  rw [startSwitch_rf]
  rfl

theorem startSwitch_sel : (startSwitch s r).rf.sel = s.rf.sel := by
  have kept : (switchHeld (s.put F.refst0_target 0 r)).rf.sel = (s.put F.refst0_target 0 r).rf.sel := rfl
  rw [startSwitch_rf, kept, State.put_rf]

theorem startSwitch_selState : (startSwitch s r).selState = 3 := setSel_selState _ (by decide)

/-- A field that is neither the selector's state nor its target. -/
theorem startSwitch_get (f : Field) (j : Nat) (h : wkey f.obj f.sel j ≠ wkey 5 7 0) (hf : f.lo ≤ f.hi ∧ f.hi < 64) (beside : 2 < f.lo ∧ f.hi < 6 ∨ 7 < f.lo) :
    (startSwitch s r).get f j = s.get f j := by
  rw [startSwitch_eq, setSel_get_apart _ _ _ _ h hf (by omega), switchHeld_get]
  exact State.get_put_disjoint s F.refst0_target f 0 j r (by decide) hf (by simp only [F.refst0_target]; omega)

theorem startSwitch_selected : (startSwitch s r).selected = s.selected := startSwitch_get s r F.refst0_selected 0 (by decide) (by decide) (by decide)

variable {r} in
theorem startSwitch_target (h : r < 4) : (startSwitch s r).target = r := by
  rw [State.target, startSwitch_eq, setSel_get_apart _ _ _ _ (by decide) (by decide) (by decide), switchHeld_get]
  exact (State.get_put_self s F.refst0_target 0 r (by decide) (by decide)).trans (Nat.mod_eq_of_lt h)

theorem startSwitch_refState (j : Nat) : (startSwitch s r).refState j = s.refState j :=
  ((leaves_refl selectorWords s).startSwitch r).get F.refs_state j (by
    simp only [selectorWords, wkey, F.refs_state, List.mem_cons, List.not_mem_nil, or_false]
    omega)

variable {s} in
/-- A switch away from a GOOD reference holds the oscillator at its mean word with the correction of temperature (R39, R54). -/
theorem startSwitch_held (good : s.refState s.selected = 4) : (startSwitch s r).rf.osc.held = some (s.meanWord + Config.tempModel s.freeCount) := by
  have selected : (s.put F.refst0_target 0 r).selected = s.selected := State.get_put_disjoint s F.refst0_target F.refst0_selected 0 0 r (by decide) (by decide) (by decide)
  have state : (s.put F.refst0_target 0 r).refState s.selected = s.refState s.selected :=
    State.get_put_ne s F.refst0_target F.refs_state 0 s.selected r (by
      simp only [wkey, F.refs_state, F.refst0_target]
      omega)
  have word : (s.put F.refst0_target 0 r).meanWord = s.meanWord := meanWord_congr (by rw [State.put_tb]) (by rw [State.put_rf]) (State.get_put_ne s _ _ _ _ _ (by decide))
  rw [startSwitch_rf, switchHeld]
  dsimp only
  rw [holdOsc_held (by rw [selected, state, good]), word, State.put_freeCount]

variable {s r} in
/-- Where the transition that is due begins a switch to a GOOD reference, that is what the selector does. -/
theorem selSettle_of_startSwitch (running : 4 ≤ s.phase) (due : selOnce s = startSwitch s r) (low : r < 3) (good : s.refState r = 4) :
    selSettle s = startSwitch s r := by
  have goes : selOnce (startSwitch s r) = startSwitch s r := by
    refine selOnce_switching (startSwitch_selState s r) ?_
    rw [startSwitch_target s (by omega)]
    exact refLost_of_good ((startSwitch_refState s r r).trans good)
  have reacts : selReact s = startSwitch s r := by
    unfold selReact
    rw [if_neg (by omega), due, goes, goes]
  rw [selSettle, reacts, selPerform_idle fun _ _ => .inr (startSwitch_selState s r), selReply_switching (startSwitch_selState s r)]

end

end Sys2Proof.Machine
end


section
/-! PROOF. The selector locks, switches and reverts (R51 to R56). -/

namespace Sys2Proof.Machine

open Sys2Proof.Claims

/-! ### ACQUIRE -/

/-- The tick from which both limits of R52 have held, as the 10 ms that end at `now` are within them. -/
def lockStart (s : State) (now : Nat) : Nat :=
  match s.rf.lockFrom with
  | some f => if now ≤ s.rf.lockTo + 16000000 then f else now - 16000000
  | none => now - 16000000

/-- The limits of R52 are noted as holding from a tick, or as broken. -/
def lockNoted (u : State) (start : Option Nat) : State := { u with rf := { u.rf with lockFrom := start, lockTo := u.tb.tick } }

theorem exec_acquireLock {s : State} (acquire : s.selState = 1) (phase freq : Int) (t : Nat) : exec (.acquireLock phase freq t) s =
    if lockOk phase freq then
      if lockStart (advanceTo s t) (advanceTo s t).tb.tick + 160000000 ≤ (advanceTo s t).tb.tick then
        .next (selSettle (setSel (lockNoted (advanceTo s t) (some (lockStart (advanceTo s t) (advanceTo s t).tb.tick))) 2))
      else .next (lockNoted (advanceTo s t) (some (lockStart (advanceTo s t) (advanceTo s t).tb.tick)))
    else .next (lockNoted (advanceTo s t) none) := if_pos acquire

theorem lockStart_advanceTo (s : State) (t now : Nat) : lockStart (advanceTo s t) now = lockStart s now := by
  rw [lockStart, advanceTo_rf]
  rfl

/-! ### The switch's end -/

/-- The target is selected, and the switch counted. -/
def targetTaken (a : State) : State :=
  (((a.put F.refst0_selected 0 a.target).put F.refst0_target 0 3).put F.refst0_provisional 0 0).satInc F.refst0_switch_count 0 1

/-- The switch is over, and the loop closed. -/
def switchOver (a : State) : State := closeLoop { targetTaken a with rf := { (targetTaken a).rf with switchAt := none, holdAt := none } } false

/-- At 1.0 ms the phase is taken out, and the loop closes at 100 Hz. -/
theorem closeLoop_builtOut (u : State) (phase : Int) : closeLoop { u with rf := { u.rf with buildOut := some phase } } true =
    { u with rf := { u.rf with buildOut := some phase, osc := { u.rf.osc with held := none, wide := true }, loopClosed := true } } := rfl

theorem exec_switchBuildOut {s : State} {t0 : Nat} (switching : s.selState = 3) (since : s.rf.switchAt = some t0) (phase : Int) :
    exec (.switchBuildOut phase) s =
      .next (closeLoop { advanceTo s (t0 + 1600000) with rf := { (advanceTo s (t0 + 1600000)).rf with buildOut := some phase } } true) := by
  show execSwitchBuildOut phase s = _
  simp only [execSwitchBuildOut, switching, since]
  rfl

theorem exec_switchComplete {s : State} {t0 : Nat} (switching : s.selState = 3) (since : s.rf.switchAt = some t0) :
    exec .switchComplete s = .next (selSettle (setSel (switchOver (advanceTo s (t0 + 3200000))) 2)) := by
  show execSwitchComplete s = _
  simp only [execSwitchComplete, switching, since]
  rfl

section
variable (a : State)

theorem get_withRf (x : RefSys) (f : Field) (j : Nat) : State.get { a with rf := x } f j = a.get f j := rfl

theorem closeLoop_get (wide : Bool) (f : Field) (j : Nat) : (closeLoop a wide).get f j = a.get f j := rfl

theorem switchOver_get (f : Field) (j : Nat) : (switchOver a).get f j = (targetTaken a).get f j := by
  rw [switchOver, closeLoop_get, get_withRf]

theorem switchOver_rf : (switchOver a).rf = { a.rf with switchAt := none, holdAt := none, osc := { a.rf.osc with held := none, wide := false }, loopClosed := true } := by
  simp only [switchOver, targetTaken, closeLoop, State.satInc_rf, State.put_rf]

theorem switchOver_tb : (switchOver a).tb = a.tb := by
  simp only [switchOver, targetTaken, closeLoop, State.satInc_tb, State.put_tb]

theorem switchOver_selected : (switchOver a).get F.refst0_selected 0 = a.target := by
  rw [switchOver_get, targetTaken, State.satInc]
  simp (disch := decide) only [State.get_put_disjoint, State.get_put_self]
  exact Nat.mod_eq_of_lt (bits_lt (by decide) (by decide))

theorem switchOver_target : (switchOver a).get F.refst0_target 0 = 3 := by
  rw [switchOver_get, targetTaken, State.satInc]
  simp (disch := decide) only [State.get_put_disjoint, State.get_put_self]
  rfl

theorem switchOver_provisional : (switchOver a).get F.refst0_provisional 0 = 0 := by
  rw [switchOver_get, targetTaken, State.satInc]
  simp (disch := decide) only [State.get_put_disjoint, State.get_put_self]
  rfl

theorem satAdd_lt {w a b : Nat} : satAdd w a b < 2 ^ w := by
  have := Nat.two_pow_pos w
  unfold satAdd
  split <;> omega

theorem switchOver_switchCount : (switchOver a).get F.refst0_switch_count 0 = plus a F.refst0_switch_count 0 1 := by
  rw [switchOver_get, targetTaken, State.satInc]
  simp (disch := decide) only [State.get_put_disjoint, State.get_put_self]
  exact Nat.mod_eq_of_lt satAdd_lt

/-- A field of another word than the selector's. -/
theorem switchOver_get_ne (f : Field) (j : Nat) (h : wkey f.obj f.sel j ≠ wkey 32 0 0) : (switchOver a).get f j = a.get f j := by
  rw [switchOver_get, targetTaken, State.satInc]
  exact (State.get_put_ne _ F.refst0_switch_count f 0 j _ h).trans ((State.get_put_ne _ F.refst0_provisional f 0 j _ h).trans
    ((State.get_put_ne _ F.refst0_target f 0 j _ h).trans (State.get_put_ne _ F.refst0_selected f 0 j _ h)))

theorem switchOver_refState (r : Nat) : (switchOver a).refState r = a.refState r :=
  switchOver_get_ne a F.refs_state r (by
    simp only [wkey, F.refs_state]
    omega)

end

/-! ### Reverting -/

theorem exec_waitToRestoreExpiry {ref t0 : Nat} {s : State} (h : ref < 3) (running : (s.refx ref).wtr = some t0) (good : s.refState ref = 4) :
    exec (.waitToRestoreExpiry ref) s = .next (selSettle (advanceTo s (t0 + s.get F.refsel0_wtr_s 0 * 1600000000))) := by
  show execWaitToRestoreExpiry ref s = _
  simp only [execWaitToRestoreExpiry, running]
  exact if_pos (by simp [h, good])

/-- With a reversion due, the selector begins the switch (R56). -/
theorem selSettle_revert {u : State} {r : Nat} (running : 4 ≤ u.phase) (locked : u.selState = 2) (good : u.refState u.selected = 4)
    (firm : u.flag F.refst0_provisional 0 = false) (due : u.revertTo = some r) : selSettle u = startSwitch u r := by
  obtain ⟨low, target⟩ := revertTo_good due
  refine selSettle_of_startSwitch running ?_ low target
  rw [selOnce_locked locked (refLost_of_good good) (by omega) firm, due, Option.elim_some]

end Sys2Proof.Machine

namespace Sys2Proof

open Sys2Proof.Machine Sys2Proof.Claims

/-- Settles O28: by what each event makes of the state before the selector settles, and, for the reversion, by the switch that is then the one transition due. -/
theorem selectorEvents : Obligations.SelectorEvents := by
  refine ⟨fun w locked quiet none => selSettle_idle none (selOnce_steady locked quiet), ?_, ?_, ?_, ?_⟩
  · intro phase freq t s acquire u now start v
    have made := exec_acquireLock acquire phase freq t
    have from1 : lockStart (advanceTo s t) (advanceTo s t).tb.tick = start := lockStart_advanceTo s t _
    rw [from1] at made
    refine ⟨fun within long => ⟨setSel v 2, ?_, setSel_selState v (by decide), ?_, ?_, fun r _ => ?_, setSel_rf v 2⟩, fun within short => ?_, fun beyond => ?_⟩
    · rw [made, if_pos within]
      exact if_pos long
    · exact (setSel_get_apart v 2 F.refst0_selected 0 (by decide) (by decide) (by decide)).trans (advanceTo_get s t F.refst0_selected 0)
    · rw [setSel_tb]
      exact advanceTo_tick s t
    · exact (setSel_refState v 2 r).trans (advanceTo_refState s t r)
    · rw [made, if_pos within]
      exact if_neg (Nat.not_le.mpr short)
    · rw [made, beyond]
      rfl
  · intro phase t0 s switching since
    rw [exec_switchBuildOut switching since phase, closeLoop_builtOut]
  · intro t0 s switching since
    have apart := fun f => setSel_get_apart (switchOver (advanceTo s (t0 + 3200000))) 2 f 0
    refine ⟨_, exec_switchComplete switching since, setSel_selState _ (by decide), ?_, ?_, ?_, ?_, ?_, ?_, ?_, ?_, ?_, fun r _ => ?_⟩
    · rw [State.selected, apart F.refst0_selected (by decide) (by decide) (by decide), switchOver_selected]
      exact advanceTo_get s _ F.refst0_target 0
    · rw [State.target, apart F.refst0_target (by decide) (by decide) (by decide), switchOver_target]
    · rw [State.flag, apart F.refst0_provisional (by decide) (by decide) (by decide), switchOver_provisional]
      rfl
    · rw [setSel_rf, switchOver_rf]
    · rw [setSel_rf, switchOver_rf]
    · rw [setSel_rf, switchOver_rf]
    · rw [State.loopBw, setSel_rf, switchOver_rf, if_neg Bool.false_ne_true, apart F.refsel0_loop_bw (by decide) (by decide) (by decide),
        switchOver_get_ne _ F.refsel0_loop_bw 0 (by decide), advanceTo_get]
    · rw [setSel_tb, switchOver_tb, advanceTo_tick]
    · rw [apart F.refst0_switch_count (by decide) (by decide) (by decide), switchOver_switchCount, plus, advanceTo_get, plus]
    · rw [setSel_refState, switchOver_refState, advanceTo_refState]
  · intro ref t0 s low running good u
    refine ⟨exec_waitToRestoreExpiry low running good, fun r phase locked serves firm due => ?_⟩
    obtain ⟨small, -⟩ := revertTo_good due
    refine ⟨startSwitch u r, ?_, startSwitch_selState u r, startSwitch_target u (by omega), startSwitch_selected u r, startSwitch_switchAt u r,
      startSwitch_loopClosed u r, startSwitch_held r serves⟩
    rw [exec_waitToRestoreExpiry low running good, selSettle_revert phase locked serves firm due]

end Sys2Proof
end


section
/-! PROOF. REF_SELECT in its three forms (R57, R58). -/

namespace Sys2Proof.Machine

open Sys2Proof.Claims

/-! ### HOLDOVER begins -/

theorem holdoverNoted_get (s : State) (f : Field) (j : Nat) : (holdoverNoted s).get f j = (noReference s).get f j := by
  rw [holdoverNoted, get_withRf]

section
variable (s : State)

/-- A switch leaves the command channels. -/
theorem startSwitch_chan (r p : Nat) : (startSwitch s r).chan p = s.chan p := by
  simp only [startSwitch_eq, setSel, refEvent, event_chan, State.put_chan]
  rw [State.chan, switchHeld_cmd, State.put_cmd, State.chan]

theorem enterHoldover_selState : (enterHoldover s).selState = 4 := by
  rw [enterHoldover_eq, State.selState, raise_get]
  exact setSel_selState _ (by decide)

theorem holdOsc_get (f : Field) (j : Nat) : (holdOsc s).get f j = s.get f j := rfl

theorem enterHoldover_selected : (enterHoldover s).selected = 3 := by
  rw [enterHoldover_eq, State.selected, raise_get, setSel_get_apart _ _ _ _ (by decide) (by decide) (by decide), holdoverNoted_get, noReference]
  simp (disch := decide) only [State.get_put_disjoint, State.get_put_self]
  rfl

/-- A field of another word than the selector's. -/
theorem enterHoldover_get (f : Field) (j : Nat) (h : wkey f.obj f.sel j ≠ wkey 5 7 0) (h0 : wkey f.obj f.sel j ≠ wkey 32 0 0) :
    (enterHoldover s).get f j = s.get f j := by
  rw [enterHoldover_eq, raise_get, setSel_get _ _ _ _ h]
  refine (State.get_put_ne _ F.refst0_sel_state f 0 j _ h0).trans ?_
  rw [holdoverNoted_get, noReference]
  exact (State.get_put_ne _ F.refst0_provisional f 0 j _ h0).trans ((State.get_put_ne _ F.refst0_selected f 0 j _ h0).trans
    ((State.get_put_ne _ F.refst0_target f 0 j _ h0).trans (holdOsc_get s f j)))

theorem noReference_rf : (noReference s).rf = (holdOsc s).rf := by
  simp only [noReference, State.put_rf]

theorem noReference_tb : (noReference s).tb = s.tb := by
  obtain ⟨tb, -⟩ := leaves_noReference s
  exact tb

theorem enterHoldover_rf : (enterHoldover s).rf = { (holdOsc s).rf with holdAt := some s.tb.tick, switchAt := none } := by
  rw [enterHoldover_eq, raise_rf, setSel_rf, holdoverNoted, noReference_rf, noReference_tb]

theorem holdOsc_sel : (holdOsc s).rf.sel = s.rf.sel := rfl

theorem enterHoldover_sel : (enterHoldover s).rf.sel = s.rf.sel := by
  rw [enterHoldover_rf]
  exact holdOsc_sel s

/-- The entry into HOLDOVER is a fault of no domain (R69). -/
theorem enterHoldover_inflight : (enterHoldover s).flt.inflight = s.flt.inflight ++ [{ source := 0x9003, cause := 0x14, sub := 0, injected := false }] := by
  have kept : (holdOsc s).flt = s.flt := rfl
  have flt : (noReference s).flt = s.flt := by
    simp only [noReference, State.put_flt, kept]
  have noted : (holdoverNoted s).flt = s.flt := by simp only [holdoverNoted, flt]
  rw [enterHoldover_eq, raise_inflight rfl, setSel_flt, noted]

end

/-! ### REF_SELECT is asked -/

/-- The REF_SELECT that is pending as a form of it is asked. -/
def askedSel (c : Cmd) (form r : Nat) : SelPend := { cmd := c, form := form, ref := r, started := false }

section
variable (u : State) {c : Cmd} (form r : Nat)

theorem asked_rf : (asked u c form r).rf = { u.rf with sel := some (askedSel c form r) } := by
  rw [asked, State.setChan_rf, State.satInc_rf]
  rfl

theorem asked_tb : (asked u c form r).tb = u.tb := by rw [asked, State.setChan_tb, State.satInc_tb]

theorem asked_flt : (asked u c form r).flt = u.flt := by rw [asked, State.setChan_flt, State.satInc_flt]

theorem asked_freeCount : (asked u c form r).freeCount = u.freeCount := by rw [asked, State.setChan_freeCount, State.satInc_freeCount]

theorem asked_chan (hc : c.part = 0) : ((asked u c form r).chan 0).op = 0x20 := by
  rw [asked, hc, State.chan_setChan]

/-- Asking counts the command as accepted, and writes no other word. -/
theorem asked_get (hc : c.part = 0) (f : Field) (j : Nat) (h : wkey f.obj f.sel j ≠ wkey 12 3 0) : (asked u c form r).get f j = u.get f j := by
  rw [asked, State.setChan_get, hc]
  exact (State.get_put_ne _ F.part3_accepted f 0 j _ h).trans (get_withRf u _ f j)

/-- A command of partition 0 that is accepted. -/
theorem accepts0_iff (s : State) (c : Cmd) (op n : Nat) : accepts0 s c op n = true ↔ passes s c op = true ∧ c.resv = 0 ∧ c.params.length = n ∧ c.part = 0 := by
  rw [accepts0, Bool.and_eq_true, accepts_iff, decide_eq_true_eq, and_assoc, and_assoc]

/-- The checks of REF_SELECT, with the reference that its word names. -/
theorem refSelect_eq {c : Cmd} {r : Nat} (named : bits (c.par 0) 1 0 = r) (s : State) (form : Nat) : refSelect form c s = checked c true 1
    (refuseIf (stray (c.par 0) [(1, 0)] || (decide (form ≠ 1) && decide (r ≠ 0)) || (decide (form = 1) && decide (r = 3))) stBadParam 1
      (noMore c 1 (refuseIf (decide (form = 1) && decide (s.refState r ≠ 4)) stBadParam 1
        (.later { s with rf := { s.rf with sel := some (askedSel c form r) } })))) := by
  subst named
  rfl

/-- REF_SELECT accepted, with a reference that its form may name. -/
theorem runCmd_refSelect {s : State} {c : Cmd} {form r : Nat} (accepted : accepts0 s c 0x20 1 = true) (low : r < 3) (par : c.par 0 = BitVec.ofNat 64 r)
    (names : form = 1 ∨ r = 0) : runCmd 0x20 c (refSelect form c) s =
      if form = 1 ∧ (advanceTo s c.tick).refState r ≠ 4 then finish (advanceTo s c.tick) c 0x20 stBadParam 1 [] else asked (advanceTo s c.tick) c form r := by
  obtain ⟨passed, resv, one, zero⟩ := (accepts0_iff s c 0x20 1).mp accepted
  have named : bits (c.par 0) 1 0 = r := by
    rw [par, bits_ofNat (by decide) (by decide)]
    omega
  have clean : stray (c.par 0) [(1, 0)] = false := par ▸ stray_ofNat (by omega) (by decide)
  have allowed : (stray (c.par 0) [(1, 0)] || (decide (form ≠ 1) && decide (r ≠ 0)) || (decide (form = 1) && decide (r = 3))) = false := by
    rw [clean]
    obtain h | h := names
    · simp [h]
      omega
    · simp [h]
  rw [runCmd_of_passes passed, refSelect_eq named, checked_eq c true 1 _ (by simp [zero]) resv one, refuseIf_false _ _ _ allowed, noMore,
    refuseIf_false _ _ _ (by simp [one])]
  by_cases bad : form = 1 ∧ (advanceTo s c.tick).refState r ≠ 4
  · obtain ⟨forced, poor⟩ := bad
    rw [if_pos ⟨forced, poor⟩, refuseIf_true _ _ _ (by rw [decide_eq_true forced, decide_eq_true poor]; rfl)]
    rfl
  · rw [if_neg bad, refuseIf_false _ _ _ (by simpa using bad)]
    rfl

end

/-! ### REF_SELECT is performed -/

/-- REF_SELECT as its change begins: its mode is set. -/
def performed (u : State) (c : Cmd) (form r : Nat) : State := withMode (asked u c form r) (askedSel c form r)

section
variable (u : State) {c : Cmd} (form r : Nat)

theorem withMode_rf (s : State) (p : SelPend) : (withMode s p).rf = { s.rf with sel := some { p with started := true } } := by
  simp only [withMode, State.put_rf]

theorem withMode_tb (s : State) (p : SelPend) : (withMode s p).tb = s.tb := by
  simp only [withMode, State.put_tb]

theorem withMode_freeCount (s : State) (p : SelPend) : (withMode s p).freeCount = s.freeCount := by
  simp only [withMode, State.put_freeCount]

theorem withMode_flt (s : State) (p : SelPend) : (withMode s p).flt = s.flt := by
  simp only [withMode, State.put_flt]

theorem withMode_cmd (s : State) (p : SelPend) : (withMode s p).cmd = s.cmd := by
  simp only [withMode, State.put_cmd]

theorem performed_rf : (performed u c form r).rf = { u.rf with sel := some { askedSel c form r with started := true } } := by
  rw [performed, withMode_rf, asked_rf]

theorem performed_tb : (performed u c form r).tb = u.tb := by rw [performed, withMode_tb, asked_tb]

/-- A field of another word than REFSEL's first, or beside the mode. -/
theorem performed_get (hc : c.part = 0) (f : Field) (j : Nat) (hf : f.lo ≤ f.hi ∧ f.hi < 64) (h : wkey f.obj f.sel j ≠ wkey 12 3 0)
    (beside : (f.hi < 41 ∨ 44 < f.lo) ∨ wkey f.obj f.sel j ≠ wkey 9 0 0) : (performed u c form r).get f j = u.get f j := by
  have set : (performed u c form r).get f j = (asked u c form r).get f j := by
    rw [performed, withMode]
    obtain beside | other := beside
    · exact (State.get_put_disjoint _ F.refsel0_forced f 0 j _ (by decide) hf (by simp only [F.refsel0_forced]; omega)).trans
        ((State.get_put_disjoint _ F.refsel0_mode f 0 j _ (by decide) hf (by simp only [F.refsel0_mode]; omega)).trans (get_withRf _ _ f j))
    · exact (State.get_put_ne _ F.refsel0_forced f 0 j _ other).trans ((State.get_put_ne _ F.refsel0_mode f 0 j _ other).trans (get_withRf _ _ f j))
  rw [set, asked_get u form r hc f j h]

variable {form} in
theorem performed_selMode (h : form < 4) : (performed u c form r).selMode = form := by
  rw [State.selMode, performed, withMode]
  simp (disch := decide) only [State.get_put_disjoint, State.get_put_self]
  exact Nat.mod_eq_of_lt h

variable {r} in
theorem performed_forced (h : r < 4) : (performed u c form r).get F.refsel0_forced 0 = r := by
  rw [performed, withMode]
  simp (disch := decide) only [State.get_put_self]
  exact Nat.mod_eq_of_lt h

/-- What the selector reads of a state, beside the mode. -/
def readsAs (s u : State) : Prop :=
  s.selState = u.selState ∧ s.selected = u.selected ∧ s.target = u.target ∧ s.flag F.refst0_provisional 0 = u.flag F.refst0_provisional 0 ∧
    s.flag F.refsel0_revert 0 = u.flag F.refsel0_revert 0 ∧ s.prio = u.prio ∧ s.refState = u.refState

theorem readsAs_of_get {s u : State} (h : ∀ f j, f.lo ≤ f.hi ∧ f.hi < 64 → wkey f.obj f.sel j ≠ wkey 12 3 0 →
    (f.hi < 41 ∨ 44 < f.lo) ∨ wkey f.obj f.sel j ≠ wkey 9 0 0 → s.get f j = u.get f j) : readsAs s u := by
  refine ⟨h F.refst0_sel_state 0 (by decide) (by decide) (.inl (by decide)), h F.refst0_selected 0 (by decide) (by decide) (.inl (by decide)),
    h F.refst0_target 0 (by decide) (by decide) (.inl (by decide)), ?_, ?_, ?_, ?_⟩
  · rw [State.flag, h F.refst0_provisional 0 (by decide) (by decide) (.inl (by decide)), State.flag]
  · rw [State.flag, h F.refsel0_revert 0 (by decide) (by decide) (.inl (by decide)), State.flag]
  · funext j
    match j with
    | 0 => exact h F.refsel0_prio_a 0 (by decide) (by decide) (.inl (by decide))
    | 1 => exact h F.refsel0_prio_b 0 (by decide) (by decide) (.inl (by decide))
    | 2 => exact h F.refsel0_prio_c 0 (by decide) (by decide) (.inl (by decide))
    | _ + 3 => rfl
  · funext j
    exact h F.refs_state j (by decide) (by simp only [wkey, F.refs_state]; omega) (.inl (by decide))

theorem readsAs_asked (hc : c.part = 0) : readsAs (asked u c form r) u := readsAs_of_get fun f j _ h _ => asked_get u form r hc f j h

theorem readsAs_performed (hc : c.part = 0) : readsAs (performed u c form r) u := readsAs_of_get fun f j hf h beside => performed_get u form r hc f j hf h beside

end

/-! ### With the selector at rest -/

/-- The selector is LOCKED on a GOOD reference, not provisional, with no reversion to another. -/
def serves (u : State) : Prop :=
  u.selState = 2 ∧ u.refState u.selected = 4 ∧ u.flag F.refst0_provisional 0 = false ∧
    (u.flag F.refsel0_revert 0 = false ∨ ∀ r < 3, u.refState r = 4 → r = u.selected)

theorem serves_of_readsAs {s u : State} (h : readsAs s u) (hu : serves u) : serves s := by
  obtain ⟨state, selected, -, provisional, revert, -, refs⟩ := h
  unfold serves
  rw [state, selected, provisional, revert, refs]
  exact hu

/-- Nothing better than the selected reference is GOOD, or reverting is off. -/
theorem revertTo_none {u : State} (h : u.flag F.refsel0_revert 0 = false ∨ ∀ r < 3, u.refState r = 4 → r = u.selected) : u.revertTo = none := by
  unfold State.revertTo
  split
  · next on =>
    obtain off | alone := h
    · simp [off] at on
    · refine best_eq_none fun r low => ?_
      by_cases good : u.refState r = 4
      · rw [State.better, alone r low good]
        simp
      · simp [State.candidate, good]
  · rfl

theorem selOnce_serves {s : State} (h : serves s) : selOnce s = s := by
  obtain ⟨locked, good, firm, revert⟩ := h
  rw [selOnce_locked locked (refLost_of_good good) (by omega) firm, revertTo_none revert, Option.elim_none]

/-- In HOLDOVER, with no candidate among the references. -/
theorem best_none_of_readsAs {s u : State} (h : readsAs s u) (forced : s.get F.refsel0_forced 0 = u.get F.refsel0_forced 0) (mode : s.selMode = u.selMode)
    (without : u.best u.candidate = none) : s.best s.candidate = none := by
  obtain ⟨-, -, -, -, -, prio, refs⟩ := h
  refine best_eq_none fun r low => ?_
  have same : s.candidate r = u.candidate r := by rw [State.candidate, refs, mode, forced, prio, State.candidate]
  rw [same]
  exact admitted_of_best_none without low

/-- REF_SELECT as performed is answered ST_OK. -/
theorem selReply_met {s : State} {p : SelPend} (pending : s.rf.sel = some { p with started := true })
    (met : (match p.form with
      | 0 => decide (s.selState = 2) || decide (s.selState = 4)
      | 1 => decide (s.selState = 2) && decide (s.selected = p.ref)
      | _ => decide (s.selState = 4)) = true) :
    selReply s = finish { s with rf := { s.rf with sel := none } } p.cmd 0x20 stOk 0 [] := by
  unfold selReply
  rw [pending]
  exact if_pos met

section
variable {u : State} {c : Cmd} {form r : Nat}

theorem asked_sel : (asked u c form r).rf.sel = some (askedSel c form r) := by rw [asked_rf]

/-- With no transition due, the selector performs the REF_SELECT that is asked. -/
theorem selSettle_asked (rest : selOnce (asked u c form r) = asked u c form r) : selSettle (asked u c form r) = selReply (selPerform (asked u c form r)) := by
  rw [selSettle, selReact_fixed rest]

theorem selPerform_auto (still : (asked u c 0 r).selState ≠ 3) : selPerform (asked u c 0 r) = selReact (performed u c 0 r) :=
  selPerform_eq (p := askedSel c 0 r) asked_sel rfl still

theorem selPerform_forced (still : (asked u c 1 r).selState ≠ 3) : selPerform (asked u c 1 r) =
    if (performed u c 1 r).selState = 2 && (performed u c 1 r).selected = r then performed u c 1 r
    else if (performed u c 1 r).selState = 0 || (performed u c 1 r).selState = 1 then startAcquire (performed u c 1 r) r false
    else startSwitch (performed u c 1 r) r :=
  selPerform_eq (p := askedSel c 1 r) asked_sel rfl still

theorem selPerform_holdover (still : (asked u c 2 r).selState ≠ 3) : selPerform (asked u c 2 r) =
    if (performed u c 2 r).selState = 4 then performed u c 2 r else enterHoldover (performed u c 2 r) :=
  selPerform_eq (p := askedSel c 2 r) asked_sel rfl still

theorem performed_sel : (performed u c form r).rf.sel = some { askedSel c form r with started := true } := by rw [performed_rf]

/-- A state whose REF_SELECT has been answered. -/
def answered (s : State) : State := { s with rf := { s.rf with sel := none } }

theorem answered_get (s : State) (f : Field) (j : Nat) : (answered s).get f j = s.get f j := rfl

theorem answered_selMode (s : State) : (answered s).selMode = s.selMode := rfl

theorem answered_selState (s : State) : (answered s).selState = s.selState := rfl

theorem answered_selected (s : State) : (answered s).selected = s.selected := rfl

theorem answered_sel (s : State) : (answered s).rf.sel = none := rfl

theorem asked_serves (hc : c.part = 0) (h : serves u) : selOnce (asked u c form r) = asked u c form r ∧ (asked u c form r).selState ≠ 3 := by
  obtain ⟨locked, held⟩ := serves_of_readsAs (readsAs_asked u form r hc) h
  exact ⟨selOnce_serves ⟨locked, held⟩, by omega⟩

/-- AUTO while the selector is LOCKED: it stays so. -/
theorem selSettle_auto_locked (hc : c.part = 0) (h : serves u) : selSettle (asked u c 0 r) = finish (answered (performed u c 0 r)) c 0x20 stOk 0 [] := by
  obtain ⟨rest, still⟩ := asked_serves (form := 0) (r := r) hc h
  have holds := serves_of_readsAs (readsAs_performed u 0 r hc) h
  have fixed := selReact_fixed (selOnce_serves holds)
  obtain ⟨locked, -⟩ := holds
  rw [selSettle_asked rest, selPerform_auto still, fixed, selReply_met performed_sel (by simp [askedSel, locked])]
  rfl

/-- FORCED while the selector is LOCKED on the reference named. -/
theorem selSettle_forced_selected (hc : c.part = 0) (h : serves u) (same : u.selected = r) :
    selSettle (asked u c 1 r) = finish (answered (performed u c 1 r)) c 0x20 stOk 0 [] := by
  obtain ⟨rest, still⟩ := asked_serves (form := 1) (r := r) hc h
  obtain ⟨locked, -⟩ := serves_of_readsAs (readsAs_performed u 1 r hc) h
  obtain ⟨-, selected, -⟩ := readsAs_performed u 1 r hc
  rw [selSettle_asked rest, selPerform_forced still, if_pos (by simp [locked, selected, same]),
    selReply_met performed_sel (by simp [askedSel, locked, selected, same])]
  rfl

/-- FORCED while the selector is LOCKED on another reference. -/
theorem selSettle_forced_other (hc : c.part = 0) (h : serves u) (other : u.selected ≠ r) : selSettle (asked u c 1 r) = startSwitch (performed u c 1 r) r := by
  obtain ⟨rest, still⟩ := asked_serves (form := 1) (r := r) hc h
  obtain ⟨locked, -⟩ := serves_of_readsAs (readsAs_performed u 1 r hc) h
  obtain ⟨-, selected, -⟩ := readsAs_performed u 1 r hc
  rw [selSettle_asked rest, selPerform_forced still, if_neg (by simp [selected, other]), if_neg (by simp [locked]),
    selReply_switching (startSwitch_selState _ _)]

/-- HOLDOVER while the selector is LOCKED: it begins. -/
theorem selSettle_holdover_locked (hc : c.part = 0) (h : serves u) :
    selSettle (asked u c 2 r) = finish (answered (enterHoldover (performed u c 2 r))) c 0x20 stOk 0 [] := by
  obtain ⟨rest, still⟩ := asked_serves (form := 2) (r := r) hc h
  obtain ⟨locked, -⟩ := serves_of_readsAs (readsAs_performed u 2 r hc) h
  have pending := (enterHoldover_sel (performed u c 2 r)).trans performed_sel
  rw [selSettle_asked rest, selPerform_holdover still, if_neg (by omega), selReply_met pending (by simp [askedSel, enterHoldover_selState])]
  rfl

theorem asked_holdover (hc : c.part = 0) (holdover : u.selState = 4) (without : u.best u.candidate = none) :
    selOnce (asked u c form r) = asked u c form r ∧ (asked u c form r).selState ≠ 3 := by
  have reads := readsAs_asked u form r hc
  have same := best_none_of_readsAs reads (asked_get u form r hc _ 0 (by decide)) (asked_get u form r hc F.refsel0_mode 0 (by decide)) without
  obtain ⟨state, -⟩ := reads
  exact ⟨selOnce_holdover (state.trans holdover) same, by omega⟩

/-- HOLDOVER in HOLDOVER. -/
theorem selSettle_holdover_held (hc : c.part = 0) (holdover : u.selState = 4) (without : u.best u.candidate = none) :
    selSettle (asked u c 2 r) = finish (answered (performed u c 2 r)) c 0x20 stOk 0 [] := by
  obtain ⟨rest, still⟩ := asked_holdover (form := 2) (r := r) hc holdover without
  obtain ⟨state, -⟩ := readsAs_performed u 2 r hc
  have held := state.trans holdover
  rw [selSettle_asked rest, selPerform_holdover still, if_pos held, selReply_met performed_sel (by simp [askedSel, held])]
  rfl

/-- AUTO in HOLDOVER, where no GOOD reference may be selected. -/
theorem selSettle_auto_held (hc : c.part = 0) (holdover : u.selState = 4) (without : u.best u.candidate = none)
    (barred : ∀ q < 3, u.refState q = 4 → u.prio q = 3) : selSettle (asked u c 0 r) = finish (answered (performed u c 0 r)) c 0x20 stOk 0 [] := by
  obtain ⟨rest, still⟩ := asked_holdover (form := 0) (r := r) hc holdover without
  obtain ⟨state, -, -, -, -, prio, refs⟩ := readsAs_performed u 0 r hc
  have held := state.trans holdover
  have noCandidate : (performed u c 0 r).best (performed u c 0 r).candidate = none := by
    refine best_eq_none fun q low => ?_
    rw [State.candidate, refs, prio, performed_selMode u r (by decide)]
    by_cases good : u.refState q = 4
    · simp [barred q low good]
    · simp [good]
  rw [selSettle_asked rest, selPerform_auto still, selReact_fixed (selOnce_holdover held noCandidate), selReply_met performed_sel (by simp [askedSel, held])]
  rfl

end

/-- The oscillator held as the REF_SELECT HOLDOVER that is performed begins it (R39). -/
theorem enterHoldover_performed_held {u : State} {c : Cmd} {r : Nat} (hc : c.part = 0) (good : u.refState u.selected = 4) :
    (enterHoldover (performed u c 2 r)).rf.osc.held = some (u.meanWord + Config.tempModel u.freeCount) := by
  obtain ⟨-, selected, -, -, -, -, refs⟩ := readsAs_performed u 2 r hc
  have word : (performed u c 2 r).meanWord = u.meanWord :=
    meanWord_congr (by rw [performed_tb]) (by rw [performed_rf]) (performed_get u 2 r hc F.refsel2_hold_avg_s 0 (by decide) (by decide) (.inl (by decide)))
  have count : (performed u c 2 r).freeCount = u.freeCount := by rw [performed, withMode_freeCount, asked_freeCount]
  rw [enterHoldover_rf]
  dsimp only
  rw [holdOsc_held (by rw [selected, refs, good]), word, count]

end Sys2Proof.Machine

namespace Sys2Proof

open Sys2Proof.Machine Sys2Proof.Claims

/-- Settles O29: REF_SELECT is asked, and what the selector then performs is read off its state, which the asking and the mode leave alone. -/
theorem refSelectForms : Obligations.RefSelectForms := by
  intro c s u good accepted
  obtain ⟨-, -, -, hc⟩ := (accepts0_iff s c 0x20 1).mp accepted
  have auto : c.par 0 = 0#64 → exec (.refSelectAuto c) s = .next (selSettle (asked u c 0 0)) := fun zero => by
    show execRefSelectAuto c s = _
    rw [execRefSelectAuto, runCmd_refSelect accepted (by decide) zero (.inr rfl), if_neg (by simp)]
  have holdover : c.par 0 = 0#64 → exec (.refSelectHoldover c) s = .next (selSettle (asked u c 2 0)) := fun zero => by
    show execRefSelectHoldover c s = _
    rw [execRefSelectHoldover, runCmd_refSelect accepted (by decide) zero (.inr rfl), if_neg (by simp)]
  have forced : ∀ r < 3, c.par 0 = BitVec.ofNat 64 r → good r → exec (.refSelectForced c) s = .next (selSettle (asked u c 1 r)) := fun r low par well => by
    show execRefSelectForced c s = _
    rw [execRefSelectForced, runCmd_refSelect accepted low par (.inl rfl), if_neg fun h => h.2 well]
  refine ⟨fun zero => ⟨auto zero, holdover zero⟩, fun r low par => ⟨forced r low par, fun poor => ?_⟩, fun form r switching kept => ?_, ?_, ?_⟩
  · show execRefSelectForced c s = _
    rw [execRefSelectForced, runCmd_refSelect accepted low par (.inl rfl), if_pos ⟨rfl, poor⟩]
  · obtain ⟨state, -, target, -, -, -, refs⟩ := readsAs_asked u form r hc
    refine selSettle_switching (state.trans switching) ?_
    rw [State.refLost, refs, target]
    exact kept
  · intro locked well low firm revert
    have on : serves u := ⟨locked, well, firm, revert⟩
    refine ⟨fun zero => ⟨?_, ?_⟩, fun r low par there => ⟨fun same => ?_, fun other => ?_⟩⟩
    · obtain ⟨state, selected, -⟩ := readsAs_performed u 0 0 hc
      rw [auto zero, selSettle_auto_locked hc on]
      exact ⟨_, rfl, (answered_selMode _).trans (performed_selMode u 0 (by decide)), (answered_selState _).trans (state.trans locked),
        (answered_selected _).trans selected, answered_sel _⟩
    · rw [holdover zero, selSettle_holdover_locked hc on]
      refine ⟨_, rfl, ?_, (answered_selState _).trans (enterHoldover_selState _), (answered_selected _).trans (enterHoldover_selected _), answered_sel _, ?_,
        enterHoldover_performed_held hc well, ?_⟩
      · exact (answered_selMode _).trans ((enterHoldover_get _ F.refsel0_mode 0 (by decide) (by decide)).trans (performed_selMode u 0 (by decide)))
      · rw [answered, enterHoldover_rf, performed_tb]
      · rw [answered, enterHoldover_inflight, performed, withMode_flt, asked_flt]
    · obtain ⟨state, selected, -⟩ := readsAs_performed u 1 r hc
      rw [forced r low par there, selSettle_forced_selected hc on same.symm]
      exact ⟨_, rfl, (answered_selMode _).trans (performed_selMode u r (by decide)), (answered_get _ _ _).trans (performed_forced u 1 (by omega)),
        (answered_selState _).trans (state.trans locked), (answered_selected _).trans (selected.trans same.symm), answered_sel _⟩
    · rw [forced r low par there, selSettle_forced_other hc on (Ne.symm other)]
      refine ⟨_, rfl, ?_, ?_, startSwitch_selState _ _, startSwitch_target _ (by omega), ?_, (startSwitch_sel _ _).trans performed_sel⟩
      · exact (startSwitch_get _ r F.refsel0_mode 0 (by decide) (by decide) (by decide)).trans (performed_selMode u r (by decide))
      · exact (startSwitch_get _ r F.refsel0_forced 0 (by decide) (by decide) (by decide)).trans (performed_forced u 1 (by omega))
      · rw [startSwitch_chan, performed, State.chan, withMode_cmd]
        exact asked_chan u 1 r hc
  · intro held without zero
    refine ⟨fun barred => ?_, ?_⟩
    · obtain ⟨state, -⟩ := readsAs_performed u 0 0 hc
      rw [auto zero, selSettle_auto_held hc held without barred]
      exact ⟨_, rfl, (answered_selMode _).trans (performed_selMode u 0 (by decide)), (answered_selState _).trans (state.trans held), answered_sel _⟩
    · obtain ⟨state, -⟩ := readsAs_performed u 2 0 hc
      rw [holdover zero, selSettle_holdover_held hc held without]
      exact ⟨_, rfl, (answered_selMode _).trans (performed_selMode u 0 (by decide)), (answered_selState _).trans (state.trans held), answered_sel _⟩

end Sys2Proof
end


section
/-! PROOF. TIME_SET, PPS_ALIGN, and the step of device time (R60 to R65, R68). -/

namespace Sys2Proof.Machine

open Sys2Proof.Claims

/-! ### Signed numbers and boundaries -/

theorem toSigned_ofSigned {w : Nat} {x : Int} (hw : 0 < w) (low : -(2 : Int) ^ (w - 1) ≤ x) (high : x < (2 : Int) ^ (w - 1)) : toSigned w (ofSigned w x) = x := by
  obtain ⟨n, rfl⟩ : ∃ n, w = n + 1 := ⟨w - 1, by omega⟩
  have double : (2 : Int) ^ (n + 1) = 2 * 2 ^ n := by ring
  have cast : ((2 ^ n : Nat) : Int) = (2 : Int) ^ n := by push_cast; rfl
  unfold toSigned ofSigned
  simp only [Nat.add_sub_cancel] at low high ⊢
  rw [double]
  by_cases neg : x < 0
  · have wrapped : x % (2 * 2 ^ n) = x + 2 * 2 ^ n := by
      rw [← Int.add_mul_emod_self_left x (2 * 2 ^ n) 1, Int.emod_eq_of_lt (by omega) (by omega)]
      omega
    rw [wrapped]
    split <;> omega
  · rw [Int.emod_eq_of_lt (by omega) (by omega)]
    split <;> omega

theorem ofSigned_lt (w : Nat) (x : Int) : ofSigned w x < 2 ^ w := by
  have pos : (0 : Int) < 2 ^ w := by positivity
  have below := Int.emod_lt_of_pos x pos
  have cast : ((2 ^ w : Nat) : Int) = (2 : Int) ^ w := by push_cast; rfl
  unfold ofSigned
  omega

theorem ofNat_ofSigned (x : Int) : BitVec.ofNat 64 (ofSigned 64 x) = BitVec.ofInt 64 x := by
  apply BitVec.eq_of_toNat_eq
  rw [BitVec.toNat_ofNat, BitVec.toNat_ofInt, Nat.mod_eq_of_lt (ofSigned_lt 64 x)]
  rfl

/-- The first boundary at least 4,096 ticks ahead. -/
theorem boundaryAfter_bounds (f : Nat) : 4096 ∣ boundaryAfter f 4096 ∧ f + 4096 ≤ boundaryAfter f 4096 ∧ boundaryAfter f 4096 < f + 8192 := by
  unfold boundaryAfter ceilDiv
  omega

theorem setFull_full (s : State) {f : Nat} (h : f < 2 ^ 70) : (s.setFull f).full = f := by
  have count : (s.setFull f).full = f / 2 ^ 54 % 2 ^ 16 * 2 ^ 54 + f % 2 ^ 54 := by
    simp only [State.full, State.setFull, BitVec.toNat_ofNat]
  rw [count]
  omega

/-! ### TIME_SET and PPS_ALIGN -/

/-- The count that a command's two words give (R62). -/
def countOf (c : Cmd) : Nat := bits (c.par 0) 15 0 * 2 ^ 54 + bits (c.par 1) 53 0

/-- TIME_SET waits for a boundary at least 4,096 ticks ahead. -/
def stepAsked (c : Cmd) (s : State) : StepPend := { atFull := boundaryAfter s.full 4096, newFull := countOf c, stamp := 0, pps := false, cmd := c }

section
variable {s : State} {c : Cmd} (high : stray (c.par 0) [(15, 0)] = false) (low : stray (c.par 1) [(53, 0)] = false)
include high low

theorem runCmd_timeSet (accepted : accepts0 s c 0x22 2 = true) (aligned : bits (c.par 1) 11 0 = 0) : runCmd 0x22 c (timeSetBody c) s =
    settle (advanceTo s c.tick) c 0x22 (refuseIf (!(advanceTo s c.tick).quiescent) stBadParam 0
      (.later { advanceTo s c.tick with tb := { (advanceTo s c.tick).tb with step := some (stepAsked c (advanceTo s c.tick)) } })) := by
  obtain ⟨passed, resv, two, zero⟩ := (accepts0_iff s c 0x22 2).mp accepted
  rw [runCmd_of_passes passed, timeSetBody, checked_eq c true 2 _ (by simp [zero]) resv two, refuseIf_false _ _ _ high,
    refuseIf_false _ _ _ (by simp [low, aligned]), noMore, refuseIf_false _ _ _ (by simp [two])]
  rfl

/-- The edge that PPS_ALIGN waits for. -/
def ppsAsked (step : Bool) (c : Cmd) (s : State) : PpsWait := { cmd := c, step := step, full := countOf c, deadline := s.tb.tick + 2400000000 }

theorem runCmd_ppsAlign (accepted : accepts0 s c 0x23 2 = true) (step : Bool) : runCmd 0x23 c (ppsAlignBody step c) s =
    settle (advanceTo s c.tick) c 0x23 (refuseIf (step && !(advanceTo s c.tick).quiescent) stBadParam 0
      (.later { advanceTo s c.tick with rf := { (advanceTo s c.tick).rf with pps := some (ppsAsked step c (advanceTo s c.tick)) } })) := by
  obtain ⟨passed, resv, two, zero⟩ := (accepts0_iff s c 0x23 2).mp accepted
  rw [runCmd_of_passes passed, ppsAlignBody, checked_eq c true 2 _ (by simp [zero]) resv two, refuseIf_false _ _ _ high,
    refuseIf_false _ _ _ low, noMore, refuseIf_false _ _ _ (by simp [two])]
  rfl

end

/-! ### An edge -/

/-- An edge is counted and its offset noted (R68). -/
def edgeNoted (u : State) : State :=
  let s := (u.wrapInc F.refpps_pps_count 0 1).put F.refpps_pps_offset 0 (ofSigned 32 (ppsOffset u.full))
  { s with rf := { u.rf with ppsLast := some u.tb.tick } }

/-- The boundary that a waiting STEP is given (R65). -/
def stepDue (s : State) (p : PpsWait) : StepPend :=
  { atFull := boundaryAfter s.full 4096, newFull := ofSigned 70 ((boundaryAfter s.full 4096 : Int) + (p.full : Int) - (s.full : Int)), stamp := s.full, pps := true, cmd := p.cmd }

/-- PPS_ALIGN waits no longer. -/
def unwaited (s : State) : State := { s with rf := { s.rf with pps := none } }

/-- What an edge does for the PPS_ALIGN that waits. -/
def edgeRes (s : State) : Option PpsWait → Res
  | none => .next s
  | some p =>
    if p.deadline < s.tb.tick then .next s
    else if p.step then .next { unwaited s with tb := { (unwaited s).tb with step := some (stepDue s p) } }
    else .next (finish (unwaited s) p.cmd 0x23 stOk 0 (ppsReply s.full p.full))

section
variable (u : State)

theorem edgeNoted_get (f : Field) (j : Nat) : (edgeNoted u).get f j =
    ((u.wrapInc F.refpps_pps_count 0 1).put F.refpps_pps_offset 0 (ofSigned 32 (ppsOffset u.full))).get f j := get_withRf _ _ f j

theorem edgeNoted_tb : (edgeNoted u).tb = u.tb := by simp only [edgeNoted, State.wrapInc, State.put_tb]

theorem edgeNoted_full : (edgeNoted u).full = u.full := full_of_tb (edgeNoted_tb u)

theorem edgeNoted_count : (edgeNoted u).get F.refpps_pps_count 0 = (u.get F.refpps_pps_count 0 + 1) % 2 ^ 16 := by
  rw [edgeNoted_get, State.wrapInc]
  simp (disch := decide) only [State.get_put_disjoint, State.get_put_self]
  exact Nat.mod_mod _ _

theorem ppsOffset_bounds (full : Nat) : -800000000 ≤ ppsOffset full ∧ ppsOffset full ≤ 800000000 := by
  have rest := Nat.mod_lt full (show 0 < Config.second by decide)
  have second : Config.second = 1600000000 := rfl
  unfold ppsOffset
  dsimp only
  rw [second] at rest ⊢
  split <;> omega

theorem edgeNoted_offset : toSigned 32 ((edgeNoted u).get F.refpps_pps_offset 0) = ppsOffset u.full := by
  obtain ⟨low, high⟩ := ppsOffset_bounds u.full
  rw [edgeNoted_get, State.get_put_self _ _ _ _ (by decide) (by decide)]
  have fits : ofSigned 32 (ppsOffset u.full) % 2 ^ (F.refpps_pps_offset.hi - F.refpps_pps_offset.lo + 1) = ofSigned 32 (ppsOffset u.full) :=
    Nat.mod_eq_of_lt (ofSigned_lt 32 _)
  rw [fits, toSigned_ofSigned (by decide) (by omega) (by omega)]

end

theorem exec_ppsEdge_due {falling : Bool} {t : Nat} {s : State}
    (due : ((advanceTo s t).flag F.refsel0_pps_en 0 && decide ((advanceTo s t).flag F.refsel0_pps_pol 0 = falling)) = true) :
    exec (.ppsEdge falling t) s = edgeRes (edgeNoted (advanceTo s t)) (edgeNoted (advanceTo s t)).rf.pps := by
  show execPpsEdge falling t s = _
  rw [execPpsEdge, if_pos due]
  rfl

theorem unwaited_get (s : State) (f : Field) (j : Nat) : (unwaited s).get f j = s.get f j := rfl

theorem unwaited_rf (s : State) : (unwaited s).rf = { s.rf with pps := none } := rfl

/-- The state that an edge leaves. -/
theorem edgeRes_next (s : State) (waits : Option PpsWait) : ∃ v, edgeRes s waits = .next v ∧ v.rf.ppsLast = s.rf.ppsLast ∧ (∀ f, v.get f 0 = s.get f 0) ∧
    ∀ p, waits = some p → s.tb.tick ≤ p.deadline → v.rf.pps = none ∧ (p.step = true → v.tb.step = some (stepDue s p)) ∧
      (p.step = false → v = finish (unwaited s) p.cmd 0x23 stOk 0 (ppsReply s.full p.full)) := by
  cases waits with
  | none => exact ⟨s, rfl, rfl, fun _ => rfl, fun p h => by cases h⟩
  | some p =>
    by_cases late : p.deadline < s.tb.tick
    · refine ⟨s, if_pos late, rfl, fun _ => rfl, fun q e timely => ?_⟩
      obtain rfl := Option.some.inj e
      omega
    · cases stepped : p.step with
      | true =>
        refine ⟨_, (if_neg late).trans (if_pos stepped), rfl, fun _ => rfl, fun q e _ => ?_⟩
        obtain rfl := Option.some.inj e
        exact ⟨rfl, fun _ => rfl, fun no => by rw [stepped] at no; cases no⟩
      | false =>
        refine ⟨_, (if_neg late).trans (if_neg (by simp [stepped])), ?_, fun f => ?_, fun q e _ => ?_⟩
        · rw [finish_rf, unwaited_rf]
        · rw [finish_get, unwaited_get]
        · obtain rfl := Option.some.inj e
          exact ⟨by rw [finish_rf, unwaited_rf], fun yes => (by rw [stepped] at yes; cases yes), fun _ => rfl⟩

theorem ppsReply_eq (stamp count : Nat) : ppsReply stamp count = [BitVec.ofNat 64 (stamp % 2 ^ 54), BitVec.ofInt 64 ((count : Int) - stamp)] := by
  rw [ppsReply, pack_low 53 _ (by decide), ofNat_ofSigned]

/-! ### The step -/

theorem foldl_keeps {α β γ : Type} {g : β → γ} {f : β → α → β} (h : ∀ b a, g (f b a) = g b) (l : List α) (b : β) : g (l.foldl f b) = g b := by
  induction l generalizing b with
  | nil => rfl
  | cons a rest ih => exact (ih (f b a)).trans (h b a)

theorem emitAll_full (s : State) (r : Rec) : (emitAll s r).full = s.full :=
  foldl_keeps (g := State.full) (fun b q => full_of_tb (emit_tb b q r)) _ s

theorem shiftAll_full (s : State) (dt : Int) (start : Nat) : (shiftAll s dt start).full = s.full := rfl

theorem putEh_full (s : State) (tile t : Nat) : (putEh s tile t).full = s.full := rfl

/-- Device time stands at the new count after the step (R62, R65). -/
theorem deviceTimeStep_full {s : State} {oldFull newFull : Nat} (at1 : s.full = oldFull) (fits : newFull < 2 ^ 70) :
    (deviceTimeStep s oldFull newFull).full = newFull := by
  unfold deviceTimeStep
  extract_lets dt start counted told idle moved ended
  have models : ∀ (b : State) (e : Nat × Model), (if e.2.fitted then b.put F.ltsa_offset e.1 (ofSigned 64 (roundHalfUp (e.2.d - e.2.u) 16)) else b).full = b.full := by
    intro b e
    split
    · exact State.put_full ..
    · rfl
  have heads : ∀ (b : State) (e : Nat × Tile), (putEh b e.1 (start * 1024)).full = b.full := fun b e => putEh_full b e.1 _
  have gates : ∀ (b : State) (e : Nat × List Gate), (((b.put F.gsta_gstate e.1 0).put F.gsta_continuous e.1 0).put F.gsta_gates_left e.1 0).full = b.full := by
    intro b e
    simp only [State.put_full]
  calc _ = ended.full := foldl_keeps (g := State.full) models _ _
    _ = moved.full := foldl_keeps (g := State.full) heads _ _
    _ = idle.full := shiftAll_full idle dt start
    _ = told.full := foldl_keeps (g := State.full) gates _ _
    _ = counted.full := emitAll_full ..
    _ = newFull + (s.full - oldFull) := setFull_full _ (by omega)
    _ = newFull := by omega

/-- A word with two fields of 16 bits. -/
theorem pack_two {a b : Nat} (ha : a < 2 ^ 16) (hb : b < 2 ^ 16) : pack [(31, 16, a), (15, 0, b)] = BitVec.ofNat 64 (a * 65536 + b) := by
  apply BitVec.eq_of_getLsbD_eq
  intro i hi
  have sum : (a * 65536 + b).testBit i = if i < 16 then b.testBit i else a.testBit (i - 16) := by
    rw [Nat.mul_comm]
    exact Nat.testBit_two_pow_mul_add a hb i
  simp only [pack, List.foldl]
  rw [getLsbD_setBits (by decide) (by decide), getLsbD_setBits (by decide) (by decide), BitVec.getLsbD_ofNat, BitVec.getLsbD_ofNat, sum]
  by_cases low : i < 16
  · simp [low, hi, show i ≤ 15 by omega]
  · by_cases inner : i ≤ 31
    · simp [low, hi, inner, show ¬i ≤ 15 by omega, show 16 ≤ i by omega]
    · have high : a.testBit (i - 16) = false := Nat.testBit_lt_two_pow (ha.trans_le (Nat.pow_le_pow_right (by decide) (by omega)))
      simp [low, inner, high, show ¬i ≤ 15 by omega]

/-- The reply of TIME_SET after the step: the epochs, the new count and the old (R62). -/
theorem timeSet_words {oldFull newFull : Nat} (h : oldFull < 2 ^ 70) (h' : newFull < 2 ^ 70) :
    [pack [(31, 16, oldFull / 2 ^ 54), (15, 0, newFull / 2 ^ 54)], pack [(53, 0, newFull)], pack [(53, 0, oldFull)]] =
      [BitVec.ofNat 64 (oldFull / 2 ^ 54 * 65536 + newFull / 2 ^ 54), BitVec.ofNat 64 (newFull % 2 ^ 54), BitVec.ofNat 64 (oldFull % 2 ^ 54)] := by
  rw [pack_two (by omega) (by omega), pack_low 53 _ (by decide), pack_low 53 _ (by decide)]

/-- What the boundary of a step makes of the state (R61, R62, R65). -/
theorem exec_timeSetBoundary {s : State} {p : StepPend} (waiting : s.tb.step = some p) : exec .timeSetBoundary s =
    if !(advanceFull s p.atFull).quiescent then
      .next (finish { advanceFull s p.atFull with tb := { (advanceFull s p.atFull).tb with step := none } } p.cmd (if p.pps then 0x23 else 0x22) stBadParam 0 [])
    else
      .next (finish (deviceTimeStep { advanceFull s p.atFull with tb := { (advanceFull s p.atFull).tb with step := none } } p.atFull p.newFull) p.cmd
        (if p.pps then 0x23 else 0x22) stOk 0
        (if p.pps then ppsReply p.stamp (ofSigned 70 ((p.stamp : Int) + (p.newFull : Int) - (p.atFull : Int)))
          else [pack [(31, 16, p.atFull / 2 ^ 54), (15, 0, p.newFull / 2 ^ 54)], pack [(53, 0, p.newFull)], pack [(53, 0, p.atFull)]])) := by
  show execTimeSetBoundary s = _
  rw [execTimeSetBoundary, waiting]
  rfl

end Sys2Proof.Machine

namespace Sys2Proof

open Sys2Proof.Machine Sys2Proof.Claims

/-- Settles O30: by what the bodies of both commands answer, what an edge notes and does for the PPS_ALIGN that waits, and the count that the step sets. -/
theorem timeSetPpsAlign : Obligations.TimeSetPpsAlign := by
  refine ⟨?_, ?_, fun p s waits => ?_, ?_⟩
  · intro c s u count high low
    refine ⟨fun accepted aligned => ⟨fun quiet => ⟨stepAsked c u, ?_, rfl, rfl, rfl, boundaryAfter_bounds u.full⟩, fun busy => ?_⟩,
      fun accepted => ⟨?_, fun quiet => ?_, fun busy => ?_⟩⟩
    · show execTimeSet c s = _
      rw [execTimeSet, runCmd_timeSet high low accepted aligned, refuseIf_false _ _ _ (by rw [quiet]; rfl)]
      rfl
    · show execTimeSet c s = _
      rw [execTimeSet, runCmd_timeSet high low accepted aligned, refuseIf_true _ _ _ (by rw [busy]; rfl)]
      rfl
    · show execPpsAlignMeasure c s = _
      rw [execPpsAlignMeasure, runCmd_ppsAlign high low accepted false, refuseIf_false _ _ _ (Bool.false_and _)]
      rfl
    · show execPpsAlignStep c s = _
      rw [execPpsAlignStep, runCmd_ppsAlign high low accepted true, refuseIf_false _ _ _ (by rw [quiet]; rfl)]
      rfl
    · show execPpsAlignStep c s = _
      rw [execPpsAlignStep, runCmd_ppsAlign high low accepted true, refuseIf_true _ _ _ (by rw [busy]; rfl)]
      rfl
  · intro falling t s u due
    refine ⟨fun undue => ?_, fun isDue => ?_⟩
    · exact if_neg fun isDue => Bool.false_ne_true (undue.symm.trans isDue)
    · obtain ⟨v, made, last, fields, completes⟩ := edgeRes_next (edgeNoted u) (edgeNoted u).rf.pps
      refine ⟨v, (exec_ppsEdge_due isDue).trans made, last.trans rfl, ?_, ?_, fun p waits timely => ?_⟩
      · rw [fields, edgeNoted_count]
        rfl
      · rw [fields, edgeNoted_offset]
      · obtain ⟨over1, stepped, measured⟩ := completes p waits (by rw [edgeNoted_tb]; exact timely)
        refine ⟨over1, fun isStep => ⟨_, stepped isStep, rfl, edgeNoted_full u, rfl, ?_⟩, fun isMeasure => ⟨unwaited (edgeNoted u), ?_⟩⟩
        · obtain ⟨whole, ahead, -⟩ := boundaryAfter_bounds u.full
          rw [stepDue, edgeNoted_full]
          exact ⟨whole, ahead, rfl⟩
        · rw [measured isMeasure, ppsReply_eq, edgeNoted_full]
  · show execPpsAlignTimeout s = _
    rw [execPpsAlignTimeout, waits]
  · intro p s waiting u w
    have made := exec_timeSetBoundary waiting
    refine ⟨fun busy => ?_, fun quiet at1 fits => ?_⟩
    · exact made.trans (if_pos (by rw [busy]; rfl))
    · have stepped : exec .timeSetBoundary s = .next (finish (deviceTimeStep w p.atFull p.newFull) p.cmd (if p.pps then 0x23 else 0x22) stOk 0
          (if p.pps then ppsReply p.stamp (ofSigned 70 ((p.stamp : Int) + (p.newFull : Int) - (p.atFull : Int)))
            else [pack [(31, 16, p.atFull / 2 ^ 54), (15, 0, p.newFull / 2 ^ 54)], pack [(53, 0, p.newFull)], pack [(53, 0, p.atFull)]])) :=
        made.trans (if_neg (by rw [quiet]; exact Bool.false_ne_true))
      have full : (deviceTimeStep w p.atFull p.newFull).full = p.newFull := deviceTimeStep_full at1 fits
      have old : p.atFull < 2 ^ 70 := at1 ▸ u.full_lt
      refine ⟨fun set => ⟨_, ?_, full⟩, fun align low high => ⟨_, ?_, full⟩⟩
      · rw [stepped, set, ← timeSet_words old fits]
        rfl
      · have count : ((ofSigned 70 ((p.stamp : Int) + (p.newFull : Int) - (p.atFull : Int)) : Nat) : Int) - p.stamp = (p.newFull : Int) - p.atFull := by
          unfold ofSigned
          omega
        rw [stepped, align, if_pos rfl, if_pos rfl, ppsReply_eq, count]

end Sys2Proof
end


section
/-! PROOF. What interval mode and the delivery of a stamp leave alone: the comparators, their words, the interpolators' states (R79, R94 to R97). -/

namespace Sys2Proof.Machine

open Sys2Proof.Claims

/-! ### Words that an edge reads -/

/-- The words below the second status word of an input's comparators, the interpolators' states, the late trailing edges, and the commands' effects are in `t`
as in `s`. -/
def edgeWords (s t : State) : Prop :=
  t.cmd = s.cmd ∧ (∀ k < wkey 3 21 0, regGet t.regs k = regGet s.regs k) ∧ (∀ n, t.get F.cala_state n = s.get F.cala_state n) ∧
    ∀ b < 2, ∀ i < 64, t.get (F.pstb_late_trail.at b) i = s.get (F.pstb_late_trail.at b) i

/-- The same, and the comparators. -/
def edgeKeeps (s t : State) : Prop := t.comps = s.comps ∧ edgeWords s t

section
variable {s t : State}

theorem edgeWords_of_regs (cmd : t.cmd = s.cmd) (regs : t.regs = s.regs) : edgeWords s t := by
  refine ⟨cmd, fun k _ => by rw [regs], fun n => ?_, fun b _ i _ => ?_⟩ <;>
    · rw [State.get, State.word, regs]
      rfl

theorem edgeWords.trans {u : State} (h : edgeWords s t) (h' : edgeWords t u) : edgeWords s u := by
  obtain ⟨cmd, low, cala, trail⟩ := h
  obtain ⟨cmd', low', cala', trail'⟩ := h'
  exact ⟨cmd'.trans cmd, fun k hk => (low' k hk).trans (low k hk), fun n => (cala' n).trans (cala n), fun b hb i hi => (trail' b hb i hi).trans (trail b hb i hi)⟩

theorem edgeKeeps_refl (s : State) : edgeKeeps s s := ⟨rfl, edgeWords_of_regs rfl rfl⟩

theorem edgeKeeps.trans {u : State} (h : edgeKeeps s t) (h' : edgeKeeps t u) : edgeKeeps s u := by
  obtain ⟨comps, words⟩ := h
  obtain ⟨comps', words'⟩ := h'
  exact ⟨comps'.trans comps, words.trans words'⟩

theorem edgeKeeps_of_regs (comps : t.comps = s.comps) (cmd : t.cmd = s.cmd) (regs : t.regs = s.regs) : edgeKeeps s t := ⟨comps, edgeWords_of_regs cmd regs⟩

theorem edgeKeeps.comp (h : edgeKeeps s t) (ci : Nat) : t.comp ci = s.comp ci := by
  obtain ⟨comps, -⟩ := h
  rw [State.comp, comps, State.comp]

/-- A field of a word below the second status word. -/
theorem edgeWords.get (h : edgeWords s t) (f : Field) (j : Nat) (hk : wkey f.obj f.sel j < wkey 3 21 0) : t.get f j = s.get f j := by
  obtain ⟨-, low, -⟩ := h
  exact congrArg (bits · f.hi f.lo) (low _ hk)

/-- Such a field for a device time. -/
theorem edgeWords.getFor (h : edgeWords s t) (f : Field) (j full : Nat) (hk : wkey f.obj f.sel j < wkey 3 21 0) : t.getFor f j full = s.getFor f j full := by
  obtain ⟨cmd, low, -⟩ := h
  have word : t.word f.obj f.sel j = s.word f.obj f.sel j := low _ hk
  rw [State.getFor, State.getFor, State.wordFor, State.wordFor, cmd, word]

/-- A write of a field in the second status word or behind it, beside the interpolators' states and the late trailing edges. -/
theorem edgeWords_put (s : State) (f : Field) (i v : Nat) (hf : f.lo ≤ f.hi ∧ f.hi < 61) (hk : wkey 3 21 0 ≤ wkey f.obj f.sel i) (beside : 15 < f.lo ∨ f.hi < 4) :
    edgeWords s (s.put f i v) := by
  refine ⟨State.put_cmd .., fun k hlow => mget_mset_ne' _ _ _ _ (by omega), fun n => ?_, fun b _ j _ => ?_⟩
  · exact State.get_put_disjoint s f F.cala_state i n v (by omega) (by decide) (by simp only [F.cala_state]; omega)
  · exact State.get_put_disjoint s f (F.pstb_late_trail.at b) i j v (by omega)
      (show F.pstb_late_trail.lo ≤ F.pstb_late_trail.hi ∧ F.pstb_late_trail.hi < 64 by decide) (by simp only [F.pstb_late_trail, Field.at]; omega)

/-- A write of a word of the tiles or the anchor's queues. -/
theorem edgeWords_put_far (s : State) (f : Field) (i v : Nat) (far : wkey 4 0 0 ≤ wkey f.obj f.sel i) (near : wkey f.obj f.sel i < wkey 33 0 0) :
    edgeWords s (s.put f i v) := by
  refine ⟨State.put_cmd .., fun k hlow => mget_mset_ne' _ _ _ _ ?_, fun n => ?_, fun b hb j hj => ?_⟩
  · simp only [wkey] at far hlow ⊢
    omega
  · exact State.get_put_ne s f F.cala_state i n v (by simp only [wkey, F.cala_state] at near ⊢; omega)
  · exact State.get_put_ne s f (F.pstb_late_trail.at b) i j v (by simp only [wkey, F.pstb_late_trail, Field.at] at far ⊢; omega)

theorem edgeKeeps.put (h : edgeKeeps s t) (f : Field) (i v : Nat) (hf : f.lo ≤ f.hi ∧ f.hi < 61) (hk : wkey 3 21 0 ≤ wkey f.obj f.sel i)
    (beside : 15 < f.lo ∨ f.hi < 4) : edgeKeeps s (t.put f i v) := h.trans ⟨State.put_comps .., edgeWords_put t f i v hf hk beside⟩

theorem edgeKeeps.putFar (h : edgeKeeps s t) (f : Field) (i v : Nat) (far : wkey 4 0 0 ≤ wkey f.obj f.sel i) (near : wkey f.obj f.sel i < wkey 33 0 0) :
    edgeKeeps s (t.put f i v) := h.trans ⟨State.put_comps .., edgeWords_put_far t f i v far near⟩

end

/-! ### A hit leaves -/

section
variable {s : State}

theorem edgeKeeps_dropPrec (s : State) {c : Nat} (hc : c < 2 ^ 23) : edgeKeeps s (dropPrec s c) := by
  refine (edgeKeeps_refl s).putFar F.qan_prec_drops (c / 2 ^ 20) _ ?_ ?_ <;>
    · simp only [wkey, F.qan_prec_drops]
      omega

theorem edgeKeeps_countShed (s : State) {c : Nat} (full level : Nat) (hc : c < 2 ^ 23) : edgeKeeps s (countShed s c full level) := by
  have near : ∀ sel, sel = 3 ∨ sel = 4 → wkey 4 0 0 ≤ wkey 4 sel (chanTile c) ∧ wkey 4 sel (chanTile c) < wkey 33 0 0 := by
    intro sel h
    simp only [wkey, chanTile]
    omega
  have counted : edgeKeeps s (match s.shedClass c full with
    | 0 => s.satInc F.tmb_shed_monitor (chanTile c) 1
    | 1 => s.satInc F.tmb_shed_stats (chanTile c) 1
    | _ => s.satInc F.tmcs_shed_protected (chanTile c) 1) := by
    obtain ⟨far, before⟩ := near 3 (.inl rfl)
    obtain ⟨far', before'⟩ := near 4 (.inr rfl)
    split
    · exact (edgeKeeps_refl s).putFar F.tmb_shed_monitor _ _ far before
    · exact (edgeKeeps_refl s).putFar F.tmb_shed_stats _ _ far before
    · exact (edgeKeeps_refl s).putFar F.tmcs_shed_protected _ _ far' before'
  exact counted.trans (edgeKeeps_of_regs rfl rfl rfl)

/-- A hit that leaves for its tile, or is discarded. -/
theorem edgeKeeps_sendPrec (s : State) {h : THit} (hc : h.chan < 2 ^ 23) : edgeKeeps s (sendPrec s h) := by
  unfold sendPrec
  extract_lets full tile level die q
  refine iteInduction (fun _ => edgeKeeps_dropPrec s hc) fun _ => iteInduction (fun _ => edgeKeeps_dropPrec s hc) fun _ => iteInduction (fun _ => ?_) fun _ =>
    iteInduction (fun _ => edgeKeeps_dropPrec s hc) fun _ => ?_
  · exact (edgeKeeps_countShed s full level hc).trans (edgeKeeps_dropPrec _ hc)
  · have queued : edgeKeeps s { s with anchorQ := mset [] s.anchorQ die (q ++ [h]) } := edgeKeeps_of_regs rfl rfl rfl
    have low : die < 8 := by
      simp only [die]
      omega
    refine queued.putFar F.qan_fill die _ ?_ ?_ <;>
      · simp only [wkey, F.qan_fill]
        omega

/-- A bound channel's number has 23 bits (R97). -/
theorem boundChanAt_lt {ci full c : Nat} (h : s.boundChanAt ci full = some c) : c < 2 ^ 23 := by
  unfold State.boundChanAt at h
  split at h
  · obtain rfl := Option.some.inj h
    exact bits_lt (show F.pcmp_chan_id.lo ≤ F.pcmp_chan_id.hi by decide) (show F.pcmp_chan_id.hi < 64 by decide)
  · cases h

/-! ### Interval mode -/

theorem edgeKeeps_setInp (s : State) (i : Nat) (x : Input) : edgeKeeps s (s.setInp i x) := edgeKeeps_of_regs rfl rfl rfl

theorem edgeKeeps_ivTimeout (s : State) (i : Nat) (a : IvEdge) (t : Int) (overRate : Bool) : edgeKeeps s (ivTimeout s i a t overRate) := by
  have counted : edgeKeeps s (s.satInc (F.pstb_ival_timeouts.at (a.comp % 2)) (a.comp / 2) 1) :=
    (edgeKeeps_refl s).put (F.pstb_ival_timeouts.at (a.comp % 2)) (a.comp / 2) _
      (show F.pstb_ival_timeouts.lo ≤ F.pstb_ival_timeouts.hi ∧ F.pstb_ival_timeouts.hi < 61 by decide) (by
        simp only [wkey, F.pstb_ival_timeouts, Field.at]
        omega) (.inl (show 15 < F.pstb_ival_timeouts.lo by decide))
  have disarmed := counted.trans (edgeKeeps_setInp _ i { (s.satInc (F.pstb_ival_timeouts.at (a.comp % 2)) (a.comp / 2) 1).inp i with armed := none })
  unfold ivTimeout
  dsimp only
  split
  · next c bound => exact disarmed.trans (edgeKeeps_sendPrec _ (boundChanAt_lt bound))
  · exact disarmed

theorem edgeKeeps_ivDone (s : State) (i : Nat) (a b : IvEdge) (ta tb : Int) : edgeKeeps s (ivDone s i a b ta tb) := by
  unfold ivDone
  dsimp only
  split
  · exact edgeKeeps_of_regs rfl rfl rfl
  · exact edgeKeeps_setInp s i _

theorem edgeKeeps_ivSettle (n : Nat) (s : State) (i : Nat) : edgeKeeps s (ivSettle n s i) := by
  induction n generalizing s with
  | zero => exact edgeKeeps_refl s
  | succ n ih =>
    have waits := fun x => (edgeKeeps_setInp s i x).trans (ih (s.setInp i x))
    unfold ivSettle
    dsimp only
    split
    · exact edgeKeeps_refl s
    · exact iteInduction (fun _ => waits _) fun _ => waits _
    · split
      · exact edgeKeeps_refl s
      · split
        · exact iteInduction (fun _ => edgeKeeps_ivTimeout ..) fun _ => edgeKeeps_refl s
        · split
          · exact edgeKeeps_refl s
          · have taken := edgeKeeps_setInp s i
            refine iteInduction (fun _ => (edgeKeeps_ivTimeout ..).trans (ih _)) fun _ => iteInduction (fun _ => ?_) fun _ => iteInduction (fun _ => ?_) fun _ => ?_
            · exact (taken _).trans ((edgeKeeps_ivTimeout ..).trans (ih _))
            · exact waits _
            · exact (taken _).trans ((edgeKeeps_ivDone ..).trans (ih _))

theorem edgeKeeps_foldl {α : Type} {f : State → α → State} (h : ∀ s a, edgeKeeps s (f s a)) (l : List α) (s : State) : edgeKeeps s (l.foldl f s) := by
  induction l generalizing s with
  | nil => exact edgeKeeps_refl s
  | cons a rest ih => exact (h s a).trans (ih (f s a))

theorem edgeKeeps_ivSettleAll (s : State) : edgeKeeps s (ivSettleAll s) := edgeKeeps_foldl (fun _ _ => edgeKeeps_ivSettle ..) s.inputs s

theorem edgeKeeps_ivEdge (s : State) (ci full edge : Nat) (time : Option Int) (flags : Nat) : edgeKeeps s (ivEdge s ci full edge time flags) := by
  refine edgeKeeps_foldl (fun b i => ?_) _ s
  dsimp only
  exact iteInduction (fun _ => iteInduction (fun _ => edgeKeeps_setInp ..) fun _ => iteInduction (fun _ => edgeKeeps_setInp ..) fun _ => edgeKeeps_refl b)
    fun _ => edgeKeeps_refl b

theorem edgeKeeps_ivOverRate (s : State) (ci dev : Nat) : edgeKeeps s (ivOverRate s ci dev) :=
  edgeKeeps.trans (edgeKeeps_of_regs rfl rfl rfl) (edgeKeeps_ivSettleAll _)

end

end Sys2Proof.Machine
end


section
/-! PROOF. An edge is merged or stamped (R78 to R80, R84 to R92). -/

namespace Sys2Proof.Machine

open Sys2Proof.Claims

/-! ### The raw transition -/

/-- The comparator's stamps are in `t` as in `s`, and so is what an edge reads of the words. -/
def edgeNotes (ci : Nat) (s t : State) : Prop :=
  edgeWords s t ∧ ∃ r n ws, t.comp ci = { s.comp ci with lastRaw := r, run := n, windows := ws }

theorem edgeKeeps_overRateNow (s : State) (ci v : Nat) : edgeKeeps s (s.put (F.pstb_over_rate_now.at (ci % 2)) (ci / 2) v) :=
  (edgeKeeps_refl s).put _ _ _ (show F.pstb_over_rate_now.lo ≤ F.pstb_over_rate_now.hi ∧ F.pstb_over_rate_now.hi < 61 by decide)
    (by
      simp only [wkey, F.pstb_over_rate_now, Field.at]
      omega) (.inr (show F.pstb_over_rate_now.hi < 4 by decide))

/-- A raw transition is noted with its window. -/
theorem rawTransition_notes (s : State) (ci raw dev : Nat) : edgeWords s (rawTransition s ci raw dev) ∧
    ∃ n ws, (rawTransition s ci raw dev).comp ci = { s.comp ci with lastRaw := some raw, run := n, windows := ws } := by
  unfold rawTransition
  extract_lets x close run w n kept ws noted mark old marked shown
  have words : edgeWords s noted := edgeWords_of_regs rfl rfl
  have comp : noted.comp ci = { s.comp ci with lastRaw := some raw, run := run, windows := ws } := State.comp_setComp ..
  split
  · have low := edgeKeeps_overRateNow noted ci 0
    exact ⟨words.trans low.2, run, ws, (low.comp ci).trans comp⟩
  · have high : edgeKeeps marked shown := edgeKeeps_overRateNow marked ci 1
    have over1 : edgeWords s shown := words.trans ((edgeWords_of_regs rfl rfl).trans high.2)
    have again : marked.comp ci = { s.comp ci with lastRaw := some raw, run := run, windows := mark (mark ws w) (windowOf (dev + Config.pairRes - 1)) } := by
      refine (State.comp_setComp ..).trans ?_
      rw [show old = _ from comp]
    have became := (high.comp ci).trans again
    split
    · have ends := edgeKeeps_ivOverRate shown ci dev
      exact ⟨over1.trans ends.2, run, _, (ends.comp ci).trans became⟩
    · exact ⟨over1, run, _, became⟩

/-- The state once a transition that counts has been noted. -/
def rawNoted (u : State) (ci raw dev : Nat) : State := if u.foreground ci u.full then rawTransition u ci raw dev else u

theorem edgeNotes_rawNoted (u : State) (ci raw dev : Nat) : edgeNotes ci u (rawNoted u ci raw dev) := by
  unfold rawNoted
  split
  · obtain ⟨words, n, ws, comp⟩ := rawTransition_notes u ci raw dev
    exact ⟨words, _, n, ws, comp⟩
  · exact ⟨edgeWords_of_regs rfl rfl, _, _, _, rfl⟩

theorem rawNoted_lastRaw {u : State} {ci raw dev : Nat} (counts : u.foreground ci u.full = true) : ((rawNoted u ci raw dev).comp ci).lastRaw = some raw := by
  obtain ⟨-, n, ws, comp⟩ := rawTransition_notes u ci raw dev
  rw [rawNoted, if_pos counts, comp]

/-! ### An edge that an open pulse waits for no longer -/

theorem before_frame (x : Comp) (dev : Nat) (r : Option Nat) (n : Nat) (ws : SMap Window) :
    Comp.before { x with lastRaw := r, run := n, windows := ws } dev = { x.before dev with lastRaw := r, run := n, windows := ws } := by
  unfold Comp.before
  dsimp only
  split
  · split <;> rfl
  · rfl

theorem before_slots (x : Comp) (dev : Nat) : (x.before dev).slots = x.slots := by
  unfold Comp.before
  split
  · split <;> rfl
  · rfl

theorem before_lastRaw (x : Comp) (dev : Nat) : (x.before dev).lastRaw = x.lastRaw := by
  unfold Comp.before
  split
  · split <;> rfl
  · rfl

theorem before_closed {x : Comp} (h : x.openPulse = none) (dev : Nat) : x.before dev = x := by
  unfold Comp.before
  rw [h]

theorem before_early {x : Comp} {e dev : Nat} (h : x.openPulse = some e) (early : dev ≤ e + 3276000) : x.before dev = x := by
  unfold Comp.before
  rw [h]
  exact if_neg (Nat.not_lt.mpr early)

theorem before_late {x : Comp} {e dev : Nat} (h : x.openPulse = some e) (late : e + 3276000 < dev) : x.before dev = x.timeOut e := by
  unfold Comp.before
  rw [h]
  exact if_pos late

/-! ### The slot -/

theorem freeSlot_congr {s t : State} {ci : Nat} (h : edgeNotes ci s t) (raw : Nat) : t.freeSlot ci raw = s.freeSlot ci raw := by
  obtain ⟨⟨-, -, cala, -⟩, r, n, ws, comp⟩ := h
  simp only [State.freeSlot, State.inService, cala, comp, Comp.slotFree]

theorem foreground_congr {s t : State} {ci : Nat} (h : edgeWords s t) (hci : ci < 128) (full : Nat) : t.foreground ci full = s.foreground ci full := by
  rw [State.foreground, State.cmpFor, h.getFor (F.pcmp_en.at (ci % 2)) (ci / 2) full (by simp only [wkey, F.pcmp_en, Field.at]; omega)]
  rfl

theorem stampAt_congr {s t : State} {ci : Nat} (h : edgeWords s t) (hci : ci < 128) (full position : Nat) : t.stampAt ci full position = s.stampAt ci full position := by
  rw [State.stampAt, State.piOffset, State.cmpFor, h.getFor (F.pcmp_pi_offset.at (ci % 2)) (ci / 2) full (by simp only [wkey, F.pcmp_pi_offset, Field.at]; omega)]
  rfl

/-- A stamp without a slot is counted where its comparator is enabled (R79). -/
def coarseCounted (s : State) (ci raw full : Nat) : State :=
  if (s.freeSlot ci raw).isNone && s.foreground ci full then s.satInc (F.psta_coarse_only.at (ci % 2)) (ci / 2) 1 else s

/-- The comparator once the edge has its slot. -/
def slotTaken (s : State) (ci raw dev : Nat) (leading dist : Bool) : Comp :=
  match s.freeSlot ci raw with
  | some k =>
    { (s.comp ci).before dev with
      lastStamped := some raw
      lastTrail := !leading
      nextSlot := (k + 1) % 4
      slots := mset [] ((s.comp ci).before dev).slots k (mget [] ((s.comp ci).before dev).slots k ++ [({ edge := dev, raw := raw, disturbed := dist } : InConv)]) }
  | none => { (s.comp ci).before dev with lastStamped := some raw, lastTrail := !leading }

/-- The stamp of the edge. -/
def stampOf (s : State) (ci raw dev : Nat) (leading tot dist od : Bool) : Stamp :=
  { edge := dev
    time := if (s.freeSlot ci raw).isNone then some (s.stampAt ci (dev / 102400) 8192) else none
    slot := (s.freeSlot ci raw).getD 4
    lead := leading
    pulse := if leading && tot then .opened else .none
    coarseOnly := (s.freeSlot ci raw).isNone
    disturbed := dist
    overdrive := od
    merged := false }

section
variable (s : State) (ci raw dev : Nat) (leading dist : Bool)

theorem slotTaken_held : (slotTaken s ci raw dev leading dist).held = ((s.comp ci).before dev).held := by
  unfold slotTaken
  split <;> rfl

theorem slotTaken_openPulse : (slotTaken s ci raw dev leading dist).openPulse = ((s.comp ci).before dev).openPulse := by
  unfold slotTaken
  split <;> rfl

theorem slotTaken_lastStamped : (slotTaken s ci raw dev leading dist).lastStamped = some raw := by
  unfold slotTaken
  split <;> rfl

theorem slotTaken_lastRaw : (slotTaken s ci raw dev leading dist).lastRaw = (s.comp ci).lastRaw := by
  unfold slotTaken
  split <;> exact before_lastRaw ..

theorem slotTaken_slots {k : Nat} (h : s.freeSlot ci raw = some k) : mget [] (slotTaken s ci raw dev leading dist).slots k =
    mget [] (s.comp ci).slots k ++ [{ edge := dev, raw := raw, disturbed := dist }] := by
  unfold slotTaken
  rw [h]
  dsimp only
  rw [mget_mset_self, before_slots]

end

/-- The edge with its stamp, in each of its cases. -/
theorem stampEdge_cases (s : State) (ci raw dev : Nat) (leading : Bool) : ∃ tot dist od,
    let c := coarseCounted s ci raw (dev / 102400)
    let x := slotTaken s ci raw dev leading dist
    let st := stampOf s ci raw dev leading tot dist od
    (leading = true → ∃ p, edgeKeeps (c.setComp ci { x with held := x.held ++ [st], openPulse := p }) (stampEdge s ci raw dev leading)) ∧
      (leading = false → ∀ e, x.openPulse = some e → (x.held.any fun h => h.edge = e) = true → stampEdge s ci raw dev leading =
        c.setComp ci { (editStamp x e fun h => { h with pulse := .closed dev }) with held := (editStamp x e fun h => { h with pulse := .closed dev }).held ++ [st], openPulse := none }) ∧
      (leading = false → ∀ e, x.openPulse = some e → (x.held.any fun h => h.edge = e) = false → stampEdge s ci raw dev leading = c.setComp ci { x with openPulse := none }) ∧
      (leading = false → x.openPulse = none → stampEdge s ci raw dev leading = (c.setComp ci x).satInc (F.pstb_late_trail.at (ci % 2)) (ci / 2) 1) := by
  generalize e : stampEdge s ci raw dev leading = t
  unfold stampEdge at e
  extract_lets full i x0 slot coarse time c od g dist routed tot st x1 x at e
  refine ⟨tot, dist, od, ?_⟩
  have counted : coarseCounted s ci raw (dev / 102400) = c := rfl
  have stamp : stampOf s ci raw dev leading tot dist od = st := rfl
  have taken : slotTaken s ci raw dev leading dist = x := rfl
  rw [counted, stamp, taken]
  clear_value c st x
  subst e
  refine ⟨fun lead => ?_, fun trail e opened here => ?_, fun trail e opened away => ?_, fun trail closed => ?_⟩
  · rw [if_pos lead]
    refine ⟨if tot then some dev else none, iteInduction (fun _ => edgeKeeps_refl _) fun _ => ?_⟩
    exact (edgeKeeps_ivEdge ..).trans (edgeKeeps_ivSettleAll _)
  · rw [if_neg (by simp [trail])]
    simp only [opened]
    exact if_pos here
  · rw [if_neg (by simp [trail])]
    simp only [opened]
    exact if_neg (by simp [away])
  · rw [if_neg (by simp [trail])]
    simp only [closed]
    rfl

/-! ### What a stamped edge leaves -/

/-- A counter after more. -/
theorem satInc_get_self (s : State) (f : Field) (i n : Nat) (h1 : f.lo ≤ f.hi) (h2 : f.hi < 64) : (s.satInc f i n).get f i = plus s f i n :=
  (State.get_put_self s f i _ h1 h2).trans (Nat.mod_eq_of_lt satAdd_lt)

section
variable {s : State} {ci raw dev : Nat} {leading : Bool}

/-- Counting a late trailing edge leaves the comparators, and the words below the second status word. -/
theorem lateTrail_keeps_low (s : State) (hci : ci < 128) : (s.satInc (F.pstb_late_trail.at (ci % 2)) (ci / 2) 1).comps = s.comps ∧
    ∀ k < wkey 3 21 0, regGet (s.satInc (F.pstb_late_trail.at (ci % 2)) (ci / 2) 1).regs k = regGet s.regs k := by
  refine ⟨State.satInc_comps .., fun k hk => mget_mset_ne' _ _ _ _ ?_⟩
  simp only [wkey, F.pstb_late_trail, Field.at] at hk ⊢
  omega

/-- A stamped edge is the last one stamped, with its slot taken; the words below the second status word are those of the count of COARSE_ONLY. -/
theorem stampEdge_takes (s : State) (ci raw dev : Nat) (leading : Bool) (hci : ci < 128) : ∃ tot dist od,
    let x := slotTaken s ci raw dev leading dist
    let st := stampOf s ci raw dev leading tot dist od
    let t := stampEdge s ci raw dev leading
    (t.comp ci).lastStamped = some raw ∧ (t.comp ci).lastRaw = (s.comp ci).lastRaw ∧ (t.comp ci).slots = x.slots ∧
      (∀ k < wkey 3 21 0, regGet t.regs k = regGet (coarseCounted s ci raw (dev / 102400)).regs k) ∧
      (leading = true → (t.comp ci).held = x.held ++ [st]) ∧
      (∀ e, leading = false → x.openPulse = some e → (x.held.any fun h => h.edge = e) = true →
        (t.comp ci).openPulse = none ∧ (t.comp ci).held = (x.held.map fun h => if h.edge = e then { h with pulse := .closed dev } else h) ++ [st]) ∧
      (leading = false → x.openPulse = none → (t.comp ci).held = x.held ∧ t.get (F.pstb_late_trail.at (ci % 2)) (ci / 2) =
        plus (coarseCounted s ci raw (dev / 102400)) (F.pstb_late_trail.at (ci % 2)) (ci / 2) 1) := by
  obtain ⟨tot, dist, od, lead, closes, strays, late⟩ := stampEdge_cases s ci raw dev leading
  refine ⟨tot, dist, od, ?_⟩
  have stamped := slotTaken_lastStamped s ci raw dev leading dist
  have last := slotTaken_lastRaw s ci raw dev leading dist
  generalize coarseCounted s ci raw (dev / 102400) = c at lead closes strays late ⊢
  generalize slotTaken s ci raw dev leading dist = x at lead closes strays late stamped last ⊢
  cases leading with
  | true =>
    obtain ⟨p, keeps⟩ := lead rfl
    have comp := (keeps.comp ci).trans (State.comp_setComp ..)
    obtain ⟨-, -, low, -⟩ := keeps
    refine ⟨by rw [comp]; exact stamped, by rw [comp]; exact last, by rw [comp], low, fun _ => by rw [comp], fun _ no => Bool.noConfusion no, fun no => Bool.noConfusion no⟩
  | false =>
    cases opened : x.openPulse with
    | none =>
      obtain ⟨comps, low⟩ := lateTrail_keeps_low (c.setComp ci x) hci
      have e := late rfl opened
      have comp : (stampEdge s ci raw dev false).comp ci = x := by
        rw [e, State.comp, comps]
        exact State.comp_setComp ..
      refine ⟨by rw [comp]; exact stamped, by rw [comp]; exact last, by rw [comp], ?_, fun no => Bool.noConfusion no,
        fun _ _ no => absurd (no.symm.trans opened) (Option.some_ne_none _), fun _ _ => ⟨by rw [comp], ?_⟩⟩
      · rw [e]
        exact low
      · rw [e]
        exact satInc_get_self _ _ _ _ (show F.pstb_late_trail.lo ≤ F.pstb_late_trail.hi by decide) (show F.pstb_late_trail.hi < 64 by decide)
    | some e =>
      cases here : x.held.any fun h => h.edge = e with
      | true =>
        have made := closes rfl e opened here
        have comp := (congrArg (State.comp · ci) made).trans (State.comp_setComp ..)
        dsimp only at comp
        refine ⟨by rw [comp]; exact stamped, by rw [comp]; exact last, by rw [comp]; rfl, fun k _ => by rw [made]; rfl, fun no => Bool.noConfusion no, fun q _ same _ => ?_,
          fun _ no => absurd (opened.symm.trans no) (Option.some_ne_none _)⟩
        obtain rfl := Option.some.inj (opened.symm.trans same)
        rw [comp]
        exact ⟨rfl, rfl⟩
      | false =>
        have made := strays rfl e opened here
        have comp := (congrArg (State.comp · ci) made).trans (State.comp_setComp ..)
        refine ⟨by rw [comp]; exact stamped, by rw [comp]; exact last, by rw [comp], fun k _ => by rw [made]; rfl, fun no => Bool.noConfusion no, fun q _ same there => ?_,
          fun _ no => absurd (opened.symm.trans no) (Option.some_ne_none _)⟩
        obtain rfl := Option.some.inj (opened.symm.trans same)
        rw [here] at there
        cases there

/-! ### A merged edge -/

theorem ivFlag_comp (s : State) (ci : Nat) (at1 : Nat → Bool) (merged : Bool) (flag j : Nat) : (ivFlag s ci at1 merged flag).comp j = s.comp j := rfl

theorem ivFlag_get (s : State) (ci : Nat) (at1 : Nat → Bool) (merged : Bool) (flag : Nat) (f : Field) (j : Nat) :
    (ivFlag s ci at1 merged flag).get f j = s.get f j := rfl

theorem satInc_comp (s : State) (f : Field) (i n j : Nat) : (s.satInc f i n).comp j = s.comp j := by rw [State.comp, State.satInc_comps, State.comp]

/-- A merged edge marks stamps and is counted; it adds none. -/
theorem mergeEdge_keeps (s : State) (ci : Nat) (leading : Bool) (lastDev : Nat) : ((mergeEdge s ci leading lastDev).comp ci).lastStamped = (s.comp ci).lastStamped ∧
    ((mergeEdge s ci leading lastDev).comp ci).lastRaw = (s.comp ci).lastRaw ∧ ((mergeEdge s ci leading lastDev).comp ci).held.length = (s.comp ci).held.length ∧
    (mergeEdge s ci leading lastDev).get (F.psta_merged.at (ci % 2)) (ci / 2) = plus s (F.psta_merged.at (ci % 2)) (ci / 2) 1 := by
  unfold mergeEdge
  extract_lets counted flagged x marked
  have comp : x = s.comp ci := (ivFlag_comp ..).trans (satInc_comp ..)
  have count : flagged.get (F.psta_merged.at (ci % 2)) (ci / 2) = plus s (F.psta_merged.at (ci % 2)) (ci / 2) 1 :=
    (ivFlag_get ..).trans (satInc_get_self s _ _ _ (show F.psta_merged.lo ≤ F.psta_merged.hi by decide) (show F.psta_merged.hi < 64 by decide))
  have length : marked.held.length = x.held.length := List.length_map ..
  have set : ∀ y : Comp, y.lastStamped = x.lastStamped → y.lastRaw = x.lastRaw → y.held.length = x.held.length →
      ((flagged.setComp ci y).comp ci).lastStamped = (s.comp ci).lastStamped ∧ ((flagged.setComp ci y).comp ci).lastRaw = (s.comp ci).lastRaw ∧
        ((flagged.setComp ci y).comp ci).held.length = (s.comp ci).held.length ∧
        (flagged.setComp ci y).get (F.psta_merged.at (ci % 2)) (ci / 2) = plus s (F.psta_merged.at (ci % 2)) (ci / 2) 1 := by
    intro y stamped raw held
    rw [State.comp_setComp, State.setComp_get, ← comp]
    exact ⟨stamped, raw, held, count⟩
  split
  · exact set marked rfl rfl length
  · split
    · exact set _ rfl rfl ((List.length_map ..).trans length)
    · exact set marked rfl rfl length

end

end Sys2Proof.Machine
end


section
/-! PROOF. A comparator's transition, the end of a stamp's hold, and the end of over rate (R72 to R91). -/

namespace Sys2Proof.Machine

open Sys2Proof.Claims

/-! ### A transition -/

/-- What a selected transition makes of the state that has taken note of it. -/
def edgeTaken (u : State) (ci raw dev : Nat) (leading : Bool) : State :=
  match ((rawNoted u ci raw dev).comp ci).lastStamped with
  | some l =>
    if u.foreground ci u.full && decide (raw < l + 196608) then mergeEdge (rawNoted u ci raw dev) ci leading (dev - (raw - l))
    else stampEdge (rawNoted u ci raw dev) ci raw dev leading
  | none => stampEdge (rawNoted u ci raw dev) ci raw dev leading

section
variable {ci : Nat} {s : State}

theorem exec_transition_dead (dead : s.inputLive (ci / 2) = false) (rising : Bool) (edge : Nat) : exec (.comparatorTransition ci rising edge) s = .next s :=
  if_pos (by rw [dead]; simp)

theorem exec_transition_live (hci : ci < 128) (live : s.inputLive (ci / 2) = true) (rising : Bool) (edge : Nat) :
    exec (.comparatorTransition ci rising edge) s =
      match (advanceTo s (edge / 102400)).selects ci (advanceTo s (edge / 102400)).full rising with
      | none => .next (advanceTo s (edge / 102400))
      | some leading => .next (edgeTaken (advanceTo s (edge / 102400)) ci (max edge ((advanceTo s (edge / 102400)).tb.tick * 102400))
        ((advanceTo s (edge / 102400)).full * 102400 + (max edge ((advanceTo s (edge / 102400)).tb.tick * 102400) - (advanceTo s (edge / 102400)).tb.tick * 102400)) leading) := by
  show execComparatorTransition ci rising edge s = _
  rw [execComparatorTransition]
  refine (if_neg (by rw [live]; simp; omega)).trans ?_
  have tick : Config.edgeTick = 102400 := rfl
  rw [tick]
  generalize advanceTo s (edge / 102400) = u
  dsimp only
  cases u.selects ci u.full rising with
  | none => rfl
  | some leading =>
    generalize max edge (u.tb.tick * 102400) = raw
    generalize u.full * 102400 + (raw - u.tb.tick * 102400) = dev
    unfold edgeTaken rawNoted
    dsimp only
    generalize (if u.foreground ci u.full = true then rawTransition u ci raw dev else u) = c
    cases (c.comp ci).lastStamped with
    | none => rfl
    | some l => exact (apply_ite Host.Outcome.next ..).symm

end

/-- The tick that holds an edge is the present one. -/
theorem edge_tick {full tick edge : Nat} (h : edge / 102400 ≤ tick) : (full * 102400 + (max edge (tick * 102400) - tick * 102400)) / 102400 = full := by
  omega

section
variable {u c : State} {ci raw dev : Nat} {leading : Bool}

theorem plus_congr {s t : State} {f : Field} {i : Nat} (h : t.get f i = s.get f i) (n : Nat) : plus t f i n = plus s f i n := by
  rw [plus, h, plus]

theorem plus_zero (s : State) (f : Field) (i : Nat) (h1 : f.lo ≤ f.hi) (h2 : f.hi < 64) : plus s f i 0 = s.get f i := by
  rw [plus, satAdd, Nat.add_zero, if_pos]
  exact bits_lt h1 h2

/-- The count of COARSE_ONLY once an edge without a slot has been stamped (R79). -/
theorem coarseCounted_get (s : State) (full : Nat) (none : s.freeSlot ci raw = none) :
    (coarseCounted s ci raw full).get (F.psta_coarse_only.at (ci % 2)) (ci / 2) = plus s (F.psta_coarse_only.at (ci % 2)) (ci / 2) (b2n (s.foreground ci full)) := by
  have low : (F.psta_coarse_only.at (ci % 2)).lo ≤ (F.psta_coarse_only.at (ci % 2)).hi := show F.psta_coarse_only.lo ≤ F.psta_coarse_only.hi by decide
  have high : (F.psta_coarse_only.at (ci % 2)).hi < 64 := show F.psta_coarse_only.hi < 64 by decide
  rw [coarseCounted, none]
  cases s.foreground ci full with
  | true => exact satInc_get_self _ _ _ _ low high
  | false => exact (plus_zero s _ _ low high).symm

/-- Counting COARSE_ONLY leaves the late trailing edges. -/
theorem coarseCounted_lateTrail (s : State) (full : Nat) :
    (coarseCounted s ci raw full).get (F.pstb_late_trail.at (ci % 2)) (ci / 2) = s.get (F.pstb_late_trail.at (ci % 2)) (ci / 2) := by
  unfold coarseCounted
  split
  · exact State.get_put_ne s (F.psta_coarse_only.at (ci % 2)) _ _ _ _ (by
      simp only [wkey, F.psta_coarse_only, F.pstb_late_trail, Field.at]
      omega)
  · rfl

theorem notes_before (h : edgeNotes ci u c) (dev : Nat) :
    ((c.comp ci).before dev).held = ((u.comp ci).before dev).held ∧ ((c.comp ci).before dev).openPulse = ((u.comp ci).before dev).openPulse := by
  obtain ⟨-, r, n, ws, comp⟩ := h
  rw [comp, before_frame]
  exact ⟨rfl, rfl⟩

theorem notes_lastStamped (h : edgeNotes ci u c) : (c.comp ci).lastStamped = (u.comp ci).lastStamped := by
  obtain ⟨-, r, n, ws, comp⟩ := h
  rw [comp]

theorem notes_held (h : edgeNotes ci u c) : (c.comp ci).held = (u.comp ci).held := by
  obtain ⟨-, r, n, ws, comp⟩ := h
  rw [comp]

theorem notes_slots (h : edgeNotes ci u c) : (c.comp ci).slots = (u.comp ci).slots := by
  obtain ⟨-, r, n, ws, comp⟩ := h
  rw [comp]

theorem edgeTaken_stamped (apart : ∀ l, u.foreground ci u.full = true → (u.comp ci).lastStamped = some l → l + 196608 ≤ raw) :
    edgeTaken u ci raw dev leading = stampEdge (rawNoted u ci raw dev) ci raw dev leading := by
  unfold edgeTaken
  rw [notes_lastStamped (edgeNotes_rawNoted u ci raw dev)]
  split
  · next l stamped =>
    refine if_neg fun close => ?_
    obtain ⟨counts, near⟩ := Bool.and_eq_true_iff.mp close
    have far := apart l counts stamped
    have near := of_decide_eq_true near
    omega
  · rfl

theorem edgeTaken_merged {l : Nat} (counts : u.foreground ci u.full = true) (stamped : (u.comp ci).lastStamped = some l) (near : raw < l + 196608) :
    edgeTaken u ci raw dev leading = mergeEdge (rawNoted u ci raw dev) ci leading (dev - (raw - l)) := by
  unfold edgeTaken
  rw [notes_lastStamped (edgeNotes_rawNoted u ci raw dev), stamped]
  exact if_pos (by rw [counts, decide_eq_true near]; rfl)

/-- A selected transition that counts is the last raw one. -/
theorem edgeTaken_lastRaw (hci : ci < 128) (counts : u.foreground ci u.full = true) : ((edgeTaken u ci raw dev leading).comp ci).lastRaw = some raw := by
  have noted := rawNoted_lastRaw (raw := raw) (dev := dev) counts
  unfold edgeTaken
  have stamped : ((stampEdge (rawNoted u ci raw dev) ci raw dev leading).comp ci).lastRaw = some raw := by
    obtain ⟨tot, dist, od, -, last, -⟩ := stampEdge_takes (rawNoted u ci raw dev) ci raw dev leading hci
    exact last.trans noted
  split
  · split
    · obtain ⟨-, last, -⟩ := mergeEdge_keeps (rawNoted u ci raw dev) ci leading (dev - (raw - _))
      exact last.trans noted
    · exact stamped
  · exact stamped

/-- The stamp of an edge with a slot, and of one without (R75, R79). -/
theorem stampOf_eq (s : State) (ci raw dev : Nat) (leading tot dist od : Bool) :
    (∀ k, s.freeSlot ci raw = some k → (stampOf s ci raw dev leading tot dist od).slot = k ∧ (stampOf s ci raw dev leading tot dist od).time = none ∧
      (stampOf s ci raw dev leading tot dist od).coarseOnly = false) ∧
      (s.freeSlot ci raw = none → (stampOf s ci raw dev leading tot dist od).time = some (s.stampAt ci (dev / 102400) 8192) ∧
        (stampOf s ci raw dev leading tot dist od).coarseOnly = true) := by
  refine ⟨fun k slot => ?_, fun full => ?_⟩
  · simp [stampOf, slot]
  · simp [stampOf, full]

end

/-! ### The end of a hold -/

theorem monitorStamp_comp (s : State) (r t : Nat) (d : Bool) (ci : Nat) : (monitorStamp s r t d).comp ci = s.comp ci := rfl

theorem releaseHeld_empty (n : Nat) {s : State} {ci : Nat} (h : (s.comp ci).held = []) : releaseHeld n s ci = s := by
  cases n with
  | zero => rfl
  | succ n =>
    unfold releaseHeld
    dsimp only
    rw [h]

/-- The stamps of the pulse that leaves with its leading stamp are held no longer. -/
def goneWith (st : Stamp) (rest : List Stamp) : List Stamp :=
  match st.pulse with
  | .closed e => rest.filter fun h => !(h.edge = e && !h.lead)
  | _ => rest

section
variable {s : State} {ci : Nat} {st : Stamp} {rest : List Stamp} (held : (s.comp ci).held = st :: rest) (lead : st.lead = true)
  (may : s.releasable (s.comp ci) st = true)
include held lead may

/-- The oldest held stamp, a leading one that may go, leaves. -/
theorem releaseHeld_leading (n : Nat) : releaseHeld (n + 1) s ci =
    if s.routed (ci / 2) (st.edge / 102400) then
      match st.time with
      | some t => releaseHeld n (monitorStamp (s.setComp ci { s.comp ci with held := goneWith st rest }) (ci / 2 - 60) (precTime t) st.disturbed) ci
      | none => releaseHeld n (s.setComp ci { s.comp ci with held := goneWith st rest }) ci
    else match s.boundChanAt ci (st.edge / 102400) with
      | some c => releaseHeld n (sendPrec (s.setComp ci { s.comp ci with held := goneWith st rest }) (st.hit (s.comp ci) c)) ci
      | none => releaseHeld n (s.setComp ci { s.comp ci with held := goneWith st rest }) ci := by
  have leading : ¬((!st.lead) = true) := by rw [lead]; decide
  conv_lhs => unfold releaseHeld
  dsimp only
  rw [held]
  dsimp only
  rw [if_neg leading, if_pos may]
  rfl

variable (alone : goneWith st rest = [])
include alone

/-- The only stamp of an input routed to a reference leaves for the monitor (R41). -/
theorem releaseHeld_routed (n : Nat) {τ : Int} (time : st.time = some τ) (routed : s.routed (ci / 2) (st.edge / 102400) = true) : releaseHeld (n + 1) s ci =
    monitorStamp (s.setComp ci { s.comp ci with held := [] }) (ci / 2 - 60) (ofSigned 80 τ) st.disturbed := by
  rw [releaseHeld_leading held lead may, if_pos routed, time, alone]
  exact releaseHeld_empty n (by rw [monitorStamp_comp, State.comp_setComp])

/-- The only stamp, or pulse, of a bound comparator leaves for its channel. -/
theorem releaseHeld_bound (n : Nat) {c : Nat} (routed : s.routed (ci / 2) (st.edge / 102400) = false) (bound : s.boundChanAt ci (st.edge / 102400) = some c) :
    releaseHeld (n + 1) s ci = sendPrec (s.setComp ci { s.comp ci with held := [] }) (st.hit (s.comp ci) c) := by
  have low : (st.hit (s.comp ci) c).chan = c := by
    unfold Stamp.hit
    dsimp only
    split
    · rfl
    · rfl
    · split <;> rfl
    · rfl
  have sent := edgeKeeps_sendPrec (s.setComp ci { s.comp ci with held := [] }) (h := st.hit (s.comp ci) c) (by rw [low]; exact boundChanAt_lt bound)
  rw [releaseHeld_leading held lead may, if_neg (by rw [routed]; decide), bound, alone]
  exact releaseHeld_empty n (by rw [sent.comp, State.comp_setComp])

end

theorem advanceFull_comp (s : State) (n ci : Nat) : (advanceFull s n).comp ci = s.comp ci := by rw [State.comp, advanceFull_comps, State.comp]

/-- The end of the hold of a comparator's oldest stamp. -/
theorem exec_stampRelease {s : State} {ci : Nat} {st : Stamp} {rest : List Stamp} (held : (s.comp ci).held = st :: rest) (full : Nat)
    (last : max (match st.pulse with
      | .closed e => holdEnd e
      | _ => holdEnd st.edge) (holdEnd st.edge) = full) :
    exec (.stampRelease ci) s = .next (releaseHeld (rest.length + 2) (advanceFull s full) ci) := by
  subst last
  show execStampRelease ci s = _
  unfold execStampRelease
  rw [held]
  dsimp only
  rw [advanceFull_comp, held]
  rfl

/-- A stamp of no pulse, or of one that has timed out or merged, may go when its own hold ends. -/
theorem releasable_single {s : State} {ci : Nat} {st : Stamp} {τ : Int} (pulse : st.pulse = .none ∨ st.pulse = .timedOut ∨ st.pulse = .mergedTrail)
    (time : st.time = some τ) (past : s.pastHold st.edge = true)
    (clear : (s.comp ci).clear st.edge = true) : s.releasable (s.comp ci) st = true := by
  obtain e | e | e := pulse <;>
    · unfold State.releasable
      rw [e, time, past, clear]
      rfl

/-- The hit that a stamp is delivered as, less what its pulse gives it. -/
def bareHit (st : Stamp) (τ : Int) (c : Nat) : THit :=
  { chan := c, time := ofSigned 80 τ, tot := 0, flags := 4 * b2n st.coarseOnly + 2 * b2n st.disturbed + b2n st.overdrive, merged := st.merged,
    overRate := false, timeout := false, transitions := 0, src := 1024, frame := 0, mirage := 0, ref := 0 }

theorem hit_single {x : Comp} {st : Stamp} {τ : Int} (pulse : st.pulse = .none ∨ st.pulse = .timedOut ∨ st.pulse = .mergedTrail) (time : st.time = some τ) (c : Nat) :
    st.hit x c = if st.pulse = .timedOut then { bareHit st τ c with tot := 4095 } else bareHit st τ c := by
  obtain e | e | e := pulse <;>
    · unfold Stamp.hit
      rw [e, time]
      rfl

/-- The pulse of two stamps that are all a comparator holds. -/
theorem trail_of_pair {x : Comp} {st tr : Stamp} (held : x.held = [st, tr]) (lead : st.lead = true) (trail : tr.lead = false) : x.trail tr.edge = some tr := by
  rw [Comp.trail, held]
  simp [lead, trail]

theorem hit_pair {x : Comp} {st tr : Stamp} {τ τ' : Int} (held : x.held = [st, tr]) (lead : st.lead = true) (trail : tr.lead = false) (closed : st.pulse = .closed tr.edge)
    (time : st.time = some τ) (time' : tr.time = some τ') (c : Nat) : st.hit x c =
      { bareHit st τ c with
        tot := min 4095 (roundHalfUp (τ' - τ) 8).toNat
        flags := Nat.lor (bareHit st τ c).flags (4 * b2n tr.coarseOnly + 2 * b2n tr.disturbed + b2n tr.overdrive) } := by
  unfold Stamp.hit
  rw [closed, time]
  dsimp only
  rw [trail_of_pair held lead trail]
  dsimp only
  rw [time']
  rfl

theorem releasable_pair {s : State} {x : Comp} {st tr : Stamp} {τ τ' : Int} (held : x.held = [st, tr]) (lead : st.lead = true) (trail : tr.lead = false)
    (closed : st.pulse = .closed tr.edge) (time : st.time = some τ) (time' : tr.time = some τ') (past : s.pastHold st.edge = true) (past' : s.pastHold tr.edge = true)
    (clear : x.clear st.edge = true) (clear' : x.clear tr.edge = true) : s.releasable x st = true := by
  unfold State.releasable
  rw [closed]
  dsimp only
  rw [trail_of_pair held lead trail, time, past, past', clear, clear']
  dsimp only
  rw [time']
  rfl

/-! ### Over rate ends -/

/-- The tick at which over rate ends, 1.2 ns after a transition (R84). -/
theorem overRate_tick (r : Nat) : ceilDiv (r + Config.pairRes) Config.edgeTick = (r + 196608 + 102399) / 102400 := by
  have pair : Config.pairRes = 196608 := rfl
  have tick : Config.edgeTick = 102400 := rfl
  rw [pair, tick, ceilDiv]
  omega

theorem exec_overRateEnd {ci r : Nat} {s : State} (hci : ci < 128) (last : (s.comp ci).lastRaw = some r) (run : 16 ≤ (s.comp ci).run) : exec (.overRateEnd ci) s =
    .next (((advanceTo s ((r + 196608 + 102399) / 102400)).setComp ci { s.comp ci with run := 0 }).put (F.pstb_over_rate_now.at (ci % 2)) (ci / 2) 0) := by
  show execOverRateEnd ci s = _
  unfold execOverRateEnd
  dsimp only
  rw [last]
  dsimp only
  rw [overRate_tick]
  exact if_pos (by simp [hci, run])

end Sys2Proof.Machine

namespace Sys2Proof

open Sys2Proof.Machine Sys2Proof.Claims

/-- Settles O32: by what taking note of a transition leaves alone, the cases of a stamped and of a merged edge, and the one stamp or pulse that leaves at the
end of its hold. -/
theorem edgesAreStampedAndReleased : Obligations.EdgesAreStampedAndReleased := by
  refine ⟨?_, ?_, ?_⟩
  · intro ci edge rising s hci u raw dev x
    refine ⟨fun dead => exec_transition_dead dead rising edge, fun live unselected => ?_, fun leading live selected => ?_⟩
    · have made := exec_transition_live hci live rising edge
      rw [show (advanceTo s (edge / 102400)).selects ci (advanceTo s (edge / 102400)).full rising = none from unselected] at made
      exact made
    · intro y counts
      have made := exec_transition_live hci live rising edge
      rw [show (advanceTo s (edge / 102400)).selects ci (advanceTo s (edge / 102400)).full rising = some leading from selected] at made
      have tick : dev / 102400 = u.full := edge_tick (by
        show edge / 102400 ≤ (advanceTo s (edge / 102400)).tb.tick
        rw [advanceTo_tick]
        omega)
      refine ⟨edgeTaken u ci raw dev leading, made, edgeTaken_lastRaw hci, fun apart => ?_, fun l counted stamped near => ?_⟩
      · rw [edgeTaken_stamped apart]
        have notes := edgeNotes_rawNoted u ci raw dev
        generalize rawNoted u ci raw dev = c at notes ⊢
        have ⟨words, _⟩ := notes
        obtain ⟨tot, dist, od, stamped, -, slots, low, lead, closes, late⟩ := stampEdge_takes c ci raw dev leading hci
        have slot := freeSlot_congr notes raw
        obtain ⟨heldSame, openSame⟩ := notes_before notes dev
        rw [slotTaken_held, heldSame] at lead closes late
        rw [slotTaken_openPulse, openSame] at closes late
        obtain ⟨timed, coarse⟩ := stampOf_eq c ci raw dev leading tot dist od
        rw [slot] at timed coarse
        rw [stampAt_congr words hci] at coarse
        refine ⟨stamped, fun k free => ⟨dist, ?_⟩, fun none => ?_, stampOf c ci raw dev leading tot dist od, rfl, rfl, timed, coarse, lead, closes,
          fun e opened => ⟨before_early opened, fun past => ?_⟩, fun closed => before_closed closed dev, fun trail closed => ?_⟩
        · rw [slots, slotTaken_slots c ci raw dev leading dist (slot.trans free), notes_slots notes]
        · have key : wkey (F.psta_coarse_only.at (ci % 2)).obj (F.psta_coarse_only.at (ci % 2)).sel (ci / 2) < wkey 3 21 0 := by
            simp only [wkey, F.psta_coarse_only, Field.at]
            omega
          have same : (stampEdge c ci raw dev leading).get (F.psta_coarse_only.at (ci % 2)) (ci / 2) =
              (coarseCounted c ci raw (dev / 102400)).get (F.psta_coarse_only.at (ci % 2)) (ci / 2) := congrArg (bits · _ _) (low _ key)
          rw [same, coarseCounted_get c _ (slot.trans none), plus_congr (words.get _ _ key), foreground_congr words hci, tick]
        · rw [show y = x.timeOut e from before_late opened past]
          exact ⟨rfl, rfl⟩
        · obtain ⟨kept, count⟩ := late trail closed
          obtain ⟨-, -, -, trails⟩ := words
          exact ⟨kept, count.trans (plus_congr ((coarseCounted_lateTrail c _).trans (trails _ (by omega) _ (by omega))) 1)⟩
      · rw [edgeTaken_merged counted stamped near]
        have notes := edgeNotes_rawNoted u ci raw dev
        obtain ⟨last, -, length, count⟩ := mergeEdge_keeps (rawNoted u ci raw dev) ci leading (dev - (raw - l))
        have key : wkey (F.psta_merged.at (ci % 2)).obj (F.psta_merged.at (ci % 2)).sel (ci / 2) < wkey 3 21 0 := by
          simp only [wkey, F.psta_merged, Field.at]
          omega
        refine ⟨last.trans ((notes_lastStamped notes).trans stamped), by rw [length, notes_held notes], count.trans (plus_congr ?_ 1)⟩
        obtain ⟨words, -⟩ := notes
        exact words.get _ _ key
  · intro ci c st tr τ s hci lead time x hit
    refine ⟨?_, ?_⟩
    · intro held pulse clear u w past
      have comp : u.comp ci = x := advanceFull_comp ..
      have made : exec (.stampRelease ci) s = .next (releaseHeld 2 u ci) := exec_stampRelease held _ (by
        obtain e | e | e := pulse <;>
          · rw [e]
            exact Nat.max_self _)
      have may : u.releasable (u.comp ci) st = true := releasable_single pulse time past (by rw [comp]; exact clear)
      have alone : goneWith st [] = [] := by
        obtain e | e | e := pulse <;>
          · unfold goneWith
            rw [e]
      have holds : (u.comp ci).held = [st] := by rw [comp]; exact held
      refine ⟨fun routed => ?_, fun unrouted bound => ?_⟩
      · rw [made, releaseHeld_routed holds lead may alone 1 time routed, comp]
      · rw [made, releaseHeld_bound holds lead may alone 1 unrouted bound, comp, hit_single pulse time]
        rfl
    · intro τ' held closed trail timed clear clear' u past past' routed bound
      have comp : u.comp ci = x := advanceFull_comp ..
      have made : exec (.stampRelease ci) s = .next (releaseHeld 3 u ci) := exec_stampRelease held _ (by rw [closed])
      have holds : (u.comp ci).held = [st, tr] := by rw [comp]; exact held
      have may : u.releasable (u.comp ci) st = true :=
        releasable_pair holds lead trail closed time timed past past' (by rw [comp]; exact clear) (by rw [comp]; exact clear')
      have alone : goneWith st [tr] = [] := by
        unfold goneWith
        rw [closed]
        simp [trail]
      rw [made, releaseHeld_bound holds lead may alone 2 routed bound, comp, hit_pair held lead trail closed time timed]
      rfl
  · intro ci r s hci last run
    refine ⟨_, exec_overRateEnd hci last run, ?_, ?_, ?_⟩
    · rw [State.comp, State.put_comps]
      exact congrArg Comp.run (State.comp_setComp ..)
    · exact State.get_put_self _ _ _ _ (show F.pstb_over_rate_now.lo ≤ F.pstb_over_rate_now.hi by decide) (show F.pstb_over_rate_now.hi < 64 by decide)
    · rw [State.put_tb, State.setComp_tb, advanceTo_tick]

end Sys2Proof
end

section
/-! PROOF. What a hit that leaves, an interval that settles, and the release of held stamps leave alone (R82, R85, R94 to R97). -/

namespace Sys2Proof.Machine

open Sys2Proof.Claims

/-! ### A hit leaves -/

/-- A hit has left, or was discarded: the tiles, the anchor's queues, and words of the tiles and queues may have changed. -/
def hitLeft (s t : State) : Prop :=
  (∃ r q ts, t = { s with regs := r, anchorQ := q, tiles := ts }) ∧
    ∀ k, k < wkey 4 0 0 ∨ wkey 6 0 0 ≤ k → regGet t.regs k = regGet s.regs k

section
variable {s t u : State}

theorem hitLeft_refl (s : State) : hitLeft s s := ⟨⟨s.regs, s.anchorQ, s.tiles, rfl⟩, fun _ _ => rfl⟩

theorem hitLeft.trans (h : hitLeft s t) (h' : hitLeft t u) : hitLeft s u := by
  obtain ⟨⟨r, q, ts, rfl⟩, words⟩ := h
  obtain ⟨⟨r', q', ts', rfl⟩, words'⟩ := h'
  exact ⟨⟨r', q', ts', rfl⟩, fun k hk => (words' k hk).trans (words k hk)⟩

theorem hitLeft.put (h : hitLeft s t) (f : Field) (i v : Nat) (far : wkey 4 0 0 ≤ wkey f.obj f.sel i) (near : wkey f.obj f.sel i < wkey 6 0 0) :
    hitLeft s (t.put f i v) := by
  obtain ⟨r, e⟩ := t.put_frame f i v
  exact h.trans ⟨⟨r, t.anchorQ, t.tiles, e⟩, fun k hk => mget_mset_ne' _ _ _ _ (by omega)⟩

/-- A field of a word that is neither a tile's nor a queue's. -/
theorem hitLeft.get (h : hitLeft s t) (f : Field) (j : Nat) (away : wkey f.obj f.sel j < wkey 4 0 0 ∨ wkey 6 0 0 ≤ wkey f.obj f.sel j) :
    t.get f j = s.get f j := by
  obtain ⟨-, words⟩ := h
  exact congrArg (bits · f.hi f.lo) (words _ away)

end

theorem hitLeft_dropPrec (s : State) {c : Nat} (hc : c < 2 ^ 23) : hitLeft s (dropPrec s c) := by
  refine (hitLeft_refl s).put F.qan_prec_drops (c / 2 ^ 20) _ ?_ ?_ <;>
    · simp only [wkey, F.qan_prec_drops]
      omega

theorem hitLeft_countShed (s : State) {c : Nat} (full level : Nat) (hc : c < 2 ^ 23) : hitLeft s (countShed s c full level) := by
  have near : ∀ sel, sel = 3 ∨ sel = 4 → wkey 4 0 0 ≤ wkey 4 sel (chanTile c) ∧ wkey 4 sel (chanTile c) < wkey 6 0 0 := by
    intro sel h
    simp only [wkey, chanTile]
    omega
  obtain ⟨far, before⟩ := near 3 (.inl rfl)
  obtain ⟨far', before'⟩ := near 4 (.inr rfl)
  have noted : ∀ t, hitLeft s t → ∀ tile k level bits, hitLeft s (noteShed t tile k level bits) := fun t h tile k level bits =>
    h.trans ⟨⟨t.regs, t.anchorQ, _, rfl⟩, fun _ _ => rfl⟩
  refine noted _ ?_ _ _ _ _
  split
  · exact (hitLeft_refl s).put F.tmb_shed_monitor _ _ far before
  · exact (hitLeft_refl s).put F.tmb_shed_stats _ _ far before
  · exact (hitLeft_refl s).put F.tmcs_shed_protected _ _ far' before'

theorem hitLeft_sendPrec (s : State) {h : THit} (hc : h.chan < 2 ^ 23) : hitLeft s (sendPrec s h) := by
  unfold sendPrec
  extract_lets full tile level die q
  refine iteInduction (fun _ => hitLeft_dropPrec s hc) fun _ => iteInduction (fun _ => hitLeft_dropPrec s hc) fun _ => iteInduction (fun _ => ?_) fun _ =>
    iteInduction (fun _ => hitLeft_dropPrec s hc) fun _ => ?_
  · exact (hitLeft_countShed s full level hc).trans (hitLeft_dropPrec _ hc)
  · have queued : hitLeft s { s with anchorQ := mset [] s.anchorQ die (q ++ [h]) } := ⟨⟨s.regs, _, s.tiles, rfl⟩, fun _ _ => rfl⟩
    refine queued.put F.qan_fill die _ ?_ ?_ <;>
      · simp only [wkey, F.qan_fill, die]
        omega

/-! ### Interval mode -/

/-- Interval mode has settled: the inputs, their intervals, what hits that leave change, and register words may have changed, but not which domains
are on. -/
def intervalsMoved (s t : State) : Prop :=
  (∃ r q ts i v, t = { s with regs := r, anchorQ := q, tiles := ts, inputs := i, ivals := v }) ∧ ∀ d, t.get F.pws_pstate d = s.get F.pws_pstate d

section
variable {s t u : State}

theorem intervalsMoved_refl (s : State) : intervalsMoved s s := ⟨⟨s.regs, s.anchorQ, s.tiles, s.inputs, s.ivals, rfl⟩, fun _ => rfl⟩

theorem intervalsMoved.trans (h : intervalsMoved s t) (h' : intervalsMoved t u) : intervalsMoved s u := by
  obtain ⟨⟨r, q, ts, i, v, rfl⟩, on⟩ := h
  obtain ⟨⟨r', q', ts', i', v', rfl⟩, on'⟩ := h'
  exact ⟨⟨r', q', ts', i', v', rfl⟩, fun d => (on' d).trans (on d)⟩

theorem intervalsMoved_of_hitLeft (h : hitLeft s t) : intervalsMoved s t := by
  have on := fun d => h.get F.pws_pstate d (.inr (by simp only [wkey, F.pws_pstate]; omega))
  obtain ⟨⟨r, q, ts, rfl⟩, -⟩ := h
  exact ⟨⟨r, q, ts, s.inputs, s.ivals, rfl⟩, on⟩

theorem intervalsMoved_setInp (s : State) (i : Nat) (x : Input) : intervalsMoved s (s.setInp i x) :=
  ⟨⟨s.regs, s.anchorQ, s.tiles, _, s.ivals, rfl⟩, fun _ => rfl⟩

theorem intervalsMoved_ivTimeout (s : State) (i : Nat) (a : IvEdge) (t : Int) (overRate : Bool) : intervalsMoved s (ivTimeout s i a t overRate) := by
  have counted : intervalsMoved s (s.satInc (F.pstb_ival_timeouts.at (a.comp % 2)) (a.comp / 2) 1) :=
    ⟨⟨_, s.anchorQ, s.tiles, s.inputs, s.ivals, rfl⟩, fun d => State.get_put_disjoint s _ F.pws_pstate _ d _
      (show F.pstb_ival_timeouts.lo ≤ F.pstb_ival_timeouts.hi ∧ F.pstb_ival_timeouts.hi < 64 by decide) (by decide)
      (.inl (show F.pstb_ival_timeouts.hi < F.pws_pstate.lo by decide))⟩
  have disarmed := counted.trans (intervalsMoved_setInp _ i { (s.satInc (F.pstb_ival_timeouts.at (a.comp % 2)) (a.comp / 2) 1).inp i with armed := none })
  unfold ivTimeout
  dsimp only
  split
  · next c bound => exact disarmed.trans (intervalsMoved_of_hitLeft (hitLeft_sendPrec _ (boundChanAt_lt bound)))
  · exact disarmed

theorem intervalsMoved_ivDone (s : State) (i : Nat) (a b : IvEdge) (ta tb : Int) : intervalsMoved s (ivDone s i a b ta tb) := by
  unfold ivDone
  dsimp only
  split
  · exact ⟨⟨s.regs, s.anchorQ, s.tiles, _, _, rfl⟩, fun _ => rfl⟩
  · exact intervalsMoved_setInp s i _

theorem intervalsMoved_ivSettle (n : Nat) (s : State) (i : Nat) : intervalsMoved s (ivSettle n s i) := by
  induction n generalizing s with
  | zero => exact intervalsMoved_refl s
  | succ n ih =>
    have waits := fun x => (intervalsMoved_setInp s i x).trans (ih (s.setInp i x))
    unfold ivSettle
    dsimp only
    split
    · exact intervalsMoved_refl s
    · exact iteInduction (fun _ => waits _) fun _ => waits _
    · split
      · exact intervalsMoved_refl s
      · split
        · exact iteInduction (fun _ => intervalsMoved_ivTimeout ..) fun _ => intervalsMoved_refl s
        · split
          · exact intervalsMoved_refl s
          · refine iteInduction (fun _ => (intervalsMoved_ivTimeout ..).trans (ih _)) fun _ => iteInduction (fun _ => ?_) fun _ => iteInduction (fun _ => waits _) fun _ => ?_
            · exact (intervalsMoved_setInp s i _).trans ((intervalsMoved_ivTimeout ..).trans (ih _))
            · exact (intervalsMoved_setInp s i _).trans ((intervalsMoved_ivDone ..).trans (ih _))

theorem intervalsMoved_ivSettleAll (s : State) : intervalsMoved s (ivSettleAll s) := by
  have all : ∀ (l : SMap Input) (t : State), intervalsMoved t (l.foldl (fun s e => ivSettle (2 * e.2.wait.length + 3) s e.1) t) := by
    intro l
    induction l with
    | nil => exact intervalsMoved_refl
    | cons e rest ih => exact fun t => (intervalsMoved_ivSettle ..).trans (ih _)
  exact all s.inputs s

end

/-! ### Held stamps are released -/

/-- Held stamps of a comparator have left: it holds no others, and words outside those of tiles and queues are as they were. -/
def stampsLeft (ci : Nat) (s t : State) : Prop :=
  (∃ h, t.comp ci = { s.comp ci with held := h } ∧ h ⊆ (s.comp ci).held) ∧ ∀ k < wkey 4 0 0, regGet t.regs k = regGet s.regs k

section
variable {ci : Nat} {s t u : State}

theorem stampsLeft_refl (ci : Nat) (s : State) : stampsLeft ci s s := ⟨⟨_, rfl, fun _ h => h⟩, fun _ _ => rfl⟩

theorem stampsLeft.trans (h : stampsLeft ci s t) (h' : stampsLeft ci t u) : stampsLeft ci s u := by
  obtain ⟨⟨x, comp, sub⟩, words⟩ := h
  obtain ⟨⟨y, comp', sub'⟩, words'⟩ := h'
  rw [comp] at comp' sub'
  exact ⟨⟨y, comp', fun _ m => sub (sub' m)⟩, fun k hk => (words' k hk).trans (words k hk)⟩

theorem stampsLeft.get (h : stampsLeft ci s t) (f : Field) (j : Nat) (low : wkey f.obj f.sel j < wkey 4 0 0) : t.get f j = s.get f j := by
  obtain ⟨-, words⟩ := h
  exact congrArg (bits · f.hi f.lo) (words _ low)

theorem stampsLeft_of_hitLeft (h : hitLeft s t) : stampsLeft ci s t := by
  obtain ⟨⟨r, q, ts, rfl⟩, words⟩ := h
  exact ⟨⟨_, rfl, fun _ m => m⟩, fun k hk => words k (.inl hk)⟩

theorem stampsLeft_setComp {h : List Stamp} (sub : h ⊆ (s.comp ci).held) : stampsLeft ci s (s.setComp ci { s.comp ci with held := h }) :=
  ⟨⟨h, State.comp_setComp .., sub⟩, fun _ _ => rfl⟩

theorem goneWith_subset (st : Stamp) (rest : List Stamp) : goneWith st rest ⊆ rest := by
  unfold goneWith
  split
  · exact List.filter_subset_self _
  · exact fun _ h => h

theorem hit_chan (x : Comp) (st : Stamp) (c : Nat) : (st.hit x c).chan = c := by
  unfold Stamp.hit
  dsimp only
  split
  · rfl
  · rfl
  · split <;> rfl
  · rfl

theorem stampsLeft_releaseHeld (n : Nat) (s : State) (ci : Nat) : stampsLeft ci s (releaseHeld n s ci) := by
  induction n generalizing s with
  | zero => exact stampsLeft_refl ci s
  | succ n ih =>
    cases held : (s.comp ci).held with
    | nil =>
      rw [releaseHeld_empty _ held]
      exact stampsLeft_refl ci s
    | cons st rest =>
      have tail : rest ⊆ (s.comp ci).held := by
        rw [held]
        exact List.subset_cons_self _ _
      have gone := stampsLeft_setComp (fun _ m => tail (goneWith_subset st rest m))
      cases lead : st.lead with
      | false =>
        unfold releaseHeld
        dsimp only
        rw [held]
        dsimp only
        rw [if_pos (by rw [lead]; rfl)]
        exact iteInduction (fun _ => stampsLeft_refl ci s) fun _ => (stampsLeft_setComp tail).trans (ih _)
      | true =>
        cases may : s.releasable (s.comp ci) st with
        | false =>
          unfold releaseHeld
          dsimp only
          rw [held]
          dsimp only
          rw [if_neg (by rw [lead]; decide), if_neg (by rw [may]; decide)]
          exact stampsLeft_refl ci s
        | true =>
          rw [releaseHeld_leading held lead may]
          refine iteInduction (fun _ => ?_) fun _ => ?_
          · split
            · exact gone.trans ((show stampsLeft ci _ _ from ⟨⟨_, rfl, fun _ m => m⟩, fun _ _ => rfl⟩).trans (ih _))
            · exact gone.trans (ih _)
          · split
            · next c bound =>
              exact gone.trans ((stampsLeft_of_hitLeft (hitLeft_sendPrec _ (by rw [hit_chan]; exact boundChanAt_lt bound))).trans (ih _))
            · exact gone.trans (ih _)

end

end Sys2Proof.Machine
end

section
/-! PROOF. The end of a conversion and of an over-rate window (R75 to R77, R85, R92, R107, R116). -/

namespace Sys2Proof.Machine

open Sys2Proof.Claims

/-! ### Samples that wait -/

/-- Interpolators have changed, and with them no other thing; none is waited for that was not, and none no longer that was (R121). -/
def samplesMoved (s t : State) : Prop := (∃ m, t = { s with interps := m }) ∧ ∀ k, (t.interp k).need = (s.interp k).need

section
variable {s t u : State}

theorem samplesMoved_refl (s : State) : samplesMoved s s := ⟨⟨s.interps, rfl⟩, fun _ => rfl⟩

theorem samplesMoved.trans (h : samplesMoved s t) (h' : samplesMoved t u) : samplesMoved s u := by
  obtain ⟨⟨m, rfl⟩, need⟩ := h
  obtain ⟨⟨m', rfl⟩, need'⟩ := h'
  exact ⟨⟨m', rfl⟩, fun k => (need' k).trans (need k)⟩

theorem samplesMoved_setInterp (s : State) {n : Nat} {x : Interp} (need : x.need = (s.interp n).need) : samplesMoved s (s.setInterp n x) := by
  refine ⟨⟨_, rfl⟩, fun k => ?_⟩
  by_cases e : k = n
  · subst e
    rw [State.interp_setInterp, need]
  · rw [State.interp_setInterp_ne s x e]

theorem samplesMoved_addSample (s : State) (n c : Nat) (live : Bool) : samplesMoved s (addSample s n c live) := by
  unfold addSample
  dsimp only
  exact iteInduction (fun _ => samplesMoved_refl s) fun _ => iteInduction (fun _ => samplesMoved_setInterp s rfl) fun _ => samplesMoved_setInterp s rfl

theorem samplesMoved_flushSamples (s : State) (n : Nat) : samplesMoved s (flushSamples s n) := by
  have all : ∀ (l : List PendSample) (t : State), samplesMoved t (l.foldl (fun s p => addSample s n p.code p.live) t) := by
    intro l
    induction l with
    | nil => exact samplesMoved_refl
    | cons p rest ih => exact fun t => (samplesMoved_addSample ..).trans (ih _)
  unfold flushSamples
  extract_lets x done excl moved
  have first : samplesMoved s moved := samplesMoved_setInterp s rfl
  exact first.trans (all _ _)

theorem samplesMoved_pendSample (s : State) (n full code : Nat) (live : Bool) : samplesMoved s (pendSample s n full code live) :=
  (samplesMoved_flushSamples s n).trans (samplesMoved_setInterp _ rfl)

end

/-! ### Interpolators that wait for a correction -/

/-- The comparators and device time are as they were. -/
def poolKeeps (s t : State) : Prop := t.comps = s.comps ∧ t.tb = s.tb

theorem poolKeeps.trans {s t u : State} (h : poolKeeps s t) (h' : poolKeeps t u) : poolKeeps s u := by
  obtain ⟨comps, tb⟩ := h
  obtain ⟨comps', tb'⟩ := h'
  exact ⟨comps'.trans comps, tb'.trans tb⟩

theorem poolKeeps_put (s : State) (f : Field) (i v : Nat) : poolKeeps s (s.put f i v) := ⟨State.put_comps .., State.put_tb ..⟩

theorem poolKeeps_setInterp (s : State) (n : Nat) (x : Interp) : poolKeeps s (s.setInterp n x) := ⟨State.setInterp_comps .., State.setInterp_tb ..⟩

theorem poolKeeps_putCalState (s : State) (n st : Nat) : poolKeeps s (putCalState s n st) := by
  unfold putCalState
  dsimp only
  exact iteInduction (fun _ => poolKeeps_put ..) fun _ => (poolKeeps_put ..).trans (poolKeeps_put ..)

theorem poolKeeps_enterLock (s : State) (n : Nat) : poolKeeps s (enterLock s n) := by
  unfold enterLock
  dsimp only
  exact (poolKeeps_setInterp ..).trans ((poolKeeps_putCalState ..).trans (poolKeeps_put ..))

theorem poolKeeps_interpFault (s : State) (n cause : Nat) : poolKeeps s (interpFault s n cause) :=
  ⟨(event_comps ..).trans (raise_comps ..), (event_tb ..).trans (raise_tb ..)⟩

theorem poolKeeps_showSelection (s : State) (n : Nat) : poolKeeps s (showSelection s n) := by
  unfold showSelection
  dsimp only
  exact (((poolKeeps_put ..).trans (poolKeeps_put ..)).trans (poolKeeps_put ..)).trans (poolKeeps_put ..)

theorem poolKeeps_goAside (s : State) (n : Nat) (m : SetMeasure) : poolKeeps s (goAside s n m) := by
  have aside : poolKeeps s ((putCalState s n 4).satInc F.calb_aside_count n 1) := (poolKeeps_putCalState s n 4).trans (poolKeeps_put ..)
  unfold goAside
  dsimp only
  split
  · exact aside.trans ((poolKeeps_setInterp ..).trans (poolKeeps_showSelection ..))
  · exact aside.trans ((poolKeeps_interpFault ..).trans (poolKeeps_enterLock ..))

theorem poolKeeps_asideTry (s : State) (n : Nat) : poolKeeps s (asideTry s n) := by
  unfold asideTry
  split
  · exact iteInduction (fun _ => poolKeeps_goAside ..) fun _ => ⟨rfl, rfl⟩
  · exact ⟨rfl, rfl⟩

theorem poolKeeps_asidePool (s : State) (n : Nat) : poolKeeps s (asidePool s n) := by
  have all : ∀ (l : List Nat) (t : State), poolKeeps t (l.foldl asideTry t) := by
    intro l
    induction l with
    | nil => exact fun t => ⟨rfl, rfl⟩
    | cons k rest ih => exact fun t => (poolKeeps_asideTry t k).trans (ih _)
  exact all (n :: poolMates n) s

/-- Where no interpolator of the pool waits for a correction, none goes aside. -/
theorem asidePool_idle {s : State} {n : Nat} (idle : ∀ k ∈ n :: poolMates n, (s.interp k).need = none) : asidePool s n = s := by
  have all : ∀ l : List Nat, (∀ k ∈ l, (s.interp k).need = none) → l.foldl asideTry s = s := by
    intro l
    induction l with
    | nil => exact fun _ => rfl
    | cons k rest ih =>
      intro h
      have stays : asideTry s k = s := by
        unfold asideTry
        rw [h k List.mem_cons_self]
      rw [List.foldl_cons, stays]
      exact ih fun j hj => h j (List.mem_cons_of_mem k hj)
  exact all _ idle

/-! ### A stamp's time becomes known -/

theorem edgeKeeps_ivKnown (s : State) (ci edge : Nat) (time : Int) (flags : Nat) : edgeKeeps s (ivKnown s ci edge time flags) :=
  edgeKeeps_of_regs rfl rfl rfl

/-- The held stamps of the edge have its time, and no other thing of the comparator changes. -/
theorem knowStamp_comp (s : State) (ci edge : Nat) (τ : Int) (coarse : Bool) : (knowStamp s ci edge τ coarse).comp ci =
    editStamp (s.comp ci) edge fun st => { st with time := some τ, coarseOnly := coarse || st.coarseOnly } := by
  unfold knowStamp
  extract_lets x told flags
  exact (((edgeKeeps_ivKnown told ci edge τ flags).trans (edgeKeeps_ivSettleAll _)).comp ci).trans (State.comp_setComp ..)

theorem edgeWords_knowStamp (s : State) (ci edge : Nat) (τ : Int) (coarse : Bool) : edgeWords s (knowStamp s ci edge τ coarse) := by
  unfold knowStamp
  extract_lets x told flags
  obtain ⟨-, words⟩ := (edgeKeeps_ivKnown told ci edge τ flags).trans (edgeKeeps_ivSettleAll _)
  exact (edgeWords_of_regs rfl rfl : edgeWords s told).trans words

theorem intervalsMoved_knowStamp (s : State) (ci edge : Nat) (τ : Int) (coarse : Bool) : ∃ m, intervalsMoved { s with comps := m } (knowStamp s ci edge τ coarse) := by
  unfold knowStamp
  extract_lets x told flags
  have known : intervalsMoved told (ivKnown told ci edge τ flags) := ⟨⟨told.regs, told.anchorQ, told.tiles, _, told.ivals, rfl⟩, fun _ => rfl⟩
  exact ⟨_, known.trans (intervalsMoved_ivSettleAll _)⟩

theorem knowStamp_held {s : State} {ci edge : Nat} {τ : Int} {coarse : Bool} {st : Stamp} (m : st ∈ ((knowStamp s ci edge τ coarse).comp ci).held)
    (same : st.edge = edge) : st.time = some τ ∧ (coarse = true → st.coarseOnly = true) := by
  rw [knowStamp_comp, editStamp] at m
  obtain ⟨old, -, rfl⟩ := List.mem_map.mp m
  by_cases e : old.edge = edge
  · rw [if_pos e]
    exact ⟨rfl, fun c => by rw [c, Bool.true_or]⟩
  · rw [if_neg e] at same
    exact absurd same e

/-! ### A conversion ends -/

/-- The conversion has left its slot, at the end that its code gives it (R76). -/
def slotLeft (s : State) (ci slot : Nat) (v : InConv) (code : Nat) (rest : List InConv) : State :=
  let u := advanceTo s ((v.raw + convTime code (s.interp (ci * 4 + slot)).slowPeriod) / 102400)
  u.setComp ci { u.comp ci with slots := mset [] (u.comp ci).slots slot rest }

/-- The table in force is read for a conversion that passed its check (R116, R440). -/
def tableRead (s : State) (n : Nat) (ok : Bool) (full : Nat) : State := if ok && ((s.interp n).tableFor full).isSome then tableCheck s n else s

/-- An edge timed with the table is a live one of the last millisecond, and may be a sample (R107, R109). -/
def edgeSampled (s : State) (ci n code : Nat) (v : InConv) : State :=
  let keep := (s.comp ci).recent.filter fun t => decide (s.tb.tick < t + Config.milli)
  let u := s.setComp ci { s.comp ci with recent := keep ++ [v.raw / 102400] }
  if u.liveSample ci n (v.edge / 102400) v.disturbed then pendSample u n (v.edge / 102400) code true else u

/-- An edge without a table or with a failed check is coarse (R77, R79). -/
def coarseStamped (s : State) (ci : Nat) (v : InConv) : State :=
  let u := if s.foreground ci (v.edge / 102400) then s.satInc (F.psta_coarse_only.at (ci % 2)) (ci / 2) 1 else s
  knowStamp u ci v.edge (u.stampAt ci (v.edge / 102400) 8192) true

/-- The stamp of a conversion's edge, once its table has been read. -/
def conversionRes (s : State) (ci n code : Nat) (ok : Bool) (v : InConv) : Res :=
  match ok, (s.interp n).tableFor (v.edge / 102400) with
  | true, some tab =>
    let u := edgeSampled s ci n (code % 1024) v
    .next (asidePool (knowStamp u ci v.edge (u.stampAt ci (v.edge / 102400) (tab.entries.getD (code % 1024) 0)) false) n)
  | _, _ => .next (if ok then coarseStamped s ci v else raise (coarseStamped s ci v) (0x1000 + n) 0x02 0 false)

section
variable {ci slot code : Nat} {v : InConv} {rest : List InConv} {s : State}

theorem slotLeft_tick (s : State) (ci slot : Nat) (v : InConv) (code : Nat) (rest : List InConv) : (slotLeft s ci slot v code rest).tb.tick =
    max s.tb.tick ((v.raw + convTime code (s.interp (ci * 4 + slot)).slowPeriod) / 102400) := advanceTo_tick ..

theorem slotLeft_slots (s : State) (ci slot : Nat) (v : InConv) (code : Nat) (rest : List InConv) : mget [] ((slotLeft s ci slot v code rest).comp ci).slots slot = rest := by
  rw [slotLeft, State.comp_setComp]
  exact mget_mset_self ..

theorem slotLeft_interp (s : State) (ci slot : Nat) (v : InConv) (code : Nat) (rest : List InConv) (n : Nat) : (slotLeft s ci slot v code rest).interp n = s.interp n := by
  rw [State.interp, slotLeft, State.setComp_interps, advanceTo_interps, State.interp]

theorem slotLeft_flt (s : State) (ci slot : Nat) (v : InConv) (code : Nat) (rest : List InConv) : (slotLeft s ci slot v code rest).flt = s.flt := advanceTo_flt ..

theorem slotLeft_get (s : State) (ci slot : Nat) (v : InConv) (code : Nat) (rest : List InConv) (f : Field) (j : Nat) :
    (slotLeft s ci slot v code rest).get f j = s.get f j := advanceTo_get ..

theorem edgeWords_slotLeft (s : State) (ci slot : Nat) (v : InConv) (code : Nat) (rest : List InConv) : edgeWords s (slotLeft s ci slot v code rest) :=
  edgeWords_of_regs (advanceTo_cmd ..) (advanceTo_regs ..)

theorem exec_conversionComplete (busy : mget [] (s.comp ci).slots slot = v :: rest) (ok : Bool) : exec (.conversionComplete ci slot code ok) s =
    conversionRes (tableRead (slotLeft s ci slot v (if ok then code else 0) rest) (ci * 4 + slot) ok (v.edge / 102400)) ci (ci * 4 + slot) code ok v := by
  show execConversionComplete ci slot code ok s = _
  unfold execConversionComplete
  extract_lets c n
  rw [show mget [] (s.comp c).slots slot = v :: rest from busy]
  rfl

/-- A domain's element raises its fault, whatever else has changed. -/
theorem raise_flt_congr {s t : State} (flt : t.flt = s.flt) (on : ∀ d, t.get F.pws_pstate d = s.get F.pws_pstate d) {n : Nat} (near : n < 0x4000)
    (cause sub : Nat) (injected : Bool) : (raise t n cause sub injected).flt = (raise s n cause sub injected).flt := by
  have off : t.srcOff n = s.srcOff n := by
    simp only [State.srcOff, State.srcDomains, if_neg (show ¬(0x4000 ≤ n ∧ n ≤ 0x7FFF) by omega), State.domOn, on]
  rw [raise_eq, raise_eq, off, flt]

/-- The state once a stamp without a result has been counted (R79). -/
def coarseNoted (s : State) (ci full : Nat) : State := if s.foreground ci full then s.satInc (F.psta_coarse_only.at (ci % 2)) (ci / 2) 1 else s

theorem coarseNoted_get (s : State) (ci full : Nat) :
    (coarseNoted s ci full).get (F.psta_coarse_only.at (ci % 2)) (ci / 2) = plus s (F.psta_coarse_only.at (ci % 2)) (ci / 2) (b2n (s.foreground ci full)) := by
  have low : (F.psta_coarse_only.at (ci % 2)).lo ≤ (F.psta_coarse_only.at (ci % 2)).hi := show F.psta_coarse_only.lo ≤ F.psta_coarse_only.hi by decide
  have high : (F.psta_coarse_only.at (ci % 2)).hi < 64 := show F.psta_coarse_only.hi < 64 by decide
  rw [coarseNoted]
  cases s.foreground ci full with
  | true => exact satInc_get_self _ _ _ _ low high
  | false => exact (plus_zero s _ _ low high).symm

theorem coarseNoted_frame (s : State) (ci full : Nat) : ∃ r, coarseNoted s ci full = { s with regs := r } := by
  unfold coarseNoted
  split
  · exact State.satInc_frame ..
  · exact ⟨s.regs, rfl⟩

theorem coarseNoted_word (s : State) (ci full : Nat) {o e i : Nat} (h : wkey o e i ≠ wkey 3 (19 + ci % 2) (ci / 2)) :
    (coarseNoted s ci full).word o e i = s.word o e i := by
  unfold coarseNoted
  exact iteInduction (motive := fun t : State => t.word o e i = s.word o e i) (fun _ => State.word_setWord_ne _ _ h) fun _ => rfl

theorem coarseNoted_stampAt (s : State) (ci full at1 position : Nat) : (coarseNoted s ci full).stampAt ci at1 position = s.stampAt ci at1 position := by
  have word : (coarseNoted s ci full).word 3 (17 + ci % 2) (ci / 2) = s.word 3 (17 + ci % 2) (ci / 2) := coarseNoted_word s ci full (by simp only [wkey]; omega)
  have cmd : (coarseNoted s ci full).cmd = s.cmd := by
    obtain ⟨r, e⟩ := coarseNoted_frame s ci full
    rw [e]
  have field : (coarseNoted s ci full).getFor (F.pcmp_pi_offset.at (ci % 2)) (ci / 2) at1 = s.getFor (F.pcmp_pi_offset.at (ci % 2)) (ci / 2) at1 := by
    simp only [State.getFor, State.wordFor, cmd]
    rw [show (coarseNoted s ci full).word (F.pcmp_pi_offset.at (ci % 2)).obj (F.pcmp_pi_offset.at (ci % 2)).sel (ci / 2) = _ from word]
    rfl
  rw [State.stampAt, State.piOffset, State.cmpFor, field]
  rfl

theorem coarseStamped_eq (s : State) (ci : Nat) (v : InConv) : coarseStamped s ci v =
    knowStamp (coarseNoted s ci (v.edge / 102400)) ci v.edge (s.stampAt ci (v.edge / 102400) 8192) true := by
  rw [← coarseNoted_stampAt s ci (v.edge / 102400)]
  rfl

/-- What a coarse stamp leaves: its slots, its count, and the stamps held of its edge. -/
theorem coarseStamped_stamps (hci : ci < 128) (s : State) (v : InConv) : ((coarseStamped s ci v).comp ci).slots = (s.comp ci).slots ∧
    (coarseStamped s ci v).get (F.psta_coarse_only.at (ci % 2)) (ci / 2) =
      plus s (F.psta_coarse_only.at (ci % 2)) (ci / 2) (b2n (s.foreground ci (v.edge / 102400))) ∧
    ∀ st ∈ ((coarseStamped s ci v).comp ci).held, st.edge = v.edge → st.coarseOnly = true ∧ st.time = some (s.stampAt ci (v.edge / 102400) 8192) := by
  rw [coarseStamped_eq]
  refine ⟨?_, ?_, fun st m same => ?_⟩
  · rw [knowStamp_comp]
    obtain ⟨r, e⟩ := coarseNoted_frame s ci (v.edge / 102400)
    rw [e]
    rfl
  · rw [← coarseNoted_get]
    exact (edgeWords_knowStamp ..).get _ _ (by simp only [wkey, F.psta_coarse_only, Field.at]; omega)
  · obtain ⟨time, coarse⟩ := knowStamp_held m same
    exact ⟨coarse rfl, time⟩

/-- What it leaves alone: device time, the faults on their way, and which domains are on. -/
theorem coarseStamped_keeps (hci : ci < 128) (s : State) (v : InConv) : (coarseStamped s ci v).tb = s.tb ∧ (coarseStamped s ci v).flt = s.flt ∧
    ∀ d, (coarseStamped s ci v).get F.pws_pstate d = s.get F.pws_pstate d := by
  rw [coarseStamped_eq]
  have counted : ∀ d, (coarseNoted s ci (v.edge / 102400)).get F.pws_pstate d = s.get F.pws_pstate d := by
    intro d
    unfold coarseNoted
    exact iteInduction (motive := fun t : State => t.get F.pws_pstate d = s.get F.pws_pstate d) (fun _ => State.get_put_ne _ _ _ _ _ _ (by
      simp only [wkey, F.psta_coarse_only, F.pws_pstate, Field.at]; omega)) fun _ => rfl
  obtain ⟨m, ⟨r, q, ts, i, iv, e⟩, on⟩ := intervalsMoved_knowStamp (coarseNoted s ci (v.edge / 102400)) ci v.edge (s.stampAt ci (v.edge / 102400) 8192) true
  refine ⟨?_, ?_, fun d => (on d).trans (counted d)⟩ <;>
    · obtain ⟨r', e'⟩ := coarseNoted_frame s ci (v.edge / 102400)
      rw [e, e']

/-- What a sample that waits leaves: the comparator's slots and stamps, device time, the faults on their way, and every word. -/
theorem edgeSampled_keeps (s : State) (ci n code : Nat) (v : InConv) : ∃ m, samplesMoved { s with comps := m } (edgeSampled s ci n code v) ∧
    mget Comp.init m ci = { s.comp ci with recent := (s.comp ci).recent.filter (fun t => decide (s.tb.tick < t + Config.milli)) ++ [v.raw / 102400] } := by
  unfold edgeSampled
  extract_lets keep x u
  refine ⟨u.comps, ?_, State.comp_setComp ..⟩
  exact iteInduction (motive := samplesMoved u) (fun _ => samplesMoved_pendSample ..) fun _ => samplesMoved_refl u

/-! ### A conversion's end, in each of its cases -/

theorem conversionRes_untimed (none : (s.interp (ci * 4 + slot)).tableFor (v.edge / 102400) = none) :
    conversionRes s ci (ci * 4 + slot) code true v = .next (coarseStamped s ci v) := by
  unfold conversionRes
  rw [none]
  rfl

theorem conversionRes_failed (s : State) (ci n code : Nat) (v : InConv) :
    conversionRes s ci n code false v = .next (raise (coarseStamped s ci v) (0x1000 + n) 0x02 0 false) := rfl

theorem conversionRes_timed {n : Nat} {tab : BinTable} (table : (s.interp n).tableFor (v.edge / 102400) = some tab) : conversionRes s ci n code true v =
    .next (asidePool (knowStamp (edgeSampled s ci n (code % 1024) v) ci v.edge
      ((edgeSampled s ci n (code % 1024) v).stampAt ci (v.edge / 102400) (tab.entries.getD (code % 1024) 0)) false) n) := by
  unfold conversionRes
  rw [table]

theorem tableRead_clean {n full : Nat} (clean : mget 0 s.flt.awl (interpSource n) = 0) (ok : Bool) : tableRead s n ok full = s := by
  have checked : tableCheck s n = s := by
    unfold tableCheck
    rw [awlTake_none clean]
    rfl
  rw [tableRead, checked, ite_self]

theorem tableRead_untimed {n full : Nat} (none : (s.interp n).tableFor full = none) (ok : Bool) : tableRead s n ok full = s := by
  rw [tableRead, none]
  cases ok <;> rfl

/-- A conversion without a result: its slot is free, its edge coarse and counted (R77, R79). -/
theorem slotLeft_coarseStamped (hci : ci < 128) (s : State) (slot : Nat) (v : InConv) (code : Nat) (rest : List InConv) :
    let t := coarseStamped (slotLeft s ci slot v code rest) ci v
    mget [] (t.comp ci).slots slot = rest ∧
      t.get (F.psta_coarse_only.at (ci % 2)) (ci / 2) = plus s (F.psta_coarse_only.at (ci % 2)) (ci / 2) (b2n (s.foreground ci (v.edge / 102400))) ∧
      ∀ st ∈ (t.comp ci).held, st.edge = v.edge → st.coarseOnly = true ∧ st.time = some (s.stampAt ci (v.edge / 102400) 8192) := by
  intro t
  obtain ⟨slots, count, stamps⟩ := coarseStamped_stamps hci (slotLeft s ci slot v code rest) v
  have words := edgeWords_slotLeft s ci slot v code rest
  rw [stampAt_congr words hci] at stamps
  rw [foreground_congr words hci, plus_congr (slotLeft_get ..)] at count
  exact ⟨by rw [slots, slotLeft_slots], count, stamps⟩

/-- A timed edge: its held stamps have the table's time (R75), and the comparator keeps its slots. -/
theorem edgeTimed (hci : ci < 128) (s : State) (n code : Nat) (v : InConv) (position : Nat) :
    let u := edgeSampled s ci n code v
    let k := knowStamp u ci v.edge (u.stampAt ci (v.edge / 102400) position) false
    let t := asidePool k n
    (t.comp ci).slots = (s.comp ci).slots ∧ t.tb = s.tb ∧ (∀ st ∈ (t.comp ci).held, st.edge = v.edge → st.time = some (s.stampAt ci (v.edge / 102400) position)) ∧
      ((∀ j ∈ n :: poolMates n, (s.interp j).need = none) → t.flt = s.flt) := by
  intro u k t
  obtain ⟨m, ⟨⟨is, same⟩, need⟩, comp⟩ := edgeSampled_keeps s ci n code v
  have sampled : u = { s with comps := m, interps := is } := same
  have stamp : u.stampAt ci (v.edge / 102400) position = s.stampAt ci (v.edge / 102400) position :=
    stampAt_congr (edgeWords_of_regs (by rw [sampled]) (by rw [sampled])) hci _ _
  obtain ⟨comps, tb⟩ := poolKeeps_asidePool k n
  have known : t.comp ci = k.comp ci := by rw [State.comp, comps, State.comp]
  obtain ⟨cs, ⟨r, q, ts, i, iv, e⟩, -⟩ := intervalsMoved_knowStamp u ci v.edge (u.stampAt ci (v.edge / 102400) position) false
  have moved : k = _ := e
  refine ⟨?_, ?_, fun st mem edge => ?_, fun idle => ?_⟩
  · rw [known, knowStamp_comp]
    show (u.comp ci).slots = _
    rw [sampled, State.comp, comp]
  · rw [tb, moved, sampled]
  · rw [known] at mem
    obtain ⟨time, -⟩ := knowStamp_held mem edge
    rw [time, stamp]
  · have asleep : ∀ j ∈ n :: poolMates n, (k.interp j).need = none := fun j hj => by
      rw [moved]
      exact (need j).trans (idle j hj)
    rw [show t = k from asidePool_idle asleep, moved, sampled]

end

/-! ### An over-rate window ends -/

/-- The marker that stands for the stamps of an over-rate window (R85). -/
def overRateMarker (w : Nat) (win : Window) : Stamp :=
  { edge := w * 256 * 102400, time := none, slot := 4, lead := true, pulse := .marker win.count, coarseOnly := false, disturbed := false, overdrive := false, merged := false }

/-- The held stamps outside a window whose pulse has no stamp in it either (R85, R92). -/
def outsideWindow (x : Comp) (w : Nat) : List Stamp :=
  let inside := fun (st : Stamp) => windowOf st.edge = w
  let partner := fun (st : Stamp) => match st.pulse with
    | .closed e => windowOf e = w
    | _ => x.held.any fun h => h.pulse = .closed st.edge && inside h
  x.held.filter fun st => !(inside st || partner st)

/-- What a comparator holds at the end of an over-rate window. -/
def windowHeld (x : Comp) (w : Nat) (win : Window) : List Stamp := insertBy (fun a b => decide (a.edge < b.edge)) (overRateMarker w win) (outsideWindow x w)

/-- The comparator at the end of an over-rate window. -/
def windowGone (x : Comp) (w : Nat) (win : Window) : Comp :=
  { x with
    held := windowHeld x w win
    windows := merase x.windows w
    slots := mall [] x.slots fun cs => cs.map fun c => if windowOf c.edge = w then { c with disturbed := true } else c }

/-- The window is gone, with what waited of it for calibration and interval mode. -/
def windowClosed (u : State) (ci w : Nat) (win : Window) : State :=
  ivOut (dropPend (u.setComp ci (windowGone (u.comp ci) w win)) ci fun f => decide (f / 256 = w)) ci fun e => decide (windowOf e = w)

/-- The state at the end of an over-rate window, before the stamps that may leave do. -/
def windowEnded (u : State) (ci w : Nat) (win : Window) : State := (windowClosed u ci w win).satInc (F.pstb_over_rate_windows.at (ci % 2)) (ci / 2) 1

section
variable {ci w : Nat} {win : Window}

theorem exec_overRateWindowEnd {s : State} (overRate : (s.comp ci).overWindow = some (w, win)) : exec (.overRateWindowEnd ci) s =
    .next (releaseHeld ((windowHeld (s.comp ci) w win).length + 1) (windowEnded (advanceFull s ((w + 1) * 256)) ci w win) ci) := by
  show execOverRateWindowEnd ci s = _
  unfold execOverRateWindowEnd
  extract_lets c
  rw [show (s.comp c).overWindow = some (w, win) from overRate, ← advanceFull_comp s ((w + 1) * 256)]
  rfl

theorem dropPend_frame (s : State) (ci : Nat) (bad : Nat → Bool) : ∃ m, dropPend s ci bad = { s with interps := m } := by
  have all : ∀ (l : List Nat) (t : State), ∃ m, l.foldl (fun s n => s.setInterp n { s.interp n with pend := (s.interp n).pend.filter fun p => !bad p.full }) t =
      { t with interps := m } := by
    intro l
    induction l with
    | nil => exact fun t => ⟨t.interps, rfl⟩
    | cons n rest ih =>
      intro t
      obtain ⟨m, e⟩ := ih (t.setInterp n { t.interp n with pend := (t.interp n).pend.filter fun p => !bad p.full })
      exact ⟨m, e⟩
  exact all _ s

theorem windowClosed_frame (u : State) (ci w : Nat) (win : Window) : ∃ m i v,
    windowClosed u ci w win = { u.setComp ci (windowGone (u.comp ci) w win) with interps := m, inputs := i, ivals := v } := by
  unfold windowClosed
  obtain ⟨m, e⟩ := dropPend_frame (u.setComp ci (windowGone (u.comp ci) w win)) ci fun f => decide (f / 256 = w)
  rw [e]
  exact ⟨m, _, _, rfl⟩

theorem windowClosed_word (u : State) (ci w : Nat) (win : Window) (o e i : Nat) : (windowClosed u ci w win).word o e i = u.word o e i := by
  obtain ⟨m, i, v, e⟩ := windowClosed_frame u ci w win
  rw [e]
  rfl

theorem windowEnded_comp (u : State) (ci w : Nat) (win : Window) : (windowEnded u ci w win).comp ci = windowGone (u.comp ci) w win := by
  obtain ⟨m, i, v, e⟩ := windowClosed_frame u ci w win
  rw [windowEnded, satInc_comp, e]
  exact State.comp_setComp ..

theorem windowEnded_full (u : State) (ci w : Nat) (win : Window) : (windowEnded u ci w win).full = u.full := by
  obtain ⟨m, i, v, e⟩ := windowClosed_frame u ci w win
  rw [windowEnded, State.satInc_full, e]
  rfl

theorem windowEnded_cmd (u : State) (ci w : Nat) (win : Window) : (windowEnded u ci w win).cmd = u.cmd := by
  obtain ⟨m, i, v, e⟩ := windowClosed_frame u ci w win
  rw [windowEnded, State.satInc_cmd, e]
  rfl

theorem windowEnded_get (u : State) (ci w : Nat) (win : Window) :
    (windowEnded u ci w win).get (F.pstb_over_rate_windows.at (ci % 2)) (ci / 2) = plus u (F.pstb_over_rate_windows.at (ci % 2)) (ci / 2) 1 := by
  have low : (F.pstb_over_rate_windows.at (ci % 2)).lo ≤ (F.pstb_over_rate_windows.at (ci % 2)).hi :=
    show F.pstb_over_rate_windows.lo ≤ F.pstb_over_rate_windows.hi by decide
  have high : (F.pstb_over_rate_windows.at (ci % 2)).hi < 64 := show F.pstb_over_rate_windows.hi < 64 by decide
  have same : (windowClosed u ci w win).get (F.pstb_over_rate_windows.at (ci % 2)) (ci / 2) = u.get (F.pstb_over_rate_windows.at (ci % 2)) (ci / 2) := by
    rw [State.get, windowClosed_word, State.get]
  rw [windowEnded, satInc_get_self _ _ _ _ low high, plus_congr same]

/-- The words but the counted one, for a device time. -/
theorem windowEnded_getFor (u : State) (w : Nat) (win : Window) (f : Field) (j full : Nat) (away : wkey f.obj f.sel j ≠ wkey 3 (21 + ci % 2) (ci / 2)) :
    (windowEnded u ci w win).getFor f j full = u.getFor f j full := by
  have word : (windowEnded u ci w win).word f.obj f.sel j = u.word f.obj f.sel j := (State.word_setWord_ne _ _ away).trans (windowClosed_word ..)
  rw [State.getFor, State.getFor, State.wordFor, State.wordFor, windowEnded_cmd, word]

theorem windowEnded_routed (u : State) (hci : ci < 128) (w : Nat) (win : Window) (i full : Nat) : (windowEnded u ci w win).routed i full = u.routed i full := by
  rw [State.routed, windowEnded_getFor u _ _ _ _ _ (by simp only [wkey, F.refsel0_xmeas_en]; omega), State.routed]

theorem windowEnded_boundChanAt (u : State) (w : Nat) (win : Window) (full : Nat) :
    (windowEnded u ci w win).boundChanAt ci full = u.boundChanAt ci full := by
  have away : ∀ f : Field, f.obj = 3 → f.sel = 17 → (windowEnded u ci w win).getFor (f.at (ci % 2)) (ci / 2) full = u.getFor (f.at (ci % 2)) (ci / 2) full :=
    fun f ho hs => windowEnded_getFor u _ _ _ _ _ (by simp only [wkey, Field.at, ho, hs]; omega)
  rw [State.boundChanAt, away F.pcmp_en rfl rfl, away F.pcmp_chan_id rfl rfl, State.boundChanAt]

theorem windowOf_marker (w : Nat) : windowOf (w * 256 * 102400) = w := by
  unfold windowOf
  have tick : Config.edgeTick = 102400 := rfl
  rw [tick]
  omega

/-- What is held of a window that has ended is its marker. -/
theorem pulse_of_windowHeld {x : Comp} {st : Stamp} (m : st ∈ windowHeld x w win) (inside : windowOf st.edge = w) : ∃ k, st.pulse = .marker k := by
  obtain rfl | kept := List.mem_cons.mp ((insertBy_perm ..).mem_iff.mp m)
  · exact ⟨_, rfl⟩
  · obtain ⟨-, out⟩ := List.mem_filter.mp kept
    simp [inside] at out

/-- Where all that was held lay in the window, the marker alone is held. -/
theorem windowHeld_alone {x : Comp} (inside : ∀ st ∈ x.held, windowOf st.edge = w) : windowHeld x w win = [overRateMarker w win] := by
  have none : outsideWindow x w = [] := List.filter_eq_nil_iff.mpr fun st m => by simp [inside st m]
  rw [windowHeld, none]
  rfl

/-- A marker may leave once its window is past. -/
theorem releasable_marker {u : State} (x : Comp) (past : (w + 1) * 256 ≤ u.full) : u.releasable x (overRateMarker w win) = true := by
  have pair : Config.pairRes = 196608 := rfl
  have tick : Config.edgeTick = 102400 := rfl
  show u.pastHold (w * 256 * 102400) = true
  rw [State.pastHold, windowOf_marker, pair, tick]
  simp only [Bool.and_eq_true, decide_eq_true_eq]
  omega

theorem hit_marker (x : Comp) (w : Nat) (win : Window) (c : Nat) : (overRateMarker w win).hit x c =
    { chan := c, time := w * 256 * 1024, tot := 0, flags := 0, merged := false, overRate := true, timeout := false, transitions := min 255 win.count,
      src := 1024, frame := 0, mirage := 0, ref := 0 } := by
  have time : w * 256 * 102400 / 100 = w * 256 * 1024 := by omega
  rw [← time]
  rfl

end

end Sys2Proof.Machine

namespace Sys2Proof

open Sys2Proof.Machine Sys2Proof.Claims

/-- Settles O33: a conversion that ends leaves its slot, and its stamp is timed by `knowStamp` with its table's entry or coarse; at the end of an over-rate window
the stamps outside it and the marker are held, of which releasing takes some away. That an unclean conversion ends with its 32nd lap is the model's choice
(log 48). -/
theorem conversionsAndOverRateWindows : Obligations.ConversionsAndOverRateWindows := by
  refine ⟨?_, ?_⟩
  · intro ci slot code v rest s hci busy hslot n endAt coarse
    have ends := exec_conversionComplete (code := code) busy
    refine ⟨fun tab table clean => ?_, fun none => ?_, ?_⟩
    · have read := tableRead_clean (s := slotLeft s ci slot v code rest) (n := n) (full := v.edge / 102400) (by rw [slotLeft_flt]; exact clean) true
      have timed := conversionRes_timed (s := slotLeft s ci slot v code rest) (ci := ci) (code := code) (n := n) (by rw [slotLeft_interp]; exact table)
      obtain ⟨slots, tb, stamps, quiet⟩ := edgeTimed hci (slotLeft s ci slot v code rest) n (code % 1024) v (tab.entries.getD (code % 1024) 0)
      refine ⟨_, (ends true).trans ((congrArg (conversionRes · ci n code true v) read).trans timed), ?_, fun idle => ?_, ?_, ?_⟩
      · rw [slots, slotLeft_slots]
      · rw [quiet fun k hk => by rw [slotLeft_interp]; exact idle k hk, slotLeft_flt]
      · rw [tb, slotLeft_tick]
      · rw [stampAt_congr (edgeWords_slotLeft ..) hci] at stamps
        exact stamps
    · have away : ((slotLeft s ci slot v code rest).interp n).tableFor (v.edge / 102400) = Option.none := by rw [slotLeft_interp]; exact none
      have read := tableRead_untimed away true
      obtain ⟨-, flt, -⟩ := coarseStamped_keeps hci (slotLeft s ci slot v code rest) v
      refine ⟨_, (ends true).trans ((congrArg (conversionRes · ci n code true v) read).trans (conversionRes_untimed away)), slotLeft_coarseStamped hci .., ?_⟩
      rw [flt, slotLeft_flt]
    · obtain ⟨tb, flt, on⟩ := coarseStamped_keeps hci (slotLeft s ci slot v 0 rest) v
      refine ⟨_, (ends false).trans (conversionRes_failed ..), ?_, ?_, ?_⟩
      · obtain ⟨slots, count, stamps⟩ := slotLeft_coarseStamped hci s slot v 0 rest
        refine ⟨?_, (raise_get ..).trans count, fun st m => stamps st ?_⟩
        · rw [State.comp, raise_comps]
          exact slots
        · rw [State.comp, raise_comps] at m
          exact m
      · exact raise_flt_congr (flt.trans (slotLeft_flt ..)) (fun d => (on d).trans (slotLeft_get ..)) (by omega) _ _ _
      · exact (congrArg TimeBase.tick ((raise_tb ..).trans tb)).trans (slotLeft_tick ..)
  · intro ci w win s hci overRate u
    have made := exec_overRateWindowEnd overRate
    have comp : u.comp ci = s.comp ci := advanceFull_comp ..
    have ended : (windowEnded u ci w win).comp ci = windowGone (s.comp ci) w win := by rw [windowEnded_comp, comp]
    obtain ⟨⟨h, left, sub⟩, words⟩ := stampsLeft_releaseHeld ((windowHeld (s.comp ci) w win).length + 1) (windowEnded u ci w win) ci
    have low := stampsLeft.get ⟨⟨h, left, sub⟩, words⟩ (F.pstb_over_rate_windows.at (ci % 2)) (ci / 2) (by
      simp only [wkey, F.pstb_over_rate_windows, Field.at]
      omega)
    rw [ended] at left sub
    refine ⟨_, made, ?_, fun st m inside => ?_, ?_, fun inside past routed c bound => ?_⟩
    · rw [left]
      exact mfind_merase_self ..
    · rw [left] at m
      exact pulse_of_windowHeld (sub m) inside
    · rw [low, windowEnded_get]
      exact plus_congr (advanceFull_get ..) 1
    · have alone := windowHeld_alone (win := win) inside
      have held : ((windowEnded u ci w win).comp ci).held = [overRateMarker w win] := by
        rw [ended]
        exact alone
      have may := releasable_marker (u := windowEnded u ci w win) (win := win) ((windowEnded u ci w win).comp ci) (by rw [windowEnded_full]; exact past)
      have at1 : w * 256 * 102400 / 102400 = w * 256 := by omega
      have sent := releaseHeld_bound held rfl may rfl (windowHeld (s.comp ci) w win).length (c := c)
        (by rw [windowEnded_routed u hci]; exact (congrArg (u.routed (ci / 2)) at1).trans routed)
        (by rw [windowEnded_boundChanAt]; exact (congrArg (u.boundChanAt ci) at1).trans bound)
      rw [hit_marker] at sent
      exact ⟨_, by rw [State.comp_setComp], sent⟩

end Sys2Proof
end

section
/-! PROOF. A refuted statement about the timeouts of intervals (R95): a state may hold an armed start of a comparator number beyond 127, whose words lie in the
register store at the keys of other objects. -/

namespace Sys2Proof.Machine

open Sys2Proof.Claims

/-- A start of a comparator number for which the count of its timeouts lies in the word of core die 0's anchor precision queue, and its own word in that of
host queue 0, which is enabled at reset. -/
def strayStart : IvEdge := { start := true, comp := 2 * (wkey 5 9 0 - wkey 3 21 0), edge := 0, time := some 0, flags := 0, merged := false, ended := false }

/-- The state at reset, with that start armed at input 0. -/
def strayArmed : State := State.reset.setInp 0 { overTo := none, armed := some strayStart, wait := [] }

/-- The interval's timeout counts twice in that word: once as the timeout, and once as a dropped hit of the channel to which the word of host queue 0
would bind the comparator. -/
theorem strayArmed_run :
    (match exec (.intervalTimeout 0) strayArmed with
      | .next t => t.get (F.pstb_ival_timeouts.at (strayStart.comp % 2)) (strayStart.comp / 2)
      | _ => 0) = 2 := by
  decide +kernel

end Sys2Proof.Machine

namespace Sys2Proof

open Sys2Proof.Machine Sys2Proof.Claims

/-- Refutes O34: its clause of an interval's timeout takes an armed start of any comparator number, where the device has 128, and with one that places the count of
timeouts in the word of an anchor precision queue the TIMEOUT that is then discarded counts there a second time. The model's own steps arm starts of comparators 0 to
127 alone: the statement lacks that hypothesis. The order of judging what still converts (log 48) is in parts of the clause on which nothing here turns. -/
theorem not_overdriveAndTimeouts : ¬ Obligations.OverdriveAndTimeouts := by
  rintro ⟨-, -, -, -, timeouts⟩
  obtain ⟨-, count, -, run, -⟩ := timeouts 0 strayStart 0 strayArmed (by decide) (by decide +kernel) rfl
  have twice := strayArmed_run
  rw [run (by decide +kernel)] at twice
  have once : plus strayArmed (F.pstb_ival_timeouts.at (strayStart.comp % 2)) (strayStart.comp / 2) 1 = 1 := by decide +kernel
  exact absurd (twice.symm.trans (count.trans once)) (by decide)

end Sys2Proof
end

section
/-! PROOF. What a lane's partner-time model shows, and what its fits and states leave alone (R185 to R188, R199). -/

namespace Sys2Proof.Machine

open Sys2Proof.Claims

/-! ### Words outside the timing status -/

/-- The words below the timing status words A and B of the lanes, and those between them and the host queues' counts, are as they were. -/
def timingWords (s t : State) : Prop := ∀ k, k < wkey 1 8 0 ∨ (wkey 1 10 0 ≤ k ∧ k < wkey 5 7 0) → regGet t.regs k = regGet s.regs k

/-- Register words and records for host queues have changed: of the words none outside the timing status and the host queues', and not the state of lane
`l`'s model. -/
def shown (l : Nat) (s t : State) : Prop :=
  (∃ r h, t = { s with regs := r, hqs := h }) ∧ timingWords s t ∧ t.get F.ltsb_mstate l = s.get F.ltsb_mstate l

/-- Lane `l` has the model `m`; device time, the groups, and the words outside the timing status are as they were. -/
def becomes (l : Nat) (m : Model) (s t : State) : Prop := t.model l = m ∧ t.tb = s.tb ∧ t.groups = s.groups ∧ timingWords s t

section
variable {l : Nat} {m : Model} {s t u : State}

theorem timingWords.trans (h : timingWords s t) (h' : timingWords t u) : timingWords s u := fun k hk => (h' k hk).trans (h k hk)

theorem timingWords.get (h : timingWords s t) (f : Field) (j : Nat)
    (away : wkey f.obj f.sel j < wkey 1 8 0 ∨ (wkey 1 10 0 ≤ wkey f.obj f.sel j ∧ wkey f.obj f.sel j < wkey 5 7 0)) : t.get f j = s.get f j :=
  congrArg (bits · f.hi f.lo) (h _ away)

theorem shown_refl (l : Nat) (s : State) : shown l s s := ⟨⟨s.regs, s.hqs, rfl⟩, fun _ _ => rfl, rfl⟩

theorem shown.trans (h : shown l s t) (h' : shown l t u) : shown l s u := by
  obtain ⟨⟨r, q, rfl⟩, words, state⟩ := h
  obtain ⟨⟨r', q', rfl⟩, words', state'⟩ := h'
  exact ⟨⟨r', q', rfl⟩, words.trans words', state'.trans state⟩

theorem shown.model (h : shown l s t) (j : Nat) : t.model j = s.model j := by
  obtain ⟨⟨r, q, rfl⟩, -⟩ := h
  rfl

theorem shown.becomes (h : shown l s t) : becomes l (s.model l) s t := by
  have model := h.model l
  obtain ⟨⟨r, q, rfl⟩, words, -⟩ := h
  exact ⟨model, rfl, rfl, words⟩

theorem becomes_setModel (s : State) (l : Nat) (m : Model) : becomes l m s (s.setModel l m) := ⟨State.model_setModel .., rfl, rfl, fun _ _ => rfl⟩

theorem becomes.trans {m' : Model} (h : becomes l m s t) (h' : becomes l m' t u) : becomes l m' s u := by
  obtain ⟨-, tb, groups, words⟩ := h
  obtain ⟨model, tb', groups', words'⟩ := h'
  exact ⟨model, tb'.trans tb, groups'.trans groups, words.trans words'⟩

theorem becomes.shows (h : becomes l m s t) (h' : shown l t u) : becomes l m s u := by
  have later := h.trans h'.becomes
  obtain ⟨model, -⟩ := h
  rw [model] at later
  exact later

/-- A timing status field of a lane, beside the state of a model. -/
theorem shown_put (l : Nat) (s : State) (f : Field) {i : Nat} (v : Nat) (lane : i < 2 ^ 24) (status : f.obj = 1 ∧ f.sel = 9) (field : f.lo ≤ f.hi ∧ f.hi < 64)
    (apart : 15 < f.lo ∨ f.hi < 13) : shown l s (s.put f i v) := by
  obtain ⟨obj, sel⟩ := status
  refine ⟨⟨_, s.hqs, rfl⟩, fun k hk => mget_mset_ne' _ _ _ _ ?_, State.get_put_disjoint s f F.ltsb_mstate i l v field (by decide) apart.symm⟩
  simp only [wkey, obj, sel] at hk ⊢
  omega

theorem shown_showFit (hl : l < 1024) (s : State) : shown l s (showFit s l) := by
  have offset : ∀ (u : State) (v : Nat), shown l u (u.put F.ltsa_offset l v) := fun u v => by
    refine ⟨⟨_, u.hqs, rfl⟩, fun k hk => mget_mset_ne' _ _ _ _ ?_, State.get_put_ne u _ _ _ _ _ ?_⟩
    · simp only [wkey, F.ltsa_offset] at hk ⊢
      omega
    · simp only [wkey, F.ltsa_offset, F.ltsb_mstate]
      omega
  have rate := fun (u : State) (v : Nat) => shown_put l u F.ltsb_rate (i := l) v (by omega) (by decide) (by decide) (by decide)
  unfold showFit
  extract_lets m filled
  have fill : shown l s filled := shown_put l s F.ltsb_fill_log2 _ (by omega) (by decide) (by decide) (by decide)
  exact iteInduction (fun _ => (fill.trans (offset ..)).trans (rate ..)) fun _ => (fill.trans (offset ..)).trans (rate ..)

theorem span_lt {s : State} {g m : Nat} (h : m ∈ s.span g) : m < g + 8 := by
  have width : s.get F.grp_width_cfg g < 4 := bits_lt (show F.grp_width_cfg.lo ≤ F.grp_width_cfg.hi by decide) (show F.grp_width_cfg.hi < 64 by decide)
  have wide : 2 ^ s.get F.grp_width_cfg g ≤ 2 ^ 3 := Nat.pow_le_pow_right (by decide) (by omega)
  rw [State.span, State.groupWidth, upTo, List.mem_map] at h
  obtain ⟨k, hk, rfl⟩ := h
  have := List.mem_range.mp hk
  omega

theorem groupOf_le (s : State) (l : Nat) : s.groupOf l ≤ l := Nat.sub_le ..

theorem shown_foldl {α : Type} {f : State → α → State} (ls : List α) (h : ∀ s, ∀ a ∈ ls, shown l s (f s a)) (s : State) : shown l s (ls.foldl f s) := by
  induction ls generalizing s with
  | nil => exact shown_refl l s
  | cons a rest ih =>
    rw [List.foldl_cons]
    exact (h s a List.mem_cons_self).trans (ih (fun s b hb => h s b (List.mem_cons_of_mem a hb)) (f s a))

theorem shown_showModelLane (l : Nat) (s : State) {g : Nat} (hg : g < 1024) : shown l s (showModelLane s g) := by
  unfold showModelLane
  exact shown_foldl _ (fun u m hm => shown_put l u F.ltsb_model_lane _ (by
    have := span_lt hm
    omega) (by decide) (by decide) (by decide)) s

theorem shown_event (l : Nat) (s : State) (p a b c d : Nat) (ws : List Word) : shown l s (event s p a b c d ws) := by
  unfold event emit
  refine iteInduction (fun _ => ⟨⟨s.regs, _, rfl⟩, fun _ _ => rfl, rfl⟩) fun _ => ⟨⟨_, s.hqs, rfl⟩, fun k hk => mget_mset_ne' _ _ _ _ ?_,
    State.get_put_disjoint s F.qhb_rec_dropped F.ltsb_mstate _ l _ (by decide) (by decide) (by decide)⟩
  simp only [wkey, F.qhb_rec_dropped] at hk ⊢
  omega

theorem shown_eventBoth (l : Nat) (s : State) (p a b c d : Nat) (ws : List Word) : shown l s (eventBoth s p a b c d ws) := by
  unfold eventBoth
  exact iteInduction (fun _ => shown_event ..) fun _ => (shown_event ..).trans (shown_event ..)

/-! ### States of a model -/

/-- A model takes a state (R186). -/
theorem putMstate_takes (hl : l < 1024) (s : State) {st : Nat} (hst : st < 8) :
    becomes l { s.model l with enteredAt := s.tb.tick } s (putMstate s l st) ∧ (putMstate s l st).get F.ltsb_mstate l = st := by
  unfold putMstate
  generalize noted : (s.put F.ltsb_mstate l st).setModel l { s.model l with enteredAt := s.tb.tick } = u
  have shows := shown_showModelLane l u (g := s.groupOf l) (Nat.lt_of_le_of_lt (groupOf_le s l) hl)
  have state : u.get F.ltsb_mstate l = st := by
    rw [← noted, State.setModel_get, State.get_put_self _ _ _ _ (by decide) (by decide)]
    exact Nat.mod_eq_of_lt hst
  have model : becomes l { s.model l with enteredAt := s.tb.tick } s u := by
    rw [← noted]
    refine ⟨State.model_setModel .., rfl, rfl, fun k hk => mget_mset_ne' _ _ _ _ ?_⟩
    simp only [wkey, F.ltsb_mstate] at hk ⊢
    omega
  exact ⟨model.shows shows, shows.2.2.trans state⟩

/-- ACQUIRE with an empty window (R186). -/
theorem modelAcquire_takes (hl : l < 1024) (s : State) :
    becomes l { (s.model l).cleared with enteredAt := s.tb.tick } s (modelAcquire s l) ∧ (modelAcquire s l).get F.ltsb_mstate l = 1 := by
  have emptied := (becomes_setModel s l (s.model l).cleared).shows (shown_showFit hl _)
  have ⟨model, tb, _⟩ := emptied
  obtain ⟨entered, state⟩ := putMstate_takes hl (showFit (s.setModel l (s.model l).cleared) l) (st := 1) (by decide)
  rw [model, tb] at entered
  exact ⟨emptied.trans entered, state⟩

/-- NONE (R182, R186). -/
theorem modelNone_takes (hl : l < 1024) (s : State) :
    becomes l { (s.model l).emptied with lastT2 := none, lastAccept := none, enteredAt := s.tb.tick } s (modelNone s l) ∧ (modelNone s l).get F.ltsb_mstate l = 0 := by
  unfold modelNone
  extract_lets x v
  have emptied : becomes l { (s.model l).emptied with lastT2 := none, lastAccept := none } s (showFit v l) :=
    (becomes_setModel s l _).shows (shown_showFit hl _)
  have ⟨model, tb, _⟩ := emptied
  obtain ⟨entered, state⟩ := putMstate_takes hl (showFit v l) (st := 0) (by decide)
  rw [model, tb] at entered
  have calm := shown_put l (putMstate (showFit v l) l 0) F.ltsb_resid_rms (i := l) 0 (by omega) (by decide) (by decide) (by decide)
  exact ⟨(emptied.trans entered).shows calm, calm.2.2.trans state⟩

end

end Sys2Proof.Machine
end

section
/-! PROOF. What a pair does to a lane's partner-time model: the window, the fits and the states (R185 to R188). -/

namespace Sys2Proof.Machine

open Sys2Proof.Claims

/-! ### Rounding -/

theorem roundHalfUp_zero (den : Nat) : roundHalfUp 0 den = 0 := by
  unfold roundHalfUp
  rcases Nat.eq_zero_or_pos den with rfl | pos
  · rfl
  · exact Int.ediv_eq_zero_of_lt (by omega) (by omega)

theorem quotient_zero (den : Int) : quotient 0 den = 0 := roundHalfUp_zero _

/-! ### The window -/

/-- The window with a pair joined to it, of at most `size` pairs (R185). -/
def Model.joined (m : Model) (size : Nat) (p : Pair) : List Pair := (m.window ++ [p]).drop (m.window.length + 1 - size)

/-- A fit falls due with the window `w` (R185). -/
def Model.fitFalls (m : Model) (w : List Pair) : Bool :=
  (decide (m.window.length < w.length) && (w.length = 64 || w.length = 256 || w.length = 1024 || w.length = 4096)) || decide (4096 ≤ m.sinceFit + 1)

/-- The model whose window is `w` by a pair that joined it; a fit that falls due replaces one not yet computed (log 20). -/
def Model.withWindow (m : Model) (w : List Pair) : Model :=
  { m with window := w, sinceFit := if m.fitFalls w then 0 else m.sinceFit + 1, fitDue := if m.fitFalls w then some w else m.fitDue }

/-- What a model holds of its exchanges is as it was. -/
def sameExchanges (m m' : Model) : Prop := m'.beacons = m.beacons ∧ m'.echoes = m.echoes ∧ m'.lastT2 = m.lastT2 ∧ m'.lastAccept = m.lastAccept

section
variable {l : Nat} {m m' m'' : Model} {s t u : State}

theorem sameExchanges.trans (h : sameExchanges m m') (h' : sameExchanges m' m'') : sameExchanges m m'' := by
  obtain ⟨a, b, c, d⟩ := h
  obtain ⟨a', b', c', d'⟩ := h'
  exact ⟨a'.trans a, b'.trans b, c'.trans c, d'.trans d⟩

theorem Model.fitFalls_iff (m : Model) (w : List Pair) : m.fitFalls w = true ↔
    (m.window.length < w.length ∧ (w.length = 64 ∨ w.length = 256 ∨ w.length = 1024 ∨ w.length = 4096)) ∨ 4096 ≤ m.sinceFit + 1 := by
  simp [Model.fitFalls, or_assoc]

theorem joinWindow_shows (hl : l < 1024) (s : State) (p : Pair) :
    becomes l ((s.model l).withWindow ((s.model l).joined (2 ^ s.get F.ltc_fit_log2 l) p)) s (joinWindow s l p) ∧
      (joinWindow s l p).get F.ltsb_mstate l = s.get F.ltsb_mstate l := by
  unfold joinWindow
  extract_lets m size grown0 w grown due v
  have now : v = s.setModel l ((s.model l).withWindow ((s.model l).joined (2 ^ s.get F.ltc_fit_log2 l) p)) := by
    have joined : w = (s.model l).joined (2 ^ s.get F.ltc_fit_log2 l) p := congrArg (fun n => grown0.drop (n - size)) List.length_append
    rw [← joined]
    rfl
  have filled := shown_put l v F.ltsb_fill_log2 (i := l) (min 31 (fillLog2 w.length)) (by omega) (by decide) (by decide) (by decide)
  have ⟨_, _, state⟩ := filled
  rw [state, now]
  exact ⟨(becomes_setModel s l _).shows (now ▸ filled), rfl⟩

/-! ### Fits -/

theorem fitWindow_shows (hl : l < 1024) (s : State) {ps : List Pair} {p : Pair} (last : ps.getLast? = some p) :
    ∃ u d g, becomes l { s.model l with u := u, d := d, g := g, fitted := true, fitDue := none } s (fitWindow s l ps) ∧
      (fitWindow s l ps).get F.ltsb_mstate l = s.get F.ltsb_mstate l := by
  have shows : ∀ (f : Model) (v : Nat), becomes l f s ((showFit (s.setModel l f) l).put F.ltsb_resid_rms l v) ∧
      ((showFit (s.setModel l f) l).put F.ltsb_resid_rms l v).get F.ltsb_mstate l = s.get F.ltsb_mstate l := fun f v => by
    have shown := (shown_showFit hl (s.setModel l f)).trans (shown_put l _ F.ltsb_resid_rms (i := l) v (by omega) (by decide) (by decide) (by decide))
    have ⟨_, _, state⟩ := shown
    exact ⟨(becomes_setModel s l f).shows shown, state⟩
  unfold fitWindow
  rw [last]
  extract_lets m
  dsimp only
  split
  · exact ⟨_, _, _, shows ..⟩
  · exact ⟨_, _, _, shows ..⟩

/-- The sums of pairs on a line of unit slope are those of its deviations, which are zero. -/
theorem fitSums_unit {u0 d0 : Int} (ps : List Pair) (unit : ∀ q ∈ ps, q.d - q.u = d0 - u0) :
    ∃ n sx sxx, fitSums u0 d0 ps = (n, sx, 0, sxx, 0) := by
  have steps : ∀ (ps : List Pair), (∀ q ∈ ps, q.d - q.u = d0 - u0) → ∀ a : Nat × Int × Int × Int × Int, a.2.2.1 = 0 → a.2.2.2.2 = 0 →
      ∃ n sx sxx, ps.foldl (fun a p =>
        let x := p.u - u0
        let y := (p.d - d0) - x
        (a.1 + 1, a.2.1 + x, a.2.2.1 + y, a.2.2.2.1 + x * x, a.2.2.2.2 + x * y)) a = (n, sx, 0, sxx, 0) := by
    intro ps
    induction ps with
    | nil =>
      rintro - ⟨n, sx, sy, sxx, sxy⟩ rfl rfl
      exact ⟨n, sx, sxx, rfl⟩
    | cons q rest ih =>
      rintro unit ⟨n, sx, sy, sxx, sxy⟩ rfl rfl
      have flat : q.d - d0 - (q.u - u0) = 0 := by
        have := unit q List.mem_cons_self
        omega
      rw [List.foldl_cons]
      exact ih (fun q hq => unit q (List.mem_cons_of_mem _ hq)) _ (by simp [flat]) (by simp [flat])
  exact steps ps unit _ rfl rfl

/-- The offset shown after a fit (R199). -/
theorem fittedOffset (s : State) (v : Nat) (fitted : m.fitted = true) :
    ((showFit (s.setModel l m) l).put F.ltsb_resid_rms l v).get F.ltsa_offset l = ofSigned 64 (roundHalfUp (m.d - m.u) 16) := by
  have other : wkey F.ltsa_offset.obj F.ltsa_offset.sel l ≠ wkey F.ltsb_rate.obj F.ltsb_rate.sel l := by
    simp only [wkey, F.ltsa_offset, F.ltsb_rate]
    omega
  rw [State.get_put_ne _ F.ltsb_resid_rms F.ltsa_offset _ _ _ other, showFit, State.model_setModel]
  rw [if_pos fitted, State.get_put_ne _ F.ltsb_rate F.ltsa_offset _ _ _ other, State.get_put_self _ _ _ _ (by decide) (by decide)]
  exact Nat.mod_eq_of_lt (ofSigned_lt 64 _)

/-- A fit of pairs of unit slope goes through its newest pair (R185). -/
theorem fitWindow_unit (s : State) (l : Nat) {ps : List Pair} {p : Pair} (last : ps.getLast? = some p) (unit : ∀ q ∈ ps, q.d - q.u = p.d - p.u) :
    ∃ m v, fitWindow s l ps = (showFit (s.setModel l m) l).put F.ltsb_resid_rms l v ∧ m.u = p.u ∧ m.d = p.d ∧ m.fitted = true ∧ m.fitDue = none := by
  obtain ⟨n, sx, sxx, sums⟩ := fitSums_unit ps unit
  simp only [fitWindow, last, sums, zero_mul, mul_zero, sub_zero, quotient_zero, add_zero]
  split
  · exact ⟨_, _, rfl, rfl, rfl, rfl, rfl⟩
  · exact ⟨_, _, rfl, rfl, rfl, rfl, rfl⟩

/-! ### States -/

/-- Lane `l` has the model `m` in the state `st`, and what `becomes` names is as it was. -/
def takes (l : Nat) (m : Model) (st : Nat) (s t : State) : Prop := becomes l m s t ∧ t.get F.ltsb_mstate l = st

theorem takes.model (h : takes l m st s t) : t.model l = m := h.1.1

theorem becomes.before (h : becomes l m s t) (h' : takes l m' st t u) : takes l m' st s u := ⟨h.trans h'.1, h'.2⟩

/-- A state is taken, with the model as it is. -/
theorem becomes.enters (hl : l < 1024) (h : becomes l m s t) {st : Nat} (hst : st < 8) : takes l { m with enteredAt := s.tb.tick } st s (putMstate t l st) := by
  have entered := putMstate_takes hl t hst
  obtain ⟨model, tb, -⟩ := id h
  rw [model, tb] at entered
  exact h.before entered

theorem takes.shows (h : takes l m n s t) (h' : shown l t u) : takes l m n s u := by
  obtain ⟨model, state⟩ := h
  have ⟨_, _, same⟩ := h'
  exact ⟨model.shows h', same.trans state⟩

theorem put_setModel (s : State) (f : Field) (i v : Nat) (m : Model) : (s.setModel l m).put f i v = (s.put f i v).setModel l m := by
  unfold State.put State.setWord State.word
  rw [State.setModel_regs]
  generalize regSet s.regs _ _ = r
  rfl

theorem satInc_setModel (s : State) (f : Field) (i n : Nat) (m : Model) : (s.setModel l m).satInc f i n = (s.satInc f i n).setModel l m := by
  unfold State.satInc
  rw [State.setModel_get, put_setModel]

/-- A step in the partner's time: its pairs become the window, and the model VALID (R187). -/
theorem modelStep_takes (hl : l < 1024) (s : State) (ps : List Pair) :
    ∃ u d, takes l { s.model l with u := u, d := d, window := ps, held := [], sinceFit := 0, fitDue := none, enteredAt := s.tb.tick } 2
      (s.satInc F.ltsc_steps l 1) (modelStep s l ps) := by
  unfold modelStep
  extract_lets m n sum mean16 x stepped entry first
  have shows := (becomes_setModel (s.satInc F.ltsc_steps l 1) l
    { m with u := quotient (sum (·.u)) n, d := quotient (sum (·.d)) n, window := ps, held := [], sinceFit := 0, fitDue := none }).shows (shown_showFit hl _)
  have entered := shows.enters hl (st := 2) (by decide)
  rw [← satInc_setModel, State.satInc_tb] at entered
  exact ⟨_, _, entered.shows (shown_eventBoth ..)⟩

/-! ### A pair -/

/-- The sixteenth pair in a row beyond the limit, on the side of those before it, is a step (R187). -/
theorem takePair_steps (s : State) (p : Pair) (suspect : s.get F.ltsb_mstate l = 3) (outside : s.stepLimit l < ((s.model l).resid p).natAbs) (fifteen : (s.model l).held.length = 15)
    (side : ∀ q ∈ (s.model l).held, 0 ≤ (s.model l).resid q ↔ 0 ≤ (s.model l).resid p) : takePair s l p = modelStep s l ((s.model l).held ++ [p]) := by
  obtain ⟨q, newest⟩ : ∃ q, (s.model l).held.getLast? = some q := by
    cases found : (s.model l).held.getLast? with
    | none => simp [List.getLast?_eq_none_iff.mp found] at fifteen
    | some q => exact ⟨q, rfl⟩
  have same := side q (List.mem_of_getLast? newest)
  simp [takePair, suspect, outside, newest, same, fifteen]

section
variable (hl : l < 1024) (s : State) (p : Pair)
include hl

theorem takePair_short (acquire : s.get F.ltsb_mstate l = 1) (short : ((s.model l).joined (2 ^ s.get F.ltc_fit_log2 l) p).length < 64) :
    takes l ((s.model l).withWindow ((s.model l).joined (2 ^ s.get F.ltc_fit_log2 l) p)) 1 s (takePair s l p) := by
  obtain ⟨joins, state⟩ := joinWindow_shows hl s p
  have window := congrArg (fun m => m.window.length) joins.1
  simp only [takePair, acquire]
  rw [if_neg (by rw [window]; exact Nat.not_le.mpr short)]
  exact ⟨joins, state.trans acquire⟩

theorem takePair_full (acquire : s.get F.ltsb_mstate l = 1) (full : 64 ≤ ((s.model l).joined (2 ^ s.get F.ltc_fit_log2 l) p).length) :
    ∃ u d g, takes l { (s.model l).withWindow ((s.model l).joined (2 ^ s.get F.ltc_fit_log2 l) p) with
      u := u, d := d, g := g, fitted := true, fitDue := none, enteredAt := s.tb.tick } 2 s (takePair s l p) := by
  obtain ⟨joins, -⟩ := joinWindow_shows hl s p
  have model := joins.1
  simp only [takePair, acquire]
  rw [if_pos (by rw [model]; exact full), model]
  obtain ⟨q, last⟩ : ∃ q, ((s.model l).joined (2 ^ s.get F.ltc_fit_log2 l) p).getLast? = some q := by
    cases found : ((s.model l).joined (2 ^ s.get F.ltc_fit_log2 l) p).getLast? with
    | none => simp [List.getLast?_eq_none_iff.mp found] at full
    | some q => exact ⟨q, rfl⟩
  obtain ⟨u, d, g, fits, -⟩ := fitWindow_shows hl (joinWindow s l p) last
  rw [model] at fits
  exact ⟨u, d, g, (joins.trans fits).enters hl (by decide)⟩

theorem takePair_suspects (valid : s.get F.ltsb_mstate l = 2) (outside : s.stepLimit l < ((s.model l).resid p).natAbs) :
    takes l { s.model l with held := [p], enteredAt := s.tb.tick } 3 s (takePair s l p) := by
  simp only [takePair, valid]
  rw [if_pos (decide_eq_true outside)]
  exact (becomes_setModel s l _).enters hl (by decide)

theorem takePair_joins (valid : s.get F.ltsb_mstate l = 2) (within : ¬ s.stepLimit l < ((s.model l).resid p).natAbs) :
    takes l ((s.model l).withWindow ((s.model l).joined (2 ^ s.get F.ltc_fit_log2 l) p)) 2 s (takePair s l p) := by
  obtain ⟨joins, state⟩ := joinWindow_shows hl s p
  simp only [takePair, valid]
  rw [if_neg (by simpa using within)]
  exact ⟨joins, state.trans valid⟩

theorem takePair_returns (suspect : s.get F.ltsb_mstate l = 3) (within : ¬ s.stepLimit l < ((s.model l).resid p).natAbs) :
    takes l { ({ s.model l with held := [] }).withWindow ((s.model l).joined (2 ^ s.get F.ltc_fit_log2 l) p) with enteredAt := s.tb.tick } 2
      (s.satInc F.ltsc_outliers l (s.model l).held.length) (takePair s l p) := by
  have other : wkey F.ltc_fit_log2.obj F.ltc_fit_log2.sel l ≠ wkey F.ltsc_outliers.obj F.ltsc_outliers.sel l := by
    simp only [wkey, F.ltc_fit_log2, F.ltsc_outliers]
    omega
  have size : (s.satInc F.ltsc_outliers l (s.model l).held.length).get F.ltc_fit_log2 l = s.get F.ltc_fit_log2 l := State.get_put_ne _ _ _ _ _ _ other
  simp only [takePair, suspect]
  rw [if_pos (by simpa using within)]
  have emptied := becomes_setModel (s.satInc F.ltsc_outliers l (s.model l).held.length) l { s.model l with held := [] }
  obtain ⟨joins, -⟩ := joinWindow_shows hl ((s.satInc F.ltsc_outliers l (s.model l).held.length).setModel l { s.model l with held := [] }) p
  rw [State.model_setModel, State.setModel_get, size] at joins
  have entered := (emptied.trans joins).enters hl (st := 2) (by decide)
  rw [State.satInc_tb] at entered
  exact entered

theorem takePair_breaksResume (resume : s.get F.ltsb_mstate l = 5) (outside : s.stepLimit l < ((s.model l).resid p).natAbs) :
    takes l { (s.model l).cleared with enteredAt := s.tb.tick } 1 s (takePair s l p) := by
  simp only [takePair, resume]
  rw [if_pos (by simp [outside])]
  exact modelAcquire_takes hl s

/-- Pairs that join the window one after another. -/
theorem joinWindows_keep (ps : List Pair) (s : State) : ∃ m, becomes l m s (ps.foldl (fun s q => joinWindow s l q) s) ∧ m.held = (s.model l).held ∧ sameExchanges (s.model l) m := by
  induction ps generalizing s with
  | nil => exact ⟨_, ⟨rfl, rfl, rfl, fun _ _ => rfl⟩, rfl, rfl, rfl, rfl, rfl⟩
  | cons q rest ih =>
    obtain ⟨joins, -⟩ := joinWindow_shows hl s q
    obtain ⟨m, later, held, exchanges⟩ := ih (joinWindow s l q)
    rw [joins.1] at held exchanges
    rw [List.foldl_cons]
    exact ⟨m, joins.trans later, held, exchanges⟩

theorem takePair_resumes (resume : s.get F.ltsb_mstate l = 5) (fitted : (s.model l).fitted = true) (within : ¬ s.stepLimit l < ((s.model l).resid p).natAbs)
    (fifteen : (s.model l).held.length = 15) : ∃ m, takes l m 2 s (takePair s l p) ∧ m.held = [] ∧ sameExchanges (s.model l) m := by
  obtain ⟨m, joins, held, exchanges⟩ := joinWindows_keep hl ((s.model l).held ++ [p]) (s.setModel l { s.model l with held := [] })
  rw [State.model_setModel] at held exchanges
  simp only [takePair, resume]
  rw [if_neg (by simp [fitted, Nat.not_lt.mp within]), if_pos (by omega)]
  exact ⟨_, ((becomes_setModel s l _).trans joins).enters hl (by decide), held, exchanges⟩

end

/-! ### The exchanges that a pair leaves alone -/

/-- What lane `l`'s model holds of its exchanges is as it was. -/
def exchangesKept (l : Nat) (s t : State) : Prop := sameExchanges (s.model l) (t.model l)

theorem exchangesKept.setModel (u : State) (h : sameExchanges (s.model l) m) : exchangesKept l s (u.setModel l m) := by
  unfold exchangesKept
  rw [State.model_setModel]
  exact h

theorem exchangesKept.enters (hl : l < 1024) (h : exchangesKept l s t) {st : Nat} (hst : st < 8) : exchangesKept l s (putMstate t l st) := by
  unfold exchangesKept
  rw [(putMstate_takes hl t hst).1.1]
  exact h.trans ⟨rfl, rfl, rfl, rfl⟩

theorem exchangesKept.joins (hl : l < 1024) (h : exchangesKept l s t) (p : Pair) : exchangesKept l s (joinWindow t l p) := by
  unfold exchangesKept
  rw [(joinWindow_shows hl t p).1.1]
  exact h.trans ⟨rfl, rfl, rfl, rfl⟩

theorem exchangesKept.fits (hl : l < 1024) (h : exchangesKept l s t) (ps : List Pair) : exchangesKept l s (fitWindow t l ps) := by
  unfold exchangesKept
  cases newest : ps.getLast? with
  | none =>
    rw [fitWindow, newest]
    exact h
  | some q =>
    obtain ⟨_, _, _, fits, -⟩ := fitWindow_shows hl t newest
    rw [fits.1]
    exact h.trans ⟨rfl, rfl, rfl, rfl⟩

theorem exchangesKept.steps (hl : l < 1024) (h : exchangesKept l s t) (ps : List Pair) : exchangesKept l s (modelStep t l ps) := by
  unfold exchangesKept
  obtain ⟨_, _, takes⟩ := modelStep_takes hl t ps
  rw [takes.model]
  exact h.trans ⟨rfl, rfl, rfl, rfl⟩

theorem exchangesKept_satInc (s : State) (f : Field) (l n : Nat) : exchangesKept l s (s.satInc f l n) := by
  unfold exchangesKept
  rw [State.satInc_model]
  exact ⟨rfl, rfl, rfl, rfl⟩

/-- A pair leaves alone what the model holds of its exchanges. -/
theorem takePair_exchanges (hl : l < 1024) (s : State) (p : Pair) : exchangesKept l s (takePair s l p) := by
  have same : ∀ m : Model, sameExchanges m m := fun _ => ⟨rfl, rfl, rfl, rfl⟩
  have held : ∀ {m m' : Model} (ps : List Pair), sameExchanges m m' → sameExchanges m { m' with held := ps } := fun _ h => h
  unfold takePair
  extract_lets m r beyond joined returned side counted ps before resumed
  split
  · exact iteInduction (fun _ => ((exchangesKept.joins hl (same _) p).fits hl _).enters hl (by decide)) fun _ => exchangesKept.joins hl (same _) p
  · exact iteInduction (fun _ => exchangesKept.enters hl (exchangesKept.setModel s (held [p] (same m))) (by decide)) fun _ => exchangesKept.joins hl (same _) p
  · refine iteInduction (fun _ => exchangesKept.enters hl (exchangesKept.joins hl (exchangesKept.setModel _ (held [] (same m))) p) (by decide)) fun _ => ?_
    have outliers : exchangesKept l s counted := iteInduction (fun _ => same _) fun _ => exchangesKept_satInc ..
    exact iteInduction (fun _ => outliers.steps hl ps) fun _ => exchangesKept.setModel _ (held ps outliers)
  · refine iteInduction (fun _ => ?_) fun _ => iteInduction (fun _ => ?_) fun _ => exchangesKept.setModel _ (held _ (same m))
    · unfold exchangesKept
      rw [(modelAcquire_takes hl s).1.1]
      exact same m
    · refine exchangesKept.enters hl ?_ (by decide)
      obtain ⟨_, joined, -, exchanges⟩ := joinWindows_keep hl (m.held ++ [p]) (s.setModel l { m with held := [] })
      unfold exchangesKept
      rw [joined.1]
      rw [State.model_setModel] at exchanges
      exact exchanges
  · exact same _

end

end Sys2Proof.Machine
end

section
/-! PROOF. Follow-ups of echoes and fits (R180, R181, R185 to R187, R197). -/

namespace Sys2Proof.Machine

open Sys2Proof.Claims

/-- The models, and lane `l`'s counts and the state of its model, are as they were. -/
def modelsLeft (l : Nat) (s t : State) : Prop :=
  t.models = s.models ∧ regGet t.regs (wkey 1 10 l) = regGet s.regs (wkey 1 10 l) ∧ t.get F.ltsb_mstate l = s.get F.ltsb_mstate l

section
variable {l : Nat} {s t u : State}

theorem modelsLeft.trans (h : modelsLeft l s t) (h' : modelsLeft l t u) : modelsLeft l s u := by
  obtain ⟨models, counts, state⟩ := h
  obtain ⟨models', counts', state'⟩ := h'
  exact ⟨models'.trans models, counts'.trans counts, state'.trans state⟩

theorem shown.left (hl : l < 1024) (h : shown l s t) : modelsLeft l s t := by
  obtain ⟨⟨r, q, rfl⟩, words, state⟩ := h
  refine ⟨rfl, words _ (Or.inr ?_), state⟩
  simp only [wkey]
  omega

/-- An isolation leaves the models alone (R197). -/
theorem isolate_modelsLeft (hl : l < 1024) (s : State) {g : Nat} (hg : g < 1024) (count : Nat) : modelsLeft l s (isolate s g count) := by
  have waited : ∀ u : State, modelsLeft l u (showWaited u g) := fun u => by
    have otherCounts : wkey 1 10 l ≠ wkey F.gmrg_waited.obj F.gmrg_waited.sel g := by
      simp only [wkey, F.gmrg_waited]
      omega
    have otherState : wkey F.ltsb_mstate.obj F.ltsb_mstate.sel l ≠ wkey F.gmrg_waited.obj F.gmrg_waited.sel g := by
      simp only [wkey, F.gmrg_waited, F.ltsb_mstate]
      omega
    exact ⟨State.put_models .., mget_mset_ne' _ _ _ _ otherCounts, State.get_put_ne _ _ _ _ _ _ otherState⟩
  have raised : ∀ u : State, modelsLeft l u (raise u (0x0800 + g) 0x10 0 false) := fun u => by
    obtain ⟨f, faults⟩ := raise_frame u (0x0800 + g) 0x10 0 false
    rw [faults]
    exact ⟨rfl, rfl, rfl⟩
  unfold isolate
  extract_lets x noted marked wait told
  have marks : shown l noted marked := shown_foldl _ (fun u m hm => shown_put l u F.ltsb_isolated _ (by
    have := span_lt hm
    omega) (by decide) (by decide) (by decide)) noted
  have group : modelsLeft l s noted := ⟨rfl, rfl, rfl⟩
  exact (((group.trans (marks.left hl)).trans (waited _)).trans (raised _)).trans ((shown_eventBoth ..).left hl)

theorem distrust_modelsLeft (hl : l < 1024) (s : State) {g : Nat} (hg : g < 1024) (n : Nat) : modelsLeft l s (distrust s g n) := by
  unfold distrust
  refine iteInduction (fun _ => ⟨rfl, rfl, rfl⟩) fun _ => ?_
  extract_lets count x noted
  have group : modelsLeft l s noted := ⟨rfl, rfl, rfl⟩
  exact iteInduction (fun _ => group.trans (isolate_modelsLeft hl noted hg count)) fun _ => group

/-- An exchange that is lost is counted, and its beacon and echoes are gone (R180). -/
theorem exchangeLost_keeps (s : State) (b : Beacon) {t : State} (left : modelsLeft l (exchangeLost s l b) t) :
    t.model l = (s.model l).without b ∧ t.get F.ltsc_exch_lost l = plus s F.ltsc_exch_lost l 1 ∧ t.get F.ltsb_mstate l = s.get F.ltsb_mstate l := by
  obtain ⟨models, counts, state⟩ := left
  have other : wkey F.ltsb_mstate.obj F.ltsb_mstate.sel l ≠ wkey F.ltsc_exch_lost.obj F.ltsc_exch_lost.sel l := by
    simp only [wkey, F.ltsc_exch_lost, F.ltsb_mstate]
    omega
  refine ⟨?_, ?_, ?_⟩
  · rw [State.model, models, ← State.model, exchangeLost, State.model_setModel]
  · rw [← satInc_get_self s F.ltsc_exch_lost l 1 (by decide) (by decide), ← State.setModel_get (l := l) (x := ((s.satInc F.ltsc_exch_lost l 1).model l).without b)]
    exact congrArg (bits · 63 48) counts
  · rw [state, exchangeLost, State.setModel_get, State.satInc, State.get_put_ne _ _ _ _ _ _ other]

/-! ### The follow-up of an echo -/

/-- The partner's time of arrival of a beacon whose echo is `e`, unwrapped near where the model or the last exchange puts it (R181). -/
def Model.unwrapped (m : Model) (e : Echo) : Nat :=
  if m.fitted then unwrap40 e.t2 (m.partnerAt ((e.beacon.t1 : Int) * 16) / 16) else match m.lastT2 with
    | some p => unwrap40 e.t2 ((p.1 : Int) + ((e.beacon.t1 : Int) - p.2))
    | none => e.t2

/-- The pair of an exchange (R181). -/
def exchangePair (s : State) (l : Nat) (e : Echo) (t2 t3 : Nat) : Pair :=
  { u := ((t2 : Int) + t3) * 8, d := ((e.beacon.t1 : Int) + e.t4) * 8 + roundHalfUp (toSigned 24 (s.get F.ltc_asym l)) 2, t4 := e.t4 }

/-- The model that has noted when the partner had a beacon (R181). -/
def Model.noting (m : Model) (t2 : Nat) (e : Echo) : Model := { m with lastT2 := some (t2, e.beacon.t1) }

/-- The state in which the pair of an accepted exchange meets the model. -/
def accepted (s : State) (l : Nat) (e : Echo) (t2 v : Nat) : State :=
  let u := (s.setModel l ((s.model l).noting t2 e)).put F.ltsc_rtt l v
  u.setModel l { (u.model l).without e.beacon with lastAccept := some u.tb.tick }

/-- An exchange is accepted: its times run forward, its turnaround is at most 10 µs, and neither stamp is coarse (R180, R181). -/
def acceptable (e : Echo) (t2 t3 : Nat) : Bool :=
  let turn : Int := (t3 : Int) - t2
  decide (0 ≤ turn) && decide (0 ≤ ((e.t4 : Int) - e.beacon.t1) - turn) && decide (turn ≤ 16384000) && !e.coarse && !e.beacon.coarse

theorem find?_eq_of_unique {α : Type} {as : List α} {p : α → Bool} {a : α} (mem : a ∈ as) (holds : p a = true) (unique : ∀ b ∈ as, p b = true → b = a) :
    as.find? p = some a := by
  cases found : as.find? p with
  | none => exact absurd holds (by simpa using List.find?_eq_none.mp found a mem)
  | some b => rw [unique b (List.mem_of_find?_eq_some found) (List.find?_some found)]

/-- The state after the exchange of an echo whose times at the partner are `t2` and `t3` (R180, R181, R197). -/
def exchanged (s : State) (l : Nat) (e : Echo) (t2 t3 : Nat) : State :=
  let turn : Int := (t3 : Int) - t2
  let rtt : Int := ((e.t4 : Int) - e.beacon.t1) - turn
  let lost := exchangeLost (s.setModel l ((s.model l).noting t2 e)) l e.beacon
  if turn < 0 || rtt < 0 then distrust lost (s.groupOf l) 1
  else if 16384000 < turn || e.coarse || e.beacon.coarse then lost
  else takePair (accepted s l e t2 (min 255 (rtt.toNat * 10 / 262144))) l (exchangePair s l e t2 t3)

theorem execEchoFollowUpReceive_eq {w : Word} {e : Echo} (partner : s.host l = false) (running : l ∈ s.runLanes (s.groupOf l)) (kept : e ∈ (s.model l).echoes)
    (number : e.beacon.bn = bits w 55 48) (unique : ∀ e' ∈ (s.model l).echoes, e'.beacon.bn = e.beacon.bn → e' = e) :
    exec (.echoFollowUpReceive l w) s = .next (exchanged s l e ((s.model l).unwrapped e) (unwrap40 (bits w 39 0) ((s.model l).unwrapped e))) := by
  have found : ((s.model l).echoes.find? fun e => e.beacon.bn = bits w 55 48) = some e :=
    find?_eq_of_unique kept (decide_eq_true number) fun e' he' same => unique e' he' ((of_decide_eq_true same).trans number.symm)
  have runs : ¬ (s.host l || !(s.runLanes (s.groupOf l)).contains l) = true := by simp [partner, running]
  show execEchoFollowUpReceive l w s = _
  unfold execEchoFollowUpReceive
  extract_lets m g
  rw [if_neg runs, found]
  dsimp -zeta only
  extract_lets t1 t2 t3 turn rtt noted p shown x u
  have unwrapped : t2 = (s.model l).unwrapped e := by
    simp only [t2, m, t1, Model.unwrapped]
    cases (s.model l).fitted with
    | true => rfl
    | false => cases (s.model l).lastT2 <;> rfl
  rw [← unwrapped]
  unfold exchanged
  extract_lets turn' rtt' lost
  by_cases backward : (decide (turn < 0) || decide (rtt < 0)) = true
  · rw [if_pos backward, if_pos backward]
    rfl
  rw [if_neg backward, if_neg backward]
  by_cases refused : (decide (16384000 < turn) || e.coarse || e.beacon.coarse) = true
  · rw [if_pos refused, if_pos refused]
    rfl
  rw [if_neg refused, if_neg refused]
  rfl

theorem accepted_model (s : State) (l : Nat) (e : Echo) (t2 v : Nat) : (accepted s l e t2 v).model l =
    { ((s.model l).noting t2 e).without e.beacon with lastAccept := some s.tb.tick } := by
  unfold accepted
  extract_lets u x
  have model : u.model l = (s.model l).noting t2 e := (State.put_model ..).trans (State.model_setModel ..)
  have tick : u.tb = s.tb := State.put_tb ..
  rw [State.model_setModel, tick]
  simp only [x, model]
  rfl

theorem accepted_get (s : State) (l : Nat) (e : Echo) (t2 v : Nat) (f : Field)
    (other : wkey f.obj f.sel l ≠ wkey 1 10 l ∨ f.obj = 1 ∧ f.sel = 10 ∧ 23 < f.lo ∧ f.lo ≤ f.hi ∧ f.hi < 64) :
    (accepted s l e t2 v).get f l = s.get f l := by
  unfold accepted
  extract_lets u x
  rw [State.setModel_get]
  refine Eq.trans ?_ (State.setModel_get (s := s) (l := l) (x := (s.model l).noting t2 e) f l)
  rcases other with other | ⟨obj, sel, apart, low, high⟩
  · exact State.get_put_ne _ _ _ _ _ _ other
  · exact State.get_put_apart _ F.ltsc_rtt f l v obj.symm sel.symm (by decide) (by decide) low high (Or.inl apart)

theorem exchanged_accepted {e : Echo} {t2 t3 : Nat} (s : State) (l : Nat) (good : acceptable e t2 t3 = true) :
    ∃ v, exchanged s l e t2 t3 = takePair (accepted s l e t2 v) l (exchangePair s l e t2 t3) := by
  unfold acceptable at good
  simp only [Bool.and_eq_true, decide_eq_true_eq, Bool.not_eq_true'] at good
  obtain ⟨⟨⟨⟨turn, rtt⟩, quick⟩, fine⟩, fine'⟩ := good
  unfold exchanged
  extract_lets turn' rtt' lost
  have forward : ¬ (decide (turn' < 0) || decide (rtt' < 0)) = true := by
    simp only [Bool.or_eq_true, decide_eq_true_eq, not_or, not_lt]
    exact ⟨turn, rtt⟩
  have fit : ¬ (decide (16384000 < turn') || e.coarse || e.beacon.coarse) = true := by
    simp only [fine, fine', Bool.or_false, decide_eq_true_eq, not_lt]
    exact quick
  rw [if_neg forward, if_neg fit]
  exact ⟨_, rfl⟩

/-- An exchange that is refused is lost, and counted (R180, R181). -/
theorem exchanged_lost (hl : l < 1024) {e : Echo} {t2 t3 : Nat} (s : State) (bad : acceptable e t2 t3 = false) :
    (exchanged s l e t2 t3).model l = ((s.model l).noting t2 e).without e.beacon ∧
      (exchanged s l e t2 t3).get F.ltsc_exch_lost l = plus s F.ltsc_exch_lost l 1 ∧ (exchanged s l e t2 t3).get F.ltsb_mstate l = s.get F.ltsb_mstate l := by
  have lost : ∀ t, modelsLeft l (exchangeLost (s.setModel l ((s.model l).noting t2 e)) l e.beacon) t →
      t.model l = ((s.model l).noting t2 e).without e.beacon ∧ t.get F.ltsc_exch_lost l = plus s F.ltsc_exch_lost l 1 ∧
      t.get F.ltsb_mstate l = s.get F.ltsb_mstate l := fun t left => by
    have kept := exchangeLost_keeps _ _ left
    rw [State.model_setModel] at kept
    exact kept
  unfold acceptable at bad
  extract_lets turn at bad
  unfold exchanged
  extract_lets rtt u
  by_cases backward : (decide (turn < 0) || decide (rtt < 0)) = true
  · rw [if_pos backward]
    exact lost _ (distrust_modelsLeft hl _ (Nat.lt_of_le_of_lt (groupOf_le s l) hl) 1)
  have refused : (decide (16384000 < turn) || e.coarse || e.beacon.coarse) = true := by
    simp only [Bool.or_eq_true, decide_eq_true_eq, not_or, not_lt] at backward
    obtain ⟨forward, loop⟩ := backward
    rw [decide_eq_true (show 0 ≤ turn from forward), decide_eq_true (show 0 ≤ (e.t4 : Int) - e.beacon.t1 - turn from loop)] at bad
    by_contra fit
    simp only [Bool.or_eq_true, decide_eq_true_eq, not_or, not_lt, Bool.not_eq_true] at fit
    obtain ⟨⟨quick, fine⟩, fine'⟩ := fit
    simp [fine, fine', show turn ≤ 16384000 from quick] at bad
  rw [if_neg backward, if_pos refused]
  exact lost _ ⟨rfl, rfl, rfl⟩

/-- What the model keeps of its exchanges after one that was accepted. -/
theorem exchanged_exchanges (hl : l < 1024) (s : State) (e : Echo) (t2 t3 : Nat) :
    let x := (exchanged s l e t2 t3).model l
    x.echoes = ((s.model l).echoes.filter fun e' => e'.beacon ≠ e.beacon) ∧ x.beacons = (s.model l).beacons.filter (· ≠ e.beacon) ∧
      x.lastT2 = some (t2, e.beacon.t1) ∧ (acceptable e t2 t3 = true → x.lastAccept = some s.tb.tick) := by
  intro x
  cases good : acceptable e t2 t3 with
  | false =>
    obtain ⟨model, -⟩ := exchanged_lost hl s good
    have same : x = _ := model
    rw [same]
    exact ⟨rfl, rfl, rfl, fun h => absurd h (by decide)⟩
  | true =>
    obtain ⟨v, pair⟩ := exchanged_accepted s l good
    have kept := takePair_exchanges hl (accepted s l e t2 v) (exchangePair s l e t2 t3)
    unfold exchangesKept at kept
    rw [accepted_model, ← pair] at kept
    obtain ⟨beacons, echoes, lastT2, lastAccept⟩ := kept
    exact ⟨echoes, beacons, lastT2, fun _ => lastAccept⟩

/-- The line and the pairs of a model are as they were. -/
def sameFit (m m' : Model) : Prop :=
  (m'.u = m.u ∧ m'.d = m.d ∧ m'.g = m.g ∧ m'.fitted = m.fitted) ∧ m'.window = m.window ∧ m'.sinceFit = m.sinceFit ∧ m'.fitDue = m.fitDue ∧ m'.held = m.held

section
variable {m m' : Model} (h : sameFit m m')
include h

theorem sameFit.resid (p : Pair) : m'.resid p = m.resid p := by
  obtain ⟨⟨u, d, g, -⟩, -⟩ := h
  simp only [Model.resid, Model.deviceAt, u, d, g]

theorem sameFit.joined (size : Nat) (p : Pair) : m'.joined size p = m.joined size p := by
  obtain ⟨-, window, -⟩ := h
  rw [Model.joined, window, Model.joined]

theorem sameFit.fitFalls (w : List Pair) : m'.fitFalls w = m.fitFalls w := by
  obtain ⟨-, window, sinceFit, -⟩ := h
  rw [Model.fitFalls, window, sinceFit, Model.fitFalls]

end

/-- The pair of an accepted exchange meets a state that holds the model, its state, its settings and its counts as they were. -/
theorem exchanged_meets (s : State) {e : Echo} {t2 t3 : Nat} (good : acceptable e t2 t3 = true) :
    ∃ u, exchanged s l e t2 t3 = takePair u l (exchangePair s l e t2 t3) ∧
      sameFit (s.model l) (u.model l) ∧
      u.get F.ltsb_mstate l = s.get F.ltsb_mstate l ∧ u.get F.ltc_fit_log2 l = s.get F.ltc_fit_log2 l ∧ u.stepLimit l = s.stepLimit l ∧
      u.get F.ltsc_outliers l = s.get F.ltsc_outliers l ∧ u.get F.ltsc_steps l = s.get F.ltsc_steps l := by
  have keys : wkey 1 9 l ≠ wkey 1 10 l ∧ wkey 1 7 l ≠ wkey 1 10 l := by
    simp only [wkey]
    omega
  obtain ⟨status, config⟩ := keys
  obtain ⟨v, pair⟩ := exchanged_accepted s l good
  have fit : sameFit (s.model l) ((accepted s l e t2 v).model l) := by
    rw [accepted_model]
    exact ⟨⟨rfl, rfl, rfl, rfl⟩, rfl, rfl, rfl, rfl⟩
  exact ⟨_, pair, fit, accepted_get _ _ _ _ _ _ (Or.inl status), accepted_get _ _ _ _ _ _ (Or.inl config),
    congrArg (· * 1024) (accepted_get _ _ _ _ _ F.ltc_step_limit (Or.inl config)), accepted_get _ _ _ _ _ F.ltsc_outliers (Or.inr (by decide)),
    accepted_get _ _ _ _ _ F.ltsc_steps (Or.inr (by decide))⟩

section
variable (hl : l < 1024) (s : State) {e : Echo} {t2 t3 : Nat} (good : acceptable e t2 t3 = true)
include hl good

/-- In ACQUIRE the pair of an exchange joins the window; with the sixty-fourth a fit makes the model VALID (R186). -/
theorem exchanged_acquires (acquire : s.get F.ltsb_mstate l = 1) :
    let t := exchanged s l e t2 t3
    let w := (s.model l).joined (2 ^ s.get F.ltc_fit_log2 l) (exchangePair s l e t2 t3)
    (t.model l).window = w ∧ (w.length < 64 → t.get F.ltsb_mstate l = 1) ∧ (64 ≤ w.length → (t.model l).fitted = true ∧ t.get F.ltsb_mstate l = 2) := by
  obtain ⟨u, pair, fit, state, size, -⟩ := exchanged_meets s good
  intro t w
  have same : (u.model l).joined (2 ^ u.get F.ltc_fit_log2 l) (exchangePair s l e t2 t3) = w := by
    rw [fit.joined, size]
  have now : t = takePair u l (exchangePair s l e t2 t3) := pair
  rw [now]
  by_cases short : w.length < 64
  · obtain ⟨⟨joined, -⟩, one⟩ := takePair_short hl u _ (state.trans acquire) (same ▸ short)
    rw [joined, same]
    exact ⟨rfl, fun _ => one, fun full => absurd short (Nat.not_lt.mpr full)⟩
  · obtain ⟨_, _, _, ⟨joined, -⟩, two⟩ := takePair_full hl u _ (state.trans acquire) (same ▸ Nat.not_lt.mp short)
    rw [joined, same]
    exact ⟨rfl, fun h => absurd h short, fun _ => ⟨rfl, two⟩⟩

/-- In VALID the pair of an exchange joins the window, or starts SUSPECT where it is beyond the step limit (R186, R187). -/
theorem exchanged_valid (valid : s.get F.ltsb_mstate l = 2) :
    let t := exchanged s l e t2 t3
    let m := s.model l
    let p := exchangePair s l e t2 t3
    let w := m.joined (2 ^ s.get F.ltc_fit_log2 l) p
    (s.stepLimit l < (m.resid p).natAbs → (t.model l).window = m.window ∧ (t.model l).held = [p] ∧ t.get F.ltsb_mstate l = 3) ∧
      (¬ s.stepLimit l < (m.resid p).natAbs → (t.model l).window = w ∧ t.get F.ltsb_mstate l = 2 ∧
        (t.model l).fitDue = (if m.fitFalls w then some w else m.fitDue) ∧ (t.model l).sinceFit = if m.fitFalls w then 0 else m.sinceFit + 1) := by
  obtain ⟨u, pair, fit, state, size, limit, -⟩ := exchanged_meets s good
  intro t m p w
  have now : t = takePair u l p := pair
  rw [now, ← fit.resid, ← limit]
  refine ⟨fun outside => ?_, fun inside => ?_⟩
  · obtain ⟨⟨held, -⟩, three⟩ := takePair_suspects hl u p (state.trans valid) outside
    obtain ⟨-, window, -⟩ := fit
    rw [held]
    exact ⟨window, rfl, three⟩
  · obtain ⟨⟨joined, -⟩, two⟩ := takePair_joins hl u p (state.trans valid) inside
    rw [joined, size, fit.joined]
    have falls := fit.fitFalls w
    obtain ⟨-, -, sinceFit, fitDue, -⟩ := fit
    exact ⟨rfl, two, by rw [← falls, ← fitDue]; rfl, by rw [← falls, ← sinceFit]; rfl⟩

/-- In SUSPECT a pair within the limit returns to VALID, and the sixteenth in a row beyond it on one side is a step (R187). -/
theorem exchanged_suspect (suspect : s.get F.ltsb_mstate l = 3) :
    let t := exchanged s l e t2 t3
    let m := s.model l
    let p := exchangePair s l e t2 t3
    (¬ s.stepLimit l < (m.resid p).natAbs → (t.model l).held = [] ∧ (t.model l).window = m.joined (2 ^ s.get F.ltc_fit_log2 l) p ∧
        t.get F.ltsb_mstate l = 2 ∧ t.get F.ltsc_outliers l = plus s F.ltsc_outliers l m.held.length) ∧
      (s.stepLimit l < (m.resid p).natAbs → m.held.length = 15 → (∀ q ∈ m.held, 0 ≤ m.resid q ↔ 0 ≤ m.resid p) →
        (t.model l).window = m.held ++ [p] ∧ (t.model l).held = [] ∧ t.get F.ltsb_mstate l = 2 ∧ t.get F.ltsc_steps l = plus s F.ltsc_steps l 1) := by
  obtain ⟨u, pair, fit, state, size, limit, outliers, steps⟩ := exchanged_meets s good
  intro t m p
  have now : t = takePair u l p := pair
  have resid := fit.resid
  have join := fit.joined
  obtain ⟨-, -, -, -, held⟩ := fit
  have counts : ∀ f : Field, f.obj = 1 → f.sel = 10 → wkey f.obj f.sel l < wkey 1 8 0 ∨ (wkey 1 10 0 ≤ wkey f.obj f.sel l ∧ wkey f.obj f.sel l < wkey 5 7 0) := by
    intro f obj sel
    rw [obj, sel]
    simp only [wkey]
    omega
  rw [now, ← limit]
  refine ⟨fun inside => ?_, fun outside fifteen side => ?_⟩
  · rw [← resid] at inside
    obtain ⟨⟨joined, -, -, words⟩, two⟩ := takePair_returns hl u p (state.trans suspect) inside
    have count := words.get F.ltsc_outliers l (counts _ rfl rfl)
    rw [satInc_get_self _ _ _ _ (by decide) (by decide), plus_congr outliers, held] at count
    rw [joined, size, join]
    exact ⟨rfl, rfl, two, count⟩
  · rw [← resid] at outside
    obtain ⟨_, _, ⟨stepped, -, -, words⟩, two⟩ := modelStep_takes hl u (m.held ++ [p])
    have count := words.get F.ltsc_steps l (counts _ rfl rfl)
    rw [satInc_get_self _ _ _ _ (by decide) (by decide), plus_congr steps] at count
    rw [takePair_steps u p (state.trans suspect) outside (by rw [held]; exact fifteen) (fun q hq => by rw [resid, resid]; exact side q (held ▸ hq)), held, stepped]
    exact ⟨rfl, rfl, two, count⟩

/-- In RESUME the sixteenth pair within the limit makes the model VALID, and one beyond it begins the window anew (R188). -/
theorem exchanged_resume (resume : s.get F.ltsb_mstate l = 5) :
    let t := exchanged s l e t2 t3
    let m := s.model l
    let p := exchangePair s l e t2 t3
    (m.fitted = true → ¬ s.stepLimit l < (m.resid p).natAbs → m.held.length = 15 → (t.model l).held = [] ∧ t.get F.ltsb_mstate l = 2) ∧
      (s.stepLimit l < (m.resid p).natAbs → (t.model l).window = [] ∧ t.get F.ltsb_mstate l = 1) := by
  obtain ⟨u, pair, fit, state, -, limit, -⟩ := exchanged_meets s good
  intro t m p
  have now : t = takePair u l p := pair
  rw [now, ← fit.resid, ← limit]
  refine ⟨fun fitted inside fifteen => ?_, fun outside => ?_⟩
  · obtain ⟨⟨-, -, -, fits⟩, -, -, -, held⟩ := fit
    obtain ⟨x, ⟨⟨joined, -⟩, two⟩, emptied, -⟩ := takePair_resumes hl u p (state.trans resume) (fits.trans fitted) inside (by rw [held]; exact fifteen)
    rw [joined]
    exact ⟨emptied, two⟩
  · obtain ⟨⟨emptied, -⟩, one⟩ := takePair_breaksResume hl u p (state.trans resume) outside
    rw [emptied]
    exact ⟨rfl, one⟩

end

end

end Sys2Proof.Machine
end

section
/-! PROOF. Fits that are due, and the time limits of a model's states (R185, R186). -/

namespace Sys2Proof.Machine

open Sys2Proof.Claims

section
variable {l : Nat} {m : Model} {s t : State}

/-! ### Lanes and runs -/

/-- Words of lanes and groups outside the timing status. -/
theorem timingWords.laneGet (h : timingWords s t) (f : Field) {j : Nat} (hj : j < 1024)
    (away : (f.obj = 1 ∧ f.sel < 8) ∨ (f.obj = 2 ∧ f.sel < 256) := by decide) : t.get f j = s.get f j := by
  refine h.get f j ?_
  rcases away with ⟨obj, sel⟩ | ⟨obj, sel⟩
  · simp only [wkey, obj]
    omega
  · simp only [wkey, obj]
    omega

/-- What the model of a lane becomes changes neither the lane's role and timing nor the run of its group. -/
theorem becomes.runs (hl : l < 1024) (h : becomes l m s t) :
    t.timed l = s.timed l ∧ t.host l = s.host l ∧ t.runLanes (t.groupOf l) = s.runLanes (s.groupOf l) := by
  obtain ⟨-, -, groups, words⟩ := h
  have hg : s.groupOf l < 1024 := Nat.lt_of_le_of_lt (groupOf_le s l) hl
  have same : t.groupOf l = s.groupOf l := congrArg (l - ·) (words.laneGet F.grp_member hl)
  refine ⟨?_, ?_, ?_⟩
  · simp only [State.timed, State.flag, words.laneGet F.ltc_timing_en hl, words.laneGet F.lsa_echo hl]
  · simp only [State.host, State.flag, words.laneGet F.lane_role hl]
  · simp only [same, State.runLanes, State.groupUp, State.flag, State.group, groups, words.laneGet F.grp_run_valid hg, words.laneGet F.grp_run_first hg]
    rfl

/-! ### Fits that are due -/

theorem execModelFitComplete_eq {ps : List Pair} (due : (s.model l).fitDue = some ps) : exec (.modelFitComplete l) s = .next (fitWindow s l ps) := by
  show execModelFitComplete l s = _
  rw [execModelFitComplete, due]

/-- The fit of pairs of unit slope goes through the newest of them, and shows its offset (R185, R199). -/
theorem fitWindow_unit_shows (hl : l < 1024) {ps : List Pair} {p : Pair} (newest : ps.getLast? = some p) (unit : ∀ q ∈ ps, q.d - q.u = p.d - p.u) :
    let t := fitWindow s l ps
    (t.model l).u = p.u ∧ (t.model l).d = p.d ∧ (t.model l).fitted = true ∧ (t.model l).fitDue = none ∧
      t.get F.ltsa_offset l = ofSigned 64 (roundHalfUp (p.d - p.u) 16) ∧ t.get F.ltsb_mstate l = s.get F.ltsb_mstate l := by
  obtain ⟨-, -, -, -, state⟩ := fitWindow_shows hl s newest
  obtain ⟨m, v, fit, hu, hd, fitted, due⟩ := fitWindow_unit s l newest unit
  intro t
  have now : t = (showFit (s.setModel l m) l).put F.ltsb_resid_rms l v := fit
  have offset := fittedOffset (l := l) s v fitted
  have model : t.model l = m := by rw [now, State.put_model, (shown_showFit hl _).model, State.model_setModel]
  rw [hu, hd, ← now] at offset
  rw [model]
  exact ⟨hu, hd, fitted, due, offset, state⟩

/-! ### Time limits -/

/-- 100 µs in SUSPECT lead to ACQUIRE with an empty window, and the fit as it was (R186, log 20). -/
theorem execSuspectTimeout_acquires (hl : l < 1024) (suspect : s.get F.ltsb_mstate l = 3) :
    ∃ t, exec (.suspectTimeout l) s = .next t ∧ t.get F.ltsb_mstate l = 1 ∧ (t.model l).window = [] ∧ (t.model l).fitted = (s.model l).fitted ∧
      t.tb.tick = max s.tb.tick ((s.model l).enteredAt + 160000) := by
  obtain ⟨⟨model, tb, -⟩, one⟩ := modelAcquire_takes hl (advanceTo s ((s.model l).enteredAt + 160000))
  rw [advanceTo_model] at model
  refine ⟨_, if_pos suspect, one, ?_, ?_, ?_⟩
  · rw [model]
    rfl
  · rw [model]
    rfl
  · rw [tb, advanceTo_tick]

/-- The half-wrap limit leads to NONE, or at once to ACQUIRE on a timed lane of a run that is UP (R182, R186). -/
theorem execHalfWrapLimit_empties (hl : l < 1024) {t0 : Nat} (runs : s.get F.ltsb_mstate l ≠ 0) (last : (s.model l).lastAccept = some t0) :
    ∃ t, exec (.halfWrapLimit l) s = .next t ∧ (t.model l).window = [] ∧ (t.model l).fitted = false ∧
      t.get F.ltsb_mstate l = (if s.timed l = true ∧ s.host l = false ∧ l ∈ s.runLanes (s.groupOf l) then 1 else 0) := by
  have start : exec (.halfWrapLimit l) s = .next (modelStart (modelNone (advanceTo s (t0 + 536800000)) l) l) := by
    show execHalfWrapLimit l s = _
    rw [execHalfWrapLimit, last]
    exact if_neg runs
  obtain ⟨empties, zero⟩ := modelNone_takes hl (advanceTo s (t0 + 536800000))
  obtain ⟨timed, host, lanes⟩ := empties.runs hl
  obtain ⟨_, _, later⟩ := advanceTo_frame s (t0 + 536800000)
  have timed' : (advanceTo s (t0 + 536800000)).timed l = s.timed l := by rw [later]; rfl
  have host' : (advanceTo s (t0 + 536800000)).host l = s.host l := by rw [later]; rfl
  have lanes' : (advanceTo s (t0 + 536800000)).runLanes ((advanceTo s (t0 + 536800000)).groupOf l) = s.runLanes (s.groupOf l) := by rw [later]; rfl
  refine ⟨_, start, ?_⟩
  generalize modelNone (advanceTo s (t0 + 536800000)) l = v at *
  obtain ⟨model, -⟩ := empties
  obtain ⟨⟨acquired, -⟩, one⟩ := modelAcquire_takes hl v
  unfold modelStart
  rw [zero, timed, timed', host, host', lanes, lanes']
  by_cases starts : s.timed l = true ∧ s.host l = false ∧ l ∈ s.runLanes (s.groupOf l)
  · have opens : (decide (0 = 0) && s.timed l && !s.host l && (s.runLanes (s.groupOf l)).contains l) = true := by simp [starts]
    rw [if_pos opens, if_pos starts]
    generalize modelAcquire v l = u at acquired one
    dsimp only
    rw [State.model_setModel, State.setModel_get, acquired, model]
    exact ⟨rfl, rfl, one⟩
  · have stays : ¬ (decide (0 = 0) && s.timed l && !s.host l && (s.runLanes (s.groupOf l)).contains l) = true := by
      simpa [and_assoc] using starts
    rw [if_neg stays, if_neg starts, model]
    exact ⟨rfl, rfl, zero⟩

end

end Sys2Proof.Machine
end

section
/-! PROOF. The stamps of a lane's interpolator, and the beacons and echoes that take them (R76, R100, R101, R179, R180). -/

namespace Sys2Proof.Machine

open Sys2Proof.Claims

section
variable {l edge code dev : Nat} {ok coarse : Bool} {s : State}

/-! ### Stamps -/

theorem advanceTo_advanceTo (s : State) (n : Nat) : advanceTo (advanceTo s n) n = advanceTo s n :=
  if_pos (by
    rw [advanceTo_tick]
    exact Nat.le_max_right ..)

/-- A lane's stamp in a state that device time has reached: its interpolator may be busy from then on, and a fault may be under way. -/
def stamped (l : Nat) (s t : State) : Prop := ∃ ms f b, t = { s with models := ms, flt := f } ∧ t.model l = { s.model l with busyUntil := b }

theorem laneStamp_eq (stamp : Claims.stampOf s l edge code ok = some (dev, coarse)) :
    ∃ t, laneStamp s l edge code ok = (t, dev, coarse) ∧ stamped l (advanceTo s (edge / 102400)) t := by
  unfold Claims.stampOf at stamp
  unfold laneStamp
  rw [show Config.edgeTick = 102400 from rfl]
  generalize advanceTo s (edge / 102400) = u at *
  dsimp only at stamp
  extract_lets a n full mid m v checked
  have rests : stamped l u u := ⟨u.models, u.flt, (u.model l).busyUntil, rfl, rfl⟩
  have works : stamped l u v := ⟨_, u.flt, _, rfl, State.model_setModel ..⟩
  by_cases pending : mget 0 u.flt.awl (interpSource (512 + l)) ≠ 0
  · rw [if_pos pending] at stamp
    exact absurd stamp (by simp)
  rw [if_neg pending] at stamp
  by_cases idle : (!u.inService n || decide (edge < m.busyUntil)) = true
  · have refuses : u.get F.cala_state (512 + l) ≠ 3 ∨ edge < (u.model l).busyUntil ∨ ok = false := by
      simp only [State.inService, Bool.or_eq_true, Bool.not_eq_true', decide_eq_false_iff_not, decide_eq_true_eq] at idle
      exact idle.imp id Or.inl
    rw [if_pos refuses] at stamp
    obtain ⟨rfl, rfl⟩ := Prod.mk.inj (Option.some.inj stamp)
    exact ⟨u, if_pos idle, rests⟩
  rw [show a = u from rfl, if_neg idle]
  cases ok with
  | false =>
    rw [if_pos (Or.inr (Or.inr rfl))] at stamp
    obtain ⟨rfl, rfl⟩ := Prod.mk.inj (Option.some.inj stamp)
    obtain ⟨f, faults⟩ := raise_frame v (interpSource n) 0x02 0 false
    exact ⟨_, rfl, v.models, f, _, faults, by rw [faults]; exact State.model_setModel ..⟩
  | true =>
    have serves : ¬ (u.get F.cala_state (512 + l) ≠ 3 ∨ edge < (u.model l).busyUntil ∨ true = false) := by
      simp only [State.inService, Bool.or_eq_true, Bool.not_eq_true', decide_eq_false_iff_not, decide_eq_true_eq] at idle
      simpa using idle
    rw [if_neg serves] at stamp
    have checks : checked = v := by
      have awl : awlTake v (interpSource n) = (v, false) := by
        rw [awlTake, show mget 0 v.flt.awl (interpSource n) = 0 from not_not.mp pending]
      simp only [checked, tableCheck, awl]
      exact if_neg (by decide)
    rw [checks]
    cases table : (u.interp n).tableFor full with
    | none =>
      rw [show (u.interp (512 + l)).tableFor (u.laneFull l) = none from table] at stamp
      obtain ⟨rfl, rfl⟩ := Prod.mk.inj (Option.some.inj stamp)
      rw [show (v.interp n).tableFor full = none from table]
      exact ⟨v, rfl, works⟩
    | some tab =>
      rw [show (u.interp (512 + l)).tableFor (u.laneFull l) = some tab from table] at stamp
      obtain ⟨rfl, rfl⟩ := Prod.mk.inj (Option.some.inj stamp)
      rw [show (v.interp n).tableFor full = some tab from table]
      exact ⟨v, rfl, works⟩

/-! ### Echoes -/

theorem recent_iff (b : Beacon) (tick : Nat) : b.recent tick = true ↔ tick ≤ b.sent + 163840 := decide_eq_true_iff

section
variable {w : Word} {t : State} (partner : s.host l = false) (running : l ∈ s.runLanes (s.groupOf l))
  (stamps : laneStamp s l edge code ok = (t, dev, coarse))
include partner running stamps

/-- An echo that answers no beacon that is kept, and its count where it is late (R180). -/
theorem execEchoReceive_none (none : ∀ b ∈ (t.model l).beacons, ¬ (b.bn = bits w 55 48 ∧ b.recent t.tb.tick = true)) :
    exec (.echoReceive l w edge code ok) s =
      .next (if (t.model l).ended.any fun b => b.bn = bits w 55 48 && b.recent t.tb.tick then t else t.satInc F.ltsd_late_echo l 1) := by
  have runs : ¬ (s.host l || !(s.runLanes (s.groupOf l)).contains l) = true := by simp [partner, running]
  have found : ((t.model l).beacons.find? fun b => b.bn = bits w 55 48 && b.recent t.tb.tick) = Option.none := by
    simpa [List.find?_eq_none] using none
  show execEchoReceive l w edge code ok s = _
  rw [execEchoReceive, if_neg runs, stamps]
  dsimp only
  rw [found]

/-- An echo that answers a beacon is kept, in the place of an earlier one of it (R180, log 20). -/
theorem execEchoReceive_some {b : Beacon} (kept : b ∈ (t.model l).beacons) (number : b.bn = bits w 55 48) (recent : b.recent t.tb.tick = true)
    (unique : ∀ b' ∈ (t.model l).beacons, b'.bn = b.bn → b' = b) :
    exec (.echoReceive l w edge code ok) s = .next (t.setModel l { t.model l with
      echoes := ((t.model l).echoes.filter fun e => e.beacon ≠ b) ++ [{ beacon := b, t2 := bits w 39 0, t4 := landTime t l dev false, coarse := coarse }] }) := by
  have runs : ¬ (s.host l || !(s.runLanes (s.groupOf l)).contains l) = true := by simp [partner, running]
  have found : ((t.model l).beacons.find? fun b => b.bn = bits w 55 48 && b.recent t.tb.tick) = some b :=
    find?_eq_of_unique kept (by simp [number, recent]) fun b' hb' answers => unique b' hb' (by
      simp only [Bool.and_eq_true, decide_eq_true_eq] at answers
      exact answers.1.trans number.symm)
  show execEchoReceive l w edge code ok s = _
  rw [execEchoReceive, if_neg runs, stamps]
  dsimp only
  rw [found]

end

/-! ### What a lane sends -/

theorem noFill_append (xs ys : List Out) : noFill (xs ++ ys) = noFill xs ++ noFill ys := List.filter_append ..

theorem passBlocks_noFill (s : State) (l n : Nat) : noFill (passBlocks s l n).out = noFill s.out := by
  have filler : noFill (s.out ++ [.block l 0x1E 0]) = noFill s.out := (noFill_append ..).trans (List.append_nil _)
  unfold passBlocks
  extract_lets x
  exact iteInduction (motive := fun t : State => noFill t.out = _) (fun _ => rfl) fun _ =>
    iteInduction (motive := fun t : State => noFill t.out = _) (fun _ => filler) fun _ => rfl

theorem sendBlock_frame (s : State) (l type content : Nat) : ∃ m o, sendBlock s l type content = { s with lanes := m, out := o } := by
  unfold sendBlock
  split
  · exact ⟨s.lanes, s.out, rfl⟩
  · obtain ⟨m, o, passed⟩ := passBlocks_frame s l 1
    obtain ⟨o', sent⟩ := transmit_frame (passBlocks s l 1) (.block l type content)
    exact ⟨m, o', by rw [sent, passed]⟩

/-- A block that is no filler leaves on a lane that is not retired, where the transmitters are driven. -/
theorem sendBlock_noFill (s : State) {l type content : Nat} (drives : s.drives = true) (serves : s.laneState l ≠ 10) (plain : (type != 0x1E) = true) :
    noFill (sendBlock s l type content).out = noFill s.out ++ [.block l type content] := by
  obtain ⟨m, o, passed⟩ := passBlocks_frame s l 1
  have driven : (passBlocks s l 1).drives = true := by
    rw [passed]
    exact drives
  rw [sendBlock, if_neg serves, transmit, if_pos driven]
  refine (noFill_append ..).trans ?_
  rw [passBlocks_noFill]
  exact congrArg _ (List.filter_cons_of_pos plain)

/-! ### Beacons -/

/-- The beacons of a lane that are kept when another one leaves (R180). -/
def liveBeacons (s : State) (l : Nat) : List Beacon := (s.model l).beacons.filter (s.beaconLive (s.model l))

/-- A beacon leaves with the departure of the one before it, and those that its lane no longer keeps are counted as lost (R179, R180). -/
def beaconOut (s : State) (l : Nat) : State :=
  sendBlock (s.satInc F.ltsc_exch_lost l ((s.model l).beacons.length - (liveBeacons s l).length)) l 0x3C ((s.model l).nextBn * 2 ^ 48 + (s.model l).prevT1 % 2 ^ 48)

/-- A model that keeps the beacons `live`, and the one that left at `t1` in `period`. -/
def Model.withBeacon (m : Model) (live : List Beacon) (t1 : Nat) (coarse : Bool) (tick period : Nat) : Model :=
  { m with beacons := live ++ [{ bn := m.nextBn, t1 := t1, coarse := coarse, sent := tick }], echoes := m.echoes.filter fun e => live.contains e.beacon,
           nextBn := (m.nextBn + 1) % 256, prevT1 := t1 % 2 ^ 48, beaconAt := period, ended := m.ended.filter (·.recent tick) }

/-- A beacon has left, and is kept. -/
def beaconKept (s : State) (l t1 period : Nat) (coarse : Bool) : State :=
  (beaconOut s l).setModel l ((s.model l).withBeacon (liveBeacons s l) t1 coarse (beaconOut s l).tb.tick period)

/-- A beacon of the group's beacon lane has left, and is counted (R195). -/
def beaconCounted (s : State) (g : Nat) : State := s.setGroup g { s.group g with beacons := (s.group g).beacons + 1 }

/-- What the beacon of a group's beacon lane does to the group: the second after UP ends the link's quarantine (R195). -/
def beaconEnds (s : State) (l g : Nat) : State :=
  if s.beaconLane g = some l then (if (s.group g).beacons + 1 = 2 then txnSecondBeacon (beaconCounted s g) g else beaconCounted s g) else s

theorem beaconOut_frame (s : State) (l : Nat) :
    ∃ ls o, beaconOut s l = { s.satInc F.ltsc_exch_lost l ((s.model l).beacons.length - (liveBeacons s l).length) with lanes := ls, out := o } :=
  sendBlock_frame ..

theorem beaconKept_model (s : State) (l t1 period : Nat) (coarse : Bool) :
    (beaconKept s l t1 period coarse).model l = (s.model l).withBeacon (liveBeacons s l) t1 coarse s.tb.tick period := by
  obtain ⟨ls, o, sent⟩ := beaconOut_frame s l
  rw [beaconKept, State.model_setModel, sent]
  dsimp only
  rw [State.satInc_tb]

theorem beaconKept_groups (s : State) (l t1 period : Nat) (coarse : Bool) : (beaconKept s l t1 period coarse).groups = s.groups := by
  obtain ⟨ls, o, sent⟩ := beaconOut_frame s l
  rw [beaconKept, State.setModel_groups, sent]
  dsimp only
  rw [State.satInc_groups]

theorem beaconKept_txns (s : State) (l t1 period : Nat) (coarse : Bool) : (beaconKept s l t1 period coarse).txns = s.txns := by
  obtain ⟨ls, o, sent⟩ := beaconOut_frame s l
  rw [beaconKept, State.setModel_txns, sent]
  dsimp only
  rw [State.satInc_txns]

theorem beaconKept_lost (s : State) (l t1 period : Nat) (coarse : Bool) :
    (beaconKept s l t1 period coarse).get F.ltsc_exch_lost l = plus s F.ltsc_exch_lost l ((s.model l).beacons.length - (liveBeacons s l).length) := by
  obtain ⟨ls, o, sent⟩ := beaconOut_frame s l
  rw [beaconKept, State.setModel_get, sent]
  exact satInc_get_self s F.ltsc_exch_lost l _ (by decide) (by decide)

theorem beaconKept_noFill (s : State) {l : Nat} (hl : l < 1024) (t1 period : Nat) (coarse : Bool) (drives : s.drives = true) (serves : s.laneState l ≠ 10) :
    noFill (beaconKept s l t1 period coarse).out =
      noFill s.out ++ [.block l 0x3C ((s.model l).nextBn * 2 ^ 48 + (s.model l).prevT1 % 2 ^ 48)] := by
  have phaseKey : wkey F.pwg_phase.obj F.pwg_phase.sel 0 ≠ wkey F.ltsc_exch_lost.obj F.ltsc_exch_lost.sel l := by
    simp only [wkey, F.pwg_phase, F.ltsc_exch_lost]
    omega
  have stateKey : wkey F.lsa_state.obj F.lsa_state.sel l ≠ wkey F.ltsc_exch_lost.obj F.ltsc_exch_lost.sel l := by
    simp only [wkey, F.lsa_state, F.ltsc_exch_lost]
    omega
  have counted : ∀ n, (s.satInc F.ltsc_exch_lost l n).drives = true := fun n => by
    rw [State.drives, State.phase, State.satInc_pw, State.satInc, State.get_put_ne _ _ _ _ _ _ phaseKey]
    exact drives
  have serving : ∀ n, (s.satInc F.ltsc_exch_lost l n).laneState l ≠ 10 := fun n => by
    rw [State.laneState, State.satInc, State.get_put_ne _ _ _ _ _ _ stateKey]
    exact serves
  rw [beaconKept, State.setModel_out, beaconOut, sendBlock_noFill _ (counted _) (serving _) (by decide), State.satInc_out]

/-- The lane that carries a group's beacons does not turn on the lanes' counts. -/
theorem beaconKept_beaconLane (s : State) {l g : Nat} (hl : l < 1024) (hg : g < 1024) (t1 period : Nat) (coarse : Bool) :
    (beaconKept s l t1 period coarse).beaconLane g = s.beaconLane g := by
  have groupKey : ∀ f : Field, f.obj = 2 → wkey f.obj f.sel g ≠ wkey F.ltsc_exch_lost.obj F.ltsc_exch_lost.sel l := by
    intro f obj
    simp only [wkey, obj, F.ltsc_exch_lost]
    omega
  obtain ⟨ls, o, sent⟩ := beaconOut_frame s l
  rw [beaconKept, sent]
  generalize counted : s.satInc F.ltsc_exch_lost l ((s.model l).beacons.length - (liveBeacons s l).length) = u
  have enabled : ∀ j, u.flag F.ltc_timing_en j = s.flag F.ltc_timing_en j := fun j => by
    rw [← counted]
    exact congrArg (fun n => decide (n = 1)) (State.get_put_disjoint s F.ltsc_exch_lost F.ltc_timing_en l j _ (by decide) (by decide) (by decide))
  have valid : u.get F.grp_run_valid g = s.get F.grp_run_valid g := by
    rw [← counted]
    exact State.get_put_ne _ _ _ _ _ _ (groupKey _ rfl)
  have first : u.get F.grp_run_first g = s.get F.grp_run_first g := by
    rw [← counted]
    exact State.get_put_ne _ _ _ _ _ _ (groupKey _ rfl)
  have groups : u.group g = s.group g := by
    rw [← counted]
    exact State.satInc_group ..
  have runs : u.runLanes g = s.runLanes g := by
    simp only [State.runLanes, State.groupUp, State.flag, valid, first, groups]
    rfl
  show (u.runLanes g).find? (u.flag F.ltc_timing_en ·) = _
  rw [runs]
  exact congrArg (List.find? · _) (funext enabled)

/-- Outside the slot that is due nothing leaves (R179). -/
theorem execBeaconSend_idle (idle : (advanceTo s (edge / 102400)).sendsBeacons l = false ∨ (advanceTo s (edge / 102400)).beaconDue l = false) :
    exec (.beaconSend l edge code ok) s = .next (advanceTo s (edge / 102400)) := by
  have rests : (!(advanceTo s (edge / 102400)).sendsBeacons l || !(advanceTo s (edge / 102400)).beaconDue l) = true := by
    rcases idle with idle | idle <;> simp [idle]
  exact if_pos rests

/-- The beacon of a slot that is due (R179, R195). -/
theorem execBeaconSend_eq {t : State} (sends : (advanceTo s (edge / 102400)).sendsBeacons l = true) (due : (advanceTo s (edge / 102400)).beaconDue l = true)
    (stamps : laneStamp (advanceTo s (edge / 102400)) l edge code ok = (t, dev, coarse)) :
    let u := advanceTo s (edge / 102400)
    let v := beaconKept t l (landTime t l dev true) (u.laneFull l / 2560 + 1) coarse
    exec (.beaconSend l edge code ok) s = .next (beaconEnds v l (u.groupOf l)) := by
  have leaves : ¬ (!(advanceTo s (edge / 102400)).sendsBeacons l || !(advanceTo s (edge / 102400)).beaconDue l) = true := by simp [sends, due]
  show execBeaconSend l edge code ok s = _
  unfold execBeaconSend
  rw [show Config.edgeTick = 102400 from rfl, if_neg leaves, stamps]
  generalize advanceTo s (edge / 102400) = u at *
  extract_lets g period
  dsimp -zeta only
  extract_lets t1 m live counted sent b x n y
  rw [show beaconKept t l (landTime t l dev true) (u.laneFull l / 2560 + 1) coarse = x from rfl]
  unfold beaconEnds
  by_cases carries : x.beaconLane g = some l
  · rw [if_pos carries, if_pos carries]
    by_cases second : n = 2
    · rw [if_pos second, if_pos second]
      rfl
    · rw [if_neg second, if_neg second]
      rfl
  · rw [if_neg carries, if_neg carries]

end

end Sys2Proof.Machine
end

section
/-! PROOF. The second beacon after UP: the link's quarantine ends, and waiting reads are sent again (R195). -/

namespace Sys2Proof.Machine

open Sys2Proof.Claims

/-- The models, lane `l`'s counts, and the beacons counted in each group are as they were. -/
def linksLeft (l : Nat) (s t : State) : Prop := modelsLeft l s t ∧ ∀ j, (t.group j).beacons = (s.group j).beacons

section
variable {l : Nat} {s t u : State}

/-! ### What transactions leave alone -/

theorem linksLeft_of_models (models : modelsLeft l s t) (groups : t.groups = s.groups) : linksLeft l s t :=
  ⟨models, fun j => by rw [State.group, groups]; rfl⟩

theorem linksLeft_refl (l : Nat) (s : State) : linksLeft l s s := ⟨⟨rfl, rfl, rfl⟩, fun _ => rfl⟩

theorem linksLeft.trans (h : linksLeft l s t) (h' : linksLeft l t u) : linksLeft l s u := by
  obtain ⟨models, beacons⟩ := h
  obtain ⟨models', beacons'⟩ := h'
  exact ⟨models.trans models', fun j => (beacons' j).trans (beacons j)⟩

theorem linksLeft_setTxn (l : Nat) (s : State) (n : Nat) (x : Txn) : linksLeft l s (s.setTxn n x) := linksLeft_of_models ⟨rfl, rfl, rfl⟩ rfl

theorem linksLeft_setGroup (l : Nat) (s : State) {g : Nat} {x : GroupX} (same : x.beacons = (s.group g).beacons) : linksLeft l s (s.setGroup g x) := by
  refine ⟨⟨rfl, rfl, rfl⟩, fun j => ?_⟩
  by_cases here : j = g
  · rw [here, State.group_setGroup, same]
  · rw [State.group_setGroup_ne _ _ here]

theorem linksLeft_foldl {α : Type} {f : State → α → State} (as : List α) (h : ∀ s, ∀ a ∈ as, linksLeft l s (f s a)) (s : State) : linksLeft l s (as.foldl f s) := by
  induction as generalizing s with
  | nil => exact linksLeft_refl l s
  | cons a rest ih =>
    rw [List.foldl_cons]
    exact (h s a List.mem_cons_self).trans (ih (fun s b hb => h s b (List.mem_cons_of_mem a hb)) (f s a))

theorem linksLeft_sent (l : Nat) (s : State) (m : SMap LaneX) (o : List Out) : linksLeft l s { s with lanes := m, out := o } := ⟨⟨rfl, rfl, rfl⟩, fun _ => rfl⟩

/-- A frame to a partner changes nothing of the models, and no count of beacons. -/
theorem linksLeft_sendFrame (l : Nat) (s : State) (g kind : Nat) (ws : List Word) : linksLeft l s (sendFrame s g kind ws) := by
  have dealt : ∀ u n, linksLeft l u (dealBlocks u g n) := fun u n => by
    unfold dealBlocks
    extract_lets run place passed
    obtain ⟨m, o, blocks⟩ := passBlocksList_frame (fun j => dealtTo run.length place (j - run.headD 0) n) run u
    have passes : linksLeft l u passed := by
      rw [show passed = _ from blocks]
      exact linksLeft_sent l u m o
    exact passes.trans (linksLeft_setGroup l passed rfl)
  have out : ∀ u x, linksLeft l u (transmit u x) := fun u x => by
    obtain ⟨o, left⟩ := transmit_frame u x
    rw [left]
    exact linksLeft_sent l u u.lanes o
  unfold sendFrame
  extract_lets x start sent
  have sequence : linksLeft l s (s.setGroup g { x with txSeq := (x.txSeq + 1) % 65536 }) := linksLeft_setGroup l s rfl
  have deals : linksLeft l (s.setGroup g { x with txSeq := (x.txSeq + 1) % 65536 }) sent := dealt _ _
  exact (sequence.trans deals).trans (out sent _)

/-- A tag that enters DONE leaves the models and the groups alone. -/
theorem linksLeft_txnDone (hl : l < 1024) (s : State) (n stat pstatus : Nat) (data : List Word) (quar : Nat) : linksLeft l s (txnDone s n stat pstatus data quar) := by
  have one : ∀ (u : State) (k q : Nat), linksLeft l u (txnDoneOne u k stat pstatus data q) := fun u k q =>
    (linksLeft_setTxn ..).trans (linksLeft_of_models ((shown_event ..).left hl) (event_groups ..))
  unfold txnDone
  extract_lets x
  split
  · exact iteInduction (fun _ => (one ..).trans (one ..)) fun _ => one ..
  · exact one ..

theorem linksLeft_txnUnlink (l : Nat) (s : State) (g : Nat) : linksLeft l s (txnUnlink s g) := by
  unfold txnUnlink
  exact linksLeft_foldl _ (fun s e _ => iteInduction (fun _ => iteInduction (fun _ => linksLeft_setTxn ..) fun _ => linksLeft_setTxn ..)
    fun _ => linksLeft_refl l s) s

/-- What the second beacon after UP does leaves the models, the lane's counts and the groups' beacons alone. -/
theorem linksLeft_txnSecondBeacon (hl : l < 1024) (s : State) (g : Nat) : linksLeft l s (txnSecondBeacon s g) := by
  unfold txnSecondBeacon
  extract_lets unlinked
  refine (linksLeft_txnUnlink l s g).trans (linksLeft_foldl _ (fun u e _ => ?_) _)
  extract_lets x
  refine iteInduction (fun _ => ?_) fun _ => linksLeft_refl l u
  split
  · exact linksLeft_txnDone hl ..
  · extract_lets waits asks
    exact ((linksLeft_setTxn ..).trans (linksLeft_setTxn ..)).trans (linksLeft_sendFrame ..)

/-! ### The end of the link's quarantine -/

theorem mem_of_mem_merase {α : Type} {e : Nat × α} {k : Nat} : {m : SMap α} → e ∈ merase m k → e ∈ m
  | (k', v') :: rest, h => by
    unfold merase at h
    split at h
    · exact List.mem_cons_of_mem _ (mem_of_mem_merase h)
    · rcases List.mem_cons.mp h with rfl | h
      · exact List.mem_cons_self
      · exact List.mem_cons_of_mem _ (mem_of_mem_merase h)

theorem mem_of_mem_minsert {α : Type} {e : Nat × α} {k : Nat} {v : α} : {m : SMap α} → e ∈ minsert m k v → e = (k, v) ∨ e ∈ m
  | [], h => Or.inl (List.mem_singleton.mp h)
  | (k', v') :: rest, h => by
    unfold minsert at h
    split at h
    · exact List.mem_cons.mp h
    · split at h
      · exact (List.mem_cons.mp h).imp_right (List.mem_cons_of_mem _)
      · rcases List.mem_cons.mp h with rfl | h
        · exact Or.inr List.mem_cons_self
        · exact (mem_of_mem_minsert h).imp_right (List.mem_cons_of_mem _)

theorem mem_of_mem_mset {α : Type} [DecidableEq α] {d v : α} {e : Nat × α} {k : Nat} {m : SMap α} (h : e ∈ mset d m k v) : (e = (k, v) ∧ v ≠ d) ∨ e ∈ m := by
  unfold mset at h
  split at h
  · exact Or.inr (mem_of_mem_merase h)
  · next other => exact (mem_of_mem_minsert h).imp_left fun here => ⟨here, other⟩

/-- No read of the group waits for a retry. -/
def noneWaits (s : State) (g : Nat) : Prop := ∀ e ∈ s.txns, e.2.st = .retryWait → e.2.group ≠ g

/-- What the end of the quarantine of group `g`'s link does to a tag (R195). -/
def unlinkOne (g : Nat) (s : State) (e : Nat × Txn) : State :=
  if e.2.quar = 1 && e.2.group = g then (if e.2.st = .quarantine then freeTxn s e.1 else s.setTxn e.1 { e.2 with quar := 0 }) else s

theorem txnUnlink_eq (s : State) (g : Nat) : txnUnlink s g = s.txns.foldl (unlinkOne g) s := rfl

theorem unlinkOne_noneWaits {g : Nat} {e : Nat × Txn} (waits : e.2.st = .retryWait → e.2.group ≠ g) (h : noneWaits s g) : noneWaits (unlinkOne g s e) g := by
  unfold unlinkOne
  refine iteInduction (motive := fun t => noneWaits t g) (fun _ => iteInduction (motive := fun t => noneWaits t g) (fun _ e' he' => ?_) fun _ e' he' => ?_) fun _ => h
  · rcases mem_of_mem_mset (show e' ∈ mset Txn.init s.txns e.1 Txn.init from he') with ⟨-, same⟩ | old
    · exact absurd rfl same
    · exact h e' old
  · rcases mem_of_mem_mset (show e' ∈ mset Txn.init s.txns e.1 { e.2 with quar := 0 } from he') with ⟨rfl, -⟩ | old
    · exact waits
    · exact h e' old

theorem txnUnlink_noneWaits {g : Nat} (h : noneWaits s g) : noneWaits (txnUnlink s g) g := by
  have steps : ∀ (es : SMap Txn) (u : State), (∀ e ∈ es, e.2.st = .retryWait → e.2.group ≠ g) → noneWaits u g → noneWaits (es.foldl (unlinkOne g) u) g := by
    intro es
    induction es with
    | nil => exact fun u _ none => none
    | cons e rest ih =>
      intro u waits none
      rw [List.foldl_cons]
      exact ih _ (fun e he => waits e (List.mem_cons_of_mem _ he)) (unlinkOne_noneWaits (waits e List.mem_cons_self) none)
  rw [txnUnlink_eq]
  exact steps s.txns s h h

theorem txnUnlink_out (s : State) (g : Nat) : (txnUnlink s g).out = s.out := by
  have steps : ∀ (es : SMap Txn) (u : State), (es.foldl (unlinkOne g) u).out = u.out := by
    intro es
    induction es with
    | nil => exact fun _ => rfl
    | cons e rest ih =>
      intro u
      rw [List.foldl_cons, ih]
      unfold unlinkOne
      exact iteInduction (motive := fun t : State => t.out = u.out) (fun _ => iteInduction (motive := fun t : State => t.out = u.out) (fun _ => rfl) fun _ => rfl) fun _ => rfl
  rw [txnUnlink_eq, steps]

/-- Where no read of the group waits, the second beacon ends the quarantine and does no more. -/
theorem txnSecondBeacon_noneWaits {g : Nat} (h : noneWaits s g) : txnSecondBeacon s g = txnUnlink s g := by
  have none := txnUnlink_noneWaits h
  unfold noneWaits at none
  unfold txnSecondBeacon
  generalize txnUnlink s g = u at none
  extract_lets v
  rw [show v = u from rfl]
  generalize u.txns = es at none
  induction es with
  | nil => rfl
  | cons e rest ih =>
    have stays : ¬ (e.2.st = .retryWait && e.2.group = g) = true := by
      simp only [Bool.and_eq_true, decide_eq_true_eq, not_and]
      exact none e List.mem_cons_self
    rw [List.foldl_cons, if_neg stays]
    exact ih fun e he => none e (List.mem_cons_of_mem _ he)

/-- The only tag, quarantined by the link of group `g`: it is free, or in DONE no longer marked. -/
theorem txnUnlink_one {g n : Nat} {y : Txn} (only : s.txns = [(n, y)]) (link : y.quar = 1) (group : y.group = g) :
    (y.st = .quarantine → (txnUnlink s g).txn n = Txn.init) ∧ (y.st = .done → (txnUnlink s g).txn n = { y with quar := 0 }) := by
  have opens : (y.quar = 1 && y.group = g) = true := by simp [link, group]
  rw [txnUnlink_eq, only, List.foldl_cons, List.foldl_nil, unlinkOne, if_pos opens]
  refine ⟨fun free => ?_, fun done => ?_⟩
  · rw [if_pos free]
    exact State.txn_setTxn ..
  · rw [if_neg (by rw [done]; decide)]
    exact State.txn_setTxn ..

/-! ### A read that is sent again -/

theorem sendRequest_txn (s : State) (k : Nat) (data : List Word) (j : Nat) : (sendRequest s k data).txn j = s.txn j := by
  unfold sendRequest
  extract_lets x
  obtain ⟨m, gs, o, sent⟩ := sendFrame_frame s x.group 2 (pack [(63, 52, k), (51, 50, x.op), (49, 42, x.len), (31, 0, x.addr)] :: data)
  rw [sent]
  rfl

/-- The only tag waits for a retry: the retry takes the lowest other tag, and is outstanding for it (R195). -/
theorem txnSecondBeacon_retries {g n : Nat} {y : Txn} (only : s.txns = [(n, y)]) (waits : y.st = .retryWait) (plain : y.quar = 0) (group : y.group = g) :
    let t := txnSecondBeacon s g
    let k := if n = 0 then 1 else 0
    t.txn n = { y with st := .retrying, mate := some k } ∧ ∃ deadline, t.txn k = { y with st := .outstanding, isRetry := true, mate := some n, deadline := deadline } := by
  have other : (if n = 0 then 1 else 0) ≠ n := by
    split <;> omega
  have unlinked : txnUnlink s g = s := by
    rw [txnUnlink_eq, only, List.foldl_cons, List.foldl_nil, unlinkOne, if_neg (by simp [plain])]
  have free : s.freeTag = some (if n = 0 then 1 else 0) := by
    simp only [State.freeTag, only, firstGap]
    split <;> rfl
  have opens : (y.st = .retryWait && y.group = g) = true := by simp [waits, group]
  intro t k
  have now : t = sendRequest ((s.setTxn n { y with st := .retrying, mate := some k }).setTxn k
      { y with st := .outstanding, isRetry := true, mate := some n, deadline := s.tb.tick + s.txnLimit g }) k [] := by
    simp only [t, txnSecondBeacon]
    rw [unlinked, only, List.foldl_cons, List.foldl_nil, if_pos opens, free]
    rfl
  have tags : ∀ j, t.txn j = ((s.setTxn n { y with st := .retrying, mate := some k }).setTxn k
      { y with st := .outstanding, isRetry := true, mate := some n, deadline := s.tb.tick + s.txnLimit g }).txn j := fun j => by
    rw [now, sendRequest_txn]
  refine ⟨?_, s.tb.tick + s.txnLimit g, ?_⟩
  · rw [tags, State.txn_setTxn_ne _ _ other.symm, State.txn_setTxn]
  · rw [tags, State.txn_setTxn]

end

end Sys2Proof.Machine
end

section
/-! PROOF. The time limit of ACQUIRE, and the frames that wait for a model (R186, R189, R313, R348). -/

namespace Sys2Proof.Machine

open Sys2Proof.Claims

/-- The models, the state of lane `l`'s, the frames of group `g`'s ingress queue and its count of drops are as they were. -/
def queueLeft (l g : Nat) (s t : State) : Prop :=
  t.models = s.models ∧ t.get F.ltsb_mstate l = s.get F.ltsb_mstate l ∧ (t.ing g).frames = (s.ing g).frames ∧ t.get F.qia_drops g = s.get F.qia_drops g

section
variable {l g : Nat} {s t u : State}

theorem queueLeft_refl (l g : Nat) (s : State) : queueLeft l g s s := ⟨rfl, rfl, rfl, rfl⟩

theorem queueLeft.trans (h : queueLeft l g s t) (h' : queueLeft l g t u) : queueLeft l g s u := by
  obtain ⟨models, state, frames, drops⟩ := h
  obtain ⟨models', state', frames', drops'⟩ := h'
  exact ⟨models'.trans models, state'.trans state, frames'.trans frames, drops'.trans drops⟩

/-- A field of the queue's status beside its count of drops. -/
theorem queueLeft_put (hl : l < 1024) (g : Nat) (s : State) (f : Field) (v : Nat)
    (status : f.obj = 5 ∧ f.lo ≤ f.hi ∧ f.hi < 64 ∧ (f.sel = 4 ∨ f.sel = 2 ∧ f.hi < 16)) : queueLeft l g s (s.put f g v) := by
  obtain ⟨obj, low, high, place⟩ := status
  have stateKey : wkey F.ltsb_mstate.obj F.ltsb_mstate.sel l ≠ wkey f.obj f.sel g := by
    simp only [wkey, obj, F.ltsb_mstate]
    omega
  refine ⟨State.put_models .., State.get_put_ne _ _ _ _ _ _ stateKey, congrArg Ingress.frames (State.put_ing ..), ?_⟩
  rcases place with sel | ⟨sel, apart⟩
  · refine State.get_put_ne _ _ _ _ _ _ ?_
    simp only [wkey, obj, sel, F.qia_drops]
    omega
  · exact State.get_put_apart s f F.qia_drops g v obj sel low high (by decide) (by decide) (Or.inl apart)

theorem queueLeft_setIng (l : Nat) {g : Nat} (s : State) {x : Ingress} (same : x.frames = (s.ing g).frames) : queueLeft l g s (s.setIng g x) := by
  refine ⟨rfl, rfl, ?_, rfl⟩
  rw [State.ing_setIng]
  exact same

theorem queueLeft.setIng (h : queueLeft l g s t) {x : Ingress} (same : x.frames = (s.ing g).frames) : queueLeft l g s (t.setIng g x) := by
  obtain ⟨-, -, frames, -⟩ := id h
  exact h.trans (queueLeft_setIng l t (same.trans frames.symm))

theorem queueLeft_event (l : Nat) (hg : g < 1024) (s : State) (p a b c d : Nat) (ws : List Word) : queueLeft l g s (event s p a b c d ws) := by
  obtain ⟨-, words, state⟩ := shown_event l s p a b c d ws
  have away : wkey F.qia_drops.obj F.qia_drops.sel g < wkey 1 8 0 ∨ (wkey 1 10 0 ≤ wkey F.qia_drops.obj F.qia_drops.sel g ∧ wkey F.qia_drops.obj F.qia_drops.sel g < wkey 5 7 0) := by
    simp only [wkey, F.qia_drops]
    omega
  exact ⟨event_models .., state, congrArg Ingress.frames (event_ing ..), words.get F.qia_drops g away⟩

theorem queueLeft_pauseFrame (l g : Nat) (s : State) (op : Nat) : queueLeft l g s (pauseFrame s g op) := by
  obtain ⟨m, k, o, sent⟩ := pauseFrame_frame s g op
  rw [sent]
  exact ⟨rfl, rfl, rfl, rfl⟩

/-- The pause of a queue, as it settles, changes neither its frames nor its count of drops (R348). -/
theorem queueLeft_pauseSettle (hl : l < 1024) (s : State) (g : Nat) : queueLeft l g s (pauseSettle s g) := by
  unfold pauseSettle
  extract_lets press v want x paused resumed
  have pressure : queueLeft l g s v := queueLeft_put hl g s F.qia_pressure _ (by decide)
  have pauses : queueLeft l g v paused := (queueLeft_pauseFrame l g v 1).trans (queueLeft_put hl g _ F.qis_pauses _ (by decide))
  have resumes : queueLeft l g v resumed := iteInduction (fun _ => queueLeft_pauseFrame l g v 2) fun _ => queueLeft_refl l g v
  refine pressure.trans (iteInduction (fun _ => pauses.setIng rfl) fun _ => iteInduction (fun _ => resumes.setIng rfl) fun _ => queueLeft_refl l g v)

/-- An ingress queue, as it settles, changes neither its frames nor its count of drops (R313, R348). -/
theorem queueLeft_ingSettle (hl : l < 1024) (hg : g < 1024) (s : State) : queueLeft l g s (ingSettle s g) := by
  have fill := fun u v => queueLeft_put hl g u F.qis_fill v (by decide)
  have full := fun u v => queueLeft_put hl g u F.qia_full v (by decide)
  have uncommitted := fun u v => queueLeft_put hl g u F.qia_uncommitted v (by decide)
  have paused := fun u v => queueLeft_put hl g u F.qia_paused v (by decide)
  have attn := fun u v => queueLeft_put hl g u F.qia_attn v (by decide)
  unfold ingSettle
  extract_lets cap old level hi y x u v w z q
  have shows : queueLeft l g s w := (((queueLeft_setIng l s (x := x) rfl).trans (fill u _)).trans (full _ _)).trans (uncommitted v _)
  have settles : queueLeft l g w q := iteInduction (fun _ => iteInduction
    (fun _ => ((paused w 0).trans (attn z 1)).trans (queueLeft_event l hg ..)) fun _ => paused w 0) fun _ => paused w _
  exact (shows.trans settles).trans (queueLeft_pauseSettle hl q g)

/-! ### The time limit of ACQUIRE -/

/-- The frames that wait for a model leave the queue, with their hits and markers counted as drops (R189). -/
theorem dropWaiting_drops (hl : l < 1024) (hg : g < 1024) (s : State) :
    let t := dropWaiting s g
    t.models = s.models ∧ t.get F.ltsb_mstate l = s.get F.ltsb_mstate l ∧ (t.ing g).frames = ((s.ing g).frames.filter fun f => f.stage ≠ 0) ∧
      t.get F.qia_drops g = plus s F.qia_drops g (sumOver IFrame.discarded ((s.ing g).frames.filter fun f => f.stage = 0)) := by
  have otherState : wkey F.ltsb_mstate.obj F.ltsb_mstate.sel l ≠ wkey F.qia_drops.obj F.qia_drops.sel g := by
    simp only [wkey, F.qia_drops, F.ltsb_mstate]
    omega
  unfold dropWaiting
  extract_lets x gone n noted closed t
  have notes : queueLeft l g s noted := iteInduction (fun _ => queueLeft_refl l g s) fun _ => ⟨rfl, rfl, rfl, rfl⟩
  obtain ⟨models, state, -, count⟩ := notes
  obtain ⟨models', state', frames, count'⟩ := queueLeft_ingSettle hl hg
    (dropGroup (noted.setIng g { x.closed with frames := x.frames.filter fun f => f.stage ≠ 0 }) g n)
  clear_value noted
  refine ⟨models'.trans ?_, state'.trans ?_, frames.trans ?_, count'.trans ?_⟩
  · rw [dropGroup, State.satInc_models, State.setIng_models, models]
  · rw [dropGroup, State.satInc, State.get_put_ne _ _ _ _ _ _ otherState, State.setIng_get, state]
  · rw [dropGroup, State.satInc_ing, State.ing_setIng]
  · rw [dropGroup, satInc_get_self _ _ _ _ (by decide) (by decide), plus_congr (t := State.setIng ..) (State.setIng_get ..), plus_congr count]

/-- ACQUIRE begins anew. -/
def acquiredAnew (u : State) (l : Nat) : State := u.setModel l { u.model l with enteredAt := u.tb.tick }

theorem acquiredAnew_enteredAt (u : State) (l : Nat) : ((acquiredAnew u l).model l).enteredAt = u.tb.tick := by
  rw [acquiredAnew, State.model_setModel]

/-- ACQUIRE begins anew, and what waits is dropped where the lane leads a run without a model (R186, R189). -/
def acquireExpires (u : State) (l : Nat) : State :=
  if ((acquiredAnew u l).modelLane (u.groupOf l)).isNone && ((acquiredAnew u l).runLanes (u.groupOf l)).head? = some l then
    dropWaiting (acquiredAnew u l) (u.groupOf l)
  else acquiredAnew u l

theorem execAcquireTimeout_eq (acquire : s.get F.ltsb_mstate l = 1) :
    exec (.acquireTimeout l) s = .next (acquireExpires (advanceTo s ((s.model l).enteredAt + 16000000)) l) := by
  have limit : 10 * Config.milli = 16000000 := rfl
  show execAcquireTimeout l s = _
  rw [execAcquireTimeout, if_pos acquire, limit, acquireExpires]
  exact (apply_ite Host.Outcome.next ..).symm

theorem acquireExpires_begins (hl : l < 1024) (u : State) :
    let g := u.groupOf l
    let t := acquireExpires u l
    t.get F.ltsb_mstate l = u.get F.ltsb_mstate l ∧ (t.model l).enteredAt = u.tb.tick ∧
      (u.modelLane g = none → (u.runLanes g).head? = some l → (∀ f ∈ (t.ing g).frames, f.stage ≠ 0) ∧
        t.get F.qia_drops g = plus u F.qia_drops g (sumOver IFrame.discarded ((u.ing g).frames.filter fun f => f.stage = 0))) := by
  have hg : u.groupOf l < 1024 := Nat.lt_of_le_of_lt (groupOf_le u l) hl
  have condition : (((acquiredAnew u l).modelLane (u.groupOf l)).isNone && ((acquiredAnew u l).runLanes (u.groupOf l)).head? = some l) =
      ((u.modelLane (u.groupOf l)).isNone && (u.runLanes (u.groupOf l)).head? = some l) := rfl
  have count := plus_congr (State.setModel_get (s := u) (l := l) (x := { u.model l with enteredAt := u.tb.tick }) F.qia_drops (u.groupOf l))
  unfold acquireExpires
  rw [condition]
  by_cases drops : ((u.modelLane (u.groupOf l)).isNone && (u.runLanes (u.groupOf l)).head? = some l) = true
  · rw [if_pos drops]
    obtain ⟨models, state, frames, dropped⟩ := dropWaiting_drops hl hg (acquiredAnew u l)
    refine ⟨state, ?_, fun _ _ => ⟨?_, dropped.trans (count _)⟩⟩
    · rw [State.model, models, ← State.model, acquiredAnew_enteredAt]
    · rw [frames]
      exact fun f hf => of_decide_eq_true (List.mem_filter.mp hf).2
  · rw [if_neg drops]
    refine ⟨rfl, acquiredAnew_enteredAt u l, fun absent first => absurd ?_ drops⟩
    simp [absent, first]

end

end Sys2Proof.Machine
end

section
/-! PROOF. A beacon that leaves, as the obligation on partner time states it (R179, R180, R195). -/

namespace Sys2Proof.Machine

open Sys2Proof.Claims

section
variable {l g edge code dev : Nat} {ok coarse : Bool} {s t u v : State}

/-! ### What a stamp leaves alone -/

theorem stampOf_advanceTo (s : State) (l edge code : Nat) (ok : Bool) :
    Claims.stampOf (advanceTo s (edge / 102400)) l edge code ok = Claims.stampOf s l edge code ok := by
  unfold Claims.stampOf
  rw [advanceTo_advanceTo]

theorem stamped.landTime (h : stamped l u v) (j n : Nat) (departs : Bool) : landTime v j n departs = landTime u j n departs := by
  obtain ⟨ms, f, b, rfl, -⟩ := h
  rfl

theorem stamped.tb (h : stamped l u v) : v.tb = u.tb := by
  obtain ⟨ms, f, b, rfl, -⟩ := h
  rfl

theorem stamped.regs (h : stamped l u v) : v.regs = u.regs := by
  obtain ⟨ms, f, b, rfl, -⟩ := h
  rfl

theorem stamped.liveBeacons (h : stamped l u v) : liveBeacons v l = (u.model l).beacons.filter (u.beaconLive (u.model l)) := by
  obtain ⟨ms, f, b, rfl, model⟩ := h
  unfold Machine.liveBeacons
  rw [model]
  rfl

/-! ### A beacon that leaves -/

/-- A beacon that has been kept as the lane's own stamp has it. -/
theorem beaconKept_stamped (hl : l < 1024) (hg : g < 1024) (h : stamped l u v) (t1 period : Nat) (coarse : Bool) :
    let w := beaconKept v l t1 period coarse
    let x := u.model l
    let live := x.beacons.filter (u.beaconLive x)
    (w.model l).beacons = live ++ [{ bn := x.nextBn, t1 := t1, coarse := coarse, sent := u.tb.tick }] ∧
      w.get F.ltsc_exch_lost l = plus u F.ltsc_exch_lost l (x.beacons.length - live.length) ∧ (w.model l).nextBn = (x.nextBn + 1) % 256 ∧
      (w.model l).prevT1 = t1 % 2 ^ 48 ∧ (w.model l).beaconAt = period ∧ w.groups = u.groups ∧ w.txns = u.txns ∧ w.beaconLane g = u.beaconLane g ∧
      (u.drives = true → u.laneState l ≠ 10 → noFill w.out = noFill u.out ++ [.block l 0x3C (x.nextBn * 2 ^ 48 + x.prevT1 % 2 ^ 48)]) := by
  have model := beaconKept_model v l t1 period coarse
  have lost := beaconKept_lost v l t1 period coarse
  have groups := beaconKept_groups v l t1 period coarse
  have txns := beaconKept_txns v l t1 period coarse
  have lane := beaconKept_beaconLane v hl hg t1 period coarse
  have out := beaconKept_noFill v hl t1 period coarse
  rw [h.liveBeacons] at model lost
  obtain ⟨ms, f, b, rfl, busy⟩ := h
  rw [busy] at model lost out
  intro w x live
  rw [show w.model l = _ from model]
  exact ⟨rfl, lost, rfl, rfl, rfl, groups, txns, lane, out⟩

/-! ### An echo that comes -/

section
variable {w : Word} (partner : s.host l = false) (running : l ∈ s.runLanes (s.groupOf l)) (stamp : Claims.stampOf s l edge code ok = some (dev, coarse))
include partner running stamp

/-- An echo that answers no beacon of the last 64 periods is late, unless the exchange of its beacon has ended within them (R180). -/
theorem execEchoReceive_unanswered (none : ∀ b ∈ (s.model l).beacons, b.bn ≠ bits w 55 48 ∨ b.sent + 163840 < (advanceTo s (edge / 102400)).tb.tick) :
    ∃ t, exec (.echoReceive l w edge code ok) s = .next t ∧
      ((∀ b ∈ (s.model l).ended, b.bn ≠ bits w 55 48 ∨ b.sent + 163840 < (advanceTo s (edge / 102400)).tb.tick) →
        t.get F.ltsd_late_echo l = plus s F.ltsd_late_echo l 1) ∧
      ((∃ b ∈ (s.model l).ended, b.bn = bits w 55 48 ∧ (advanceTo s (edge / 102400)).tb.tick ≤ b.sent + 163840) →
        t.get F.ltsd_late_echo l = s.get F.ltsd_late_echo l) ∧
      (t.model l).echoes = (s.model l).echoes ∧ (t.model l).beacons = (s.model l).beacons := by
  obtain ⟨t, stamps, busy⟩ := laneStamp_eq stamp
  have late : t.get F.ltsd_late_echo l = s.get F.ltsd_late_echo l := congrArg (fun r => bits (regGet r (wkey 1 11 l)) 15 8) (busy.regs.trans (advanceTo_regs ..))
  have tick := congrArg TimeBase.tick busy.tb
  obtain ⟨_, _, b, -, model⟩ := busy
  rw [advanceTo_model] at model
  have answers := execEchoReceive_none (w := w) partner running stamps (by
    rw [model, tick]
    rintro b hb ⟨number, recent⟩
    have := (recent_iff ..).mp recent
    exact (none b hb).elim (fun h => h number) (by omega))
  rw [model, tick] at answers
  by_cases ended : ((s.model l).ended.any fun b => b.bn = bits w 55 48 && b.recent (advanceTo s (edge / 102400)).tb.tick) = true
  · rw [if_pos ended] at answers
    obtain ⟨b', hb', answered⟩ := List.any_eq_true.mp ended
    simp only [Bool.and_eq_true, decide_eq_true_eq, recent_iff] at answered
    obtain ⟨number, recent⟩ := answered
    refine ⟨t, answers, fun all => ?_, fun _ => late, by rw [model], by rw [model]⟩
    exact absurd recent ((all b' hb').elim (fun h => absurd number h) Nat.not_le.mpr)
  · rw [if_neg ended] at answers
    refine ⟨_, answers, fun _ => ?_, fun ⟨b', hb', number, recent⟩ => absurd ?_ ended, by rw [State.satInc_model, model], by rw [State.satInc_model, model]⟩
    · rw [satInc_get_self _ _ _ _ (by decide) (by decide), plus_congr late]
    · refine List.any_eq_true.mpr ⟨b', hb', ?_⟩
      simp only [Bool.and_eq_true, decide_eq_true_eq, recent_iff]
      exact ⟨number, recent⟩

/-- An echo that answers a beacon of the last 64 periods is kept with its stamp (R180). -/
theorem execEchoReceive_answered {b : Beacon} (kept : b ∈ (s.model l).beacons) (number : b.bn = bits w 55 48)
    (recent : (advanceTo s (edge / 102400)).tb.tick ≤ b.sent + 163840) (unique : ∀ b' ∈ (s.model l).beacons, b'.bn = b.bn → b' = b) :
    ∃ t, exec (.echoReceive l w edge code ok) s = .next t ∧
      (t.model l).echoes = ((s.model l).echoes.filter fun e => e.beacon ≠ b) ++
        [{ beacon := b, t2 := bits w 39 0, t4 := landTime (advanceTo s (edge / 102400)) l dev false, coarse := coarse }] ∧
      (t.model l).beacons = (s.model l).beacons := by
  obtain ⟨t, stamps, busy⟩ := laneStamp_eq stamp
  have land := busy.landTime l dev false
  have tick := congrArg TimeBase.tick busy.tb
  obtain ⟨_, _, _, -, model⟩ := busy
  rw [advanceTo_model] at model
  have answers := execEchoReceive_some (w := w) (b := b) partner running stamps (by rw [model]; exact kept) number
    (by rw [tick]; exact (recent_iff ..).mpr recent) (by rw [model]; exact unique)
  refine ⟨_, answers, ?_, ?_⟩
  · rw [State.model_setModel, model, land]
  · rw [State.model_setModel, model]

end

/-! ### The group of a beacon -/

theorem beaconEnds_models (hl : l < 1024) (s : State) (g : Nat) : modelsLeft l s (beaconEnds s l g) := by
  have counted : modelsLeft l s (beaconCounted s g) := ⟨rfl, rfl, rfl⟩
  unfold beaconEnds
  exact iteInduction (fun _ => iteInduction (fun _ => counted.trans (linksLeft_txnSecondBeacon hl _ g).1) fun _ => counted) fun _ => ⟨rfl, rfl, rfl⟩

theorem beaconEnds_beacons (hl : l < 1024) (carries : s.beaconLane g = some l) : ((beaconEnds s l g).group g).beacons = (s.group g).beacons + 1 := by
  have counted : ((beaconCounted s g).group g).beacons = (s.group g).beacons + 1 := congrArg GroupX.beacons (State.group_setGroup ..)
  obtain ⟨-, kept⟩ := linksLeft_txnSecondBeacon hl (beaconCounted s g) g
  rw [beaconEnds, if_pos carries]
  exact iteInduction (motive := fun t : State => (t.group g).beacons = _) (fun _ => (kept g).trans counted) fun _ => counted

theorem beaconEnds_plain (carries : s.beaconLane g = some l) (plain : (s.group g).beacons ≠ 1) : beaconEnds s l g = beaconCounted s g := by
  rw [beaconEnds, if_pos carries, if_neg (by omega)]

theorem beaconEnds_second (carries : s.beaconLane g = some l) (second : (s.group g).beacons = 1) : beaconEnds s l g = txnSecondBeacon (beaconCounted s g) g := by
  rw [beaconEnds, if_pos carries, if_pos (by omega)]

theorem advanceTo_beaconLane (s : State) (n g : Nat) : (advanceTo s n).beaconLane g = s.beaconLane g := by
  obtain ⟨_, _, later⟩ := advanceTo_frame s n
  rw [later]
  rfl

theorem advanceTo_drives (s : State) (n : Nat) : (advanceTo s n).drives = s.drives := by
  obtain ⟨_, _, later⟩ := advanceTo_frame s n
  rw [later]
  rfl

theorem sendsBeacons_serves (sends : s.sendsBeacons l = true) : s.laneState l ≠ 10 := by
  simp only [State.sendsBeacons, Bool.and_eq_true, decide_eq_true_eq] at sends
  exact sends.2

/-- The beacon of a slot that is due is kept, and what it does to its group follows (R179, R180, R195). -/
theorem execBeaconSend_keeps (hl : l < 1024) (sends : (advanceTo s (edge / 102400)).sendsBeacons l = true) (due : (advanceTo s (edge / 102400)).beaconDue l = true)
    (stamp : Claims.stampOf s l edge code ok = some (dev, coarse)) :
    let u := advanceTo s (edge / 102400)
    let x := s.model l
    let live := x.beacons.filter (u.beaconLive x)
    let t1 := landTime u l dev true
    ∃ w, exec (.beaconSend l edge code ok) s = .next (beaconEnds w l (s.groupOf l)) ∧
      (w.model l).beacons = live ++ [{ bn := x.nextBn, t1 := t1, coarse := coarse, sent := u.tb.tick }] ∧
      w.get F.ltsc_exch_lost l = plus s F.ltsc_exch_lost l (x.beacons.length - live.length) ∧ (w.model l).nextBn = (x.nextBn + 1) % 256 ∧
      (w.model l).prevT1 = t1 % 2 ^ 48 ∧ (w.model l).beaconAt = u.laneFull l / 2560 + 1 ∧ w.groups = s.groups ∧ w.txns = s.txns ∧
      w.beaconLane (s.groupOf l) = s.beaconLane (s.groupOf l) ∧
      (s.drives = true → noFill w.out = noFill s.out ++ [.block l 0x3C (x.nextBn * 2 ^ 48 + x.prevT1 % 2 ^ 48)]) := by
  rw [← stampOf_advanceTo] at stamp
  obtain ⟨v, stamps, busy⟩ := laneStamp_eq stamp
  rw [advanceTo_advanceTo] at busy
  have leaves := execBeaconSend_eq sends due stamps
  have group : (advanceTo s (edge / 102400)).groupOf l = s.groupOf l := congrArg (l - ·) (advanceTo_get ..)
  obtain ⟨beacons, lost, nextBn, prevT1, beaconAt, groups, txns, lane, out⟩ :=
    beaconKept_stamped hl (Nat.lt_of_le_of_lt (groupOf_le s l) hl) busy (landTime v l dev true) ((advanceTo s (edge / 102400)).laneFull l / 2560 + 1) coarse
  rw [plus_congr (advanceTo_get ..)] at lost
  rw [advanceTo_model] at beacons lost nextBn out
  rw [advanceTo_drives, advanceTo_out] at out
  rw [advanceTo_groups] at groups
  rw [advanceTo_txns] at txns
  rw [advanceTo_beaconLane] at lane
  rw [busy.landTime] at *
  dsimp only at leaves
  rw [group] at leaves
  exact ⟨_, leaves, beacons, lost, nextBn, prevT1, beaconAt, groups, txns, lane, fun drives => out drives (sendsBeacons_serves sends)⟩

end

end Sys2Proof.Machine
end

section
namespace Sys2Proof

open Machine Claims

/-- Settles O43, clause by clause. That a newer fit replaces one not yet computed, that a second echo takes the first's place, that half of the asymmetry is
rounded half up, that the t2 of a refused exchange is kept, and that a fit is kept from SUSPECT to ACQUIRE are the model's choices (log 20). -/
theorem partnerTimeModel : Obligations.PartnerTimeModel := by
  unfold Obligations.PartnerTimeModel
  refine ⟨?_, ?_, ?_, ?_, ?_, ?_, ?_⟩
  · intro l edge code dev ok coarse s hl u
    refine ⟨execBeaconSend_idle, fun sends due stamp => ?_⟩
    intro g x out t1
    obtain ⟨w, leaves, beacons, lost, nextBn, prevT1, beaconAt, groups, txns, lane, sent⟩ := execBeaconSend_keeps hl sends due stamp
    obtain ⟨models, counts, -⟩ := beaconEnds_models hl w g
    have model : (beaconEnds w l g).model l = w.model l := congrArg (mget Model.init · l) models
    have group : w.group g = s.group g := congrArg (mget GroupX.init · g) groups
    refine ⟨beaconEnds w l g, leaves, ?_, ?_, ?_, ?_, ?_, fun other => ?_, fun carries => ⟨?_, fun plain => ?_, fun second none => ?_, fun second n y only waits plain here => ?_⟩⟩
    · rw [model, beacons]
    · rw [← lost]
      exact congrArg (bits · 63 48) counts
    · rw [model, nextBn]
    · rw [model, prevT1]
    · rw [model, beaconAt]
    · rw [show beaconEnds w l g = w from if_neg (lane ▸ other)]
      exact ⟨sent, groups, txns⟩
    all_goals replace carries := lane.trans carries
    · rw [beaconEnds_beacons hl carries, group]
    · rw [beaconEnds_plain carries (group ▸ plain)]
      exact ⟨sent, txns⟩
    all_goals rw [beaconEnds_second carries (group ▸ second)]
    · have waiting : noneWaits (beaconCounted w g) g := fun e (he : e ∈ w.txns) => none e (txns ▸ he)
      rw [txnSecondBeacon_noneWaits waiting]
      refine ⟨fun drives => ?_, fun n y only link here => txnUnlink_one (txns.trans only) link here⟩
      rw [txnUnlink_out]
      exact sent drives
    · obtain ⟨asked, deadline, retry⟩ := txnSecondBeacon_retries (s := beaconCounted w g) (txns.trans only) waits plain here
      intro k
      rw [asked, retry]
      exact ⟨rfl, rfl, rfl, rfl, rfl, rfl, rfl⟩
  · intro l edge code dev w ok coarse s _ partner running stamp u x
    refine ⟨execEchoReceive_unanswered partner running stamp, fun b kept number recent unique => ?_⟩
    exact execEchoReceive_answered partner running stamp kept number recent unique
  · intro l w e s hl partner running kept number unique x t2 t3 turn rtt p good beyond joined due
    have outside : beyond = true → s.stepLimit l < (x.resid p).natAbs := of_decide_eq_true
    have inside : beyond = false → ¬ s.stepLimit l < (x.resid p).natAbs := of_decide_eq_false
    obtain ⟨echoes, beacons, lastT2, lastAccept⟩ := exchanged_exchanges hl s e t2 t3
    refine ⟨exchanged s l e t2 t3, execEchoFollowUpReceive_eq partner running kept number unique, echoes, beacons, lastT2, fun bad => ?_, fun accepted => ⟨lastAccept accepted, ?_⟩⟩
    · obtain ⟨model, lost, state⟩ := exchanged_lost hl s bad
      rw [model]
      exact ⟨lost, rfl, state⟩
    refine ⟨fun acquire short => ?_, fun acquire full => ?_, fun valid far => ?_, fun valid near => ?_, fun suspect near => ?_, fun suspect far => ?_,
      fun resume fitted near => ?_, fun resume far => ?_⟩
    · obtain ⟨window, one, -⟩ := exchanged_acquires hl s accepted acquire
      exact ⟨window, one short⟩
    · obtain ⟨window, -, fits⟩ := exchanged_acquires hl s accepted acquire
      exact ⟨window, fits full.ge⟩
    · exact (exchanged_valid hl s accepted valid).1 (outside far)
    · obtain ⟨window, two, fitDue, sinceFit⟩ := (exchanged_valid hl s accepted valid).2 (inside near)
      have falls : (s.model l).fitFalls ((s.model l).joined (2 ^ s.get F.ltc_fit_log2 l) (exchangePair s l e t2 t3)) = true ↔ due := Model.fitFalls_iff x joined
      refine ⟨window, two, fun h => ?_, fun h => ?_⟩
      · rw [fitDue, sinceFit, if_pos (falls.mpr h), if_pos (falls.mpr h)]
        exact ⟨rfl, rfl⟩
      · rw [fitDue, sinceFit, if_neg (mt falls.mp h), if_neg (mt falls.mp h)]
        exact ⟨rfl, rfl⟩
    · exact (exchanged_suspect hl s accepted suspect).1 (inside near)
    · exact (exchanged_suspect hl s accepted suspect).2 (outside far)
    · exact (exchanged_resume hl s accepted resume).1 fitted (inside near)
    · exact (exchanged_resume hl s accepted resume).2 (outside far)
  · intro l ps p s hl due newest unit
    exact ⟨_, execModelFitComplete_eq due, fitWindow_unit_shows hl newest unit⟩
  · intro l s hl acquire u g
    obtain ⟨state, entered, drops⟩ := acquireExpires_begins hl u
    exact ⟨_, execAcquireTimeout_eq acquire, state.trans ((advanceTo_get ..).trans acquire), entered, drops⟩
  · exact fun l s hl suspect => execSuspectTimeout_acquires hl suspect
  · exact fun l t0 s hl runs last => execHalfWrapLimit_empties hl runs last

end Sys2Proof
end

section
/-! PROOF. What a calibration step of one interpolator moves: of the calibration words, named fields of its own status words, and of the interpolators itself alone
(R107, R119 to R125, R128). -/

namespace Sys2Proof.Machine

open Sys2Proof.Claims

/-! ### Fields of the calibration words -/

/-- A field of the calibration words: CALSET or a calibration status word (R126, R128). -/
def Field.isCal (g : Field) : Bool := decide (g.obj = 33 ∨ g.obj = 10) && decide (g.lo ≤ g.hi ∧ g.hi < 64 ∧ g.sel < 256)

/-- Two fields of different words, or of different bits. -/
def Field.apart (f g : Field) : Bool := decide (f.obj ≠ g.obj ∨ f.sel ≠ g.sel) || decide (f.hi < g.lo ∨ g.hi < f.lo)

/-- A field of the calibration words that is none of the fields `ws`. -/
def besides (ws : List Field) (g : Field) : Bool := g.isCal && ws.all fun f => f.isCal && f.apart g

theorem Field.isCal_iff (g : Field) : g.isCal = true ↔ (g.obj = 33 ∨ g.obj = 10) ∧ g.lo ≤ g.hi ∧ g.hi < 64 ∧ g.sel < 256 := by
  simp only [Field.isCal, Bool.and_eq_true, decide_eq_true_eq]

theorem Field.apart_iff (f g : Field) : f.apart g = true ↔ (f.obj ≠ g.obj ∨ f.sel ≠ g.sel) ∨ (f.hi < g.lo ∨ g.hi < f.lo) := by
  simp only [Field.apart, Bool.or_eq_true, decide_eq_true_eq]

/-- A write of a word of another object leaves the calibration words alone. -/
theorem State.get_put_outside (s : State) {f g : Field} {i j : Nat} (v : Nat) (hg : g.isCal = true) (hf : f.obj ≠ 33 ∧ f.obj ≠ 10 ∧ f.sel < 256) (hi : i < 2 ^ 24)
    (hj : j < 2 ^ 24) : (s.put f i v).get g j = s.get g j := by
  obtain ⟨cal, -, -, sel⟩ := g.isCal_iff.mp hg
  obtain ⟨not33, not10, sel'⟩ := hf
  refine State.get_put_ne s f g i j v fun same => ?_
  obtain ⟨obj, -, -⟩ := wkey_inj sel hj sel' hi same
  omega

/-- A write of a calibration field leaves those apart from it alone. -/
theorem State.get_put_besides (s : State) {f g : Field} {i j : Nat} (v : Nat) (hf : f.isCal = true) (hg : g.isCal = true) (away : f.apart g = true) (hi : i < 2 ^ 24)
    (hj : j < 2 ^ 24) : (s.put f i v).get g j = s.get g j := by
  obtain ⟨-, order, width, sel⟩ := f.isCal_iff.mp hf
  obtain ⟨-, order', width', sel'⟩ := g.isCal_iff.mp hg
  rcases (f.apart_iff g).mp away with word | bits
  · refine State.get_put_ne s f g i j v fun same => ?_
    obtain ⟨obj, sel, -⟩ := wkey_inj sel' hj sel hi same
    omega
  · exact State.get_put_disjoint s f g i j v ⟨order, width⟩ ⟨order', width'⟩ bits

/-- A write of a calibration field of an interpolator leaves those beside it alone. -/
theorem State.get_put_status {n : Nat} (hn : n < 1536) (s : State) (f g : Field) (v : Nat) (h : besides [f] g = true) : (s.put f n v).get g n = s.get g n := by
  simp only [besides, List.all_cons, List.all_nil, Bool.and_true, Bool.and_eq_true] at h
  obtain ⟨hg, hf, away⟩ := h
  exact State.get_put_besides s v hf hg away (by omega) (by omega)

theorem State.put_interp (s : State) (f : Field) (i v k : Nat) : (s.put f i v).interp k = s.interp k := by rw [State.interp, State.put_interps, State.interp]

/-! ### What a step moves -/

/-- Of the calibration words the fields `ws` alone are written, those of the status words at interpolator `n` alone, and no other interpolator, comparator or time changes. -/
structure CalMoves (ws : List Field) (n : Nat) (s t : State) : Prop where
  pool : poolKeeps s t
  others : ∀ k, k ≠ n → t.interp k = s.interp k
  fields : ∀ g j, j < 2 ^ 24 → besides ws g = true → t.get g j = s.get g j
  elsewhere : ∀ g k, k < 2 ^ 24 → g.isCal = true → g.obj = 33 → k ≠ n → t.get g k = s.get g k

section
variable {ws vs : List Field} {n : Nat} {s t u : State}

theorem CalMoves.refl (ws : List Field) (n : Nat) (s : State) : CalMoves ws n s s := ⟨⟨rfl, rfl⟩, fun _ _ => rfl, fun _ _ _ _ => rfl, fun _ _ _ _ _ _ => rfl⟩

theorem CalMoves.trans (h : CalMoves ws n s t) (h' : CalMoves ws n t u) : CalMoves ws n s u where
  pool := h.pool.trans h'.pool
  others k hk := (h'.others k hk).trans (h.others k hk)
  fields g j hj hg := (h'.fields g j hj hg).trans (h.fields g j hj hg)
  elsewhere g k hk hg obj ne := (h'.elsewhere g k hk hg obj ne).trans (h.elsewhere g k hk hg obj ne)

theorem CalMoves.mono (h : CalMoves ws n s t) (sub : ws ⊆ vs) : CalMoves vs n s t where
  pool := h.pool
  others := h.others
  fields g j hj hg := by
    simp only [besides, Bool.and_eq_true, List.all_eq_true] at hg
    refine h.fields g j hj ?_
    simp only [besides, Bool.and_eq_true, List.all_eq_true]
    exact ⟨hg.1, fun f hf => hg.2 f (sub hf)⟩
  elsewhere := h.elsewhere

theorem CalMoves.flag (h : CalMoves ws n s t) {g : Field} {j : Nat} (hj : j < 2 ^ 24) (hg : besides ws g = true) : t.flag g j = s.flag g j := by
  rw [State.flag, h.fields g j hj hg, State.flag]

/-- A field of the interpolator's own words. -/
theorem CalMoves.get (h : CalMoves ws n s t) (hn : n < 1536) {g : Field} (hg : besides ws g = true) : t.get g n = s.get g n := h.fields g n (by omega) hg

theorem CalMoves.tb (h : CalMoves ws n s t) : t.tb = s.tb := h.pool.2

/-- What writes no register word and, of the interpolators, `n` at most. -/
theorem CalMoves.of_regs (pool : poolKeeps s t) (others : ∀ k, k ≠ n → t.interp k = s.interp k) (regs : t.regs = s.regs) : CalMoves ws n s t := by
  have get : ∀ g j, t.get g j = s.get g j := fun g j => by rw [State.get, State.word, regs, State.get, State.word]
  exact ⟨pool, others, fun g j _ _ => get g j, fun g k _ _ _ _ => get g k⟩

theorem CalMoves.setInterp (s : State) (n : Nat) (x : Interp) : CalMoves ws n s (s.setInterp n x) :=
  .of_regs (poolKeeps_setInterp s n x) (fun _ hk => State.interp_setInterp_ne s x hk) rfl

/-- A word of another object. -/
theorem CalMoves.putOutside (s : State) (f : Field) {i : Nat} (v : Nat) (hi : i < 2 ^ 24) (hf : f.obj ≠ 33 ∧ f.obj ≠ 10 ∧ f.sel < 256) : CalMoves ws n s (s.put f i v) where
  pool := poolKeeps_put s f i v
  others k _ := State.put_interp s f i v k
  fields _ _ hj hg := State.get_put_outside s v (Bool.and_eq_true_iff.mp hg).1 hf hi hj
  elsewhere _ _ hk hg _ _ := State.get_put_outside s v hg hf hi hk

/-- A field of the interpolator's status words. -/
theorem CalMoves.put (s : State) {f : Field} (v : Nat) (hn : n < 1536) (mem : f ∈ ws) (hf : f.obj = 33) : CalMoves ws n s (s.put f n v) where
  pool := poolKeeps_put s f n v
  others k _ := State.put_interp s f n v k
  fields g j hj hg := by
    simp only [besides, Bool.and_eq_true, List.all_eq_true] at hg
    obtain ⟨cal, away⟩ := hg.2 f mem
    exact State.get_put_besides s v cal hg.1 away (by omega) hj
  elsewhere g k hk hg obj ne := State.get_put_ne s f g n k v fun same => by
    obtain ⟨-, -, -, sel⟩ := g.isCal_iff.mp hg
    simp only [wkey, obj, hf] at same
    omega

end

end Sys2Proof.Machine
end

section
/-! PROOF. The steps that a calibration is made of: states, events, LOCK, ASIDE, accepted and rejected sets (R113 to R116, R119 to R123, R128). -/

namespace Sys2Proof.Machine

open Sys2Proof.Claims

/-! ### Events, and the results of operations in progress -/

theorem State.get_lt (s : State) (f : Field) (i : Nat) (h1 : f.lo ≤ f.hi) (h2 : f.hi < 64) : s.get f i < 2 ^ (f.hi - f.lo + 1) := bits_lt h1 h2

theorem interpOwner_lt (s : State) (n : Nat) : s.interpOwner n < 256 := by
  unfold State.interpOwner
  split
  · decide
  · split
    · exact State.get_lt s F.chan_part _ (by decide) (by decide)
    · decide

section
variable {ws : List Field} {n : Nat} {s : State}

theorem calMoves_calEvent (s : State) (n : Nat) : CalMoves ws n s (calEvent s n) := by
  have part := interpOwner_lt s n
  unfold calEvent event emit
  refine iteInduction (fun _ => .of_regs ⟨State.setHq_comps .., State.setHq_tb ..⟩ (fun _ _ => rfl) (State.setHq_regs ..)) fun _ => ?_
  exact .putOutside s F.qhb_rec_dropped _ (by omega) (by decide)

theorem calMoves_raise (s : State) (source cause sub : Nat) (injected : Bool) : CalMoves ws n s (raise s source cause sub injected) := by
  obtain ⟨f, e⟩ := raise_frame s source cause sub injected
  rw [e]
  exact .of_regs ⟨rfl, rfl⟩ (fun _ _ => rfl) rfl

theorem calMoves_interpFault (s : State) (n cause : Nat) : CalMoves ws n s (interpFault s n cause) := (calMoves_raise ..).trans (calMoves_calEvent ..)

theorem interpFault_interp (s : State) (n cause k : Nat) : (interpFault s n cause).interp k = s.interp k := by
  rw [interpFault, State.interp, calEvent, event_interps, raise_interps, State.interp]

theorem calReplies_frame (l : List CalOp) (s : State) : ∃ m h, l.foldl calReply s = { s with cmd := m, hlanes := h } := by
  induction l generalizing s with
  | nil => exact ⟨s.cmd, s.hlanes, rfl⟩
  | cons o rest ih =>
    have one : ∃ m h, calReply s o = { s with cmd := m, hlanes := h } := by
      unfold calReply
      split <;> exact finish_frame ..
    obtain ⟨m, h, e⟩ := one
    obtain ⟨m', h', e'⟩ := ih (calReply s o)
    exact ⟨m', h', by rw [List.foldl_cons, e', e]⟩

/-- The result of a target changes the operations in progress and their replies alone. -/
theorem calResult_frame (s : State) (recover : Bool) (n : Nat) (bad : Bool) : ∃ m h o, calResult s recover n bad = { s with cmd := m, hlanes := h, calOps := o } := by
  unfold calResult
  extract_lets ops u
  obtain ⟨m, h, e⟩ := calReplies_frame (ops.filter fun o => o.targets.isEmpty) u
  exact ⟨m, h, _, e⟩

theorem calMoves_calResult (s : State) (recover : Bool) (k : Nat) (bad : Bool) : CalMoves ws n s (calResult s recover k bad) := by
  obtain ⟨m, h, o, e⟩ := calResult_frame s recover k bad
  rw [e]
  exact .of_regs ⟨rfl, rfl⟩ (fun _ _ => rfl) rfl

theorem calResult_interp (s : State) (recover : Bool) (n : Nat) (bad : Bool) (k : Nat) : (calResult s recover n bad).interp k = s.interp k := by
  obtain ⟨m, h, o, e⟩ := calResult_frame s recover n bad
  rw [e]
  rfl

/-! ### Calibration states -/

theorem putCalState_interp (s : State) (n st k : Nat) : (putCalState s n st).interp k = s.interp k := by
  unfold putCalState
  dsimp only
  exact iteInduction (motive := fun t : State => t.interp k = s.interp k) (fun _ => State.put_interp ..) fun _ => (State.put_interp ..).trans (State.put_interp ..)

theorem calMoves_putCalState (s : State) (hn : n < 1536) (st : Nat) (mem : F.cala_state ∈ ws) : CalMoves ws n s (putCalState s n st) := by
  unfold putCalState
  dsimp only
  refine iteInduction (fun _ => .put s st hn mem rfl) fun _ => (CalMoves.put s st hn mem rfl).trans (.putOutside _ _ _ (by omega) ?_)
  exact ⟨show 3 ≠ 33 by decide, show 3 ≠ 10 by decide, show 17 + n / 4 % 2 < 256 by omega⟩

theorem putCalState_get {st : Nat} (s : State) (hn : n < 1536) (small : st < 8) : (putCalState s n st).get F.cala_state n = st := by
  have written : (s.put F.cala_state n st).get F.cala_state n = st := (State.get_put_self s F.cala_state n st (by decide) (by decide)).trans (Nat.mod_eq_of_lt small)
  unfold putCalState
  dsimp only
  refine iteInduction (motive := fun t : State => t.get F.cala_state n = st) (fun _ => written) fun _ => ?_
  exact (State.get_put_outside _ _ (by decide) ⟨show 3 ≠ 33 by decide, show 3 ≠ 10 by decide, show 17 + n / 4 % 2 < 256 by omega⟩ (by omega) (by omega)).trans written

/-! ### LOCK -/

/-- The fields that an entry into LOCK writes. -/
def lockFields : List Field := [F.cala_state, F.calb_lock_count]

/-- An interpolator as it enters LOCK (R122). -/
def Interp.locking (x : Interp) (tick : Nat) : Interp :=
  { x.dropSet with waiting := none, first := none, lockAt := some tick, abandonAt := none, pend := [], need := none }

theorem enterLock_interp (s : State) (n : Nat) : (enterLock s n).interp n = (s.interp n).locking s.tb.tick := by
  unfold enterLock
  exact (putCalState_interp _ n 1 n).trans (State.interp_setInterp ..)

theorem calMoves_enterLock (s : State) (hn : n < 1536) : CalMoves lockFields n s (enterLock s n) := by
  unfold enterLock
  dsimp only
  exact (CalMoves.setInterp s n _).trans ((calMoves_putCalState _ hn 1 (by decide)).trans (.put _ _ hn (by decide) rfl))

theorem enterLock_state (s : State) (hn : n < 1536) : (enterLock s n).get F.cala_state n = 1 := by
  unfold enterLock
  dsimp only
  exact (State.get_put_status hn _ _ _ _ (by decide)).trans (putCalState_get _ hn (by decide))

theorem enterLock_count (s : State) (hn : n < 1536) : (enterLock s n).get F.calb_lock_count n = plus s F.calb_lock_count n 1 := by
  unfold enterLock
  dsimp only
  refine (satInc_get_self _ _ _ _ (by decide) (by decide)).trans (plus_congr ?_ 1)
  exact (calMoves_putCalState (ws := [F.cala_state]) _ hn 1 (by decide)).fields _ _ (by omega) (by decide)

/-! ### ASIDE -/

/-- The fields of status word B, and of word A the one that compares the DACs, in which a choice of taps and stages is shown. -/
def choiceFields : List Field := [F.calb_spares_used, F.calb_slow_stage, F.calb_fast_stage, F.cala_dac_used]

/-- The fields that going ASIDE may write. -/
def asideFields : List Field := F.calb_aside_count :: lockFields ++ choiceFields

theorem showSelection_interp (s : State) (n k : Nat) : (showSelection s n).interp k = s.interp k := by
  unfold showSelection
  simp only [State.put_interp]

theorem calMoves_showSelection (s : State) (hn : n < 1536) : CalMoves choiceFields n s (showSelection s n) := by
  unfold showSelection
  dsimp only
  exact (((CalMoves.put s _ hn (by decide) rfl).trans (.put _ _ hn (by decide) rfl)).trans (.put _ _ hn (by decide) rfl)).trans (.put _ _ hn (by decide) rfl)

/-- An interpolator as it goes ASIDE with a choice (R120). -/
def Interp.asided (x : Interp) (sel : Selection) : Interp :=
  { x.dropSet with first := none, pend := [], need := none, prevSel := some x.sel, sel := sel }

/-- ASIDE, counted. -/
def asideCounted (s : State) (n : Nat) : State := (putCalState s n 4).satInc F.calb_aside_count n 1

theorem asideCounted_interp (s : State) (n k : Nat) : (asideCounted s n).interp k = s.interp k :=
  (State.put_interp ..).trans (putCalState_interp s n 4 k)

theorem calMoves_asideCounted (s : State) (hn : n < 1536) : CalMoves [F.cala_state, F.calb_aside_count] n s (asideCounted s n) :=
  (calMoves_putCalState s hn 4 (by decide)).trans (.put _ _ hn (by decide) rfl)

theorem asideCounted_state (s : State) (hn : n < 1536) : (asideCounted s n).get F.cala_state n = 4 :=
  (State.get_put_status hn _ _ _ _ (by decide)).trans (putCalState_get s hn (by decide))

theorem asideCounted_count (s : State) (hn : n < 1536) : (asideCounted s n).get F.calb_aside_count n = plus s F.calb_aside_count n 1 :=
  (satInc_get_self _ _ _ _ (by decide) (by decide)).trans
    (plus_congr ((calMoves_putCalState (ws := [F.cala_state]) s hn 4 (by decide)).fields _ _ (by omega) (by decide)) 1)

theorem goAside_some {m : SetMeasure} {sel : Selection} (choice : s.correction n m = some sel) : goAside s n m =
    showSelection ((asideCounted s n).setInterp n ((s.interp n).asided sel)) n := by
  unfold goAside
  rw [choice]
  rfl

theorem goAside_none {m : SetMeasure} (choice : s.correction n m = none) : goAside s n m = enterLock (interpFault (asideCounted s n) n 0x0F) n := by
  unfold goAside
  rw [choice]
  rfl

theorem calMoves_goAside (s : State) (hn : n < 1536) (m : SetMeasure) : CalMoves asideFields n s (goAside s n m) := by
  have counted := (calMoves_asideCounted s hn).mono (vs := asideFields) (by decide)
  cases choice : s.correction n m with
  | some sel =>
    rw [goAside_some choice]
    exact counted.trans ((CalMoves.setInterp ..).trans ((calMoves_showSelection _ hn).mono (by decide)))
  | none =>
    rw [goAside_none choice]
    exact counted.trans ((calMoves_interpFault ..).trans ((calMoves_enterLock _ hn).mono (by decide)))

/-- An interpolator after a look at whether it goes ASIDE: its tables stay, but for a waiting one that LOCK drops. -/
structure Interp.TablesKept (x y : Interp) : Prop where
  inForce : y.inForce = x.inForce
  prior : y.prior = x.prior
  waiting : y.waiting = x.waiting ∨ y.waiting = none
  abandonAt : y.abandonAt = x.abandonAt ∨ y.abandonAt = none

theorem goAside_tablesKept (s : State) (n : Nat) (m : SetMeasure) : (s.interp n).TablesKept ((goAside s n m).interp n) := by
  cases choice : s.correction n m with
  | some sel =>
    rw [goAside_some choice, showSelection_interp, State.interp_setInterp]
    exact ⟨rfl, rfl, .inl rfl, .inl rfl⟩
  | none =>
    rw [goAside_none choice, enterLock_interp, interpFault_interp, asideCounted_interp]
    exact ⟨rfl, rfl, .inr rfl, .inr rfl⟩

theorem asideTry_idle (idle : (s.interp n).need = none) : asideTry s n = s := by
  unfold asideTry
  rw [idle]

theorem asideTry_goes {m : SetMeasure} (need : (s.interp n).need = some m) (track : s.get F.cala_state n = 3) (free : s.flag F.cala_locked n = false)
    (allowed : s.asideAllowed n = true) : asideTry s n = goAside s n m := by
  unfold asideTry
  rw [need]
  exact if_pos (by simp [track, free, allowed])

/-- What a look at whether an interpolator goes ASIDE makes of it: nothing, or ASIDE. -/
theorem asideTry_cases (s : State) (n : Nat) : asideTry s n = s ∨ ∃ m, asideTry s n = goAside s n m := by
  unfold asideTry
  split
  · exact (ite_eq_or_eq ..).symm.imp_right fun e => ⟨_, e⟩
  · exact .inl rfl

theorem calMoves_asideTry (s : State) (hn : n < 1536) : CalMoves asideFields n s (asideTry s n) := by
  rcases asideTry_cases s n with e | ⟨m, e⟩
  · rw [e]
    exact .refl ..
  · rw [e]
    exact calMoves_goAside s hn m

theorem asideTry_tablesKept (s : State) (n : Nat) : (s.interp n).TablesKept ((asideTry s n).interp n) := by
  rcases asideTry_cases s n with e | ⟨m, e⟩
  · rw [e]
    exact ⟨rfl, rfl, .inl rfl, .inl rfl⟩
  · rw [e]
    exact goAside_tablesKept s n m

end

/-! ### Several interpolators in turn -/

/-- Interpolator `n` and its status words are in `t` as in `s`. -/
def sameInterp (n : Nat) (s t : State) : Prop := t.interp n = s.interp n ∧ ∀ g : Field, g.isCal = true → g.obj = 33 → t.get g n = s.get g n

theorem sameInterp.trans {n : Nat} {s t u : State} (h : sameInterp n s t) (h' : sameInterp n t u) : sameInterp n s u :=
  ⟨h'.1.trans h.1, fun g cal obj => (h'.2 g cal obj).trans (h.2 g cal obj)⟩

theorem CalMoves.sameInterp {ws : List Field} {n k : Nat} {s t : State} (h : CalMoves ws k s t) (hn : n < 1536) (ne : n ≠ k) : sameInterp n s t :=
  ⟨h.others n ne, fun g cal obj => h.elsewhere g n (by omega) cal obj ne⟩

section
variable {ws : List Field} {f : State → Nat → State} {n : Nat}

/-- A step for each of a list of interpolators leaves those outside it alone. -/
theorem sameInterp_foldl {l : List Nat} (moves : ∀ s, ∀ k ∈ l, CalMoves ws k s (f s k)) (hn : n < 1536) (out : n ∉ l) (s : State) : sameInterp n s (l.foldl f s) := by
  induction l generalizing s with
  | nil => exact ⟨rfl, fun _ _ _ => rfl⟩
  | cons k rest ih =>
    have ne : n ≠ k := fun e => out (e ▸ List.mem_cons_self)
    exact ((moves s k List.mem_cons_self).sameInterp hn ne).trans
      (ih (fun s j hj => moves s j (List.mem_cons_of_mem k hj)) (fun h => out (List.mem_cons_of_mem k h)) _)

/-- A step for each of a list of interpolators makes of one of them what its own step does. -/
theorem sameInterp_foldl_mem {l : List Nat} (moves : ∀ s, ∀ k ∈ l, CalMoves ws k s (f s k)) (once : l.Nodup) (hn : n < 1536) (mem : n ∈ l) (s : State) :
    ∃ u, sameInterp n s u ∧ u.tb = s.tb ∧ sameInterp n (f u n) (l.foldl f s) := by
  induction l generalizing s with
  | nil => exact absurd mem List.not_mem_nil
  | cons k rest ih =>
    obtain ⟨fresh, once'⟩ := List.nodup_cons.mp once
    have later := fun s j (hj : j ∈ rest) => moves s j (List.mem_cons_of_mem k hj)
    have first := moves s k List.mem_cons_self
    rcases List.mem_cons.mp mem with rfl | mem'
    · exact ⟨s, ⟨rfl, fun _ _ _ => rfl⟩, rfl, sameInterp_foldl later hn fresh _⟩
    · have ne : n ≠ k := fun e => fresh (e ▸ mem')
      obtain ⟨u, before, tb, after⟩ := ih later once' mem' (f s k)
      exact ⟨u, (first.sameInterp hn ne).trans before, tb.trans first.tb, after⟩

end

theorem not_mem_poolMates (n : Nat) : n ∉ poolMates n := by
  unfold poolMates
  split
  · exact List.not_mem_nil
  · simp

theorem poolMates_lt {n k : Nat} (hn : n < 1536) (h : k ∈ poolMates n) : k < 1536 := by
  unfold poolMates at h
  split at h
  · exact absurd h List.not_mem_nil
  · simp only [upTo, List.mem_filter, List.mem_map, List.mem_range] at h
    omega

/-- A look at a pool makes of the one whose event it is what the look at that one alone does. -/
theorem sameInterp_asidePool {n : Nat} (hn : n < 1536) (s : State) : sameInterp n (asideTry s n) (asidePool s n) :=
  sameInterp_foldl (fun s _ hk => calMoves_asideTry s (poolMates_lt hn hk)) hn (not_mem_poolMates n) (asideTry s n)

end Sys2Proof.Machine
end

section
/-! PROOF. Samples join the set in progress (R107 to R111). -/

namespace Sys2Proof.Machine

open Sys2Proof.Claims

section
variable {s : State} {n c : Nat} {live : Bool}

/-- A complete set takes no sample. -/
theorem addSample_of_full (full : s.setSize n ≤ (s.interp n).n) : addSample s n c live = s := if_pos full

/-- What a sample makes of a set that has room for it. -/
theorem addSample_of_room (room : (s.interp n).n < s.setSize n) : ∃ x, addSample s n c live = s.setInterp n x ∧ x.n = (s.interp n).n + 1 ∧ x.setMax = s.setSize n ∧
    x.pend = (s.interp n).pend ∧ x.hist = mmod 0 (s.interp n).hist c (· + 1) ∧ x.liveN = (s.interp n).liveN + b2n live := by
  unfold addSample
  simp only [if_neg (Nat.not_le.mpr room)]
  cases live with
  | true => exact ⟨_, rfl, rfl, rfl, rfl, rfl, rfl⟩
  | false => exact ⟨_, rfl, rfl, rfl, rfl, rfl, rfl⟩

theorem setSize_setInterp_of_ne {x : Interp} (h : x.n ≠ 0) : (s.setInterp n x).setSize n = x.setMax := by
  rw [State.setSize, State.interp_setInterp]
  exact if_neg h

theorem setSize_congr {t : State} (n : Nat) (regs : t.regs = s.regs) (count : (t.interp n).n = (s.interp n).n) (size : (t.interp n).setMax = (s.interp n).setMax) :
    t.setSize n = s.setSize n := by
  rw [State.setSize, State.setSize, count, size, State.get, State.word, regs, State.get, State.word]

/-- A sample leaves the size of the set, and those that wait. -/
theorem addSample_counts (s : State) (n c : Nat) (live : Bool) : (addSample s n c live).setSize n = s.setSize n ∧ ((addSample s n c live).interp n).pend = (s.interp n).pend ∧
    ((addSample s n c live).interp n).n = max (s.interp n).n (min (s.setSize n) ((s.interp n).n + 1)) := by
  by_cases full : s.setSize n ≤ (s.interp n).n
  · rw [addSample_of_full full]
    exact ⟨rfl, rfl, by omega⟩
  · obtain ⟨x, e, count, size, pend, -⟩ := addSample_of_room (c := c) (live := live) (Nat.lt_of_not_le full)
    rw [e, setSize_setInterp_of_ne (by omega), State.interp_setInterp]
    exact ⟨size, pend, by omega⟩

/-- Samples join a set as far as it takes them. -/
theorem addSamples_counts (n : Nat) (l : List PendSample) (s : State) : ((l.foldl (fun s p => addSample s n p.code p.live) s).interp n).pend = (s.interp n).pend ∧
    ((l.foldl (fun s p => addSample s n p.code p.live) s).interp n).n = max (s.interp n).n (min (s.setSize n) ((s.interp n).n + l.length)) := by
  induction l generalizing s with
  | nil => exact ⟨rfl, by simp only [List.foldl_nil, List.length_nil]; omega⟩
  | cons p rest ih =>
    obtain ⟨size, pend, count⟩ := addSample_counts s n p.code p.live
    obtain ⟨pend', count'⟩ := ih (addSample s n p.code p.live)
    rw [size, count] at count'
    refine ⟨pend'.trans pend, ?_⟩
    simp only [List.foldl_cons, List.length_cons, count']
    omega

/-- A sample whose window has ended without over rate joins the set, unless it is a live one that is held off (R85, R107, R110). -/
def State.joins (s : State) (n : Nat) (p : PendSample) : Bool :=
  decide ((p.full / 256 + 1) * 256 ≤ s.full) && !(mget { count := 0, overRate := false } (s.comp (n / 4)).windows (p.full / 256)).overRate &&
    !(p.live && decide ((s.interp n).holdSets ≠ 0))

theorem flushSamples_counts (s : State) (n : Nat) :
    ((flushSamples s n).interp n).pend = ((s.interp n).pend.filter fun p => decide (s.full < (p.full / 256 + 1) * 256)) ∧
    ((flushSamples s n).interp n).n = max (s.interp n).n (min (s.setSize n) ((s.interp n).n + (s.interp n).pend.countP (s.joins n))) := by
  unfold flushSamples
  extract_lets x done excl u
  obtain ⟨pend, count⟩ := addSamples_counts n (x.pend.filter fun p => done p && !excl p && !(p.live && x.holdSets ≠ 0)) u
  have here : u.interp n = { x with pend := x.pend.filter fun p => !done p } := State.interp_setInterp ..
  have size : u.setSize n = s.setSize n := setSize_congr n rfl (by rw [here]) (by rw [here])
  rw [here] at pend
  rw [here, size, ← List.countP_eq_length_filter] at count
  refine ⟨pend.trans (List.filter_congr fun p _ => ?_), count⟩
  simp only [done, ← decide_not, Nat.not_le]

/-! ### An edge of the internal source -/

/-- The calibration states in which an interpolator takes samples (R109, R122). -/
def State.sampling (s : State) (n : Nat) : Prop :=
  s.get F.cala_state n = 3 ∨ (s.get F.cala_state n = 2 ∧ (s.interp n).waiting = none) ∨ (s.get F.cala_state n = 4 ∧ (s.interp n).abandonAt = none)

/-- An edge of the internal source is a sample, or fails its check. -/
theorem execRandomSourceSample_taken {code : Nat} {ok : Bool} (hn : n < 1536) (on : s.domOn (interpDomain n) = true) (idle : s.interpIdle n = true)
    (offered : s.sourceUsed n = true) (takes : s.sampling n) : exec (.randomSourceSample n code ok) s = .next (if ok then
      asideTry (if isLaneInterp n then addSample s n (code % 1024) false else pendSample s n s.full (code % 1024) false) n else raise s (interpSource n) 0x02 0 false) := by
  have samples : ((s.get F.cala_state n = 2 && (s.interp n).waiting.isNone) || s.get F.cala_state n = 3 || (s.get F.cala_state n = 4 && (s.interp n).abandonAt.isNone)) = true := by
    rcases takes with track | ⟨build, free⟩ | ⟨aside, kept⟩
    · simp [track]
    · simp [build, free]
    · simp [aside, kept]
  have refused : (1536 ≤ n || !s.domOn (interpDomain n) || !((s.get F.cala_state n = 2 && (s.interp n).waiting.isNone) || s.get F.cala_state n = 3 ||
      (s.get F.cala_state n = 4 && (s.interp n).abandonAt.isNone)) || !s.interpIdle n || !s.sourceUsed n) = false := by
    simp only [on, samples, idle, offered, Bool.not_true, Bool.or_false, decide_eq_false_iff_not]
    omega
  show execRandomSourceSample n code ok s = _
  unfold execRandomSourceSample
  dsimp only
  rw [if_neg (by rw [refused]; decide)]
  cases ok with
  | false => rfl
  | true =>
    by_cases lane : isLaneInterp n = true
    · simp only [lane, if_true]
    · simp only [lane, if_true, Bool.false_eq_true, if_false]

/-- A lane interpolator's sample joins the set at once. -/
theorem laneSample_joins {code : Nat} (hn : n < 1536) (on : s.domOn (interpDomain n) = true) (idle : s.interpIdle n = true) (offered : s.sourceUsed n = true)
    (takes : s.sampling n) (lane : 512 ≤ n) (room : (s.interp n).n < s.setSize n) (settled : (s.interp n).need = none) :
    ∃ t, exec (.randomSourceSample n code true) s = .next t ∧ (t.interp n).n = (s.interp n).n + 1 ∧
      mget 0 (t.interp n).hist (code % 1024) = mget 0 (s.interp n).hist (code % 1024) + 1 ∧ (t.interp n).liveN = (s.interp n).liveN ∧ t = { s with interps := t.interps } := by
  obtain ⟨moved, need⟩ := samplesMoved_addSample s n (code % 1024) false
  obtain ⟨x, e, count, -, -, hist, live⟩ := addSample_of_room (c := code % 1024) (live := false) room
  have isLane : isLaneInterp n = true := decide_eq_true lane
  have here : (addSample s n (code % 1024) false).interp n = x := by rw [e, State.interp_setInterp]
  refine ⟨addSample s n (code % 1024) false, ?_, ?_⟩
  · rw [execRandomSourceSample_taken hn on idle offered takes, if_pos rfl, if_pos isLane, asideTry_idle ((need n).trans settled)]
  · rw [here]
    refine ⟨count, ?_, live, by rw [e]; rfl⟩
    rw [hist]
    exact mget_mset_self ..

/-- A precision interpolator's sample waits; those that no longer wait join the set. -/
theorem precisionSample_waits {code : Nat} (hn : n < 512) (on : s.domOn (interpDomain n) = true) (idle : s.interpIdle n = true) (offered : s.sourceUsed n = true)
    (takes : s.sampling n) (settled : (s.interp n).need = none) :
    ∃ t, exec (.randomSourceSample n code true) s = .next t ∧ t = { s with interps := t.interps } ∧
      (t.interp n).pend = ((s.interp n).pend.filter fun p => decide (s.full < (p.full / 256 + 1) * 256)) ++ [{ full := s.full, code := code % 1024, live := false }] ∧
      (t.interp n).n = max (s.interp n).n (min (s.setSize n) ((s.interp n).n + (s.interp n).pend.countP (s.joins n))) := by
  obtain ⟨⟨is, moved⟩, need⟩ := samplesMoved_pendSample s n s.full (code % 1024) false
  obtain ⟨pend, count⟩ := flushSamples_counts s n
  have here : (pendSample s n s.full (code % 1024) false).interp n = { (flushSamples s n).interp n with
      pend := ((flushSamples s n).interp n).pend ++ [{ full := s.full, code := code % 1024, live := false }] } := State.interp_setInterp ..
  refine ⟨pendSample s n s.full (code % 1024) false, ?_, by rw [moved], ?_⟩
  · rw [execRandomSourceSample_taken (by omega) on idle offered takes, if_pos rfl, if_neg (by simp [isLaneInterp, hn]), asideTry_idle ((need n).trans settled)]
  · rw [here]
    exact ⟨by rw [pend], count⟩

end

end Sys2Proof.Machine
end

section
/-! PROOF. A complete sample set: what is measured and shown of it, its acceptance and its rejection, and the loss of a correlated live part (R110 to R115, R119 to R125). -/

namespace Sys2Proof.Machine

open Sys2Proof.Claims

section
variable {ws : List Field} {n : Nat} {s t : State}

/-! ### A correlated live part -/

/-- An interpolator whose live samples are held off for eight sets; those that wait are gone (R110). -/
def Interp.heldOff (x : Interp) : Interp := { x with holdSets := 8, pend := x.pend.filter fun p => !p.live }

/-- An interpolator whose set has lost its live part (R110). -/
def Interp.liveDropped (x : Interp) : Interp :=
  { x with hist := x.liveHist.foldl (fun h e => mset 0 h e.1 (mget 0 h e.1 - e.2)) x.hist, n := x.n - x.liveN, liveTaps := [], liveHist := [], liveN := 0 }

/-- The live samples of an interpolator are held off, and it is shown. -/
def liveHeldOff (s : State) (k : Nat) : State := (s.setInterp k (s.interp k).heldOff).put F.cala_live_rejected k 1

theorem discardLive_eq (s : State) (n : Nat) : discardLive s n = (n :: poolMates n).foldl liveHeldOff (s.setInterp n (s.interp n).liveDropped) := rfl

theorem calMoves_liveHeldOff (s : State) (hn : n < 1536) : CalMoves [F.cala_live_rejected] n s (liveHeldOff s n) :=
  (CalMoves.setInterp s n _).trans (.put _ 1 hn (by decide) rfl)

theorem liveHeldOff_interp (s : State) (k : Nat) : (liveHeldOff s k).interp k = (s.interp k).heldOff := (State.put_interp ..).trans (State.interp_setInterp s k _)

theorem liveHeldOff_flag (s : State) (k : Nat) : (liveHeldOff s k).flag F.cala_live_rejected k = true :=
  flag_put_one _ F.cala_live_rejected k (by decide) (by decide)

theorem nodup_upTo (a n : Nat) : (upTo a n).Nodup := List.nodup_range.map fun _ _ => Nat.add_left_cancel

theorem nodup_pool (n : Nat) : (n :: poolMates n).Nodup := by
  refine List.nodup_cons.mpr ⟨not_mem_poolMates n, ?_⟩
  unfold poolMates
  split
  · exact List.nodup_nil
  · exact (nodup_upTo _ _).filter _

theorem pool_lt {k : Nat} (hn : n < 1536) (h : k ∈ n :: poolMates n) : k < 1536 := by
  rcases List.mem_cons.mp h with rfl | mate
  · exact hn
  · exact poolMates_lt hn mate

/-- A discarded live part leaves the set, and holds off the live samples of the pool. -/
theorem discardLive_shows (hn : n < 1536) (s : State) : ((discardLive s n).interp n).liveN = 0 ∧ ((discardLive s n).interp n).n = (s.interp n).n - (s.interp n).liveN ∧
    ∀ k ∈ n :: poolMates n, ((discardLive s n).interp k).holdSets = 8 ∧ (∀ p ∈ ((discardLive s n).interp k).pend, p.live = false) ∧
      (discardLive s n).flag F.cala_live_rejected k = true := by
  rw [discardLive_eq]
  have turn : ∀ k ∈ n :: poolMates n, ∃ v, sameInterp k (s.setInterp n (s.interp n).liveDropped) v ∧
      sameInterp k (liveHeldOff v k) ((n :: poolMates n).foldl liveHeldOff (s.setInterp n (s.interp n).liveDropped)) := fun k hk => by
    obtain ⟨v, before, -, after⟩ := sameInterp_foldl_mem (fun s j hj => calMoves_liveHeldOff s (pool_lt hn hj)) (nodup_pool n) (pool_lt hn hk) hk _
    exact ⟨v, before, after⟩
  obtain ⟨v, ⟨before, -⟩, after, -⟩ := turn n List.mem_cons_self
  rw [after, liveHeldOff_interp, before, State.interp_setInterp]
  refine ⟨rfl, rfl, fun k hk => ?_⟩
  obtain ⟨v, -, after, words⟩ := turn k hk
  rw [after, liveHeldOff_interp, State.flag, words F.cala_live_rejected (by decide) rfl]
  refine ⟨rfl, fun p hp => ?_, liveHeldOff_flag v k⟩
  simpa using (List.mem_filter.mp hp).2

/-! ### The checks and figures of a set -/

theorem spanOk_congr (h : t.get F.calg_span_trig 0 = s.get F.calg_span_trig 0) (span : Nat) : t.spanOk span = s.spanOk span := by rw [State.spanOk, h, State.spanOk]

theorem CalMoves.needsCorrection (h : CalMoves ws n s t) (span : besides ws F.calg_span_trig = true) (bin : besides ws F.calg_bin_trig = true) (hist : SMap Nat) (k : Nat)
    (m : SetMeasure) : t.needsCorrection hist k m = s.needsCorrection hist k m := by
  rw [State.needsCorrection, spanOk_congr (h.fields _ 0 (by decide) span), h.fields _ 0 (by decide) bin, State.needsCorrection]

theorem CalMoves.inService (h : CalMoves ws n s t) {k : Nat} (hk : k < 1536) (ne : k ≠ n) : t.inService k = s.inService k := by
  rw [State.inService, h.elsewhere F.cala_state k (by omega) (by decide) rfl ne, State.inService]

theorem poolMates_ne {k : Nat} (h : k ∈ poolMates n) : k ≠ n := fun e => not_mem_poolMates n (e ▸ h)

theorem CalMoves.poolOffset (h : CalMoves ws n s t) (hn : n < 1536) (ds : Nat) : t.poolOffset n ds = s.poolOffset n ds := by
  have serving : (poolMates n).filter t.inService = (poolMates n).filter s.inService :=
    List.filter_congr fun k hk => h.inService (poolMates_lt hn hk) (poolMates_ne hk)
  have slowest : ∀ l : List Nat, (∀ k ∈ l, k ≠ n) → ∀ d, l.foldl (fun m k => max m (t.interp k).meanDelay) d = l.foldl (fun m k => max m (s.interp k).meanDelay) d := by
    intro l
    induction l with
    | nil => exact fun _ _ => rfl
    | cons k rest ih =>
      intro ne d
      rw [List.foldl_cons, List.foldl_cons, h.others k (ne k List.mem_cons_self)]
      exact ih (fun j hj => ne j (List.mem_cons_of_mem k hj)) _
  unfold State.poolOffset
  rw [serving, slowest _ fun k hk => poolMates_ne (List.mem_of_mem_filter hk)]

theorem CalMoves.asideAllowed (h : CalMoves ws n s t) (hn : n < 1536) (en : besides ws F.calg_aside_en = true) (rate : besides ws F.calg_aside_rate = true) :
    t.asideAllowed n = s.asideAllowed n := by
  obtain ⟨comps, tb⟩ := h.pool
  have mates : ((poolMates n).all fun k => t.inService k || t.interpGone k) = (poolMates n).all fun k => s.inService k || s.interpGone k := by
    rw [Bool.eq_iff_iff, List.all_eq_true, List.all_eq_true]
    refine forall₂_congr fun k hk => ?_
    rw [h.inService (poolMates_lt hn hk) (poolMates_ne hk), State.interpGone, h.others k (poolMates_ne hk), State.interpGone]
  have live : t.liveEdges (n / 4) = s.liveEdges (n / 4) := by rw [State.liveEdges, State.comp, comps, tb, State.liveEdges, State.comp]
  rw [State.asideAllowed, h.flag (by decide) en, mates, live, h.fields _ 0 (by decide) rate, State.asideAllowed]

/-- The choice of a correction follows from the taps, their widths, and the span's trigger. -/
theorem correction_congr (sel : (t.interp n).sel = (s.interp n).sel) (widths : (t.interp n).widths = (s.interp n).widths)
    (trig : t.get F.calg_span_trig 0 = s.get F.calg_span_trig 0) (m : SetMeasure) : t.correction n m = s.correction n m := by
  unfold State.correction
  simp only [sel, widths, spanOk_congr trig]

/-! ### A set is measured -/

/-- The table of a complete set (R111, R112). -/
def setTable (s : State) (n : Nat) (m : SetMeasure) : BinTable :=
  let x := s.interp n
  let d := s.poolOffset n m.meanDelay
  { entries := tableEntries x.hist x.n d, hist := x.hist, n := x.n, d := d, held := false, full := 0, atTick := 0, aside := s.get F.cala_state n = 4 }

/-- What the checks of a complete set find: 1 where it passes every one (R113, R114). -/
def setCode (s : State) (n : Nat) (m : SetMeasure) : Nat :=
  plausible (setTable s n m) m (s.interp n).setStep (if s.get F.cala_state n = 3 then (s.interp n).inForce.map (·, 5) else (s.interp n).first.map (·, 6))

theorem plausible_lt (y : BinTable) (m : SetMeasure) (step : Nat) {against : Option (BinTable × Nat)} (h : ∀ e ∈ against, e.2 < 8) : plausible y m step against < 8 := by
  unfold plausible
  dsimp only
  split
  · decide
  · split
    · decide
    · split
      · decide
      · split
        · next u code =>
          split
          · exact h (u, code) rfl
          · decide
        · decide

theorem setCode_lt (s : State) (n : Nat) (m : SetMeasure) : setCode s n m < 8 := by
  refine plausible_lt _ _ _ ?_
  split <;>
  · intro e he
    obtain ⟨y, -, rfl⟩ := Option.mem_map.mp he
    simp only [Nat.reduceLT]

/-- An interpolator whose set has been measured, with the figure of R125. -/
def Interp.measured (x : Interp) (m : SetMeasure) (correct : Bool) (err : Nat) : Interp :=
  { x.dropSet with err := err, holdSets := x.holdSets - 1, meanDelay := m.meanDelay, slowPeriod := m.slowPeriod, need := if correct then some m else none }

/-- The figures of a complete set are shown, and the set is dropped. -/
def setMeasured (s : State) (n : Nat) (m : SetMeasure) : State :=
  let x := s.interp n
  let v := (s.put F.cala_live_rejected n (b2n (x.holdSets - 1 ≠ 0))).setInterp n (x.measured m (s.needsCorrection x.hist x.n m) x.err)
  putQuality (v.put F.cala_span_dev n (satSigned 12 ((m.span : Int) - 62500))) n (setTable s n m)

/-- The figures of R125. -/
theorem putQuality_cases (s : State) (n : Nat) (y : BinTable) : putQuality s n y = s ∨
    ∃ e d i, putQuality s n y = ((s.setInterp n { s.interp n with err := e }).put F.cala_dnl_rms n d).put F.cala_inl_pk n i := by
  unfold putQuality
  split
  · exact .inl rfl
  · exact .inr ⟨_, _, _, rfl⟩

/-- The fields in which the figures of a set are shown. -/
def figureFields : List Field := [F.cala_live_rejected, F.cala_span_dev, F.cala_dnl_rms, F.cala_inl_pk]

theorem calMoves_putQuality (s : State) (hn : n < 1536) (y : BinTable) : CalMoves figureFields n s (putQuality s n y) := by
  rcases putQuality_cases s n y with e | ⟨_, _, _, e⟩
  · rw [e]
    exact .refl ..
  · rw [e]
    exact (CalMoves.setInterp s n _).trans ((CalMoves.put _ _ hn (by decide) rfl).trans (.put _ _ hn (by decide) rfl))

theorem calMoves_setMeasured (s : State) (hn : n < 1536) (m : SetMeasure) : CalMoves figureFields n s (setMeasured s n m) := by
  unfold setMeasured
  extract_lets x v
  have dropped : CalMoves figureFields n s v := (CalMoves.put s _ hn (by decide) rfl).trans (.setInterp ..)
  exact dropped.trans ((CalMoves.put _ _ hn (by decide) rfl).trans (calMoves_putQuality _ hn _))

theorem setMeasured_interp (s : State) (n : Nat) (m : SetMeasure) :
    ∃ e, (setMeasured s n m).interp n = (s.interp n).measured m (s.needsCorrection (s.interp n).hist (s.interp n).n m) e := by
  unfold setMeasured
  extract_lets x v
  have own : (v.put F.cala_span_dev n (satSigned 12 ((m.span : Int) - 62500))).interp n = x.measured m (s.needsCorrection x.hist x.n m) x.err := State.interp_setInterp ..
  rcases putQuality_cases (v.put F.cala_span_dev n (satSigned 12 ((m.span : Int) - 62500))) n (setTable s n m) with e | ⟨err, d, i, e⟩
  · exact ⟨_, by rw [e, own]⟩
  · refine ⟨err, ?_⟩
    rw [e, own]
    exact State.interp_setInterp ..

/-! ### What becomes of a set -/

/-- What becomes of a complete set, in a state `v` in which it has been measured (R113 to R116, R120, R122). -/
def setJudged (n : Nat) (m : SetMeasure) (st code : Nat) (correct : Bool) (y : BinTable) (first : Option BinTable) (v : State) : State :=
  if code ≠ 1 then
    if st = 4 && ((rejectSet v n code).correction n m).isNone then enterLock (interpFault (rejectSet v n code) n 0x0F) n else asideTry (rejectSet v n code) n
  else if st = 3 then asideTry (acceptTable v n y) n
  else if st = 4 && correct && (v.correction n m).isNone then enterLock (interpFault v n 0x0F) n
  else if first.isSome then acceptTable v n y
  else v.setInterp n { v.interp n with first := some y }

/-- The samples that no longer wait join the set before it is looked at. -/
theorem samplesJoined_frame (s : State) (n : Nat) : ∃ m, (if isLaneInterp n then s else flushSamples s n) = { s with interps := m } := by
  split
  · exact ⟨s.interps, rfl⟩
  · obtain ⟨moved, -⟩ := samplesMoved_flushSamples s n
    exact moved

section
variable {m : SetMeasure} {u : State} (joined : (if isLaneInterp n then s else flushSamples s n) = u) (begun : 0 < (u.interp n).n) (full : u.setSize n ≤ (u.interp n).n)
  (calibrates : u.get F.cala_state n = 2 ∨ u.get F.cala_state n = 3 ∨ u.get F.cala_state n = 4)

include begun full calibrates

theorem setComplete : ¬((u.interp n).n = 0 || (u.interp n).n < u.setSize n || !(u.get F.cala_state n = 2 || u.get F.cala_state n = 3 || u.get F.cala_state n = 4)) = true := by
  simp only [Bool.or_eq_true, decide_eq_true_eq, Bool.not_eq_true', Bool.or_eq_false_iff, decide_eq_false_iff_not]
  omega

include joined

/-- A complete set whose live part is correlated loses it. -/
theorem execSampleSetComplete_correlated (correlated : u.correlated n = true) : exec (.sampleSetComplete n m) s = .next (discardLive u n) := by
  show execSampleSetComplete n m s = _
  unfold execSampleSetComplete
  extract_lets i v
  have same : u = v := joined.symm
  clear_value v
  subst same
  exact (if_neg (setComplete begun full calibrates)).trans (if_pos correlated)

/-- Any other complete set is measured and judged. -/
theorem execSampleSetComplete_judged (hn : n < 1536) (independent : u.correlated n = false) : exec (.sampleSetComplete n m) s =
    .next (setJudged n m (u.get F.cala_state n) (setCode u n m) (u.needsCorrection (u.interp n).hist (u.interp n).n m) (setTable u n m) (u.interp n).first (setMeasured u n m)) := by
  have marked : CalMoves figureFields n u (u.put F.cala_live_rejected n (b2n ((u.interp n).holdSets - 1 ≠ 0))) := .put _ _ hn (by decide) rfl
  have offset := marked.poolOffset hn m.meanDelay
  have need := marked.needsCorrection (by decide) (by decide) (u.interp n).hist (u.interp n).n m
  show execSampleSetComplete n m s = _
  unfold execSampleSetComplete
  extract_lets i v w st hold shown d y correct dropped moved x against code rejected x'
  have same : u = v := joined.symm
  clear_value v
  subst same
  refine (if_neg (setComplete begun full calibrates)).trans ((if_neg (by rw [independent]; decide)).trans ?_)
  have table : setTable u n m = y := by
    unfold setTable
    rw [← offset]
  have measured : setMeasured u n m = x := by
    unfold setMeasured
    dsimp only
    rw [table, ← need]
    rfl
  have found : setCode u n m = code := by rw [setCode, table]
  rw [measured, found, table, ← need]
  unfold setJudged
  cases (u.interp n).first <;> simp only [apply_ite Host.Outcome.next] <;> rfl

end

end

end Sys2Proof.Machine
end

section
/-! PROOF. A set that is accepted, one that is rejected, and the interpolator that goes ASIDE with its table (R113 to R116, R120 to R123). -/

namespace Sys2Proof.Machine

open Sys2Proof.Claims

section
variable {ws : List Field} {n : Nat} {s t : State}

/-! ### Acceptance -/

/-- The fields that show an accepted set. -/
def acceptFields : List Field := [F.cala_last_result, F.cala_reject_run, F.calb_sets_accepted]

/-- An accepted table as it waits: for the next boundary, or held by CAL_LOCK (R116, R132). -/
def waitingTable (s : State) (n : Nat) (y : BinTable) : BinTable :=
  { y with full := nextBoundary s.full, held := s.flag F.cala_locked n && s.get F.cala_state n = 3 }

/-- An interpolator with a table that waits. -/
def Interp.accepted (x : Interp) (y : BinTable) : Interp := { x with waiting := some y, first := none, rejRun := 0 }

theorem waitingTable_entries (s : State) (n : Nat) (y : BinTable) : (waitingTable s n y).entries = y.entries := rfl

/-- The words that show an accepted set. -/
def acceptShown (s : State) (n : Nat) : State := ((s.put F.cala_last_result n 1).put F.cala_reject_run n 0).satInc F.calb_sets_accepted n 1

theorem acceptTable_eq (s : State) (n : Nat) (y : BinTable) :
    acceptTable s n y = calResult (acceptShown (s.setInterp n ((s.interp n).accepted (waitingTable s n y))) n) false n false := rfl

theorem calMoves_acceptShown (s : State) (hn : n < 1536) : CalMoves acceptFields n s (acceptShown s n) :=
  ((CalMoves.put s _ hn (by decide) rfl).trans (.put _ _ hn (by decide) rfl)).trans (.put _ _ hn (by decide) rfl)

theorem calMoves_acceptTable (s : State) (hn : n < 1536) (y : BinTable) : CalMoves acceptFields n s (acceptTable s n y) :=
  (CalMoves.setInterp s n _).trans ((calMoves_acceptShown _ hn).trans (calMoves_calResult ..))

theorem acceptTable_interp (s : State) (n : Nat) (y : BinTable) : (acceptTable s n y).interp n = (s.interp n).accepted (waitingTable s n y) := by
  rw [acceptTable_eq, calResult_interp, acceptShown, State.satInc, State.put_interp, State.put_interp, State.put_interp, State.interp_setInterp]

theorem calResult_get (s : State) (recover : Bool) (n : Nat) (bad : Bool) {g : Field} (hg : g.isCal = true) {k : Nat} (hk : k < 2 ^ 24) :
    (calResult s recover n bad).get g k = s.get g k := (calMoves_calResult (ws := []) (n := n) s recover n bad).fields g k hk (by simp [besides, hg])

theorem acceptTable_shows (s : State) (hn : n < 1536) (y : BinTable) : (acceptTable s n y).get F.cala_last_result n = 1 ∧
    (acceptTable s n y).get F.calb_sets_accepted n = plus s F.calb_sets_accepted n 1 := by
  have small : n < 2 ^ 24 := by omega
  rw [acceptTable_eq, calResult_get _ _ _ _ (by decide) small, calResult_get _ _ _ _ (by decide) small]
  refine ⟨?_, (satInc_get_self _ _ _ _ (by decide) (by decide)).trans (plus_congr ?_ 1)⟩
  · simp (disch := decide) only [acceptShown, State.satInc, State.get_put_status hn, State.get_put_self]
    rfl
  · simp (disch := decide) only [State.get_put_status hn, State.setInterp_get]

/-! ### Rejection -/

/-- The fields that show a rejected set. -/
def rejectFields : List Field := [F.cala_last_result, F.cala_reject_run, F.calb_sets_rejected]

/-- An interpolator after one more rejected set in a row. -/
def Interp.rejected (x : Interp) : Interp := { x with first := none, rejRun := x.rejRun + 1 }

/-- The words that show a rejected set. -/
def rejectShown (s : State) (n code : Nat) : State := ((s.put F.cala_last_result n code).satInc F.cala_reject_run n 1).satInc F.calb_sets_rejected n 1

/-- A set is rejected, and its fault, event and result are under way (R113, R123). -/
def setRejected (s : State) (n code : Nat) : State :=
  calResult (calEvent (raise (rejectShown (s.setInterp n (s.interp n).rejected) n code) (calSource n) 0x0B 0 false) n) false n true

theorem rejectSet_build (build : s.get F.cala_state n = 2) (code : Nat) : rejectSet s n code = enterLock (interpFault (setRejected s n code) n 0x0D) n := by
  unfold rejectSet
  exact if_pos build

theorem rejectSet_stays {code : Nat} (track : s.get F.cala_state n = 3) (below : (s.interp n).rejRun + 1 < (setRejected s n code).get F.calg_reject_limit 0) :
    rejectSet s n code = setRejected s n code := by
  unfold rejectSet
  refine (if_neg (by rw [track]; decide)).trans (if_neg ?_)
  rw [Bool.and_eq_true, decide_eq_true_eq]
  exact fun limit => absurd below (Nat.not_lt.mpr limit.2)

theorem calMoves_rejectShown (s : State) (hn : n < 1536) (code : Nat) : CalMoves rejectFields n s (rejectShown s n code) :=
  ((CalMoves.put s _ hn (by decide) rfl).trans (.put _ _ hn (by decide) rfl)).trans (.put _ _ hn (by decide) rfl)

/-- The fault, the event and the result of a rejected set. -/
theorem calMoves_rejectTold (s : State) (n : Nat) : CalMoves ws n s (calResult (calEvent (raise s (calSource n) 0x0B 0 false) n) false n true) :=
  (calMoves_raise ..).trans ((calMoves_calEvent ..).trans (calMoves_calResult ..))

theorem calMoves_setRejected (s : State) (hn : n < 1536) (code : Nat) : CalMoves rejectFields n s (setRejected s n code) :=
  (CalMoves.setInterp s n _).trans ((calMoves_rejectShown _ hn code).trans (calMoves_rejectTold ..))

theorem setRejected_interp (s : State) (n code : Nat) : (setRejected s n code).interp n = (s.interp n).rejected := by
  have told : ∀ u : State, (calEvent (raise u (calSource n) 0x0B 0 false) n).interp n = u.interp n := fun u => by
    rw [State.interp, calEvent, event_interps, raise_interps, State.interp]
  rw [setRejected, calResult_interp, told, rejectShown, State.satInc, State.satInc, State.put_interp, State.put_interp, State.put_interp, State.interp_setInterp]

theorem setRejected_shows (s : State) (hn : n < 1536) {code : Nat} (small : code < 8) : (setRejected s n code).get F.cala_last_result n = code ∧
    (setRejected s n code).get F.calb_sets_rejected n = plus s F.calb_sets_rejected n 1 := by
  have index : n < 2 ^ 24 := by omega
  have told := fun (u : State) (g : Field) (hg : g.isCal = true) => (calMoves_rejectTold (ws := []) u n).fields g n index (by simp [besides, hg])
  rw [setRejected, told _ _ (by decide), told _ _ (by decide)]
  refine ⟨?_, (satInc_get_self _ _ _ _ (by decide) (by decide)).trans (plus_congr ?_ 1)⟩
  · simp (disch := decide) only [rejectShown, State.satInc, State.get_put_status hn, State.get_put_self]
    exact Nat.mod_eq_of_lt small
  · simp (disch := decide) only [State.satInc, State.get_put_status hn, State.setInterp_get]

/-! ### ASIDE -/

theorem goAside_some_shows {m : SetMeasure} {sel : Selection} (hn : n < 1536) (choice : s.correction n m = some sel) :
    (goAside s n m).interp n = (s.interp n).asided sel ∧ (goAside s n m).get F.cala_state n = 4 ∧
      (goAside s n m).get F.calb_aside_count n = plus s F.calb_aside_count n 1 := by
  have shown := calMoves_showSelection ((asideCounted s n).setInterp n ((s.interp n).asided sel)) hn
  rw [goAside_some choice, showSelection_interp, State.interp_setInterp, shown.get hn (by decide), shown.get hn (by decide)]
  exact ⟨rfl, asideCounted_state s hn, asideCounted_count s hn⟩

theorem goAside_none_shows {m : SetMeasure} (hn : n < 1536) (choice : s.correction n m = none) :
    (goAside s n m).get F.cala_state n = 1 ∧ (goAside s n m).get F.calb_aside_count n = plus s F.calb_aside_count n 1 := by
  rw [goAside_none choice]
  refine ⟨enterLock_state _ hn, ?_⟩
  rw [(calMoves_enterLock _ hn).get hn (by decide), (calMoves_interpFault (ws := []) _ n _).get hn (by decide), asideCounted_count s hn]

end

/-! ### The outcomes of a complete set -/

section
variable {n : Nat} {m : SetMeasure} {u t : State}

/-- The table of a set waits, and the set is counted as accepted. -/
def setWaits (u : State) (n : Nat) (m : SetMeasure) (t : State) : Prop :=
  (t.interp n).n = 0 ∧ t.get F.cala_last_result n = 1 ∧ t.get F.calb_sets_accepted n = plus u F.calb_sets_accepted n 1 ∧
    ∃ y, (t.interp n).waiting = some y ∧ y.entries = (setTable u n m).entries ∧ y.full = nextBoundary u.full ∧
      (y.held = true ↔ u.get F.cala_state n = 3 ∧ u.flag F.cala_locked n = true)

/-- A set gives no table, and is counted with the check that it fails. -/
def setRefused (u : State) (n : Nat) (m : SetMeasure) (t : State) : Prop :=
  (t.interp n).n = 0 ∧ (t.interp n).inForce = (u.interp n).inForce ∧ t.get F.cala_last_result n = setCode u n m ∧
    t.get F.calb_sets_rejected n = plus u F.calb_sets_rejected n 1

/-- A set is accepted in the state in which it has been measured. -/
def setAccepted (u : State) (n : Nat) (m : SetMeasure) : State := acceptTable (setMeasured u n m) n (setTable u n m)

/-- The fields that the figures and the acceptance of a set write. -/
def acceptedFields : List Field := figureFields ++ acceptFields

theorem calMoves_setAccepted (hn : n < 1536) : CalMoves acceptedFields n u (setAccepted u n m) :=
  ((calMoves_setMeasured u hn m).mono (by decide)).trans ((calMoves_acceptTable _ hn _).mono (by decide))

theorem setAccepted_interp (u : State) (n : Nat) (m : SetMeasure) : ∃ e, (setAccepted u n m).interp n =
    ((u.interp n).measured m (u.needsCorrection (u.interp n).hist (u.interp n).n m) e).accepted (waitingTable (setMeasured u n m) n (setTable u n m)) := by
  obtain ⟨e, own⟩ := setMeasured_interp u n m
  exact ⟨e, by rw [setAccepted, acceptTable_interp, own]⟩

theorem setWaits_setAccepted (hn : n < 1536) : setWaits u n m (setAccepted u n m) := by
  have measured := calMoves_setMeasured u hn m
  obtain ⟨result, count⟩ := acceptTable_shows (setMeasured u n m) hn (setTable u n m)
  obtain ⟨e, own⟩ := setAccepted_interp u n m
  refine ⟨by rw [own]; rfl, result, count.trans (plus_congr (measured.get hn (by decide)) 1),
    waitingTable (setMeasured u n m) n (setTable u n m), by rw [own]; rfl, waitingTable_entries .., ?_, ?_⟩
  · exact congrArg nextBoundary (full_of_tb measured.tb)
  · show (_ && _) = true ↔ _
    rw [measured.flag (by omega) (by decide), measured.get hn (by decide), Bool.and_eq_true, decide_eq_true_eq, and_comm]

/-- What an interpolator does ASIDE leaves its table waiting. -/
theorem setWaits.aside {a : State} (h : setWaits u n m a) (hn : n < 1536) (moves : CalMoves asideFields n a t) (empty : (t.interp n).n = 0)
    (waiting : (t.interp n).waiting = (a.interp n).waiting) : setWaits u n m t := by
  obtain ⟨-, result, count, y, waits, y_is⟩ := h
  exact ⟨empty, (moves.get hn (by decide)).trans result, (moves.get hn (by decide)).trans count, y, waiting.trans waits, y_is⟩

section
variable {code : Nat} {correct : Bool} {y : BinTable} {first : Option BinTable} {v : State}

theorem setJudged_track : setJudged n m 3 1 correct y first v = asideTry (acceptTable v n y) n := rfl

theorem setJudged_first : setJudged n m 2 1 correct y none v = v.setInterp n { v.interp n with first := some y } := rfl

theorem setJudged_second (y' : BinTable) : setJudged n m 2 1 correct y (some y') v = acceptTable v n y := rfl

theorem setJudged_rejected {st : Nat} (bad : code ≠ 1) (other : st ≠ 4) : setJudged n m st code correct y first v = asideTry (rejectSet v n code) n := by
  unfold setJudged
  rw [if_pos bad, if_neg (by simp [other])]

end

theorem need_measured (x : Interp) {correct : Bool} (h : correct = false) (e : Nat) : (x.measured m correct e).need = none := if_neg (by rw [h]; decide)

/-- In TRACK a set that passes waits, and where no correction is needed nothing else happens. -/
theorem track_accepts (hn : n < 1536) (track : u.get F.cala_state n = 3) (straight : u.needsCorrection (u.interp n).hist (u.interp n).n m = false) :
    setWaits u n m (asideTry (setAccepted u n m) n) ∧ (asideTry (setAccepted u n m) n).get F.cala_state n = 3 := by
  obtain ⟨e, own⟩ := setAccepted_interp u n m
  rw [asideTry_idle (by rw [own]; exact need_measured (u.interp n) straight e)]
  exact ⟨setWaits_setAccepted hn, ((calMoves_setAccepted hn).get hn (by decide)).trans track⟩

/-- In TRACK a set that passes, where a correction is needed and allowed, waits as the interpolator goes ASIDE with it, or to LOCK. -/
theorem track_goesAside (hn : n < 1536) (track : u.get F.cala_state n = 3) (bent : u.needsCorrection (u.interp n).hist (u.interp n).n m = true)
    (free : u.flag F.cala_locked n = false) (allowed : u.asideAllowed n = true) :
    (asideTry (setAccepted u n m) n).get F.calb_aside_count n = plus u F.calb_aside_count n 1 ∧
    (∀ sel, u.correction n m = some sel → (asideTry (setAccepted u n m) n).get F.cala_state n = 4 ∧ ((asideTry (setAccepted u n m) n).interp n).sel = sel ∧
      ((asideTry (setAccepted u n m) n).interp n).prevSel = some (u.interp n).sel ∧ setWaits u n m (asideTry (setAccepted u n m) n)) ∧
    (u.correction n m = none → (asideTry (setAccepted u n m) n).get F.cala_state n = 1) := by
  have moves : CalMoves acceptedFields n u (setAccepted u n m) := calMoves_setAccepted hn
  obtain ⟨e, own⟩ := setAccepted_interp u n m
  have choice : (setAccepted u n m).correction n m = u.correction n m :=
    correction_congr (by rw [own]; rfl) (by rw [own]; rfl) (moves.fields _ 0 (by decide) (by decide)) m
  have counted : plus (setAccepted u n m) F.calb_aside_count n 1 = plus u F.calb_aside_count n 1 := plus_congr (moves.get hn (by decide)) 1
  rw [asideTry_goes (by rw [own]; exact if_pos bent) ((moves.get hn (by decide)).trans track)
    ((moves.flag (by omega) (by decide)).trans free) ((moves.asideAllowed hn (by decide) (by decide)).trans allowed)]
  cases chosen : u.correction n m with
  | some sel =>
    obtain ⟨aside, state, count⟩ := goAside_some_shows hn (choice.trans chosen)
    refine ⟨count.trans counted, fun sel' same => ?_, fun none => absurd none (Option.some_ne_none sel)⟩
    obtain rfl := Option.some.inj same
    refine ⟨state, by rw [aside]; rfl, by rw [aside, own]; rfl, ?_⟩
    exact (setWaits_setAccepted hn).aside hn (calMoves_goAside _ hn m) (by rw [aside]; rfl) (by rw [aside]; rfl)
  | none =>
    obtain ⟨state, count⟩ := goAside_none_shows hn (choice.trans chosen)
    exact ⟨count.trans counted, fun _ some => absurd some.symm (Option.some_ne_none _), fun _ => state⟩

/-- In BUILD the first set of a confirmation is kept. -/
def setKept (u : State) (n : Nat) (m : SetMeasure) : State :=
  (setMeasured u n m).setInterp n { (setMeasured u n m).interp n with first := some (setTable u n m) }

theorem build_keepsFirst (hn : n < 1536) (build : u.get F.cala_state n = 2) : ((setKept u n m).interp n).n = 0 ∧ ((setKept u n m).interp n).first = some (setTable u n m) ∧
    ((setKept u n m).interp n).waiting = (u.interp n).waiting ∧ (setKept u n m).get F.cala_state n = 2 := by
  obtain ⟨e, own⟩ := setMeasured_interp u n m
  have state := (calMoves_setMeasured u hn m).get (g := F.cala_state) hn (by decide)
  rw [setKept, State.interp_setInterp, State.setInterp_get, state, own]
  exact ⟨rfl, rfl, rfl, build⟩

/-- A set fails a check, and the interpolator stays, goes to LOCK, or goes ASIDE. -/
def setFailed (u : State) (n : Nat) (m : SetMeasure) : State := asideTry (rejectSet (setMeasured u n m) n (setCode u n m)) n

/-- A set that fails a check below the limit leaves the interpolator in TRACK, with the tables it had. -/
theorem track_refuses (hn : n < 1536) (track : u.get F.cala_state n = 3) (straight : u.needsCorrection (u.interp n).hist (u.interp n).n m = false)
    (below : (u.interp n).rejRun + 1 < u.get F.calg_reject_limit 0) : setRefused u n m (setFailed u n m) ∧
      ((setFailed u n m).interp n).waiting = (u.interp n).waiting ∧
      (setFailed u n m).get F.cala_state n = 3 := by
  have measured := calMoves_setMeasured u hn m
  have rejected := calMoves_setRejected (setMeasured u n m) hn (setCode u n m)
  obtain ⟨result, count⟩ := setRejected_shows (setMeasured u n m) hn (setCode_lt u n m)
  obtain ⟨e, own⟩ := setMeasured_interp u n m
  have here := setRejected_interp (setMeasured u n m) n (setCode u n m)
  rw [own] at here
  have track' := (measured.get (g := F.cala_state) hn (by decide)).trans track
  have limit := (rejected.fields F.calg_reject_limit 0 (by decide) (by decide)).trans (measured.fields _ 0 (by decide) (by decide))
  rw [setFailed, rejectSet_stays track' (by rw [own, limit]; exact below), asideTry_idle (by rw [here]; exact need_measured (u.interp n) straight e), setRefused, here]
  exact ⟨⟨rfl, rfl, result, count.trans (plus_congr (measured.get hn (by decide)) 1)⟩, rfl, (rejected.get hn (by decide)).trans track'⟩

/-- A set that fails a check in BUILD sends the interpolator to LOCK. -/
theorem build_refuses (hn : n < 1536) (build : u.get F.cala_state n = 2) : setRefused u n m (setFailed u n m) ∧
      (setFailed u n m).get F.cala_state n = 1 ∧
      ((setFailed u n m).interp n).lockAt = some u.tb.tick := by
  have measured := calMoves_setMeasured u hn m
  have rejected := calMoves_setRejected (setMeasured u n m) hn (setCode u n m)
  obtain ⟨result, count⟩ := setRejected_shows (setMeasured u n m) hn (setCode_lt u n m)
  obtain ⟨e, own⟩ := setMeasured_interp u n m
  have told := calMoves_interpFault (ws := lockFields) (setRejected (setMeasured u n m) n (setCode u n m)) n 0x0D
  have locked := told.trans (calMoves_enterLock _ hn)
  have here := enterLock_interp (interpFault (setRejected (setMeasured u n m) n (setCode u n m)) n 0x0D) n
  rw [interpFault_interp, setRejected_interp, own, told.tb, rejected.tb, measured.tb] at here
  rw [setFailed, rejectSet_build ((measured.get (g := F.cala_state) hn (by decide)).trans build), asideTry_idle (by rw [here]; rfl), setRefused, here]
  refine ⟨⟨rfl, rfl, (locked.get hn (by decide)).trans result, ?_⟩, enterLock_state _ hn, rfl⟩
  exact (locked.get hn (by decide)).trans (count.trans (plus_congr (measured.get hn (by decide)) 1))

end

end Sys2Proof.Machine
end

section
/-! PROOF. Samples, sets and tables: a table comes into force at its boundary, and the statement of its family (R107 to R123). -/

namespace Sys2Proof.Machine

open Sys2Proof.Claims

/-! ### A table comes into force -/

/-- An interpolator whose table comes into force in a calibration state (R116). -/
def Interp.installed (x : Interp) (y : BinTable) (tick st : Nat) : Interp :=
  let z := { x with prior := if st = 3 then x.inForce else none, inForce := some { y with atTick := tick }, waiting := none }
  if st = 4 && y.aside then { z with prevSel := none } else z

theorem Interp.installed_shows (x : Interp) (y : BinTable) (tick st : Nat) : (x.installed y tick st).waiting = none ∧
    (x.installed y tick st).inForce = some { y with atTick := tick } ∧ (x.installed y tick st).prior = (if st = 3 then x.inForce else none) ∧
    (x.installed y tick st).need = x.need := by
  unfold Interp.installed
  extract_lets z
  by_cases aside : (st = 4 && y.aside) = true
  · rw [if_pos aside]
    exact ⟨rfl, rfl, rfl, rfl⟩
  · rw [if_neg aside]
    exact ⟨rfl, rfl, rfl, rfl⟩

/-- The table is in force at its boundary. -/
def tableInstalled (s : State) (n : Nat) (y : BinTable) : State :=
  (advanceFull s y.full).setInterp n ((s.interp n).installed y (advanceFull s y.full).tb.tick (s.get F.cala_state n))

/-- The calibration is at its end with the table: BUILD is, and an ASIDE with a table built in it. -/
def State.endsWith (s : State) (n : Nat) (y : BinTable) : Bool := s.get F.cala_state n = 2 || (s.get F.cala_state n = 4 && y.aside)

/-- The interpolator is in TRACK with its table, the target has its result, and the pool is looked at again. -/
def trackBegun (u : State) (n : Nat) : State := asidePool (calResult (putCalState u n 3) true n false) n

section
variable {n : Nat} {y : BinTable} {s u : State}

theorem execTableInstall_eq (waits : (s.interp n).waiting = some y) (free : y.held = false) :
    exec (.tableInstall n) s = .next (if s.endsWith n y then trackBegun (tableInstalled s n y) n else tableInstalled s n y) := by
  show execTableInstall n s = _
  unfold execTableInstall
  dsimp only
  rw [waits]
  refine (if_neg (by rw [free]; decide)).trans ?_
  rw [advanceFull_get, apply_ite Host.Outcome.next]
  rfl

theorem tableInstalled_interp (s : State) (n : Nat) (y : BinTable) :
    (tableInstalled s n y).interp n = (s.interp n).installed y (tableInstalled s n y).tb.tick (s.get F.cala_state n) := State.interp_setInterp ..

theorem tableInstalled_state (s : State) (n : Nat) (y : BinTable) : (tableInstalled s n y).get F.cala_state n = s.get F.cala_state n := advanceFull_get ..

/-- As an interpolator enters TRACK it keeps its tables, and where it needs no correction it stays there. -/
theorem trackBegun_shows (hn : n < 1536) (u : State) : (u.interp n).TablesKept ((trackBegun u n).interp n) ∧ (trackBegun u n).tb = u.tb ∧
    ((u.interp n).need = none → (trackBegun u n).get F.cala_state n = 3) := by
  have own : (calResult (putCalState u n 3) true n false).interp n = u.interp n := (calResult_interp ..).trans (putCalState_interp ..)
  have state : (calResult (putCalState u n 3) true n false).get F.cala_state n = 3 :=
    (calResult_get _ _ _ _ (by decide) (by omega)).trans (putCalState_get u hn (by decide))
  obtain ⟨interp, words⟩ := sameInterp_asidePool hn (calResult (putCalState u n 3) true n false)
  refine ⟨?_, ?_, fun settled => ?_⟩
  · rw [trackBegun, interp, ← own]
    exact asideTry_tablesKept ..
  · exact (poolKeeps_asidePool ..).2.trans ((calMoves_calResult (ws := []) (n := n) ..).tb.trans (poolKeeps_putCalState ..).2)
  · rw [trackBegun, words F.cala_state (by decide) rfl, asideTry_idle (by rw [own]; exact settled)]
    exact state

/-- At its boundary a table that is not held comes into force, and ends the BUILD or the ASIDE that it was built in. -/
theorem tableInstall_inForce (hn : n < 1536) (waits : (s.interp n).waiting = some y) (free : y.held = false) :
    ∃ t, exec (.tableInstall n) s = .next t ∧ (t.interp n).waiting = none ∧ (t.interp n).inForce = some { y with atTick := t.tb.tick } ∧
      ((s.interp n).need = none → t.get F.cala_state n = (if s.get F.cala_state n = 2 ∨ (s.get F.cala_state n = 4 ∧ y.aside = true) then 3 else s.get F.cala_state n)) ∧
      (s.get F.cala_state n = 3 → (t.interp n).prior = (s.interp n).inForce) := by
  have closes : s.endsWith n y = true ↔ s.get F.cala_state n = 2 ∨ (s.get F.cala_state n = 4 ∧ y.aside = true) := by
    simp only [State.endsWith, Bool.or_eq_true, Bool.and_eq_true, decide_eq_true_eq]
  obtain ⟨waiting, inForce, prior, need⟩ := Interp.installed_shows (s.interp n) y (tableInstalled s n y).tb.tick (s.get F.cala_state n)
  rw [← tableInstalled_interp] at waiting inForce prior need
  refine ⟨_, execTableInstall_eq waits free, ?_⟩
  by_cases last : s.endsWith n y = true
  · obtain ⟨kept, tb, settles⟩ := trackBegun_shows hn (tableInstalled s n y)
    rw [if_pos last, if_pos (closes.mp last), kept.inForce, kept.prior, tb]
    exact ⟨kept.waiting.elim waiting.subst id, inForce, fun settled => settles (need.trans settled), fun track => prior.trans (if_pos track)⟩
  · rw [if_neg last, if_neg (mt closes.mpr last), tableInstalled_state]
    exact ⟨waiting, inForce, fun _ => rfl, fun track => prior.trans (if_pos track)⟩

end

end Sys2Proof.Machine

namespace Sys2Proof

open Sys2Proof.Machine Sys2Proof.Claims

/-- Settles O35: what a sample joins, the outcomes of a complete set one by one, and the table at its boundary. That the internal part of a correlated set stays
is the model's choice (log 34). -/
theorem samplesSetsTables : Obligations.SamplesSetsTables := by
  refine ⟨?_, ?_, fun n y s hn waits free => tableInstall_inForce hn waits free⟩
  · intro n code s hn on idle offered takes x
    exact ⟨fun lane room settled => laneSample_joins hn on idle offered takes lane room settled,
      fun precision settled => precisionSample_waits precision on idle offered takes settled, execRandomSourceSample_taken hn on idle offered takes⟩
  intro n m s hn u st x d table against code correct waits refused begun full calibrates
  have joined : (if isLaneInterp n then s else flushSamples s n) = u := rfl
  obtain ⟨is, moved⟩ : ∃ is, u = { s with interps := is } := samplesJoined_frame s n
  have same : ∀ (g : Field) (j : Nat), u.get g j = s.get g j := fun g j => by rw [moved]; rfl
  have sameFlag : ∀ (g : Field) (j : Nat), u.flag g j = s.flag g j := fun g j => by rw [moved]; rfl
  have state : st = u.get F.cala_state n := (same ..).symm
  have found : code = setCode u n m := by
    simp only [code, against, state]
    rfl
  have asWaits : ∀ t, setWaits u n m t → waits t := by
    rintro t ⟨empty, result, count, y, waiting, entries, boundary, held⟩
    rw [show u.full = s.full by rw [moved]; rfl] at boundary
    rw [← state, sameFlag] at held
    exact ⟨empty, result, count, y, waiting, entries, boundary, held⟩
  have asRefused : ∀ t, setRefused u n m t → refused t := by
    rintro t ⟨empty, inForce, result, count⟩
    exact ⟨empty, inForce, result.trans found.symm, count⟩
  rw [state] at calibrates
  have judged := fun independent => execSampleSetComplete_judged (m := m) joined begun full calibrates hn independent
  rw [← state, ← found] at judged
  refine ⟨fun correlated => ⟨_, execSampleSetComplete_correlated joined begun full calibrates correlated, discardLive_shows hn u⟩,
    fun independent track pass straight => ?_, fun independent track bad straight below => ?_, fun independent track pass bent free allowed => ?_,
    fun independent build pass none => ?_, fun independent build pass some => ?_, fun independent build bad => ?_⟩
  · obtain ⟨accepted, stays⟩ := track_accepts (m := m) hn (state ▸ track) straight
    exact ⟨_, by rw [judged independent, track, pass, setJudged_track]; rfl, asWaits _ accepted, stays⟩
  · obtain ⟨rejected, waiting, stays⟩ := track_refuses (m := m) hn (state ▸ track) straight (by rw [same]; exact below)
    exact ⟨_, by rw [judged independent, setJudged_rejected bad (by rw [track]; decide), found]; rfl, asRefused _ rejected, waiting, stays⟩
  · obtain ⟨count, goes, locks⟩ := track_goesAside (m := m) hn (state ▸ track) bent ((sameFlag ..).trans free) allowed
    refine ⟨_, by rw [judged independent, track, pass, setJudged_track]; rfl, count, fun sel chosen => ?_, locks⟩
    obtain ⟨aside, choice, before, accepted⟩ := goes sel chosen
    exact ⟨aside, choice, before, asWaits _ accepted⟩
  · obtain ⟨empty, first, waiting, stays⟩ := build_keepsFirst (m := m) hn (state ▸ build)
    exact ⟨_, setTable u n m, by rw [judged independent, build, pass, none, setJudged_first]; rfl, empty, first, rfl, waiting, stays⟩
  · obtain ⟨y, first⟩ := Option.ne_none_iff_exists'.mp some
    exact ⟨_, by rw [judged independent, build, pass, first, setJudged_second]; rfl, asWaits _ (setWaits_setAccepted hn),
      ((calMoves_setAccepted hn).get hn (by decide)).trans (state ▸ build)⟩
  · obtain ⟨rejected, locks, since⟩ := build_refuses (m := m) hn (state ▸ build)
    exact ⟨_, by rw [judged independent, setJudged_rejected bad (by rw [build]; decide), found]; rfl, asRefused _ rejected, locks, since.trans (by rw [moved])⟩

end Sys2Proof
end

section
/-! PROOF. LOCK and its time limit, an ASIDE that is abandoned, and the limit of a SWEEP (R118, R121 to R123, R130). -/

namespace Sys2Proof.Machine

open Sys2Proof.Claims

section
variable {n t0 : Nat} {s : State}

/-! ### LOCK -/

/-- An interpolator whose loop has settled (R118). -/
def Interp.loopSettled (x : Interp) (m : LockMeasure) : Interp :=
  { x with sel := { taps := x.sel.taps, slowStage := m.slowStage, fastStage := m.fastStage, dacs := m.dacs }, bias := m.bias, widths := m.widths, lockDacs := m.dacs, lockAt := none }

/-- A loop that settles in time takes its interpolator to BUILD. -/
theorem execLockSettled_eq {m : LockMeasure} (since : (s.interp n).lockAt = some t0) (lock : s.get F.cala_state n = 1) (inTime : s.tb.tick ≤ t0 + 1600000)
    (settled : (s.interp n).settled m = true) :
    exec (.lockSettled n m) s = .next (showSelection (putCalState (s.setInterp n ((s.interp n).loopSettled m)) n 2) n) := by
  show execLockSettled n m s = _
  unfold execLockSettled
  dsimp only
  rw [since]
  exact if_pos (by simp only [lock, settled, Config.milli, inTime, decide_true, Bool.and_true])

/-- The status words show a choice of taps and stages. -/
theorem showSelection_shows (hn : n < 1536) (s : State) :
    (showSelection s n).get F.calb_spares_used n = ((s.interp n).sel.taps.countP fun i => decide (32 ≤ i)) % 16 ∧
    (showSelection s n).get F.calb_slow_stage n = (s.interp n).sel.slowStage % 4 ∧ (showSelection s n).get F.calb_fast_stage n = (s.interp n).sel.fastStage % 4 ∧
    (showSelection s n).flag F.cala_dac_used n = decide ((s.interp n).sel.dacs ≠ (s.interp n).lockDacs) := by
  unfold showSelection
  dsimp only
  simp (disch := decide) only [State.flag, State.get_put_status hn, State.get_put_self]
  refine ⟨rfl, Nat.mod_mod .., Nat.mod_mod .., ?_⟩
  cases decide ((s.interp n).sel.dacs ≠ (s.interp n).lockDacs) <;> rfl

theorem lockSettled_builds {m : LockMeasure} (hn : n < 1536) (since : (s.interp n).lockAt = some t0) (lock : s.get F.cala_state n = 1) (inTime : s.tb.tick ≤ t0 + 1600000)
    (all : m.widths.length = 40) (near : (((sumOver (fun i => m.widths.getD i 0) (s.interp n).sel.taps : Nat) : Int) - 62500).natAbs ≤ 50) :
    ∃ t, exec (.lockSettled n m) s = .next t ∧ t.get F.cala_state n = 2 ∧ (t.interp n).lockAt = none ∧ (t.interp n).bias = m.bias ∧
      (t.interp n).widths = m.widths ∧ (t.interp n).lockDacs = m.dacs ∧
      (t.interp n).sel = { taps := (s.interp n).sel.taps, slowStage := m.slowStage, fastStage := m.fastStage, dacs := m.dacs } ∧
      t.get F.calb_spares_used n = ((s.interp n).sel.taps.countP fun i => decide (32 ≤ i)) % 16 ∧ t.get F.calb_slow_stage n = m.slowStage % 4 ∧
      t.get F.calb_fast_stage n = m.fastStage % 4 ∧ t.flag F.cala_dac_used n = false := by
  have settled : (s.interp n).settled m = true := by
    rw [Interp.settled, Bool.and_eq_true, decide_eq_true_eq, decide_eq_true_eq]
    exact ⟨all, near⟩
  have own : (putCalState (s.setInterp n ((s.interp n).loopSettled m)) n 2).interp n = (s.interp n).loopSettled m := (putCalState_interp ..).trans (State.interp_setInterp ..)
  obtain ⟨spares, slow, fast, dacs⟩ := showSelection_shows hn (putCalState (s.setInterp n ((s.interp n).loopSettled m)) n 2)
  rw [own] at spares slow fast dacs
  refine ⟨_, execLockSettled_eq since lock inTime settled, ?_⟩
  rw [showSelection_interp, own, (calMoves_showSelection _ hn).get (g := F.cala_state) hn (by decide)]
  exact ⟨putCalState_get _ hn (by decide), rfl, rfl, rfl, rfl, rfl, spares, slow, fast, dacs.trans (decide_eq_false (not_not_intro rfl))⟩

theorem execLockTimeout_eq (since : (s.interp n).lockAt = some t0) (lock : s.get F.cala_state n = 1) :
    exec (.lockTimeout n) s = .next (enterLock (interpFault (advanceTo s (t0 + 1600000)) n 0x0C) n) := by
  show execLockTimeout n s = _
  unfold execLockTimeout
  rw [since]
  exact if_pos lock

theorem advanceTo_srcOff (s : State) (tick source : Nat) : (advanceTo s tick).srcOff source = s.srcOff source := by
  obtain ⟨tb, h, e⟩ := advanceTo_frame s tick
  rw [e]
  rfl

theorem putCalState_flt (s : State) (n st : Nat) : (putCalState s n st).flt = s.flt := by
  unfold putCalState
  dsimp only
  exact iteInduction (motive := fun t : State => t.flt = s.flt) (fun _ => State.put_flt ..) fun _ => (State.put_flt ..).trans (State.put_flt ..)

theorem enterLock_flt (s : State) (n : Nat) : (enterLock s n).flt = s.flt := by
  unfold enterLock
  dsimp only
  rw [State.satInc, State.put_flt, putCalState_flt, State.setInterp_flt]

theorem interpFault_inflight {cause : Nat} (on : s.srcOff (interpSource n) = false) :
    (interpFault s n cause).flt.inflight = s.flt.inflight ++ [{ source := interpSource n, cause := cause, sub := 0, injected := false }] := by
  rw [interpFault, calEvent, event_flt]
  exact raise_inflight on

/-- A loop that has not settled in time enters LOCK anew, with the fault of R122. -/
theorem lockTimeout_locks (hn : n < 1536) (since : (s.interp n).lockAt = some t0) (lock : s.get F.cala_state n = 1) :
    ∃ t, exec (.lockTimeout n) s = .next t ∧ t.get F.cala_state n = 1 ∧ t.tb.tick = max s.tb.tick (t0 + 1600000) ∧ (t.interp n).lockAt = some t.tb.tick ∧
      t.get F.calb_lock_count n = plus s F.calb_lock_count n 1 ∧
      (s.srcOff (interpSource n) = false → t.flt.inflight = s.flt.inflight ++ [{ source := interpSource n, cause := 0x0C, sub := 0, injected := false }]) := by
  have told := calMoves_interpFault (ws := []) (advanceTo s (t0 + 1600000)) n 0x0C
  have tb := (poolKeeps_enterLock (interpFault (advanceTo s (t0 + 1600000)) n 0x0C) n).2
  refine ⟨_, execLockTimeout_eq since lock, enterLock_state _ hn, ?_, ?_, ?_, fun on => ?_⟩
  · rw [tb, told.tb, advanceTo_tick]
  · rw [enterLock_interp, tb]
    rfl
  · exact (enterLock_count _ hn).trans (plus_congr ((told.get hn (by decide)).trans (advanceTo_get ..)) 1)
  · rw [enterLock_flt, interpFault_inflight ((advanceTo_srcOff ..).trans on), advanceTo_flt]

/-! ### ASIDE -/

/-- An interpolator whose correction is abandoned (R121). -/
def Interp.abandoned (x : Interp) (tick : Nat) : Interp :=
  { x.dropSet with first := none, pend := [], waiting := x.waiting.filter fun t => !t.aside, sel := x.prevSel.getD x.sel, prevSel := none, abandonAt := some tick }

theorem asideAbandon_restores (hn : n < 512) (aside : s.get F.cala_state n = 4) (kept : (s.interp n).abandonAt = none) (rate : s.get F.calg_aside_rate 0 * 1000 ≤ s.liveEdges (n / 4)) :
    ∃ t, exec (.asideAbandon n) s = .next t ∧ (t.interp n).abandonAt = some s.tb.tick ∧ (t.interp n).sel = (s.interp n).prevSel.getD (s.interp n).sel ∧
      (t.interp n).n = 0 ∧ (t.interp n).waiting = ((s.interp n).waiting.filter fun y => !y.aside) ∧ (t.interp n).inForce = (s.interp n).inForce ∧ t.get F.cala_state n = 4 := by
  have goes : exec (.asideAbandon n) s = .next (showSelection (s.setInterp n ((s.interp n).abandoned s.tb.tick)) n) := by
    have precision : isLaneInterp n = false := decide_eq_false (Nat.not_le.mpr hn)
    show execAsideAbandon n s = _
    unfold execAsideAbandon
    exact if_pos (by simp only [aside, kept, precision, rate, Option.isNone_none, decide_true, Bool.not_false, Bool.and_true])
  refine ⟨_, goes, ?_⟩
  rw [showSelection_interp, State.interp_setInterp, (calMoves_showSelection _ (by omega)).get (g := F.cala_state) (by omega) (by decide)]
  exact ⟨rfl, rfl, rfl, rfl, rfl, aside⟩

/-- An interpolator in TRACK again, 100 ns after its abandonment. -/
def asideLeft (s : State) (n t0 : Nat) : State := putCalState ((advanceTo s (t0 + 160)).setInterp n { s.interp n with abandonAt := none }) n 3

theorem asideLeft_interp (s : State) (n t0 : Nat) : (asideLeft s n t0).interp n = { s.interp n with abandonAt := none } :=
  (putCalState_interp ..).trans (State.interp_setInterp ..)

theorem execAsideReturn_eq (since : (s.interp n).abandonAt = some t0) (aside : s.get F.cala_state n = 4) :
    exec (.asideReturn n) s = .next (asidePool (asideLeft s n t0) n) := by
  show execAsideReturn n s = _
  unfold execAsideReturn
  dsimp only
  rw [since]
  exact if_pos aside

/-- An interpolator returns with the table that it had. -/
theorem asideReturn_tracks (hn : n < 1536) (since : (s.interp n).abandonAt = some t0) (aside : s.get F.cala_state n = 4) :
    ∃ t, exec (.asideReturn n) s = .next t ∧ ((s.interp n).need = none → t.get F.cala_state n = 3) ∧ (t.interp n).abandonAt = none ∧
      (t.interp n).inForce = (s.interp n).inForce ∧ t.tb.tick = max s.tb.tick (t0 + 160) := by
  obtain ⟨interp, words⟩ := sameInterp_asidePool hn (asideLeft s n t0)
  have kept := asideTry_tablesKept (asideLeft s n t0) n
  rw [asideLeft_interp, ← interp] at kept
  refine ⟨_, execAsideReturn_eq since aside, fun settled => ?_, kept.abandonAt.elim id id, kept.inForce, ?_⟩
  · rw [words F.cala_state (by decide) rfl, asideTry_idle (by rw [asideLeft_interp]; exact settled)]
    exact putCalState_get _ hn (by decide)
  · rw [(poolKeeps_asidePool ..).2, asideLeft, (poolKeeps_putCalState ..).2, State.setInterp_tb, advanceTo_tick]

/-! ### The limit of a SWEEP -/

theorem execCalSweepTimeout_eq {p : Nat} {o : CalOp} (found : (s.calOps.find? fun o => o.cmd.part = p && !o.recover) = some o) :
    exec (.calSweepTimeout p) s = .next (finish { advanceTo s o.deadline with calOps := s.calOps.filter (· ≠ o) } o.cmd 0x28 stTimeout 0 []) := by
  show execCalSweepTimeout p s = _
  unfold execCalSweepTimeout
  rw [found]
  dsimp only
  rw [advanceTo_calOps]

end

end Sys2Proof.Machine

namespace Sys2Proof

open Sys2Proof.Machine Sys2Proof.Claims

/-- Settles O36: each event is one step of its interpolator, or the end of the command, and the look at the pool after an ASIDE leaves its tables. -/
theorem lockAsideSweepTimeout : Obligations.LockAsideSweepTimeout := by
  refine ⟨?_, fun n t0 s hn since lock => lockTimeout_locks hn since lock, fun n s hn aside kept rate => asideAbandon_restores hn aside kept rate,
    fun n t0 s hn since aside => asideReturn_tracks hn since aside, fun p o s found => execCalSweepTimeout_eq found⟩
  intro n t0 m s hn since lock inTime taps all near
  exact lockSettled_builds hn since lock inTime all near

end Sys2Proof
end

section
/-! PROOF. The commands of calibration: their targets, and CAL_START and CAL_STATUS (R128 to R131, R412). -/

namespace Sys2Proof.Machine

open Sys2Proof.Claims

/-! ### Targets -/

section
variable {s : State} {c : Cmd} {op : Nat}

/-- The scope of an accepted calibration command with a powered target (R129, R412). -/
structure CalScope (s : State) (c : Cmd) (op : Nat) (ts : List Nat) : Prop where
  passed : passes s c op = true
  resv : c.resv = 0
  one : c.params.length = 1
  scope : scopeTargets (bits (c.par 0) 63 61) (bits (c.par 0) 57 48) = some ts
  fields : stray (c.par 0) [(63, 61), (57, 48)] = false
  owns : (advanceTo s c.tick).calOwns c.part ts = true
  present : ((bits (c.par 0) 63 61 = 0 || bits (c.par 0) 63 61 = 6) && ts.all (advanceTo s c.tick).interpGone) = false
  powered : calTargets s c op = ts.filter fun n => (advanceTo s c.tick).domOn (interpDomain n)

/-- A command with a target has a scope. -/
theorem calScope_of_target (target : calTargets s c op ≠ []) : ∃ ts, CalScope s c op ts := by
  unfold calTargets at target
  dsimp only at target
  cases scope : scopeTargets (bits (c.par 0) 63 61) (bits (c.par 0) 57 48) with
  | none => exact absurd (by rw [scope]) target
  | some ts =>
    rw [scope] at target
    by_cases good : (accepts s c op 1 && !stray (c.par 0) [(63, 61), (57, 48)] && (advanceTo s c.tick).calOwns c.part ts &&
        !((bits (c.par 0) 63 61 = 0 || bits (c.par 0) 63 61 = 6) && ts.all (advanceTo s c.tick).interpGone)) = true
    · have powered : calTargets s c op = ts.filter fun n => (advanceTo s c.tick).domOn (interpDomain n) := by
        unfold calTargets
        dsimp only
        rw [scope]
        exact if_pos good
      simp only [Bool.and_eq_true, Bool.not_eq_true'] at good
      obtain ⟨⟨⟨accepted, fields⟩, owns⟩, present⟩ := good
      obtain ⟨passed, resv, one⟩ := (accepts_iff s c op 1).mp accepted
      exact ⟨ts, passed, resv, one, scope, fields, owns, by simpa using present, powered⟩
    · exact absurd (if_neg good) target

theorem calChecked_targets {ts : List Nat} (h : CalScope s c op ts) (target : calTargets s c op ≠ []) {single : Bool}
    (plain : single = true → bits (c.par 0) 63 61 = 0 ∨ bits (c.par 0) 63 61 = 6) (k : Nat → List Nat → Result) :
    calChecked c (advanceTo s c.tick) single k = k (bits (c.par 0) 63 61) (calTargets s c op) := by
  have kind : (single && bits (c.par 0) 63 61 ≠ 0 && bits (c.par 0) 63 61 ≠ 6) = false := by
    cases single with
    | false => rfl
    | true => rcases plain rfl with e | e <;> rw [e] <;> rfl
  unfold calChecked
  rw [checked_eq c false 1 _ rfl h.resv h.one]
  dsimp only
  rw [h.scope]
  dsimp only
  rw [refuseIf_false _ _ _ (by rw [h.fields, Bool.false_or, kind]), noMore, refuseIf_false _ _ _ (by rw [h.one]; rfl), refuseIf_false _ _ _ (by rw [h.owns]; rfl),
    refuseIf_false _ _ _ h.present, ← h.powered, refuseIf_false _ _ _ (List.isEmpty_eq_false_iff.mpr target)]

/-- A calibration command with a target is settled as it answers for its powered targets. -/
theorem runCal_eq (target : calTargets s c op ≠ []) {single : Bool} (plain : single = true → bits (c.par 0) 63 61 = 0 ∨ bits (c.par 0) 63 61 = 6)
    (k : State → List Nat → Result) : runCmd op c (fun u => calChecked c u single fun _ ts => k u ts) s =
      settle (advanceTo s c.tick) c op (k (advanceTo s c.tick) (calTargets s c op)) := by
  obtain ⟨ts, scope⟩ := calScope_of_target target
  rw [runCmd_of_passes scope.passed, calChecked_targets scope target plain]

theorem mem_upTo {a k n : Nat} : k ∈ upTo a n ↔ a ≤ k ∧ k < a + n := by
  simp only [upTo, List.mem_map, List.mem_range]
  exact ⟨fun ⟨i, hi, e⟩ => by omega, fun h => ⟨k - a, by omega, by omega⟩⟩

/-- A scope names interpolators, each once. -/
theorem scopeTargets_wf {kind number : Nat} {ts : List Nat} (h : scopeTargets kind number = some ts) : (∀ n ∈ ts, n < 1536) ∧ ts.Nodup := by
  have range : ∀ {a n}, a + n ≤ 1536 → (∀ k ∈ upTo a n, k < 1536) ∧ (upTo a n).Nodup := fun fits =>
    ⟨fun k hk => by have := (mem_upTo.mp hk).2; omega, nodup_upTo ..⟩
  have one : ∀ {k}, k < 1536 → (∀ n ∈ [k], n < 1536) ∧ [k].Nodup := fun hk => ⟨fun n hn => by rwa [List.mem_singleton.mp hn], List.nodup_singleton _⟩
  unfold scopeTargets at h
  split at h
  case h_8 => exact absurd h (Option.some_ne_none ts).symm
  all_goals
    obtain ⟨bound, e⟩ := Option.ite_none_right_eq_some.mp h
    obtain rfl := Option.some.inj e
  case h_1 | h_7 => exact one (by omega)
  all_goals exact range (by omega)

theorem calTargets_wf (target : calTargets s c op ≠ []) : (∀ n ∈ calTargets s c op, n < 1536) ∧ (calTargets s c op).Nodup := by
  obtain ⟨ts, h⟩ := calScope_of_target target
  obtain ⟨bound, once⟩ := scopeTargets_wf h.scope
  rw [h.powered]
  exact ⟨fun n hn => bound n (List.mem_of_mem_filter hn), once.filter _⟩

/-- A partition that may command a target has a number of the table's. -/
theorem calTargets_part (target : calTargets s c op ≠ []) : c.part < 256 := by
  obtain ⟨ts, h⟩ := calScope_of_target target
  obtain ⟨n, hn⟩ := List.exists_mem_of_ne_nil _ target
  rw [h.powered] at hn
  have owns := h.owns
  rw [State.calOwns, Bool.or_eq_true, decide_eq_true_eq, List.all_eq_true] at owns
  rcases owns with zero | all
  · omega
  · have holder := all n (List.mem_of_mem_filter hn)
    simp only [Bool.and_eq_true, decide_eq_true_eq] at holder
    rw [← holder.2, State.interpHolder]
    split
    · decide
    · split
      · exact bits_lt (by decide) (by decide)
      · decide

/-! ### CAL_START -/

/-- The set in progress of an interpolator is gone, and so are the samples that wait for it (R130). -/
def setAbandoned (s : State) (n : Nat) : State := s.setInterp n { (s.interp n).dropSet with pend := [] }

theorem setsAbandoned_frame (l : List Nat) (u : State) : ∃ m, l.foldl setAbandoned u = { u with interps := m } := by
  induction l generalizing u with
  | nil => exact ⟨u.interps, rfl⟩
  | cons n rest ih =>
    obtain ⟨m, e⟩ := ih (setAbandoned u n)
    exact ⟨m, by rw [List.foldl_cons, e]; rfl⟩

theorem calStartSweep_opens (target : calTargets s c 0x28 ≠ []) :
    ∃ v, pends (.calStartSweep c) s c 0x28 v ∧
      v.calOps = (advanceTo s c.tick).calOps ++ [{ cmd := c, recover := false, targets := calTargets s c 0x28, bad := 0, deadline := (advanceTo s c.tick).tb.tick + 16000000000 }] ∧
      (∀ n ∈ calTargets s c 0x28, (v.interp n).n = 0 ∧ (v.interp n).pend = [] ∧ (v.interp n).first = ((advanceTo s c.tick).interp n).first ∧
        (v.interp n).inForce = ((advanceTo s c.tick).interp n).inForce) ∧ v = { advanceTo s c.tick with interps := v.interps, calOps := v.calOps } := by
  obtain ⟨bound, once⟩ := calTargets_wf target
  obtain ⟨m, frame⟩ := setsAbandoned_frame (calTargets s c 0x28) (advanceTo s c.tick)
  refine ⟨calOpen ((calTargets s c 0x28).foldl setAbandoned (advanceTo s c.tick)) c false (calTargets s c 0x28), ?_, ?_, fun n hn => ?_, ?_⟩
  · have run := runCal_eq target (single := false) nofun fun u ts => .later (calOpen (ts.foldl setAbandoned u) c false ts)
    rw [pends, show exec (.calStartSweep c) s = .next (runCmd 0x28 c (calStartSweep c) s) from rfl]
    refine congrArg Host.Outcome.next (Eq.trans run ?_)
    rw [settle, calOpen, frame]
  · rw [calOpen, frame]
    rfl
  · obtain ⟨u, ⟨before, -⟩, -, after, -⟩ := sameInterp_foldl_mem (ws := []) (f := setAbandoned) (fun s _ _ => CalMoves.setInterp s _ _) once (bound n hn) hn (advanceTo s c.tick)
    rw [show (calOpen ((calTargets s c 0x28).foldl setAbandoned (advanceTo s c.tick)) c false (calTargets s c 0x28)).interp n =
      ((calTargets s c 0x28).foldl setAbandoned (advanceTo s c.tick)).interp n from rfl, after, setAbandoned, State.interp_setInterp, before]
    exact ⟨rfl, rfl, rfl, rfl⟩
  · rw [calOpen, frame]

/-- A target that is not RETIRED enters LOCK (R131). -/
def recovered (s : State) (n : Nat) : State := if s.interpGone n then s else enterLock s n

theorem calStartRecover_locks (target : calTargets s c 0x28 ≠ []) : ∃ t, exec (.calStartRecover c) s = .next t ∧
    ∀ n ∈ calTargets s c 0x28, (advanceTo s c.tick).interpGone n = false → t.get F.cala_state n = 1 := by
  obtain ⟨bound, once⟩ := calTargets_wf target
  have part := calTargets_part target
  have run := runCal_eq target (single := false) nofun fun u ts => .later (ts.foldl recovered (calOpen u c true ts))
  refine ⟨_, rfl, fun n hn here => ?_⟩
  have small : n < 2 ^ 24 := by have := bound n hn; omega
  rw [foldl_keeps (g := fun t : State => t.get F.cala_state n) fun b k => calResult_get b true k true (by decide) small,
    show runCmd 0x28 c (calStartRecover c) s = _ from run]
  show (State.put _ F.part3_accepted c.part _).get F.cala_state n = 1
  rw [State.get_put_outside _ _ (by decide) (by decide) (by omega) small]
  obtain ⟨u, ⟨before, -⟩, -, -, words⟩ := sameInterp_foldl_mem (ws := lockFields) (f := recovered) (l := calTargets s c 0x28) (n := n) (fun v k hk => by
    unfold recovered
    split
    · exact .refl ..
    · exact calMoves_enterLock v (bound k hk)) once (bound n hn) hn (calOpen (advanceTo s c.tick) c true (calTargets s c 0x28))
  have stays : u.interpGone n = false := by
    rw [State.interpGone, before]
    exact here
  rw [words F.cala_state (by decide) rfl, recovered, if_neg (by rw [stays]; decide)]
  exact enterLock_state u (bound n hn)

/-! ### CAL_STATUS -/

theorem length_flatMap_pair {α β : Type} (f g : α → β) (l : List α) : (l.flatMap fun n => [f n, g n]).length = 2 * l.length := by
  induction l with
  | nil => rfl
  | cons n rest ih => simp only [List.flatMap_cons, List.length_append, List.length_cons, List.length_nil, ih]; omega

theorem getElem?_flatMap_pair {α β : Type} (f g : α → β) {l : List α} {k : Nat} {n : α} (h : l[k]? = some n) :
    (l.flatMap fun n => [f n, g n])[2 * k]? = some (f n) ∧ (l.flatMap fun n => [f n, g n])[2 * k + 1]? = some (g n) := by
  induction l generalizing k with
  | nil => exact absurd h (Option.some_ne_none n).symm
  | cons m rest ih =>
    cases k with
    | zero =>
      obtain rfl : m = n := Option.some.inj h
      exact ⟨rfl, rfl⟩
    | succ k => exact ih (k := k) h

/-- Of the first status word, quality and age alone are read anew. -/
theorem calWordA_bits (u : State) (n : Nat) : bits (u.calWordA n) 63 61 = bits (u.word 0x21 0 n) 63 61 ∧ bits (u.calWordA n) 52 25 = bits (u.word 0x21 0 n) 52 25 ∧
    bits (u.calWordA n) 8 0 = bits (u.word 0x21 0 n) 8 0 := by
  simp only [State.calWordA]
  refine ⟨?_, ?_, ?_⟩ <;> rw [bits_setBits_apart, bits_setBits_apart] <;> decide

theorem calStatus_answers {ts : List Nat} (accepted : accepts s c 0x29 1 = true) (scope : scopeTargets (bits (c.par 0) 63 61) (bits (c.par 0) 57 48) = some ts)
    (fields : stray (c.par 0) [(63, 61), (57, 48), (31, 21), (7, 0)] = false) (several : 0 < bits (c.par 0) 7 0) (few : bits (c.par 0) 7 0 ≤ 127)
    (inside : bits (c.par 0) 31 21 + bits (c.par 0) 7 0 ≤ ts.length) :
    ends (.calStatus c) s c 0x29 (advanceTo s c.tick) stOk 0
      (((ts.drop (bits (c.par 0) 31 21)).take (bits (c.par 0) 7 0)).flatMap fun n => [(advanceTo s c.tick).calWordA n, (advanceTo s c.tick).word 0x21 1 n]) := by
  obtain ⟨passed, resv, one⟩ := (accepts_iff s c 0x29 1).mp accepted
  have good : (stray (c.par 0) [(63, 61), (57, 48), (31, 21), (7, 0)] || bits (c.par 0) 7 0 = 0 || decide (127 < bits (c.par 0) 7 0) ||
      decide (ts.length < bits (c.par 0) 31 21 + bits (c.par 0) 7 0)) = false := by
    simp only [fields, Bool.false_or, Bool.or_eq_false_iff, decide_eq_false_iff_not]
    omega
  rw [ends, show exec (.calStatus c) s = .next (runCmd 0x29 c (calStatusBody c) s) from rfl, runCmd_of_passes passed, calStatusBody, checked_eq c false 1 _ rfl resv one]
  dsimp only
  rw [scope]
  dsimp only
  rw [refuseIf_false _ _ _ good, noMore, refuseIf_false _ _ _ (by rw [one]; rfl)]
  rfl

end

end Sys2Proof.Machine
end

section
/-! PROOF. CAL_LOCK, its release, and CAL_TABLE_READ (R132, R133). -/

namespace Sys2Proof.Machine

open Sys2Proof.Claims

/-! ### The lock of an interpolator, and of its pool -/

/-- The fields that show a lock. -/
def heldFields : List Field := [F.cala_locked, F.calc_locked]

/-- CALSET.locked of a pool shows whether any of its four is held (R132). -/
def poolShown (p : Nat) (s : State) : Prop := s.flag F.calc_locked p = (upTo (p * 4) 4).any fun k => s.flag F.cala_locked k

section
variable {ws : List Field} {n p : Nat} {s t : State}

/-- The register words have changed, the interpolators, and no other thing. -/
def onlyCal (s t : State) : Prop := t = { s with regs := t.regs, interps := t.interps }

theorem onlyCal.trans {u : State} (h : onlyCal s t) (h' : onlyCal t u) : onlyCal s u := by
  rw [onlyCal] at h h' ⊢
  rw [h] at h'
  exact h'

theorem onlyCal_setInterp (s : State) (n : Nat) (x : Interp) : onlyCal s (s.setInterp n x) := rfl

theorem putLocked_interp (s : State) (n : Nat) (b : Bool) (k : Nat) : (putLocked s n b).interp k = s.interp k := by
  unfold putLocked
  dsimp only
  exact iteInduction (motive := fun t : State => t.interp k = s.interp k) (fun _ => State.put_interp ..) fun _ => (State.put_interp ..).trans (State.put_interp ..)

theorem onlyCal_put (s : State) (f : Field) (i v : Nat) : onlyCal s (s.put f i v) := by
  obtain ⟨r, e⟩ := s.put_frame f i v
  rw [onlyCal, e]

theorem onlyCal_putLocked (s : State) (n : Nat) (b : Bool) : onlyCal s (putLocked s n b) := by
  unfold putLocked
  dsimp only
  exact iteInduction (fun _ => onlyCal_put ..) fun _ => (onlyCal_put ..).trans (onlyCal_put ..)

/-- A field of CALSET. -/
theorem CalMoves.putSet (s : State) {f : Field} {i : Nat} (v : Nat) (hi : i < 2 ^ 24) (mem : f ∈ ws) (hf : f.obj = 10) (sel : f.sel < 256) : CalMoves ws n s (s.put f i v) where
  pool := poolKeeps_put s f i v
  others k _ := State.put_interp s f i v k
  fields g j hj hg := by
    simp only [besides, Bool.and_eq_true, List.all_eq_true] at hg
    obtain ⟨cal, away⟩ := hg.2 f mem
    exact State.get_put_besides s v cal hg.1 away hi hj
  elsewhere g k hk hg obj _ := State.get_put_ne s f g i k v fun same => by
    obtain ⟨-, -, -, sel'⟩ := g.isCal_iff.mp hg
    obtain ⟨object, -, -⟩ := wkey_inj sel' hk sel hi same
    omega

theorem calMoves_putLocked (s : State) (hn : n < 1536) (b : Bool) : CalMoves heldFields n s (putLocked s n b) := by
  unfold putLocked
  dsimp only
  exact iteInduction (fun _ => .put s _ hn (by decide) rfl) fun _ => (CalMoves.put s _ hn (by decide) rfl).trans (.putSet _ _ (by omega) (by decide) rfl (by decide))

/-- A flag that has been written. -/
theorem State.flag_put_b2n (s : State) (f : Field) (i : Nat) (b : Bool) (h1 : f.lo ≤ f.hi) (h2 : f.hi < 64) : (s.put f i (b2n b)).flag f i = b := by
  have small : b2n b < 2 ^ (f.hi - f.lo + 1) := (b2n_lt_two b).trans_le (Nat.pow_le_pow_right (n := 2) (by decide) (show 1 ≤ f.hi - f.lo + 1 by omega))
  rw [State.flag, State.get_put_self s f i _ h1 h2, Nat.mod_eq_of_lt small]
  cases b <;> rfl

theorem State.flag_congr {g : Field} {i : Nat} (h : t.get g i = s.get g i) : t.flag g i = s.flag g i := by rw [State.flag, h, State.flag]

theorem putLocked_flag (s : State) (hn : n < 1536) (b : Bool) : (putLocked s n b).flag F.cala_locked n = b := by
  unfold putLocked
  dsimp only
  refine iteInduction (motive := fun t : State => t.flag F.cala_locked n = b) (fun _ => State.flag_put_b2n s _ n b (by decide) (by decide)) fun _ => ?_
  exact (State.flag_congr (State.get_put_besides _ _ (by decide) (by decide) (by decide) (by omega) (by omega))).trans (State.flag_put_b2n s _ n b (by decide) (by decide))

/-- The four of a pool, whichever of them comes first. -/
theorem any_pool (hn : n < 512) (f : Nat → Bool) : ((n :: poolMates n).any f) = (upTo (n / 4 * 4) 4).any f := by
  have precision : isLaneInterp n = false := decide_eq_false (Nat.not_le.mpr hn)
  have here : n ∈ upTo (n / 4 * 4) 4 := mem_upTo.mpr (by omega)
  have same : ∀ k, k ∈ n :: poolMates n ↔ k ∈ upTo (n / 4 * 4) 4 := fun k => by
    rw [poolMates, precision, if_neg (by decide), List.mem_cons, List.mem_filter, decide_eq_true_eq]
    by_cases e : k = n
    · subst e
      exact ⟨fun _ => here, fun _ => .inl rfl⟩
    · exact ⟨fun h => (h.resolve_left e).1, fun h => .inr ⟨h, e⟩⟩
  rw [Bool.eq_iff_iff, List.any_eq_true, List.any_eq_true]
  exact exists_congr fun k => and_congr_left fun _ => same k

theorem poolShown_congr (locks : ∀ k ∈ upTo (p * 4) 4, t.flag F.cala_locked k = s.flag F.cala_locked k) (pool : t.flag F.calc_locked p = s.flag F.calc_locked p)
    (h : poolShown p s) : poolShown p t := by
  have any : ((upTo (p * 4) 4).any fun k => t.flag F.cala_locked k) = (upTo (p * 4) 4).any fun k => s.flag F.cala_locked k := by
    rw [Bool.eq_iff_iff, List.any_eq_true, List.any_eq_true]
    exact exists_congr fun k => and_congr_right fun hk => by rw [locks k hk]
  rw [poolShown, pool, any]
  exact h

/-- A lock or its release shows in the pool. -/
theorem putLocked_shows (hn : n < 512) (s : State) (b : Bool) : poolShown (n / 4) (putLocked s n b) := by
  have precision : isLaneInterp n = false := decide_eq_false (Nat.not_le.mpr hn)
  unfold putLocked
  dsimp only
  rw [if_neg (by rw [precision]; decide), any_pool hn, poolShown, State.flag_put_b2n _ _ _ _ (by decide) (by decide), Bool.eq_iff_iff, List.any_eq_true, List.any_eq_true]
  refine exists_congr fun k => and_congr_right fun hk => ?_
  have := mem_upTo.mp hk
  exact Iff.of_eq (congrArg (· = true) (State.flag_congr (State.get_put_besides _ _ (by decide) (by decide) (by decide) (by omega) (by omega))).symm)

/-- It shows in no other pool. -/
theorem putLocked_keeps (hn : n < 1536) (hp : p < 128) (b : Bool) (h : poolShown p s) : poolShown p (putLocked s n b) := by
  by_cases here : n < 512 ∧ n / 4 = p
  · obtain ⟨precision, rfl⟩ := here
    exact putLocked_shows precision s b
  · have moves := calMoves_putLocked s hn b
    refine poolShown_congr (fun k hk => ?_) ?_ h
    · have inside := mem_upTo.mp hk
      exact State.flag_congr (moves.elsewhere _ k (by omega) (by decide) rfl (by omega))
    · unfold putLocked
      dsimp only
      have own : ∀ v, (s.put F.cala_locked n v).flag F.calc_locked p = s.flag F.calc_locked p := fun v =>
        State.flag_congr (State.get_put_besides _ _ (by decide) (by decide) (by decide) (by omega) (by omega))
      refine iteInduction (motive := fun t : State => t.flag F.calc_locked p = s.flag F.calc_locked p) (fun _ => own _) fun lane => ?_
      have far : n < 512 := by simpa [isLaneInterp] using lane
      refine (State.flag_congr (State.get_put_ne _ F.calc_locked F.calc_locked _ _ _ fun same => ?_)).trans (own _)
      obtain ⟨-, -, index⟩ := wkey_inj (by decide) (by omega) (by decide) (by omega) same
      omega

/-- What moves other fields leaves what the pools show. -/
theorem CalMoves.poolShown (h : CalMoves ws n s t) (hp : p < 128) (own : besides ws F.cala_locked = true) (set : besides ws F.calc_locked = true) (shown : poolShown p s) :
    poolShown p t :=
  poolShown_congr (fun k hk => h.flag (by have := (mem_upTo.mp hk).2; omega) own) (h.flag (by omega) set) shown

/-- A pool that the step of each of its targets shows is shown once all have had theirs. -/
theorem poolShown_foldl {f : State → Nat → State} {l : List Nat} (keeps : ∀ s, ∀ k ∈ l, Machine.poolShown p s → Machine.poolShown p (f s k))
    (shows : ∀ s, Machine.poolShown p (f s n)) (mem : n ∈ l) (s : State) : Machine.poolShown p (l.foldl f s) := by
  have later : ∀ l' : List Nat, (∀ k ∈ l', k ∈ l) → ∀ s, Machine.poolShown p s → Machine.poolShown p (l'.foldl f s) := by
    intro l'
    induction l' with
    | nil => exact fun _ _ h => h
    | cons k rest ih => exact fun sub s h => ih (fun j hj => sub j (List.mem_cons_of_mem k hj)) _ (keeps s k (sub k List.mem_cons_self) h)
  obtain ⟨before, after, rfl⟩ := List.append_of_mem mem
  rw [List.foldl_append, List.foldl_cons]
  exact later after (fun k hk => by simp [hk]) _ (shows _)

end

/-! ### CAL_LOCK -/

section
variable {n : Nat} {s : State} {c : Cmd}

/-- What a lock makes of an interpolator: beside the lock, a table that waits in TRACK is held. -/
theorem calHold_cases (s : State) (n : Nat) : (calHold s n = putLocked s n true ∧ ∀ y, (s.interp n).waiting = some y → (putLocked s n true).get F.cala_state n ≠ 3) ∨
    ∃ y : BinTable, calHold s n = (putLocked s n true).setInterp n { s.interp n with waiting := some { y with held := true } } := by
  unfold calHold
  extract_lets u x
  have own : u.interp n = s.interp n := putLocked_interp ..
  cases waits : (u.interp n).waiting with
  | none => exact .inl ⟨rfl, fun y some => absurd (waits.symm.trans ((congrArg Interp.waiting own).trans some)) (Option.some_ne_none y).symm⟩
  | some y =>
    dsimp only
    by_cases track : u.get F.cala_state n = 3
    · rw [if_pos track]
      exact .inr ⟨y, by simp only [x, own]; rfl⟩
    · exact .inl ⟨if_neg track, fun _ _ => track⟩

theorem calMoves_calHold (s : State) (hn : n < 1536) : CalMoves heldFields n s (calHold s n) := by
  rcases calHold_cases s n with ⟨e, -⟩ | ⟨y, e⟩ <;> rw [e]
  · exact calMoves_putLocked s hn true
  · exact (calMoves_putLocked s hn true).trans (.setInterp ..)

theorem onlyCal_calHold (s : State) (n : Nat) : onlyCal s (calHold s n) := by
  rcases calHold_cases s n with ⟨e, -⟩ | ⟨y, e⟩ <;> rw [e]
  · exact onlyCal_putLocked ..
  · exact (onlyCal_putLocked ..).trans (onlyCal_setInterp ..)

/-- The words are those of the lock alone. -/
theorem calHold_regs (s : State) (n : Nat) : (calHold s n).regs = (putLocked s n true).regs := by
  rcases calHold_cases s n with ⟨e, -⟩ | ⟨y, e⟩ <;> rw [e]
  rfl

theorem calHold_holds (hn : n < 1536) (s : State) : (calHold s n).flag F.cala_locked n = true ∧ ((calHold s n).interp n).inForce = (s.interp n).inForce ∧
    ∀ y, ((calHold s n).interp n).waiting = some y → (calHold s n).get F.cala_state n = 3 → y.held = true := by
  rcases calHold_cases s n with ⟨e, elsewhere⟩ | ⟨y, e⟩ <;> rw [e]
  · rw [putLocked_interp]
    exact ⟨putLocked_flag s hn true, rfl, fun y waits track => absurd track (elsewhere y waits)⟩
  · rw [State.interp_setInterp]
    refine ⟨putLocked_flag s hn true, rfl, fun z waits _ => ?_⟩
    rw [← Option.some.inj waits]

theorem poolShown_of_regs {p : Nat} {t : State} (regs : t.regs = s.regs) (h : poolShown p s) : poolShown p t := by
  have flag : ∀ g i, t.flag g i = s.flag g i := fun g i => State.flag_congr (by rw [State.get, State.word, regs, State.get, State.word])
  exact poolShown_congr (fun k _ => flag _ k) (flag _ p) h

theorem onlyCal_foldl {f : State → Nat → State} (h : ∀ s n, onlyCal s (f s n)) (l : List Nat) (s : State) : onlyCal s (l.foldl f s) := by
  induction l generalizing s with
  | nil => rfl
  | cons n rest ih => exact (h s n).trans (ih _)

/-- CAL_LOCK holds its targets. -/
theorem calLock_holds (target : calTargets s c 0x2A ≠ []) : ∃ v, ends (.calLock c) s c 0x2A v stOk 0 [] ∧
    (∀ n ∈ calTargets s c 0x2A, v.flag F.cala_locked n = true ∧ (v.interp n).inForce = ((advanceTo s c.tick).interp n).inForce ∧
      (∀ y, (v.interp n).waiting = some y → v.get F.cala_state n = 3 → y.held = true) ∧ (n < 512 → v.flag F.calc_locked (n / 4) = true)) ∧
    v = { advanceTo s c.tick with regs := v.regs, interps := v.interps } := by
  obtain ⟨bound, once⟩ := calTargets_wf target
  have run := runCal_eq target (single := false) nofun fun u ts => .done (ts.foldl calHold u) stOk 0 []
  refine ⟨(calTargets s c 0x2A).foldl calHold (advanceTo s c.tick), congrArg Host.Outcome.next run, fun n hn => ?_, onlyCal_foldl onlyCal_calHold ..⟩
  obtain ⟨u, ⟨before, -⟩, -, after, words⟩ := sameInterp_foldl_mem (f := calHold) (fun s k hk => calMoves_calHold s (bound k hk)) once (bound n hn) hn (advanceTo s c.tick)
  obtain ⟨locked, inForce, held⟩ := calHold_holds (bound n hn) u
  have flag : ((calTargets s c 0x2A).foldl calHold (advanceTo s c.tick)).flag F.cala_locked n = true := (State.flag_congr (words F.cala_locked (by decide) rfl)).trans locked
  refine ⟨flag, ?_, ?_, fun precision => ?_⟩
  · rw [after, inForce, before]
  · rw [after, words F.cala_state (by decide) rfl]
    exact held
  · have shown := poolShown_foldl (p := n / 4) (f := calHold) (fun u k hk h => poolShown_of_regs (calHold_regs u k) (putLocked_keeps (bound k hk) (by omega) true h))
      (fun u => poolShown_of_regs (calHold_regs u n) (putLocked_shows precision u true)) hn (advanceTo s c.tick)
    exact shown.trans (List.any_eq_true.mpr ⟨n, mem_upTo.mpr (by omega), flag⟩)

/-! ### Its release -/

/-- An interpolator let go, before it is looked at whether it goes ASIDE: a table that was held waits for the next boundary. -/
theorem calRelease_eq (s : State) (n : Nat) : ∃ u, calRelease s n = asideTry u n ∧
    ((u = putLocked s n false ∧ ∀ y, (s.interp n).waiting = some y → y.held = false) ∨
      ∃ y full, (s.interp n).waiting = some y ∧ u = (putLocked s n false).setInterp n { s.interp n with waiting := some { y with held := false, full := full } }) := by
  unfold calRelease
  extract_lets u x
  have own : u.interp n = s.interp n := putLocked_interp ..
  rw [← own]
  cases waits : (u.interp n).waiting with
  | none => exact ⟨u, rfl, .inl ⟨rfl, fun y some => absurd some (Option.some_ne_none y).symm⟩⟩
  | some y =>
    dsimp only
    by_cases held : y.held = true
    · refine ⟨u.setInterp n { u.interp n with waiting := some { y with held := false, full := nextBoundary u.full } }, by rw [if_pos held], ?_⟩
      exact .inr ⟨y, nextBoundary u.full, rfl, by rw [own]⟩
    · refine ⟨_, by rw [if_neg held], .inl ⟨rfl, fun z some => ?_⟩⟩
      rw [← Option.some.inj some]
      exact Bool.eq_false_iff.mpr held

/-- An interpolator that is let go: its lock is gone, and no table of it is held. -/
structure LetGo (n : Nat) (s u : State) : Prop where
  moves : CalMoves heldFields n s u
  only : onlyCal s u
  regs : u.regs = (putLocked s n false).regs
  inForce : (u.interp n).inForce = (s.interp n).inForce
  need : (u.interp n).need = (s.interp n).need
  none : (s.interp n).waiting = none → (u.interp n).waiting = none
  free : ∀ y, (u.interp n).waiting = some y → y.held = false

theorem calRelease_letsGo (hn : n < 1536) (s : State) : ∃ u, calRelease s n = asideTry u n ∧ LetGo n s u := by
  obtain ⟨u, e, ⟨rfl, free⟩ | ⟨y, full, waits, rfl⟩⟩ := calRelease_eq s n
  · have own : (putLocked s n false).interp n = s.interp n := putLocked_interp ..
    exact ⟨_, e, calMoves_putLocked s hn false, onlyCal_putLocked .., rfl, by rw [own], by rw [own], fun none => by rw [own, none], by rw [own]; exact free⟩
  · have own := State.interp_setInterp (putLocked s n false) n { s.interp n with waiting := some { y with held := false, full := full } }
    refine ⟨_, e, (calMoves_putLocked s hn false).trans (.setInterp ..), (onlyCal_putLocked ..).trans (onlyCal_setInterp ..), rfl, by rw [own], by rw [own],
      fun none => absurd (none.symm.trans waits) (Option.some_ne_none y).symm, fun z some => ?_⟩
    rw [own] at some
    rw [← Option.some.inj some]

/-- The fields that the release of a lock may write. -/
def releaseFields : List Field := heldFields ++ asideFields

theorem calMoves_calRelease (s : State) (hn : n < 1536) : CalMoves releaseFields n s (calRelease s n) := by
  obtain ⟨u, e, go⟩ := calRelease_letsGo hn s
  rw [e]
  exact (go.moves.mono (by decide)).trans ((calMoves_asideTry u hn).mono (by decide))

theorem calRelease_frees (hn : n < 1536) (s : State) : (calRelease s n).flag F.cala_locked n = false ∧ ((calRelease s n).interp n).inForce = (s.interp n).inForce ∧
    ((s.interp n).waiting = none → ((calRelease s n).interp n).waiting = none) ∧ ∀ y, ((calRelease s n).interp n).waiting = some y → y.held = false := by
  obtain ⟨u, e, go⟩ := calRelease_letsGo hn s
  have kept := asideTry_tablesKept u n
  rw [e, (calMoves_asideTry u hn).flag (by omega) (by decide)]
  refine ⟨(State.flag_congr (by rw [State.get, State.word, go.regs, State.get, State.word])).trans (putLocked_flag s hn false), kept.inForce.trans go.inForce, fun none => ?_, fun y some => ?_⟩
  · exact kept.waiting.elim (fun same => same.trans (go.none none)) id
  · exact kept.waiting.elim (fun same => go.free y (same.symm.trans some)) fun none => absurd (none.symm.trans some) (Option.some_ne_none y).symm

theorem calRelease_keepsShown {p : Nat} (hn : n < 1536) (hp : p < 128) (h : poolShown p (putLocked s n false)) : poolShown p (calRelease s n) := by
  obtain ⟨u, e, go⟩ := calRelease_letsGo hn s
  rw [e]
  exact (calMoves_asideTry u hn).poolShown hp (by decide) (by decide) (poolShown_of_regs go.regs h)

/-- Interpolators of which none waits for a correction are let go without any other effect. -/
theorem onlyCal_releases {l : List Nat} (bound : ∀ n ∈ l, n < 1536) (once : l.Nodup) (s : State) (settled : ∀ n ∈ l, (s.interp n).need = none) :
    onlyCal s (l.foldl calRelease s) := by
  induction l generalizing s with
  | nil => rfl
  | cons n rest ih =>
    obtain ⟨fresh, once'⟩ := List.nodup_cons.mp once
    obtain ⟨u, e, go⟩ := calRelease_letsGo (bound n List.mem_cons_self) s
    rw [asideTry_idle (go.need.trans (settled n List.mem_cons_self))] at e
    rw [List.foldl_cons, e]
    refine go.only.trans (ih (fun k hk => bound k (List.mem_cons_of_mem n hk)) once' u fun k hk => ?_)
    rw [go.moves.others k fun same => fresh (same ▸ hk)]
    exact settled k (List.mem_cons_of_mem n hk)

/-- CAL_LOCK's release lets its targets go. -/
theorem calLockRelease_frees (target : calTargets s c 0x2A ≠ []) : ∃ v, ends (.calLockRelease c) s c 0x2A v stOk 0 [] ∧
    (∀ n ∈ calTargets s c 0x2A, v.flag F.cala_locked n = false ∧ (v.interp n).inForce = ((advanceTo s c.tick).interp n).inForce ∧
      (((advanceTo s c.tick).interp n).waiting = none → (v.interp n).waiting = none) ∧ (∀ y, (v.interp n).waiting = some y → y.held = false) ∧
      (n < 512 → v.flag F.calc_locked (n / 4) = (upTo (n / 4 * 4) 4).any fun k => v.flag F.cala_locked k)) ∧
    ((∀ n ∈ calTargets s c 0x2A, ((advanceTo s c.tick).interp n).need = none) → v = { advanceTo s c.tick with regs := v.regs, interps := v.interps }) := by
  obtain ⟨bound, once⟩ := calTargets_wf target
  have run := runCal_eq target (single := false) nofun fun u ts => .done (ts.foldl calRelease u) stOk 0 []
  refine ⟨(calTargets s c 0x2A).foldl calRelease (advanceTo s c.tick), congrArg Host.Outcome.next run, fun n hn => ?_, onlyCal_releases bound once _⟩
  obtain ⟨u, ⟨before, -⟩, -, after, words⟩ := sameInterp_foldl_mem (f := calRelease) (fun s k hk => calMoves_calRelease s (bound k hk)) once (bound n hn) hn (advanceTo s c.tick)
  obtain ⟨locked, inForce, none, free⟩ := calRelease_frees (bound n hn) u
  rw [before] at inForce none
  rw [after]
  refine ⟨(State.flag_congr (words F.cala_locked (by decide) rfl)).trans locked, inForce, none, free, fun precision => ?_⟩
  exact poolShown_foldl (p := n / 4) (f := calRelease) (fun u k hk h => calRelease_keepsShown (bound k hk) (by omega) (putLocked_keeps (bound k hk) (by omega) false h))
    (fun u => calRelease_keepsShown (bound n hn) (by omega) (putLocked_shows precision u false)) hn (advanceTo s c.tick)

end

end Sys2Proof.Machine
end

section
/-! PROOF. CAL_TABLE_READ, and the statement of the calibration commands (R128 to R133). -/

namespace Sys2Proof.Machine

open Sys2Proof.Claims

/-! ### The words of a table -/

/-- A word of four entries holds each in its place. -/
theorem bits_entryWord (a b c d : Nat) :
    bits (pack [(63, 48, d), (47, 32, c), (31, 16, b), (15, 0, a)]) 15 0 = a % 65536 ∧ bits (pack [(63, 48, d), (47, 32, c), (31, 16, b), (15, 0, a)]) 31 16 = b % 65536 ∧
    bits (pack [(63, 48, d), (47, 32, c), (31, 16, b), (15, 0, a)]) 47 32 = c % 65536 ∧ bits (pack [(63, 48, d), (47, 32, c), (31, 16, b), (15, 0, a)]) 63 48 = d % 65536 := by
  simp [pack, bits_setBits_self, bits_setBits_apart]

/-- Entry `k` lies in word `k / 4`. -/
theorem entryWords_holds {es : List Nat} {m : Nat} (whole : es.length = 4 * m) : (entryWords es).length = m ∧
    ∀ k e, es[k]? = some e → ∃ w, (entryWords es)[k / 4]? = some w ∧ bits w (16 * (k % 4) + 15) (16 * (k % 4)) = e % 65536 := by
  induction m generalizing es with
  | zero =>
    obtain rfl := List.length_eq_zero_iff.mp whole
    exact ⟨rfl, fun k e h => absurd h (by simp)⟩
  | succ m ih =>
    match es, whole with
    | a :: b :: c :: d :: rest, whole =>
      obtain ⟨count, holds⟩ := ih (es := rest) (by simp only [List.length_cons] at whole; omega)
      obtain ⟨first, second, third, fourth⟩ := bits_entryWord a b c d
      refine ⟨by rw [entryWords, List.length_cons, count], fun k e h => ?_⟩
      match k with
      | 0 => exact ⟨_, rfl, Option.some.inj h ▸ first⟩
      | 1 => exact ⟨_, rfl, Option.some.inj h ▸ second⟩
      | 2 => exact ⟨_, rfl, Option.some.inj h ▸ third⟩
      | 3 => exact ⟨_, rfl, Option.some.inj h ▸ fourth⟩
      | k + 4 =>
        obtain ⟨w, place, value⟩ := holds k e h
        rw [Nat.add_div_right k (by decide), Nat.add_mod_right]
        exact ⟨w, place, value⟩

/-- The first word names the interpolator and its calibration state (R133). -/
theorem bits_tableHead (lane number state : Nat) (kind : lane < 2) (small : number < 1024) (code : state < 8) :
    bits (pack [(63, 63, lane), (62, 53, number), (52, 50, state)]) 63 63 = lane ∧ bits (pack [(63, 63, lane), (62, 53, number), (52, 50, state)]) 62 53 = number ∧
    bits (pack [(63, 63, lane), (62, 53, number), (52, 50, state)]) 52 50 = state ∧ bits (pack [(63, 63, lane), (62, 53, number), (52, 50, state)]) 49 0 = 0 := by
  simp [pack, bits_setBits_self, bits_setBits_apart, bits_zero, Nat.mod_eq_of_lt kind, Nat.mod_eq_of_lt small, Nat.mod_eq_of_lt code]

/-- The kind of a scope tells a lane interpolator in its middle bit. -/
theorem bits_scopeLane (w : Word) : bits w 62 62 = bits w 63 61 / 2 % 2 := by
  apply Nat.eq_of_testBit_eq
  intro i
  rw [testBit_bits (by decide) (by decide), show (2 : Nat) = 2 ^ 1 from rfl, Nat.testBit_mod_two_pow, Nat.testBit_div_two_pow, testBit_bits (by decide) (by decide)]
  by_cases low : i = 0
  · subst low
    rfl
  · simp [low]

section
variable {s : State} {c : Cmd} {n op : Nat}

/-- A single target is the interpolator that the scope names. -/
theorem calTarget_single (one : calTargets s c op = [n]) (single : bits (c.par 0) 63 61 = 0 ∨ bits (c.par 0) 63 61 = 6) :
    b2n (isLaneInterp n) = bits (c.par 0) 62 62 ∧ (if isLaneInterp n then n - 512 else n) = bits (c.par 0) 57 48 := by
  have target : calTargets s c op ≠ [] := by rw [one]; exact List.cons_ne_nil _ _
  obtain ⟨ts, h⟩ := calScope_of_target target
  have mem : n ∈ ts := List.mem_of_mem_filter (h.powered ▸ one ▸ List.mem_singleton_self n)
  have scope := h.scope
  rw [bits_scopeLane]
  rcases single with kind | kind
  · rw [kind] at scope ⊢
    obtain ⟨bound, e⟩ := Option.ite_none_right_eq_some.mp scope
    obtain rfl : n = bits (c.par 0) 57 48 := List.mem_singleton.mp (Option.some.inj e ▸ mem)
    have precision : isLaneInterp (bits (c.par 0) 57 48) = false := decide_eq_false (Nat.not_le.mpr bound)
    rw [precision]
    exact ⟨rfl, rfl⟩
  · rw [kind] at scope ⊢
    obtain ⟨-, e⟩ := Option.ite_none_right_eq_some.mp scope
    obtain rfl : n = 512 + bits (c.par 0) 57 48 := List.mem_singleton.mp (Option.some.inj e ▸ mem)
    have lane : isLaneInterp (512 + bits (c.par 0) 57 48) = true := decide_eq_true (Nat.le_add_right ..)
    rw [lane]
    exact ⟨rfl, Nat.add_sub_cancel_left ..⟩

/-- A request for one of the two tables of its target is answered with the words of the table, or ST_NO_RESOURCE where there is none. -/
theorem calTableRead_eq (one : calTargets s c 0x2B = [n]) (single : bits (c.par 0) 63 61 = 0 ∨ bits (c.par 0) 63 61 = 6) (waiting : Bool) :
    (∀ y, (if waiting then ((advanceTo s c.tick).interp n).waiting else ((advanceTo s c.tick).interp n).inForce) = some y →
      runCmd 0x2B c (calTableRead waiting c) s = finish ((advanceTo s c.tick).satInc F.part3_accepted c.part 1) c 0x2B stOk 0
        (tableWords (advanceTo s c.tick) n y (if waiting then 0 else y.full))) ∧
    ((if waiting then ((advanceTo s c.tick).interp n).waiting else ((advanceTo s c.tick).interp n).inForce) = none →
      runCmd 0x2B c (calTableRead waiting c) s = finish (advanceTo s c.tick) c 0x2B stNoResource 0 []) := by
  have target : calTargets s c 0x2B ≠ [] := by rw [one]; exact List.cons_ne_nil _ _
  obtain ⟨ts, h⟩ := calScope_of_target target
  rw [runCmd_of_passes h.passed, calTableRead, calChecked_targets h target fun _ => single, one, List.headD_cons]
  dsimp only
  refine ⟨fun y table => ?_, fun none => ?_⟩
  · rw [table]
    rfl
  · rw [none]
    exact congrArg (fun t => finish t c 0x2B stNoResource 0 []) (if_neg (by decide))

/-- The words of a table, as CAL_TABLE_READ answers them (R133). -/
theorem tableWords_shows (one : calTargets s c op = [n]) (single : bits (c.par 0) 63 61 = 0 ∨ bits (c.par 0) 63 61 = 6) (u : State) {y : BinTable} (coarse : Nat)
    (whole : y.entries.length = 1024) : (tableWords u n y coarse).length = 258 ∧
      (∃ w, (tableWords u n y coarse)[0]? = some w ∧ bits w 63 63 = bits (c.par 0) 62 62 ∧ bits w 62 53 = bits (c.par 0) 57 48 ∧
        bits w 52 50 = u.get F.cala_state n ∧ bits w 49 0 = 0) ∧ (tableWords u n y coarse)[1]? = some (BitVec.ofNat 64 (coarse % 2 ^ 54)) ∧
      ∀ k e, y.entries[k]? = some e → ∃ w, (tableWords u n y coarse)[2 + k / 4]? = some w ∧ bits w (16 * (k % 4) + 15) (16 * (k % 4)) = e % 65536 := by
  obtain ⟨count, holds⟩ := entryWords_holds (m := 256) whole
  obtain ⟨lane, number⟩ := calTarget_single one single
  have head := bits_tableHead (bits (c.par 0) 62 62) (bits (c.par 0) 57 48) (u.get F.cala_state n) (bits_lt (by decide) (by decide)) (bits_lt (by decide) (by decide))
    (State.get_lt u F.cala_state n (by decide) (by decide))
  rw [tableWords, lane, number, pack_low 53 coarse (by decide)]
  refine ⟨by rw [List.length_cons, List.length_cons, count], ⟨_, rfl, head⟩, rfl, fun k e h => ?_⟩
  rw [Nat.add_comm 2, List.getElem?_cons_succ, List.getElem?_cons_succ]
  exact holds k e h

end

end Sys2Proof.Machine

namespace Sys2Proof

open Sys2Proof.Machine Sys2Proof.Claims

/-- Settles O37: each command is settled for its powered targets one after the other, and what one of them has done the others leave. That the powered targets of a
scope alone are acted on, and ST_NO_RESOURCE for want of a table in force, are the model's choices (log 34). -/
theorem calibrationCommands : Obligations.CalibrationCommands := by
  refine ⟨fun c s target => ⟨calStartSweep_opens target, calStartRecover_locks target⟩, ?_, fun c s target => ⟨calLock_holds target, calLockRelease_frees target⟩, ?_⟩
  · intro c ts s u w accepted scope fields several few inside
    refine ⟨_, calStatus_answers accepted scope fields several few inside, ?_, fun k n hk hn => ?_⟩
    · rw [length_flatMap_pair, List.length_take, List.length_drop]
      show 2 * min (bits w 7 0) (ts.length - bits w 31 21) = 2 * bits w 7 0
      omega
    · have place : ((ts.drop (bits w 31 21)).take (bits w 7 0))[k]? = some n := by rw [List.getElem?_take_of_lt hk, List.getElem?_drop, hn]
      obtain ⟨first, second⟩ := getElem?_flatMap_pair u.calWordA (u.word 0x21 1) place
      exact ⟨_, first, second, calWordA_bits u n⟩
  · intro c n s one single u shows
    obtain ⟨reads, none⟩ := calTableRead_eq one single false
    obtain ⟨readsWaiting, noneWaits⟩ := calTableRead_eq one single true
    refine ⟨fun y inForce whole => ⟨_, congrArg Host.Outcome.next (reads y inForce), tableWords_shows one single u y.full whole⟩,
      fun y waits whole => ⟨_, congrArg Host.Outcome.next (readsWaiting y waits), tableWords_shows one single u 0 whole⟩,
      fun h => congrArg Host.Outcome.next (none h), fun h => congrArg Host.Outcome.next (noneWaits h)⟩

end Sys2Proof
end

section
/-! PROOF. Three refuted statements about lanes (R145, R159, R171, R197): a state may hold a group of lanes of both roles, replies that wait on a lane that is not UP,
or a transaction of a partition number that the device does not have. -/

namespace Sys2Proof.Machine

open Sys2Proof.Claims

/-- Lane 8 in CAP_EXCH as the second member of the group of lane 7, which is host-facing where lane 8 is not. -/
def mixedRoles : State := (State.reset.put F.grp_member 8 1).put F.lsa_state 8 2

/-- A control block of type 0 on lane 8 counts no distrust event of that group, whose first lane is host-facing. -/
theorem mixedRoles_run :
    (match exec (.blockReceive 8 true false (some 0#64)) mixedRoles with
      | .next t => (t.group 7).distrust
      | _ => 1) = 0 := by
  decide +kernel

/-- LANE_RETRAIN of lane 0, come on lane 0. -/
def retrainCmd : Cmd := { tick := 0, lane := some 0, part := 0, tag := 0, resv := 0, params := [0#64] }

/-- A group that is UP by its words, with a reply that waits on its lane, which is in DOWN. -/
def strayReply : State :=
  let s := ((State.reset.put F.pwg_phase 0 6).put F.pws_pstate 0 3).put F.grp_run_valid 0 1
  s.setHlane 0 { HLane.init with replies := [{ part := 0, packets := [[0#64]], frees := false }] }

/-- The reply leaves ahead of the request. -/
theorem strayReply_run :
    (match exec (.laneRetrain retrainCmd) strayReply with
      | .next t => (noFill t.out).length
      | _ => 0) = 2 := by
  decide +kernel

/-- A write under way of a partition number for which a host queue's count of dropped records lies in the word of domain 0's state. -/
def strayTxn : Txn := { Txn.init with st := .outstanding, group := 8, op := 2, part := (wkey 13 1 0 - wkey 5 7 0) / 64 }

/-- Group 8 UP with that transaction, and domain 0 in STOPPING, where one more dropped record changes its state. -/
def strayOwner : State := ((State.reset.put F.grp_run_valid 8 1).setWord 13 1 0 0x9FFFFFFFFFFFFFFF#64).setTxn 0 strayTxn

/-- Every lane of die 0 stands in the span of its group. -/
theorem strayOwner_spans : (upTo 0 256).all (fun l => (strayOwner.span (strayOwner.groupOf l)).contains l) = true := by
  decide +kernel

/-- The transaction's EVENT is dropped and counted, domain 0 is off by that count, and the die raises no fault. -/
theorem strayOwner_run :
    (match exec (.lrefLoss 0) strayOwner with
      | .next t => t.flt.inflight.length
      | _ => 1) = 0 := by
  decide +kernel

end Sys2Proof.Machine

namespace Sys2Proof

open Sys2Proof.Machine Sys2Proof.Claims

/-- Refutes O38: its clause of LANE_RETRAIN lets the command come on a lane of the group that is not UP, and then nothing is to leave ahead of the request, but a state
may hold replies that wait on such a lane, and they leave with the command. A lane that leaves UP drops the replies that wait on it (R368), so the model's own steps lead
to no such state: the statement lacks that hypothesis. That the request leaves on the first lane of the run that is not retired is the model's choice (log 16), and so is
CAP_EXCH after a WIDTH for which there is no run (log 19); nothing here turns on either. -/
theorem not_laneCommands : ¬ Obligations.LaneCommands := by
  intro all
  obtain ⟨-, -, -, -, retrain, -, -⟩ := all retrainCmd 0 strayReply
  obtain ⟨-, sends⟩ := retrain (by decide +kernel) (by decide +kernel) (by decide +kernel)
  obtain ⟨t, pre, run, -, out, -, -, alone⟩ := sends (by decide +kernel) (by decide +kernel) (by decide +kernel)
  obtain ⟨quiet, -⟩ := alone 0 rfl rfl
  have one : (noFill t.out).length = 1 := by
    rw [out, quiet (by decide +kernel)]
    decide +kernel
  have two := strayReply_run
  rw [run] at two
  exact absurd (one.symm.trans two) (by decide)

/-- Refutes O40: its clause of LREF's loss takes transactions of any partition number, where the device has 64, and one of a number that places its queue's count of
dropped records in the word of domain 0's state switches that domain off as the loss ends it, so that the die's fault is not raised. The model's own steps start
transactions of partitions 0 to 63 alone: the statement lacks that hypothesis. When the blocks of CAP_EXCH leave (log 19) is in clauses on which nothing here turns. -/
theorem not_lanesDetectAndExchange : ¬ Obligations.LanesDetectAndExchange := by
  rintro ⟨-, -, -, -, -, loss⟩
  obtain ⟨lost, -⟩ := loss 0 strayOwner (by decide)
  have spans : ∀ l ∈ upTo (256 * 0) 256, l ∈ strayOwner.span (strayOwner.groupOf l) := by
    simpa only [List.all_eq_true, List.contains_iff_mem] using strayOwner_spans
  obtain ⟨t, run, -, -, fault⟩ := lost spans
  have raised := List.length_pos_of_mem (fault (by decide +kernel))
  have none := strayOwner_run
  rw [run] at none
  exact absurd none (Nat.ne_of_gt raised)

/-- Refutes O42: its clause of a control block that a partner may not send names the role of the lane, where the model counts distrust by the role of the group's first
lane, and a state may hold a group of lanes of both roles. LANE_GROUP CONFIG takes lanes of one role alone (R142, R168): the statement lacks that hypothesis. The first
valid block that gives lock and the blocks that an uncorrectable codeword marks (log 19), and the refusal of a reserved kind of request (log 17), are choices on which
nothing here turns. -/
theorem not_blocksRequestsRetirement : ¬ Obligations.BlocksRequestsRetirement := by
  rintro ⟨blocks, -⟩
  obtain ⟨-, foreign⟩ := blocks 8 true false (some 0#64) mixedRoles (by decide) (by decide +kernel) (by decide +kernel) (by decide +kernel)
    (by decide +kernel) (by decide +kernel)
  obtain ⟨t, run, counted⟩ := foreign (by decide +kernel) (by decide +kernel) (fun known => absurd (known 0#64 rfl) (by decide)) (by decide +kernel)
  have first : mixedRoles.groupOf 8 = 7 := by decide +kernel
  have uncounted := mixedRoles_run
  rw [run] at uncounted
  rw [first] at counted
  exact Nat.succ_ne_zero _ (counted.symm.trans uncounted)

end Sys2Proof
end

section
/-! PROOF. Frames that come on host-facing lanes (R136, R175, R355, R369). -/

namespace Sys2Proof.Machine

open Sys2Proof.Claims

/-- A block of the frame came with an invalid header, or an uncorrectable codeword has marked blocks of its lanes (R136). -/
def State.frameMarked (s : State) (g : Nat) : Bool := (s.group g).badBlock || (s.runLanes g).any fun l => decide (0 < (s.lane l).invalid)

theorem foldl_setLane_frame (f : State → Nat → LaneX) (ls : List Nat) (s : State) :
    ∃ m, ls.foldl (fun s l => s.setLane l (f s l)) s = { s with lanes := m } := by
  induction ls generalizing s with
  | nil => exact ⟨s.lanes, rfl⟩
  | cons l ls ih =>
    obtain ⟨m, e⟩ := ih (s.setLane l (f s l))
    exact ⟨m, e⟩

theorem frameBlocks_eq (s : State) (g : Nat) (f : Frame) :
    ∃ m k, frameBlocks s g f = ({ s with lanes := m, groups := k }, { f with blocksOk := f.blocksOk && !s.frameMarked g }) := by
  unfold frameBlocks
  dsimp only
  split
  · exact ⟨_, _, rfl⟩
  · obtain ⟨m, e⟩ := foldl_setLane_frame (fun t l => { t.lane l with invalid := (t.lane l).invalid - ceilDiv (f.words.length + 2) (max 1 (s.runLanes g).length) })
      (s.runLanes g) s
    rw [e]
    exact ⟨m, _, rfl⟩

theorem frameOk_marked (f : Frame) (kinds : List Nat) (bad : Bool) :
    frameOk { f with blocksOk := f.blocksOk && !bad } kinds = (frameOk f kinds && !bad) := by
  cases bad <;> simp [frameOk, frameCrcOk]

theorem kind_of_frameOk {f : Frame} {k : Nat} (h : frameOk f [k] = true) : f.kind = k := by
  simp only [frameOk, Bool.and_eq_true, List.contains_iff_mem, List.mem_singleton] at h
  exact h.1.1.2

/-- The number of an accepted frame is kept, and what is missing before it counts in one word alone. -/
theorem frameSeq_keeps (s : State) (g : Nat) (f : Frame) : ∃ r k, frameSeq s g f = { s with regs := r, groups := k } ∧
    ((frameSeq s g f).group g).rxSeq = some (f.seqStart % 65536) ∧ sameWords s (frameSeq s g f) [wkey 1 11 g] := by
  obtain ⟨d, e⟩ : ∃ d, frameSeq s g f =
      let t := (s.satInc F.ltsd_seq_gaps g (d - 1)).setGroup g { s.group g with rxSeq := some (f.seqStart % 65536) }
      if d = 1 then t else gapNote t g := ⟨_, rfl⟩
  have count := sameWords_put s F.ltsd_seq_gaps g (satAdd (F.ltsd_seq_gaps.hi - F.ltsd_seq_gaps.lo + 1) (s.get F.ltsd_seq_gaps g) (d - 1))
  rw [e]
  dsimp only
  split
  · exact ⟨_, _, rfl, by rw [State.group_setGroup], count⟩
  · refine ⟨_, _, rfl, ?_, count⟩
    rw [gapNote, State.group_setGroup, State.group_setGroup]

theorem boundNow_of_words {s t : State} (cmd : t.cmd = s.cmd) {p l : Nat} (w1 : t.word 12 1 p = s.word 12 1 p) (w2 : t.word 12 2 p = s.word 12 2 p) :
    t.boundNow p l = s.boundNow p l := by
  simp only [State.boundNow, State.bound, cmd, w1, w2]

theorem headD_take_max_one {α : Type} (ws : List α) (n : Nat) (d : α) : (ws.take (max 1 n)).headD d = ws.headD d := by
  obtain ⟨k, e⟩ : ∃ k, max 1 n = k + 1 := ⟨max 1 n - 1, by omega⟩
  cases ws with
  | nil => rw [List.take_nil]
  | cons w ws => rw [e, List.take_succ_cons]; rfl

/-- What a lane's buffer makes of a frame that R175 passes. -/
def frameBuffered (s : State) (lane : Nat) (f : Frame) : State :=
  let x := s.hlane lane
  if 4 ≤ x.rx.length then s.satInc F.lsc_cmd_drops lane 1
  else
    let ws := f.words.take (max 1 (ceilDiv (frameBytes f) 8))
    s.setHlane lane { x with rx := x.rx ++ [ws], heard := x.heard ++ [s.boundNow (bits (ws.headD 0#64) 55 48) lane] }

theorem hostFrame_accepted {s : State} {lane : Nat} {f : Frame} (good : frameOk f [6] = true) (unmarked : s.frameMarked (s.groupOf lane) = false) :
    ∃ m k, hostFrame s lane f = frameBuffered (frameSeq { s with lanes := m, groups := k } (s.groupOf lane) f) lane f := by
  obtain ⟨m, k, e⟩ := frameBlocks_eq s (s.groupOf lane) f
  refine ⟨m, k, ?_⟩
  rw [hostFrame, e, unmarked]
  simp only [good, Bool.not_false, Bool.and_true, Bool.not_true, Bool.false_eq_true, ↓reduceIte]
  rfl

theorem hostFrame_refused {s : State} {lane : Nat} {f : Frame} (bad : frameOk f [6] = false ∨ s.frameMarked (s.groupOf lane) = true) :
    ∃ m k, hostFrame s lane f = State.satInc { s with lanes := m, groups := k } F.ltsd_frames_bad (s.groupOf lane) 1 := by
  obtain ⟨m, k, e⟩ := frameBlocks_eq s (s.groupOf lane) f
  have refused : (frameOk f [6] && !s.frameMarked (s.groupOf lane)) = false := by
    rcases bad with h | h <;> simp [h]
  refine ⟨m, k, ?_⟩
  rw [hostFrame, e]
  simp only [frameOk_marked, refused, Bool.not_false, ↓reduceIte]

theorem frameBuffered_drops {s : State} {lane : Nat} (full : 4 ≤ (s.hlane lane).rx.length) (f : Frame) :
    frameBuffered s lane f = s.satInc F.lsc_cmd_drops lane 1 := if_pos full

theorem frameBuffered_keeps {s : State} {lane : Nat} (room : (s.hlane lane).rx.length < 4) (f : Frame) :
    frameBuffered s lane f = s.setHlane lane { s.hlane lane with
      rx := (s.hlane lane).rx ++ [f.words.take (max 1 ((frameBytes f + 7) / 8))]
      heard := (s.hlane lane).heard ++ [s.boundNow (bits (f.words.headD 0#64) 55 48) lane] } := by
  rw [frameBuffered, if_neg (by omega)]
  simp only [headD_take_max_one]
  rfl

end Sys2Proof.Machine

namespace Sys2Proof

open Sys2Proof.Machine Sys2Proof.Claims

/-- Settles O11: what a frame's blocks do to lanes and groups is taken apart from its checks, its number and the buffer, and each counts in its own word. -/
theorem commandFramesAreBuffered : Obligations.CommandFramesAreBuffered := by
  intro lane f s hl g kg marked
  have low : g ≤ lane := groupOf_le s lane
  have runs : s.host lane = true → s.laneUp lane = true → exec (.hostFrameReceive lane f) s = .next (hostFrame s lane f) :=
    fun host up => if_pos (by rw [host, up]; rfl)
  refine ⟨fun host up good unmarked => ?_, fun host up bad => ?_, fun off => ?_⟩
  · refine ⟨?_, ?_⟩
    · rw [runs host up]
      exact if_pos (by rw [host, up, kind_of_frameOk good]; rfl)
    obtain ⟨m, k, taken⟩ := hostFrame_accepted good unmarked
    obtain ⟨r, k', seq, rx, words⟩ := frameSeq_keeps { s with lanes := m, groups := k } g f
    refine ⟨_, runs host up, ?_, fun room => ?_, fun full => ?_⟩
    · rw [taken, frameBuffered]
      split
      · exact rx
      · exact rx
    · have bound : (frameSeq { s with lanes := m, groups := k } g f).boundNow (bits (f.words.headD 0#64) 55 48) lane =
          s.boundNow (bits (f.words.headD 0#64) 55 48) lane := by
        have small : bits (f.words.headD 0#64) 55 48 < 256 := bits_lt (by decide) (by decide)
        refine boundNow_of_words (by rw [seq]) (words _ ?_) (words _ ?_) <;> simp only [wkey, List.mem_singleton] <;> omega
      have held : (frameSeq { s with lanes := m, groups := k } g f).hlane lane = s.hlane lane := by rw [seq]; rfl
      rw [taken, frameBuffered_keeps (by rw [held]; exact room), State.hlane_setHlane, held, bound]
      exact ⟨rfl, rfl, words⟩
    · have held : (frameSeq { s with lanes := m, groups := k } g f).hlane lane = s.hlane lane := by rw [seq]; rfl
      have apart : wkey 1 3 lane ∉ [wkey 1 11 g] := by simp only [wkey, List.mem_singleton]; omega
      rw [taken, frameBuffered_drops (by rw [held]; exact full)]
      refine ⟨by rw [seq]; rfl, fun j hj => ?_, ?_⟩
      · obtain ⟨hg, hd⟩ := List.ne_and_not_mem_of_not_mem_cons hj
        exact (sameWords_put _ F.lsc_cmd_drops lane _ j hd).trans (words j fun h => hg (List.mem_singleton.mp h))
      · exact (satInc_get_self _ _ _ _ (by decide) (by decide)).trans (plus_congr (get_of_sameWords words F.lsc_cmd_drops lane apart) 1)
  · obtain ⟨m, k, e⟩ := hostFrame_refused bad
    rw [runs host up, e]
    exact ⟨_, rfl, rfl, satInc_get_self _ _ _ _ (by decide) (by decide), sameWords_put { s with lanes := m, groups := k } F.ltsd_frames_bad g _⟩
  · have off' : (s.host lane && s.laneUp lane) = false := by
      rcases off with h | h <;> simp [h]
    exact ⟨if_neg (by rw [off']; decide), if_neg (by rw [off']; simp)⟩

end Sys2Proof
end

section
/-! PROOF. The test of a lane (R163 to R166, R168). -/

namespace Sys2Proof.Machine

open Sys2Proof.Claims

/-! ### Register words left alone, step by step -/

section
variable {s t u : State} {ks : List Nat}

theorem sameWords_refl (s : State) (ks : List Nat) : sameWords s s ks := fun _ _ => rfl

theorem sameWords_then (h : sameWords s t ks) (h' : sameWords t u ks) : sameWords s u ks := fun k hk => (h' k hk).trans (h k hk)

theorem sameWords_mono {ls : List Nat} (h : sameWords s t ks) (sub : ∀ k ∈ ks, k ∈ ls) : sameWords s t ls := fun k hk => h k fun hk' => hk (sub k hk')

theorem sameWords_thenPut (h : sameWords s t ks) (f : Field) (i v : Nat) (hk : wkey f.obj f.sel i ∈ ks) : sameWords s (t.put f i v) ks :=
  sameWords_then h (sameWords_put_of_mem t f i v hk)

theorem sameWords_thenSatInc (h : sameWords s t ks) (f : Field) (i n : Nat) (hk : wkey f.obj f.sel i ∈ ks) : sameWords s (t.satInc f i n) ks :=
  sameWords_thenPut h f i _ hk

end

/-- Another word of the same lane, group or partition. -/
theorem State.word_put_otherWord (s : State) (f : Field) (o e i v : Nat) (h : o * 256 + e ≠ f.obj * 256 + f.sel) : (s.put f i v).word o e i = s.word o e i :=
  State.word_setWord_ne s _ fun q => h (Nat.eq_of_mul_eq_mul_right (by decide : 0 < 2 ^ 24) (Nat.add_right_cancel q))

/-- A field of another word of the same lane, group or partition. -/
theorem State.get_put_otherWord (s : State) (f g : Field) (i v : Nat) (h : g.obj * 256 + g.sel ≠ f.obj * 256 + f.sel) : (s.put f i v).get g i = s.get g i :=
  congrArg (bits · g.hi g.lo) (State.word_put_otherWord s f g.obj g.sel i v h)

/-! ### A command for a lane -/

/-- A command that its partition may give a lane is checked for the lane's domain last (R168). -/
theorem laneChecked_ok {s : State} {c : Cmd} {op l : Nat} (accepted : accepts s c op 1 = true) (ok : laneOk (advanceTo s c.tick) c l = true) (k : Nat → Result) :
    laneChecked c (advanceTo s c.tick) k = refuseIf (!(advanceTo s c.tick).domOn (laneDomain l)) stNoResource 0 (k l) := by
  obtain ⟨-, resv, one⟩ := (accepts_iff s c op 1).mp accepted
  simp only [laneOk, Bool.and_eq_true, decide_eq_true_eq] at ok
  obtain ⟨⟨⟨named, small⟩, owner⟩, inService⟩ := ok
  have lane : bits (BitVec.ofNat 64 l) 9 0 = l := by
    rw [bits_ofNat (by decide) (by decide), Nat.pow_zero, Nat.div_one]
    exact Nat.mod_eq_of_lt small
  have own : (decide (c.part ≠ 0) && ((advanceTo s c.tick).hostOf l || decide ((advanceTo s c.tick).ownerOf ((advanceTo s c.tick).groupOf l) ≠ c.part))) = false := by
    cases hp : decide (c.part = 0) with
    | true => simp only [ne_eq, decide_not, hp, Bool.not_true, Bool.false_and]
    | false =>
      simp only [hp, Bool.false_or, Bool.and_eq_true, Bool.not_eq_true', decide_eq_true_eq] at owner
      simp [owner.1, owner.2]
  rw [laneChecked, checked_eq c false 1 _ rfl resv one]
  simp only [named, lane]
  rw [refuseIf_false _ _ _ (stray_ofNat small (by decide)), noMore, refuseIf_false _ _ _ (by simp [one]), refuseIf_false _ _ _ own,
    refuseIf_false _ _ _ (decide_eq_false inService)]

section
variable {i : Instr} {s : State} {c : Cmd} {op l : Nat} {k : State → Nat → Result}

theorem laneCommand_off (arm : exec i s = .next (runCmd op c (fun u => laneChecked c u (k u)) s)) (accepted : accepts s c op 1 = true)
    (ok : laneOk (advanceTo s c.tick) c l = true) (off : (advanceTo s c.tick).domOn (laneDomain l) = false) :
    exec i s = .next (finish (advanceTo s c.tick) c op stNoResource 0 []) := by
  obtain ⟨passed, -, -⟩ := (accepts_iff s c op 1).mp accepted
  rw [arm, runCmd_of_passes passed, laneChecked_ok accepted ok, refuseIf_true _ _ _ (by rw [off]; rfl)]
  rfl

theorem laneCommand_on (arm : exec i s = .next (runCmd op c (fun u => laneChecked c u (k u)) s)) (accepted : accepts s c op 1 = true)
    (ok : laneOk (advanceTo s c.tick) c l = true) (on : (advanceTo s c.tick).domOn (laneDomain l) = true) :
    exec i s = .next (settle (advanceTo s c.tick) c op (k (advanceTo s c.tick) l)) := by
  obtain ⟨passed, -, -⟩ := (accepts_iff s c op 1).mp accepted
  rw [arm, runCmd_of_passes passed, laneChecked_ok accepted ok, refuseIf_false _ _ _ (by rw [on]; rfl)]

end

/-- A lane takes a state without an event, a fault or a consequence for its link. -/
theorem enterLane_quiet {s : State} {l st : Nat} (left : s.laneState l ≠ 5) (up : st ≠ 5) (faulty : st ≠ 9) :
    enterLane s l st = (s.put F.lsa_state l st).setLane l { s.lane l with enteredAt := s.tb.tick } := by
  simp only [enterLane, left, up, faulty, decide_false, Bool.or_self, Bool.and_false, Bool.false_and, Bool.false_eq_true, if_false]

theorem enterLane_setLane_quiet {s : State} {l st : Nat} (left : s.laneState l ≠ 5) (up : st ≠ 5) (faulty : st ≠ 9) (x : LaneX) :
    ∃ m, enterLane (s.setLane l x) l st = { s.put F.lsa_state l st with lanes := m } :=
  ⟨_, enterLane_quiet (s := s.setLane l x) left up faulty⟩

/-! ### The commands of a test -/

section
variable {s : State} {l : Nat}

/-- A test runs with its checker locked. -/
def State.checks (s : State) (l : Nat) : Prop := s.laneState l = 8 ∧ s.flag F.lta_locked l = true

/-- The words that a test of a lane shows, with the lane's state. -/
def testWords (l : Nat) : List Nat := [wkey 1 1 l, wkey 1 5 l, wkey 1 6 l]

/-- `t` is `s` with what the checker of the lane has compared counted. -/
def testCounted (l : Nat) (s t : State) : Prop := t = { s with regs := t.regs, lanes := t.lanes, freeCount := t.freeCount } ∧ sameWords s t (testWords l) ∧
  (¬ s.checks l → t.get F.ltb_bits_checked l = s.get F.ltb_bits_checked l ∧ t.get F.lta_bit_errors l = s.get F.lta_bit_errors l) ∧
  (s.checks l → t.get F.ltb_bits_checked l = plus s F.ltb_bits_checked l (s.bitsSinceLock l) ∧ t.bitsSinceLock l = 0 ∧
    ∃ e ≤ s.bitsSinceLock l, t.get F.lta_bit_errors l = plus s F.lta_bit_errors l e ∧ (s.flag F.ltest_loopback l = true → e = 0))

theorem testSettle_idle (idle : ¬ s.checks l) : testSettle s l = s := by
  refine if_neg fun h => idle ?_
  simpa only [State.checks, Bool.and_eq_true, decide_eq_true_eq] using h

theorem testSettle_running (runs : s.checks l) : ∃ e ≤ s.bitsSinceLock l, (s.flag F.ltest_loopback l = true → e = 0) ∧
    testSettle s l = { ((s.satInc F.ltb_bits_checked l (s.bitsSinceLock l)).satInc F.lta_bit_errors l e).setLane l { s.lane l with mkTick := s.tb.tick } with
      freeCount := s.freeCount + 1 } := by
  obtain ⟨test, locked⟩ := runs
  refine ⟨if s.flag F.ltest_loopback l then 0 else min (s.bitsSinceLock l) (Config.lineErrors s.freeCount), ?_, fun loop => if_pos loop, ?_⟩
  · split
    · exact Nat.zero_le _
    · exact Nat.min_le_left ..
  · rw [testSettle, if_pos (by simp [test, locked])]
    rfl

theorem testCounted_testSettle (s : State) (l : Nat) : testCounted l s (testSettle s l) := by
  by_cases runs : s.checks l
  · obtain ⟨e, most, loop, eq⟩ := testSettle_running runs
    rw [eq]
    refine ⟨rfl, ?_, fun idle => absurd runs idle, fun _ => ⟨?_, ?_, e, most, ?_, loop⟩⟩
    · exact sameWords_thenSatInc (sameWords_thenSatInc (sameWords_refl s _) F.ltb_bits_checked l _ (by simp [testWords, F.ltb_bits_checked]))
        F.lta_bit_errors l e (by simp [testWords, F.lta_bit_errors])
    · exact (State.get_put_otherWord (s.satInc F.ltb_bits_checked l _) F.lta_bit_errors F.ltb_bits_checked l _ (by decide)).trans
        (satInc_get_self s _ _ _ (by decide) (by decide))
    · simp [State.bitsSinceLock, State.lane, State.setLane, State.satInc]
    · exact (satInc_get_self (s.satInc F.ltb_bits_checked l _) _ _ _ (by decide) (by decide)).trans
        (plus_congr (State.get_put_otherWord s F.ltb_bits_checked F.lta_bit_errors l _ (by decide)) e)
  · rw [testSettle_idle runs]
    exact ⟨rfl, sameWords_refl s _, fun _ => ⟨rfl, rfl⟩, fun h => absurd h runs⟩

/-- What a test has counted stays counted when it ends. -/
theorem testCounted.stops {t : State} (h : testCounted l s t) (test : t.laneState l = 8) : testCounted l s (enterLane (t.put F.lta_locked l 0) l 0) := by
  obtain ⟨frame, words, idle, runs⟩ := h
  have inTest : (t.put F.lta_locked l 0).laneState l = 8 := (State.get_put_otherWord t F.lta_locked F.lsa_state l 0 (by decide)).trans test
  have quiet : enterLane (t.put F.lta_locked l 0) l 0 =
      ((t.put F.lta_locked l 0).put F.lsa_state l 0).setLane l { t.lane l with enteredAt := t.tb.tick } :=
    enterLane_quiet (by rw [inTest]; decide) (by decide) (by decide)
  have kept : ∀ f : Field, (f.lo ≤ f.hi ∧ f.hi < 64) → f.hi < 15 ∨ 15 < f.lo → f.obj = 1 → f.sel ≠ 1 → (enterLane (t.put F.lta_locked l 0) l 0).get f l = t.get f l := by
    intro f wf apart obj sel
    rw [quiet, State.setLane_get, State.get_put_otherWord _ _ _ _ _ (by simp only [F.lsa_state]; omega)]
    exact State.get_put_disjoint t F.lta_locked f l l 0 (by decide) wf apart.symm
  have since : (enterLane (t.put F.lta_locked l 0) l 0).bitsSinceLock l = t.bitsSinceLock l := by
    rw [State.bitsSinceLock, kept F.ltest_test_rate (by decide) (by decide) rfl (by decide), quiet, State.lane_setLane]
    rfl
  have bits := kept F.ltb_bits_checked (by decide) (by decide) rfl (by decide)
  have errors := kept F.lta_bit_errors (by decide) (by decide) rfl (by decide)
  refine ⟨?_, ?_, by rw [bits, errors]; exact idle, by rw [since, bits, errors]; exact runs⟩
  · rw [quiet, frame]
    rfl
  · rw [quiet]
    exact sameWords_thenPut (sameWords_thenPut words F.lta_locked l 0 (by simp [testWords, F.lta_locked])) F.lsa_state l 0 (by simp [testWords, F.lsa_state])

theorem testSettle_laneState (s : State) (l : Nat) : (testSettle s l).laneState l = s.laneState l := by
  by_cases runs : s.checks l
  · obtain ⟨e, -, -, eq⟩ := testSettle_running runs
    rw [eq]
    exact (State.get_put_otherWord (s.satInc F.ltb_bits_checked l _) F.lta_bit_errors F.lsa_state l _ (by decide)).trans
      (State.get_put_otherWord s F.ltb_bits_checked F.lsa_state l _ (by decide))
  · rw [testSettle_idle runs]

/-- The status words of a lane's test at its start: one injection has been counted in once mode. -/
def testCleared (s : State) (l : Nat) : State :=
  ((s.setWord 1 5 l 0#64).setWord 1 6 l 0#64).put F.ltb_injections l (b2n (s.get F.ltest_inject l = 1 || s.get F.ltest_inject l = 3))

/-- LANE_TEST stop of a lane in TEST. -/
def testStopped (s : State) (l : Nat) : State := enterLane ((testSettle s l).put F.lta_locked l 0) l 0

theorem testStopped_shows (test : s.laneState l = 8) :
    testCounted l s (testStopped s l) ∧ (testStopped s l).laneState l = 0 ∧ (testStopped s l).flag F.lta_locked l = false := by
  have inTest := (testSettle_laneState s l).trans test
  have left : ((testSettle s l).put F.lta_locked l 0).laneState l = 8 :=
    (State.get_put_otherWord (testSettle s l) F.lta_locked F.lsa_state l 0 (by decide)).trans inTest
  have unlocked : ((testSettle s l).put F.lta_locked l 0).get F.lta_locked l = 0 := State.get_put_self _ _ _ _ (by decide) (by decide)
  refine ⟨(testCounted_testSettle s l).stops inTest, ?_⟩
  rw [testStopped, enterLane_quiet (by rw [left]; decide) (by decide) (by decide), State.laneState, State.flag, State.setLane_get, State.setLane_get,
    State.get_put_self _ _ _ _ (by decide) (by decide), State.get_put_otherWord _ _ _ _ _ (by decide), unlocked]
  exact ⟨rfl, rfl⟩

/-- LANE_TEST start on a lane in DOWN. -/
def testStarted (s : State) (l : Nat) : State :=
  enterLane ((testCleared s l).setLane l { s.lane l with testAt := s.tb.tick, injected := 0 }) l 8

theorem testCleared_words (s : State) (l : Nat) : sameWords s (testCleared s l) [wkey 1 5 l, wkey 1 6 l] := by
  refine sameWords_thenPut (fun k hk => ?_) F.ltb_injections l _ (by simp [F.ltb_injections])
  simp only [List.mem_cons, List.not_mem_nil, or_false, not_or] at hk
  exact (sameWords_setWord _ _ _ _ _ k (by simpa using hk.2)).trans (sameWords_setWord _ _ _ _ _ k (by simpa using hk.1))

theorem testCleared_frame (s : State) (l : Nat) : ∃ r, testCleared s l = { s with regs := r } := by
  obtain ⟨r1, e1⟩ := s.setWord_frame 1 5 l 0#64
  obtain ⟨r2, e2⟩ := State.setWord_frame { s with regs := r1 } 1 6 l 0#64
  rw [testCleared, e1, e2]
  exact State.put_frame { s with regs := r2 } F.ltb_injections l _

theorem testCleared_statusA (s : State) (l : Nat) : (testCleared s l).word 1 5 l = 0#64 := by
  rw [testCleared, State.word_put_otherWord _ _ _ _ _ _ (by decide), State.word_setWord_ne _ _ (by simp only [wkey]; omega), State.word_setWord]

theorem testCleared_checked (s : State) (l : Nat) : (testCleared s l).get F.ltb_bits_checked l = 0 := by
  rw [testCleared, State.get_put_disjoint _ _ _ _ _ _ (by decide) (by decide) (by decide)]
  exact (congrArg (bits · 63 16) (State.word_setWord ..)).trans (bits_zero 63 16)

theorem testCleared_injections (s : State) (l : Nat) :
    (testCleared s l).get F.ltb_injections l = (if s.get F.ltest_inject l = 1 ∨ s.get F.ltest_inject l = 3 then 1 else 0) := by
  rw [testCleared, State.get_put_self _ _ _ _ (by decide) (by decide)]
  by_cases h : s.get F.ltest_inject l = 1 ∨ s.get F.ltest_inject l = 3
  · simp [h, b2n]
  · simp [not_or.mp h, b2n]

theorem testStarted_eq (down : s.laneState l = 0) : ∃ m, testStarted s l = { (testCleared s l).put F.lsa_state l 8 with lanes := m } := by
  have state : (testCleared s l).laneState l = 0 := by
    rw [← down]
    exact get_of_sameWords (testCleared_words s l) F.lsa_state l (by simp [wkey, F.lsa_state])
  exact enterLane_setLane_quiet (by rw [state]; decide) (by decide) (by decide) _

theorem testStarted_shows (down : s.laneState l = 0) : testStarted s l = { s with regs := (testStarted s l).regs, lanes := (testStarted s l).lanes } ∧
    sameWords s (testStarted s l) (testWords l) ∧ (testStarted s l).laneState l = 8 ∧ (testStarted s l).word 1 5 l = 0#64 ∧
    (testStarted s l).get F.ltb_bits_checked l = 0 ∧
    (testStarted s l).get F.ltb_injections l = (if s.get F.ltest_inject l = 1 ∨ s.get F.ltest_inject l = 3 then 1 else 0) := by
  obtain ⟨m, started⟩ := testStarted_eq down
  have words : sameWords s ((testCleared s l).put F.lsa_state l 8) (testWords l) :=
    sameWords_thenPut (sameWords_mono (testCleared_words s l) (by simp [testWords])) F.lsa_state l 8 (by simp [testWords, F.lsa_state])
  have state : ((testCleared s l).put F.lsa_state l 8).laneState l = 8 := State.get_put_self _ _ _ _ (by decide) (by decide)
  have statusA := (State.word_put_otherWord (testCleared s l) F.lsa_state 1 5 l 8 (by decide)).trans (testCleared_statusA s l)
  have checked := (State.get_put_otherWord (testCleared s l) F.lsa_state F.ltb_bits_checked l 8 (by decide)).trans (testCleared_checked s l)
  have injected := (State.get_put_otherWord (testCleared s l) F.lsa_state F.ltb_injections l 8 (by decide)).trans (testCleared_injections s l)
  obtain ⟨r, frame⟩ : ∃ r, (testCleared s l).put F.lsa_state l 8 = { s with regs := r } := by
    obtain ⟨r, e⟩ := testCleared_frame s l
    rw [e]
    exact State.put_frame { s with regs := r } F.lsa_state l 8
  rw [started]
  rw [frame] at words state statusA checked injected ⊢
  exact ⟨rfl, words, state, statusA, checked, injected⟩

end

section
variable {s : State} {c : Cmd} {l : Nat}

theorem exec_laneTestStart (accepted : accepts s c 0x34 1 = true) (ok : laneOk (advanceTo s c.tick) c l = true)
    (on : (advanceTo s c.tick).domOn (laneDomain l) = true) : exec (.laneTestStart c) s =
      .next (settle (advanceTo s c.tick) c 0x34 (refuseIf ((advanceTo s c.tick).laneState l ≠ 0) stBadParam 1 (.done (testStarted (advanceTo s c.tick) l) stOk 0 []))) :=
  laneCommand_on (k := fun u l => refuseIf (u.laneState l ≠ 0) stBadParam 1 (.done (testStarted u l) stOk 0 [])) rfl accepted ok on

theorem exec_laneTestStop (accepted : accepts s c 0x34 1 = true) (ok : laneOk (advanceTo s c.tick) c l = true)
    (on : (advanceTo s c.tick).domOn (laneDomain l) = true) : exec (.laneTestStop c) s =
      .next (settle (advanceTo s c.tick) c 0x34 (if (advanceTo s c.tick).laneState l = 8 then .done (testStopped (advanceTo s c.tick) l) stOk 0 []
        else .done (advanceTo s c.tick) stOk 0 [])) :=
  laneCommand_on (k := fun u l => if u.laneState l = 8 then .done (testStopped u l) stOk 0 [] else .done u stOk 0 []) rfl accepted ok on

theorem exec_laneTestRead (accepted : accepts s c 0x34 1 = true) (ok : laneOk (advanceTo s c.tick) c l = true)
    (on : (advanceTo s c.tick).domOn (laneDomain l) = true) : exec (.laneTestRead c) s =
      .next (settle (advanceTo s c.tick) c 0x34 (.done (testSettle (advanceTo s c.tick) l) stOk 0
        [(testSettle (advanceTo s c.tick) l).word 1 5 l, (testSettle (advanceTo s c.tick) l).word 1 6 l])) :=
  laneCommand_on (k := fun u l => .done (testSettle u l) stOk 0 [(testSettle u l).word 1 5 l, (testSettle u l).word 1 6 l]) rfl accepted ok on

end

/-! ### The pattern checker -/

theorem prbsDelays_eq (p : Nat) : prbsDelays p = if p = 1 then [6, 7] else if p = 2 then [1, 2, 12, 13] else [28, 31] := by
  unfold prbsDelays
  split
  · rfl
  · rfl
  · rename_i h1 h2
    rw [if_neg h1, if_neg h2]

theorem prbsDegree_eq (p : Nat) : prbsDegree p = if p = 1 then 7 else if p = 2 then 13 else 31 := by
  unfold prbsDegree
  split
  · rfl
  · rfl
  · rename_i h1 h2
    rw [if_neg h1, if_neg h2]

theorem prbsDelays_bounds (p : Nat) : ∀ d ∈ prbsDelays p, 1 ≤ d ∧ d ≤ prbsDegree p := by
  rw [prbsDelays_eq, prbsDegree_eq]
  split
  · decide
  · split <;> decide

/-- The bits follow the pattern's recurrence from bit `k` on. -/
def followsPattern (p k : Nat) (bs : List Bool) : Prop :=
  ∀ j, k ≤ j → j < bs.length → bs.getD j false = (prbsDelays p).foldl (fun b d => xor b (bs.getD (j - d) false)) false

/-- The generator's next bit after the first `k` of bits that follow the pattern. -/
theorem prbsNext_take {p k : Nat} {bs : List Bool} (degree : prbsDegree p ≤ k) (inside : k < bs.length) (follows : followsPattern p k bs) :
    prbsNext p (bs.take k).reverse = bs[k] := by
  rw [← List.getD_eq_getElem bs false inside, follows k (Nat.le_refl k) inside, prbsNext]
  refine List.foldl_ext _ _ _ fun b d hd => ?_
  obtain ⟨pos, most⟩ := prbsDelays_bounds p d hd
  have back : k - 1 - (d - 1) = k - d := by omega
  have length : (bs.take k).length = k := by rw [List.length_take]; omega
  rw [List.getD_eq_getElem?_getD, List.getD_eq_getElem?_getD, List.getElem?_reverse (by omega), length, back, List.getElem?_take_of_lt (by omega)]

/-- Bits that follow the pattern are those of the generator seeded with the first of them. -/
theorem drop_eq_prbsBits {p : Nat} {bs : List Bool} (n k : Nat) (degree : prbsDegree p ≤ k) (length : bs.length = k + n) (follows : followsPattern p k bs) :
    bs.drop k = prbsBits p n (bs.take k).reverse := by
  induction n generalizing k with
  | zero => rw [List.drop_eq_nil_of_le (by omega), prbsBits]
  | succ n ih =>
    have inside : k < bs.length := by omega
    have next := prbsNext_take degree inside follows
    have seed : bs[k] :: (bs.take k).reverse = (bs.take (k + 1)).reverse := by
      rw [List.take_succ_eq_append_getElem inside, List.reverse_append]
      rfl
    rw [prbsBits, next, seed, List.drop_eq_getElem_cons inside, ih (k + 1) (by omega) (by omega) fun j hj => follows j (by omega)]

theorem prbsLock_of_recurrence {p : Nat} {bs : List Bool} (length : bs.length = prbsDegree p + 64) (follows : followsPattern p (prbsDegree p) bs) :
    prbsLock p bs = true := by
  rw [prbsLock, drop_eq_prbsBits 64 _ (Nat.le_refl _) length follows]
  simp [length]

/-- A checker that finds its pattern locks, and what it has compared begins anew. -/
def checkerLocked (s : State) (l : Nat) : State := (s.put F.lta_locked l 1).setLane l { s.lane l with mkTick := s.tb.tick }

theorem exec_checkerLock {s : State} {l : Nat} {symbols : List Nat} {bs : List Bool} (test : s.laneState l = 8) (unlocked : s.flag F.lta_locked l = false)
    (on : s.get F.ltest_rx_pattern l ≠ 0)
    (arrived : (symbols.flatMap (symbolBits (s.get F.ltest_test_rate l))).take (prbsDegree (s.get F.ltest_rx_pattern l) + 64) = bs)
    (locks : prbsLock (s.get F.ltest_rx_pattern l) bs = true)
    (loop : s.flag F.ltest_loopback l = true → s.get F.ltest_tx_pattern l = s.get F.ltest_rx_pattern l ∧ true ∈ bs) :
    exec (.checkerLock l symbols) s = .next (checkerLocked s l) := by
  have source : (decide (s.get F.ltest_tx_pattern l = s.get F.ltest_rx_pattern l) && bs.contains true || !s.flag F.ltest_loopback l) = true := by
    cases h : s.flag F.ltest_loopback l with
    | true =>
      obtain ⟨same, some⟩ := loop h
      simp [same, some]
    | false => simp
  subst arrived
  refine if_pos ?_
  simp only [test, unlocked, locks, source, ne_eq, on, not_false_eq_true, decide_true, Bool.not_false, Bool.and_self]

theorem checkerLocked_shows (s : State) (l : Nat) : (checkerLocked s l).flag F.lta_locked l = true ∧ (checkerLocked s l).bitsSinceLock l = 0 ∧
    sameWords s (checkerLocked s l) [wkey 1 5 l] ∧ (checkerLocked s l).get F.lta_bit_errors l = s.get F.lta_bit_errors l ∧
    checkerLocked s l = { s with regs := (checkerLocked s l).regs, lanes := (checkerLocked s l).lanes } := by
  have locked : (s.put F.lta_locked l 1).flag F.lta_locked l = true := flag_put_one s F.lta_locked l (by decide) (by decide)
  have errors : (s.put F.lta_locked l 1).get F.lta_bit_errors l = s.get F.lta_bit_errors l :=
    State.get_put_disjoint s _ _ _ _ _ (by decide) (by decide) (by decide)
  have words := sameWords_put s F.lta_locked l 1
  obtain ⟨r, frame⟩ := s.put_frame F.lta_locked l 1
  rw [checkerLocked]
  rw [frame] at locked errors words ⊢
  exact ⟨locked, by rw [State.bitsSinceLock, State.lane_setLane]; simp, words, errors, rfl⟩

/-- A checker that loses lock. -/
def checkerLost (s : State) (l n e : Nat) : State :=
  (((s.satInc F.ltb_bits_checked l n).put F.lta_locked l 0).satInc F.lta_bit_errors l e).satInc F.lta_sync_losses l 1

theorem exec_checkerLockLoss {s : State} {l n e : Nat} (test : s.laneState l = 8) (locked : s.flag F.lta_locked l = true) :
    exec (.checkerLockLoss l n e) s = .next (checkerLost s l n e) :=
  if_pos (by rw [test, locked]; rfl)

theorem checkerLost_shows (s : State) (l n e : Nat) : (checkerLost s l n e).flag F.lta_locked l = false ∧ onlyRegs s (checkerLost s l n e) ∧
    sameWords s (checkerLost s l n e) [wkey 1 5 l, wkey 1 6 l] ∧ (checkerLost s l n e).get F.ltb_bits_checked l = plus s F.ltb_bits_checked l n ∧
    (checkerLost s l n e).get F.lta_bit_errors l = plus s F.lta_bit_errors l e ∧
    (checkerLost s l n e).get F.lta_sync_losses l = plus s F.lta_sync_losses l 1 := by
  let a := s.satInc F.ltb_bits_checked l n
  let b := a.put F.lta_locked l 0
  let d := b.satInc F.lta_bit_errors l e
  have ab : ∀ f : Field, f.obj * 256 + f.sel ≠ 1 * 256 + 6 → a.get f l = s.get f l := fun f h => State.get_put_otherWord s F.ltb_bits_checked f l _ h
  have bc : ∀ f : Field, (f.lo ≤ f.hi ∧ f.hi < 64) → 15 < f.lo ∨ f.hi < 15 → b.get f l = a.get f l :=
    fun f wf h => State.get_put_disjoint a F.lta_locked f l l 0 (by decide) wf h
  have cd : ∀ f : Field, (f.lo ≤ f.hi ∧ f.hi < 64) → f.hi < 16 → d.get f l = b.get f l :=
    fun f wf h => State.get_put_disjoint b F.lta_bit_errors f l l _ (by decide) wf (.inr h)
  have off : b.get F.lta_locked l = 0 := State.get_put_self a F.lta_locked l 0 (by decide) (by decide)
  refine ⟨?_, ?_, ?_, ?_, ?_, ?_⟩
  · have kept : (checkerLost s l n e).get F.lta_locked l = d.get F.lta_locked l :=
      State.get_put_disjoint d F.lta_sync_losses F.lta_locked l l _ (by decide) (by decide) (by decide)
    rw [State.flag, kept, cd F.lta_locked (by decide) (by decide), off]
    rfl
  · obtain ⟨r1, e1⟩ := s.satInc_frame F.ltb_bits_checked l n
    obtain ⟨r2, e2⟩ := State.put_frame { s with regs := r1 } F.lta_locked l 0
    obtain ⟨r3, e3⟩ := State.satInc_frame { s with regs := r2 } F.lta_bit_errors l e
    obtain ⟨r4, e4⟩ := State.satInc_frame { s with regs := r3 } F.lta_sync_losses l 1
    rw [checkerLost, e1, e2, e3, e4]
    rfl
  · refine sameWords_thenSatInc (sameWords_thenSatInc (sameWords_thenPut (sameWords_thenSatInc (sameWords_refl s _) F.ltb_bits_checked l n ?_)
      F.lta_locked l 0 ?_) F.lta_bit_errors l e ?_) F.lta_sync_losses l 1 ?_ <;> simp [F.ltb_bits_checked, F.lta_locked, F.lta_bit_errors, F.lta_sync_losses]
  · have last : (checkerLost s l n e).get F.ltb_bits_checked l = d.get F.ltb_bits_checked l := State.get_put_otherWord d F.lta_sync_losses F.ltb_bits_checked l _ (by decide)
    have before : d.get F.ltb_bits_checked l = b.get F.ltb_bits_checked l := State.get_put_otherWord b F.lta_bit_errors F.ltb_bits_checked l _ (by decide)
    rw [last, before, bc F.ltb_bits_checked (by decide) (by decide)]
    exact satInc_get_self s _ _ _ (by decide) (by decide)
  · have last : (checkerLost s l n e).get F.lta_bit_errors l = d.get F.lta_bit_errors l :=
      State.get_put_disjoint d F.lta_sync_losses F.lta_bit_errors l l _ (by decide) (by decide) (by decide)
    rw [last, satInc_get_self b _ _ _ (by decide) (by decide)]
    exact plus_congr ((bc F.lta_bit_errors (by decide) (by decide)).trans (ab F.lta_bit_errors (by decide))) e
  · rw [checkerLost, satInc_get_self d _ _ _ (by decide) (by decide)]
    exact plus_congr ((cd F.lta_sync_losses (by decide) (by decide)).trans
      ((bc F.lta_sync_losses (by decide) (by decide)).trans (ab F.lta_sync_losses (by decide)))) 1

/-- A lane after a periodic injection of an error at the present tick (R165). -/
def errorInjected (s : State) (l : Nat) : State :=
  let t := (s.setLane l { s.lane l with injected := (s.lane l).injected + 1 }).satInc F.ltb_injections l 1
  if s.flag F.ltest_loopback l && s.flag F.lta_locked l then t.satInc F.lta_bit_errors l (s.burst l) else t

theorem exec_errorInjection {s : State} {l : Nat} (test : s.laneState l = 8) (periodic : s.get F.ltest_inject l = 2 ∨ s.get F.ltest_inject l = 4) :
    exec (.errorInjection l) s = .next (errorInjected (advanceTo s (s.injectAt l)) l) := by
  have due : (decide (s.laneState l = 8) && (decide (s.get F.ltest_inject l = 2) || decide (s.get F.ltest_inject l = 4))) = true := by
    simpa [test] using periodic
  refine (if_pos due).trans ?_
  generalize advanceTo s (s.injectAt l) = u
  have kept : ∀ f : Field, f.obj * 256 + f.sel ≠ 1 * 256 + 6 →
      ((u.setLane l { u.lane l with injected := (u.lane l).injected + 1 }).satInc F.ltb_injections l 1).get f l = u.get f l :=
    fun f h => State.get_put_otherWord (u.setLane l _) F.ltb_injections f l _ h
  have flag : ∀ f : Field, f.obj * 256 + f.sel ≠ 1 * 256 + 6 →
      ((u.setLane l { u.lane l with injected := (u.lane l).injected + 1 }).satInc F.ltb_injections l 1).flag f l = u.flag f l :=
    fun f h => State.flag_congr (kept f h)
  have burst : ((u.setLane l { u.lane l with injected := (u.lane l).injected + 1 }).satInc F.ltb_injections l 1).burst l = u.burst l := by
    simp only [State.burst, kept F.ltest_inject (by decide), kept F.ltest_burst_len (by decide)]
  simp only [flag F.ltest_loopback (by decide), flag F.lta_locked (by decide), burst]
  rw [errorInjected]
  split <;> rfl

theorem errorInjected_shows (s : State) (l : Nat) (periodic : s.get F.ltest_inject l = 2 ∨ s.get F.ltest_inject l = 4) :
    errorInjected s l = { s with regs := (errorInjected s l).regs, lanes := (errorInjected s l).lanes } ∧
    sameWords s (errorInjected s l) [wkey 1 5 l, wkey 1 6 l] ∧ ((errorInjected s l).lane l).injected = (s.lane l).injected + 1 ∧
    (errorInjected s l).get F.ltb_injections l = plus s F.ltb_injections l 1 ∧
    (errorInjected s l).get F.lta_bit_errors l = (if s.flag F.ltest_loopback l = true ∧ s.flag F.lta_locked l = true then
      plus s F.lta_bit_errors l (if s.get F.ltest_inject l = 4 then s.get F.ltest_burst_len l else 1) else s.get F.lta_bit_errors l) := by
  obtain ⟨r, counted⟩ := State.satInc_frame (s.setLane l { s.lane l with injected := (s.lane l).injected + 1 }) F.ltb_injections l 1
  have once := satInc_get_self (s.setLane l { s.lane l with injected := (s.lane l).injected + 1 }) F.ltb_injections l 1 (by decide) (by decide)
  have errors : ((s.setLane l { s.lane l with injected := (s.lane l).injected + 1 }).satInc F.ltb_injections l 1).get F.lta_bit_errors l = s.get F.lta_bit_errors l :=
    State.get_put_otherWord (s.setLane l _) F.ltb_injections F.lta_bit_errors l _ (by decide)
  have words : sameWords s ((s.setLane l { s.lane l with injected := (s.lane l).injected + 1 }).satInc F.ltb_injections l 1) [wkey 1 5 l, wkey 1 6 l] :=
    sameWords_thenSatInc (t := s.setLane l _) (sameWords_refl s _) F.ltb_injections l 1 (by simp [F.ltb_injections])
  have burst : s.burst l = if s.get F.ltest_inject l = 4 then s.get F.ltest_burst_len l else 1 := by
    rcases periodic with h | h <;> simp [State.burst, h]
  rw [errorInjected]
  dsimp only
  rw [counted] at once errors words ⊢
  by_cases loop : s.flag F.ltest_loopback l = true ∧ s.flag F.lta_locked l = true
  · rw [if_pos (by simp [loop]), if_pos loop, ← burst]
    obtain ⟨r', twice⟩ := State.satInc_frame { s.setLane l { s.lane l with injected := (s.lane l).injected + 1 } with regs := r } F.lta_bit_errors l (s.burst l)
    have more := satInc_get_self { s.setLane l { s.lane l with injected := (s.lane l).injected + 1 } with regs := r } F.lta_bit_errors l (s.burst l) (by decide) (by decide)
    have other := State.get_put_otherWord { s.setLane l { s.lane l with injected := (s.lane l).injected + 1 } with regs := r } F.lta_bit_errors F.ltb_injections l
      (satAdd (F.lta_bit_errors.hi - F.lta_bit_errors.lo + 1) (State.get { s.setLane l { s.lane l with injected := (s.lane l).injected + 1 } with regs := r }
        F.lta_bit_errors l) (s.burst l)) (by decide)
    have both := sameWords_thenSatInc words F.lta_bit_errors l (s.burst l) (by simp [F.lta_bit_errors])
    rw [← State.satInc] at other
    rw [twice] at more other both ⊢
    refine ⟨rfl, both, ?_, other.trans once, more.trans (plus_congr errors _)⟩
    exact congrArg LaneX.injected (State.lane_setLane s l _)
  · rw [if_neg (by simpa using loop), if_neg loop]
    refine ⟨rfl, words, ?_, once, errors⟩
    exact congrArg LaneX.injected (State.lane_setLane s l _)

end Sys2Proof.Machine

namespace Sys2Proof

open Sys2Proof.Machine Sys2Proof.Claims

/-- Settles O39: the commands are checked once (`laneChecked_ok`), what stop and read count is one lemma (`testCounted_testSettle`), and bits that follow the recurrence
are by induction those of the generator that they seed. That stop outside TEST is answered ST_OK, that loopback loses nothing, and the bits of the PAM4 levels are the
model's choices (log 19). -/
theorem laneTesting : Obligations.LaneTesting := by
  refine ⟨?_, ?_, ?_, ?_⟩
  · intro c l s u accepted ok
    refine ⟨fun on down => ⟨testStarted u l, ?_, testStarted_shows down⟩, fun on busy => ?_, fun off => ?_, fun on => ⟨fun test => ?_, fun other => ?_, ?_⟩⟩
    · rw [ends, exec_laneTestStart accepted ok on, refuseIf_false _ _ _ (by simpa using down)]
      rfl
    · rw [exec_laneTestStart accepted ok on, refuseIf_true _ _ _ (by simpa using busy)]
      rfl
    · simp only [List.mem_cons, List.not_mem_nil, or_false, forall_eq_or_imp, forall_eq]
      exact ⟨laneCommand_off rfl accepted ok off, laneCommand_off rfl accepted ok off, laneCommand_off rfl accepted ok off⟩
    · refine ⟨testStopped u l, ?_, testStopped_shows test⟩
      rw [ends, exec_laneTestStop accepted ok on, if_pos test]
      rfl
    · rw [ends, exec_laneTestStop accepted ok on, if_neg other]
      rfl
    · exact ⟨testSettle u l, exec_laneTestRead accepted ok on, testCounted_testSettle u l, testSettle_laneState u l⟩
  · intro l symbols s _ test unlocked rx n delays bs on length recurs loop
    have degree : n = prbsDegree rx := (prbsDegree_eq rx).symm
    have follows : followsPattern rx (prbsDegree rx) bs := by
      intro j low high
      rw [← degree] at low
      have at_k := recurs (j - n) (by omega)
      rw [show n + (j - n) = j by omega] at at_k
      rw [prbsDelays_eq]
      exact at_k
    refine ⟨checkerLocked s l, exec_checkerLock test unlocked on (by rw [← degree]) (prbsLock_of_recurrence (by rw [← degree]; exact length) follows) loop,
      checkerLocked_shows s l⟩
  · intro l n e s _ test locked
    exact ⟨_, exec_checkerLockLoss test locked, checkerLost_shows s l n e⟩
  · intro l s _ test periodic
    have periodic' : (advanceTo s (s.injectAt l)).get F.ltest_inject l = 2 ∨ (advanceTo s (s.injectAt l)).get F.ltest_inject l = 4 := by
      rwa [advanceTo_get]
    obtain ⟨frame, words, injected, count, errors⟩ := errorInjected_shows (advanceTo s (s.injectAt l)) l periodic'
    simp only [advanceTo_flag, advanceTo_get, advanceTo_lane] at errors injected
    refine ⟨_, exec_errorInjection test periodic, frame, fun k hk => ?_, injected, rfl, ?_, ?_⟩
    · rw [words k hk, advanceTo_regs]
    · rw [count, plus_congr (advanceTo_get ..)]
    · rw [errors]
      split
      · rw [plus_congr (advanceTo_get ..)]
      · rfl

end Sys2Proof
end

section
/-! PROOF. The commands that write a clr bit (R105, R169, R199, R238, R239, R242, R277, R311, R312, R352, R382, R395, R442, R472). -/

namespace Sys2Proof.Machine

open Sys2Proof.Claims

/-! ### Fields cleared -/

/-- A field lies in a word, of an object with fewer than 256 selectors. -/
def Field.wf (f : Field) : Prop := f.lo ≤ f.hi ∧ f.hi < 64 ∧ f.sel < 256

/-- A field that reads 0 does so after another field, of its word or not, is cleared. -/
theorem get_put_zero {s : State} {f : Field} {i : Nat} (wf : f.wf) (zero : s.get f i = 0) (g : Field) (j : Nat) (hg : g.wf) : (s.put g j 0).get f i = 0 := by
  obtain ⟨low, high, -⟩ := wf
  obtain ⟨low', high', -⟩ := hg
  by_cases key : wkey f.obj f.sel i = wkey g.obj g.sel j
  · apply Nat.eq_of_testBit_eq
    intro k
    have word : (s.put g j 0).word f.obj f.sel i = setBits (s.word f.obj f.sel i) g.hi g.lo 0 := by
      simp only [State.put, State.word, State.setWord, key, regGet, regSet, mget_mset_self]
    have was := congrArg (Nat.testBit · k) zero
    simp only [State.get] at was ⊢
    rw [testBit_bits low high, Nat.zero_testBit] at was
    rw [word, testBit_bits low high, Nat.zero_testBit, getLsbD_setBits low' high']
    split
    · rw [Nat.zero_testBit, Bool.and_false]
    · exact was
  · rw [State.get_put_ne s g f j i 0 key, zero]

/-- Cleared fields and the words that hold them. -/
theorem clearFields_cleared {fs : List Field} (wf : ∀ f ∈ fs, f.wf) (s : State) (i : Nat) : cleared s (clearFields s fs i) fs i := by
  induction fs generalizing s with
  | nil => exact ⟨by simp, fun _ _ => rfl, rfl, fun _ _ _ h => by simp at h⟩
  | cons f fs ih =>
    have head := wf f List.mem_cons_self
    have tail := fun g hg => wf g (List.mem_cons_of_mem f hg)
    obtain ⟨low, high, sel⟩ := head
    obtain ⟨zeros, words, only, others⟩ := ih tail (s.put f i 0)
    have staysZero : ∀ (gs : List Field) (t : State), (∀ g ∈ gs, g.wf) → t.get f i = 0 → (clearFields t gs i).get f i = 0 := by
      intro gs
      induction gs with
      | nil => exact fun t _ zero => zero
      | cons g gs ihg =>
        intro t hgs zero
        exact ihg (t.put g i 0) (fun a ha => hgs a (List.mem_cons_of_mem g ha)) (get_put_zero ⟨low, high, sel⟩ zero g i (hgs g List.mem_cons_self))
    have own : (s.put f i 0).get f i = 0 := by rw [State.get_put_self s f i 0 low high, Nat.zero_mod]
    refine ⟨?_, ?_, ?_, ?_⟩
    · intro g hg
      rcases List.mem_cons.mp hg with rfl | later
      · exact staysZero fs _ tail own
      · exact zeros g later
    · intro k hk
      obtain ⟨here, there⟩ := List.ne_and_not_mem_of_not_mem_cons hk
      exact (words k there).trans (sameWords_put s f i 0 k fun h => here (List.mem_singleton.mp h))
    · obtain ⟨r, frame⟩ := s.put_frame f i 0
      rw [frame] at only
      rw [onlyRegs, clearFields, List.foldl_cons, frame]
      exact only
    · intro g gLow gHigh shares apart
      have kept : (s.put f i 0).get g i = s.get g i := by
        by_cases same : g.obj = f.obj ∧ g.sel = f.sel
        · exact State.get_put_disjoint s f g i i 0 ⟨low, high⟩ ⟨gLow, gHigh⟩ (apart f List.mem_cons_self same.1 same.2)
        · obtain ⟨x, hx, obj, sel'⟩ := shares
          have gSel : g.sel < 256 := sel' ▸ (wf x hx).2.2
          exact State.get_put_otherWord s f g i 0 (by omega)
      by_cases rest : ∃ x ∈ fs, g.obj = x.obj ∧ g.sel = x.sel
      · exact (others g gLow gHigh rest fun x hx => apart x (List.mem_cons_of_mem f hx)).trans kept
      · refine (congrArg (bits · g.hi g.lo) (words _ fun h => rest ?_)).trans kept
        obtain ⟨x, hx, key⟩ := List.mem_map.mp h
        obtain ⟨y, hy, obj, sel'⟩ := shares
        have gSel : g.sel < 256 := sel' ▸ (wf y hy).2.2
        have xSel := (tail x hx).2.2
        simp only [wkey] at key
        exact ⟨x, hx, by omega, by omega⟩

/-- A word put in force as it reads changes no word. -/
theorem regGet_setWord_self (s : State) (o e i k : Nat) : regGet (s.setWord o e i (s.word o e i)).regs k = regGet s.regs k := by
  by_cases h : k = wkey o e i
  · subst h
    exact State.word_setWord s o e i (s.word o e i)
  · exact sameWords_setWord s o e i (s.word o e i) k fun hk => h (List.mem_singleton.mp hk)

/-- What has been cleared stays so while every word reads as it did. -/
theorem cleared_congr {s t v : State} {fs : List Field} {i : Nat} (h : cleared s t fs i) (only : onlyRegs t v) (words : ∀ k, regGet v.regs k = regGet t.regs k) :
    cleared s v fs i := by
  obtain ⟨zeros, others, frame, beside⟩ := h
  have get : ∀ f : Field, v.get f i = t.get f i := fun f => congrArg (bits · f.hi f.lo) (words _)
  refine ⟨fun f hf => (get f).trans (zeros f hf), fun k hk => (words k).trans (others k hk), ?_, fun g h1 h2 h3 h4 => (get g).trans (beside g h1 h2 h3 h4)⟩
  rw [onlyRegs, only, frame]

/-! ### The packet of one word -/

theorem isSource_lt {n : Nat} (h : isSource n = true) : n < 2 ^ 24 := by
  by_contra big
  rw [isSource, if_neg (by omega), if_neg (by omega), if_neg (by omega), if_neg (by omega)] at h
  simp only [decide_eq_true_eq] at h
  omega

theorem validPlace_lt {obj sel idx : Nat} (h : validPlace obj sel idx = true) : idx < 2 ^ 24 := by
  have source := isSource_lt (n := idx)
  unfold validPlace validChan at h
  split at h <;> grind

theorem descOf_descWord {obj sel idx : Nat} (ho : obj < 64) (hs : sel < 256) (hi : idx < 2 ^ 24) :
    descOf (descWord obj sel idx 1) = { obj := obj, sel := sel, idx := idx, count := 1 } := by
  simp (disch := decide) only [descOf, descWord, pack, List.foldl, bits_setBits_self, bits_setBits_apart, Nat.reduceSub, Nat.reduceAdd]
  rw [Nat.mod_eq_of_lt (b := 2 ^ 6) ho, Nat.mod_eq_of_lt (b := 2 ^ 8) hs, Nat.mod_eq_of_lt hi, Nat.mod_eq_of_lt (b := 2 ^ 8) (by decide : 1 < 2 ^ 8)]

theorem stray_descWord (obj sel idx count : Nat) : stray (descWord obj sel idx count) [(63, 18)] = false := by
  simp only [stray, List.foldl, BitVec.zero_or, ne_eq, decide_not, Bool.not_eq_false', decide_eq_true_eq]
  apply BitVec.eq_of_getLsbD_eq
  intro i _
  rw [BitVec.getLsbD_and, BitVec.getLsbD_not, getLsbD_fieldMask (by decide) (by decide), BitVec.getLsbD_zero]
  by_cases low : 18 ≤ i
  · simp [low, show i ≤ 63 by omega]
  · simp only [descWord, pack, List.foldl]
    rw [getLsbD_setBits (by decide) (by decide), getLsbD_setBits (by decide) (by decide), getLsbD_setBits (by decide) (by decide),
      getLsbD_setBits (by decide) (by decide), if_neg (by omega), if_neg (by omega), if_neg (by omega), if_neg (by omega)]
    simp

/-! ### The words with a clr bit -/

/-- Bit 0 of the word is W1C and the mask of a write of it touches nothing else; no rule of a single word is about it (R508). -/
def clrRow (obj sel : Nat) : Bool :=
  decide (obj < 64) && decide (sel < 256) && !(wordSpec obj sel).isEmpty &&
    ((wordSpec obj sel).all fun f => f.acc = .ro || f.acc = .w1c || fieldMask f.hi f.lo &&& 1#64 = 0#64) &&
    decide (1#64 &&& ~~~(maskOf (wordSpec obj sel) [.st, .rw, .w1c] &&& ~~~(cinchOnly obj sel)) = 0#64) &&
    decide (1#64 &&& maskOf (wordSpec obj sel) [.w1c] = 1#64) && decide (1#64 &&& maskOf (wordSpec obj sel) [.rw] = 0#64) &&
    decide (1#64 &&& maskOf (wordSpec obj sel) [.st] = 0#64) &&
    !(obj = 9 || (obj = 2 && sel ≠ 1) || (obj = 3 && [0, 2, 16, 17, 18].contains sel) || (obj = 5 && (sel = 2 || sel = 6))) &&
    (clears obj sel).all fun f => decide (f.lo ≤ f.hi) && decide (f.hi < 64) && decide (f.sel < 256)

section
variable {obj sel : Nat} (row : clrRow obj sel = true)
include row

theorem clrRow_inRange (w : Word) : inRange obj sel 1#64 w = true := by
  simp only [clrRow, Bool.and_eq_true] at row
  obtain ⟨⟨⟨⟨⟨⟨⟨⟨⟨-, -⟩, -⟩, untouched⟩, -⟩, -⟩, -⟩, -⟩, -⟩, -⟩ := row
  rw [List.all_eq_true] at untouched
  rw [inRange, List.all_eq_true]
  intro f hf
  have h := untouched f hf
  simp only [Bool.or_eq_true, decide_eq_true_eq] at h ⊢
  exact .inl h

theorem clrRow_unruled (s : State) (v : View) (idx : Nat) (d : Desc) (hd : d.obj = obj ∧ d.sel = sel) :
    (s.wordRefused true v obj sel idx 1#64 || (true && s.liveClash v d idx 1#64)) = false ∧ s.liveLacks v d = false := by
  simp only [clrRow, Bool.and_eq_true] at row
  obtain ⟨⟨-, plain⟩, -⟩ := row
  simp only [List.contains_eq_mem, List.mem_cons, List.not_mem_nil, or_false, Bool.not_eq_true', Bool.or_eq_false_iff, Bool.and_eq_false_iff,
    decide_eq_false_iff_not, not_or, ne_eq, not_not] at plain
  obtain ⟨dObj, dSel⟩ := hd
  obtain ⟨⟨⟨no9, only21⟩, no3⟩, no5⟩ := plain
  refine ⟨?_, ?_⟩
  · simp only [State.wordRefused, State.liveClash, dObj, dSel]
    grind
  · simp only [State.liveLacks, dObj, dSel]
    grind

theorem clrRow_mask : (1#64 &&& ~~~(maskOf (wordSpec obj sel) [.st, .rw, .w1c] &&& ~~~(cinchOnly obj sel)) = 0#64) ∧
    1#64 &&& maskOf (wordSpec obj sel) [.w1c] = 1#64 ∧ 1#64 &&& maskOf (wordSpec obj sel) [.rw] = 0#64 ∧ 1#64 &&& maskOf (wordSpec obj sel) [.st] = 0#64 := by
  simp only [clrRow, Bool.and_eq_true, decide_eq_true_eq] at row
  obtain ⟨⟨⟨⟨⟨⟨-, may⟩, flag⟩, noRw⟩, noSt⟩, -⟩, -⟩ := row
  exact ⟨may, flag, noRw, noSt⟩

theorem clrRow_place : obj < 64 ∧ sel < 256 ∧ (wordSpec obj sel).isEmpty = false := by
  simp only [clrRow, Bool.and_eq_true, decide_eq_true_eq, Bool.not_eq_true'] at row
  obtain ⟨⟨⟨⟨⟨⟨⟨⟨⟨ho, hs⟩, listed⟩, -⟩, -⟩, -⟩, -⟩, -⟩, -⟩, -⟩ := row
  exact ⟨ho, hs, listed⟩

theorem clrRow_fields : ∀ f ∈ clears obj sel, f.wf := by
  simp only [clrRow, Bool.and_eq_true, List.all_eq_true, decide_eq_true_eq] at row
  obtain ⟨-, fields⟩ := row
  intro f hf
  obtain ⟨⟨low, high⟩, sel'⟩ := fields f hf
  exact ⟨low, high, sel'⟩

theorem clrRow_noFlags : (decide (obj = 5) && (decide (sel = 2) || decide (sel = 6))) = false := by
  simp only [clrRow, Bool.and_eq_true, Bool.not_eq_true', Bool.or_eq_false_iff] at row
  obtain ⟨⟨-, -, noFlags⟩, -⟩ := row
  exact noFlags

/-- The write of a clr bit clears the counters of its word. -/
theorem applyLive_clr (s : State) (idx : Nat) : ∃ v, applyLive s obj sel idx 1#64 1#64 = v ∧ cleared s v (clears obj sel) idx := by
  obtain ⟨-, flag, noRw, noSt⟩ := clrRow_mask row
  refine ⟨_, rfl, ?_⟩
  have effect : w1cEffect s obj sel idx (1#64 &&& 1#64 &&& maskOf (wordSpec obj sel) [.w1c]) = clearFields s (clears obj sel) idx := by
    rw [BitVec.and_self, flag, w1cEffect, if_neg (by rw [clrRow_noFlags row]; decide), if_pos (by decide)]
  have same : ∀ w : Word, merge w 1#64 0#64 = w := fun w => BitVec.eq_of_getLsbD_eq fun i _ => by rw [getLsbD_merge]; simp
  rw [applyLive]
  dsimp only
  rw [effect, noRw, same, if_pos noSt]
  exact cleared_congr (clearFields_cleared (clrRow_fields row) s idx) rfl (regGet_setWord_self _ obj sel idx)

/-- The checks of the packet that writes a clr bit let it through. -/
theorem writeChecks_clr {s : State} {c : Cmd} {idx : Nat} (one : c.params.length = 3)
    (may : s.access c.part obj sel idx true 1#64 (merge (s.liveCopy obj sel idx) 1#64 1#64) = true)
    (gone : s.placeGone obj sel idx = false) (off : s.wordOff obj sel idx = false) (free : s.inSet obj sel idx = false) (k : Result) :
    writeChecks true c { obj := obj, sel := sel, idx := idx, count := 1 } 1#64 [1#64] s k = k := by
  obtain ⟨mask, flag, -, -⟩ := clrRow_mask row
  have place : ({ obj := obj, sel := sel, idx := idx, count := 1 } : Desc).places = [idx] := rfl
  have news : s.newWords true c.part { obj := obj, sel := sel, idx := idx, count := 1 } 1#64 [1#64] = [merge (s.liveCopy obj sel idx) 1#64 1#64] := rfl
  have unruled := fun v => clrRow_unruled row s v idx { obj := obj, sel := sel, idx := idx, count := 1 } ⟨rfl, rfl⟩
  unfold writeChecks
  simp only [news, place, if_true, flag]
  rw [firstBad, clrRow_inRange row, Bool.not_true, if_neg Bool.false_ne_true, firstBad, refuseAt, noMore, refuseIf_false _ _ _ (by simp [one]),
    refuseIf_false _ _ _ (by simp [may]), refuseIf_false _ _ _ (by simp [mask]), firstBad, if_neg (by decide), firstBad, refuseAt,
    refuseIf_false _ _ _ (by simp [gone]), refuseIf_false _ _ _ (by simp [off]), firstBad, if_neg (by rw [(unruled _).1]; decide), firstBad, refuseAt,
    refuseIf_false _ _ _ (by rw [(unruled _).2]; rfl), refuseIf_false _ _ _ (by simp [free])]

/-- A command that writes a clr bit. -/
theorem writeOne_clr {i : Instr} {c : Cmd} {idx : Nat} {s : State} (arm : exec i s = writeOne c obj sel idx 1#64 1#64 s)
    (may : mayWrite s c obj sel idx 1#64 1#64 = true) :
    ∃ v, exec i s = .next (finish (v.satInc F.part3_accepted c.part 1) (asLive c obj sel idx 1#64 1#64) 0x12 stOk 0 []) ∧
      cleared (advanceTo s c.tick) v (clears obj sel) idx := by
  simp only [mayWrite, Bool.and_eq_true, decide_eq_true_eq, Bool.not_eq_true'] at may
  obtain ⟨⟨⟨⟨⟨⟨passed, resv⟩, place⟩, access⟩, gone⟩, off⟩, free⟩ := may
  obtain ⟨ho, hs, listed⟩ := clrRow_place row
  obtain ⟨v, applied, clear⟩ := applyLive_clr row (advanceTo s c.tick) idx
  have desc := descOf_descWord ho hs (validPlace_lt place)
  have descOk : descOk (descWord obj sel idx 1) = true := by
    have places : ({ obj := obj, sel := sel, idx := idx, count := 1 } : Desc).places = [idx] := rfl
    simp [descOk, desc, stray_descWord, listed, places, place]
  have body : writeBody true (liveCmd c obj sel idx 1#64 1#64) (advanceTo s c.tick) = .done v stOk 0 [] := by
    rw [writeBody, if_neg (by simpa [liveCmd] using resv), if_neg (by simp [liveCmd])]
    simp only [Cmd.par, liveCmd, List.getD_cons_zero, List.getD_cons_succ, List.drop_succ_cons, List.drop_zero]
    rw [desc, refuseIf_false _ _ _ (by simp [descOk]), refuseIf_false _ _ _ (by simp)]
    exact (writeChecks_clr row (c := liveCmd c obj sel idx 1#64 1#64) rfl access gone off free _).trans (congrArg (Result.done · stOk 0 []) applied)
  refine ⟨v, ?_, clear⟩
  rw [arm, writeOne, runCmd_of_passes passed, body]
  rfl

end

end Sys2Proof.Machine

namespace Sys2Proof

open Sys2Proof.Machine Sys2Proof.Claims

/-- Settles O25: every row is the WRITE_LIVE packet of one word (`writeOne_clr`), and for each word its fields are looked up. -/
theorem clearBitsClearCounters : Obligations.ClearBitsClearCounters := by
  intro c n s u
  have even : 2 * n % 2 = 0 ∧ 2 * n / 2 = n := by omega
  have odd : (2 * n + 1) % 2 = 1 ∧ (2 * n + 1) / 2 = n := by omega
  have first : exec (.precisionStatusClr c (2 * n)) s = writeOne c 3 21 n 1#64 1#64 s := by
    rw [show exec (.precisionStatusClr c (2 * n)) s = writeOne c 3 (21 + 2 * n % 2) (2 * n / 2) 1#64 1#64 s from rfl, even.1, even.2]
  have second : exec (.precisionStatusClr c (2 * n + 1)) s = writeOne c 3 22 n 1#64 1#64 s := by
    rw [show exec (.precisionStatusClr c (2 * n + 1)) s = writeOne c 3 (21 + (2 * n + 1) % 2) ((2 * n + 1) / 2) 1#64 1#64 s from rfl, odd.1, odd.2]
  simp only [List.forall_mem_cons, List.not_mem_nil, false_imp_iff, implies_true, and_true]
  exact ⟨writeOne_clr (by decide) rfl, writeOne_clr (by decide) rfl, writeOne_clr (by decide) first, writeOne_clr (by decide) second,
    writeOne_clr (by decide) rfl, writeOne_clr (by decide) rfl, writeOne_clr (by decide) rfl, writeOne_clr (by decide) rfl,
    writeOne_clr (by decide) rfl, writeOne_clr (by decide) rfl, writeOne_clr (by decide) rfl, writeOne_clr (by decide) rfl,
    writeOne_clr (by decide) rfl, writeOne_clr (by decide) rfl, writeOne_clr (by decide) rfl, writeOne_clr (by decide) rfl,
    writeOne_clr (by decide) rfl, writeOne_clr (by decide) rfl⟩

end Sys2Proof
end

section
/-! PROOF. The training of a lane that is alone under way in its span, and its retrain (R134, R143, R145, R150 to R154). -/

namespace Sys2Proof.Machine

open Sys2Proof.Claims

/-! ### A lane alone in its span -/

theorem filter_eq_single {xs : List Nat} {l : Nat} {p : Nat → Bool} (nodup : xs.Nodup) (mem : l ∈ xs) (others : ∀ m ∈ xs, m ≠ l → p m = false) :
    xs.filter p = if p l then [l] else [] := by
  cases own : p l with
  | false =>
    refine List.filter_eq_nil_iff.mpr fun m hm => ?_
    by_cases h : m = l
    · simp [h, own]
    · simp [others m hm h]
  | true =>
    have same : xs.filter p = xs.filter (· == l) := List.filter_congr fun m hm => by
      by_cases h : m = l
      · simp [h, own]
      · simp [others m hm h, h]
    rw [same, List.filter_beq, List.count_eq_one_of_mem nodup mem]
    rfl

/-- The lanes of its span that are under way in some states: the lone one, if its state is among them. -/
theorem lanesIn_alone {s : State} {l : Nat} {sts : List Nat} (alone : aloneInSpan s l) (under : ∀ st ∈ sts, 3 ≤ st ∧ st ≤ 7) :
    s.lanesIn (s.groupOf l) sts = if sts.contains (s.laneState l) then [l] else [] := by
  obtain ⟨mem, others⟩ := alone
  refine filter_eq_single (nodup_upTo ..) mem fun m hm h => ?_
  obtain ⟨idle, -⟩ := others m hm h
  rw [List.contains_eq_mem, decide_eq_false_iff_not]
  intro hst
  have := under _ hst
  omega

/-- The lanes in training of a span in which lane `l` alone is under way. -/
theorem lanesIn_training {s : State} {l : Nat} (alone : aloneInSpan s l) (state : s.laneState l = 3 ∨ s.laneState l = 7) : s.lanesIn (s.groupOf l) [3, 7] = [l] := by
  rw [lanesIn_alone alone (by decide), if_pos (by simpa using state)]

/-- What concerns lane `l` alone has changed: its entry, and its status words. -/
def ownMoves (l : Nat) (s t : State) : Prop :=
  (∀ m, m ≠ l → t.lane m = s.lane m) ∧ sameWords s t [wkey 1 1 l, wkey 1 2 l, wkey 1 3 l] ∧ t.groups = s.groups ∧ t.tb = s.tb

section
variable {l : Nat} {s t u : State}

theorem ownMoves_refl (l : Nat) (s : State) : ownMoves l s s := ⟨fun _ _ => rfl, sameWords_refl s _, rfl, rfl⟩

theorem ownMoves.trans (h : ownMoves l s t) (h' : ownMoves l t u) : ownMoves l s u := by
  obtain ⟨lanes, words, groups, tb⟩ := h
  obtain ⟨lanes', words', groups', tb'⟩ := h'
  exact ⟨fun m hm => (lanes' m hm).trans (lanes m hm), sameWords_then words words', groups'.trans groups, tb'.trans tb⟩

theorem ownMoves.put (h : ownMoves l s t) (f : Field) (v : Nat) (hf : f.obj = 1 ∧ 1 ≤ f.sel ∧ f.sel ≤ 3) : ownMoves l s (t.put f l v) := by
  refine h.trans ⟨fun m _ => State.put_lane .., sameWords_put_of_mem t f l v ?_, State.put_groups .., State.put_tb ..⟩
  obtain ⟨obj, low, high⟩ := hf
  have : f.sel = 1 ∨ f.sel = 2 ∨ f.sel = 3 := by omega
  rcases this with h | h | h <;> simp [obj, h]

theorem ownMoves.setLane (h : ownMoves l s t) (x : LaneX) : ownMoves l s (t.setLane l x) :=
  h.trans ⟨fun _ hm => State.lane_setLane_ne t x hm, sameWords_of_regs rfl _, rfl, rfl⟩

theorem ownMoves.satInc (h : ownMoves l s t) (f : Field) (n : Nat) (hf : f.obj = 1 ∧ 1 ≤ f.sel ∧ f.sel ≤ 3) : ownMoves l s (t.satInc f l n) := h.put f _ hf

/-- The words of groups, and the configuration of lanes. -/
theorem ownMoves.get (h : ownMoves l s t) (hl : l < 1024) (f : Field) (j : Nat) (hf : wkey f.obj f.sel j < wkey 1 1 0 ∨ wkey 1 4 0 ≤ wkey f.obj f.sel j) :
    t.get f j = s.get f j := by
  obtain ⟨-, words, -⟩ := h
  refine get_of_sameWords words f j ?_
  simp only [List.mem_cons, List.not_mem_nil, or_false, not_or, wkey] at hf ⊢
  omega

theorem ownMoves.laneState (h : ownMoves l s t) (hl : l < 1024) {m : Nat} (hm : m < 2048) (other : m ≠ l) : t.laneState m = s.laneState m := by
  obtain ⟨-, words, -⟩ := h
  refine get_of_sameWords words F.lsa_state m ?_
  simp only [List.mem_cons, List.not_mem_nil, or_false, not_or, wkey, F.lsa_state]
  omega

theorem ownMoves.groupOf (h : ownMoves l s t) (hl : l < 1024) (m : Nat) : t.groupOf m = s.groupOf m := by
  rw [State.groupOf, State.groupOf, h.get hl F.grp_member m (.inr (by simp only [wkey, F.grp_member]; omega))]

theorem ownMoves.groupWidth (h : ownMoves l s t) (hl : l < 1024) (g : Nat) : t.groupWidth g = s.groupWidth g := by
  rw [State.groupWidth, State.groupWidth, h.get hl F.grp_width_cfg g (.inr (by simp only [wkey, F.grp_width_cfg]; omega))]

theorem ownMoves.span (h : ownMoves l s t) (hl : l < 1024) (g : Nat) : t.span g = s.span g := by
  rw [State.span, State.span, h.groupWidth hl]

theorem ownMoves.groupUp (h : ownMoves l s t) (hl : l < 1024) (g : Nat) : t.groupUp g = s.groupUp g :=
  State.flag_congr (h.get hl F.grp_run_valid g (.inr (by simp only [wkey, F.grp_run_valid]; omega)))

theorem ownMoves.group (h : ownMoves l s t) (g : Nat) : t.group g = s.group g := by
  obtain ⟨-, -, groups, -⟩ := h
  rw [State.group, groups, State.group]

theorem span_groupOf_lt {s : State} {l m : Nat} (hl : l < 1024) (hm : m ∈ s.span (s.groupOf l)) : m < 2048 := by
  have := span_lt hm
  have := groupOf_le s l
  omega

theorem ownMoves.alone (h : ownMoves l s t) (hl : l < 1024) (alone : aloneInSpan s l) : aloneInSpan t l := by
  obtain ⟨mem, others⟩ := alone
  rw [aloneInSpan, h.groupOf hl, h.span hl]
  refine ⟨mem, fun m hm other => ?_⟩
  rw [h.laneState hl (span_groupOf_lt hl hm) other]
  obtain ⟨lanes, -⟩ := h
  rw [lanes m other]
  exact others m hm other

end

/-! ### The choice of the run -/

theorem mem_upTo_first (first code : Nat) : first ∈ upTo first (2 ^ code) := mem_upTo.mpr ⟨Nat.le_refl _, by have := Nat.two_pow_pos code; omega⟩

/-- Every lane of a run that is allowed may be used. -/
theorem State.runOk_mem {s : State} {g first code : Nat} {ok : List Nat} (h : s.runOk g ok first code = true) {m : Nat} (hm : m ∈ upTo first (2 ^ code)) : m ∈ ok := by
  simp only [State.runOk, Bool.and_eq_true, List.all_eq_true] at h
  obtain ⟨-, lanes⟩ := h
  have := (lanes m hm).1
  rwa [List.contains_eq_mem, decide_eq_true_eq] at this

theorem State.chooseRun_nil (s : State) (g : Nat) : s.chooseRun g [] = none :=
  List.find?_eq_none.mpr fun r _ h => by simpa using s.runOk_mem h (mem_upTo_first r.1 r.2)

/-- A run of lane `l` alone. -/
theorem eq_of_runOk_single {s : State} {g l first code : Nat} (h : s.runOk g [l] first code = true) : first = l ∧ code = 0 := by
  have only := fun m (hm : m ∈ upTo first (2 ^ code)) => List.mem_singleton.mp (State.runOk_mem h hm)
  have head := only first (mem_upTo_first first code)
  refine ⟨head, ?_⟩
  by_contra wide
  have two : 2 ^ 1 ≤ 2 ^ code := Nat.pow_le_pow_right (by decide) (by omega)
  have := only (first + 1) (mem_upTo.mpr ⟨by omega, by omega⟩)
  omega

theorem runOk_single {s : State} {g l : Nat} {w : Word} {ok : List Nat} (mem : l ∈ ok) (cap : s.capOf l = some w) (wide : Nat.testBit (capWidths w) 0 = true) :
    s.runOk g ok l 0 = true := by
  have one : 1 ≤ s.groupWidth g := Nat.two_pow_pos _
  simp [State.runOk, upTo, cap, wide, mem, one, -Nat.testBit_zero]

theorem State.chooseRun_single {s : State} {g l : Nat} {w : Word} (mem : l ∈ s.span g) (cap : s.capOf l = some w) (wide : Nat.testBit (capWidths w) 0 = true) :
    s.chooseRun g [l] = some (l, 0) := by
  refine find?_eq_of_unique ?_ (runOk_single (List.mem_singleton.mpr rfl) cap wide) fun r _ h => ?_
  · obtain ⟨low, high⟩ := mem_upTo.mp mem
    refine List.mem_flatMap.mpr ⟨0, by decide, List.mem_map.mpr ⟨l - g, mem_upTo.mpr ⟨Nat.zero_le _, ?_⟩, ?_⟩⟩
    · simp only [pow_zero, Nat.div_one]
      omega
    · simp only [pow_zero, Nat.mul_one, Prod.mk.injEq, and_true]
      omega
  · obtain ⟨first, code⟩ := eq_of_runOk_single h
    exact Prod.ext first code

/-! ### The rate result -/

theorem rateResult_waits {s : State} {n g m : Nat} (mem : m ∈ s.lanesIn g [3, 7]) (waits : (s.lane m).result = none) : rateResult (n + 1) s g = s :=
  if_pos (by rw [Bool.or_eq_true, List.any_eq_true]; exact .inr ⟨m, mem, by rw [waits]; rfl⟩)

/-- The next lower rate that is common to a lane. -/
def State.nextRate (s : State) (l : Nat) : Option Nat :=
  [4, 3, 2, 1, 0].find? fun r => decide (r < (s.lane l).tryRate) && (s.lane l).common.contains r

section
variable {s : State} {l : Nat} (alone : aloneInSpan s l) (n : Nat)
include alone

/-- The lone lane of a span passed the rate. -/
theorem rateResult_pass {w : Word} (state : s.laneState l = 3 ∨ s.laneState l = 7) (result : (s.lane l).result = some true) (cap : s.capOf l = some w)
    (wide : Nat.testBit (capWidths w) 0 = true) :
    rateResult (n + 1) s (s.groupOf l) = toAlign s (s.groupOf l) [l] (s.lane l).tryRate (s.fecFor [l] (s.lane l).tryRate) l 0 := by
  have ⟨mem, _⟩ := alone
  rw [rateResult]
  simp only [lanesIn_training alone state, List.isEmpty_cons, List.any_cons, List.any_nil, result, Option.isNone_some, Bool.or_false, Bool.false_eq_true, if_false,
    List.headD_cons, List.filter_cons, List.filter_nil, decide_true, if_true, State.chooseRun_single mem cap wide]

/-- The lone lane of a span failed the rate. -/
theorem rateResult_fail (state : s.laneState l = 3 ∨ s.laneState l = 7) (result : (s.lane l).result = some false) :
    rateResult (n + 1) s (s.groupOf l) = if s.laneState l = 7 then groupToCap s (s.groupOf l) else
      match s.nextRate l with
      | some r => rateResult n (startRate s (s.groupOf l) 3 r [l]) (s.groupOf l)
      | none => (s.lanesIn (s.groupOf l) [3, 6]).foldl (fun s l => toDetect (s.satInc F.lsc_train_fails l 1) l) s := by
  rw [rateResult]
  simp only [lanesIn_training alone state, List.isEmpty_cons, List.any_cons, List.any_nil, result, Option.isNone_some, Bool.or_false, Bool.false_eq_true, if_false,
    List.headD_cons, List.filter_cons, List.filter_nil, Option.some.injEq, decide_false, State.chooseRun_nil, decide_eq_true_eq] <;> rfl

end

/-! ### A lone lane begins to train, aligns, or leaves -/

section
variable {s : State} {l : Nat}

/-- A lane under way, but not UP, takes another state short of UP. -/
theorem ownMoves_enterLane {t : State} (h : ownMoves l s t) {st : Nat} (left : t.laneState l ≠ 5) (up : st ≠ 5) (faulty : st ≠ 9) : ownMoves l s (enterLane t l st) := by
  rw [enterLane_quiet left up faulty]
  exact (h.put F.lsa_state st (by decide)).setLane _

theorem enterLane_laneState {st : Nat} (left : s.laneState l ≠ 5) (up : st ≠ 5) (small : st < 9) : (enterLane s l st).laneState l = st := by
  rw [enterLane_quiet left up (by omega), State.laneState, State.setLane_get, State.get_put_self _ _ _ _ (by decide) (by decide)]
  exact Nat.mod_eq_of_lt (by simp only [F.lsa_state]; omega)

theorem ownMoves_clearMode (s : State) (l : Nat) : ownMoves l s (clearMode s l) :=
  (((((ownMoves_refl l s).put F.lsa_rate 7 (by decide)).put F.lsa_fec 0 (by decide)).put F.lsa_width 0 (by decide)).put F.lsa_fmt_p64 0 (by decide)).setLane _

/-- A field of the lanes' words other than the mode that status word A shows. -/
theorem clearMode_get (s : State) (l : Nat) (f : Field) (j : Nat) (wf : f.lo ≤ f.hi ∧ f.hi < 64) (apart : f.hi < 52 ∨ 59 < f.lo) :
    (clearMode s l).get f j = s.get f j := by
  rw [clearMode, State.setLane_get, State.get_put_disjoint _ _ _ _ _ _ (by decide) wf (by simp only [F.lsa_fmt_p64]; omega),
    State.get_put_disjoint _ _ _ _ _ _ (by decide) wf (by simp only [F.lsa_width]; omega), State.get_put_disjoint _ _ _ _ _ _ (by decide) wf (by simp only [F.lsa_fec]; omega),
    State.get_put_disjoint _ _ _ _ _ _ (by decide) wf (by simp only [F.lsa_rate]; omega)]

theorem clearMode_laneState (s : State) (l m : Nat) : (clearMode s l).laneState m = s.laneState m := clearMode_get s l F.lsa_state m (by decide) (by decide)

/-- A lane that begins to train at a rate; `ok` where it passes R145. -/
def LaneX.training (x : LaneX) (rate : Nat) (ok : Bool) : LaneX :=
  { x with tryRate := rate, ready := false, result := if ok && x.common.contains rate then none else some false, locked := false, invalid := 0, headers := [], ucw := [] }

/-- The lane's training at a rate begins. -/
def training (s : State) (l st rate : Nat) (ok : Bool) : State :=
  let s := ((enterLane s l st).put F.lsa_member_mismatch l (b2n !ok)).put F.lsa_rate l rate
  s.setLane l ((s.lane l).training rate ok)

theorem startRate_single (s : State) (g st rate l : Nat) : startRate s g st rate [l] = training s l st rate (s.memberOk g l (s.refPid g)) := rfl

theorem training_rate {st rate : Nat} {ok : Bool} (low : rate < 8) : (training s l st rate ok).get F.lsa_rate l = rate := by
  rw [training, State.setLane_get, State.get_put_self _ _ _ _ (by decide) (by decide)]
  exact Nat.mod_eq_of_lt low

section
variable {st rate : Nat} {ok : Bool} (left : s.laneState l ≠ 5) (up : st ≠ 5) (small : st < 9)
include left up small

theorem ownMoves_training : ownMoves l s (training s l st rate ok) :=
  (((ownMoves_enterLane (ownMoves_refl l s) left up (by omega)).put F.lsa_member_mismatch _ (by decide)).put F.lsa_rate rate (by decide)).setLane _

theorem training_laneState : (training s l st rate ok).laneState l = st := by
  have apart := fun (f : Field) (v : Nat) (t : State) (wf : f.lo ≤ f.hi ∧ f.hi < 60) => State.get_put_disjoint t f F.lsa_state l l v ⟨wf.1, by omega⟩ (by decide) (.inl wf.2)
  rw [training, State.laneState, State.setLane_get, apart _ _ _ (by decide), apart _ _ _ (by decide)]
  exact enterLane_laneState left up small

/-- Another word of the lane. -/
theorem training_get (f : Field) (h : f.obj * 256 + f.sel ≠ 1 * 256 + 1) : (training s l st rate ok).get f l = s.get f l := by
  rw [training, State.setLane_get, State.get_put_otherWord _ F.lsa_rate _ _ _ h, State.get_put_otherWord _ F.lsa_member_mismatch _ _ _ h,
    enterLane_quiet left up (by omega), State.setLane_get, State.get_put_otherWord _ F.lsa_state _ _ _ h]

theorem training_lane : (training s l st rate ok).lane l = LaneX.training { s.lane l with enteredAt := s.tb.tick } rate ok := by
  rw [training, State.lane_setLane, State.put_lane, State.put_lane, enterLane_quiet left up (by omega), State.lane_setLane]

end

/-- What concerns neither a lane's state nor its mode stays as its exchange and training are forgotten. -/
theorem enterCleared_get (left : s.laneState l ≠ 5) {st : Nat} (up : st ≠ 5) (faulty : st ≠ 9) (f : Field) (j : Nat) (wf : f.lo ≤ f.hi ∧ f.hi < 52) :
    (enterLane (clearMode s l) l st).get f j = s.get f j := by
  rw [enterLane_quiet (by rwa [clearMode_laneState]) up faulty, State.setLane_get,
    State.get_put_disjoint _ _ _ _ _ _ (by decide) ⟨wf.1, by omega⟩ (by simp only [F.lsa_state]; omega), clearMode_get _ _ _ _ ⟨wf.1, by omega⟩ (by omega)]

theorem ownMoves_enterCleared (left : s.laneState l ≠ 5) {st : Nat} (up : st ≠ 5) (faulty : st ≠ 9) : ownMoves l s (enterLane (clearMode s l) l st) :=
  ownMoves_enterLane (ownMoves_clearMode s l) (by rwa [clearMode_laneState]) up faulty

theorem toDetect_laneState (left : s.laneState l ≠ 5) : (toDetect s l).laneState l = 1 :=
  enterLane_laneState (by rwa [clearMode_laneState]) (by decide) (by decide)

/-- A lane sends its capability block as it enters CAP_EXCH (R147). -/
theorem toCap_frame (s : State) (l : Nat) : ∃ o, toCap s l = { enterLane (clearMode s l) l 2 with out := o } := transmit_frame _ _

theorem ownMoves_toCap (left : s.laneState l ≠ 5) : ownMoves l s (toCap s l) := by
  obtain ⟨o, sent⟩ := toCap_frame s l
  rw [sent]
  exact ownMoves_enterCleared left (by decide) (by decide)

theorem toCap_laneState (left : s.laneState l ≠ 5) : (toCap s l).laneState l = 2 := by
  obtain ⟨o, sent⟩ := toCap_frame s l
  rw [sent]
  exact enterLane_laneState (by rwa [clearMode_laneState]) (by decide) (by decide)

theorem toCap_get (left : s.laneState l ≠ 5) (f : Field) (j : Nat) (wf : f.lo ≤ f.hi ∧ f.hi < 52) : (toCap s l).get f j = s.get f j := by
  obtain ⟨o, sent⟩ := toCap_frame s l
  rw [sent]
  exact enterCleared_get left (by decide) (by decide) f j wf

end

/-! ### Not ready in time -/

/-- A lone lane in training that failed the rate, with a lower one that is common. -/
theorem trainingFails_lower {s : State} {l n r : Nat} (hl : l < 1024) (alone : aloneInSpan s l) (state : s.laneState l = 3) (result : (s.lane l).result = some false)
    (member : s.memberOk (s.groupOf l) l (s.refPid (s.groupOf l)) = true) (lower : s.nextRate l = some r) :
    ∃ t, rateResult (n + 2) s (s.groupOf l) = t ∧ t.laneState l = 3 ∧ t.get F.lsa_rate l = r ∧ (t.lane l).tryRate = r ∧ t.trains l = true := by
  have left : s.laneState l ≠ 5 := by omega
  obtain ⟨rate, common⟩ : r < 8 ∧ (s.lane l).common.contains r = true := by
    have below : r ∈ [4, 3, 2, 1, 0] := List.mem_of_find?_eq_some lower
    have found := List.find?_some lower
    rw [Bool.and_eq_true] at found
    exact ⟨by simp only [List.mem_cons, List.not_mem_nil, or_false] at below; omega, found.2⟩
  have moves : ownMoves l s (training s l 3 r true) := ownMoves_training left (by decide) (by decide)
  have lane : (training s l 3 r true).lane l = _ := training_lane left (by decide) (by decide)
  have entered : (training s l 3 r true).laneState l = 3 := training_laneState left (by decide) (by decide)
  have waits : ((training s l 3 r true).lane l).result = none := by
    rw [lane, LaneX.training, common]
    rfl
  refine ⟨training s l 3 r true, ?_, entered, training_rate rate, by rw [lane]; rfl, by simp [State.trains, entered, waits]⟩
  rw [rateResult_fail alone (n + 1) (.inl state) result, if_neg (by omega), lower]
  dsimp only
  rw [startRate_single, member, ← moves.groupOf hl]
  refine rateResult_waits (m := l) ?_ waits
  rw [lanesIn_training (moves.alone hl alone) (.inl entered)]
  exact List.mem_singleton.mpr rfl

/-- A lone lane in training that failed the rate, with no lower one that is common. -/
theorem trainingFails_last {s : State} {l n : Nat} (alone : aloneInSpan s l) (state : s.laneState l = 3) (result : (s.lane l).result = some false)
    (last : s.nextRate l = none) :
    ∃ t, rateResult (n + 1) s (s.groupOf l) = t ∧ t.laneState l = 1 ∧ t.get F.lsc_train_fails l = plus s F.lsc_train_fails l 1 := by
  have counted : (s.satInc F.lsc_train_fails l 1).laneState l = s.laneState l := State.get_put_otherWord s F.lsc_train_fails F.lsa_state l _ (by decide)
  have left : (s.satInc F.lsc_train_fails l 1).laneState l ≠ 5 := by omega
  refine ⟨toDetect (s.satInc F.lsc_train_fails l 1) l, ?_, toDetect_laneState left, ?_⟩
  · rw [rateResult_fail alone n (.inl state) result, if_neg (by omega), last, lanesIn_alone alone (by decide), state]
    rfl
  · rw [toDetect, enterCleared_get left (by decide) (by decide) _ _ (by decide), satInc_get_self s _ _ _ (by decide) (by decide)]

/-! ### A lane alone aligns -/

/-- Status word A shows a mode (R150). -/
def modeShown (s : State) (l rate fec code : Nat) (p64 : Bool) : State :=
  (((s.put F.lsa_rate l rate).put F.lsa_fec l fec).put F.lsa_width l code).put F.lsa_fmt_p64 l (b2n p64)

/-- A lane of a run that is to align: it has no marker yet, and has been trained at the rate if it passed it. -/
def LaneX.aligning (x : LaneX) (rate : Nat) (passed : Bool) : LaneX :=
  { x with mkCount := none, mkSeen := 0, mkBad := 0, trained := if passed then distinct (x.trained ++ [rate]) else x.trained }

/-- A lane goes to ALIGN with its run, to STANDBY, or to CAP_EXCH where it failed a retrain (R150, R153). -/
def alignStep (run passed : List Nat) (rate fec code : Nat) (p64 : Bool) (s : State) (l : Nat) : State :=
  let s := modeShown s l rate fec code p64
  let s := s.setLane l ((s.lane l).aligning rate (passed.contains l))
  if s.laneState l = 7 && !passed.contains l then toCap s l else enterLane s l (if run.contains l then 4 else 6)

/-- Every lane of a run may take 64-bit words, and its group is a partner's (R150). -/
def State.runP64 (s : State) (g first code : Nat) : Bool :=
  !s.host g && (upTo first (2 ^ code)).all fun l => match s.capOf l with
    | some w => Nat.testBit (capFormats w) 1
    | none => false

theorem toAlign_eq (s : State) (g : Nat) (passed : List Nat) (rate fec first code : Nat) : ∃ t,
    t = (s.lanesIn g [3, 5, 6, 7]).foldl (alignStep (upTo first (2 ^ code)) passed rate fec code (s.runP64 g first code)) s ∧
    toAlign s g passed rate fec first code =
      t.setGroup g { t.group g with passed := passed, nextRun := some (first, code), mode := { rate := rate, fec := fec, code := code, pid := (t.capOf first).map capPid } } :=
  ⟨_, rfl, rfl⟩

section
variable {run passed : List Nat} {rate fec code l : Nat} {p64 : Bool} {s : State}

theorem modeShown_get (f : Field) (j : Nat) (wf : f.lo ≤ f.hi ∧ f.hi < 64) (apart : f.hi < 52 ∨ 59 < f.lo) : (modeShown s l rate fec code p64).get f j = s.get f j := by
  rw [modeShown, State.get_put_disjoint _ _ _ _ _ _ (by decide) wf (by simp only [F.lsa_fmt_p64]; omega),
    State.get_put_disjoint _ _ _ _ _ _ (by decide) wf (by simp only [F.lsa_width]; omega), State.get_put_disjoint _ _ _ _ _ _ (by decide) wf (by simp only [F.lsa_fec]; omega),
    State.get_put_disjoint _ _ _ _ _ _ (by decide) wf (by simp only [F.lsa_rate]; omega)]

theorem modeShown_rate : (modeShown s l rate fec code p64).get F.lsa_rate l = rate % 8 := by
  rw [modeShown, State.get_put_disjoint _ _ _ _ _ _ (by decide) (by decide) (by decide), State.get_put_disjoint _ _ _ _ _ _ (by decide) (by decide) (by decide),
    State.get_put_disjoint _ _ _ _ _ _ (by decide) (by decide) (by decide)]
  exact State.get_put_self _ _ _ _ (by decide) (by decide)

theorem modeShown_width : (modeShown s l rate fec code p64).get F.lsa_width l = code % 4 := by
  rw [modeShown, State.get_put_disjoint _ _ _ _ _ _ (by decide) (by decide) (by decide)]
  exact State.get_put_self _ _ _ _ (by decide) (by decide)

theorem modeShown_lanes : (modeShown s l rate fec code p64).lanes = s.lanes := by
  simp only [modeShown, State.put_lanes]

theorem modeShown_tb : (modeShown s l rate fec code p64).tb = s.tb := by
  simp only [modeShown, State.put_tb]

theorem modeShown_laneState (m : Nat) : (modeShown s l rate fec code p64).laneState m = s.laneState m := modeShown_get F.lsa_state m (by decide) (by decide)

theorem State.withLanes_setWord (s : State) (m : SMap LaneX) (o e i : Nat) (w : Word) : State.setWord { s with lanes := m } o e i w = { s.setWord o e i w with lanes := m } := rfl

theorem State.withLanes_word (s : State) (m : SMap LaneX) (o e i : Nat) : State.word { s with lanes := m } o e i = s.word o e i := rfl

theorem State.withLanes_put (s : State) (m : SMap LaneX) (f : Field) (i v : Nat) : State.put { s with lanes := m } f i v = { s.put f i v with lanes := m } := by
  rw [State.put, State.withLanes_word, State.withLanes_setWord, State.put]

theorem State.setLane_put (s : State) (l : Nat) (x : LaneX) (f : Field) (i v : Nat) : (s.setLane l x).put f i v = (s.put f i v).setLane l x := by
  rw [State.setLane, State.withLanes_put, State.setLane, State.put_lanes]

theorem State.withLanes_get (s : State) (m : SMap LaneX) (f : Field) (i : Nat) : State.get { s with lanes := m } f i = s.get f i := rfl

theorem State.withLanes_lane (s : State) (m : SMap LaneX) (l : Nat) : State.lane { s with lanes := m } l = mget LaneX.init m l := rfl

theorem State.setLane_setLane (s : State) (l : Nat) (x y : LaneX) :
    (s.setLane l x).setLane l y = { s with lanes := mset LaneX.init (mset LaneX.init s.lanes l x) l y } := rfl

/-- A lane of the run that passed, but was not UP. -/
theorem alignStep_quiet (mem : l ∈ run) (pass : l ∈ passed) (left : s.laneState l ≠ 5) : ∃ m,
    alignStep run passed rate fec code p64 s l = { (modeShown s l rate fec code p64).put F.lsa_state l 4 with lanes := m } ∧
      mget LaneX.init m l = { (s.lane l).aligning rate true with enteredAt := s.tb.tick } := by
  have passes : passed.contains l = true := by simpa using pass
  have lane : (modeShown s l rate fec code p64).lane l = s.lane l := congrArg (mget LaneX.init · l) modeShown_lanes
  have was : (modeShown s l rate fec code p64).laneState l ≠ 5 := by rwa [modeShown_laneState]
  have tick : (modeShown s l rate fec code p64).tb = s.tb := modeShown_tb
  unfold alignStep
  generalize modeShown s l rate fec code p64 = a at lane was tick ⊢
  dsimp only
  rw [if_neg (by rw [passes]; simp), if_pos (by simpa using mem), lane, passes, ← tick,
    enterLane_quiet (by rwa [State.laneState, State.setLane_get]) (by decide) (by decide), State.setLane_put, State.lane_setLane]
  refine ⟨_, State.setLane_setLane .., ?_⟩
  rw [mget_mset_self, State.setLane_tb]

end

/-- The lone lane of a span that passed a rate goes to ALIGN as a run of one. -/
theorem toAlign_alone {s : State} {l rate fec : Nat} (alone : aloneInSpan s l) (state : s.laneState l = 3 ∨ s.laneState l = 7) :
    ∃ t, toAlign s (s.groupOf l) [l] rate fec l 0 = t ∧ t.laneState l = 4 ∧ t.get F.lsa_rate l = rate % 8 ∧ t.get F.lsa_width l = 0 ∧
      (t.group (s.groupOf l)).nextRun = some (l, 0) ∧ (t.group (s.groupOf l)).passed = [l] ∧
      (t.group (s.groupOf l)).mode = { rate := rate, fec := fec, code := 0, pid := (s.capOf l).map capPid } := by
  obtain ⟨u, hu, aligned⟩ := toAlign_eq s (s.groupOf l) [l] rate fec l 0
  have run : l ∈ upTo l (2 ^ 0) := mem_upTo_first l 0
  obtain ⟨m, step, lane⟩ := alignStep_quiet (rate := rate) (fec := fec) (code := 0) (p64 := s.runP64 (s.groupOf l) l 0) (s := s) run (List.mem_singleton.mpr rfl)
    (by omega)
  rw [lanesIn_alone alone (by decide), if_pos (by rcases state with h | h <;> simp [h]), List.foldl_cons, List.foldl_nil, step] at hu
  have own : u.lane l = { (s.lane l).aligning rate true with enteredAt := s.tb.tick } := by rw [hu, State.withLanes_lane, lane]
  have get : ∀ f, u.get f l = ((modeShown s l rate fec 0 (s.runP64 (s.groupOf l) l 0)).put F.lsa_state l 4).get f l := fun f => by rw [hu, State.withLanes_get]
  have cap : u.capOf l = s.capOf l := by rw [State.capOf, own]; rfl
  refine ⟨_, aligned, ?_, ?_, ?_, ?_, ?_, ?_⟩
  · rw [State.laneState, State.setGroup_get, get]
    exact State.get_put_self _ _ _ _ (by decide) (by decide)
  · rw [State.setGroup_get, get, State.get_put_disjoint _ _ _ _ _ _ (by decide) (by decide) (by decide), modeShown_rate]
  · rw [State.setGroup_get, get, State.get_put_disjoint _ _ _ _ _ _ (by decide) (by decide) (by decide), modeShown_width]
  · rw [State.group_setGroup]
  · rw [State.group_setGroup]
  · rw [State.group_setGroup, cap]

/-! ### A retrain of a lone lane -/

/-- The group's entries into RETRAIN, with the one at the present tick. -/
def retrainNoted (s : State) (g : Nat) : State := s.setGroup g { s.group g with retrains := s.recentRetrains g ++ [s.tb.tick] }

/-- The same, counted by lane `l`. -/
def retrainCounted (s : State) (g l : Nat) : State := (retrainNoted s g).satInc F.lsb_retrains l 1

/-- No operating run of a group waits for alignment. -/
def noNextRun (s : State) (g : Nat) : State := s.setGroup g { s.group g with nextRun := none }

theorem noNextRun_retrains (s : State) (g : Nat) : ((noNextRun s g).group g).retrains = (s.group g).retrains := by
  rw [noNextRun, State.group_setGroup]

theorem startRetrain_eq (s : State) (g : Nat) : startRetrain s g =
    let ls := (retrainNoted s g).lanesIn g [4, 5, 6, 7]
    let c := ls.foldl (fun s l => s.satInc F.lsb_retrains l 1) (retrainNoted s g)
    rateResult 6 (leaveIfUp (startRate c g 7 (c.group g).mode.rate ls) g (s.groupUp g) (s.runLanes g)) g := rfl

section
variable {s : State} {l : Nat}

/-- Which lanes declare what R145 asks follows from the exchanges of the span's lanes. -/
theorem memberOk_congr {t : State} (cap : ∀ m, t.capOf m = s.capOf m) {g : Nat} (span : t.span g = s.span g) :
    t.memberOk g l (t.refPid g) = s.memberOk g l (s.refPid g) := by
  simp only [State.memberOk, State.refPid, cap, span] <;> rfl

theorem aloneInSpan_setGroup (alone : aloneInSpan s l) (g : Nat) (x : GroupX) : aloneInSpan (s.setGroup g x) l := alone

theorem ownMoves_retrainCounted (s : State) (l g : Nat) : ownMoves l (retrainNoted s g) (retrainCounted s g l) :=
  (ownMoves_refl l (retrainNoted s g)).satInc F.lsb_retrains 1 (by decide)

theorem retrainCounted_laneState (s : State) (l g : Nat) : (retrainCounted s g l).laneState l = s.laneState l :=
  State.get_put_otherWord (retrainNoted s g) F.lsb_retrains F.lsa_state l _ (by decide)

theorem groupToCap_alone (alone : aloneInSpan s l) (state : s.laneState l = 7) (down : s.groupUp (s.groupOf l) = false) :
    groupToCap s (s.groupOf l) = noNextRun (toCap s l) (s.groupOf l) := by
  rw [groupToCap, lanesIn_alone alone (by decide), state, down]
  rfl

section
variable (hl : l < 1024) (alone : aloneInSpan s l) (state : s.laneState l = 4)
include hl alone state

/-- The start of a retrain for the lone lane of a group that is not UP. -/
theorem startRetrain_alone (down : s.groupUp (s.groupOf l) = false) : startRetrain s (s.groupOf l) =
    let r := training (retrainCounted s (s.groupOf l) l) l 7 (s.group (s.groupOf l)).mode.rate (s.memberOk (s.groupOf l) l (s.refPid (s.groupOf l)))
    rateResult 6 (noNextRun r (s.groupOf l)) (s.groupOf l) := by
  have lanes : (retrainNoted s (s.groupOf l)).lanesIn (s.groupOf l) [4, 5, 6, 7] = [l] := by
    have under := lanesIn_alone (aloneInSpan_setGroup alone (s.groupOf l) { s.group (s.groupOf l) with retrains := s.recentRetrains (s.groupOf l) ++ [s.tb.tick] })
      (sts := [4, 5, 6, 7]) (by decide)
    refine under.trans (if_pos ?_)
    rw [State.laneState, State.setGroup_get, ← State.laneState, state]
    rfl
  have rate : ((retrainCounted s (s.groupOf l) l).group (s.groupOf l)).mode.rate = (s.group (s.groupOf l)).mode.rate := by
    rw [retrainCounted, State.satInc_group, retrainNoted, State.group_setGroup]
  have span : (retrainCounted s (s.groupOf l) l).span (s.groupOf l) = s.span (s.groupOf l) := (ownMoves_retrainCounted s l _).span hl _
  have cap : ∀ m, (retrainCounted s (s.groupOf l) l).capOf m = s.capOf m := fun m => by
    rw [State.capOf, retrainCounted, State.satInc_lane]
    rfl
  rw [startRetrain_eq]
  dsimp only
  rw [lanes, List.foldl_cons, List.foldl_nil, ← retrainCounted, startRate_single, rate, down, memberOk_congr cap span]
  rfl

/-- The retrain of the lone lane of a group that is not UP: at the rate of its run, or by a new exchange. -/
theorem startRetrain_alone_shows (down : s.groupUp (s.groupOf l) = false) :
    let rate := (s.group (s.groupOf l)).mode.rate
    let ok := s.memberOk (s.groupOf l) l (s.refPid (s.groupOf l)) && (s.lane l).common.contains rate
    ∃ t, startRetrain s (s.groupOf l) = t ∧ t.tb = s.tb ∧ t.get F.lsb_retrains l = plus s F.lsb_retrains l 1 ∧
      (t.group (s.groupOf l)).retrains = s.recentRetrains (s.groupOf l) ++ [s.tb.tick] ∧
      (ok = true → t.laneState l = 7 ∧ t.trains l = true ∧ (t.lane l).tryRate = rate) ∧ (ok = false → t.laneState l = 2) := by
  rw [startRetrain_alone hl alone state down]
  generalize s.memberOk (s.groupOf l) l (s.refPid (s.groupOf l)) = b
  intro rate ok
  dsimp only
  have left : (retrainCounted s (s.groupOf l) l).laneState l ≠ 5 := by
    rw [retrainCounted_laneState]
    omega
  have moves : ownMoves l (retrainNoted s (s.groupOf l)) (training (retrainCounted s (s.groupOf l) l) l 7 rate b) :=
    (ownMoves_retrainCounted s l _).trans (ownMoves_training left (by decide) (by decide))
  have still := moves.alone hl (aloneInSpan_setGroup alone _ _)
  have retrains : (training (retrainCounted s (s.groupOf l) l) l 7 rate b).laneState l = 7 := training_laneState left (by decide) (by decide)
  have lane : (training (retrainCounted s (s.groupOf l) l) l 7 rate b).lane l = _ := training_lane left (by decide) (by decide)
  have counted : (training (retrainCounted s (s.groupOf l) l) l 7 rate b).get F.lsb_retrains l = plus s F.lsb_retrains l 1 :=
    (training_get left (by decide) (by decide) F.lsb_retrains (by decide)).trans (satInc_get_self (retrainNoted s (s.groupOf l)) F.lsb_retrains l 1 (by decide) (by decide))
  have common : (retrainCounted s (s.groupOf l) l).lane l = s.lane l := State.satInc_lane ..
  generalize training (retrainCounted s (s.groupOf l) l) l 7 rate b = r at moves still retrains lane counted ⊢
  have home : r.groupOf l = s.groupOf l := moves.groupOf hl l
  have noted : (r.group (s.groupOf l)).retrains = s.recentRetrains (s.groupOf l) ++ [s.tb.tick] := by
    rw [moves.group, retrainNoted, State.group_setGroup]
  have stillDown : r.groupUp (s.groupOf l) = false := (moves.groupUp hl _).trans down
  have tb : r.tb = s.tb := by
    obtain ⟨-, -, -, tb⟩ := moves
    exact tb
  rw [common] at lane
  rw [← home] at noted stillDown ⊢
  have waiting := aloneInSpan_setGroup still (r.groupOf l) { r.group (r.groupOf l) with nextRun := none }
  have capLeft : (noNextRun r (r.groupOf l)).laneState l ≠ 5 := by
    rw [noNextRun, State.laneState, State.setGroup_get, ← State.laneState]
    omega
  have result : (r.lane l).result = if ok then none else some false := by
    rw [lane]
    rfl
  cases h : ok with
  | true =>
    have waits : (r.lane l).result = none := by
      rw [result, h]
      rfl
    refine ⟨noNextRun r (r.groupOf l), rateResult_waits (m := l) ?_ waits, tb, counted, (noNextRun_retrains ..).trans noted, fun _ => ⟨retrains, ?_, ?_⟩, fun h => ?_⟩
    · exact (lanesIn_training waiting (.inr retrains)).symm ▸ List.mem_singleton.mpr rfl
    · exact Bool.and_eq_true_iff.mpr ⟨by rw [State.laneState, noNextRun, State.setGroup_get, ← State.laneState, retrains]; rfl, Option.isNone_iff_eq_none.mpr waits⟩
    · exact congrArg LaneX.tryRate lane
    · cases h
  | false =>
    have fails : (r.lane l).result = some false := by
      rw [result, h]
      rfl
    obtain ⟨-, -, groups, ticks⟩ := ownMoves_toCap capLeft
    refine ⟨noNextRun (toCap (noNextRun r (r.groupOf l)) l) (r.groupOf l), ?_, ticks.trans tb, ?_, ?_, fun h => ?_, fun _ => ?_⟩
    · refine (rateResult_fail waiting 5 (.inr retrains) fails).trans ((if_pos retrains).trans ?_)
      exact groupToCap_alone waiting retrains stillDown
    · exact (toCap_get capLeft F.lsb_retrains l (by decide)).trans counted
    · rw [noNextRun_retrains, State.group, groups]
      exact (noNextRun_retrains ..).trans noted
    · cases h
    · exact toCap_laneState capLeft

end

end

/-! ### The instructions of a lane's training -/

section
variable {s : State} {l : Nat}

theorem aloneInSpan_setLane (hl : l < 1024) (alone : aloneInSpan s l) (x : LaneX) : aloneInSpan (s.setLane l x) l := ((ownMoves_refl l s).setLane x).alone hl alone

/-- A lane in training whose result is noted while another one of its span has none. -/
theorem rateResult_setLane_waits {m n g : Nat} (x : LaneX) (mem : m ∈ s.span g) (other : m ≠ l) (trains : s.trains m = true) :
    rateResult (n + 1) (s.setLane l x) g = s.setLane l x := by
  simp only [State.trains, Bool.and_eq_true, Option.isNone_iff_eq_none] at trains
  obtain ⟨state, waits⟩ := trains
  refine rateResult_waits (m := m) (List.mem_filter.mpr ⟨mem, ?_⟩) (by rwa [State.lane_setLane_ne s x other])
  have here : (s.setLane l x).laneState m = s.laneState m := rfl
  rw [here]
  simpa only [List.contains_eq_mem, List.mem_cons, List.not_mem_nil, or_false, decide_eq_true_eq, Bool.or_eq_true] using state

theorem capOf_setLane {x : LaneX} (cap : x.cap = (s.lane l).cap) (done : x.capDone = (s.lane l).capDone) (m : Nat) : (s.setLane l x).capOf m = s.capOf m := by
  by_cases h : m = l
  · rw [h, State.capOf, State.lane_setLane, cap, done, State.capOf]
  · rw [State.capOf, State.lane_setLane_ne s x h, State.capOf]

/-- A lane that fails the rate. -/
def rateFailed (s : State) (l : Nat) : State := s.setLane l { s.lane l with result := some false }

theorem exec_trainingNotReady (trains : s.trains l = true) (waits : (s.lane l).ready = false) :
    let u := advanceTo s ((s.lane l).enteredAt + 800000000)
    exec (.trainingNotReady l) s = .next (rateResult 6 (rateFailed u l) (u.groupOf l)) :=
  if_pos (by rw [trains, waits]; rfl)

theorem State.nextRate_eq_none_iff : s.nextRate l = none ↔ ∀ r ∈ (s.lane l).common, 4 < r ∨ (s.lane l).tryRate ≤ r := by
  rw [State.nextRate, List.find?_eq_none]
  simp only [Bool.and_eq_true, decide_eq_true_eq, List.contains_eq_mem, not_and]
  refine ⟨fun h r mem => ?_, fun h r low below mem => ?_⟩
  · by_contra no
    push Not at no
    have low : r ∈ [4, 3, 2, 1, 0] := by
      simp only [List.mem_cons, List.not_mem_nil, or_false]
      omega
    exact h r low no.2 mem
  · have := h r mem
    simp only [List.mem_cons, List.not_mem_nil, or_false] at low
    omega

/-- The lone lane of a span that fails a rate goes on to the next lower common one, or with none left to DETECT. -/
theorem rateFailed_alone (hl : l < 1024) (alone : aloneInSpan s l) (state : s.laneState l = 3)
    (member : s.memberOk (s.groupOf l) l (s.refPid (s.groupOf l)) = true) : ∃ t, rateResult 6 (rateFailed s l) (s.groupOf l) = t ∧
      (∀ r, s.nextRate l = some r → t.laneState l = 3 ∧ t.get F.lsa_rate l = r ∧ (t.lane l).tryRate = r ∧ t.trains l = true) ∧
      ((∀ r ∈ (s.lane l).common, 4 < r ∨ (s.lane l).tryRate ≤ r) → t.laneState l = 1 ∧ t.get F.lsc_train_fails l = plus s F.lsc_train_fails l 1) := by
  have own : (rateFailed s l).lane l = { s.lane l with result := some false } := State.lane_setLane ..
  have still : aloneInSpan (rateFailed s l) l := aloneInSpan_setLane hl alone _
  have failed : ((rateFailed s l).lane l).result = some false := by rw [own]
  have rates : (rateFailed s l).nextRate l = s.nextRate l := by rw [State.nextRate, own, State.nextRate]
  have member' : (rateFailed s l).memberOk (s.groupOf l) l ((rateFailed s l).refPid (s.groupOf l)) = true := by
    have cap : ∀ m, (rateFailed s l).capOf m = s.capOf m := capOf_setLane (x := { s.lane l with result := some false }) rfl rfl
    have span : (rateFailed s l).span (s.groupOf l) = s.span (s.groupOf l) := rfl
    rwa [memberOk_congr cap span]
  cases next : s.nextRate l with
  | some r =>
    obtain ⟨t, result, lower⟩ := trainingFails_lower (n := 4) hl still state failed member' (rates.trans next)
    refine ⟨t, result, fun r' h => ?_, fun none => ?_⟩
    · cases h
      exact lower
    · rw [State.nextRate_eq_none_iff.mpr none] at next
      cases next
  | none =>
    obtain ⟨t, result, last⟩ := trainingFails_last (n := 5) still state failed (rates.trans next)
    exact ⟨t, result, fun r h => (by cases h), fun _ => last⟩

theorem groupOf_advanceTo (s : State) (n l : Nat) : (advanceTo s n).groupOf l = s.groupOf l := by
  rw [State.groupOf, advanceTo_get, State.groupOf]

theorem aloneInSpan_advanceTo (alone : aloneInSpan s l) (n : Nat) : aloneInSpan (advanceTo s n) l := by
  simpa only [aloneInSpan, State.span, State.groupWidth, State.groupOf, State.laneState, advanceTo_get, advanceTo_lane] using alone

theorem exec_alignTimeout (alone : aloneInSpan s l) (state : s.laneState l = 4) :
    exec (.alignTimeout (s.groupOf l)) s = .next (startRetrain (advanceTo s ((s.lane l).enteredAt + 1600000)) (s.groupOf l)) := by
  have lanes : s.lanesIn (s.groupOf l) [4] = [l] := by
    rw [lanesIn_alone alone (by decide), state]
    rfl
  have arm : exec (.alignTimeout (s.groupOf l)) s = execAlignTimeout (s.groupOf l) s := rfl
  rw [arm, execAlignTimeout, lanes]
  rfl

/-- The limit of R134 for the errors of a window, with the FEC of the lanes that train. -/
def State.windowLimit (s : State) (l : Nat) : Nat := prbsLimit (s.fecFor (s.lanesIn (s.groupOf l) [3, 7]) (s.lane l).tryRate)

/-- A lane whose windows have ended. -/
def windowsEnded (s : State) (l a b : Nat) : State := s.setLane l { s.lane l with result := some (decide (max a b ≤ s.windowLimit l)) }

theorem exec_prbsWindowEnd (a b : Nat) (trains : s.trains l = true) (ready : (s.lane l).ready = true) :
    exec (.prbsWindowEnd l a b) s = .next (rateResult 6 (windowsEnded s l a b) (s.groupOf l)) :=
  if_pos (by rw [trains, ready]; rfl)

/-- The lone lane of a span whose windows end within the limit is to align. -/
theorem windowsEnded_pass (hl : l < 1024) (alone : aloneInSpan s l) (state : s.laneState l = 3 ∨ s.laneState l = 7) {a b : Nat} {w : Word}
    (passA : a ≤ s.windowLimit l) (passB : b ≤ s.windowLimit l) (cap : s.capOf l = some w) (wide : Nat.testBit (capWidths w) 0 = true) :
    let fec := s.fecFor (s.lanesIn (s.groupOf l) [3, 7]) (s.lane l).tryRate
    ∃ t, rateResult 6 (windowsEnded s l a b) (s.groupOf l) = t ∧ t.laneState l = 4 ∧ t.get F.lsa_rate l = (s.lane l).tryRate % 8 ∧ t.get F.lsa_width l = 0 ∧
      (t.group (s.groupOf l)).nextRun = some (l, 0) ∧ (t.group (s.groupOf l)).passed = [l] ∧
      (t.group (s.groupOf l)).mode = { rate := (s.lane l).tryRate, fec := fec, code := 0, pid := some (capPid w) } := by
  have own : (windowsEnded s l a b).lane l = { s.lane l with result := some (decide (max a b ≤ s.windowLimit l)) } := State.lane_setLane ..
  have still : aloneInSpan (windowsEnded s l a b) l := aloneInSpan_setLane hl alone _
  have training : (windowsEnded s l a b).laneState l = 3 ∨ (windowsEnded s l a b).laneState l = 7 := state
  have passed : ((windowsEnded s l a b).lane l).result = some true := by
    rw [own]
    exact congrArg some (decide_eq_true (Nat.max_le.mpr ⟨passA, passB⟩))
  have cap' : (windowsEnded s l a b).capOf l = some w := by
    rw [← cap, State.capOf, own, State.capOf]
  have rate : ((windowsEnded s l a b).lane l).tryRate = (s.lane l).tryRate := by rw [own]
  have fec : (windowsEnded s l a b).fecFor [l] (s.lane l).tryRate = s.fecFor (s.lanesIn (s.groupOf l) [3, 7]) (s.lane l).tryRate := by
    rw [lanesIn_training alone state, State.fecFor, State.fecFor]
    simp only [List.all_cons, List.all_nil, cap', cap]
  have aligns := toAlign_alone (rate := (s.lane l).tryRate) (fec := s.fecFor (s.lanesIn (s.groupOf l) [3, 7]) (s.lane l).tryRate) still training
  have result := rateResult_pass still 5 training passed cap' wide
  rw [rate, fec] at result
  obtain ⟨t, aligned, shows⟩ := aligns
  rw [cap'] at shows
  exact ⟨t, result.trans aligned, shows⟩

end

end Sys2Proof.Machine
end

section
/-! PROOF. Alignment markers, and a run that aligns, comes up and leaves UP (R139, R140, R143, R144, R153, R156, R160). -/

namespace Sys2Proof.Machine

open Sys2Proof.Claims

/-! ### Markers that leave -/

/-- The marker of a lane of a run (R144): its place, and the count. -/
def markerBlock (first count l : Nat) : Nat := (l - first) * 2 ^ 53 + count * 2 ^ 37

/-- The markers of a run's lanes that are not retired. -/
def State.markers (s : State) (run : List Nat) (first count : Nat) : List Out :=
  (run.filter fun l => s.laneState l != 10).map fun l => .block l 0x0F (markerBlock first count l)

/-- The lanes of a run each send a marker. -/
def sendMarkers (s : State) (run : List Nat) (first count : Nat) : State := run.foldl (fun s l => sendBlock s l 0x0F (markerBlock first count l)) s

theorem sendMarkers_shows (run : List Nat) (first count : Nat) {s : State} (drives : s.drives = true) :
    ∃ m o, sendMarkers s run first count = { s with lanes := m, out := o } ∧ noFill o = noFill s.out ++ s.markers run first count := by
  induction run generalizing s with
  | nil => exact ⟨s.lanes, s.out, rfl, (List.append_nil _).symm⟩
  | cons l run ih =>
    obtain ⟨m, o, sent⟩ := sendBlock_frame s l 0x0F (markerBlock first count l)
    obtain ⟨m', o', rest, out⟩ := ih (s := sendBlock s l 0x0F (markerBlock first count l)) (by rw [sent]; exact drives)
    refine ⟨m', o', rest.trans (by rw [sent]), ?_⟩
    have markers : (sendBlock s l 0x0F (markerBlock first count l)).markers run first count = s.markers run first count := by
      rw [sent]
      rfl
    rw [out, markers]
    by_cases retired : s.laneState l = 10
    · rw [sendBlock, if_pos retired, State.markers, State.markers, List.filter_cons_of_neg (by simp [retired])]
    · rw [sendBlock_noFill s drives retired (by decide), State.markers, State.markers, List.filter_cons_of_pos (by simp [retired]), List.map_cons, List.append_assoc]
      rfl

/-- The marker of a run of one lane, with the filler that is due before it. -/
theorem sendMarkers_single (l first count : Nat) {s : State} (drives : s.drives = true) (serves : s.laneState l ≠ 10) :
    (sendMarkers s [l] first count).out = s.out ++ fillerDue s l 1 ++ s.markers [l] first count := by
  have passed : (passBlocks s l 1).out = s.out ++ fillerDue s l 1 := by
    rw [passBlocks, if_neg (by simp [serves, drives]), fillerDue]
    split
    · rfl
    · exact (List.append_nil _).symm
  have driven : (passBlocks s l 1).drives = true := by
    obtain ⟨m, o, frame⟩ := passBlocks_frame s l 1
    rw [frame]
    exact drives
  have sent : sendMarkers s [l] first count = transmit (passBlocks s l 1) (.block l 0x0F (markerBlock first count l)) := if_neg serves
  have marker : s.markers [l] first count = [.block l 0x0F (markerBlock first count l)] := by
    rw [State.markers, List.filter_cons_of_pos (by simp [serves])]
    rfl
  rw [sent, transmit, if_pos driven, marker, ← passed]
  rfl

/-- The markers of a group have left on the lanes of a run. -/
def markersSent (s : State) (g : Nat) (run : List Nat) : State :=
  (sendMarkers s run (run.headD 0) (s.group g).mkTx).setGroup g { s.group g with mkTx := ((s.group g).mkTx + 1) % 65536 }

theorem markersSent_shows (g : Nat) (run : List Nat) {s : State} (drives : s.drives = true) :
    markersSent s g run = { s with groups := (markersSent s g run).groups, lanes := (markersSent s g run).lanes, out := (markersSent s g run).out } ∧
      noFill (markersSent s g run).out = noFill s.out ++ s.markers run (run.headD 0) (s.group g).mkTx ∧
      (markersSent s g run).group g = { s.group g with mkTx := ((s.group g).mkTx + 1) % 65536 } := by
  obtain ⟨m, o, sent, out⟩ := sendMarkers_shows run (run.headD 0) (s.group g).mkTx drives
  refine ⟨?_, ?_, State.group_setGroup ..⟩
  · rw [markersSent, sent]
    rfl
  · rw [markersSent, sent]
    exact out

section
variable {s : State} {g : Nat}

theorem markersSent_groupUp (run : List Nat) (drives : s.drives = true) : (markersSent s g run).groupUp g = s.groupUp g := by
  obtain ⟨frame, -⟩ := markersSent_shows g run drives
  rw [frame]
  rfl

/-- The lanes on which a group's markers leave: those of its run, or of the run that aligns (R144). -/
def State.markerRun (s : State) (g : Nat) : List Nat :=
  if s.groupUp g then s.runLanes g else match (s.group g).nextRun with
    | some (first, code) => if s.laneState first = 4 then upTo first (2 ^ code) else []
    | none => []

theorem exec_alignmentMarkerSend {run : List Nat} (runs : s.markerRun g = run) (nonempty : run ≠ []) :
    exec (.alignmentMarkerSend g) s = match (markersSent s g run).groupUp g, (s.group g).nextRun with
      | true, some (f, code) => .next (applyWidth (markersSent s g run) g f code)
      | _, _ => .next (markersSent s g run) := by
  subst runs
  exact if_neg (by rw [List.isEmpty_iff]; exact nonempty)

/-- What an UP group does with its markers: an accepted width change takes effect (R156). -/
theorem exec_alignmentMarkerSend_up (drives : s.drives = true) (up : s.groupUp g = true) (nonempty : s.runLanes g ≠ []) :
    exec (.alignmentMarkerSend g) s = .next (match (s.group g).nextRun with
      | some (f, code) => applyWidth (markersSent s g (s.runLanes g)) g f code
      | none => markersSent s g (s.runLanes g)) := by
  rw [exec_alignmentMarkerSend (if_pos up) nonempty, markersSent_groupUp _ drives, up]
  cases (s.group g).nextRun with
  | some r => rfl
  | none => rfl

theorem exec_alignmentMarkerSend_aligning {first code : Nat} (drives : s.drives = true) (down : s.groupUp g = false)
    (next : (s.group g).nextRun = some (first, code)) (state : s.laneState first = 4) :
    exec (.alignmentMarkerSend g) s = .next (markersSent s g (upTo first (2 ^ code))) := by
  have runs : s.markerRun g = upTo first (2 ^ code) := by
    rw [State.markerRun, down, next]
    exact if_pos state
  rw [exec_alignmentMarkerSend runs (List.ne_nil_of_mem (mem_upTo_first first code)), markersSent_groupUp _ drives, down]

end

/-- A run begins with its first lane. -/
theorem headD_upTo (first code : Nat) : (upTo first (2 ^ code)).headD 0 = first := by
  obtain ⟨n, hn⟩ := Nat.exists_eq_succ_of_ne_zero (Nat.two_pow_pos code).ne'
  rw [hn, upTo_cons, List.headD_cons]

/-! ### The words of lanes and groups -/

/-- The words of lanes and groups but those of `ks` are as they were. -/
def lowWords (ks : List Nat) (s t : State) : Prop := ∀ k, k < wkey 5 0 0 → k ∉ ks → regGet t.regs k = regGet s.regs k

section
variable {ks : List Nat} {s t u : State}

theorem lowWords_of_regs (h : t.regs = s.regs) (ks : List Nat) : lowWords ks s t := fun k _ _ => by rw [h]

theorem lowWords_refl (ks : List Nat) (s : State) : lowWords ks s s := lowWords_of_regs rfl ks

theorem lowWords.trans (h : lowWords ks s t) (h' : lowWords ks t u) : lowWords ks s u := fun k low hk => (h' k low hk).trans (h k low hk)

theorem lowWords.mono {ls : List Nat} (h : lowWords ks s t) (sub : ∀ k ∈ ks, k ∈ ls) : lowWords ls s t := fun k low hk => h k low fun hk' => hk (sub k hk')

theorem lowWords_of_sameWords {ls : List Nat} (h : sameWords s t ls) (high : ∀ k ∈ ls, wkey 5 0 0 ≤ k ∨ k ∈ ks) : lowWords ks s t := fun k low hk => h k fun hk' => by
  rcases high k hk' with h | h
  · omega
  · exact hk h

theorem lowWords_put (s : State) (f : Field) (i v : Nat) (h : wkey 5 0 0 ≤ wkey f.obj f.sel i ∨ wkey f.obj f.sel i ∈ ks) : lowWords ks s (s.put f i v) :=
  lowWords_of_sameWords (sameWords_put s f i v) fun k hk => by rwa [List.mem_singleton.mp hk]

theorem lowWords_foldl {α : Type} {f : State → α → State} (h : ∀ s a, lowWords ks s (f s a)) (as : List α) (s : State) : lowWords ks s (as.foldl f s) := by
  induction as generalizing s with
  | nil => exact lowWords_refl ks s
  | cons a as ih => exact (h s a).trans (ih (f s a))

theorem lowWords.get (h : lowWords ks s t) (f : Field) (j : Nat) (low : wkey f.obj f.sel j < wkey 5 0 0) (hk : wkey f.obj f.sel j ∉ ks) : t.get f j = s.get f j :=
  congrArg (bits · f.hi f.lo) (h _ low hk)

/-- The words of a host queue come later. -/
theorem wkey_queue_high (q : Nat) : wkey 5 0 0 ≤ wkey 5 7 q := by simp only [wkey]; omega

theorem lowWords_event (s : State) (p a b c d : Nat) (ws : List Word) : lowWords [] s (event s p a b c d ws) :=
  lowWords_of_sameWords (sameWords_emit s _ _ (List.mem_singleton.mpr rfl)) fun k hk => .inl (by rw [List.mem_singleton.mp hk]; exact wkey_queue_high _)

theorem lowWords_eventBoth (s : State) (p a b c d : Nat) (ws : List Word) : lowWords [] s (eventBoth s p a b c d ws) := by
  have first := lowWords_event s 0 a b c d ws
  exact iteInduction (fun _ => first) fun _ => first.trans (lowWords_event (event s 0 a b c d ws) p a b c d ws)

theorem lowWords_refcCheck (s : State) : lowWords [] s (refcCheck s) := by
  have state : lowWords [] s (setRef s 2 0) := by
    obtain ⟨-, -, words⟩ := leaves_setRef s 2 0
    exact lowWords_of_sameWords words (by decide)
  have selector : lowWords [] (setRef s 2 0) (selSettle (setRef s 2 0)) := by
    obtain ⟨-, -, words⟩ := leaves_selSettle (setRef s 2 0)
    exact lowWords_of_sameWords words (by decide)
  exact iteInduction (fun _ => state.trans selector) fun _ => lowWords_refl [] s

theorem lowWords_laneLeft (s : State) (l : Nat) : lowWords [] s (laneLeft s l) := by
  have freed := lowWords_foldl (ks := []) (f := fun (s : State) (r : Reply) => freeChan s r.part) (fun s r => by
    obtain ⟨m, e⟩ := freeChan_frame s r.part
    rw [e]
    exact lowWords_of_regs rfl []) ((s.hlane l).replies.filter (·.frees)) s
  exact iteInduction (fun _ => (freed.trans (lowWords_of_regs (State.setHlane_regs ..) [])).trans (lowWords_refcCheck _)) fun _ => lowWords_refl [] s

/-- What follows from a lane's change of state leaves the words of lanes and groups. -/
theorem lowWords_enterLane (s : State) (l st : Nat) : lowWords [] (s.put F.lsa_state l st) (enterLane s l st) := by
  unfold enterLane
  extract_lets old _ a b c
  have ha : lowWords [] (s.put F.lsa_state l st) a := lowWords_of_regs (State.setLane_regs ..) []
  have hb : lowWords [] a b := iteInduction (fun _ => lowWords_eventBoth a _ _ _ _ _ _) fun _ => lowWords_refl [] a
  have hc : lowWords [] b c := iteInduction (fun _ => lowWords_of_regs (raise_regs ..) []) fun _ => lowWords_refl [] b
  have hd : lowWords [] c (if old = 5 && st ≠ 5 then laneLeft c l else c) := iteInduction (fun _ => lowWords_laneLeft c l) fun _ => lowWords_refl [] c
  exact ((ha.trans hb).trans hc).trans hd

end

/-! ### A run goes to ALIGN -/

/-- The status word of a lane with its state. -/
def laneKey (l : Nat) : Nat := wkey 1 1 l

section
variable {run passed : List Nat} {rate fec code l : Nat} {p64 : Bool} {s : State}

theorem lowWords_enterLane_key (s : State) (l st : Nat) : lowWords [laneKey l] s (enterLane s l st) :=
  (lowWords_put s F.lsa_state l st (.inr (List.mem_singleton.mpr rfl))).trans ((lowWords_enterLane s l st).mono (by simp))

theorem lowWords_modeShown : lowWords [laneKey l] s (modeShown s l rate fec code p64) := by
  have key : ∀ (u : State) (f : Field) (v : Nat), f.obj = 1 ∧ f.sel = 1 → lowWords [laneKey l] u (u.put f l v) := fun u f v ⟨obj, sel⟩ =>
    lowWords_put u f l v (.inr (by rw [obj, sel]; exact List.mem_singleton.mpr rfl))
  exact (((key s F.lsa_rate _ (by decide)).trans (key _ F.lsa_fec _ (by decide))).trans (key _ F.lsa_width _ (by decide))).trans (key _ F.lsa_fmt_p64 _ (by decide))

theorem lowWords_toCap (s : State) (l : Nat) : lowWords [laneKey l] s (toCap s l) := by
  obtain ⟨o, sent⟩ := toCap_frame s l
  have cleared : lowWords [laneKey l] s (clearMode s l) := (lowWords_modeShown (rate := 7) (fec := 0) (code := 0) (p64 := false)).trans (lowWords_of_regs rfl _)
  rw [sent]
  exact cleared.trans (lowWords_enterLane_key (clearMode s l) l 2)

theorem lowWords_alignStep (run passed : List Nat) (rate fec code : Nat) (p64 : Bool) (s : State) (l : Nat) :
    lowWords [laneKey l] s (alignStep run passed rate fec code p64 s l) := by
  unfold alignStep
  extract_lets a b
  have hb : lowWords [laneKey l] s b := lowWords_modeShown.trans (lowWords_of_regs (State.setLane_regs ..) _)
  exact iteInduction (fun _ => hb.trans (lowWords_toCap b l)) fun _ => hb.trans (lowWords_enterLane_key b l _)

theorem enterLane_state {st : Nat} (hl : l < 2 ^ 24) (small : st < 16) (s : State) : (enterLane s l st).laneState l = st := by
  refine ((lowWords_enterLane s l st).get F.lsa_state l (by simp only [wkey, F.lsa_state]; omega) (by simp)).trans ?_
  exact (State.get_put_self _ _ _ _ (by decide) (by decide)).trans (Nat.mod_eq_of_lt (by simp only [F.lsa_state]; omega))

/-- A lane of the run that is not in RETRAIN is in ALIGN. -/
theorem alignStep_state (hl : l < 2 ^ 24) (mem : l ∈ run) (state : s.laneState l ≠ 7) : (alignStep run passed rate fec code p64 s l).laneState l = 4 := by
  have was : (modeShown s l rate fec code p64).laneState l ≠ 7 := by rwa [modeShown_laneState]
  unfold alignStep
  generalize modeShown s l rate fec code p64 = a at was ⊢
  dsimp only
  rw [if_neg (by simp [State.laneState] at was ⊢; simp [was]), if_pos (by simpa using mem)]
  exact enterLane_state hl (by decide) _

theorem alignSteps_shows (ls : List Nat) (nodup : ls.Nodup) (small : ∀ m ∈ ls, m < 2 ^ 24) (s : State) :
    lowWords (ls.map laneKey) s (ls.foldl (alignStep run passed rate fec code p64) s) ∧
      ∀ m ∈ ls, m ∈ run → s.laneState m ≠ 7 → (ls.foldl (alignStep run passed rate fec code p64) s).laneState m = 4 := by
  induction ls generalizing s with
  | nil => exact ⟨lowWords_refl _ s, by simp⟩
  | cons l ls ih =>
    obtain ⟨fresh, nodup'⟩ := List.nodup_cons.mp nodup
    have step := lowWords_alignStep run passed rate fec code p64 s l
    obtain ⟨words, states⟩ := ih nodup' (fun m hm => small m (List.mem_cons_of_mem l hm)) (alignStep run passed rate fec code p64 s l)
    have injective : ∀ m, m ≠ l → laneKey m ≠ laneKey l := fun m h e => h (by simpa [laneKey, wkey] using e)
    have low : ∀ m, m < 2 ^ 24 → wkey F.lsa_state.obj F.lsa_state.sel m < wkey 5 0 0 := fun m hm => by simp only [wkey, F.lsa_state]; omega
    rw [List.foldl_cons]
    refine ⟨(step.mono (by simp)).trans (words.mono (by simp +contextual)), fun m hm inRun state => ?_⟩
    rcases List.mem_cons.mp hm with rfl | later
    · refine (words.get F.lsa_state m (low m (small m hm)) ?_).trans (alignStep_state (small m hm) inRun state)
      rw [List.mem_map]
      rintro ⟨k, hk, key⟩
      exact injective k (fun h => fresh (h ▸ hk)) key
    · refine states m later inRun ?_
      have other : m ≠ l := fun h => fresh (h ▸ later)
      rwa [State.laneState, step.get F.lsa_state m (low m (small m hm)) (by rw [List.mem_singleton]; exact injective m other), ← State.laneState]

end

/-- Of a run that goes to ALIGN the words of its lanes with their states change; those that were UP or in STANDBY are in ALIGN. -/
theorem toAlign_shows {s : State} {g : Nat} (hg : g < 1024) (passed : List Nat) (rate fec first code : Nat) :
    lowWords ((s.span g).map laneKey) s (toAlign s g passed rate fec first code) ∧
      ∀ m ∈ upTo first (2 ^ code), m ∈ s.span g → s.laneState m = 5 ∨ s.laneState m = 6 → (toAlign s g passed rate fec first code).laneState m = 4 := by
  obtain ⟨t, ht, aligned⟩ := toAlign_eq s g passed rate fec first code
  have small : ∀ m ∈ s.span g, m < 2 ^ 24 := fun m hm => by
    have := span_lt hm
    omega
  obtain ⟨words, states⟩ := alignSteps_shows (run := upTo first (2 ^ code)) (passed := passed) (rate := rate) (fec := fec) (code := code) (p64 := s.runP64 g first code)
    (s.lanesIn g [3, 5, 6, 7]) ((nodup_upTo ..).filter _) (fun m hm => small m (List.mem_filter.mp hm).1) s
  rw [← ht] at words states
  rw [aligned]
  refine ⟨(words.mono fun k hk => ?_).trans (lowWords_of_regs (State.setGroup_regs ..) _), fun m inRun inSpan state => ?_⟩
  · obtain ⟨m, hm, rfl⟩ := List.mem_map.mp hk
    exact List.mem_map_of_mem (List.mem_filter.mp hm).1
  · refine states m (List.mem_filter.mpr ⟨inSpan, ?_⟩) inRun (by omega)
    rcases state with h | h <;> simp [h]

/-! ### A group leaves UP -/

/-- What the models of a run's lanes and the transactions of its group do as it leaves UP: the lanes' words below the timing status stay, as do those of groups
where the lanes' numbers are in range (`b`), and a group that is not UP stays so. -/
def followsDown (b : Prop) (s t : State) : Prop :=
  (∀ k < wkey 1 8 0, regGet t.regs k = regGet s.regs k) ∧ (b → ∀ k, wkey 2 0 0 ≤ k → k < wkey 2 1 0 → regGet t.regs k = regGet s.regs k) ∧
    ∀ g < 2 ^ 24, s.get F.grp_run_valid g = 0 → t.get F.grp_run_valid g = 0

section
variable {b : Prop} {s t u : State}

theorem followsDown_of_regs (b : Prop) (h : t.regs = s.regs) : followsDown b s t := by
  refine ⟨fun k _ => by rw [h], fun _ k _ _ => by rw [h], fun g _ zero => ?_⟩
  rwa [State.get, State.word, h]

theorem followsDown_refl (b : Prop) (s : State) : followsDown b s s := followsDown_of_regs b rfl

theorem followsDown.trans (h : followsDown b s t) (h' : followsDown b t u) : followsDown b s u := by
  obtain ⟨lanes, groups, down⟩ := h
  obtain ⟨lanes', groups', down'⟩ := h'
  exact ⟨fun k hk => (lanes' k hk).trans (lanes k hk), fun hb k low high => (groups' hb k low high).trans (groups hb k low high), fun g hg zero => down' g hg (down g hg zero)⟩

theorem followsDown_foldl {α : Type} {f : State → α → State} (as : List α) (h : ∀ s, ∀ a ∈ as, followsDown b s (f s a)) (s : State) :
    followsDown b s (as.foldl f s) := by
  induction as generalizing s with
  | nil => exact followsDown_refl b s
  | cons a as ih => exact (h s a List.mem_cons_self).trans (ih (fun s x hx => h s x (List.mem_cons_of_mem a hx)) (f s a))

/-- A timing status field of a lane that does not reach, or clears, the bit that shows a run. -/
theorem followsDown_put (s : State) (f : Field) {i : Nat} (v : Nat) (small : b → i < 2 ^ 24) (status : f.obj = 1 ∧ 8 ≤ f.sel ∧ f.sel ≤ 10)
    (field : f.lo ≤ f.hi ∧ f.hi < 64) (apart : f.hi < 21 ∨ 21 < f.lo ∨ v = 0) : followsDown b s (s.put f i v) := by
  obtain ⟨obj, low, high⟩ := status
  have others := sameWords_put s f i v
  refine ⟨fun k hk => others k ?_, fun hb k hl hh => others k ?_, fun g _ zero => ?_⟩
  · rw [List.mem_singleton]
    simp only [wkey, obj] at hk ⊢
    omega
  · have := small hb
    rw [List.mem_singleton]
    simp only [wkey, obj] at hl hh ⊢
    omega
  · by_cases cut : f.hi < 21 ∨ 21 < f.lo
    · rw [State.get_put_disjoint s f F.grp_run_valid i g v field (by decide) (by simp only [F.grp_run_valid]; omega), zero]
    · have cleared : v = 0 := by omega
      rw [cleared]
      exact get_put_zero (by simp [Field.wf, F.grp_run_valid]) zero f i ⟨field.1, field.2, by omega⟩

theorem followsDown_high (s : State) {f : Field} {i : Nat} (v : Nat) (high : wkey 2 1 0 ≤ wkey f.obj f.sel i) (field : f.lo ≤ f.hi ∧ f.hi < 64)
    (apart : f.hi < 21 ∨ 21 < f.lo) : followsDown b s (s.put f i v) := by
  have others := sameWords_put s f i v
  refine ⟨fun k hk => others k ?_, fun hb k hl hh => others k ?_, fun g _ zero => ?_⟩
  · rw [List.mem_singleton]
    simp only [wkey] at hk high ⊢
    omega
  · rw [List.mem_singleton]
    omega
  · rw [State.get_put_disjoint s f F.grp_run_valid i g v field (by decide) (by simp only [F.grp_run_valid]; omega), zero]

theorem followsDown_of_lowWords (h : lowWords [] s t) : followsDown b s t := by
  refine ⟨fun k hk => h k ?_ (by simp), fun _ k _ hk => h k ?_ (by simp), fun g hg zero => ?_⟩
  · simp only [wkey] at hk ⊢
    omega
  · simp only [wkey] at hk ⊢
    omega
  · rw [h.get F.grp_run_valid g (by simp only [wkey, F.grp_run_valid]; omega) (by simp), zero]

theorem followsDown_showWaited (s : State) (g : Nat) : followsDown b s (showWaited s g) :=
  followsDown_high s _ (by simp only [wkey, F.gmrg_waited]; omega) (by decide) (by decide)

/-! ### Models -/

theorem followsDown_showModelLane (s : State) {g : Nat} (small : b → g < 2 ^ 16) : followsDown b s (showModelLane s g) := by
  refine followsDown_foldl _ (fun u m hm => followsDown_put u F.ltsb_model_lane _ (fun hb => ?_) (by decide) (by decide) (.inl (by decide))) s
  have := span_lt hm
  have := small hb
  omega

section
variable {l : Nat} (small : b → l < 2 ^ 16)
include small

theorem followsDown_lane (s : State) (f : Field) (v : Nat) (status : f.obj = 1 ∧ 8 ≤ f.sel ∧ f.sel ≤ 10) (field : f.lo ≤ f.hi ∧ f.hi < 64)
    (apart : f.hi < 21 ∨ 21 < f.lo ∨ v = 0) : followsDown b s (s.put f l v) :=
  followsDown_put s f v (fun hb => by have := small hb; omega) status field apart

theorem followsDown_putMstate (s : State) (st : Nat) : followsDown b s (putMstate s l st) := by
  have put : followsDown b s (s.put F.ltsb_mstate l st) := followsDown_lane small s F.ltsb_mstate st (by decide) (by decide) (.inl (by decide))
  have noted : followsDown b s ((s.put F.ltsb_mstate l st).setModel l { s.model l with enteredAt := s.tb.tick }) := put.trans (followsDown_of_regs b (State.setModel_regs ..))
  exact noted.trans (followsDown_showModelLane _ fun hb => Nat.lt_of_le_of_lt (groupOf_le s l) (small hb))

/-- A model without a fit shows none. -/
theorem followsDown_showFit (s : State) (none : (s.model l).fitted = false) : followsDown b s (showFit s l) := by
  have fill : followsDown b s (s.put F.ltsb_fill_log2 l (min 31 (fillLog2 (s.model l).window.length))) :=
    followsDown_lane small s F.ltsb_fill_log2 _ (by decide) (by decide) (.inl (by decide))
  rw [showFit, none]
  exact (fill.trans (followsDown_lane small _ F.ltsa_offset 0 (by decide) (by decide) (by decide))).trans
    (followsDown_lane small _ F.ltsb_rate 0x80000000 (by decide) (by decide) (by decide))

theorem followsDown_modelNone (s : State) : followsDown b s (modelNone s l) := by
  unfold modelNone
  extract_lets _ v
  have emptied : followsDown b s v := followsDown_of_regs b (State.setModel_regs ..)
  have none : (v.model l).fitted = false := by rw [State.model_setModel]; rfl
  exact ((emptied.trans (followsDown_showFit small v none)).trans (followsDown_putMstate small _ 0)).trans
    (followsDown_lane small _ F.ltsb_resid_rms 0 (by decide) (by decide) (by decide))

theorem followsDown_modelLeave (s : State) : followsDown b s (modelLeave s l) := by
  have lost : followsDown b s (loseBeacons s l) :=
    (followsDown_lane small s F.ltsc_exch_lost _ (by decide) (by decide) (.inr (.inl (by decide)))).trans (followsDown_of_regs b (State.setModel_regs ..))
  unfold modelLeave
  extract_lets u st _
  refine lost.trans (iteInduction (fun _ => ?_) fun _ => iteInduction (fun _ => ?_) fun _ => followsDown_refl b u)
  · exact iteInduction (fun _ => followsDown_refl b u) fun _ => followsDown_modelNone small u
  · exact (followsDown_of_regs b (State.setModel_regs ..)).trans (followsDown_putMstate small _ 4)

end

/-! ### Transactions and the pause -/

theorem followsDown_txnDoneOne (s : State) (t stat pstatus : Nat) (data : List Word) (quar : Nat) : followsDown b s (txnDoneOne s t stat pstatus data quar) :=
  (followsDown_of_regs b (State.setTxn_regs ..)).trans (followsDown_of_lowWords (lowWords_event _ _ _ _ _ _ _))

theorem followsDown_txnDone (s : State) (t stat pstatus : Nat) (data : List Word) (quar : Nat) : followsDown b s (txnDone s t stat pstatus data quar) := by
  unfold txnDone
  extract_lets x u
  have done : followsDown b s u := followsDown_txnDoneOne ..
  split
  · exact iteInduction (fun _ => done.trans (followsDown_txnDoneOne ..)) fun _ => done
  · exact done

theorem followsDown_txnDrop (s : State) (g : Nat) : followsDown b s (txnDrop s g) := by
  refine followsDown_foldl _ (fun u e _ => ?_) s
  dsimp only
  exact iteInduction (fun _ => iteInduction (fun _ => followsDown_txnDone ..) fun _ => followsDown_of_regs b (State.setTxn_regs ..)) fun _ =>
    iteInduction (fun _ => followsDown_of_regs b (State.setTxn_regs ..)) fun _ => followsDown_refl b u

theorem lowWords_pauseFrame (s : State) (g op : Nat) : lowWords [] s (pauseFrame s g op) := by
  obtain ⟨m, k, o, e⟩ := pauseFrame_frame s g op
  rw [e]
  exact lowWords_of_regs rfl []

theorem lowWords_pauseSettle (s : State) (g : Nat) : lowWords [] s (pauseSettle s g) := by
  unfold pauseSettle
  extract_lets press u want x
  have shown : lowWords [] s u := lowWords_put s F.qia_pressure g _ (.inl (by simp only [wkey, F.qia_pressure]; omega))
  have counted : lowWords [] (pauseFrame u g 1) ((pauseFrame u g 1).satInc F.qis_pauses g 1) :=
    lowWords_put _ F.qis_pauses g _ (.inl (by simp only [wkey, F.qis_pauses]; omega))
  have resumed : lowWords [] u (if u.groupUp g then pauseFrame u g 2 else u) := iteInduction (fun _ => lowWords_pauseFrame u g 2) fun _ => lowWords_refl [] u
  refine shown.trans (iteInduction (fun _ => ?_) fun _ => iteInduction (fun _ => ?_) fun _ => lowWords_refl [] u)
  · exact ((lowWords_pauseFrame u g 1).trans counted).trans (lowWords_of_regs (State.setIng_regs ..) [])
  · exact resumed.trans (lowWords_of_regs (State.setIng_regs ..) [])

end

/-! ### The group -/

/-- The words of a span show no operating run. -/
def runHidden (s : State) (g : Nat) : State :=
  (s.span g).foldl (fun s l => ((s.put F.grp_run_valid l 0).put F.grp_aligned l 0).put F.grp_run_first l 0) s

/-- No field of the groups' words but those of the operating run is written as it is hidden. -/
theorem runHidden_get (s : State) (g : Nat) (f : Field) (j : Nat) (field : f.lo ≤ f.hi ∧ f.hi < 64)
    (apart : f.hi < 21 ∨ 21 < f.lo ∧ f.hi < 41 ∨ 51 < f.lo) : (runHidden s g).get f j = s.get f j := by
  unfold runHidden
  generalize s.span g = ls
  induction ls generalizing s with
  | nil => rfl
  | cons l ls ih =>
    rw [List.foldl_cons, ih, State.get_put_disjoint _ F.grp_run_first f _ _ _ (by decide) field (by simp only [F.grp_run_first]; omega),
      State.get_put_disjoint _ F.grp_aligned f _ _ _ (by decide) field (by simp only [F.grp_aligned]; omega),
      State.get_put_disjoint _ F.grp_run_valid f _ _ _ (by decide) field (by simp only [F.grp_run_valid]; omega)]

theorem mem_span_self (s : State) (g : Nat) : g ∈ s.span g := mem_upTo_first g _

theorem runHidden_down (s : State) (g : Nat) : (runHidden s g).get F.grp_run_valid g = 0 := by
  have wf : F.grp_run_valid.wf := by simp [Field.wf, F.grp_run_valid]
  have stays : ∀ (ls : List Nat) (u : State), u.get F.grp_run_valid g = 0 ∨ g ∈ ls →
      (ls.foldl (fun s l => ((s.put F.grp_run_valid l 0).put F.grp_aligned l 0).put F.grp_run_first l 0) u).get F.grp_run_valid g = 0 := by
    intro ls
    induction ls with
    | nil => exact fun u h => h.resolve_right (by simp)
    | cons l ls ih =>
      intro u h
      rw [List.foldl_cons]
      refine ih _ ?_
      rw [State.get_put_disjoint _ F.grp_run_first F.grp_run_valid _ _ _ (by decide) (by decide) (by decide),
        State.get_put_disjoint _ F.grp_aligned F.grp_run_valid _ _ _ (by decide) (by decide) (by decide)]
      rcases h with zero | mem
      · exact .inl (get_put_zero wf zero F.grp_run_valid l wf)
      · rcases List.mem_cons.mp mem with rfl | later
        · exact .inl (State.get_put_self u F.grp_run_valid g 0 (by decide) (by decide))
        · exact .inr later
  exact stays _ s (.inr (mem_span_self s g))

/-- The group once its run is no longer UP, before what follows the link. -/
def GroupX.left (x : GroupX) : GroupX :=
  { x with req := none, waitReq := [], nextRun := none, rxSeq := none, txSeq := 0, beacons := 0, waitFrom := none, markerUp := false, badBlock := false, recentTiles := [] }

def runLeft (s : State) (g : Nat) : State := (runHidden (gapNote s g) g).setGroup g ((runHidden (gapNote s g) g).group g).left

theorem groupDown_eq (s : State) (g : Nat) (run : List Nat) : groupDown s g run =
    if (runLeft s g).host g then runLeft s g
    else pauseSettle (showWaited (txnDrop (showModelLane (run.foldl modelLeave (runLeft s g)) g) g) g) g := rfl

/-- A group that is no longer UP, and what stays of the words of lanes and groups. -/
theorem groupDown_shows {b : Prop} (s : State) {g : Nat} (hg : g < 1024) {run : List Nat} (small : b → ∀ l ∈ run, l < 2 ^ 16) :
    (groupDown s g run).groupUp g = false ∧ (∀ m < 2 ^ 24, (groupDown s g run).laneState m = s.laneState m) ∧
      (b → ∀ m < 2 ^ 24, (groupDown s g run).get F.grp_align_losses m = s.get F.grp_align_losses m) := by
  have follows : followsDown b (runLeft s g) (groupDown s g run) := by
    rw [groupDown_eq]
    refine iteInduction (fun _ => followsDown_refl b _) fun _ => ?_
    have models : followsDown b (runLeft s g) (run.foldl modelLeave (runLeft s g)) :=
      followsDown_foldl run (fun u l hl => followsDown_modelLeave (fun hb => small hb l hl) u) _
    exact (((models.trans (followsDown_showModelLane _ fun _ => by omega)).trans (followsDown_txnDrop _ g)).trans (followsDown_showWaited _ g)).trans
      (followsDown_of_lowWords (lowWords_pauseSettle _ g))
  have left : ∀ (f : Field) (j : Nat), (runLeft s g).get f j = (runHidden (gapNote s g) g).get f j := fun f j => State.setGroup_get ..
  have gap : ∀ (f : Field) (j : Nat), (gapNote s g).get f j = s.get f j := fun f j => State.setGroup_get ..
  obtain ⟨lanes, groups, down⟩ := follows
  refine ⟨?_, fun m hm => ?_, fun hb m hm => ?_⟩
  · have zero := down g (by omega) ((left ..).trans (runHidden_down ..))
    rw [State.groupUp, State.flag, zero]
    rfl
  · refine (congrArg (bits · _ _) (lanes (wkey 1 1 m) (by simp only [wkey]; omega))).trans ((left F.lsa_state m).trans ?_)
    exact (runHidden_get _ g F.lsa_state m (by decide) (by decide)).trans (gap ..)
  · refine (congrArg (bits · _ _) (groups hb (wkey 2 0 m) (by simp only [wkey]; omega) (by simp only [wkey]; omega))).trans ((left F.grp_align_losses m).trans ?_)
    exact (runHidden_get _ g F.grp_align_losses m (by decide) (by decide)).trans (gap ..)

/-! ### A width change takes effect, and a run loses alignment -/

theorem applyWidth_eq (s : State) (g first code : Nat) : ∃ t,
    t = groupDown (toAlign s g (s.group g).passed (s.group g).mode.rate (s.group g).mode.fec first code) g (s.runLanes g) ∧
      applyWidth s g first code = t.setGroup g { t.group g with nextRun := some (first, code) } := ⟨_, rfl, rfl⟩

theorem applyWidth_shows {b : Prop} (s : State) {g : Nat} (hg : g < 1024) (small : b → ∀ l ∈ s.runLanes g, l < 2 ^ 16) (first code : Nat) :
    (applyWidth s g first code).groupUp g = false ∧ ((applyWidth s g first code).group g).nextRun = some (first, code) ∧
      (∀ m ∈ upTo first (2 ^ code), m ∈ s.span g → s.laneState m = 5 ∨ s.laneState m = 6 → (applyWidth s g first code).laneState m = 4) ∧
      (b → ∀ m < 2 ^ 24, (applyWidth s g first code).get F.grp_align_losses m = s.get F.grp_align_losses m) := by
  obtain ⟨t, ht, applied⟩ := applyWidth_eq s g first code
  obtain ⟨words, states⟩ := toAlign_shows hg (s.group g).passed (s.group g).mode.rate (s.group g).mode.fec first code
  obtain ⟨down, lanes, losses⟩ := groupDown_shows (toAlign s g (s.group g).passed (s.group g).mode.rate (s.group g).mode.fec first code) hg small
  rw [← ht] at down lanes losses
  rw [applied]
  refine ⟨?_, by rw [State.group_setGroup], fun m inRun inSpan state => ?_, fun hb m hm => ?_⟩
  · rw [State.groupUp, State.flag, State.setGroup_get]
    exact down
  · have := span_lt inSpan
    rw [State.laneState, State.setGroup_get, ← State.laneState, lanes m (by omega)]
    exact states m inRun inSpan state
  · rw [State.setGroup_get, losses hb m hm]
    refine (words.get F.grp_align_losses m (by simp only [wkey, F.grp_align_losses]; omega) fun mem => ?_)
    obtain ⟨l, hl, key⟩ := List.mem_map.mp mem
    have := span_lt hl
    simp only [laneKey, wkey, F.grp_align_losses] at key
    omega

/-- The losses of alignment are counted on every lane of a span (R170). -/
def lossesCounted (s : State) (g : Nat) : State := (s.span g).foldl (fun s l => s.satInc F.grp_align_losses l 1) s

theorem lossesCounted_shows (ls : List Nat) (nodup : ls.Nodup) (s : State) :
    (∃ r, ls.foldl (fun s l => s.satInc F.grp_align_losses l 1) s = { s with regs := r }) ∧
      (∀ f : Field, ∀ j, f.lo ≤ f.hi ∧ f.hi < 64 → f.hi < 25 ∨ 32 < f.lo → (ls.foldl (fun s l => s.satInc F.grp_align_losses l 1) s).get f j = s.get f j) ∧
      ∀ m, (ls.foldl (fun s l => s.satInc F.grp_align_losses l 1) s).get F.grp_align_losses m =
        if m ∈ ls then plus s F.grp_align_losses m 1 else s.get F.grp_align_losses m := by
  induction ls generalizing s with
  | nil => exact ⟨⟨s.regs, rfl⟩, fun _ _ _ _ => rfl, fun _ => rfl⟩
  | cons l ls ih =>
    obtain ⟨fresh, nodup'⟩ := List.nodup_cons.mp nodup
    obtain ⟨⟨r, frame⟩, others, losses⟩ := ih nodup' (s.satInc F.grp_align_losses l 1)
    obtain ⟨r', first⟩ := s.satInc_frame F.grp_align_losses l 1
    have beside : ∀ m, m ≠ l → (s.satInc F.grp_align_losses l 1).get F.grp_align_losses m = s.get F.grp_align_losses m := fun m h =>
      State.get_put_ne s F.grp_align_losses F.grp_align_losses l m _ (by simpa [wkey] using h)
    refine ⟨⟨r, by rw [List.foldl_cons, frame, first]⟩, fun f j field apart => ?_, fun m => ?_⟩
    · exact (others f j field apart).trans (State.get_put_disjoint s F.grp_align_losses f l j _ (by decide) field (by simp only [F.grp_align_losses]; omega))
    · rw [List.foldl_cons, losses]
      by_cases same : m = l
      · rw [same, if_neg fresh, if_pos List.mem_cons_self]
        exact satInc_get_self s _ _ _ (by decide) (by decide)
      · rw [plus_congr (beside m same), beside m same]
        simp only [List.mem_cons, same, false_or]

/-- A run that loses alignment: counted, no longer UP, and in ALIGN again (R144). -/
theorem alignLost_shows {s : State} {g : Nat} (hg : g < 1024) (stays : ∀ m ∈ s.runLanes g, m ∈ s.span g ∧ s.laneState m = 5) :
    (alignLost s g).groupUp g = false ∧ (∀ m ∈ s.span g, (alignLost s g).get F.grp_align_losses m = plus s F.grp_align_losses m 1) ∧
      ∀ m ∈ s.runLanes g, (alignLost s g).laneState m = 4 := by
  obtain ⟨⟨r, frame⟩, others, losses⟩ := lossesCounted_shows (s.span g) (nodup_upTo ..) s
  have counted : ∃ u, u = lossesCounted s g ∧ alignLost s g = applyWidth u g (s.get F.grp_run_first g) (s.group g).mode.code := ⟨_, rfl, rfl⟩
  obtain ⟨u, hu, lost⟩ := counted
  rw [← lossesCounted, ← hu] at frame others losses
  have up : u.groupUp g = s.groupUp g := State.flag_congr (others F.grp_run_valid g (by decide) (by decide))
  have first : u.get F.grp_run_first g = s.get F.grp_run_first g := others F.grp_run_first g (by decide) (by decide)
  have group : u.group g = s.group g := by rw [frame]; rfl
  have span : u.span g = s.span g := by rw [State.span, State.groupWidth, others F.grp_width_cfg g (by decide) (by decide), State.span, State.groupWidth]
  have runs : u.runLanes g = s.runLanes g := by rw [State.runLanes, up, first, group, State.runLanes]
  have state : ∀ m, u.laneState m = s.laneState m := fun m => others F.lsa_state m (by decide) (by decide)
  have small : True → ∀ l ∈ u.runLanes g, l < 2 ^ 16 := fun _ l hl => by
    rw [runs] at hl
    have := span_lt (stays l hl).1
    omega
  obtain ⟨down, -, aligns, kept⟩ := applyWidth_shows (b := True) u hg small (s.get F.grp_run_first g) (s.group g).mode.code
  rw [lost]
  refine ⟨down, fun m hm => ?_, fun m hm => ?_⟩
  · have := span_lt hm
    rw [kept trivial m (by omega), losses, if_pos hm]
  · obtain ⟨inSpan, isUp⟩ := stays m hm
    refine aligns m ?_ (by rwa [span]) (.inl (by rwa [state]))
    rw [State.runLanes] at hm
    split at hm
    · exact hm
    · simp at hm

/-! ### A group enters UP -/

theorem shown.lanes {l : Nat} {s t : State} (h : shown l s t) : t.lanes = s.lanes := by
  obtain ⟨⟨r, q, frame⟩, -⟩ := h
  rw [frame]

section
variable {l : Nat} (hl : l < 1024)
include hl

theorem putMstate_lanes (s : State) (st : Nat) : (putMstate s l st).lanes = s.lanes := by
  rw [putMstate, (shown_showModelLane l _ (Nat.lt_of_le_of_lt (groupOf_le s l) hl)).lanes, State.setModel_lanes, State.put_lanes]

theorem showFit_lanes (s : State) : (showFit s l).lanes = s.lanes := (shown_showFit hl s).lanes

theorem modelNone_lanes (s : State) : (modelNone s l).lanes = s.lanes := by
  rw [modelNone, State.put_lanes, putMstate_lanes hl, showFit_lanes hl, State.setModel_lanes]

theorem modelAcquire_lanes (s : State) : (modelAcquire s l).lanes = s.lanes := by
  rw [modelAcquire, putMstate_lanes hl, showFit_lanes hl, State.setModel_lanes]

/-- What the model of a lane does as its group enters UP concerns the timing alone. -/
theorem modelEnter_shows (s : State) :
    (modelEnter s l).lanes = s.lanes ∧ (modelEnter s l).groups = s.groups ∧ (modelEnter s l).tb = s.tb ∧ timingWords s (modelEnter s l) := by
  have of := fun {m : Model} {t : State} (h : becomes l m s t) (lanes : t.lanes = s.lanes) =>
    show t.lanes = s.lanes ∧ t.groups = s.groups ∧ t.tb = s.tb ∧ timingWords s t from by
      obtain ⟨-, tb, groups, words⟩ := h
      exact ⟨lanes, groups, tb, words⟩
  have acquired := (modelAcquire_takes hl s).1.trans (becomes_setModel (modelAcquire s l) l { (modelAcquire s l).model l with lastAccept := some (modelAcquire s l).tb.tick })
  unfold modelEnter
  extract_lets st
  split
  · exact of (modelNone_takes hl s).1 (modelNone_lanes hl s)
  · split
    · exact of (putMstate_takes hl s (by decide)).1 (putMstate_lanes hl s 5)
    · unfold modelStart
      split
      · exact of acquired (modelAcquire_lanes hl s)
      · exact ⟨rfl, rfl, rfl, fun _ _ => rfl⟩

end

/-- The exchanges of lanes, and what groups hold of their runs, are as they were. -/
def runsKept (s t : State) : Prop := t.tb = s.tb ∧ (∀ m, t.capOf m = s.capOf m) ∧
  ∀ g, (t.group g).passed = (s.group g).passed ∧ (t.group g).mode = (s.group g).mode ∧ (t.group g).period = (s.group g).period

section
variable {s t u : State}

theorem runsKept_of (tb : t.tb = s.tb) (lanes : t.lanes = s.lanes) (groups : t.groups = s.groups) : runsKept s t :=
  ⟨tb, fun m => by rw [State.capOf, State.lane, lanes, State.capOf, State.lane], fun g => by rw [State.group, groups]; exact ⟨rfl, rfl, rfl⟩⟩

theorem runsKept_refl (s : State) : runsKept s s := runsKept_of rfl rfl rfl

theorem runsKept.trans (h : runsKept s t) (h' : runsKept t u) : runsKept s u := by
  obtain ⟨tb, caps, groups⟩ := h
  obtain ⟨tb', caps', groups'⟩ := h'
  refine ⟨tb'.trans tb, fun m => (caps' m).trans (caps m), fun g => ?_⟩
  obtain ⟨passed, mode, period⟩ := groups g
  obtain ⟨passed', mode', period'⟩ := groups' g
  exact ⟨passed'.trans passed, mode'.trans mode, period'.trans period⟩

theorem runsKept_setLane (s : State) {l : Nat} {x : LaneX} (cap : x.cap = (s.lane l).cap) (done : x.capDone = (s.lane l).capDone) : runsKept s (s.setLane l x) :=
  ⟨rfl, capOf_setLane cap done, fun _ => ⟨rfl, rfl, rfl⟩⟩

theorem runsKept_setGroup (s : State) {g : Nat} {x : GroupX} (passed : x.passed = (s.group g).passed) (mode : x.mode = (s.group g).mode)
    (period : x.period = (s.group g).period) : runsKept s (s.setGroup g x) := by
  refine ⟨rfl, fun _ => rfl, fun j => ?_⟩
  by_cases h : j = g
  · rw [h, State.group_setGroup]
    exact ⟨passed, mode, period⟩
  · rw [State.group_setGroup_ne s x h]
    exact ⟨rfl, rfl, rfl⟩

theorem runsKept_passBlocks (s : State) (l n : Nat) : runsKept s (passBlocks s l n) := by
  unfold passBlocks
  extract_lets x
  have sent := fun k => runsKept_setLane s (l := l) (x := { s.lane l with sent := k }) rfl rfl
  refine iteInduction (fun _ => runsKept_refl s) fun _ => iteInduction (fun _ => ?_) fun _ => sent _
  exact (sent _).trans (runsKept_of rfl rfl rfl)

theorem runsKept_dealBlocks (s : State) (g n : Nat) : runsKept s (dealBlocks s g n) := by
  have passed : ∀ (f : Nat → Nat) (ls : List Nat) (u : State), runsKept u (ls.foldl (fun s l => passBlocks s l (f l)) u) := fun f ls => by
    induction ls with
    | nil => exact runsKept_refl
    | cons l ls ih => exact fun u => (runsKept_passBlocks u l (f l)).trans (ih _)
  unfold dealBlocks
  extract_lets run place u
  exact (passed (fun l => dealtTo run.length place (l - run.headD 0) n) run s).trans (runsKept_setGroup u rfl rfl rfl)

theorem runsKept_pauseFrame (s : State) (g op : Nat) : runsKept s (pauseFrame s g op) := by
  unfold pauseFrame sendFrame
  extract_lets x start u
  obtain ⟨o, sent⟩ := transmit_frame u (.frame g start [pack [(63, 56, op), (55, 40, s.get F.qic_pause_hold g)]]
    (frameEnd start [pack [(63, 56, op), (55, 40, s.get F.qic_pause_hold g)]]) x.dealt)
  rw [sent]
  exact ((runsKept_setGroup s (g := g) (x := { x with txSeq := (x.txSeq + 1) % 65536 }) rfl rfl rfl).trans (runsKept_dealBlocks ..)).trans (runsKept_of rfl rfl rfl)

theorem runsKept_pauseSettle (s : State) (g : Nat) : runsKept s (pauseSettle s g) := by
  unfold pauseSettle
  extract_lets press u want x v
  have shown : runsKept s u := runsKept_of (State.put_tb ..) (State.put_lanes ..) (State.put_groups ..)
  have counted : runsKept u v := (runsKept_pauseFrame u g 1).trans (runsKept_of (State.satInc_tb ..) (State.satInc_lanes ..) (State.satInc_groups ..))
  have resumed : runsKept u (if u.groupUp g then pauseFrame u g 2 else u) := iteInduction (fun _ => runsKept_pauseFrame u g 2) fun _ => runsKept_refl u
  refine shown.trans (iteInduction (fun _ => ?_) fun _ => iteInduction (fun _ => ?_) fun _ => runsKept_refl u)
  · exact counted.trans (runsKept_of rfl rfl rfl)
  · exact resumed.trans (runsKept_of rfl rfl rfl)

end

/-- The words of a span show the operating run from lane `first` on, and its skew. -/
def runShown (s : State) (ls : List Nat) (first skew : Nat) : State :=
  ls.foldl (fun s l => (((s.put F.grp_run_valid l 1).put F.grp_aligned l 1).put F.grp_run_first l first).put F.grp_skew_max l (min 255 skew)) s

theorem runShown_get (ls : List Nat) (first skew : Nat) (s : State) (f : Field) (j : Nat) (field : f.lo ≤ f.hi ∧ f.hi < 64)
    (apart : f.hi < 21 ∨ 21 < f.lo ∧ f.hi < 33 ∨ 51 < f.lo) : (runShown s ls first skew).get f j = s.get f j := by
  unfold runShown
  induction ls generalizing s with
  | nil => rfl
  | cons l ls ih =>
    rw [List.foldl_cons, ih, State.get_put_disjoint _ F.grp_skew_max f _ _ _ (by decide) field (by simp only [F.grp_skew_max]; omega),
      State.get_put_disjoint _ F.grp_run_first f _ _ _ (by decide) field (by simp only [F.grp_run_first]; omega),
      State.get_put_disjoint _ F.grp_aligned f _ _ _ (by decide) field (by simp only [F.grp_aligned]; omega),
      State.get_put_disjoint _ F.grp_run_valid f _ _ _ (by decide) field (by simp only [F.grp_run_valid]; omega)]

theorem runShown_run {g first : Nat} (small : first < 1024) (skew : Nat) (ls : List Nat) (s : State)
    (h : g ∈ ls ∨ s.get F.grp_run_valid g = 1 ∧ s.get F.grp_run_first g = first) :
    (runShown s ls first skew).get F.grp_run_valid g = 1 ∧ (runShown s ls first skew).get F.grp_run_first g = first := by
  unfold runShown
  induction ls generalizing s with
  | nil => exact h.resolve_left (by simp)
  | cons l ls ih =>
    rw [List.foldl_cons]
    refine ih _ ?_
    rw [State.get_put_disjoint _ F.grp_skew_max F.grp_run_valid _ _ _ (by decide) (by decide) (by decide),
      State.get_put_disjoint _ F.grp_run_first F.grp_run_valid _ _ _ (by decide) (by decide) (by decide),
      State.get_put_disjoint _ F.grp_aligned F.grp_run_valid _ _ _ (by decide) (by decide) (by decide),
      State.get_put_disjoint _ F.grp_skew_max F.grp_run_first _ _ _ (by decide) (by decide) (by decide)]
    by_cases same : g = l
    · subst same
      rw [State.get_put_self _ F.grp_run_first _ _ (by decide) (by decide), State.get_put_self _ F.grp_run_valid _ _ (by decide) (by decide)]
      exact .inr ⟨rfl, Nat.mod_eq_of_lt small⟩
    · rcases h with mem | shown
      · exact .inl ((List.mem_cons.mp mem).resolve_left same)
      · have key : ∀ f : Field, wkey f.obj f.sel g ≠ wkey f.obj f.sel l := fun f => by simpa [wkey] using same
        rw [State.get_put_ne _ F.grp_run_valid F.grp_run_valid _ _ _ (key _), State.get_put_ne _ F.grp_run_first F.grp_run_first _ _ _ (key _),
          State.get_put_disjoint _ F.grp_aligned F.grp_run_first _ _ _ (by decide) (by decide) (by decide),
          State.get_put_disjoint _ F.grp_run_valid F.grp_run_first _ _ _ (by decide) (by decide) (by decide)]
        exact .inr shown

theorem runShown_frame (ls : List Nat) (first skew : Nat) (s : State) : ∃ r, runShown s ls first skew = { s with regs := r } := by
  unfold runShown
  induction ls generalizing s with
  | nil => exact ⟨s.regs, rfl⟩
  | cons l ls ih =>
    obtain ⟨a, ha⟩ := s.put_frame F.grp_run_valid l 1
    obtain ⟨b, hb⟩ := State.put_frame { s with regs := a } F.grp_aligned l 1
    obtain ⟨c, hc⟩ := State.put_frame { s with regs := b } F.grp_run_first l first
    obtain ⟨d, hd⟩ := State.put_frame { s with regs := c } F.grp_skew_max l (min 255 skew)
    obtain ⟨r, hr⟩ := ih { s with regs := d }
    exact ⟨r, by rw [List.foldl_cons, ha, hb, hc, hd, hr]⟩

/-- The group as its run enters UP. -/
def GroupX.entered (x : GroupX) (tick : Nat) : GroupX :=
  { x with nextRun := none, rxSeq := none, txSeq := 0, beacons := 0, waitFrom := none, markerUp := false, dealt := 0, period := { marks := [], since := tick, bad := 0 } }

def runEntered (s : State) (g first skew : Nat) : State :=
  (runShown s (s.span g) first skew).setGroup g (((runShown s (s.span g) first skew).group g).entered (runShown s (s.span g) first skew).tb.tick)

theorem groupUpNow_single (s : State) (g l skew : Nat) : groupUpNow s g l [l] skew =
    if (runEntered s g l skew).host g then runEntered s g l skew else pauseSettle (modelEnter (runEntered s g l skew) l) g := rfl

/-- A run of one lane is UP. -/
theorem groupUpNow_single_shows (s : State) {g l : Nat} (hg : g < 1024) (hl : l < 1024) (skew : Nat) :
    let t := groupUpNow s g l [l] skew
    t.groupUp g = true ∧ t.get F.grp_run_first g = l ∧ (∀ m < 2 ^ 24, t.laneState m = s.laneState m) ∧ (∀ m, t.capOf m = s.capOf m) ∧
      (t.group g).passed = (s.group g).passed ∧ (t.group g).mode = (s.group g).mode ∧ (t.group g).period = { marks := [], since := t.tb.tick, bad := 0 } := by
  intro t
  have follows : runsKept (runEntered s g l skew) t ∧ ∀ (f : Field) (j : Nat), wkey f.obj f.sel j < wkey 1 8 0 ∨ wkey 1 10 0 ≤ wkey f.obj f.sel j ∧ wkey f.obj f.sel j < wkey 5 0 0 →
      t.get f j = (runEntered s g l skew).get f j := by
    have now : t = _ := groupUpNow_single s g l skew
    obtain ⟨lanes, groups, tb, words⟩ := modelEnter_shows hl (runEntered s g l skew)
    split at now
    · rw [now]
      exact ⟨runsKept_refl _, fun _ _ _ => rfl⟩
    · rw [now]
      refine ⟨(runsKept_of tb lanes groups).trans (runsKept_pauseSettle _ g), fun f j away => ?_⟩
      have low : wkey f.obj f.sel j < wkey 5 0 0 := by
        simp only [wkey] at away ⊢
        omega
      rw [(lowWords_pauseSettle _ g).get f j low (by simp)]
      refine words.get f j ?_
      simp only [wkey] at away ⊢
      omega
  obtain ⟨r, shown⟩ := runShown_frame (s.span g) l skew s
  obtain ⟨valid, first⟩ := runShown_run hl skew (s.span g) s (.inl (mem_span_self s g))
  obtain ⟨⟨tb, caps, kept⟩, words⟩ := follows
  obtain ⟨passed, mode, period⟩ := kept g
  have group : (runEntered s g l skew).group g = (s.group g).entered s.tb.tick := by
    rw [runEntered, State.group_setGroup, shown]
    rfl
  have entered : ∀ (f : Field) (j : Nat), (runEntered s g l skew).get f j = (runShown s (s.span g) l skew).get f j := fun f j => State.setGroup_get ..
  have ticks : t.tb = s.tb := by
    rw [tb, runEntered, State.setGroup_tb, shown]
  rw [group] at passed mode period
  refine ⟨?_, ?_, fun m hm => ?_, fun m => ?_, passed, mode, ?_⟩
  · rw [State.groupUp, State.flag, words F.grp_run_valid g (by simp only [wkey, F.grp_run_valid]; omega), entered, valid]
    rfl
  · rw [words F.grp_run_first g (by simp only [wkey, F.grp_run_first]; omega), entered, first]
  · rw [State.laneState, words F.lsa_state m (by simp only [wkey, F.lsa_state]; omega), entered]
    exact runShown_get _ _ _ _ F.lsa_state m (by decide) (by decide)
  · rw [caps, runEntered, shown]
    rfl
  · rw [period, ticks]
    rfl

/-! ### Markers that arrive -/

theorem gainLock_frame (s : State) (l : Nat) : ∃ m, gainLock s l = { s with lanes := m } := by
  unfold gainLock
  split
  · exact ⟨s.lanes, rfl⟩
  · exact ⟨_, rfl⟩

theorem runsKept_gainLock (s : State) (l : Nat) : runsKept s (gainLock s l) := by
  unfold gainLock
  split
  · exact runsKept_refl s
  · exact runsKept_setLane s rfl rfl

theorem gainLock_get (s : State) (l : Nat) (f : Field) (j : Nat) : (gainLock s l).get f j = s.get f j := by
  obtain ⟨m, e⟩ := gainLock_frame s l
  rw [e]
  rfl

theorem gainLock_lane (s : State) (l : Nat) : ∃ y, (gainLock s l).lane l = y ∧ y.locked = true ∧ ((s.lane l).locked = false → y.fill = 64000000) ∧
    y.mkCount = (s.lane l).mkCount ∧ y.mkSeen = (s.lane l).mkSeen := by
  unfold gainLock
  split
  · next locked => exact ⟨s.lane l, rfl, locked, fun h => (by rw [h] at locked; cases locked), rfl, rfl⟩
  · exact ⟨_, State.lane_setLane .., rfl, fun _ => rfl, rfl, rfl⟩

/-- A marker's count follows the lane's last one. -/
def LaneX.follows (x : LaneX) (count : Nat) : Bool := match x.mkCount with
  | some c => (c + 1) % 65536 = count
  | none => false

/-- A lane in ALIGN that has received a marker; `good` when it has the lane's place and a skew that may be removed. -/
def LaneX.marked (x : LaneX) (good : Bool) (count skew tick : Nat) : LaneX :=
  { x with mkCount := some count, mkSeen := if !good then 0 else if x.follows count then x.mkSeen + 1 else 1, mkBad := skew, mkTick := tick }

/-- The run once the skew of its lanes is confirmed. -/
def runAligned (s : State) (g first : Nat) (run : List Nat) : State :=
  groupUpNow (run.foldl (fun s l => enterLane (s.setLane l { s.lane l with mkBad := 0 }) l 5) s) g first run
    (skewNs (s.group g).mode.rate (run.foldl (fun m l => max m (s.lane l).mkBad) 0))

section
variable {s u : State} {l : Nat}

theorem exec_marker_aligning {member count skew at_ first code : Nat} (hu : gainLock (advanceTo s at_) l = u) (state : u.laneState l = 4)
    (next : (u.group (u.groupOf l)).nextRun = some (first, code)) :
    exec (.alignmentMarkerReceive l member count skew at_) s =
      let w := u.setLane l ((u.lane l).marked (member = l - first && decide (skew ≤ 128)) count skew u.tb.tick)
      if w.deskewed (upTo first (2 ^ code)) then .next (widthStill (runAligned w (u.groupOf l) first (upTo first (2 ^ code))) (u.groupOf l)) else .next w := by
  have arm : exec (.alignmentMarkerReceive l member count skew at_) s = execAlignmentMarkerReceive l member count skew at_ s := rfl
  rw [arm, execAlignmentMarkerReceive, hu]
  dsimp only
  rw [if_pos state, next]
  rfl

/-- A lane's first marker in ALIGN confirms nothing. -/
theorem marked_first (x : LaneX) (good : Bool) (count skew tick : Nat) (first : x.mkCount = none) : (x.marked good count skew tick).mkSeen ≤ 1 := by
  rw [LaneX.marked, LaneX.follows, first]
  cases good with
  | true => exact Nat.le_refl 1
  | false => exact Nat.zero_le 1

theorem deskewed_unseen {run : List Nat} (mem : l ∈ run) (seen : (s.lane l).mkSeen ≤ 1) : s.deskewed run = false := by
  rw [State.deskewed, List.all_eq_false]
  refine ⟨l, mem, ?_⟩
  simp only [Bool.and_eq_true, decide_eq_true_eq, not_and]
  omega

/-- The lane of a run of one, once its skew is confirmed. -/
theorem deskewed_single (state : s.laneState l = 4) (seen : 2 ≤ (s.lane l).mkSeen) : s.deskewed [l] = true := by
  simp [State.deskewed, state, seen]

theorem enterLane_up (state : s.laneState l = 4) : runsKept s (enterLane s l 5) := by
  have entered : enterLane s l 5 = laneEvent ((s.put F.lsa_state l 5).setLane l { s.lane l with enteredAt := s.tb.tick }) l := by
    simp only [enterLane, state]
    rfl
  rw [entered, laneEvent]
  have put : runsKept s (s.put F.lsa_state l 5) := runsKept_of (State.put_tb ..) (State.put_lanes ..) (State.put_groups ..)
  have noted : runsKept s ((s.put F.lsa_state l 5).setLane l { s.lane l with enteredAt := s.tb.tick }) :=
    put.trans (runsKept_setLane _ (by rw [State.put_lane]) (by rw [State.put_lane]))
  exact noted.trans (runsKept_of (eventBoth_tb ..) (eventBoth_lanes ..) (eventBoth_groups ..))

end

/-! ### A run of one is UP -/

section
variable {s u : State} {g l : Nat}

theorem runAligned_single (hg : g < 1024) (hl : l < 1024) (state : s.laneState l = 4) :
    let t := runAligned s g l [l]
    t.groupUp g = true ∧ t.get F.grp_run_first g = l ∧ t.laneState l = 5 ∧ (∀ m, t.capOf m = s.capOf m) ∧ (t.group g).passed = (s.group g).passed ∧
      (t.group g).mode = (s.group g).mode ∧ (t.group g).period = { marks := [], since := t.tb.tick, bad := 0 } := by
  have cleared : runsKept s (s.setLane l { s.lane l with mkBad := 0 }) := runsKept_setLane s rfl rfl
  have state' : (s.setLane l { s.lane l with mkBad := 0 }).laneState l = 4 := state
  obtain ⟨-, caps, groups⟩ := cleared.trans (enterLane_up state')
  have isUp : (enterLane (s.setLane l { s.lane l with mkBad := 0 }) l 5).laneState l = 5 := enterLane_state (by omega) (by decide) _
  obtain ⟨up, first, states, caps', passed, mode, period⟩ := groupUpNow_single_shows (enterLane (s.setLane l { s.lane l with mkBad := 0 }) l 5) hg hl
    (skewNs (s.group g).mode.rate ([l].foldl (fun m l => max m (s.lane l).mkBad) 0))
  obtain ⟨hadPassed, hadMode, -⟩ := groups g
  exact ⟨up, first, (states l (by omega)).trans isUp, fun m => (caps' m).trans (caps m), passed.trans hadPassed, mode.trans hadMode, period⟩

/-- A group whose run is still allowed asks for no other. -/
theorem widthStill_of_allowed (allowed : s.runOk g (s.widthLanes g) (s.get F.grp_run_first g) (s.group g).mode.code = true) : widthStill s g = s := if_pos allowed

theorem memberOk_cap {pid : Option Nat} (h : s.memberOk g l pid = true) : ∃ w, s.capOf l = some w := by
  unfold State.memberOk at h
  split at h
  · next w cap => exact ⟨w, cap⟩
  · cases h

/-- A run of the one lane `l`, that may be a run, comes up and stays. -/
theorem widthStill_runAligned (hg : g < 1024) (hl : l < 1024) (state : s.laneState l = 4) (code : (s.group g).mode.code = 0) (passed : l ∈ (s.group g).passed)
    (member : s.memberOk g l (s.group g).mode.pid = true) (wide : ∀ w, s.capOf l = some w → Nat.testBit (capWidths w) 0 = true) :
    ∃ t, widthStill (runAligned s g l [l]) g = t ∧ t.laneState l = 5 ∧ t.runLanes g = [l] ∧ t.groupUp g = true ∧
      (t.group g).period = { marks := [], since := t.tb.tick, bad := 0 } := by
  obtain ⟨up, first, isUp, caps, hadPassed, hadMode, period⟩ := runAligned_single hg hl state
  obtain ⟨w, cap⟩ := memberOk_cap member
  have stays : l ∈ (runAligned s g l [l]).widthLanes g := by
    refine List.mem_filter.mpr ⟨by rwa [hadPassed], ?_⟩
    rw [isUp, hadMode, State.memberOk, caps]
    exact member
  refine ⟨runAligned s g l [l], widthStill_of_allowed ?_, isUp, ?_, up, period⟩
  · rw [first, hadMode, code]
    exact runOk_single stays ((caps l).trans cap) (wide w cap)
  · rw [State.runLanes, up, first, hadMode, code]
    rfl

/-- The second marker in a row of a run of one takes it to UP. -/
theorem exec_marker_second {count skew at_ k : Nat} (hl : l < 1024) (hu : gainLock (advanceTo s at_) l = u) (state : u.laneState l = 4)
    (next : (u.group (u.groupOf l)).nextRun = some (l, 0)) (code : (u.group (u.groupOf l)).mode.code = 0) (near : skew ≤ 128) (seen : 1 ≤ (u.lane l).mkSeen)
    (last : (u.lane l).mkCount = some k) (follows : (k + 1) % 65536 = count) (passed : l ∈ (u.group (u.groupOf l)).passed)
    (member : u.memberOk (u.groupOf l) l (u.group (u.groupOf l)).mode.pid = true) (wide : ∀ w, u.capOf l = some w → Nat.testBit (capWidths w) 0 = true) :
    ∃ t, exec (.alignmentMarkerReceive l 0 count skew at_) s = .next t ∧ t.laneState l = 5 ∧ t.runLanes (u.groupOf l) = [l] ∧ t.groupUp (u.groupOf l) = true ∧
      (t.group (u.groupOf l)).period = { marks := [], since := t.tb.tick, bad := 0 } := by
  have inRow : (u.lane l).follows count = true := by
    rw [LaneX.follows, last]
    exact decide_eq_true follows
  have hg : u.groupOf l < 1024 := Nat.lt_of_le_of_lt (groupOf_le u l) hl
  have received := exec_marker_aligning (member := 0) (count := count) (skew := skew) hu state next
  have place : (decide (0 = l - l) && decide (skew ≤ 128)) = true := by simp [near]
  have one : upTo l (2 ^ 0) = [l] := rfl
  rw [place, one] at received
  generalize hw : u.setLane l ((u.lane l).marked true count skew u.tb.tick) = w at received
  have marked : (w.lane l) = (u.lane l).marked true count skew u.tb.tick := by rw [← hw, State.lane_setLane]
  have aligned : w.deskewed [l] = true := by
    refine deskewed_single (by rw [← hw]; exact state) ?_
    rw [marked, LaneX.marked, inRow]
    exact Nat.succ_le_succ seen
  obtain ⟨-, caps, groups⟩ := show runsKept u w from hw ▸ runsKept_setLane u rfl rfl
  obtain ⟨hadPassed, hadMode, -⟩ := groups (u.groupOf l)
  have up := widthStill_runAligned (s := w) hg hl (by rw [← hw]; exact state) (by rw [hadMode, code]) (by rwa [hadPassed])
    (by rw [hadMode, State.memberOk, caps]; exact member) (by rwa [caps])
  obtain ⟨t, stays, shows⟩ := up
  refine ⟨t, ?_, shows⟩
  rw [received]
  dsimp only
  rw [if_pos aligned]
  exact congrArg _ stays

/-- The first marker that a lane of a run in ALIGN receives. -/
theorem exec_marker_first {member count skew at_ first code : Nat} (hu : gainLock (advanceTo s at_) l = u) (state : u.laneState l = 4)
    (next : (u.group (u.groupOf l)).nextRun = some (first, code)) (mem : l ∈ upTo first (2 ^ code)) (fresh : (u.lane l).mkCount = none) :
    ∃ good : Bool, exec (.alignmentMarkerReceive l member count skew at_) s = .next (u.setLane l ((u.lane l).marked good count skew u.tb.tick)) := by
  have received := exec_marker_aligning (member := member) (count := count) (skew := skew) hu state next
  refine ⟨_, received.trans (if_neg ?_)⟩
  rw [Bool.not_eq_true]
  refine deskewed_unseen mem ?_
  rw [State.lane_setLane]
  exact marked_first _ _ _ _ _ fresh

end

/-! ### Markers of a run that is UP -/

/-- The words of a span show the largest skew since UP (R170). -/
def skewShown (s : State) (ls : List Nat) (ns : Nat) : State := ls.foldl (fun s l => s.put F.grp_skew_max l (max (s.get F.grp_skew_max l) (min 255 ns))) s

theorem skewShown_shows (ns : Nat) (ls : List Nat) (nodup : ls.Nodup) (s : State) : (∃ r, skewShown s ls ns = { s with regs := r }) ∧
    (∀ f : Field, ∀ j, f.lo ≤ f.hi ∧ f.hi < 64 → f.hi < 33 ∨ 40 < f.lo → (skewShown s ls ns).get f j = s.get f j) ∧
      ∀ m, (skewShown s ls ns).get F.grp_skew_max m = if m ∈ ls then max (s.get F.grp_skew_max m) (min 255 ns) else s.get F.grp_skew_max m := by
  unfold skewShown
  induction ls generalizing s with
  | nil => exact ⟨⟨s.regs, rfl⟩, fun _ _ _ _ => rfl, fun _ => rfl⟩
  | cons l ls ih =>
    obtain ⟨fresh, nodup'⟩ := List.nodup_cons.mp nodup
    obtain ⟨⟨r, frame⟩, others, largest⟩ := ih nodup' (s.put F.grp_skew_max l (max (s.get F.grp_skew_max l) (min 255 ns)))
    obtain ⟨r', first⟩ := s.put_frame F.grp_skew_max l (max (s.get F.grp_skew_max l) (min 255 ns))
    refine ⟨⟨r, by rw [List.foldl_cons, frame, first]⟩, fun f j field apart => ?_, fun m => ?_⟩
    · exact (others f j field apart).trans (State.get_put_disjoint s F.grp_skew_max f l j _ (by decide) field (by simp only [F.grp_skew_max]; omega))
    · rw [List.foldl_cons, largest]
      by_cases same : m = l
      · have byte : s.get F.grp_skew_max l < 256 := bits_lt (show F.grp_skew_max.lo ≤ F.grp_skew_max.hi by decide) (show F.grp_skew_max.hi < 64 by decide)
        rw [same, if_neg fresh, if_pos List.mem_cons_self, State.get_put_self _ _ _ _ (by decide) (by decide)]
        exact Nat.mod_eq_of_lt (show max (s.get F.grp_skew_max l) (min 255 ns) < 256 by omega)
      · rw [State.get_put_ne s F.grp_skew_max F.grp_skew_max l m _ (by simpa [wkey] using same)]
        simp only [List.mem_cons, same, false_or]

/-- What a marker of a run that is UP does to its period: `stale` where it begins the next one, `bad` the periods that did not agree before, `now` with this one. -/
theorem markTake_eq (s : State) (g l member count : Nat) :
    let x := s.group g
    let p := x.period
    let run := s.runLanes g
    let ok := decide (member = l - run.headD 0)
    let len := markTicks x.mode.rate
    let stale := p.marks ≠ [] ∧ ((∃ m ∈ p.marks, m.1 = l) ∨ p.since + len / 2 < s.tb.tick)
    let opens := p.marks = [] ∨ stale
    let missed := if opens then (s.tb.tick - p.since + len / 2) / len - 1 else 0
    let bad := p.bad + (if stale then 1 else 0) + missed
    let marks := (if stale then [] else p.marks) ++ [(l, count, ok)]
    let whole := ∀ k ∈ run, ∃ m ∈ marks, m.1 = k
    let now := if whole then (if ∀ m ∈ marks, m.2.2 = true ∧ m.2.1 = count then 0 else bad + 1) else bad
    markTake s g l member count =
      (s.setGroup g { x with period := { marks := if whole then [] else marks, since := if opens then s.tb.tick else p.since, bad := now } }, decide (3 ≤ bad ∨ 3 ≤ now)) := by
  intro x p run ok len stale opens missed bad marks whole now
  unfold markTake
  extract_lets again staleB opensB missedB badB marksB wholeB agrees nowB
  have isStale : staleB = decide stale := by
    rw [Bool.eq_iff_iff]
    simp [staleB, stale, again]
  have isOpen : opensB = decide opens := by
    rw [Bool.eq_iff_iff]
    simp [opensB, opens, isStale]
  have isBad : badB = bad := by
    simp only [badB, bad, missedB, missed, isStale, isOpen, b2n, decide_eq_true_eq]
  have isMarks : marksB = marks := by
    simp only [marksB, marks, isStale, decide_eq_true_eq, ok]
  have isWhole : wholeB = decide whole := by
    rw [Bool.eq_iff_iff]
    simp only [wholeB, whole, isMarks, List.all_eq_true, List.any_eq_true, decide_eq_true_eq]
  have isNow : nowB = now := by
    have agreed : agrees = decide (∀ m ∈ marks, m.2.2 = true ∧ m.2.1 = count) := by
      rw [Bool.eq_iff_iff]
      simp only [agrees, isMarks, List.all_eq_true, Bool.and_eq_true, decide_eq_true_eq]
    simp only [nowB, now, isWhole, agreed, isBad, decide_eq_true_eq]
  simp only [isWhole, isMarks, isOpen, isBad, isNow, decide_eq_true_eq, le_max_iff]

section
variable {s u : State} {l : Nat}

/-- A marker that a lane of an UP run receives: the skew is shown, and the period takes it. -/
theorem exec_marker_up {member count skew at_ : Nat} (hu : advanceTo s at_ = u) (state : u.laneState l = 5) (mem : l ∈ u.runLanes (u.groupOf l)) : ∃ z,
    exec (.alignmentMarkerReceive l member count skew at_) s =
      (if 128 < skew ∨ (markTake z (u.groupOf l) l member count).2 = true then .next (alignLost (markTake z (u.groupOf l) l member count).1 (u.groupOf l))
        else .next (markTake z (u.groupOf l) l member count).1) ∧
      z = { u with regs := z.regs, lanes := z.lanes } ∧
      (∀ f : Field, ∀ j, f.lo ≤ f.hi ∧ f.hi < 64 → f.hi < 33 ∨ 40 < f.lo → z.get f j = u.get f j) ∧
      ∀ m ∈ u.span (u.groupOf l), z.get F.grp_skew_max m = max (u.get F.grp_skew_max m) (min 255 (skewNs (u.group (u.groupOf l)).mode.rate skew)) := by
  obtain ⟨m, locked⟩ := gainLock_frame u l
  have get : ∀ f j, (gainLock u l).get f j = u.get f j := gainLock_get u l
  have home : (gainLock u l).groupOf l = u.groupOf l := by rw [locked]; rfl
  have span : (gainLock u l).span (u.groupOf l) = u.span (u.groupOf l) := by rw [locked]; rfl
  have mode : ((gainLock u l).group (u.groupOf l)).mode.rate = (u.group (u.groupOf l)).mode.rate := by rw [locked]; rfl
  have runs : (gainLock u l).runLanes (u.groupOf l) = u.runLanes (u.groupOf l) := by rw [locked]; rfl
  obtain ⟨⟨r, frame⟩, others, largest⟩ := skewShown_shows (skewNs (u.group (u.groupOf l)).mode.rate skew) (u.span (u.groupOf l)) (nodup_upTo ..) (gainLock u l)
  refine ⟨skewShown (gainLock u l) (u.span (u.groupOf l)) (skewNs (u.group (u.groupOf l)).mode.rate skew), ?_, ?_, fun f j field apart => ?_, fun m hm => ?_⟩
  · have arm : exec (.alignmentMarkerReceive l member count skew at_) s = execAlignmentMarkerReceive l member count skew at_ s := rfl
    have shown : showSkew (gainLock u l) (u.groupOf l) skew = skewShown (gainLock u l) (u.span (u.groupOf l)) (skewNs (u.group (u.groupOf l)).mode.rate skew) := by
      rw [← span, ← mode]
      rfl
    have isUp : (gainLock u l).laneState l = 5 := (get F.lsa_state l).trans state
    have member' : (decide ((gainLock u l).laneState l = 5) && ((gainLock u l).runLanes (u.groupOf l)).contains l) = true := by
      rw [runs, isUp]
      simpa using mem
    rw [arm, execAlignmentMarkerReceive, hu]
    dsimp only
    rw [home, if_neg (by rw [isUp]; decide), if_pos member', shown]
    simp only [Bool.or_eq_true, decide_eq_true_eq]
  · rw [frame, locked]
  · exact (others f j field apart).trans (get f j)
  · rw [largest, if_pos hm, get]

theorem groupUp_of_mem {g : Nat} (mem : l ∈ u.runLanes g) : u.groupUp g = true := by
  rw [State.runLanes] at mem
  split at mem
  · next up => exact up
  · simp at mem

/-- A run that loses alignment after a marker of it has been taken. -/
theorem marker_lost {z : State} {y : GroupX} (hl : l < 1024)
    (others : ∀ f : Field, ∀ j, f.lo ≤ f.hi ∧ f.hi < 64 → f.hi < 33 ∨ 40 < f.lo → z.get f j = u.get f j) (mode : y.mode = (u.group (u.groupOf l)).mode)
    (stays : ∀ m ∈ u.runLanes (u.groupOf l), m ∈ u.span (u.groupOf l) ∧ u.laneState m = 5) :
    let t := alignLost (z.setGroup (u.groupOf l) y) (u.groupOf l)
    t.groupUp (u.groupOf l) = false ∧ (∀ m ∈ u.span (u.groupOf l), t.get F.grp_align_losses m = plus u F.grp_align_losses m 1) ∧
      ∀ m ∈ u.runLanes (u.groupOf l), t.laneState m = 4 := by
  have get : ∀ f : Field, ∀ j, f.lo ≤ f.hi ∧ f.hi < 64 → f.hi < 33 ∨ 40 < f.lo → (z.setGroup (u.groupOf l) y).get f j = u.get f j := fun f j field apart =>
    (State.setGroup_get ..).trans (others f j field apart)
  have hg : u.groupOf l < 1024 := Nat.lt_of_le_of_lt (groupOf_le u l) hl
  have span : (z.setGroup (u.groupOf l) y).span (u.groupOf l) = u.span (u.groupOf l) := by
    rw [State.span, State.groupWidth, get F.grp_width_cfg _ (by decide) (by decide), State.span, State.groupWidth]
  have up : (z.setGroup (u.groupOf l) y).groupUp (u.groupOf l) = u.groupUp (u.groupOf l) := State.flag_congr (get F.grp_run_valid _ (by decide) (by decide))
  have runs : (z.setGroup (u.groupOf l) y).runLanes (u.groupOf l) = u.runLanes (u.groupOf l) := by
    rw [State.runLanes, up, get F.grp_run_first _ (by decide) (by decide), State.group_setGroup, mode, State.runLanes]
  obtain ⟨down, losses, aligns⟩ := alignLost_shows (s := z.setGroup (u.groupOf l) y) hg (by
    rw [runs, span]
    intro m hm
    obtain ⟨inSpan, isUp⟩ := stays m hm
    exact ⟨inSpan, (get F.lsa_state m (by decide) (by decide)).trans isUp⟩)
  rw [span] at losses
  rw [runs] at aligns
  exact ⟨down, fun m hm => (losses m hm).trans (plus_congr (get F.grp_align_losses m (by decide) (by decide)) 1), aligns⟩

end

end Sys2Proof.Machine

namespace Sys2Proof

open Sys2Proof.Machine Sys2Proof.Claims

/-- Settles O41: a lane alone in its span is moved by lemmas of its own (`trainingFails_lower`, `toAlign_alone`, `startRetrain_alone_shows`); of a run that comes up or
leaves UP only the words of lanes and groups matter (`lowWords`, `followsDown`). That lock comes with the first marker, and that a period which misses markers is known
by the next one, are the model's choices (log 19). -/
theorem trainingAndAlignment : Obligations.TrainingAndAlignment := by
  refine ⟨?_, ?_, ?_, ?_, ?_, ?_⟩
  · intro l s _ trains
    exact ⟨s.setLane l { s.lane l with ready := true }, if_pos trains, State.lane_setLane .., rfl⟩
  · intro l s hl trains waits u g
    have lane : u.lane l = s.lane l := advanceTo_lane ..
    have failed : ((rateFailed u l).lane l) = { u.lane l with result := some false } := State.lane_setLane ..
    refine ⟨fun ⟨m, mem, other, mTrains⟩ => ⟨rateFailed u l, ?_, failed, rfl⟩, fun alone state member => ?_⟩
    · rw [exec_trainingNotReady trains waits]
      rw [rateFailed, rateResult_setLane_waits _ mem other mTrains]
    · rw [exec_trainingNotReady trains waits]
      obtain ⟨t, result, lower, last⟩ := rateFailed_alone hl alone state member
      rw [result]
      exact ⟨t, rfl, lower, last⟩
  · intro l a b s hl trains ready g fec limit
    have state : s.laneState l = 3 ∨ s.laneState l = 7 := by
      simp only [State.trains, Bool.and_eq_true, Bool.or_eq_true, decide_eq_true_eq] at trains
      exact trains.1
    refine ⟨fun ⟨m, mem, other, mTrains⟩ => ⟨windowsEnded s l a b, ?_, rfl, ?_⟩, fun w alone passA passB cap wide => ?_⟩
    · rw [exec_prbsWindowEnd a b trains ready]
      rw [windowsEnded, rateResult_setLane_waits _ mem other mTrains]
    · rw [windowsEnded, State.lane_setLane]
      simp only [Nat.max_le, State.windowLimit, limit, fec, g]
    · rw [exec_prbsWindowEnd a b trains ready]
      obtain ⟨t, result, shows⟩ := windowsEnded_pass hl alone state passA passB cap wide
      rw [result]
      exact ⟨t, rfl, shows⟩
  · intro l member count skew at_ s hl u g x p run
    obtain ⟨m, locks⟩ := gainLock_frame u l
    obtain ⟨y, isLane, locked, half, marked, seen⟩ := gainLock_lane u l
    have home : (gainLock u l).groupOf l = g := by rw [locks]; rfl
    have groups : ∀ j, (gainLock u l).group j = u.group j := fun j => by rw [locks]; rfl
    have states : (gainLock u l).laneState l = u.laneState l := gainLock_get ..
    refine ⟨fun first code state next mem fresh => ?_, fun state next code _ member' near second last passed ok wide => ?_, fun state mem => ?_⟩
    · obtain ⟨good, received⟩ := exec_marker_first (member := member) (count := count) (skew := skew) rfl (states.trans state) (by rw [home, groups]; exact next) mem
        (by rw [isLane, marked]; exact fresh)
      refine ⟨_, received, ?_, ?_, ?_, fun unlocked => ?_⟩
      · rw [locks]
        rfl
      · rw [State.lane_setLane]
        rfl
      · rw [State.lane_setLane, isLane]
        exact locked
      · rw [State.lane_setLane, isLane]
        exact half unlocked
    · obtain ⟨k, counted, follows⟩ := last
      obtain ⟨-, caps, -⟩ := runsKept_gainLock u l
      have memberOk : (gainLock u l).memberOk g l (u.group g).mode.pid = true := by
        rw [State.memberOk, caps]
        exact ok
      subst member'
      have second' := exec_marker_second (s := s) (at_ := at_) (skew := skew) (count := count) (k := k) hl rfl (states.trans state) (by rw [home, groups]; exact next)
        (by rw [home, groups]; exact code) near (by rw [isLane, seen]; exact second) (by rw [isLane, marked]; exact counted) follows (by rw [home, groups]; exact passed)
        (by rw [home, groups]; exact memberOk) (by rw [caps]; exact wide)
      rwa [home] at second'
    · intro ok shown len back kept stale opens missed bad marks whole now stays
      obtain ⟨z, received, frame, others, largest⟩ := exec_marker_up (member := member) (count := count) (skew := skew) (u := u) rfl state mem
      have group : z.group g = u.group g := by rw [frame]; rfl
      have up : z.groupUp g = u.groupUp g := State.flag_congr (others F.grp_run_valid g (by decide) (by decide))
      have runs : z.runLanes g = u.runLanes g := by
        rw [State.runLanes, up, others F.grp_run_first g (by decide) (by decide), group, State.runLanes]
      have ticks : z.tb = u.tb := by rw [frame]
      have taken := markTake_eq z g l member count
      rw [group, runs, ticks] at taken
      have taken' : markTake z g l member count =
        (z.setGroup g { u.group g with period := { marks := if whole then [] else marks, since := if opens then u.tb.tick else p.since, bad := now } }, decide (3 ≤ bad ∨ 3 ≤ now)) := taken
      rw [taken'] at received
      simp only [decide_eq_true_eq] at received
      have isUp : u.groupUp g = true := groupUp_of_mem mem
      have lost := fun inRun => marker_lost (z := z)
        (y := { u.group g with period := { marks := if whole then [] else marks, since := if opens then u.tb.tick else p.since, bad := now } }) hl others rfl inRun
      refine ⟨fun far inRun => ⟨_, received.trans (if_pos (.inl far)), lost inRun⟩, fun _ due inRun => ⟨_, received.trans (if_pos (.inr due)), lost inRun⟩, fun near few few' => ?_⟩
      refine ⟨_, received.trans (if_neg (by omega)), fun k hk => ?_, ?_, ?_, up.trans isUp⟩
      · rw [State.setGroup_get]
        exact largest k hk
      · rw [State.group_setGroup]
      · rw [frame]
        rfl
  · intro g first run s hg drives x marks
    refine ⟨fun up isRun next head nonempty => ?_, fun code down next state isRun => ?_, fun f code up isRun next head nonempty => ?_⟩
    · subst isRun head
      obtain ⟨frame, out, group⟩ := markersSent_shows g (s.runLanes g) drives
      refine ⟨markersSent s g (s.runLanes g), ?_, frame, out, congrArg GroupX.mkTx group, fun l single serves => ?_⟩
      · rw [exec_alignmentMarkerSend_up drives up nonempty, next]
      · have single' := sendMarkers_single l ((s.runLanes g).headD 0) x.mkTx drives serves
        rw [← single] at single'
        exact single'
    · subst isRun
      obtain ⟨frame, out, -⟩ := markersSent_shows g (upTo first (2 ^ code)) drives
      rw [headD_upTo] at out
      exact ⟨_, exec_alignmentMarkerSend_aligning drives down next state, frame, out⟩
    · subst isRun
      obtain ⟨frame, -, -⟩ := markersSent_shows g (s.runLanes g) drives
      have span : (markersSent s g (s.runLanes g)).span g = s.span g := by rw [frame]; rfl
      have states : ∀ m, (markersSent s g (s.runLanes g)).laneState m = s.laneState m := fun m => by rw [frame]; rfl
      obtain ⟨down, next', aligns, -⟩ := applyWidth_shows (b := False) (markersSent s g (s.runLanes g)) hg (fun h => h.elim) f code
      simp only [span, states] at aligns
      refine ⟨_, ?_, down, next', aligns⟩
      rw [exec_alignmentMarkerSend_up drives up nonempty, next]
  · intro l s hl state g u recent rate ok alone down
    obtain ⟨home, lanes⟩ : u.groupOf l = s.groupOf l ∧ u.laneState l = s.laneState l := ⟨groupOf_advanceTo .., advanceTo_get ..⟩
    rw [exec_alignTimeout alone state]
    have aligns := startRetrain_alone_shows hl (aloneInSpan_advanceTo alone _) (lanes.trans state) (home.symm ▸ down)
    rw [home] at aligns
    obtain ⟨t, result, shows⟩ := aligns
    rw [result]
    exact ⟨t, rfl, shows⟩

end Sys2Proof
end
